-- ==== Sys2Proof/Word.lean ====
section
/-! DEFINITION. The word and byte types of the panel, and their plainest arithmetic. -/

namespace Sys2Proof

/-- One byte of memory (spec/00 R13). -/
abbrev Byte := BitVec 8
/-- A 32-bit register or a binary32 element. -/
abbrev W32 := BitVec 32
/-- A 64-bit register or a panel address. -/
abbrev W64 := BitVec 64

/-- Bits [msb:lsb] of a number, as spec/00 R11 writes a field. -/
def bits (x msb lsb : Nat) : Nat := (x >>> lsb) % 2 ^ (msb + 1 - lsb)

/-- Bit n of a number. -/
def bit (x n : Nat) : Bool := x.testBit n

/-- A field's mask. -/
def fieldMask (msb lsb : Nat) : Nat := (2 ^ (msb + 1 - lsb) - 1) <<< lsb

/-- x with the field [msb:lsb] replaced by v (v cut to the field). -/
def setBits (x msb lsb v : Nat) : Nat :=
  (x - (x &&& fieldMask msb lsb)) + ((v % 2 ^ (msb + 1 - lsb)) <<< lsb)

/-- A Bool as a bit. -/
def b2n (b : Bool) : Nat := if b then 1 else 0

/-- A signed reading of the low w bits. -/
def signedOf (w x : Nat) : Int :=
  let y := x % 2 ^ w
  if y < 2 ^ (w - 1) then (y : Int) else (y : Int) - (2 ^ w : Nat)

/-- An integer as a w-bit two's complement number. -/
def toTwos (w : Nat) (i : Int) : Nat := (i % ((2 ^ w : Nat) : Int)).toNat

/-- a - b in w-bit arithmetic that wraps. -/
def wrapSub (w a b : Nat) : Nat := toTwos w ((a : Int) - (b : Int))

/-- Little-endian value of bytes (spec/00 R13). -/
def leVal : List Byte → Nat
  | [] => 0
  | b :: bs => b.toNat + 256 * leVal bs

/-- n little-endian bytes of a value (spec/00 R13). -/
def leBytes : Nat → Nat → List Byte
  | 0, _ => []
  | n + 1, v => BitVec.ofNat 8 v :: leBytes n (v / 256)

/-- Ceiling division. -/
def cdiv (a b : Nat) : Nat := (a + b - 1) / b

end Sys2Proof
end

