-- ==== Sys2Proof/Syntax.lean ====
section
/-! DEFINITION. The commands the panel takes: one constructor of `Instr` for each row of spec/opcode_table.json, with the row's
operands. Unit numbers are the spec's own: a compute die, router or spindle node by its spindle node number (spec/11 R335), a place
by its core number (spec/02 R65), memory dies, fabric dies and regions by R26, logical sites by R14. -/

namespace Sys2Proof

/-- Who makes an access (spec/00 R20, R21; spec/13 R388; spec/18 R512). -/
inductive Source where
  | host (part : Nat)          -- a host of a partition
  | score (die s : Nat)        -- an S-core
  | pcd                        -- the active PCD (Uttos)
  | mgmt                       -- the management path
deriving DecidableEq, Repr, Inhabited

/-- What a SEC-DED or Reed–Solomon decoder found in a word as it arrived (spec/07 R202, R532; spec/11 R315). -/
inductive Ecc where
  | clean
  | corrected
  | uncorrectable
deriving DecidableEq, Repr, Inhabited

/-- A token of a stream (spec/08 R219); the check bits are what the decoder found, given beside it. -/
structure Token where
  payload : BitVec 512
  gen : BitVec 4
  hdr : Bool
deriving DecidableEq, Repr, Inhabited

/-- LOADW (spec/03, layout under R94); `rsv`: a reserved field is not 0. -/
structure LoadwCmd where
  fmt : BitVec 4
  mx : Bool
  mxdir : Bool
  src : Bool
  lane : Bool
  rowsM1 : BitVec 6
  colsM1 : BitVec 6
  addr : BitVec 32
  stride : BitVec 24
  scaleAddr : BitVec 32
  sstride : BitVec 24
  rsv : Bool
deriving DecidableEq, Repr, Inhabited

/-- STREAM (spec/03, layout under R98). It has no row of its own; the sequencer issues it from turn memory. -/
structure StreamCmd where
  fmt : BitVec 4
  mx : Bool
  read : Bool
  swap : Bool
  acc : Bool
  src : Bool
  lane : Bool
  mrowsM1 : BitVec 10
  addr : BitVec 32
  stride : BitVec 24
  scaleAddr : BitVec 32
  sstride : BitVec 24
  accRow : BitVec 10
  gtag : BitVec 16
  rsv : Bool
deriving DecidableEq, Repr, Inhabited

/-- READOUT (spec/03, layout under R99). -/
structure ReadoutCmd where
  fmt : BitVec 4
  mx : Bool
  rmode : BitVec 2
  sat : Bool
  dst : Bool
  lane : Bool
  clear : Bool
  nrowsM1 : BitVec 10
  addr : BitVec 32
  stride : BitVec 24
  scaleAddr : BitVec 32
  sstride : BitVec 24
  accRow : BitVec 10
  colsM1 : BitVec 6
  rsv : Bool
deriving DecidableEq, Repr, Inhabited

/-- ZERO (spec/03 R101). -/
structure ZeroCmd where
  nrowsM1 : BitVec 10
  accRow : BitVec 10
  rsv : Bool
deriving DecidableEq, Repr, Inhabited

/-- REDUCE without its MODE field, which the row names (spec/04, layout under R132). -/
structure ReduceCmd where
  laneIn : Bool
  laneOut : Bool
  clear : Bool
  nrowsM1 : BitVec 10
  accRow : BitVec 10
  colsM1 : BitVec 6
  gtag : BitVec 16
  expect : BitVec 8
  rsv : Bool
deriving DecidableEq, Repr, Inhabited

/-- A scraper row command (spec/05, layout under R147): NORM, SOFTMAX, NORMB, SOFTMAXB. -/
structure RowCmd where
  fmtIn : BitVec 4
  fmtOut : BitVec 4
  mx : Bool
  rmode : BitVec 2
  sat : Bool
  src : Bool
  laneIn : Bool
  dst : Bool
  laneOut : Bool
  variant : Bool
  b21 : Bool                   -- NOBETA (NORM) or GB (NORMB); reserved otherwise
  gbacc : Bool
  fmtAux : BitVec 4
  addrIn : BitVec 32
  addrOut : BitVec 32
  addrAux : BitVec 32
  param : BitVec 32
  strideIn : BitVec 16
  strideOut : BitVec 16
  strideAux : BitVec 16
  nrowsM1 : BitVec 16
  slot : BitVec 18
  colsM1 : BitVec 14
  rsv : Bool                   -- bits 31:27 of word 0 not 0
deriving DecidableEq, Repr, Inhabited

/-- SMOVE without its DIR field, which the row names (spec/05, layout under R149). -/
structure SmoveCmd where
  kind : BitVec 3
  addr : BitVec 32
  slot : BitVec 18
  countM1 : BitVec 18
  rsv : Bool
deriving DecidableEq, Repr, Inhabited

/-- SETUP (spec/05, layout under R148). -/
structure SetupCmd where
  eps : BitVec 32
  diag : BitVec 16
  gbSlot : BitVec 18
  rsv : Bool
deriving DecidableEq, Repr, Inhabited

/-- A V-core instruction word without its opcode, which the row names (spec/06 R166). -/
structure VIns where
  vd : BitVec 7
  va : BitVec 7
  vb : BitVec 7
  vc : BitVec 7
  fmt : BitVec 4
  rmode : BitVec 2
  sat : Bool
  mask : BitVec 3
  rsv : Bool                   -- bit 46
  imm : BitVec 17
deriving DecidableEq, Repr, Inhabited

/-- A DMA descriptor (spec/10 R291), without the fields that are written back. -/
structure DmaDesc where
  op : BitVec 2
  twoD : Bool
  land : Bool
  ldir : Bool
  length : BitVec 32
  src : BitVec 64
  dst : BitVec 64
  rowsM1 : BitVec 32
  pattern : BitVec 32
  sstride : BitVec 64
  dstride : BitVec 64
  tag : BitVec 12
  lsite : BitVec 9
  rsv : Bool
deriving DecidableEq, Repr, Inhabited

/-- Where a DMA item comes from (spec/10 R291). -/
inductive Origin where
  | sched (die : Nat)                                -- DMA issue list of a compute die
  | fxdma (die : Nat) (ticket : Nat) (addr : Nat)    -- FX.DMA, with its descriptor's address
  | hostItem (sess : Nat) (sseq : Nat)               -- COPY work item
  | tload (die place slot : Nat)                     -- TLOAD (spec/08 R229)
deriving DecidableEq, Repr, Inhabited

/-- A dynamic packet (spec/11 R327); `ecrcOk`: the ECRC check, made by the receiver, holds. -/
structure DynPkt where
  ptype : BitVec 4
  ord : Bool
  part : BitVec 4
  dst : BitVec 16
  src : BitVec 16
  txid : BitVec 11
  status : BitVec 3
  addr : BitVec 64
  aux : BitVec 32
  len : Nat                    -- bytes asked for (READ, FREAD) or carried
  payload : List Byte
  ecrcOk : Bool
deriving DecidableEq, Repr, Inhabited

/-- A spindle packet (spec/11 R335). -/
structure SpPkt where
  ty : BitVec 6
  cls : Bool                   -- false = A (urgent), true = B
  panel : Bool
  dst : BitVec 10
  src : BitVec 10
  part : BitVec 4
  arg : BitVec 32
  payload : BitVec 64
deriving DecidableEq, Repr, Inhabited

/-- An ALERT of a die on its way to the active PCD (spec/11 R335, spec/16 R452, R453). `serial` tells a repeat from a new one. -/
structure Alert where
  node : Nat
  serial : Nat
  code : Nat
  part : Nat                   -- 31 = panel-wide
  unit : Nat                   -- unit code of spec/15 R438; 0 = none
  data : Nat                   -- DATA, 32 bytes as a little-endian number
  ptc : Nat                    -- PTC nanoseconds at detection
deriving DecidableEq, Repr, Inhabited

/-- A scheduled stripe as its receiver decoded it (spec/11 R317–R319, spec/14 R412). -/
structure Stripe where
  sseq : BitVec 8
  slots : List (Option Token)  -- SLOT_t with VALID bit t, t = 0–19
  cret : BitVec 20
  corrected : Nat              -- codewords corrected
  uncorr : Nat                 -- codewords uncorrectable
  relayCorr : Nat              -- codewords corrected at the relay of a two-hop route
  relayUncorr : Nat            -- codewords uncorrectable there
  wander : Nat                 -- fabric cycles from where the link was aligned
deriving DecidableEq, Repr, Inhabited

/-- A dynamic codeword as its receiver decoded it (spec/11 R324, R325). -/
structure Codeword where
  ecc : Ecc
  crcOk : Bool
  seq : BitVec 12
  ack : BitVec 12
  ackv : Bool
  nak : Bool
  flits : Nat                  -- flit slots used
  crch : BitVec 2              -- channel whose credits are returned
  crn : BitVec 8               -- flit credits returned to that channel
deriving DecidableEq, Repr, Inhabited

/-- A fabric transfer descriptor (spec/12 R350), without the fields written back. -/
structure FabDesc where
  op : BitVec 4
  land : Bool
  ring : Bool
  length : BitVec 32
  laddr : BitVec 64
  raddr : BitVec 64
  dstRank : BitVec 24
  cslot : BitVec 4
  ndst : BitVec 7
  list : BitVec 64
  tag : BitVec 12
  lsite : BitVec 9
  rsv : Bool
deriving DecidableEq, Repr, Inhabited

/-- A Jilomen header (spec/12 R345) as received; `bad`: VER, reserved bits, FCS or ICRC fail (R346). -/
structure JHdr where
  cls : BitVec 2
  op : BitVec 8
  incarn : BitVec 16
  dstRank : BitVec 24
  first : Bool
  last : Bool
  retry : Bool
  srcRank : BitVec 24
  ctx : BitVec 8
  job : BitVec 16
  len : BitVec 16
  txid : BitVec 32
  aux : BitVec 32
  raddr : BitVec 64
  bad : Bool
  ring : Bool                  -- arrived on a ring port
  port : BitVec 2              -- fabric port of the die that it arrived on
  src : Nat                    -- IP address of its sender
deriving DecidableEq, Repr, Inhabited

/-- A work item (spec/13 R387): its head and every body field. -/
structure WItem where
  op : BitVec 8
  fence : Bool
  retain : Bool
  ctx : BitVec 6
  sseq : BitVec 32
  job : BitVec 16
  md : BitVec 8
  user : BitVec 32
  addr : BitVec 64
  length : BitVec 32
  desc : DmaDesc
  incarn : BitVec 16
  prio : BitVec 3
  quantum : BitVec 32
  rankBase : BitVec 64
  ranks : BitVec 24
  winBase : BitVec 64
  winPages : BitVec 32
  ckpt : BitVec 32
  nextEvent : BitVec 64
  rsv : Bool
deriving DecidableEq, Repr, Inhabited

/-- One phase of a program image: what Uttos writes when it loads the phase (spec/08 R218, R235, R242; spec/09 R266, R270; spec/10 R293). -/
structure Phase where
  binds : List (Nat × Nat × BitVec 64)       -- logical site, place, CD.PL_BIND_c
  slots : List (Nat × Nat × Nat × List Byte) -- logical site, place, slot, image bytes
  arms : List (Nat × Nat × Nat)              -- logical site, place, starting slot
  land : List (Nat × List Byte)              -- logical site, landing table
  dmaList : List (Nat × List Byte)           -- logical site, DMA issue list
  dmaTable : List (Nat × List Byte)          -- logical site, DMA table
  ends : List (Nat × Nat × Nat)              -- logical site, END, ISSUED of its DIE record
  steps : List (Nat × Nat)                   -- EPOCH records: epoch count, step index (spec/09 R268, spec/14 R409)
deriving DecidableEq, Repr, Inhabited

/-- A program image as Uttos reads it (spec/13 R390, spec/09 R267, spec/15 R440, R441). -/
structure Image where
  digestOk : Bool
  cut : BitVec 4
  needsD : Bool
  sites : List Nat                           -- logical sites placed on
  ranges : List (Nat × Nat)                  -- declared HBM ranges: base, bytes
  saveBase : Nat                             -- save area (spec/08 R252): base and bytes
  saveLen : Nat
  postMortem : Option (Nat × Nat)            -- post-mortem area (spec/16 R465)
  linear : List (Nat × Nat)                  -- logical site, CD.SPAD_LINEAR
  power : List (Nat × Nat)                   -- logical site, CD.SPAD_PWR
  live : List (Nat × Nat)                    -- logical site, windows live at its epoch boundary (bit n = window n)
  boot : List (Nat × Nat × BitVec 64)        -- logical site, S-core, CD.SC_CTRL
  phases : List Phase
deriving DecidableEq, Repr, Inhabited

/-- A PARTITION record of the configuration (spec/18 R503). -/
structure PartCfg where
  num : Nat
  regions : BitVec 16
  kernel : Nat                               -- kernel site index
  step : Nat
  plW : Nat
deriving DecidableEq, Repr, Inhabited

/-- A HOST_KEY record (spec/13 R382); a key is named by its public part. -/
structure HostKey where
  part : Nat
  slot : Nat
  admin : Bool
  data : Bool
  key : Nat
deriving DecidableEq, Repr, Inhabited

/-- Addresses of a NET record (spec/12 R343, spec/13 R379, spec/18 R503): of fabric die 0–15, host port A 16, host port B 17, the management
port 18. Fabric die f answers at the IP address of FD 0 plus f (R357). -/
structure NetCfg where
  unit : Nat
  mac : Nat
  ip : Nat
  gateway : Nat
  vid : Nat
deriving DecidableEq, Repr, Inhabited

/-- A configuration (spec/18 R503): its header and records, and what its signatures verify under. -/
structure Conf where
  magicOk : Bool
  seq : Nat
  minSvn : Nat
  cut : Nat
  formOk : Bool                              -- no unknown, reserved, missing or repeated record
  owner : Nat                                -- OWNER: hash of the owner public key
  sigOwner : Bool                            -- SIG_OWNER verifies under the configuration's own OWNER key
  sigPrior : Option Nat                      -- hash of the key under which SIG_PRIOR verifies
  configId : Nat
  enD : Option Bool                          -- OPTIONS; none = as fitted
  enG : Option Bool
  enT : Option Bool
  faultInj : Bool
  parts : List PartCfg
  keys : List HostKey
  reports : List Nat                         -- REPORT: report addresses
  ring : Option (Nat × Nat × Bool)           -- size, position, dateline
  twin : Option (Bool × Nat)                 -- headstock?, twin host-port address
  telemetry : Option Nat                     -- collector address
  netIp : Nat                                -- NET: IP address of FD 0
  nets : List NetCfg                         -- NET: the other addresses of each unit
  pcps : List Nat                            -- NET: PCP of each class (R347)
  dscps : List Nat                           -- NET: DSCP of each class
  udpFabric : Nat                            -- NET: UDP destination ports (R345, R380)
  udpHost : Nat
  ptpDomain : Nat
  slowPpm : Nat                              -- LIMITS, with the defaults of their rules: R274 in parts per 10,000
  latePpm : Nat
  corrRate : Nat                             -- R303
  polRate : Nat                              -- R377
  warnTh : Nat                               -- R416
  relTh : Nat
  strikeNs : Nat                             -- R460
  retainNs : Nat                             -- R465
  dozeNs : Nat                               -- R482
  vmargin : Int                              -- R516, mV
  omargin : Int                              -- R516, 0.1 dB
deriving DecidableEq, Repr, Inhabited

/-- An image slot's header (spec/18, layout under R498) and what its checks find. -/
structure FwImage where
  magicOk : Bool
  seq : Nat
  svn : Nat
  version : Nat
  digest : Nat
  sigOk : Bool
  digestOk : Bool
deriving DecidableEq, Repr, Inhabited

/-- A component of an update (spec/18 R507). -/
inductive Component where
  | image (f : FwImage)
  | config (c : Conf)
deriving DecidableEq, Repr, Inhabited

/-- What Mount finds (spec/15 R429, spec/18 R498): self-tests, PHY, flow. -/
structure MountIn where
  selfA : Bool
  selfB : Bool
  flowOk : Bool
  retained : Bool                            -- the retained memory survived
  straps : BitVec 2
  bodyStepOk : Bool                          -- the preferred image passes every later step of R498
deriving DecidableEq, Repr, Inhabited

/-- What Truing or a re-true finds (spec/15 R433, R437; spec/11 R313, R321). -/
structure TestIn where
  found : List Nat                           -- unit codes found bad
  unrepaired : List Nat                      -- unit codes of SRAM repair rows that repair cannot replace
  scrubFail : List Nat                       -- compute dies whose scrub fails its verify
  badRouters : List Nat                      -- spindle nodes of sites whose router is out of service
  badLinks : List (Nat × Nat)                -- physical links out of use: node, port
  badModules : List (Nat × Nat × Nat)        -- node, port, module
  long : List (Nat × Bool × Nat)             -- re-true: routes that measure more than Λ: lower site, east, choice 0 or 1
  ok : Bool                                  -- re-true: every step passes in time
deriving DecidableEq, Repr, Inhabited

/-- What Rough-out reads (spec/15 R430–R432). -/
structure RoughIn where
  unlocked : List Nat                        -- spindle nodes of dies that do not lock or answer
  refBad : List (Nat × Bool)                 -- node, reference (false = A) that is not usable there
  noRsd : List Nat                           -- regions whose RSD does not answer
deriving DecidableEq, Repr, Inhabited

/-- What Shaping and Finishing find (spec/15 R435, R436; spec/11 R321; spec/12 R372; spec/14 R411, R422). -/
structure ShapeIn where
  stackFail : List Nat                       -- memory dies whose stack fails training or test
  badLinks : List (Nat × Nat)                -- links that fail step 5 of R411: node, port
  long : List (Nat × Bool × Nat)             -- routes that measure more than Λ: lower site, east, choice 0 or 1
deriving DecidableEq, Repr, Inhabited
structure FinIn where
  ports : List (Nat × Nat)                   -- fabric die, port that came up
  ring : Bool
  twin : Bool
  matched : Bool
  ptp : Option Nat                           -- PTP time in 1/16 ns when LOCKED within 500 ms
deriving DecidableEq, Repr, Inhabited

/-- How a packet of a session arrived (spec/13 R380, R384): its host port, and whether its tag is good. -/
structure HostHdr where
  portB : Bool
  tagOk : Bool
deriving DecidableEq, Repr, Inhabited

/-- Where a PTP message came from (spec/14 R421): the host port, and its domain. -/
structure PtpFrom where
  portB : Bool
  domain : Nat
deriving DecidableEq, Repr, Inhabited
/-- A Follow_Up with its origin time, or a Delay_Resp with the path delay, in 1/16 ns. -/
structure PtpMsg where
  frm : PtpFrom
  val : Int
deriving DecidableEq, Repr, Inhabited
/-- An Announce with the grandmaster's identity. -/
structure PtpGm where
  frm : PtpFrom
  gmid : W64
deriving DecidableEq, Repr, Inhabited

/-- NVM_ISO_N goes low, or high again with what an external programmer has written meanwhile (spec/19 R523): slots of images and
configurations by device, and whether the owner record has been written over. -/
structure IsoIn where
  low : Bool
  images : List (Nat × Option FwImage)
  confs : List (Nat × Option Conf)
  ownerLost : Bool
deriving DecidableEq, Repr, Inhabited

/-- A sensor sample of one unit (spec/17 R486): node, and its readings in 0.125 °C. -/
structure SensorIn where
  node : Nat
  t0 : Int
  t1 : Int
  t2 : Int
deriving DecidableEq, Repr, Inhabited

/-- A telemetry measurement of one region that no register holds (spec/18, region block). -/
structure TelemIn where
  region : Nat
  vmargin : Int
  omargin : Int
deriving DecidableEq, Repr, Inhabited

/-- What an S-core's access does (spec/06 R175, R179–R181). `execute` is the fetch of the instruction at its pc, with all that it does; the
others are single accesses at a physical address, between the memory and an integer register. -/
inductive ScKind where
  | load (signed : Bool)
  | store
  | cboClean
  | cboFlush
  | cboInval
  | execute
deriving DecidableEq, Repr, Inhabited

/-- What a register write brings to a location: the value on the bus, and the bits of the register that hardware sets in the same cycle
(spec/00 R22). -/
structure WriteData where
  val : W64
  coincident : Nat
deriving DecidableEq, Repr, Inhabited

/-- The commands: one constructor for each row of spec/opcode_table.json, in its order. -/
inductive Instr where
  | registerWrite (src : Source) (addr : W64) (width : Nat) (data : WriteData)
  | registerReadClear (src : Source) (addr : W64) (width : Nat) (coincident : Nat)
  | faultRecordRearm (src : Source) (addr : W64) (val : W64)
  | badAccessTallyReport (node : Nat)
  | srSeedWrite (src : Source) (site core : Nat) (seed : W64)
  | mcNop (die core : Nat) (rsv : Bool)
  | loadw (die core : Nat) (c : LoadwCmd)
  | loadwShadowReady (die core : Nat)
  | readout (die core : Nat) (c : ReadoutCmd)
  | zero (die core : Nat) (c : ZeroCmd)
  | reduceSend (die core : Nat) (c : ReduceCmd)
  | reduceAdd (die core : Nat) (c : ReduceCmd)
  | reduceAddsend (die core : Nat) (c : ReduceCmd)
  | mcInjectArm (src : Source) (site : Nat) (val : W32)
  | scrNop (die : Nat) (rsv : Bool)
  | norm (die : Nat) (c : RowCmd)
  | softmax (die : Nat) (c : RowCmd)
  | normb (die : Nat) (c : RowCmd)
  | softmaxb (die : Nat) (c : RowCmd)
  | smoveOut (die : Nat) (c : SmoveCmd)
  | smoveIn (die : Nat) (c : SmoveCmd)
  | smoveClear (die : Nat) (c : SmoveCmd)
  | setup (die : Nat) (c : SetupCmd)
  | vnop (die v : Nat) (i : VIns)
  | vld (die v : Nat) (i : VIns)
  | vst (die v : Nat) (i : VIns)
  | vrecv (die v : Nat) (i : VIns)
  | vsend (die v : Nat) (i : VIns)
  | aset (die v : Nat) (ar : BitVec 3) (base : BitVec 32) (stp : BitVec 14)
  | vadd (die v : Nat) (i : VIns)
  | vsub (die v : Nat) (i : VIns)
  | vmul (die v : Nat) (i : VIns)
  | vfma (die v : Nat) (i : VIns)
  | vfnma (die v : Nat) (i : VIns)
  | vmin (die v : Nat) (i : VIns)
  | vmax (die v : Nat) (i : VIns)
  | vdiv (die v : Nat) (i : VIns)
  | vsqrt (die v : Nat) (i : VIns)
  | vcvt (die v : Nat) (i : VIns)
  | vcvti (die v : Nat) (i : VIns)
  | vldi (die v : Nat) (i : VIns)
  | vcmp (die v : Nat) (i : VIns)
  | vsel (die v : Nat) (i : VIns)
  | viadd (die v : Nat) (i : VIns)
  | visub (die v : Nat) (i : VIns)
  | vand (die v : Nat) (i : VIns)
  | vor (die v : Nat) (i : VIns)
  | vxor (die v : Nat) (i : VIns)
  | vshl (die v : Nat) (i : VIns)
  | vshr (die v : Nat) (i : VIns)
  | vredsum (die v : Nat) (i : VIns)
  | vredmax (die v : Nat) (i : VIns)
  | vbcast (die v : Nat) (i : VIns)
  | plArm (die sc : Nat) (rd rs1 rs2 : BitVec 5)
  | plStop (die sc : Nat) (rd rs1 : BitVec 5)
  | plStat (die sc : Nat) (rd rs1 : BitVec 5)
  | fxStart (die sc : Nat) (rd : BitVec 5)
  | fxDma (die sc : Nat) (rd rs1 rs2 : BitVec 5)
  | fxDpoll (die sc : Nat) (rd rs1 : BitVec 5)
  | fxBar (die sc : Nat) (rd rs1 : BitVec 5)
  | barrierTimeout (die sc : Nat)
  | fxSpsend (die sc : Nat) (rd rs1 rs2 : BitVec 5)
  | fxSprecv (die sc : Nat) (rd : BitVec 5)
  | sCoreTrap (die sc : Nat)
  | scCtrlWrite (src : Source) (site sc : Nat) (val : W64)
  | placeDone (die place : Nat)
  | spadLinearWrite (src : Source) (site : Nat) (val : W32)
  | spadPwrWrite (src : Source) (site : Nat) (val : W32)
  | spadGroupReady (die group : Nat)
  | spadScrubStart (src : Source) (site : Nat) (val : W32)
  | spadScrubDone (die : Nat) (badLine : Option Nat)
  | nonschedAccessGrant (die pair : Nat)
  | eccRepairWriteback (die pair : Nat)
  | tokenDepart (die place lane : Nat)
  | tokenArrive (die place lane : Nat) (tok : Token) (sideband payload : Ecc)
  | creditReturn (die place lane : Nat)
  | tload (die place : Nat) (slot : BitVec 3) (addr : BitVec 36)
  | tloadComplete (die place : Nat) (slot : BitVec 3)
  | turnSwitch (die place : Nat)
  | placeStart (die : Nat)
  | drainForced (part : Nat)
  | watchdogIdle (die : Nat)
  | quantumExpire (part : Nat)
  | contextSwitch (part : Nat)
  | landingCheck (die : Nat)
  | schSnapshot (src : Source) (site : Nat) (val : W32)
  | schMatchArm (src : Source) (site : Nat) (val : W64)
  | schMatchResolve (die : Nat)
  | slowDieEval
  | dmaIssue (die : Nat)
  | desc (md : Nat) (o : Origin) (d : DmaDesc)
  | trackerEntryGrant (md cls : Nat)
  | transactionTimeout (md txid : Nat)
  | dmaItemComplete (md item : Nat)
  | read (p : DynPkt)
  | write (p : DynPkt)
  | readData (p : DynPkt)
  | writeAck (p : DynPkt)
  | land (p : DynPkt)
  | done (p : DynPkt)
  | hbmEccWriteback (md line : Nat)
  | hbmPatrol (md : Nat)
  | hbmCorrRateCheck (md : Nat)
  | stackFail (md cause : Nat)
  | hbmCapEval
  | mdScrubStart (src : Source) (md : Nat) (val : W32)
  | mdScrubDone (md : Nat)
  | stripeReceive (die side : Nat) (st : Stripe)
  | dynCodewordReceive (node port : Nat) (c : Codeword)
  | packetHop (node out : Nat)
  | spindleForward (node port : Nat) (cls : Bool) (e : Ecc)
  | spsend (die srcSite : Nat) (payload : W64)
  | barArrive (node barrier child : Nat)
  | barRelease (die barrier : Nat)
  | start (die : Nat) (cycle : W64)
  | yield (die : Nat) (epoch : W32)
  | notice (site kind : Nat)
  | beacon (node : Nat) (payload : W64)
  | alert (a : Alert)
  | regRd (node off : Nat)
  | regWr (node off : Nat) (val : W64)
  | regRsp (node serial : Nat)
  | alertRepeat (node : Nat)
  | eventMergeFlush (code unit : Nat)
  | doorbell (fd ctx : Nat) (val : W32)
  | transferPut (fd ctx : Nat) (d : FabDesc)
  | transferGet (fd ctx : Nat) (d : FabDesc)
  | transferCput (fd ctx : Nat) (d : FabDesc)
  | cputStart (fd ctx : Nat)
  | transferMcast (fd ctx : Nat) (d : FabDesc)
  | transferNote (fd ctx : Nat) (d : FabDesc)
  | put (fd : Nat) (h : JHdr) (data : List Byte)
  | get (fd : Nat) (h : JHdr)
  | cput (fd : Nat) (h : JHdr) (data : List Byte)
  | mcast (fd : Nat) (h : JHdr) (ranks : List (BitVec 24)) (data : List Byte)
  | ack (fd : Nat) (h : JHdr) (delivered failed : W64)
  | getData (fd : Nat) (h : JHdr) (data : List Byte)
  | credit (fd : Nat) (h : JHdr) (limit : W64)
  | note (fd : Nat) (h : JHdr) (data : List Byte)
  | heartbeat (onTwin : Bool) (number : W32) (mirrored : W32)
  | takeover (onTwin : Bool)
  | requestResendTimeout (fd slot : Nat)
  | fabricPortDown (fd port : Nat)
  | fabricPortUp (fd port : Nat)
  | pfcPauseFrame (fd port prio : Nat) (quanta : BitVec 16)
  | arpRequest (fd : Nat) (target : Nat)
  | neighborSolicitation (fd : Nat) (target : Nat)
  | ringForward (rdst rsrc : BitVec 5) (west vc : Bool) (cls : BitVec 2) (frame : Nat)
  | heartbeatSend
  | heartbeatWindowMiss (number : W32)
  | mirrorComplete (number : W32)
  | opn (part slot port : Nat) (sigOk : Bool)
  | submit (sess : Nat) (gen : BitVec 16) (h : HostHdr) (items : List WItem)
  | sdata (sess : Nat) (gen : BitVec 16) (h : HostHdr) (sseq : W32) (off : Nat) (data : List Byte)
  | cplAck (sess : Nat) (gen : BitVec 16) (h : HostHdr) (cseq : W32)
  | close (sess : Nat) (gen : BitVec 16) (h : HostHdr)
  | sessionTimeout (sess : Nat)
  | cplResend (sess : Nat)
  | workItemStart (sess : Nat) (sseq : W32)
  | itemWrite (sess : Nat) (sseq : W32)
  | writeSdataTimeout (sess : Nat) (sseq : W32)
  | itemRead (sess : Nat) (sseq : W32)
  | copy (sess : Nat) (sseq : W32)
  | jobLoad (sess : Nat) (sseq : W32) (img : Image)
  | jobStart (sess : Nat) (sseq : W32)
  | jobKill (sess : Nat) (sseq : W32)
  | checkpoint (sess : Nat) (sseq : W32)
  | release (sess : Nat) (sseq : W32)
  | hint (sess : Nat) (sseq : W32)
  | itemNop (sess : Nat) (sseq : W32)
  | hintExpire (sess : Nat)
  | retentionExpire (part ctx : Nat)
  | referenceLoss (node : Nat) (refB : Bool)
  | freqStepStop (part : Nat)
  | freqStepCountLoad (part : Nat)
  | freqStepResume (part : Nat) (late : List Nat)
  | localHoldBegin (node mon slack : Nat)
  | localHoldRelease (node : Nat)
  | replicaSlackZero (die mon : Nat)
  | spindleNodeOut (node : Nat)
  | beaconSend
  | ptpSync (frm : PtpFrom) (twoStep : Bool) (offset16 : Int)
  | ptpHoldover
  | ptcStepToPtp (time16 : Nat)
  | resetAssert (lowNs : Nat)
  | mount (i : MountIn)
  | roughOut (i : RoughIn)
  | truing (i : TestIn)
  | shaping (i : ShapeIn)
  | finishing (i : FinIn)
  | reTrue (region : Nat) (i : TestIn)
  | retrueRequest (region : Nat)
  | hostPortUp (portB : Bool)
  | activePcdFail
  | regionOvercurrent (region : Nat)
  | inputVoltageWarn (va vb : Nat)
  | inputUndervoltage
  | inputOvervoltage
  | busPairLost (pairB : Bool)
  | busPairRestored (pairB : Bool)
  | powerLoopUpdate (total : Nat) (watts : List (Nat × Nat × Nat))
  | powerGuardTrip
  | guardHoldEnd
  | stepCeilingUpdate (part : Nat)
  | warmHoldEnter (part : Nat)
  | powerWake (part : Nat)
  | warmHoldLoadAdjust
  | sensorSample (readings : List SensorIn)
  | thermalThrottleEval
  | heatRegionRestore (region : Nat)
  | coolantEval (flow tin tout : Int) (psw : Bool)
  | coolantStopDeadline
  | coolantSuddenLoss (psw : Bool)
  | pcdOvertemp (pcdB : Bool)
  | requestUpdate
  | updateComponent (c : Component)
  | activateFirmware
  | getVersion
  | getCapabilities
  | negotiateAlgorithms
  | getDigests
  | getCertificate (slot : Nat)
  | challenge (slot : Nat)
  | getMeasurements (index : Nat)
  | setEndpointId (eid : BitVec 8)
  | evtAckWrite (val : W32)
  | resetEffecter (val : W32)
  | telemetrySend (m : List TelemIn)
  | nvmDeviceFail (dev : Nat)
  | moduleInsert (va vb : Nat) (j1 : Bool)
  | inputSwitchClose
  | moduleWithdraw
  | nvmIsolate (i : IsoIn)
  | statusLatchTimeout
  | fread (p : DynPkt)
  | freadData (p : DynPkt)
  | fwrite (p : DynPkt)
  | fwriteAck (p : DynPkt)
  | sCoreMemoryAccess (die sc : Nat) (kind : ScKind) (pa : BitVec 56) (width : Nat) (reg : BitVec 5)
  | drainedReport (die : Nat)
  | ringPortDown (east : Bool)
  | ringPortUp (east : Bool)
  | twinLinkDown
  | twinLinkUp
  | hostPortDown (portB : Bool)
  | referenceRestored (node : Nat) (refB : Bool)
  | standbyRailLoss
  | fabricDieLoss (fd : Nat)
  | rsdLoss (region : Nat)
  | powerWakeComplete (part : Nat)
  | powerEntryComplete (part : Nat)
  | ptpFollowUp (m : PtpMsg)
  | ptpDelayResp (m : PtpMsg)
  | ptpAnnounce (m : PtpGm)
  | arpReply (fd : Nat) (mac : BitVec 48)
deriving DecidableEq, Repr

end Sys2Proof
end

