-- ==== Sys2Proof/Config.lean ====
section
/-! DEFINITION. What the spec leaves open: free values with no body. Nothing in Lean can evaluate one or prove a value of one. -/

namespace Sys2Proof.Config

/-- A fresh free value for each number: the n-th value that the spec leaves open (log entry 6).
The step reads `State.free`, applies this, and advances the counter. -/
opaque freeValue : Nat → Nat

/-- The offset of the exp unit's internal value from the exact result, before the model bounds it
(spec/05 R154: within 2^-10 units in the last place, a fixed function of the operand; log entry 7). -/
opaque expOffset : BitVec 32 → Int

/-- The offset of the rsqrt unit's internal value (spec/05 R154; log entry 7). -/
opaque rsqrtOffset : BitVec 32 → Int

/-- Whether pair i of a level of a combine rounds under SR on the lane of its right operand, else on that of its left (spec/05 R152,
R158, spec/06 R167, spec/02 R64: which of the two is not stated; log entry 9). -/
opaque combineRight : Nat → Nat → Bool

/-- The lane on which a scraper step on one value rounds under SR (spec/05 R153: not stated; log entry 9). -/
opaque singleLane : Nat

/-- Which of the two lanes that hold a binary64 element serves its SR rounding (spec/06 R164, spec/02 R64: not stated; log entry 9). -/
opaque half64 : Nat → Nat

/-- Whether VST and VSEND take the register they send from VD, else from VC (spec/06 R166: no field is named; log entry 10). -/
opaque storeInVd : Bool

/-- Version of the boot ROM, which measurement block 1 carries (spec/18 R509: not stated; log entry 6). -/
opaque romVersion : Nat

/-- Which of the three outcomes of spec/07 R532 an error pattern of three or more bits has: 0 reported, 1 miscorrected, else delivered unreported
(log entry 6). -/
opaque eccOutcome : Nat → Nat

/-- The data bits by which a miscorrected word differs from the word stored, by its error pattern (spec/07 R532; log entry 6). -/
opaque eccMiscorrect : Nat → Nat

end Sys2Proof.Config
end

