-- ==== Sys2Proof/Machine/Fp.lean ====
section
/-! DEFINITION. Number formats, exact values, rounding and conversion (spec/02). Every operation works on the exact value and rounds
once; the arithmetic status it sets (spec/02 R77, R531) is returned beside the result. -/

namespace Sys2Proof.Machine

/-- A floating format (spec/02 R49, R50). `spec`: 0 = infinities and NaNs as IEEE 754, 1 = E4M3 (one NaN, no infinity), 2 = neither. -/
structure FFmt where
  eb : Nat
  mb : Nat
  bias : Nat
  spec : Nat
deriving DecidableEq, Repr, Inhabited

/-- An element format (spec/02 R49). -/
inductive NFmt where
  | fp (f : FFmt)
  | int (w : Nat)
deriving DecidableEq, Repr, Inhabited

def b64 : FFmt := { eb := 11, mb := 52, bias := 1023, spec := 0 }
def b32 : FFmt := { eb := 8, mb := 23, bias := 127, spec := 0 }
def b16 : FFmt := { eb := 5, mb := 10, bias := 15, spec := 0 }
def bf16 : FFmt := { eb := 8, mb := 7, bias := 127, spec := 0 }
def e5m2 : FFmt := { eb := 5, mb := 2, bias := 15, spec := 0 }
def e4m3 : FFmt := { eb := 4, mb := 3, bias := 7, spec := 1 }
def e3m2 : FFmt := { eb := 3, mb := 2, bias := 3, spec := 2 }
def e2m3 : FFmt := { eb := 2, mb := 3, bias := 1, spec := 2 }
def e2m1 : FFmt := { eb := 2, mb := 1, bias := 1, spec := 2 }

/-- Bits of an element. -/
def NFmt.width : NFmt → Nat
  | .fp f => 1 + f.eb + f.mb
  | .int w => w

/-- An integer format. -/
def NFmt.isInt : NFmt → Bool
  | .fp _ => false
  | .int _ => true

/-- An exact value: m · 2^e with a sign (the sign of a zero is kept), an infinity, or NaN. -/
inductive Val where
  | nan
  | inf (neg : Bool)
  | fin (neg : Bool) (m : Nat) (e : Int)
deriving DecidableEq, Repr, Inhabited

/-- Arithmetic status of an operation: the bits of CD.ARITH_STATUS it sets, and the elements it saturated (spec/02 R77, R78). -/
structure Stat where
  flags : Nat
  sats : Nat
deriving DecidableEq, Repr, Inhabited

def Stat.none : Stat := { flags := 0, sats := 0 }
def Stat.or (a b : Stat) : Stat := { flags := a.flags ||| b.flags, sats := a.sats + b.sats }

/-- Bit masks of CD.ARITH_STATUS (spec/02 R77). -/
def fUnderflow : Nat := 1
def fInexactInt : Nat := 2
def fMxScaleNan : Nat := 4
def fNanSquashed : Nat := 8
def fSaturated : Nat := 16
def fOverflowInf : Nat := 32
def fNanIn : Nat := 64
def fNanProduced : Nat := 128

/-- A status without NAN_IN: intermediate NaNs are no operands of the command (spec/02 R531). -/
def Stat.inner (a : Stat) : Stat := { a with flags := a.flags - (a.flags &&& fNanIn) }

def stFlag (f : Nat) : Stat := { flags := f, sats := 0 }
/-- One saturated element (spec/02 R530). -/
def stSat : Stat := { flags := fSaturated, sats := 1 }
def stIf (b : Bool) (f : Nat) : Stat := if b then stFlag f else Stat.none

def Val.isNan : Val → Bool
  | .nan => true
  | _ => false
def Val.isInf : Val → Bool
  | .inf _ => true
  | _ => false
def Val.isFin : Val → Bool
  | .fin _ _ _ => true
  | _ => false
/-- Zero of either sign. -/
def Val.isZero : Val → Bool
  | .fin _ m _ => m == 0
  | _ => false
def Val.isNeg : Val → Bool
  | .nan => false
  | .inf n => n
  | .fin n _ _ => n
def Val.neg : Val → Val
  | .nan => .nan
  | .inf n => .inf (!n)
  | .fin n m e => .fin (!n) m e
def Val.abs : Val → Val
  | .nan => .nan
  | .inf _ => .inf false
  | .fin _ m e => .fin false m e
def Val.zero : Val := .fin false 0 0
/-- A finite value times 2^k. -/
def Val.scale (k : Int) : Val → Val
  | .fin n m e => .fin n m (e + k)
  | v => v

/-- Status of reading operands (spec/02 R531, NAN_IN). -/
def nanIn (vs : List Val) : Stat := stIf (vs.any Val.isNan) fNanIn

/-- m · 2^k for k of either sign, where the caller knows that no bit is lost. -/
def shl (m : Nat) (k : Int) : Nat := if 0 ≤ k then m <<< k.toNat else m >>> (-k).toNat

/-- The value of a floating code (spec/02 R49, R50). -/
def decodeF (f : FFmt) (c : Nat) : Val :=
  let s := c.testBit (f.eb + f.mb)
  let ex := (c >>> f.mb) % 2 ^ f.eb
  let m := c % 2 ^ f.mb
  if f.spec = 0 ∧ ex = 2 ^ f.eb - 1 then (if m = 0 then .inf s else .nan)
  else if f.spec = 1 ∧ ex = 2 ^ f.eb - 1 ∧ m = 2 ^ f.mb - 1 then .nan
  else if ex = 0 then .fin s m (1 - (f.bias : Int) - f.mb)
  else .fin s (2 ^ f.mb + m) ((ex : Int) - f.bias - f.mb)

/-- The value of a signed integer. -/
def valOfInt (i : Int) : Val := .fin (decide (i < 0)) i.natAbs 0

/-- The value of an element code (spec/02 R49). -/
def decodeN (t : NFmt) (c : Nat) : Val :=
  match t with
  | .fp f => decodeF f c
  | .int w => valOfInt (signedOf w c)

/-- The largest finite code without its sign (spec/02 R49, R50). -/
def FFmt.maxCode (f : FFmt) : Nat :=
  if f.spec = 0 then (2 ^ f.eb - 1) * 2 ^ f.mb - 1 else if f.spec = 1 then 2 ^ (f.eb + f.mb) - 2 else 2 ^ (f.eb + f.mb) - 1
def FFmt.signBit (f : FFmt) (neg : Bool) : Nat := b2n neg * 2 ^ (f.eb + f.mb)
/-- Infinity of an IEEE-like format. -/
def FFmt.infCode (f : FFmt) : Nat := (2 ^ f.eb - 1) * 2 ^ f.mb
/-- The canonical NaN (spec/02 R54): 0x7E00, 0x7FC0_0000 and so on; 0x7F for E5M2 and E4M3. -/
def FFmt.nanCode (f : FFmt) : Nat :=
  if f.spec = 0 then (if f.mb = 2 then 2 ^ 7 - 1 else f.infCode + 2 ^ (f.mb - 1)) else 2 ^ (f.eb + f.mb) - 1

/-- Rounding modes (spec/02 R59): 0 = RNE, 1 = RTZ, 2 = SR. `roundAt` rounds m · 2^e to a multiple of 2^q and returns the multiple;
`r` is the draw of an SR rounding (spec/02 R62). -/
def roundAt (mode r : Nat) (m : Nat) (e q : Int) : Nat :=
  if q ≤ e then m <<< (e - q).toNat
  else
    let d := (q - e).toNat
    let t := m >>> d
    let rem := m % 2 ^ d
    let up :=
      if mode = 0 then decide (2 ^ d < 2 * rem) || (decide (2 * rem = 2 ^ d) && decide (t % 2 = 1))
      else if mode = 1 then false
      else decide (65536 ≤ (if 16 ≤ d then rem >>> (d - 16) else rem <<< (16 - d)) + r)
    if up then t + 1 else t

/-- Whether m · 2^e is a multiple of 2^q. -/
def exactAt (m : Nat) (e q : Int) : Bool := decide (q ≤ e) || decide (m % 2 ^ (q - e).toNat = 0)

/-- Exponent of the leading bit of m · 2^e. -/
def topExp (m : Nat) (e : Int) : Int := (Nat.log2 m : Int) + e

/-- a · 2^ea compared with b · 2^eb: 0 less, 1 equal, 2 greater. -/
def cmpMag (a : Nat) (ea : Int) (b : Nat) (eb : Int) : Nat :=
  let x := shl a (ea - min ea eb)
  let y := shl b (eb - min ea eb)
  if x < y then 0 else if x = y then 1 else 2

/-- The magnitude's code for a value M · 2^q on the format's grid (q the exponent of its last place). -/
def codeOfGrid (f : FFmt) (mm : Nat) (q : Int) : Nat :=
  let emin : Int := 1 - (f.bias : Int)
  -- normalise the carry of a rounding into a new leading bit
  let mm' := if 2 ^ (f.mb + 1) ≤ mm then mm / 2 else mm
  let q' := if 2 ^ (f.mb + 1) ≤ mm then q + 1 else q
  if mm' < 2 ^ f.mb then mm'
  else (q' + f.mb - emin + 1).toNat * 2 ^ f.mb + (mm' - 2 ^ f.mb)

/-- Conversion of a finite value to a floating format (spec/02 R61, R62, R75, R76, R530, R531). DESIGN CHOICE (log entry 76): under SR the
rounding that judges tininess takes the draw of the delivered result. -/
def roundF (f : FFmt) (mode : Nat) (sat : Bool) (r : Nat) (neg : Bool) (m : Nat) (e : Int) : Nat × Stat :=
  if m = 0 then (f.signBit neg, Stat.none)
  else
    let emin : Int := 1 - (f.bias : Int)
    let top := topExp m e
    let q := max top emin - f.mb
    let mm := roundAt mode r m e q
    let code := codeOfGrid f mm q
    -- a magnitude above the largest finite one, computed with the exponent unbounded
    let tooBig := decide (f.maxCode < code)
    if tooBig then
      if f.spec = 2 then (f.signBit neg + f.maxCode, stSat)
      else if mode = 1 ∨ sat = true then (f.signBit neg + f.maxCode, stSat)
      else if f.spec = 1 then (f.nanCode, stFlag fNanProduced)
      else (f.signBit neg + f.infCode, stFlag fOverflowInf)
    else
      let inexact := !exactAt m e q
      -- tiny: below the smallest normal after rounding with the exponent unbounded
      let mu := roundAt mode r m e (top - f.mb)
      let tiny := cmpMag mu (top - f.mb) 1 emin == 0
      (f.signBit neg + code, stIf (tiny && inexact) fUnderflow)

/-- Conversion of a value to a floating format. -/
def convF (f : FFmt) (mode : Nat) (sat : Bool) (r : Nat) : Val → Nat × Stat
  | .nan => if f.spec = 2 then (0, stFlag fNanSquashed) else (f.nanCode, Stat.none)
  | .inf n =>
    if f.spec = 0 then (f.signBit n + f.infCode, Stat.none)
    else if f.spec = 1 ∧ sat = false then (f.nanCode, stFlag fNanProduced)
    else (f.signBit n + f.maxCode, stSat)
  | .fin n m e => roundF f mode sat r n m e

/-- Conversion of a value to an integer of w bits: rounded, then saturated to lo … hi (spec/02 R75, R76, R530). -/
def convI (w : Nat) (lo hi : Int) (mode r : Nat) : Val → Nat × Stat
  | .nan => (0, stFlag fNanSquashed)
  | .inf n => (toTwos w (if n then lo else hi), stSat)
  | .fin n m e =>
    let k : Int := (roundAt mode r m e 0 : Nat)
    let i := if n then -k else k
    if i < lo then (toTwos w lo, stSat) else if hi < i then (toTwos w hi, stSat) else (toTwos w i, Stat.none)

/-- Conversion of a value to an element format (spec/02 R75, R76). -/
def convN (t : NFmt) (mode : Nat) (sat : Bool) (r : Nat) (v : Val) : Nat × Stat :=
  match t with
  | .fp f => convF f mode sat r v
  | .int w => convI w (-(2 ^ (w - 1) : Nat)) ((2 ^ (w - 1) : Nat) - 1) mode r v

/-- Exact sum of two values (spec/02 R55 for the sign of zero), with NAN_PRODUCED where no operand is NaN. -/
def addV (a b : Val) : Val × Stat :=
  match a, b with
  | .nan, _ => (.nan, Stat.none)
  | _, .nan => (.nan, Stat.none)
  | .inf x, .inf y => if x = y then (.inf x, Stat.none) else (.nan, stFlag fNanProduced)
  | .inf x, _ => (.inf x, Stat.none)
  | _, .inf y => (.inf y, Stat.none)
  | .fin x m e, .fin y k g =>
    let lo := min e g
    let p : Int := (shl m (e - lo) : Nat)
    let q : Int := (shl k (g - lo) : Nat)
    let t := (if x then -p else p) + (if y then -q else q)
    if t = 0 then (.fin (if m = 0 ∧ k = 0 then x && y else false) 0 0, Stat.none)
    else (.fin (decide (t < 0)) t.natAbs lo, Stat.none)

/-- Exact product of two values. -/
def mulV (a b : Val) : Val × Stat :=
  match a, b with
  | .nan, _ => (.nan, Stat.none)
  | _, .nan => (.nan, Stat.none)
  | .inf x, .inf y => (.inf (x ^^ y), Stat.none)
  | .inf x, .fin y m _ => if m = 0 then (.nan, stFlag fNanProduced) else (.inf (x ^^ y), Stat.none)
  | .fin x m _, .inf y => if m = 0 then (.nan, stFlag fNanProduced) else (.inf (x ^^ y), Stat.none)
  | .fin x m e, .fin y k g => (.fin (x ^^ y) (m * k) (e + g), Stat.none)

/-- Quotient of two finite values, the divisor not zero: 160 bits and a sticky bit, enough for every rounding of every format. -/
def divFin (x : Bool) (m : Nat) (e : Int) (y : Bool) (k : Nat) (g : Int) : Val :=
  let n := m <<< 160
  .fin (x ^^ y) (2 * (n / k) + (if n % k = 0 then 0 else 1)) (e - g - 161)

/-- Integer square root by bits, high to low (structural, so the kernel evaluates it). -/
def isqrtGo : Nat → Nat → Nat → Nat
  | 0, _, r => r
  | b + 1, n, r => if (r + 2 ^ b) * (r + 2 ^ b) ≤ n then isqrtGo b n (r + 2 ^ b) else isqrtGo b n r
def isqrt (n : Nat) : Nat := isqrtGo (Nat.log2 n / 2 + 1) n 0

/-- Square root of a finite positive value: 100 extra bits and a sticky bit. -/
def sqrtFin (m : Nat) (e : Int) : Val :=
  let m' := if e % 2 = 0 then m else 2 * m
  let e' := if e % 2 = 0 then e else e - 1
  let n := m' <<< 200
  let r := isqrt n
  .fin false (2 * r + (if r * r = n then 0 else 1)) (e' / 2 - 101)

/-- Order of two values that are not NaN: less. -/
def ltV (a b : Val) : Bool :=
  match a, b with
  | .nan, _ => false
  | _, .nan => false
  | .inf x, .inf y => x && !y
  | .inf x, .fin _ _ _ => x
  | .fin _ _ _, .inf y => !y
  | .fin x m e, .fin y k g =>
    let lo := min e g
    let p : Int := (shl m (e - lo) : Nat)
    let q : Int := (shl k (g - lo) : Nat)
    decide ((if x then -p else p) < (if y then -q else q))

/-- Equality of value (zeros of both signs are equal; NaN equals nothing). -/
def eqV (a b : Val) : Bool := !a.isNan && !b.isNan && !ltV a b && !ltV b a

/-- One rounded operation in a floating format: rounds an exact result, adding the operands' NAN_IN. -/
def roundOp (f : FFmt) (mode r : Nat) (ops : List Val) (x : Val × Stat) : Val × Stat :=
  let c := convF f mode false r x.1
  (decodeF f c.1, ((nanIn ops).or x.2).or c.2)

/-- binary32 addition under RNE. -/
def add32 (a b : Val) : Val × Stat := roundOp b32 0 0 [a, b] (addV a b)
/-- binary32 multiplication under RNE. -/
def mul32 (a b : Val) : Val × Stat := roundOp b32 0 0 [a, b] (mulV a b)

/-- The binary32 value of a word, and the word of a value. -/
def val32 (w : W32) : Val := decodeF b32 w.toNat
def code32 (v : Val) : W32 := BitVec.ofNat 32 (convF b32 0 false 0 v).1

/-- One level of the balanced pairwise tree (spec/02 R73); an odd one out passes on (missing terms are +0 and are added by `padTo`). -/
def pairUp : List Val → List Val × Stat
  | a :: b :: r =>
    let x := add32 a b
    let y := pairUp r
    (x.1 :: y.1, x.2.or y.2)
  | l => (l, Stat.none)

/-- `n` levels of the pairwise tree. -/
def treeLevels : Nat → List Val → List Val × Stat
  | 0, l => (l, Stat.none)
  | n + 1, l =>
    let x := pairUp l
    let y := treeLevels n x.1
    (y.1, x.2.or y.2)

/-- A list filled up with +0. -/
def padTo (n : Nat) (l : List Val) : List Val := l ++ List.replicate (n - l.length) Val.zero

/-- The plain tree of 64 terms (spec/02 R73): six levels. -/
def plainTree (l : List Val) : Val × Stat :=
  let x := treeLevels 6 (padTo 64 l)
  (x.1.headD Val.zero, x.2)

/-- Sequential binary32 addition. -/
def chain (l : List Val) : Val × Stat :=
  match l with
  | [] => (Val.zero, Stat.none)
  | a :: r => r.foldl (fun x b => let y := add32 x.1 b; (y.1, x.2.or y.2)) (a, Stat.none)

/-- The tree of a transposed read (spec/02 R73): four chains of sixteen, then two levels. -/
def transTree (l : List Val) : Val × Stat :=
  let p := padTo 64 l
  let q0 := chain (p.take 16)
  let q1 := chain ((p.drop 16).take 16)
  let q2 := chain ((p.drop 32).take 16)
  let q3 := chain ((p.drop 48).take 16)
  let a := add32 q0.1 q1.1
  let b := add32 q2.1 q3.1
  let c := add32 a.1 b.1
  (c.1, ((((q0.2.or q1.2).or q2.2).or q3.2).or a.2).or (b.2.or c.2))

/-- One xorshift step of a generator (spec/02 R63). -/
def xorshift (s : W64) : W64 :=
  let a := s ^^^ (s <<< 13)
  let b := a ^^^ (a >>> 7)
  b ^^^ (b <<< 17)

/-- Draw i of a generator's state (spec/02 R63). -/
def drawOf (s : W64) (i : Nat) : Nat := bits s.toNat (16 * i + 15) (16 * i)

/-- The golden-ratio constant of spec/02 R65. -/
def golden : W64 := 0x9E3779B97F4A7C15#64

/-- The state that a seed gives generator g (spec/02 R65). -/
def seedState (seed : W64) (g : Nat) : W64 :=
  let x := seed ^^^ (BitVec.ofNat 64 (g + 1) * golden)
  if x = 0#64 then golden else x

/-- Exact a · b + c with one rounding to come. -/
def fmaV (a b c : Val) : Val × Stat :=
  let p := mulV a b
  let x := addV p.1 c
  -- a NaN operand is passed on: no NaN is produced of operands that hold one (spec/02 R77)
  if a.isNan || b.isNan || c.isNan then (.nan, Stat.none) else (x.1, p.2.or x.2)

/-- Quotient as IEEE 754 gives it. -/
def divV (a b : Val) : Val × Stat :=
  match a, b with
  | .nan, _ => (.nan, Stat.none)
  | _, .nan => (.nan, Stat.none)
  | .inf _, .inf _ => (.nan, stFlag fNanProduced)
  | .inf x, .fin y _ _ => (.inf (x ^^ y), Stat.none)
  | .fin x _ _, .inf y => (.fin (x ^^ y) 0 0, Stat.none)
  | .fin x m e, .fin y k g =>
    if k = 0 then (if m = 0 then (.nan, stFlag fNanProduced) else (.inf (x ^^ y), Stat.none))
    else if m = 0 then (.fin (x ^^ y) 0 0, Stat.none)
    else (divFin x m e y k g, Stat.none)

/-- Square root as IEEE 754 gives it. -/
def sqrtV : Val → Val × Stat
  | .nan => (.nan, Stat.none)
  | .inf n => if n then (.nan, stFlag fNanProduced) else (.inf false, Stat.none)
  | .fin n m e => if m = 0 then (.fin n 0 0, Stat.none) else if n then (.nan, stFlag fNanProduced) else (sqrtFin m e, Stat.none)

/-- The larger of two values, exactly; NaN where either is NaN (spec/05 R152, spec/06 R167 VREDMAX). +0 is above -0. -/
def maxV (a b : Val) : Val :=
  if a.isNan || b.isNan then .nan
  else if ltV a b then b
  else if ltV b a then a
  else if a.isNeg then b else a

/-- IEEE 754 minimumNumber and maximumNumber: a NaN gives way to a number (spec/06 R167). -/
def maxNumV (a b : Val) : Val := if a.isNan then b else if b.isNan then a else maxV a b
def minNumV (a b : Val) : Val := (maxNumV a.neg b.neg).neg

-- exp and rsqrt (spec/05 R154) ----------------------------------------------------------------------------------------

/-- Fixed-point scale of the exp unit's evaluation. -/
def expScale : Nat := 120
/-- ln 2 · 2^120. -/
def ln2Fixed : Int := 921350637599661305226344307672478455
/-- Taylor sum Σ r^k / k! in fixed point, `n` terms from term k on. -/
def expTaylor : Nat → Nat → Int → Int → Int → Int
  | 0, _, _, _, acc => acc
  | n + 1, k, r, term, acc => expTaylor n (k + 1) r (term * r / (2 ^ expScale : Nat) / (k + 1)) (acc + term)

/-- The internal value of a unit: 54 bits of the exact result's approximation, moved by the unit's own offset, which is a fixed
function of the operand and below 2^-10 units in the last place of binary32 (2^20 of these units); the approximation itself is
within one of these units. -/
def unitValue (m : Nat) (e : Int) (off : Int) : Val :=
  let sh := Nat.log2 m - 53
  let top : Int := (m >>> sh : Nat)
  let o := max (-1048000) (min 1048000 off)
  .fin false (top + o).toNat (e + sh)

/-- The internal value of exp for a finite operand (spec/05 R154). Beyond ±200 the result is far outside binary32 on either side. -/
def expFin (off : Int) (n : Bool) (m : Nat) (e : Int) : Val :=
  if ltV (.fin false 200 0) (.fin false m e) then (if n then .fin false 1 (-400) else .fin false 1 400)
  else
    let mag : Int := if 0 ≤ e + expScale then ((m <<< (e + expScale).toNat : Nat) : Int) else ((m >>> (-(e + expScale)).toNat : Nat) : Int)
    let x := if n then -mag else mag
    let k := (x + ln2Fixed / 2) / ln2Fixed
    let r := x - k * ln2Fixed
    let t := expTaylor 40 0 r (2 ^ expScale : Nat) 0
    unitValue t.toNat (k - expScale) off

/-- exp of a binary32 value (spec/05 R154). -/
def expV (v : Val) : Val :=
  match v with
  | .nan => .nan
  | .inf n => if n then Val.zero else .inf false
  | .fin n m e => expFin (Config.expOffset (code32 v)) n m e

/-- rsqrt of a binary32 value (spec/05 R154). -/
def rsqrtV (v : Val) : Val × Stat :=
  match v with
  | .nan => (.nan, Stat.none)
  | .inf n => if n then (.nan, stFlag fNanProduced) else (Val.zero, Stat.none)
  | .fin n m e =>
    if m = 0 then (.inf n, Stat.none)
    else if n then (.nan, stFlag fNanProduced)
    else
      let m' := if e % 2 = 0 then m else 2 * m
      let e' := if e % 2 = 0 then e else e - 1
      -- 1 / sqrt(m' · 2^e') = sqrt(2^400 / m') · 2^-200 · 2^(-e'/2)
      (unitValue (isqrt (2 ^ 400 / m')) (-200 - e' / 2) (Config.rsqrtOffset (code32 v)), Stat.none)

end Sys2Proof.Machine
end

