-- ==== Sys2Proof/Machine/RegMap.lean ====
section
/-! DEFINITION. The register maps: the offset of every register, and for each its width, access masks, reset value and writers
(spec/00 R18-R24 and the register tables of every chapter). -/

namespace Sys2Proof.Machine

/-- Who may write a register: every source, the active PCD, the management path, the active PCD while every place of the die is IDLE,
the active PCD in Truing and a re-true. -/
inductive Writer where
  | any
  | pcd
  | mgmt
  | idle
  | tru
deriving DecidableEq, Repr, Inhabited

/-- The block a register lies in. -/
inductive Blk where
  | cd
  | md
  | fd
  | rs
  | pc
deriving DecidableEq, Repr, Inhabited

/-- A row of a register map: `count` registers, `stride` bytes apart, from `off`. Bits in no mask are RO or reserved. -/
structure RegRow where
  blk : Blk
  off : Nat
  stride : Nat
  count : Nat
  width : Nat
  rw : Nat
  w1c : Nat
  rc : Nat
  reset : Nat
  writer : Writer
deriving DecidableEq, Repr, Inhabited

/-- CD.SITE_ID: spec/01 R31. -/
def CD_SITE_ID : Nat := 0xF0000000
/-- CD.ARITH_STATUS: spec/02 R77. -/
def CD_ARITH_STATUS : Nat := 0xF0000300
/-- CD.SAT_COUNT: spec/02 R78. -/
def CD_SAT_COUNT : Nat := 0xF0000308
/-- CD.SR_SEED: spec/02 R65. -/
def CD_SR_SEED (n : Nat) : Nat := 0xF0000400 + 0x8 * n
/-- CD.SPAD_GEOM: spec/07 R195. -/
def CD_SPAD_GEOM : Nat := 0xF0000800
/-- CD.SPAD_LINEAR: spec/07 R212. -/
def CD_SPAD_LINEAR : Nat := 0xF0000804
/-- CD.SPAD_PWR: spec/07 R212. -/
def CD_SPAD_PWR : Nat := 0xF0000808
/-- CD.SPAD_STATUS: spec/07 R212. -/
def CD_SPAD_STATUS : Nat := 0xF000080C
/-- CD.SPAD_ECC_CORR: spec/07 R212. -/
def CD_SPAD_ECC_CORR : Nat := 0xF0000810
/-- CD.SPAD_SCRUB: spec/07 R212. -/
def CD_SPAD_SCRUB : Nat := 0xF0000814
/-- CD.SPAD_FAULT_INFO: spec/07 R212. -/
def CD_SPAD_FAULT_INFO : Nat := 0xF0000818
/-- CD.SPAD_FAULT_ADDR: spec/07 R212. -/
def CD_SPAD_FAULT_ADDR : Nat := 0xF000081C
/-- CD.SPAD_FAULT_PTC: spec/07 R212. -/
def CD_SPAD_FAULT_PTC : Nat := 0xF0000820
/-- CD.SPAD_DYN_WAIT: spec/07 R212. -/
def CD_SPAD_DYN_WAIT : Nat := 0xF0000828
/-- CD.SPAD_ACCESS: spec/07 R212. -/
def CD_SPAD_ACCESS : Nat := 0xF0000830
/-- CD.MC_STATUS: spec/03 R119. -/
def CD_MC_STATUS (n : Nat) : Nat := 0xF0001000 + 0x40 * n
/-- CD.MC_SUMCHK_COUNT: spec/03 R119. -/
def CD_MC_SUMCHK_COUNT (n : Nat) : Nat := 0xF0001004 + 0x40 * n
/-- CD.MC_SUMCHK_SKIP: spec/03 R119. -/
def CD_MC_SUMCHK_SKIP (n : Nat) : Nat := 0xF0001008 + 0x40 * n
/-- CD.MC_ECC_CORR: spec/03 R119. -/
def CD_MC_ECC_CORR (n : Nat) : Nat := 0xF000100C + 0x40 * n
/-- CD.MC_PASSES: spec/03 R119. -/
def CD_MC_PASSES (n : Nat) : Nat := 0xF0001010 + 0x40 * n
/-- CD.MC_BUSY: spec/03 R119. -/
def CD_MC_BUSY (n : Nat) : Nat := 0xF0001018 + 0x40 * n
/-- CD.MC_FAULT_INFO: spec/03 R120. -/
def CD_MC_FAULT_INFO : Nat := 0xF0001400
/-- CD.MC_FAULT_CMD: spec/03 R120. -/
def CD_MC_FAULT_CMD : Nat := 0xF0001404
/-- CD.MC_FAULT_DIFF: spec/03 R120. -/
def CD_MC_FAULT_DIFF : Nat := 0xF0001408
/-- CD.MC_FAULT_TOL: spec/03 R120. -/
def CD_MC_FAULT_TOL : Nat := 0xF000140C
/-- CD.MC_FAULT_PTC: spec/03 R120. -/
def CD_MC_FAULT_PTC : Nat := 0xF0001410
/-- CD.MC_INJECT: spec/03 R118. -/
def CD_MC_INJECT : Nat := 0xF0001420
/-- CD.SCR_STATUS: spec/05 R162. -/
def CD_SCR_STATUS : Nat := 0xF0001800
/-- CD.SCR_ECC_CORR: spec/05 R162. -/
def CD_SCR_ECC_CORR : Nat := 0xF0001804
/-- CD.SCR_ROWS: spec/05 R162. -/
def CD_SCR_ROWS : Nat := 0xF0001808
/-- CD.SCR_BUSY: spec/05 R162. -/
def CD_SCR_BUSY : Nat := 0xF0001810
/-- CD.SCR_FAULT_INFO: spec/05 R162. -/
def CD_SCR_FAULT_INFO : Nat := 0xF0001818
/-- CD.SCR_FAULT_CMD: spec/05 R162. -/
def CD_SCR_FAULT_CMD : Nat := 0xF000181C
/-- CD.SCR_FAULT_PTC: spec/05 R162. -/
def CD_SCR_FAULT_PTC : Nat := 0xF0001820
/-- CD.VC_STATUS: spec/06 R173. -/
def CD_VC_STATUS (n : Nat) : Nat := 0xF0002000 + 0x40 * n
/-- CD.VC_ECC_CORR: spec/06 R173. -/
def CD_VC_ECC_CORR (n : Nat) : Nat := 0xF0002004 + 0x40 * n
/-- CD.VC_INSTR: spec/06 R173. -/
def CD_VC_INSTR (n : Nat) : Nat := 0xF0002008 + 0x40 * n
/-- CD.VC_LANEOPS: spec/06 R173. -/
def CD_VC_LANEOPS (n : Nat) : Nat := 0xF0002010 + 0x40 * n
/-- CD.VC_FAULT_INFO: spec/06 R173. -/
def CD_VC_FAULT_INFO : Nat := 0xF0002400
/-- CD.VC_FAULT_CMD: spec/06 R173. -/
def CD_VC_FAULT_CMD : Nat := 0xF0002404
/-- CD.VC_FAULT_PTC: spec/06 R173. -/
def CD_VC_FAULT_PTC : Nat := 0xF0002408
/-- CD.SC_CTRL: spec/06 R189. -/
def CD_SC_CTRL (n : Nat) : Nat := 0xF0003000 + 0x20 * n
/-- CD.SC_STATUS: spec/06 R189. -/
def CD_SC_STATUS (n : Nat) : Nat := 0xF0003008 + 0x20 * n
/-- CD.SC_DIE_STATUS: spec/06 R189. -/
def CD_SC_DIE_STATUS : Nat := 0xF0003080
/-- CD.SC_SPDROP: spec/06 R189. -/
def CD_SC_SPDROP : Nat := 0xF0003084
/-- CD.SC_ECC_CORR: spec/06 R189. -/
def CD_SC_ECC_CORR : Nat := 0xF0003088
/-- CD.PL_BIND: spec/08 R218, R254. -/
def CD_PL_BIND (n : Nat) : Nat := 0xF0004000 + 0x8 * n
/-- CD.PL_CTRL: spec/08 R254. -/
def CD_PL_CTRL : Nat := 0xF0004100
/-- CD.PL_STATUS: spec/08 R254. -/
def CD_PL_STATUS : Nat := 0xF0004104
/-- CD.PL_STALE: spec/08 R254. -/
def CD_PL_STALE : Nat := 0xF0004108
/-- CD.PL_FLUSHED: spec/08 R254. -/
def CD_PL_FLUSHED : Nat := 0xF000410C
/-- CD.PL_TOK_CORR: spec/08 R254. -/
def CD_PL_TOK_CORR : Nat := 0xF0004110
/-- CD.PL_EPOCH: spec/08 R254. -/
def CD_PL_EPOCH : Nat := 0xF0004114
/-- CD.PL_NOISSUE: spec/08 R254. -/
def CD_PL_NOISSUE : Nat := 0xF0004118
/-- CD.PL_FAULT_INFO: spec/08 R254. -/
def CD_PL_FAULT_INFO : Nat := 0xF0004120
/-- CD.PL_FAULT_ENTRY: spec/08 R254. -/
def CD_PL_FAULT_ENTRY : Nat := 0xF0004124
/-- CD.PL_FAULT_PTC: spec/08 R254. -/
def CD_PL_FAULT_PTC : Nat := 0xF0004128
/-- CD.PL_QOCC: spec/08 R254. -/
def CD_PL_QOCC (n : Nat) : Nat := 0xF0004200 + 0x4 * n
/-- CD.SCH_NOMINAL: spec/09 R276. -/
def CD_SCH_NOMINAL : Nat := 0xF0005000
/-- CD.SCH_ELAPSED: spec/09 R276. -/
def CD_SCH_ELAPSED : Nat := 0xF0005008
/-- CD.STALL_FSTEP: spec/09 R276. -/
def CD_STALL_FSTEP : Nat := 0xF0005010
/-- CD.STALL_HOLD: spec/09 R276. -/
def CD_STALL_HOLD : Nat := 0xF0005018
/-- CD.STALL_THERMAL: spec/09 R276. -/
def CD_STALL_THERMAL : Nat := 0xF0005020
/-- CD.STALL_MEMLATE: spec/09 R276. -/
def CD_STALL_MEMLATE : Nat := 0xF0005028
/-- CD.STALL_BP: spec/09 R276. -/
def CD_STALL_BP : Nat := 0xF0005030
/-- CD.SCH_ISSUED: spec/09 R276. -/
def CD_SCH_ISSUED : Nat := 0xF0005038
/-- CD.SCH_CTRL: spec/09 R276. -/
def CD_SCH_CTRL : Nat := 0xF0005040
/-- CD.SCH_STATUS: spec/09 R276. -/
def CD_SCH_STATUS : Nat := 0xF0005044
/-- CD.HOLD_EVENTS: spec/09 R276. -/
def CD_HOLD_EVENTS : Nat := 0xF0005048
/-- CD.LAND_LATE: spec/09 R276. -/
def CD_LAND_LATE : Nat := 0xF000504C
/-- CD.LAND_DUP: spec/09 R276. -/
def CD_LAND_DUP : Nat := 0xF0005050
/-- CD.SCH_MATCH_ENTRY: spec/09 R276. -/
def CD_SCH_MATCH_ENTRY : Nat := 0xF0005054
/-- CD.SCH_MATCH: spec/09 R276. -/
def CD_SCH_MATCH : Nat := 0xF0005058
/-- CD.SCH_MATCH_RES: spec/09 R276. -/
def CD_SCH_MATCH_RES : Nat := 0xF0005060
/-- CD.SCH_SNAP: spec/09 R276. -/
def CD_SCH_SNAP (n : Nat) : Nat := 0xF0005080 + 0x8 * n
/-- CD.CLK_STATUS: spec/14 R423. -/
def CD_CLK_STATUS : Nat := 0xF0006000
/-- CD.CLK_REFSW: spec/14 R423. -/
def CD_CLK_REFSW : Nat := 0xF0006004
/-- CD.CLK_WARN: spec/14 R423. -/
def CD_CLK_WARN : Nat := 0xF0006008
/-- CD.CLK_WANDER: spec/14 R423. -/
def CD_CLK_WANDER : Nat := 0xF000600C
/-- CD.CLK_CCOUNT: spec/14 R423. -/
def CD_CLK_CCOUNT : Nat := 0xF0006010
/-- CD.CLK_NEXT: spec/14 R423. -/
def CD_CLK_NEXT : Nat := 0xF0006018
/-- CD.CLK_PTC: spec/14 R423. -/
def CD_CLK_PTC : Nat := 0xF0006020
/-- CD.CLK_PTC_ERR: spec/14 R423. -/
def CD_CLK_PTC_ERR : Nat := 0xF0006028
/-- CD.CLK_MARGIN: spec/14 R423. -/
def CD_CLK_MARGIN : Nat := 0xF000602C
/-- CD.THERM: spec/17 R496. -/
def CD_THERM : Nat := 0xF0007000
/-- CD.THERM_RAW: spec/17 R496. -/
def CD_THERM_RAW : Nat := 0xF0007008
/-- MD.IDENT: spec/10 R310. -/
def MD_IDENT : Nat := 0x0
/-- MD.PSTK_HDR: spec/10 R310. -/
def MD_PSTK_HDR : Nat := 0x10
/-- MD.PSTK: spec/10 R310. -/
def MD_PSTK (n : Nat) : Nat := 0x80 + 0x4 * n
/-- MD.STATUS: spec/10 R310. -/
def MD_STATUS : Nat := 0x100
/-- MD.ECC_CORR: spec/10 R310. -/
def MD_ECC_CORR : Nat := 0x104
/-- MD.ECC_UNCORR: spec/10 R310. -/
def MD_ECC_UNCORR : Nat := 0x108
/-- MD.TIMEOUT: spec/10 R310. -/
def MD_TIMEOUT : Nat := 0x10C
/-- MD.DESC_REJECT: spec/10 R310. -/
def MD_DESC_REJECT : Nat := 0x110
/-- MD.RD_BYTES: spec/10 R310. -/
def MD_RD_BYTES : Nat := 0x118
/-- MD.WR_BYTES: spec/10 R310. -/
def MD_WR_BYTES : Nat := 0x120
/-- MD.TRK_WAIT: spec/10 R310. -/
def MD_TRK_WAIT (n : Nat) : Nat := 0x128 + 0x8 * n
/-- MD.TRK_OCC: spec/10 R310. -/
def MD_TRK_OCC : Nat := 0x140
/-- MD.THERM: spec/10 R310. -/
def MD_THERM : Nat := 0x144
/-- MD.SCRUB_BASE: spec/10 R310. -/
def MD_SCRUB_BASE : Nat := 0x150
/-- MD.SCRUB_LEN: spec/10 R310. -/
def MD_SCRUB_LEN : Nat := 0x158
/-- MD.SCRUB_CTRL: spec/10 R310. -/
def MD_SCRUB_CTRL : Nat := 0x15C
/-- MD.FAULT_INFO: spec/10 R310. -/
def MD_FAULT_INFO : Nat := 0x160
/-- MD.FAULT_ADDR: spec/10 R310. -/
def MD_FAULT_ADDR : Nat := 0x168
/-- MD.FAULT_PTC: spec/10 R310. -/
def MD_FAULT_PTC : Nat := 0x170
/-- MD.CLK_STATUS: spec/14 R423. -/
def MD_CLK_STATUS : Nat := 0x6000
/-- MD.CLK_REFSW: spec/14 R423. -/
def MD_CLK_REFSW : Nat := 0x6004
/-- MD.CLK_WARN: spec/14 R423. -/
def MD_CLK_WARN : Nat := 0x6008
/-- MD.CLK_WANDER: spec/14 R423. -/
def MD_CLK_WANDER : Nat := 0x600C
/-- MD.CLK_CCOUNT: spec/14 R423. -/
def MD_CLK_CCOUNT : Nat := 0x6010
/-- MD.CLK_NEXT: spec/14 R423. -/
def MD_CLK_NEXT : Nat := 0x6018
/-- MD.CLK_PTC: spec/14 R423. -/
def MD_CLK_PTC : Nat := 0x6020
/-- MD.CLK_PTC_ERR: spec/14 R423. -/
def MD_CLK_PTC_ERR : Nat := 0x6028
/-- MD.CLK_MARGIN: spec/14 R423. -/
def MD_CLK_MARGIN : Nat := 0x602C
/-- FD.STATUS: spec/12 R378. -/
def FD_STATUS : Nat := 0x0
/-- FD.DIR_BASE: spec/12 R378. -/
def FD_DIR_BASE : Nat := 0x8
/-- FD.STALE_INC: spec/12 R378. -/
def FD_STALE_INC : Nat := 0x100
/-- FD.NOJOB: spec/12 R378. -/
def FD_NOJOB : Nat := 0x104
/-- FD.POLICE_DROP: spec/12 R378. -/
def FD_POLICE_DROP : Nat := 0x108
/-- FD.RX_BAD: spec/12 R378. -/
def FD_RX_BAD : Nat := 0x10C
/-- FD.RETRY: spec/12 R378. -/
def FD_RETRY : Nat := 0x110
/-- FD.MISROUTE: spec/12 R378. -/
def FD_MISROUTE : Nat := 0x114
/-- FD.HB_MISS: spec/12 R378. -/
def FD_HB_MISS : Nat := 0x118
/-- FD.TX_BYTES: spec/12 R378. -/
def FD_TX_BYTES : Nat := 0x120
/-- FD.RX_BYTES: spec/12 R378. -/
def FD_RX_BYTES : Nat := 0x128
/-- FD.RANK_MISS: spec/12 R378. -/
def FD_RANK_MISS : Nat := 0x130
/-- FD.TWIN_STATUS: spec/12 R378. -/
def FD_TWIN_STATUS : Nat := 0x140
/-- FD.MIRROR_SEQ: spec/12 R378. -/
def FD_MIRROR_SEQ : Nat := 0x144
/-- FD.RING_STATUS: spec/12 R378. -/
def FD_RING_STATUS : Nat := 0x148
/-- FD.CTX_W0: spec/12 R378. -/
def FD_CTX_W0 (n : Nat) : Nat := 0x1000 + 0x20 * n
/-- FD.CTX_W1: spec/12 R378. -/
def FD_CTX_W1 (n : Nat) : Nat := 0x1008 + 0x20 * n
/-- FD.CTX_W2: spec/12 R378. -/
def FD_CTX_W2 (n : Nat) : Nat := 0x1010 + 0x20 * n
/-- FD.CTX_W3: spec/12 R378. -/
def FD_CTX_W3 (n : Nat) : Nat := 0x1018 + 0x20 * n
/-- FD.JOB_W0: spec/12 R378. -/
def FD_JOB_W0 (n : Nat) : Nat := 0x3000 + 0x20 * n
/-- FD.JOB_W1: spec/12 R378. -/
def FD_JOB_W1 (n : Nat) : Nat := 0x3008 + 0x20 * n
/-- FD.JOB_W2: spec/12 R378. -/
def FD_JOB_W2 (n : Nat) : Nat := 0x3010 + 0x20 * n
/-- FD.JOB_W3: spec/12 R378. -/
def FD_JOB_W3 (n : Nat) : Nat := 0x3018 + 0x20 * n
/-- FD.CLK_STATUS: spec/14 R423. -/
def FD_CLK_STATUS : Nat := 0x6000
/-- FD.CLK_REFSW: spec/14 R423. -/
def FD_CLK_REFSW : Nat := 0x6004
/-- FD.CLK_WARN: spec/14 R423. -/
def FD_CLK_WARN : Nat := 0x6008
/-- FD.CLK_WANDER: spec/14 R423. -/
def FD_CLK_WANDER : Nat := 0x600C
/-- FD.CLK_CCOUNT: spec/14 R423. -/
def FD_CLK_CCOUNT : Nat := 0x6010
/-- FD.CLK_NEXT: spec/14 R423. -/
def FD_CLK_NEXT : Nat := 0x6018
/-- FD.CLK_PTC: spec/14 R423. -/
def FD_CLK_PTC : Nat := 0x6020
/-- FD.CLK_PTC_ERR: spec/14 R423. -/
def FD_CLK_PTC_ERR : Nat := 0x6028
/-- FD.CLK_MARGIN: spec/14 R423. -/
def FD_CLK_MARGIN : Nat := 0x602C
/-- RS.ROW_MAP: spec/01 R36. -/
def RS_ROW_MAP (n : Nat) : Nat := 0x100 + 0x4 * n
/-- RS.FENCE: spec/16 R468. -/
def RS_FENCE : Nat := 0x200
/-- RS.PWR: spec/17 R496. -/
def RS_PWR : Nat := 0x300
/-- RS.RT_STATUS: spec/11 R341. -/
def RS_RT_STATUS (n : Nat) : Nat := 0x1000 + 0x40 * n
/-- RS.RT_FEC_CORR: spec/11 R341. -/
def RS_RT_FEC_CORR (n : Nat) : Nat := 0x1004 + 0x40 * n
/-- RS.RT_FEC_UNCORR: spec/11 R341. -/
def RS_RT_FEC_UNCORR (n : Nat) : Nat := 0x1008 + 0x40 * n
/-- RS.RT_REPLAY: spec/11 R341. -/
def RS_RT_REPLAY (n : Nat) : Nat := 0x100C + 0x40 * n
/-- RS.RT_E2E: spec/11 R341. -/
def RS_RT_E2E (n : Nat) : Nat := 0x1010 + 0x40 * n
/-- RS.RT_SPN_CORR: spec/11 R341. -/
def RS_RT_SPN_CORR (n : Nat) : Nat := 0x1014 + 0x40 * n
/-- RS.RT_SPN_LOST: spec/11 R341. -/
def RS_RT_SPN_LOST (n : Nat) : Nat := 0x1018 + 0x40 * n
/-- RS.RT_DYN_FLITS: spec/11 R341. -/
def RS_RT_DYN_FLITS (n : Nat) : Nat := 0x1020 + 0x40 * n
/-- RS.RT_MOD_LO: spec/11 R341. -/
def RS_RT_MOD_LO (n : Nat) : Nat := 0x1028 + 0x40 * n
/-- RS.RT_MOD_HI: spec/11 R341. -/
def RS_RT_MOD_HI (n : Nat) : Nat := 0x1030 + 0x40 * n
/-- RS.RT_MOD_ATT: spec/11 R341. -/
def RS_RT_MOD_ATT (n : Nat) : Nat := 0x1038 + 0x40 * n
/-- RS.CLK_STATUS: spec/14 R423. -/
def RS_CLK_STATUS : Nat := 0x6000
/-- RS.CLK_REFSW: spec/14 R423. -/
def RS_CLK_REFSW : Nat := 0x6004
/-- RS.CLK_WARN: spec/14 R423. -/
def RS_CLK_WARN : Nat := 0x6008
/-- RS.CLK_WANDER: spec/14 R423. -/
def RS_CLK_WANDER : Nat := 0x600C
/-- RS.CLK_CCOUNT: spec/14 R423. -/
def RS_CLK_CCOUNT : Nat := 0x6010
/-- RS.CLK_NEXT: spec/14 R423. -/
def RS_CLK_NEXT : Nat := 0x6018
/-- RS.CLK_PTC: spec/14 R423. -/
def RS_CLK_PTC : Nat := 0x6020
/-- RS.CLK_PTC_ERR: spec/14 R423. -/
def RS_CLK_PTC_ERR : Nat := 0x6028
/-- RS.CLK_MARGIN: spec/14 R423. -/
def RS_CLK_MARGIN : Nat := 0x602C
/-- PC.PART_ID: spec/00 R6. -/
def PC_PART_ID : Nat := 0x8
/-- PC.BAD_ACCESS_COUNT: spec/00 R20. -/
def PC_BAD_ACCESS_COUNT : Nat := 0x10
/-- PC.ACCESS_STATUS: spec/00 R20. -/
def PC_ACCESS_STATUS : Nat := 0x14
/-- PC.CLK_STATUS: spec/14 R423. -/
def PC_CLK_STATUS : Nat := 0x6000
/-- PC.CLK_REFSW: spec/14 R423. -/
def PC_CLK_REFSW : Nat := 0x6004
/-- PC.CLK_WARN: spec/14 R423. -/
def PC_CLK_WARN : Nat := 0x6008
/-- PC.CLK_WANDER: spec/14 R423. -/
def PC_CLK_WANDER : Nat := 0x600C
/-- PC.CLK_CCOUNT: spec/14 R423. -/
def PC_CLK_CCOUNT : Nat := 0x6010
/-- PC.CLK_NEXT: spec/14 R423. -/
def PC_CLK_NEXT : Nat := 0x6018
/-- PC.CLK_PTC: spec/14 R423. -/
def PC_CLK_PTC : Nat := 0x6020
/-- PC.CLK_PTC_ERR: spec/14 R423. -/
def PC_CLK_PTC_ERR : Nat := 0x6028
/-- PC.CLK_MARGIN: spec/14 R423. -/
def PC_CLK_MARGIN : Nat := 0x602C
/-- PC.HOST_STATUS: spec/13 R400. -/
def PC_HOST_STATUS : Nat := 0x40000
/-- PC.HOST_AUTH_FAIL: spec/13 R400. -/
def PC_HOST_AUTH_FAIL : Nat := 0x40004
/-- PC.HOST_STALE: spec/13 R400. -/
def PC_HOST_STALE : Nat := 0x40008
/-- PC.HOST_REFUSED: spec/13 R400. -/
def PC_HOST_REFUSED : Nat := 0x4000C
/-- PC.WI_ACCEPTED: spec/13 R400. -/
def PC_WI_ACCEPTED : Nat := 0x40010
/-- PC.WI_FAILED: spec/13 R400. -/
def PC_WI_FAILED : Nat := 0x40018
/-- PC.HOST_RX_BYTES: spec/13 R400. -/
def PC_HOST_RX_BYTES : Nat := 0x40020
/-- PC.HOST_TX_BYTES: spec/13 R400. -/
def PC_HOST_TX_BYTES : Nat := 0x40028
/-- PC.SESS: spec/13 R400. -/
def PC_SESS (n : Nat) : Nat := 0x40100 + 0x8 * n
/-- PC.PTP_STATUS: spec/14 R424. -/
def PC_PTP_STATUS : Nat := 0x50000
/-- PC.PTP_OFFSET: spec/14 R424. -/
def PC_PTP_OFFSET : Nat := 0x50008
/-- PC.PTP_RATE: spec/14 R424. -/
def PC_PTP_RATE : Nat := 0x50010
/-- PC.PTP_GMID: spec/14 R424. -/
def PC_PTP_GMID : Nat := 0x50018
/-- PC.BRINGUP_STATUS: spec/15 R447. -/
def PC_BRINGUP_STATUS : Nat := 0x60000
/-- PC.BSEQ: spec/15 R447. -/
def PC_BSEQ : Nat := 0x60008
/-- PC.RETRUE_COUNT: spec/15 R447. -/
def PC_RETRUE_COUNT : Nat := 0x6000C
/-- PC.RETRUE_CTRL: spec/15 R447. -/
def PC_RETRUE_CTRL : Nat := 0x60010
/-- PC.KNOT_LOG_USED: spec/15 R447. -/
def PC_KNOT_LOG_USED : Nat := 0x60014
/-- PC.STAGE_REPORT: spec/15 R447. -/
def PC_STAGE_REPORT (n : Nat) : Nat := 0x60100 + 0x8 * n
/-- PC.EVT_STATUS: spec/16 R469. -/
def PC_EVT_STATUS : Nat := 0x70000
/-- PC.EVT_NEXT: spec/16 R469. -/
def PC_EVT_NEXT : Nat := 0x70004
/-- PC.EVT_ACK: spec/16 R469. -/
def PC_EVT_ACK : Nat := 0x70008
/-- PC.EVT_LOST: spec/16 R469. -/
def PC_EVT_LOST : Nat := 0x7000C
/-- PC.EVT_REC: spec/16 R469. -/
def PC_EVT_REC (n : Nat) : Nat := 0x71000 + 0x8 * n
/-- PC.PWR_STATUS: spec/17 R496. -/
def PC_PWR_STATUS : Nat := 0x80000
/-- PC.COOLANT: spec/17 R496. -/
def PC_COOLANT : Nat := 0x80008
/-- PC.PWR_GUARD: spec/17 R496. -/
def PC_PWR_GUARD : Nat := 0x80010
/-- PC.PSTATE: spec/17 R496. -/
def PC_PSTATE (n : Nat) : Nat := 0x80100 + 0x4 * n
/-- PC.TRUST_STATUS: spec/18 R517. -/
def PC_TRUST_STATUS : Nat := 0x90000
/-- PC.FW_VERSION: spec/18 R517. -/
def PC_FW_VERSION : Nat := 0x90004
/-- PC.CONFIG_ID: spec/18 R517. -/
def PC_CONFIG_ID : Nat := 0x90008
/-- PC.UPDATE_REJECT: spec/18 R517. -/
def PC_UPDATE_REJECT : Nat := 0x9000C
/-- PC.TELEM_SEQ: spec/18 R517. -/
def PC_TELEM_SEQ : Nat := 0x90010
/-- PC.EVT_ATT: spec/16 R469. -/
def PC_EVT_ATT (n : Nat) : Nat := 0x400000 + 0x8 * n

/-- Part 0 of the register maps. -/
def regRows0 : List RegRow := [
  ⟨.cd, 0xF0000000, 0x4, 1, 32, 0x0, 0x0, 0x0, 0x0, .any⟩,
  ⟨.cd, 0xF0000300, 0x4, 1, 32, 0x0, 0x800001FF, 0x0, 0x0, .any⟩,
  ⟨.cd, 0xF0000308, 0x4, 1, 32, 0x0, 0x0, 0xFFFFFFFF, 0x0, .any⟩,
  ⟨.cd, 0xF0000400, 0x8, 25, 64, 0xFFFFFFFFFFFFFFFF, 0x0, 0x0, 0x0, .any⟩,
  ⟨.cd, 0xF0000800, 0x4, 1, 32, 0x0, 0x0, 0x0, 0x6000000, .any⟩,
  ⟨.cd, 0xF0000804, 0x4, 1, 32, 0xFFFFFFFF, 0x0, 0x0, 0x0, .pcd⟩,
  ⟨.cd, 0xF0000808, 0x4, 1, 32, 0xFFFFFFFF, 0x0, 0x0, 0xFFFFFFFF, .pcd⟩,
  ⟨.cd, 0xF000080C, 0x4, 1, 32, 0x0, 0x80000010, 0x0, 0x0, .any⟩,
  ⟨.cd, 0xF0000810, 0x4, 1, 32, 0x0, 0x0, 0xFFFFFFFF, 0x0, .any⟩,
  ⟨.cd, 0xF0000814, 0x4, 1, 32, 0x0, 0x0, 0x0, 0x0, .pcd⟩,
  ⟨.cd, 0xF0000818, 0x4, 1, 32, 0x0, 0x80000000, 0x0, 0x0, .any⟩,
  ⟨.cd, 0xF000081C, 0x4, 1, 32, 0x0, 0x0, 0x0, 0x0, .any⟩,
  ⟨.cd, 0xF0000820, 0x8, 1, 64, 0x0, 0x0, 0x0, 0x0, .any⟩,
  ⟨.cd, 0xF0000828, 0x8, 1, 64, 0x0, 0x8000000000000000, 0x0, 0x0, .any⟩,
  ⟨.cd, 0xF0000830, 0x8, 1, 64, 0x0, 0x8000000000000000, 0x0, 0x0, .any⟩,
  ⟨.cd, 0xF0001000, 0x40, 16, 32, 0x0, 0xE0000000, 0x0, 0x0, .any⟩,
  ⟨.cd, 0xF0001004, 0x40, 16, 32, 0x0, 0x0, 0xFFFFFFFF, 0x0, .any⟩,
  ⟨.cd, 0xF0001008, 0x40, 16, 32, 0x0, 0x0, 0xFFFFFFFF, 0x0, .any⟩,
  ⟨.cd, 0xF000100C, 0x40, 16, 32, 0x0, 0x0, 0xFFFFFFFF, 0x0, .any⟩,
  ⟨.cd, 0xF0001010, 0x40, 16, 64, 0x0, 0x8000000000000000, 0x0, 0x0, .any⟩,
  ⟨.cd, 0xF0001018, 0x40, 16, 64, 0x0, 0x8000000000000000, 0x0, 0x0, .any⟩,
  ⟨.cd, 0xF0001400, 0x4, 1, 32, 0x0, 0x80000000, 0x0, 0x0, .any⟩,
  ⟨.cd, 0xF0001404, 0x4, 1, 32, 0x0, 0x0, 0x0, 0x0, .any⟩,
  ⟨.cd, 0xF0001408, 0x4, 1, 32, 0x0, 0x0, 0x0, 0x0, .any⟩]

/-- Part 1 of the register maps. -/
def regRows1 : List RegRow := [
  ⟨.cd, 0xF000140C, 0x4, 1, 32, 0x0, 0x0, 0x0, 0x0, .any⟩,
  ⟨.cd, 0xF0001410, 0x8, 1, 64, 0x0, 0x0, 0x0, 0x0, .any⟩,
  ⟨.cd, 0xF0001420, 0x4, 1, 32, 0x0, 0x0, 0x0, 0x0, .any⟩,
  ⟨.cd, 0xF0001800, 0x4, 1, 32, 0x0, 0x80000000, 0x0, 0x0, .any⟩,
  ⟨.cd, 0xF0001804, 0x4, 1, 32, 0x0, 0x0, 0xFFFFFFFF, 0x0, .any⟩,
  ⟨.cd, 0xF0001808, 0x8, 1, 64, 0x0, 0x8000000000000000, 0x0, 0x0, .any⟩,
  ⟨.cd, 0xF0001810, 0x8, 1, 64, 0x0, 0x8000000000000000, 0x0, 0x0, .any⟩,
  ⟨.cd, 0xF0001818, 0x4, 1, 32, 0x0, 0x80000000, 0x0, 0x0, .any⟩,
  ⟨.cd, 0xF000181C, 0x4, 1, 32, 0x0, 0x0, 0x0, 0x0, .any⟩,
  ⟨.cd, 0xF0001820, 0x8, 1, 64, 0x0, 0x0, 0x0, 0x0, .any⟩,
  ⟨.cd, 0xF0002000, 0x40, 8, 32, 0x0, 0x80000000, 0x0, 0x0, .any⟩,
  ⟨.cd, 0xF0002004, 0x40, 8, 32, 0x0, 0x0, 0xFFFFFFFF, 0x0, .any⟩,
  ⟨.cd, 0xF0002008, 0x40, 8, 64, 0x0, 0x8000000000000000, 0x0, 0x0, .any⟩,
  ⟨.cd, 0xF0002010, 0x40, 8, 64, 0x0, 0x8000000000000000, 0x0, 0x0, .any⟩,
  ⟨.cd, 0xF0002400, 0x4, 1, 32, 0x0, 0x80000000, 0x0, 0x0, .any⟩,
  ⟨.cd, 0xF0002404, 0x4, 1, 32, 0x0, 0x0, 0x0, 0x0, .any⟩,
  ⟨.cd, 0xF0002408, 0x8, 1, 64, 0x0, 0x0, 0x0, 0x0, .any⟩,
  ⟨.cd, 0xF0003000, 0x20, 4, 64, 0xFFFFFFFFFFFFF001, 0x0, 0x0, 0x0, .pcd⟩,
  ⟨.cd, 0xF0003008, 0x20, 4, 32, 0x0, 0x0, 0x0, 0x0, .any⟩,
  ⟨.cd, 0xF0003080, 0x4, 1, 32, 0x0, 0xC0000000, 0x0, 0x0, .any⟩,
  ⟨.cd, 0xF0003084, 0x4, 1, 32, 0x0, 0x0, 0xFFFFFFFF, 0x0, .any⟩,
  ⟨.cd, 0xF0003088, 0x4, 1, 32, 0x0, 0x0, 0xFFFFFFFF, 0x0, .any⟩,
  ⟨.cd, 0xF0004000, 0x8, 25, 64, 0xF8FFF8FFF8FFF8FF, 0x0, 0x0, 0x0, .idle⟩,
  ⟨.cd, 0xF0004100, 0x4, 1, 32, 0xF, 0x0, 0x0, 0x0, .idle⟩]

/-- Part 2 of the register maps. -/
def regRows2 : List RegRow := [
  ⟨.cd, 0xF0004104, 0x4, 1, 32, 0x0, 0xE0000000, 0x0, 0x0, .any⟩,
  ⟨.cd, 0xF0004108, 0x4, 1, 32, 0x0, 0x0, 0xFFFFFFFF, 0x0, .any⟩,
  ⟨.cd, 0xF000410C, 0x4, 1, 32, 0x0, 0x0, 0xFFFFFFFF, 0x0, .any⟩,
  ⟨.cd, 0xF0004110, 0x4, 1, 32, 0x0, 0x0, 0xFFFFFFFF, 0x0, .any⟩,
  ⟨.cd, 0xF0004114, 0x4, 1, 32, 0x0, 0x0, 0x0, 0x0, .any⟩,
  ⟨.cd, 0xF0004118, 0x8, 1, 64, 0x0, 0x8000000000000000, 0x0, 0x0, .any⟩,
  ⟨.cd, 0xF0004120, 0x4, 1, 32, 0x0, 0x80000000, 0x0, 0x0, .any⟩,
  ⟨.cd, 0xF0004124, 0x4, 1, 32, 0x0, 0x0, 0x0, 0x0, .any⟩,
  ⟨.cd, 0xF0004128, 0x8, 1, 64, 0x0, 0x0, 0x0, 0x0, .any⟩,
  ⟨.cd, 0xF0004200, 0x4, 25, 32, 0x0, 0x0, 0x0, 0x0, .any⟩,
  ⟨.cd, 0xF0005000, 0x8, 1, 64, 0x0, 0x8000000000000000, 0x0, 0x0, .any⟩,
  ⟨.cd, 0xF0005008, 0x8, 1, 64, 0x0, 0x8000000000000000, 0x0, 0x0, .any⟩,
  ⟨.cd, 0xF0005010, 0x8, 1, 64, 0x0, 0x8000000000000000, 0x0, 0x0, .any⟩,
  ⟨.cd, 0xF0005018, 0x8, 1, 64, 0x0, 0x8000000000000000, 0x0, 0x0, .any⟩,
  ⟨.cd, 0xF0005020, 0x8, 1, 64, 0x0, 0x8000000000000000, 0x0, 0x0, .any⟩,
  ⟨.cd, 0xF0005028, 0x8, 1, 64, 0x0, 0x8000000000000000, 0x0, 0x0, .any⟩,
  ⟨.cd, 0xF0005030, 0x8, 1, 64, 0x0, 0x8000000000000000, 0x0, 0x0, .any⟩,
  ⟨.cd, 0xF0005038, 0x8, 1, 64, 0x0, 0x8000000000000000, 0x0, 0x0, .any⟩,
  ⟨.cd, 0xF0005040, 0x4, 1, 32, 0x0, 0x0, 0x0, 0x0, .any⟩,
  ⟨.cd, 0xF0005044, 0x4, 1, 32, 0x0, 0xE0000004, 0x0, 0x0, .any⟩,
  ⟨.cd, 0xF0005048, 0x4, 1, 32, 0x0, 0x0, 0xFFFFFFFF, 0x0, .any⟩,
  ⟨.cd, 0xF000504C, 0x4, 1, 32, 0x0, 0x0, 0xFFFFFFFF, 0x0, .any⟩,
  ⟨.cd, 0xF0005050, 0x4, 1, 32, 0x0, 0x0, 0xFFFFFFFF, 0x0, .any⟩,
  ⟨.cd, 0xF0005054, 0x4, 1, 32, 0x0, 0x0, 0x0, 0x0, .any⟩]

/-- Part 3 of the register maps. -/
def regRows3 : List RegRow := [
  ⟨.cd, 0xF0005058, 0x8, 1, 64, 0xFC00FFFFFFFFFFFF, 0x0, 0x0, 0x0, .any⟩,
  ⟨.cd, 0xF0005060, 0x8, 1, 64, 0x0, 0x0, 0x0, 0x0, .any⟩,
  ⟨.cd, 0xF0005080, 0x8, 8, 64, 0x0, 0x0, 0x0, 0x0, .any⟩,
  ⟨.cd, 0xF0006000, 0x4, 1, 32, 0x0, 0xE0000000, 0x0, 0x0, .any⟩,
  ⟨.cd, 0xF0006004, 0x4, 1, 32, 0x0, 0x0, 0xFFFFFFFF, 0x0, .any⟩,
  ⟨.cd, 0xF0006008, 0x4, 1, 32, 0x0, 0x0, 0xFFFFFFFF, 0x0, .any⟩,
  ⟨.cd, 0xF000600C, 0x4, 1, 32, 0x0, 0x0, 0xFFFFFFFF, 0x0, .any⟩,
  ⟨.cd, 0xF0006010, 0x8, 1, 64, 0x0, 0x0, 0x0, 0x0, .any⟩,
  ⟨.cd, 0xF0006018, 0x8, 1, 64, 0x800F0000FFFFFFFF, 0x0, 0x0, 0x0, .pcd⟩,
  ⟨.cd, 0xF0006020, 0x8, 1, 64, 0x0, 0x0, 0x0, 0x0, .any⟩,
  ⟨.cd, 0xF0006028, 0x4, 1, 32, 0x0, 0x0, 0x0, 0x0, .any⟩,
  ⟨.cd, 0xF000602C, 0x4, 1, 32, 0x0, 0x0, 0xFFE00000, 0xFC003140, .any⟩,
  ⟨.cd, 0xF0007000, 0x4, 1, 32, 0x0, 0x0, 0x0, 0x0, .any⟩,
  ⟨.cd, 0xF0007008, 0x8, 1, 64, 0x0, 0x0, 0x0, 0x0, .any⟩,
  ⟨.md, 0x0, 0x4, 1, 32, 0x0, 0x0, 0x0, 0x18, .any⟩,
  ⟨.md, 0x10, 0x4, 1, 32, 0xF00FF, 0x0, 0x0, 0x0, .tru⟩,
  ⟨.md, 0x80, 0x4, 32, 32, 0xFFFFFFFF, 0x0, 0x0, 0xFFFFFFFF, .tru⟩,
  ⟨.md, 0x100, 0x4, 1, 32, 0x0, 0xF0000000, 0x0, 0x0, .any⟩,
  ⟨.md, 0x104, 0x4, 1, 32, 0x0, 0x0, 0xFFFFFFFF, 0x0, .any⟩,
  ⟨.md, 0x108, 0x4, 1, 32, 0x0, 0x0, 0xFFFFFFFF, 0x0, .any⟩,
  ⟨.md, 0x10C, 0x4, 1, 32, 0x0, 0x0, 0xFFFFFFFF, 0x0, .any⟩,
  ⟨.md, 0x110, 0x4, 1, 32, 0x0, 0x0, 0xFFFFFFFF, 0x0, .any⟩,
  ⟨.md, 0x118, 0x8, 1, 64, 0x0, 0x8000000000000000, 0x0, 0x0, .any⟩,
  ⟨.md, 0x120, 0x8, 1, 64, 0x0, 0x8000000000000000, 0x0, 0x0, .any⟩]

/-- Part 4 of the register maps. -/
def regRows4 : List RegRow := [
  ⟨.md, 0x128, 0x8, 3, 64, 0x0, 0x8000000000000000, 0x0, 0x0, .any⟩,
  ⟨.md, 0x140, 0x4, 1, 32, 0x0, 0x0, 0x0, 0x0, .any⟩,
  ⟨.md, 0x144, 0x4, 1, 32, 0xC0000, 0x0, 0x0, 0x0, .pcd⟩,
  ⟨.md, 0x150, 0x8, 1, 64, 0xFFFFFFFFFFFFF000, 0x0, 0x0, 0x0, .pcd⟩,
  ⟨.md, 0x158, 0x4, 1, 32, 0xFFFFFFFF, 0x0, 0x0, 0x0, .pcd⟩,
  ⟨.md, 0x15C, 0x4, 1, 32, 0x0, 0x0, 0x0, 0x0, .pcd⟩,
  ⟨.md, 0x160, 0x4, 1, 32, 0x0, 0x80000000, 0x0, 0x0, .any⟩,
  ⟨.md, 0x168, 0x8, 1, 64, 0x0, 0x0, 0x0, 0x0, .any⟩,
  ⟨.md, 0x170, 0x8, 1, 64, 0x0, 0x0, 0x0, 0x0, .any⟩,
  ⟨.md, 0x6000, 0x4, 1, 32, 0x0, 0xE0000000, 0x0, 0x0, .any⟩,
  ⟨.md, 0x6004, 0x4, 1, 32, 0x0, 0x0, 0xFFFFFFFF, 0x0, .any⟩,
  ⟨.md, 0x6008, 0x4, 1, 32, 0x0, 0x0, 0xFFFFFFFF, 0x0, .any⟩,
  ⟨.md, 0x600C, 0x4, 1, 32, 0x0, 0x0, 0xFFFFFFFF, 0x0, .any⟩,
  ⟨.md, 0x6010, 0x8, 1, 64, 0x0, 0x0, 0x0, 0x0, .any⟩,
  ⟨.md, 0x6018, 0x8, 1, 64, 0x800F0000FFFFFFFF, 0x0, 0x0, 0x0, .pcd⟩,
  ⟨.md, 0x6020, 0x8, 1, 64, 0x0, 0x0, 0x0, 0x0, .any⟩,
  ⟨.md, 0x6028, 0x4, 1, 32, 0x0, 0x0, 0x0, 0x0, .any⟩,
  ⟨.md, 0x602C, 0x4, 1, 32, 0x0, 0x0, 0xFFE00000, 0xFC003140, .any⟩,
  ⟨.fd, 0x0, 0x4, 1, 32, 0x0, 0xFE000000, 0x0, 0x0, .any⟩,
  ⟨.fd, 0x8, 0x8, 1, 64, 0xFFFFFFFFFFFFFFFF, 0x0, 0x0, 0x0, .pcd⟩,
  ⟨.fd, 0x100, 0x4, 1, 32, 0x0, 0x0, 0xFFFFFFFF, 0x0, .any⟩,
  ⟨.fd, 0x104, 0x4, 1, 32, 0x0, 0x0, 0xFFFFFFFF, 0x0, .any⟩,
  ⟨.fd, 0x108, 0x4, 1, 32, 0x0, 0x0, 0xFFFFFFFF, 0x0, .any⟩,
  ⟨.fd, 0x10C, 0x4, 1, 32, 0x0, 0x0, 0xFFFFFFFF, 0x0, .any⟩]

/-- Part 5 of the register maps. -/
def regRows5 : List RegRow := [
  ⟨.fd, 0x110, 0x4, 1, 32, 0x0, 0x0, 0xFFFFFFFF, 0x0, .any⟩,
  ⟨.fd, 0x114, 0x4, 1, 32, 0x0, 0x0, 0xFFFFFFFF, 0x0, .any⟩,
  ⟨.fd, 0x118, 0x4, 1, 32, 0x0, 0x0, 0xFFFFFFFF, 0x0, .any⟩,
  ⟨.fd, 0x120, 0x8, 1, 64, 0x0, 0x8000000000000000, 0x0, 0x0, .any⟩,
  ⟨.fd, 0x128, 0x8, 1, 64, 0x0, 0x8000000000000000, 0x0, 0x0, .any⟩,
  ⟨.fd, 0x130, 0x8, 1, 64, 0x0, 0x8000000000000000, 0x0, 0x0, .any⟩,
  ⟨.fd, 0x140, 0x4, 1, 32, 0x0, 0x0, 0x0, 0x0, .any⟩,
  ⟨.fd, 0x144, 0x4, 1, 32, 0x0, 0x0, 0x0, 0x0, .any⟩,
  ⟨.fd, 0x148, 0x4, 1, 32, 0x0, 0x0, 0x0, 0x0, .any⟩,
  ⟨.fd, 0x1000, 0x20, 256, 64, 0x800FFFFF00000000, 0x0, 0x0, 0x0, .pcd⟩,
  ⟨.fd, 0x1008, 0x20, 256, 64, 0xFFFFFFFFFFFFFFFF, 0x0, 0x0, 0x0, .pcd⟩,
  ⟨.fd, 0x1010, 0x20, 256, 64, 0xFFFFFFFFFFFFFFFF, 0x0, 0x0, 0x0, .pcd⟩,
  ⟨.fd, 0x1018, 0x20, 256, 64, 0x0, 0x0, 0x0, 0x0, .pcd⟩,
  ⟨.fd, 0x3000, 0x20, 64, 64, 0x80000000FFFFFFFF, 0x0, 0x0, 0x0, .pcd⟩,
  ⟨.fd, 0x3008, 0x20, 64, 64, 0xFFFFFFFFFFFFFFFF, 0x0, 0x0, 0x0, .pcd⟩,
  ⟨.fd, 0x3010, 0x20, 64, 64, 0xFFFFFF00FFFFFFFF, 0x0, 0x0, 0x0, .pcd⟩,
  ⟨.fd, 0x3018, 0x20, 64, 64, 0xFFFFFFFFFFFFFFFF, 0x0, 0x0, 0x0, .pcd⟩,
  ⟨.fd, 0x6000, 0x4, 1, 32, 0x0, 0xE0000000, 0x0, 0x0, .any⟩,
  ⟨.fd, 0x6004, 0x4, 1, 32, 0x0, 0x0, 0xFFFFFFFF, 0x0, .any⟩,
  ⟨.fd, 0x6008, 0x4, 1, 32, 0x0, 0x0, 0xFFFFFFFF, 0x0, .any⟩,
  ⟨.fd, 0x600C, 0x4, 1, 32, 0x0, 0x0, 0xFFFFFFFF, 0x0, .any⟩,
  ⟨.fd, 0x6010, 0x8, 1, 64, 0x0, 0x0, 0x0, 0x0, .any⟩,
  ⟨.fd, 0x6018, 0x8, 1, 64, 0x800F0000FFFFFFFF, 0x0, 0x0, 0x0, .pcd⟩,
  ⟨.fd, 0x6020, 0x8, 1, 64, 0x0, 0x0, 0x0, 0x0, .any⟩]

/-- Part 6 of the register maps. -/
def regRows6 : List RegRow := [
  ⟨.fd, 0x6028, 0x4, 1, 32, 0x0, 0x0, 0x0, 0x0, .any⟩,
  ⟨.fd, 0x602C, 0x4, 1, 32, 0x0, 0x0, 0xFFE00000, 0xFC003140, .any⟩,
  ⟨.rs, 0x100, 0x4, 4, 32, 0x0, 0x0, 0x0, 0x0, .any⟩,
  ⟨.rs, 0x200, 0x8, 1, 64, 0x0, 0x4000000000000000, 0x0, 0x0, .pcd⟩,
  ⟨.rs, 0x300, 0x4, 1, 32, 0x0, 0x0, 0x0, 0x0, .any⟩,
  ⟨.rs, 0x1000, 0x40, 36, 32, 0x0, 0xFC000000, 0x0, 0x0, .pcd⟩,
  ⟨.rs, 0x1004, 0x40, 36, 32, 0x0, 0x0, 0xFFFFFFFF, 0x0, .pcd⟩,
  ⟨.rs, 0x1008, 0x40, 36, 32, 0x0, 0x0, 0xFFFFFFFF, 0x0, .pcd⟩,
  ⟨.rs, 0x100C, 0x40, 36, 32, 0x0, 0x0, 0xFFFFFFFF, 0x0, .pcd⟩,
  ⟨.rs, 0x1010, 0x40, 36, 32, 0x0, 0x0, 0xFFFFFFFF, 0x0, .pcd⟩,
  ⟨.rs, 0x1014, 0x40, 36, 32, 0x0, 0x0, 0xFFFFFFFF, 0x0, .pcd⟩,
  ⟨.rs, 0x1018, 0x40, 36, 32, 0x0, 0x0, 0xFFFFFFFF, 0x0, .pcd⟩,
  ⟨.rs, 0x1020, 0x40, 36, 64, 0x0, 0x8000000000000000, 0x0, 0x0, .pcd⟩,
  ⟨.rs, 0x1028, 0x40, 36, 64, 0x0, 0x0, 0x0, 0x0, .pcd⟩,
  ⟨.rs, 0x1030, 0x40, 36, 64, 0x0, 0x0, 0x0, 0x0, .pcd⟩,
  ⟨.rs, 0x1038, 0x40, 36, 32, 0x0, 0x0, 0x0, 0x0, .pcd⟩,
  ⟨.rs, 0x6000, 0x4, 1, 32, 0x0, 0xE0000000, 0x0, 0x0, .any⟩,
  ⟨.rs, 0x6004, 0x4, 1, 32, 0x0, 0x0, 0xFFFFFFFF, 0x0, .any⟩,
  ⟨.rs, 0x6008, 0x4, 1, 32, 0x0, 0x0, 0xFFFFFFFF, 0x0, .any⟩,
  ⟨.rs, 0x600C, 0x4, 1, 32, 0x0, 0x0, 0xFFFFFFFF, 0x0, .any⟩,
  ⟨.rs, 0x6010, 0x8, 1, 64, 0x0, 0x0, 0x0, 0x0, .any⟩,
  ⟨.rs, 0x6018, 0x8, 1, 64, 0x800F0000FFFFFFFF, 0x0, 0x0, 0x0, .pcd⟩,
  ⟨.rs, 0x6020, 0x8, 1, 64, 0x0, 0x0, 0x0, 0x0, .any⟩,
  ⟨.rs, 0x6028, 0x4, 1, 32, 0x0, 0x0, 0x0, 0x0, .any⟩]

/-- Part 7 of the register maps. -/
def regRows7 : List RegRow := [
  ⟨.rs, 0x602C, 0x4, 1, 32, 0x0, 0x0, 0xFFE00000, 0xFC003140, .any⟩,
  ⟨.pc, 0x8, 0x4, 1, 32, 0x0, 0x0, 0x0, 0x56000000, .any⟩,
  ⟨.pc, 0x10, 0x4, 1, 32, 0x0, 0x0, 0xFFFFFFFF, 0x0, .any⟩,
  ⟨.pc, 0x14, 0x4, 1, 32, 0x0, 0x80000000, 0x0, 0x0, .any⟩,
  ⟨.pc, 0x6000, 0x4, 1, 32, 0x0, 0xE0000000, 0x0, 0x0, .any⟩,
  ⟨.pc, 0x6004, 0x4, 1, 32, 0x0, 0x0, 0xFFFFFFFF, 0x0, .any⟩,
  ⟨.pc, 0x6008, 0x4, 1, 32, 0x0, 0x0, 0xFFFFFFFF, 0x0, .any⟩,
  ⟨.pc, 0x600C, 0x4, 1, 32, 0x0, 0x0, 0xFFFFFFFF, 0x0, .any⟩,
  ⟨.pc, 0x6010, 0x8, 1, 64, 0x0, 0x0, 0x0, 0x0, .any⟩,
  ⟨.pc, 0x6018, 0x8, 1, 64, 0x800F0000FFFFFFFF, 0x0, 0x0, 0x0, .pcd⟩,
  ⟨.pc, 0x6020, 0x8, 1, 64, 0x0, 0x0, 0x0, 0x0, .any⟩,
  ⟨.pc, 0x6028, 0x4, 1, 32, 0x0, 0x0, 0x0, 0x0, .any⟩,
  ⟨.pc, 0x602C, 0x4, 1, 32, 0x0, 0x0, 0xFFE00000, 0xFC003140, .any⟩,
  ⟨.pc, 0x40000, 0x4, 1, 32, 0x0, 0xE0000000, 0x0, 0x0, .any⟩,
  ⟨.pc, 0x40004, 0x4, 1, 32, 0x0, 0x0, 0xFFFFFFFF, 0x0, .any⟩,
  ⟨.pc, 0x40008, 0x4, 1, 32, 0x0, 0x0, 0xFFFFFFFF, 0x0, .any⟩,
  ⟨.pc, 0x4000C, 0x4, 1, 32, 0x0, 0x0, 0xFFFFFFFF, 0x0, .any⟩,
  ⟨.pc, 0x40010, 0x8, 1, 64, 0x0, 0x8000000000000000, 0x0, 0x0, .any⟩,
  ⟨.pc, 0x40018, 0x8, 1, 64, 0x0, 0x8000000000000000, 0x0, 0x0, .any⟩,
  ⟨.pc, 0x40020, 0x8, 1, 64, 0x0, 0x8000000000000000, 0x0, 0x0, .any⟩,
  ⟨.pc, 0x40028, 0x8, 1, 64, 0x0, 0x8000000000000000, 0x0, 0x0, .any⟩,
  ⟨.pc, 0x40100, 0x8, 128, 64, 0x0, 0x0, 0x0, 0x0, .any⟩,
  ⟨.pc, 0x50000, 0x4, 1, 32, 0x0, 0x0, 0x0, 0x0, .any⟩,
  ⟨.pc, 0x50008, 0x8, 1, 64, 0x0, 0x0, 0x0, 0x0, .any⟩]

/-- Part 8 of the register maps. -/
def regRows8 : List RegRow := [
  ⟨.pc, 0x50010, 0x4, 1, 32, 0x0, 0x0, 0x0, 0x0, .any⟩,
  ⟨.pc, 0x50018, 0x8, 1, 64, 0x0, 0x0, 0x0, 0x0, .any⟩,
  ⟨.pc, 0x60000, 0x8, 1, 64, 0x0, 0x100, 0x0, 0x20, .any⟩,
  ⟨.pc, 0x60008, 0x4, 1, 32, 0x0, 0x0, 0x0, 0x0, .any⟩,
  ⟨.pc, 0x6000C, 0x4, 1, 32, 0x0, 0x0, 0xFFFFFFFF, 0x0, .any⟩,
  ⟨.pc, 0x60010, 0x4, 1, 32, 0xF, 0x0, 0x0, 0x0, .mgmt⟩,
  ⟨.pc, 0x60014, 0x4, 1, 32, 0x0, 0x0, 0x0, 0x0, .any⟩,
  ⟨.pc, 0x60100, 0x8, 64, 64, 0x0, 0x0, 0x0, 0x0, .any⟩,
  ⟨.pc, 0x70000, 0x4, 1, 32, 0x0, 0x80000000, 0x0, 0x0, .any⟩,
  ⟨.pc, 0x70004, 0x4, 1, 32, 0x0, 0x0, 0x0, 0x0, .any⟩,
  ⟨.pc, 0x70008, 0x4, 1, 32, 0xFFFFFFFF, 0x0, 0x0, 0x0, .mgmt⟩,
  ⟨.pc, 0x7000C, 0x4, 1, 32, 0x0, 0x0, 0xFFFFFFFF, 0x0, .any⟩,
  ⟨.pc, 0x80000, 0x8, 1, 64, 0x0, 0x8000, 0x0, 0x0, .any⟩,
  ⟨.pc, 0x80008, 0x8, 1, 64, 0x0, 0x0, 0x0, 0x8000, .any⟩,
  ⟨.pc, 0x80010, 0x4, 1, 32, 0x0, 0x0, 0xFFFFFFFF, 0x0, .any⟩,
  ⟨.pc, 0x80100, 0x4, 16, 32, 0x0, 0x0, 0x0, 0x0, .any⟩,
  ⟨.pc, 0x90000, 0x4, 1, 32, 0x0, 0x80000000, 0x0, 0x0, .any⟩,
  ⟨.pc, 0x90004, 0x4, 1, 32, 0x0, 0x0, 0x0, 0x0, .any⟩,
  ⟨.pc, 0x90008, 0x4, 1, 32, 0x0, 0x0, 0x0, 0x0, .any⟩,
  ⟨.pc, 0x9000C, 0x4, 1, 32, 0x0, 0x0, 0xFFFFFFFF, 0x0, .any⟩,
  ⟨.pc, 0x90010, 0x4, 1, 32, 0x0, 0x0, 0x0, 0x0, .any⟩,
  ⟨.pc, 0x400000, 0x8, 524288, 64, 0x0, 0x0, 0x0, 0x0, .any⟩,
  ⟨.pc, 0x71000, 0x8, 8192, 64, 0x0, 0x0, 0x0, 0x0, .any⟩]

/-- The register maps of the five blocks. -/
def regRows : List RegRow := regRows0 ++ (regRows1 ++ (regRows2 ++ (regRows3 ++ (regRows4 ++ (regRows5 ++ (regRows6 ++ (regRows7 ++ (regRows8))))))))

end Sys2Proof.Machine
end

