-- ==== Sys2Proof/Machine/State.lean ====
section
/-! DEFINITION. The panel's state as plain data, the reasons a step can stop, and the state after reset.
Each field's docstring reads: what it is | width | file and rule of spec/ | value at reset. A map lists only the entries that
differ from the value an unlisted key reads as; its keys rise strictly. -/

namespace Sys2Proof.Machine

/-- A sparse map: keys strictly rising. A map of plain values has no entry equal to the value an unlisted key reads as. -/
abbrev SMap (α : Type) := List (Nat × α)

/-- Why the block stops. Raised by a meaning whose command names a unit number that the spec's numbering does not have. -/
inductive Fault where
  /-- Raised by every meaning (through `guard`) for a die, core, place, lane, session, region or partition number outside
  spec/01 R26, spec/08 R213, spec/11 R335, spec/13 R382. Safe: the hardware has no such unit. -/
  | noSuchUnit
deriving DecidableEq, Repr

/-- Why the model has no meaning for a command. -/
inductive Refusal where
  /-- Raised only by an arm of exec for a command that has no meaning yet. Safe. -/
  | notModelled (mnemonic : String)
deriving DecidableEq, Repr

/-- The states of a place (spec/06 R183). -/
inductive PState where
  | idle
  | armed
  | running
  | done
  | halted
deriving DecidableEq, Repr, Inhabited

/-- A stationary tile in the cells of an M-core, with its checksum cells (spec/03 R83, R84, R96). -/
structure Tile where
  fmt : Nat                 -- format code R88
  mx : Bool
  mxdir : Bool
  rows : Nat
  cols : Nat
  cells : List Nat          -- rows × cols element codes, row by row
  scales : List Nat         -- MXDIR = 0: two per row; MXDIR = 1: one per column for each block row (R92)
  c : List W32              -- c_i, a_i of the checksum column; r_j, q_j of the checksum row
  a : List W32
  r : List W32
  q : List W32
deriving DecidableEq, Repr, Inhabited

/-- One M-core (spec/03 R82, R83). -/
structure Mcore where
  /-- active stationary registers and checksum cells | 64 × 64 | spec/03 R83 | empty (R111) -/
  active : Option Tile
  /-- shadow stationary registers and checksum cells | 64 × 64 | spec/03 R83 | empty (R111) -/
  shadow : Option Tile
  /-- the shadow tile is ready and not yet active | 1 | spec/03 R97, R119 | 0 -/
  shadowReady : Bool
  /-- first unstalled cycle in which the load unit is free | cycle | spec/03 R97 | 0 -/
  loadUntil : Nat
  /-- first unstalled cycle in which the array unit is free | cycle | spec/03 R103 | 0 -/
  arrayUntil : Nat
  /-- first unstalled cycle in which the output unit is free | cycle | spec/03 R106, R135 | 0 -/
  outUntil : Nat
  /-- accumulator buffer, element 64·row + column | 1,024 × 64 × 32 | spec/03 R108 | +0 (R111) -/
  acc : SMap W32
  /-- error pattern of an accumulator element: bit i set where stored bit i is flipped, check bits above the data | 72 | spec/03 R109 | none -/
  accErr : SMap Nat
  /-- row tags | 1,024 × 16 | spec/04 R129 | 0 -/
  tags : SMap Nat
deriving DecidableEq, Repr, Inhabited

/-- Where a V-core result goes. -/
inductive VDest where
  | reg (n : Nat)
  | mask (n : Nat)
deriving DecidableEq, Repr, Inhabited

/-- A V-core result on its way to its register (spec/06 R165). -/
structure VPend where
  due : Nat
  dest : VDest
  val : BitVec 2048
  en : BitVec 64               -- lanes (or mask bits) it writes
deriving DecidableEq, Repr, Inhabited

/-- One V-core (spec/06 R163). -/
structure Vcore where
  /-- vector registers v0–v127 | 128 × 2,048 | spec/06 R163 | +0 (R174) -/
  regs : SMap (BitVec 2048)
  /-- error pattern of a 32-bit word, key 64·register + word | 72 | spec/06 R163 | none -/
  regErr : SMap Nat
  /-- mask registers m1–m7 (m0 reads all ones) | 7 × 64 | spec/06 R163 | 0 (R174) -/
  masks : SMap (BitVec 64)
  /-- BASE of the address registers | 8 × 32 | spec/06 R163 | 0 (R174) -/
  arBase : SMap (BitVec 32)
  /-- STEP of the address registers | 8 × 14 | spec/06 R163 | 0 (R174) -/
  arStep : SMap (BitVec 14)
  /-- results not yet seen | — | spec/06 R165 | none -/
  pend : List VPend
  /-- first unstalled cycle in which the load port is free | cycle | spec/06 R170 | 0 -/
  loadUntil : Nat
  /-- cycles from which and until which the store port is busy | cycle | spec/06 R167 | 0 -/
  storeFrom : Nat
  storeUntil : Nat
  /-- first unstalled cycle in which the divide unit is free | cycle | spec/06 R169 | 0 -/
  divUntil : Nat
deriving DecidableEq, Repr, Inhabited

/-- A side-memory slot (spec/05 R142, R143). -/
structure Slot where
  kind : Nat
  a : W32
  b : W32
deriving DecidableEq, Repr, Inhabited

/-- The scraper (spec/05 R140). -/
structure Scraper where
  /-- EPS of SETUP | 32 | spec/05 R149 | 0x3727_C5AC -/
  eps : W32
  /-- DIAG of SETUP | 16 | spec/05 R149 | 0 -/
  diag : BitVec 16
  /-- GB_SLOT of SETUP | 18 | spec/05 R149 | 0 -/
  gbSlot : BitVec 18
  /-- side memory: two binary32 values and a kind in each slot | 262,144 × 67 | spec/05 R142, R143 | +0, EMPTY (R144) -/
  side : SMap Slot
  /-- error pattern of a side-memory value, key 2·slot + half | 72 | spec/05 R142 | none -/
  sideErr : SMap Nat
  /-- parameter buffer: γ in words 0–16,383, β in words 16,384–32,767 | 32,768 × 32 | spec/05 R140 | +0 (DESIGN CHOICE, log entry 2) -/
  par : SMap W32
  /-- error pattern of a parameter buffer word | 72 | spec/05 R146 | none -/
  parErr : SMap Nat
  /-- row buffers: value j of row m of buffer b at 32,768·b + 16,384·(m mod 2) + j; buffer 0 holds x, buffer 1 dy (log entry 75) | 65,536 × 32 | spec/05 R140 | +0 (DESIGN CHOICE, log entry 2) -/
  rows : SMap W32
  /-- error pattern of a row buffer word | 72 | spec/05 R146 | none -/
  rowErr : SMap Nat
  /-- first unstalled cycle in which the scraper is free | cycle | spec/05 R141, R159 | 0 -/
  busyUntil : Nat
deriving DecidableEq, Repr

/-- A request of a non-scheduled requester that waits for a free bank-pair cycle (spec/07 R199). -/
structure SpadReq where
  cls : Nat
  addr : Nat
  width : Nat
  wdata : Option (List Byte)   -- a write's bytes; none for a read
  sc : Option (Nat × Nat × Nat × Bool)  -- die and S-core; destination register and sign extension of a load
  host : Bool                  -- made on the host path
  pkt : Option DynPkt          -- the packet that the dynamic port answers
  left : List Nat              -- line addresses not yet accessed
  got : SMap (List Byte)       -- bytes read so far, by line address
deriving DecidableEq, Repr, Inhabited

/-- The scratchpad (spec/07). -/
structure Spad where
  /-- contents by storage position (bank·16,384 + line)·64 + byte | 128 MiB | spec/07 R190, R192 | 0 (R207) -/
  mem : List Host.Cell
  /-- error pattern of a 64-bit word (storage position / 8) | 72 | spec/07 R202 | none -/
  errs : SMap Nat
  /-- pending repair of a bank pair: word index + 1 | 64 × word | spec/07 R204 | none -/
  repair : SMap Nat
  /-- groups powered up and not yet usable | 32 | spec/07 R206 | none -/
  settling : List Nat
  /-- waiting non-scheduled requests, oldest first | — | spec/07 R199 | none -/
  reqs : List SpadReq
  /-- line accesses granted in the cycle to come: bank pair, class | — | spec/07 R190, R199 | none -/
  grants : List (Nat × Nat)
  /-- scheduled accesses of cycles to come: cycle, bank pair, bank, requester code, line address | — | spec/07 R196, R198 | none -/
  resv : List (Nat × Nat × Nat × Nat × Nat)
deriving DecidableEq, Repr, Inhabited

/-- One lane of a place (spec/03 R86, spec/08 R221). -/
structure Lane where
  /-- inbound queue, oldest first | 128 tokens | spec/08 R221 | empty -/
  q : List Token
  /-- tokens on the way to this inbound lane: common count of arrival, token | — | spec/08 R220 | none -/
  wire : List (Nat × Token)
  /-- tokens put on this outbound lane and not yet departed, each with the unstalled cycle from which it may leave | — | spec/03 R86, R106, R135 | none -/
  out : List (Nat × Token)
  /-- credits of this outbound lane | 8 | spec/08 R221 | 0 -/
  cred : Nat
  /-- credits on their way back: common count of return | — | spec/08 R221 | none -/
  retAt : List Nat
deriving DecidableEq, Repr, Inhabited

/-- A command under way on a core, with what it captured at its issue (spec/03 R83, R87, spec/05 R149, spec/06 R165, R170). -/
inductive RunCmd where
  | loadw (c : LoadwCmd)
  | stream (c : StreamCmd) (tile : Tile)
  | readout (c : ReadoutCmd)
  | zero (c : ZeroCmd)
  | reduce (mode : Nat) (c : ReduceCmd)
  | row (op : Nat) (c : RowCmd) (eps : W32) (diag : BitVec 16) (gbSlot : BitVec 18)
  | smove (dir : Nat) (c : SmoveCmd)
  | vld (i : VIns) (lines : List Nat) (addr scale : Nat)
  | vst (i : VIns)
  | vrecv (i : VIns)
deriving DecidableEq, Repr, Inhabited

/-- An effect that a command's pipeline has still to make in a later cycle. -/
inductive Late where
  /-- the results of streaming row m reach accumulator row `row`: the block results and what they set (spec/03 R104); `last` ends the pass -/
  | result (row m : Nat) (acc ints : Bool) (bs : List W32) (flags sats : Nat) (last : Bool)
  /-- the sum check of streaming row m: D, S and A, and that every block result is finite (spec/03 R104, R113) -/
  | check (m : Nat) (fin : Bool) (d s a : W32)
  /-- +0 into n elements of an accumulator row from element `first` (spec/03 R106, spec/04 R135) -/
  | clear (row first n : Nat)
  /-- +0 into whole accumulator rows (spec/03 R101) -/
  | zeroRows (row n : Nat)
  /-- the sums of one flit of a REDUCE ADD (spec/04 R135) -/
  | sums (row first : Nat) (vals : List W32)
  /-- row tags take a value (spec/04 R129); `unset` only those that are 0 -/
  | tags (row n tag : Nat) (unset : Bool)
  /-- bits written to the scratchpad by a port: bits `nbits` from a byte address upward (spec/07 R196, R201) -/
  | store (port addr nbits v : Nat)
  /-- slots of the side memory take values and a kind (spec/05 R150) -/
  | slots (first kind : Nat) (vals : List (W32 × W32))
deriving DecidableEq, Repr, Inhabited

/-- A command under way: its place, itself, the unstalled cycle of its issue, the turn and entry that issued it, the lines read or flits taken so
far with their addresses, the newest first, and what it has still to write, by cycle. `cut`: the last cycle in which it reads,
once its place has halted. -/
structure Run where
  place : Nat
  cmd : RunCmd
  t : Nat
  slot : Nat
  entry : Nat
  cut : Option Nat
  got : List (Nat × BitVec 512)
  gotSc : List (Nat × BitVec 512)
  late : List (Nat × Late)
deriving DecidableEq, Repr, Inhabited

/-- One place (spec/06 R183, spec/08 R213, R224–R228). -/
structure Place where
  /-- state | 3 | spec/06 R183 | IDLE -/
  st : PState
  /-- slot in force, or the starting slot of an armed place | 3 | spec/08 R228 | 0 -/
  slot : Nat
  /-- generation it was armed with | 4 | spec/06 R184 | 0 -/
  gen : Nat
  /-- nominal cycle at which the turn in force began, counted without wrap | 64 | spec/08 R227, spec/09 R269 | 0 -/
  base : Nat
  /-- index of the entry that is issuing (for the fault records) | 16 | spec/03 R120, spec/08 R254 | 0 -/
  entry : Nat
  /-- valid slots | 8 | spec/08 R225 | 0 -/
  valid : Nat
  /-- slots being loaded by a TLOAD | 8 | spec/08 R229 | 0 -/
  loading : Nat
  /-- the switch to the next slot waits for its TLOAD | 1 | spec/08 R229 | 0 -/
  waitLoad : Bool
  /-- of each slot that a TLOAD has filled, the image's address in units of 64 bytes | 8 × 36 | spec/08 R229, R253 | none -/
  tloaded : SMap Nat
  /-- turn memory, 8 slots of 8 KiB | 64 KiB | spec/08 R224 | 0 (R434) -/
  mem : List Host.Cell
  /-- error pattern of a 64-bit word of turn memory | 72 | spec/08 R224 | none -/
  memErr : SMap Nat
  /-- lanes 0–3 | 4 | spec/03 R86 | empty -/
  lanes : SMap Lane
  /-- it was a fault that halted the place | 1 | spec/03 R119, spec/05 R162, spec/06 R173 | 0 -/
  faulted : Bool
  /-- the place has stopped at a yield | 1 | spec/08 R253 | 0 -/
  yielded : Bool
  /-- the last turn has ended; the place enters DONE when its writes complete | 1 | spec/06 R183, spec/08 R228 | 0 -/
  ended : Bool
  /-- iteration at which a restored place resumes | 32 | spec/08 R253 | 0 -/
  iter : Nat
  /-- S-core whose PL instruction took the place, the common count of that cycle, and what PL.STAT reads in it | — | spec/06 R185 | none -/
  plUse : Option (Nat × Nat × Nat)
  /-- PL.STOP that halted the place: the common count of its cycle, its S-core, its rd, whether the place ran | — | spec/06 R184, R185 | none -/
  stopAt : Option (Nat × Nat × Nat × Bool)
deriving DecidableEq, Repr

/-- What a PL.ARM or PL.STOP found, should a lower-numbered S-core take the place in the same cycle (spec/06 R185): its rd, the place,
vgpend, SCRUB_DONE, the drain of the partition. -/
structure PlUndo where
  rd : Nat
  place : Place
  pend : Nat
  scrubDone : Bool
  drain : Option Nat
deriving DecidableEq, Repr

/-- A trap of an S-core that its job has not handled (spec/06 R175, R179, R184, R188). -/
inductive Trap where
  | fetchAccessFault
  | illegalInstruction
  | breakpoint
  | loadMisaligned
  | loadAccessFault
  | storeMisaligned
  | storeAccessFault
  | environmentCall
  | fetchPageFault
  | loadPageFault
  | storePageFault
deriving DecidableEq, Repr, Inhabited

/-- A line of a cache of a compute die (spec/06 R176, R180). -/
structure CLine where
  addr : Nat                   -- partition-relative line address
  dirty : Bool
  bytes : List Byte
  errs : SMap Nat              -- error pattern of its 64-bit words (R188)
deriving DecidableEq, Repr, Inhabited

/-- One S-core (spec/06 R175–R189). -/
structure SCore where
  /-- integer registers x1–x31 (x0 reads 0) | 31 × 64 | spec/06 R175 | 0 -/
  x : SMap W64
  /-- floating registers f0–f31 | 32 × 64 | spec/06 R175 | 0 -/
  f : SMap W64
  /-- program counter | 64 | spec/06 R175, R189 | 0 -/
  pc : W64
  /-- privilege mode: 0 user, 1 supervisor, 3 machine | 2 | spec/06 R175 | 3 -/
  mode : Nat
  /-- load reservation of RV64A: the bytes it covers, by panel address and width | 56 | spec/06 R175 | none -/
  lr : Option (Nat × Nat)
  /-- control and status registers by number; views of one register (sstatus, sie, sip, fflags, frm) are held once, in mstatus, mie, mip and fcsr, the fields that read as constants not at all | 64 each | spec/06 R175 | 0 (PRESUMED, RISC-V; log entry 81) -/
  csrs : SMap Nat
  /-- 64 KiB instruction cache | 1,024 × 64 bytes | spec/06 R176 | empty (R187) -/
  ic : List CLine
  /-- 64 KiB data cache, written through | 1,024 × 64 bytes | spec/06 R176 | empty (R187) -/
  dc : List CLine
  /-- 0 in reset, 1 running, 2 waiting for interrupt, 3 stopped by the monitor | 3 | spec/06 R189 | 0 -/
  st : Nat
  /-- vgie | 1 | spec/06 R186 | 1 on S-core 0, 0 otherwise (the field holds the difference from it) -/
  vgieFlip : Bool
  /-- vgbartmo | 32 | spec/06 R186 | 0 -/
  vgbartmo : W32
  /-- vgfx.U | 1 | spec/06 R186 | 0 -/
  vgfx : Bool
  /-- vgsrc | 32 | spec/06 R186 | 0 -/
  vgsrc : W32
  /-- trap the job has not handled | — | spec/06 R188 | none -/
  trap : Option Trap
  /-- FX.BAR in progress: barrier identifier, destination register | — | spec/11 R339 | none -/
  bar : Option (Nat × Nat)
  /-- FX.DMA held because it would displace a pending ticket: rd, rs1, rs2 values | — | spec/10 R296 | none -/
  fxHold : Option (Nat × Nat × Nat)
deriving DecidableEq, Repr

/-- One compute die, by its physical site (spec/01 R25, R30). -/
structure Die where
  /-- places 0–24 | 25 | spec/08 R213 | as `Place` -/
  places : SMap Place
  /-- M-cores 0–15 | 16 | spec/03 R82 | as `Mcore` -/
  mcs : SMap Mcore
  /-- V-cores 0–7 | 8 | spec/06 R163 | as `Vcore` -/
  vcs : SMap Vcore
  /-- the scraper | 1 | spec/05 R140 | as `Scraper` -/
  scr : Scraper
  /-- stochastic rounding generators, key 16·core + g; an unlisted one holds the state that SEED 0 gives it | 64 each | spec/02 R63–R65 | seeded with 0 (DESIGN CHOICE, log entry 2) -/
  gens : SMap W64
  /-- the scratchpad | 1 | spec/07 | as `Spad` -/
  spad : Spad
  /-- commands that the sequencers have issued and that are under way, in the order of their issue | — | spec/03 R87, R104, R106 | none -/
  runs : List Run
  /-- M-cores on which a sum-check injection is armed | 16 | spec/03 R118, R120 | 0 -/
  inject : Nat
  /-- common count, plus 1, of the cycle in which the M-core fault record was taken | 64 | spec/03 R120 | 0 -/
  mcRecAt : Nat
  /-- landing table, DMA issue list, DMA table, by window offset | 512 KiB | spec/09 R266, spec/10 R293 | 0 -/
  tabs : List Host.Cell
  /-- error pattern of a 64-bit word of the tables, by window offset / 8 | 72 | spec/09 R266 | none -/
  tabErr : SMap Nat
  /-- landing flags | 4,096 | spec/09 R262 | 0 -/
  flags : SMap Bool
  /-- next unread landing check | 13 | spec/09 R259 | 0 -/
  landPtr : Nat
  /-- the check at `landPtr` has been found unmet | 1 | spec/09 R262 | 0 -/
  landLate : Bool
  /-- next unread DMA issue entry | 13 | spec/09 R259 | 0 -/
  dmaPtr : Nat
  /-- state of the 1,024 most recent FX.DMA tickets: 0 pending, 1 complete, 2 failed | 1,024 × 2 | spec/10 R296 | none -/
  tickets : SMap Nat
  /-- ticket of the next FX.DMA | 32 | spec/10 R296 | 0 -/
  ticketNext : Nat
  /-- S-cores 0–3 | 4 | spec/06 R175 | as `SCore` -/
  scs : SMap SCore
  /-- spindle receive queue: source, payload, oldest first | 16 | spec/06 R186 | empty -/
  spq : List (Nat × W64)
  /-- vgpend | 25 | spec/06 R186 | 0 -/
  vgpend : Nat
  /-- by place, what the PL.ARM or PL.STOP of the present cycle found | 25 | spec/06 R185 | none -/
  plUndo : SMap PlUndo
  /-- barriers whose release this die discards | — | spec/11 R339 | none -/
  barSkip : List Nat
  /-- barriers at which this die has arrived and waits | — | spec/11 R339 | none -/
  barAt : List Nat
  /-- shared second-level cache | 2 MiB | spec/06 R176 | empty (R187) -/
  l2 : List CLine
  /-- refused accesses not yet reported | 32 | spec/00 R21 | 0 -/
  tally : Nat
  /-- unstalled fabric cycles of the die (the model's time base of every latency, R87) | cycle | spec/03 R87 | 0 -/
  cyc : Nat
  /-- the counters of R257 run | 1 | spec/09 R258 | 0 -/
  inPhase : Bool
  /-- the counters have stopped since they last ran | 1 | spec/09 R258, R276 | 0 -/
  stopped : Bool
  /-- times that CD.SCH_NOMINAL has wrapped in the phase | 16 | spec/09 R260, R269 | 0 -/
  nomWraps : Nat
  /-- the next start cycle resumes a saved context | 1 | spec/09 R259 | 0 -/
  resumed : Bool
  /-- start cycle named by the strobe | 64 | spec/08 R236 | none -/
  startAt : Option Nat
  /-- places that were ARMED when the strobe arrived | 25 | spec/08 R236 | 0 -/
  strobed : Nat
  /-- nominal cycle whose entries have issued, plus 1 | 48 | spec/08 R227 | 0 -/
  issuedNom : Nat
  /-- consecutive waiting cycles | 25 | spec/08 R248 | 0 -/
  waitCnt : Nat
  /-- common count of the last departure of a token | 64 | spec/08 R244 | 0 -/
  lastDep : Nat
  /-- a frequency-step boundary or pause holds the die | 1 | spec/14 R413 | 0 -/
  fstep : Bool
  /-- a local hold is in force since this common count | 64 | spec/14 R416 | none -/
  holdAt : Option Nat
  /-- thermal rest ratio, per 64 | 6 | spec/17 R489 | 0 -/
  trest : Nat
  /-- times this die has been named hottest in a row, in ms | — | spec/17 R489 | 0 -/
  namedMs : Nat
  /-- the die has been named before | 1 | spec/17 R489 | 0 -/
  namedEver : Bool
  /-- synthetic load in warm-hold, W | 5 | spec/17 R484 | 0 -/
  synth : Nat
  /-- 10 ms samples below 45 °C at the full load | — | spec/17 R484 | 0 -/
  coldCnt : Nat
  /-- nominal cycle of the epoch boundary last counted, plus 1 | 48 | spec/08 R251 | 0 -/
  epochAt : Nat
  /-- epoch count at which a yield stops the places | 32 | spec/08 R253 | none -/
  yieldAt : Option Nat
  /-- samples each sensor has been back in range while excluded | 3 × — | spec/17 R487 | 0 -/
  inRange : SMap Nat
  /-- samples for which the pair has differed by more than 5 °C | — | spec/17 R487 | 0 -/
  differCnt : Nat
  /-- samples at or above 105 °C | — | spec/17 R490 | 0 -/
  hotCnt : Nat
  /-- slow-die evaluation: consecutive intervals over the slow threshold and over the memory-late threshold, and the counters at the last evaluation | — | spec/09 R274 | 0 -/
  slowCnt : Nat
  lateCnt : Nat
  lastCnt : List Nat
  /-- alignment: expected SSEQ of each side's share, key side | 8 | spec/11 R318 | 0 -/
  sseq : SMap Nat
  /-- stripe that each side's share sends in the present frame, key side | 1,488 bytes | spec/11 R317, R318 | none -/
  sent : SMap Stripe
  /-- the die is withheld: its scrub failed its verify | 1 | spec/07 R211 | 0 -/
  withheld : Bool
  /-- context whose state is on the die, its job loaded | 6 | spec/08 R254 | none -/
  ctx : Option Nat
deriving DecidableEq, Repr

/-- State of one transaction of an item (spec/10 R284, R285). -/
inductive TxSt where
  | waiting
  | issued
  | ok
  | failed (status : Nat)
deriving DecidableEq, Repr, Inhabited

/-- A transaction: item bytes [off, off + len), source (none for FILL), destination (panel addresses). -/
structure Tx where
  off : Nat
  len : Nat
  src : Option Nat
  dst : Nat
  st : TxSt
  rd : Bool                    -- its source has been read
  doom : Nat                   -- what its answer on the way will report in any case: 3 a bad scratchpad word, 6 a page being scrubbed; 0 none
deriving DecidableEq, Repr, Inhabited

/-- A DMA item held by a memory die (spec/10 R291–R295). -/
structure Item where
  id : Nat
  origin : Origin
  desc : DmaDesc
  cls : Nat
  job : Nat
  txs : List Tx
  ended : Bool                 -- ended by teardown, stop or reset (R297)
  landed : Bool                -- its landing tag has been completed
deriving DecidableEq, Repr, Inhabited

/-- A tracker entry in use (spec/10 R285). -/
structure Trk where
  item : Nat
  tx : Nat
  cls : Nat
deriving DecidableEq, Repr, Inhabited

/-- One memory die and its stack (spec/10 R277, R278). -/
structure Mdie where
  /-- stack contents by stack-local byte address | 24 GiB | spec/10 R277 | 0 (DESIGN CHOICE, log entry 1) -/
  mem : List Host.Cell
  /-- error pattern of a 64-byte line, its 64 data and 4 check symbols | 544 | spec/10 R299 | none -/
  errs : SMap Nat
  /-- lines whose corrected codeword waits to be written back | — | spec/10 R300 | none -/
  wb : List Nat
  /-- items being executed | — | spec/10 R291 | none -/
  items : List Item
  /-- items received so far (names the next) | — | spec/10 R291 | 0 -/
  nextItem : Nat
  /-- tracker entries in use, by TXID | 2,048 | spec/10 R285 | none -/
  trk : SMap Trk
  /-- MD.ECC_CORR at the last hourly check or telemetry read, and the counts that telemetry has read since that check | 32 | spec/10 R303, spec/18 R515 | 0 -/
  corrBase : Nat
  corrAcc : Nat
  /-- TXIDs whose transaction timed out and which no later one has used: a reply to one is discarded | — | spec/10 R287 | none -/
  lostTx : List Nat
  /-- PTC and sector of recent uncorrectable codewords | — | spec/10 R304 | none -/
  badSectors : List (Nat × Nat)
  /-- PTC and stack of recent timeouts | — | spec/10 R304 | none -/
  tmos : List (Nat × Nat)
  /-- PTC at which the stack was named hottest | 64 | spec/10 R308 | none -/
  capAt : Option Nat
  /-- the stack has been capped before | 1 | spec/10 R308 | 0 -/
  cappedEver : Bool
  /-- samples at or above 95 °C | — | spec/17 R490 | 0 -/
  hotCnt : Nat
  /-- sensors 0 (die) and 1 (stack) excluded, and their samples back in range | 2 | spec/17 R487 | 0 -/
  excl : Nat
  inRange : SMap Nat
  /-- the pair disagrees, and for how many samples it has | — | spec/17 R487 | 0 -/
  disagree : Bool
  differCnt : Nat
  /-- a local hold is in force since this common count | 64 | spec/14 R416 | none -/
  holdAt : Option Nat
  /-- refused accesses not yet reported | 32 | spec/00 R21 | 0 -/
  tally : Nat
deriving DecidableEq, Repr, Inhabited

/-- A fabric transfer in progress (spec/12 R350–R355). -/
structure Xfer where
  id : Nat
  addr : Nat                   -- partition-relative address of its descriptor
  ctx : Nat
  job : Nat
  incarn : Nat
  desc : FabDesc
  posted : Bool                -- its descriptor has been taken up
  started : Bool
  srcRank : Nat
  ranks : List Nat             -- MCAST: the rank list
  copies : List (List Nat)     -- list positions of each copy; one copy of no position but for MCAST
  next : Nat                   -- next packet to begin
  acked : List (Nat × Nat)     -- packet and copy completed
  delivered : Nat              -- MCAST: masks over list positions (R367)
  failed : Nat
deriving DecidableEq, Repr, Inhabited

/-- An outstanding request packet (spec/12 R352, R353). -/
structure OutPkt where
  xfer : Nat
  pkt : Nat
  copy : Nat
  attempt : Nat
  gen : Nat
  h : JHdr
  dest : Nat
  data : List Byte
deriving DecidableEq, Repr, Inhabited

/-- What a group of on-panel transactions of a fabric die serves (spec/12 R351, R354, R366). -/
inductive GrpKind where
  | send (xfer pkt : Nat)                      -- the source data of a packet
  | put (h : JHdr)                             -- the data of a received PUT or CPUT
  | mcast (h : JHdr) (delivered failed : Nat)  -- the data of a received MCAST copy
  | get (h : JHdr)                             -- the data asked for by a received GET
  | back (xfer pkt : Nat)                      -- the data that answers a GET of ours
deriving DecidableEq, Repr, Inhabited

/-- A group of on-panel transactions: how many are still to complete, the first failure, and the data read. -/
structure Grp where
  id : Nat
  kind : GrpKind
  left : Nat
  status : Nat
  data : List Byte
  rx : Option (Nat × Nat)      -- receive buffer that the packet served holds, 4·port + class, and its bytes (R348)
deriving DecidableEq, Repr, Inhabited

/-- One on-panel transaction of a fabric die (spec/12 R351): its group, its offset in the group's data, address, length and bytes. -/
structure Piece where
  grp : Nat
  off : Nat
  addr : Nat
  len : Nat
  wdata : Option (List Byte)   -- a write's bytes; none for a read
deriving DecidableEq, Repr, Inhabited

/-- An on-panel transaction in flight: the memory die and the tracker entry it holds (spec/12 R351, spec/10 R285). -/
structure OnPanel where
  piece : Piece
  md : Nat
  txid : Nat
deriving DecidableEq, Repr, Inhabited

/-- A frame that waits for its port: flow context, Ethernet priority, destination address, header, payload. -/
structure TxFrame where
  ctx : Nat
  prio : Nat
  dest : Nat
  h : JHdr
  data : List Byte
deriving DecidableEq, Repr, Inhabited

/-- One fabric die (spec/12). -/
structure Fdie where
  /-- transfers in progress, in the order of their send rings | — | spec/12 R350 | none -/
  xfers : List Xfer
  /-- transfers fetched so far (names the next) | — | spec/12 R350 | 0 -/
  nextXfer : Nat
  /-- outstanding request packets by source slot | 4,096 | spec/12 R345, R352 | none -/
  slots : SMap OutPkt
  /-- generation of each source slot's next use | 4,096 × 18 | spec/12 R345 | 0 -/
  slotGen : SMap Nat
  /-- granted limits, key 16·context + credit slot | 256 × 16 × 64 | spec/12 R355 | 0 -/
  limits : SMap Nat
  /-- groups of on-panel transactions | — | spec/12 R351 | none -/
  grps : List Grp
  /-- groups made so far (names the next) | — | spec/12 R351 | 0 -/
  nextGrp : Nat
  /-- on-panel transactions that wait for an FD slot and a tracker entry | — | spec/12 R351 | none -/
  wait : List Piece
  /-- on-panel fabric transactions in flight, by FD slot | 4,096 | spec/12 R351 | none -/
  onp : SMap OnPanel
  /-- paused PFC priorities, key 8·port + priority: the panel time, in 1/16 ns, at which the pause ends | 12 × 68 | spec/12 R348 | 0 -/
  paused : SMap Nat
  /-- receive buffers for which XOFF has been sent and no XON since, key 4·port + class | 12 | spec/12 R348 | none -/
  rxOff : List Nat
  /-- token buckets of control packets by source IP address: bytes left, PTC of the last packet | — | spec/12 R349 | full -/
  police : SMap (Nat × Nat)
  /-- frames that wait to be sent, oldest first | — | spec/12 R348 | none -/
  txq : List TxFrame
  /-- MAC address resolved for the gateway | 48 | spec/12 R343 | none -/
  gwMac : Option Nat
  /-- rank cache: job, incarnation, rank, rank table entry, directory entry | 16,384 | spec/12 R357 | empty -/
  cache : List (Nat × Nat × Nat × Nat × Nat)
  /-- the fabric die is lost or switched off | 1 | spec/01 R48, R29 | 0 -/
  lost : Bool
  /-- STALE_INC and POLICE_DROP at the last second | 2 × 32 | spec/12 R377 | 0 -/
  staleBase : Nat
  polBase : Nat
  /-- what clearing reads have taken of them since then | 2 × 32 | spec/12 R377 | 0 -/
  staleAcc : Nat
  polAcc : Nat
  /-- refused accesses not yet reported | 32 | spec/00 R21 | 0 -/
  tally : Nat
deriving DecidableEq, Repr, Inhabited

/-- The state of a resident job context (spec/08 R252, spec/13 R390, R391). -/
inductive CtxSt where
  | loaded                     -- resident, not started
  | ready                      -- started, waiting for its turn to run
  | running
  | retained                   -- ended, state held for post-mortem reading
deriving DecidableEq, Repr, Inhabited

/-- One die of a saved context: the die and its job registers (spec/08 R253). -/
structure SavedDie where
  site : Nat
  die : Die
  regs : SMap Nat
deriving DecidableEq, Repr

/-- A resident job context (spec/08 R252, spec/13 R390, R391). -/
structure Ctx where
  job : Nat
  incarn : Nat
  key : Nat                    -- owner: session number 8 × partition + slot
  st : CtxSt
  img : Image
  phase : Nat
  prio : Nat
  quantum : Nat
  retain : Bool
  jsItem : Option (Nat × Nat)  -- session and SSEQ of its JOB_START
  saved : List SavedDie
  retainedAt : Nat
  expired : Bool               -- its quantum has expired
  endAs : Option (Nat × Nat)   -- it is ending: the status and EVENT of its JOB_START's record (spec/13 R391, R396)
  step : Option (Nat × Nat)    -- saved: the step in force and the step its program last named (spec/14 R409)
  onDie : Bool                 -- retained: its state is on the dies, not in its save area (spec/16 R465)
deriving DecidableEq, Repr

/-- A held checkpoint range (spec/16 R458). -/
structure HeldRange where
  job : Nat
  key : Nat
  base : Nat
  len : Nat
  ckpt : Nat
  phase : Nat                  -- of its job when the checkpoint was taken (spec/08 R242)
deriving DecidableEq, Repr, Inhabited

/-- A range of partition-relative HBM that Uttos scrubs (spec/10 R309), and the ledger granule that ends with it. -/
structure ScrubRange where
  base : Nat
  len : Nat
  granule : Option Nat
deriving DecidableEq, Repr, Inhabited

/-- One partition (spec/16 R448). -/
structure Part where
  /-- resident job contexts 0–63 | 64 | spec/08 R252 | none -/
  ctxs : SMap Ctx
  /-- the context that runs | 6 | spec/08 R252 | none -/
  run : Option Nat
  /-- frequency step in force | 4 | spec/14 R409 | 0 -/
  step : Nat
  /-- common count | 64 | spec/14 R410 | 0 -/
  ccount : Nat
  /-- fabric-cycle phase within the PTC tick, in tenths | — | spec/14 R408 | 0 -/
  phase : Nat
  /-- the links are stopped by a frequency step | 1 | spec/14 R413 | 0 -/
  stopped : Bool
  /-- W of the step in progress | 64 | spec/14 R413 | none -/
  stepW : Option Nat
  /-- sites with an idle notice outstanding; sites that reported drained; sites at the step boundary | — | spec/08 R244, R249, spec/14 R413 | none -/
  idle : List Nat
  drained : List Nat
  atStep : List Nat
  /-- the running drain waits since this common count | 64 | spec/08 R244 | none -/
  drainAt : Option Nat
  /-- stack list | N × 7 | spec/10 R279 | empty (Truing) -/
  stackList : List Nat
  /-- stack list at the last Finishing or re-true, kept with the scrub ledger | N × 7 | spec/15 R442 | empty -/
  lastList : List Nat
  /-- barrier arrivals forwarded up the tree: node, barrier, child | — | spec/11 R339 | none -/
  arrived : List (Nat × Nat × Nat)
  /-- scrub ledger, granules of 1 GiB | N × 24 | spec/15 R441 | clear -/
  ledger : SMap Bool
  /-- HBM ranges to be scrubbed, the first in progress; the memory dies still at it | — | spec/10 R309, spec/15 R442, spec/16 R465 | none -/
  scrubQ : List ScrubRange
  scrubLeft : List Nat
  /-- held ranges | — | spec/16 R458 | none -/
  held : List HeldRange
  /-- job numbers whose jobs have ended | — | spec/13 R396 | none -/
  endedJobs : List Nat
  /-- power limit scaling and power loop | — | spec/17 R476–R479 | 0 -/
  ceil : Nat
  prest : Nat
  /-- power state: 0 Run, 1 Hold, 2 Warm-hold, 3 Doze; target while waking or entering | 3 | spec/17 R481 | 0 -/
  pstate : Nat
  waking : Bool
  entering : Bool
  /-- partition failed or off until the next bring-up | 1 | spec/15 R428 | 0 -/
  off : Bool
  /-- the context in force waits for the scratchpad groups that its modes power | 1 | spec/07 R206, R208 | 0 -/
  loading : Bool
  /-- regions of the partition being re-trued | 16 | spec/15 R444 | 0 -/
  retrue : Nat
  /-- step that the running program's EPOCH records or the configuration last named | 4 | spec/14 R409, spec/17 R479 | 0 -/
  progStep : Nat
  /-- generations of forced drains whose tokens may still be on their way | 16 × 4 | spec/08 R246 | none -/
  forcedGens : List Nat
  /-- the partition is in Doze, its core switches open; the dies of the context in force as saved before it | 1, — | spec/17 R485 | 0, none -/
  dozed : Bool
  dozeSaved : List SavedDie
deriving DecidableEq, Repr

/-- An accepted work item without a completion (spec/13 R387, R389). -/
structure SItem where
  w : WItem
  started : Bool
  done : Nat                   -- DONE as kept under R389
  lastData : Nat               -- PTC of the last SDATA
  item : Option (Nat × Nat)    -- memory die and item of a COPY
  acted : Bool                 -- its operation has begun and goes on (the WRITE, JOB_KILL, CHECKPOINT, RELEASE rows)
  got : List (Nat × Nat)       -- WRITE: ranges received and written, offset and end
deriving DecidableEq, Repr, Inhabited

/-- A completion record (spec/13, before R392). -/
structure Cpl where
  sseq : Nat
  cseq : Nat
  status : Nat
  op : Nat
  event : Nat
  user : Nat
  done : Nat
  ptc : Nat
deriving DecidableEq, Repr, Inhabited

/-- A session of a host key (spec/13 R382–R386). -/
structure Session where
  /-- session is open | 1 | spec/13 R383 | 0 -/
  isOpen : Bool
  /-- a session of this key has been opened before and its state is retained | 1 | spec/13 R385 | 0 -/
  known : Bool
  /-- generation | 16 | spec/13 R385 | 0 -/
  gen : Nat
  /-- next SSEQ expected | 32 | spec/13 R394 | 0 -/
  nextSseq : Nat
  /-- accepted items without a completion, in SSEQ order | 1,024 | spec/13 R389, R394 | none -/
  items : List SItem
  /-- completion records not acknowledged | 4,096 | spec/13 R392 | none -/
  recs : List Cpl
  /-- next CSEQ | 32 | spec/13 R392 | 0 -/
  nextCseq : Nat
  /-- hint in force, PTC ns | 64 | spec/13 R398 | none -/
  hint : Option Nat
  /-- PTC of the last valid packet | 64 | spec/13 R386 | 0 -/
  lastRx : Nat
  /-- host port on which it arrived: B | 1 | spec/13 R380 | 0 -/
  portB : Bool
  /-- items ended by a reset, to be reported when the key opens | — | spec/13 R397 | none -/
  lostItems : List SItem
  /-- the last SUBMIT accepted: first SSEQ and count (a resend gets the same ACK) | — | spec/13 R394 | none -/
  lastSubmits : List (Nat × Nat)
deriving DecidableEq, Repr, Inhabited

/-- A knot log entry (spec/15 R438). -/
structure Knot where
  unit : Nat
  type : Nat
  stage : Nat
  bseq : Nat
  ptc : Nat
deriving DecidableEq, Repr, Inhabited

/-- An event record (spec/16 R452) and its merging state. -/
structure Event where
  code : Nat
  part : Nat
  fence : Bool
  lost : Bool
  att : Bool
  eseq : Nat
  ptc : Nat
  unit : Nat
  job : Nat
  incarn : Nat
  rept : Nat
  attId : Nat
  data : Nat
deriving DecidableEq, Repr, Inhabited

/-- A stage report (spec/15 R443). -/
structure Report where
  stage : Nat
  status : Nat
  region : Nat
  restart : Bool
  logged : Bool
  imageB : Bool
  retained : Bool
  bseq : Nat
  ptc : Nat
  duration : Nat
  badFuse : Nat
  badTest : Nat
  badBoth : Nat
  spares : Nat
  absent : Nat
  firstFail : Nat
  event : Nat
  partsReady : Nat
  configId : Nat
  fwVersion : Nat
  stacksUp : Nat
  logUsed : Nat
deriving DecidableEq, Repr, Inhabited

/-- The NVM, two devices (spec/18 R502). Index 0 is device 0 (slot A), 1 is device 1 (slot B). -/
structure Nvm where
  /-- image slots | 2 × 64 MiB | spec/18 R499 | slot A valid, slot B empty (DESIGN CHOICE, log entry 3) -/
  images : List (Option FwImage)
  /-- configuration slots | 2 × 1 MiB | spec/18 R500, R503 | slot A valid, slot B empty (DESIGN CHOICE, log entry 3) -/
  confs : List (Option Conf)
  /-- owner record: OSEQ and owner key hash | 128 bytes | spec/18 R504 | none (R506) -/
  owner : Option (Nat × Nat)
  /-- field knot log | 16,384 × 32 bytes | spec/15 R438 | empty -/
  knots : List Knot
  /-- stage report ring | 4,096 × 64 bytes | spec/15 R443 | empty -/
  reports : List Report
  /-- event log | 4,096 × 64 bytes | spec/16 R454 | empty -/
  events : List Event
  /-- last bring-up sequence number | 32 | spec/15 R443 | 0 -/
  bseq : Nat
  /-- device 0 and device 1 answer | 2 | spec/18 R502 | 1, 1 -/
  ok0 : Bool
  ok1 : Bool
deriving DecidableEq, Repr, Inhabited

/-- Fused identity (spec/00 R6, spec/15 R437). -/
structure Fuses where
  /-- silicon stepping | 4 | spec/00 R6 | 2 (B0; DESIGN CHOICE, log entry 3) -/
  stepping : Nat
  /-- cut: 0 VGP-512, 1 VGP-256, 2 VGP-64 | 4 | spec/00 R6 | 0 -/
  cut : Nat
  /-- options fitted | 3 | spec/00 R1, R6 | D, G and T -/
  hasD : Bool
  hasG : Bool
  hasT : Bool
  /-- unit codes that the fused knot maps and the panel fuse block mark | — | spec/15 R437 | none -/
  marks : List Nat
deriving DecidableEq, Repr, Inhabited

/-- A strike (spec/16 R460): unit code and PTC. -/
abbrev Strike := Nat × Nat

/-- A spare's or position's route in the row's map needs no field: the maps are the registers RS.ROW_MAPn. -/
structure Route where
  lo : Nat                     -- lower logical site index
  east : Bool                  -- its east link, else its north link
  via : Option Nat             -- intermediate router (node), none for one hop
  skipFirst : Bool             -- a skip link is used on the first hop
deriving DecidableEq, Repr, Inhabited

/-- What a measurement block covers (spec/18 R509); the digest is a function of it (log entry 18). -/
inductive Meas where
  | rom (version : Nat)
  | image (f : FwImage)
  | config (c : Conf)
  | fused (f : Fuses)
  | knots (l : List Knot)
  | rowMaps (l : List Nat)
  | ids (partId bseq : Nat)
deriving DecidableEq, Repr, Inhabited

/-- Addresses and marks of a frame on a fabric port (spec/12 R343, R345, R347). -/
structure FrameHdr where
  dstMac : Nat
  srcMac : Nat
  vid : Nat
  pcp : Nat
  dscp : Nat
  udpSrc : Nat
  udpDst : Nat
deriving DecidableEq, Repr, Inhabited

/-- Host port, session and marks of a packet to a host (spec/13 R379–R381). -/
structure HostTo where
  portB : Bool
  sess : Nat
  gen : Nat
  vid : Nat
  pcp : Nat
  dscp : Nat
deriving DecidableEq, Repr, Inhabited

/-- An answer on the management path (spec/18 R507-R512): to a PLDM firmware update request, or of the SPDM responder. -/
inductive MgmtOut where
  | updateOpen                 -- RequestUpdate accepted
  | alreadyInUpdateMode
  | staged (config : Bool)     -- the component has been verified
  | rejected (config : Bool)
  | activated                  -- ActivateFirmware, without self-contained activation
  | version
  | capabilities
  | algorithms
  | digests
  | certificate
  | challengeAuth
  | measurements (index : Nat) (blocks : List Meas)
  | busy
  | unsupported
  | event (e : Event)          -- an event record as a PLDM event message (spec/18 R512)
deriving DecidableEq, Repr, Inhabited

/-- What the panel has sent outward, newest first (host ports, fabric ports, management path). Of `host`, `off` is the byte offset of RDATA
and the status of an ACK. -/
inductive Out where
  | jil (fd port : Nat) (vc : Bool) (dest : Nat) (e : FrameHdr) (h : JHdr) (data : List Byte)
  | pause (fd port prio : Nat) (xoff : Bool)
  | host (dst : HostTo) (op : Nat) (sseq : Nat) (aux : Nat) (off : Nat) (data : List Byte)
  | cpl (dst : HostTo) (recs : List Cpl)
  | mirror (number addr : Nat) (data : List Byte)
  | openOk (dst : HostTo) (status : Nat) (retained : Bool) (nextSseq : Nat)
  | stage (portB : Bool) (addr : Nat) (r : Report)
  | event (portB : Bool) (addr : Nat) (e : Event)
  | dyn (p : DynPkt)
  | arp (node : Nat)
  | ring (west : Bool) (vc : Bool) (cls : Nat) (rdst rsrc : Nat) (frame : Nat)
  | heartbeat (onTwin : Bool) (number : Nat) (mirrored role health : Nat)
  | takeoverMsg (onTwin : Bool)
  | beacon (ptc16 : Nat)
  | telemetry (seq : Nat) (bytes : List Byte)
  | mgmt (m : MgmtOut)
deriving DecidableEq, Repr, Inhabited

/-- A packet to a host that waits for its port: port, Ethernet priority, the packet, its bytes (spec/13 R379). -/
structure HostFrame where
  portB : Bool
  prio : Nat
  out : Out
  bytes : Nat
deriving DecidableEq, Repr, Inhabited

/-- The panel controller dies and the panel-wide state (spec/15–spec/19). -/
structure Pcd where
  /-- PCD B is the active one | 1 | spec/15 R429 | 0 -/
  activeB : Bool
  /-- the standby PCD works | 1 | spec/15 R429 | 0 -/
  standbyOk : Bool
  /-- configuration in force | — | spec/18 R500 | none (Mount) -/
  conf : Option Conf
  /-- image slot in use is B; configuration slot in use is B | 2 | spec/18 R499, R500 | 0 -/
  imageB : Bool
  confB : Bool
  /-- staged components | 2 | spec/18 R507 | none -/
  stagedFw : Bool
  stagedCfg : Bool
  /-- update session open | 1 | spec/18 R508 | 0 -/
  updating : Bool
  /-- MCTP endpoint ID | 8 | spec/18 R511 | 0 (DESIGN CHOICE, log entry 2) -/
  eid : Nat
  /-- SMBus address straps read at Mount | 2 | spec/19 R520 | 0 (Mount) -/
  straps : Nat
  /-- STAT1, STAT0 latch | 2 | spec/19 R522 | 01 -/
  stat : Nat
  /-- module input: seated, input switch closed, precharging, standby rail up | — | spec/19 R524 | closed and up -/
  seated : Bool
  inputClosed : Bool
  precharge : Bool
  standby : Bool
  /-- RESET_N or NVM_ISO_N holds the module in reset | 1 | spec/19 R521, R523 | 0 -/
  nvmIso : Bool
  /-- a stage is in progress after: last stage ended (0 none … 5 Ready) | 3 | spec/15 R425 | 0 -/
  stageDone : Nat
  /-- panel held until reset by a panel-fatal event or a stopped bring-up | 1 | spec/16 R455 | 0 -/
  heldOff : Bool
  /-- the previous bring-up or re-true did not reach its end | 1 | spec/15 R443 | 0 -/
  restart : Bool
  /-- ALERTs of dies not acknowledged | — | spec/16 R453 | none -/
  alerts : List Alert
  /-- ALERTs the active PCD has processed: node, serial | — | spec/16 R453 | none -/
  seen : List (Nat × Nat)
  /-- next ALERT serial | — | spec/16 R453 | 0 -/
  serial : Nat
  /-- correctable records that still merge | — | spec/16 R454 | none -/
  merging : List Event
  /-- the run of lost records has been reported | 1 | spec/16 R469 | 0 -/
  lostRun : Bool
  /-- attachment slot used next | 6 | spec/16 R469 | 0 -/
  attNext : Nat
  /-- attachment slots | 64 × 64 KiB | spec/16 R469 | 0 (DESIGN CHOICE, log entry 2) -/
  att : List Host.Cell
  /-- strikes | — | spec/16 R460 | none -/
  strikes : List Strike
  /-- refusals on the host path not yet reported | 32 | spec/00 R21 | 0 -/
  tally : Nat
  /-- retained memory survived since Mount | 1 | spec/13 R389 | 0 -/
  retained : Bool
  /-- ring of bad spindle nodes (out of service) | 1,024 | spec/14 R407 | none -/
  nodesOut : List Nat
  /-- routers of sites out of service, by node | 576 | spec/01 R39 | none -/
  routersOut : List Nat
  /-- sites excluded after Ready (fenced), by unit node | 576 | spec/01 R32 | none -/
  fencedSites : List Nat
  /-- region services dies lost | 16 | spec/01 R48 | none -/
  rsdLost : List Nat
  /-- memory dies fenced | 128 | spec/10 R305 | none -/
  fencedMds : List Nat
  /-- links out of use: node, port | — | spec/11 R326 | none -/
  badLinks : List (Nat × Nat)
  badModules : List (Nat × Nat × Nat)
  /-- positions marked absent by R42: logical sites | 512 | spec/01 R42 | none -/
  routeAbsent : List Nat
  /-- routes of logical links | 976 | spec/01 R39, R42 | none -/
  routes : List Route
  /-- units found bad by test since Mount: unit codes | — | spec/15 R437 | none -/
  found : List Nat
  /-- nodes of dies that did not lock or did not answer at Rough-out | 738 | spec/15 R432 | none -/
  unlocked : List Nat
  /-- routes that measured more than Λ: lower site, east, choice | — | spec/11 R321 | none -/
  longRoutes : List (Nat × Bool × Nat)
  /-- panel time at the end of the last stage, 1/16 ns | 68 | spec/15 R443 | 0 -/
  stageAt : Nat
  /-- regions switched off, and for heat since which PTC second count | 16 | spec/16 R463, R464 | 0 -/
  heatOff : SMap Nat
  /-- spindle FIFOs, key (node·8 + output)·2 + class, oldest first | — | spec/11 R336 | empty -/
  spn : SMap (List SpPkt)
  /-- DMA descriptors on their way to a memory die, oldest first | — | spec/10 R294, R296 | none -/
  descs : List (Nat × Origin × DmaDesc)
  /-- descriptors on their way that have been ended: no memory die takes them | — | spec/10 R297, R305 | none -/
  descsOff : List (Nat × Origin)
  /-- router input buffers, key (node·16 + input port)·4 + channel, oldest first; input 8 is a memory die's, 15 the site's own | 64 flits each | spec/11 R323 | empty -/
  net : SMap (List DynPkt)
  /-- flits sent over a port and not yet credited, key (node·16 + port)·4 + channel | 64 | spec/11 R323, R324 | 0 -/
  netUsed : SMap Nat
  /-- channel that an output serves first, key node·16 + output; input that it serves first on a channel, key (node·16 + output)·4 + channel | 2, 4 | spec/11 R332 | 0 -/
  rrCh : SMap Nat
  rrIn : SMap Nat
  /-- dynamic codewords received over a port, key node·16 + port: next SEQ expected, PTC of recent uncorrectable ones | 12, — | spec/11 R325, R326 | 0, none -/
  seqExp : SMap Nat
  uncorrAt : SMap (List Nat)
  /-- dynamic codewords sent over a port, key node·16 + port: next SEQ, oldest SEQ not acknowledged, resends of it in a row | 12, 12, — | spec/11 R325, R326 | 0 -/
  sentNext : SMap Nat
  sentBase : SMap Nat
  resent : SMap Nat
  /-- ports whose receiver discards codewords until a resent one arrives, its NAK sent, key node·16 + port | 1 | spec/11 R325 | 0 -/
  nakSent : List Nat
  /-- RS.RT_FEC_CORR and RS.RT_REPLAY of a router, added, at the last second | — | spec/11 (0x1160) | 0 -/
  rtBase : SMap Nat
  /-- what telemetry has read of it since then | — | spec/18 R515 | 0 -/
  rtAcc : SMap Nat
  /-- stage reports that wait for host port A and B, oldest first | — | spec/15 R430, R443 | none -/
  repQA : List Report
  repQB : List Report
  /-- PTP servo: consecutive offsets within ±100 ns; PTC in 1/16 ns at the last two-step Sync; path delay in 1/16 ns | — | spec/14 R421 | 0 -/
  ptpGood : Nat
  ptpWait : Option Int
  ptpDelay : Int
  /-- beacon, heartbeat and telemetry numbers | — | spec/14 R419, spec/12 R373, spec/18 R514 | 0 -/
  hbSent : Nat
  hbSeen : List Nat
  hbHostSeen : List Nat
  /-- mirrored checkpoint that the last heartbeat named | 32 | spec/12 R373 | 0 -/
  hbMirror : Nat
  /-- this headstock has yielded to a takeover | 1 | spec/12 R375 | 0 -/
  twinYielded : Bool
  /-- telemetry: consecutive low intervals of the three margins, key 4·region + kind; raised | — | spec/18 R516 | 0 -/
  lowCnt : SMap Nat
  okCnt : SMap Nat
  raised : List Nat
  /-- coolant: seconds for which the condition of each row has held; the rows in force, with the seconds for which theirs has been absent;
  the deadline of R493 | — | spec/17 R492, R493 | 0, none, none -/
  rowOn : SMap Nat
  rowOff : SMap Nat
  deadline : Option Nat
  /-- power: pairs lost, scaling, guard | — | spec/17 R473, R478 | 0 -/
  pairA : Bool
  pairB : Bool
  guardOn : Bool
  /-- refusals of the region services dies not yet reported, key region | 16 × 32 | spec/00 R21 | 0 -/
  rsTally : SMap Nat
  /-- measurements sealed | 1 | spec/18 R510 | 0 -/
  sealed : Bool
  /-- field knot log entries that block 5 covers, and the row maps of block 6 | — | spec/18 R509 | 0, none -/
  measKnots : Nat
  measRows : List Nat
  /-- paused PFC priorities of the host ports, key 8·port + priority: the panel time, in 1/16 ns, at which the pause ends | 6 × 68 | spec/13 R379 | 0 -/
  hostPaused : SMap Nat
  /-- packets to hosts that wait for their port, oldest first | — | spec/13 R379 | none -/
  hostTxq : List HostFrame
  /-- PTC error of each die, master minus local, in 1/16 ns, key node | — | spec/14 R418, R419 | 0 -/
  ptcErr : SMap Int
  /-- error that a die's slewing has still to remove, in 1/16 ns, and its rate adjustment in 1/16 ns per ms, key node | — | spec/14 R418, R419 | 0 -/
  ptcSlew : SMap Int
  ptcRate : SMap Int
  /-- fraction of 1/16 ns of the master's time that its rate has built up, in units of 2^−32 | 32 | spec/14 R421, R424 | 0 -/
  ptcFrac : Int
  /-- rates of the servo in the last 1,000 ms: PTC, rate | — | spec/14 R421 | none -/
  rateHist : List (Nat × Int)
deriving DecidableEq, Repr, Inhabited

/-- The panel. -/
structure State where
  /-- commands waiting, first in, first out | — | the block's queue | empty -/
  pending : List Instr
  /-- the model's own: number of free values taken so far | — | log entry 6 | 0 (DESIGN CHOICE) -/
  free : Nat
  /-- master panel time in 1/16 ns | 68 | spec/14 R418 | 0 -/
  ptc16 : Nat
  /-- value returned by the last register, window or S-core read (the read's answer) | 64 | spec/00 R20 | 0 -/
  rdata : Nat
  /-- fuses | — | spec/00 R6, spec/15 R437 | as `Fuses` -/
  fuses : Fuses
  /-- NVM | 2 × 128 MiB | spec/18 R502 | as `Nvm` -/
  nvm : Nvm
  /-- registers by key (spindle node number · 2^32 + offset); an unlisted one holds its reset value | 32 or 64 | the register maps | none listed -/
  regs : SMap Nat
  /-- compute dies by spindle node number | 576 | spec/01 R25 | as `Die` -/
  dies : SMap Die
  /-- memory dies | 128 | spec/10 R278 | as `Mdie` -/
  mds : SMap Mdie
  /-- fabric dies | 16 | spec/12 R342 | as `Fdie` -/
  fds : SMap Fdie
  /-- partitions | 16 | spec/16 R448 | as `Part` -/
  parts : SMap Part
  /-- sessions 8 × partition + slot | 128 | spec/13 R382 | as `Session` -/
  sess : SMap Session
  /-- panel controllers and panel-wide state | — | spec/15–spec/19 | as `Pcd` -/
  pcd : Pcd
  /-- what the panel has sent outward, newest first | — | host, fabric and management ports | none -/
  out : List Out
deriving DecidableEq, Repr

/-- A place at reset. -/
def Place.reset : Place :=
  { st := .idle, slot := 0, gen := 0, base := 0, entry := 0, valid := 0, loading := 0, waitLoad := false, mem := [], memErr := [],
    lanes := [], faulted := false, yielded := false, ended := false, iter := 0, plUse := none, tloaded := [], stopAt := none }

/-- The scraper at reset (spec/05 R149). -/
def Scraper.reset : Scraper :=
  { eps := 0x3727C5AC#32, diag := 0#16, gbSlot := 0#18, side := [], sideErr := [], par := [], parErr := [], rows := [], rowErr := [], busyUntil := 0 }

/-- An S-core at reset (spec/06 R186, R189). -/
def SCore.reset : SCore :=
  { x := [], f := [], pc := 0#64, mode := 3, lr := none, csrs := [], ic := [], dc := [], st := 0, vgieFlip := false, vgbartmo := 0#32, vgfx := false, vgsrc := 0#32,
    trap := none, bar := none, fxHold := none }

/-- A compute die at reset. -/
def Die.reset : Die :=
  { places := [], mcs := [], vcs := [], scr := Scraper.reset, gens := [], spad := default, runs := [], inject := 0, mcRecAt := 0, tabs := [], tabErr := [], flags := [],
    landPtr := 0, landLate := false, dmaPtr := 0, tickets := [], ticketNext := 0, scs := [], spq := [], vgpend := 0, plUndo := [], barSkip := [],
    barAt := [], l2 := [], tally := 0, cyc := 0, inPhase := false, stopped := false, nomWraps := 0, resumed := false, startAt := none, strobed := 0, issuedNom := 0, waitCnt := 0,
    lastDep := 0, fstep := false, holdAt := none, trest := 0, namedMs := 0, namedEver := false, synth := 0, coldCnt := 0,
    epochAt := 0, yieldAt := none, inRange := [], differCnt := 0, hotCnt := 0, slowCnt := 0, lateCnt := 0, lastCnt := [], sseq := [], sent := [],
    withheld := false, ctx := none }

/-- A partition at reset. -/
def Part.reset : Part :=
  { ctxs := [], run := none, step := 0, ccount := 0, phase := 0, stopped := false, stepW := none, idle := [],
    drained := [], atStep := [], drainAt := none, stackList := [], lastList := [], arrived := [], ledger := [], scrubQ := [], scrubLeft := [], held := [], endedJobs := [], ceil := 0,
    prest := 0, pstate := 0, waking := false, entering := false, off := false, loading := false, retrue := 0,
    progStep := 0, forcedGens := [], dozed := false, dozeSaved := [] }

/-- The configuration in the NVM at reset: one partition of every region, the defaults of every rule, one host key
(log entry 3: DESIGN CHOICE, the spec gives no shipped configuration). -/
def Conf.shipped : Conf :=
  { magicOk := true, seq := 1, minSvn := 0, cut := 0, formOk := true, owner := 1, sigOwner := true, sigPrior := none, configId := 1,
    enD := none, enG := none, enT := none, faultInj := false,
    parts := [{ num := 0, regions := 0xFFFF#16, kernel := 0, step := 0, plW := 34880 }],
    keys := [{ part := 0, slot := 0, admin := true, data := true, key := 1 }],
    reports := [], ring := none, twin := none, telemetry := none, netIp := 0, nets := [], pcps := [3, 4, 5, 6], dscps := [26, 34, 36, 48], udpFabric := 47300, udpHost := 47301,
    ptpDomain := 0,
    slowPpm := 50, latePpm := 100, corrRate := 1000, polRate := 1000, warnTh := 6, relTh := 10,
    strikeNs := 86400000000000, retainNs := 600000000000, dozeNs := 900000000000, vmargin := 15, omargin := 10 }

/-- The image in slot A at reset (log entry 3). -/
def FwImage.shipped : FwImage :=
  { magicOk := true, seq := 1, svn := 0, version := 1, digest := 1, sigOk := true, digestOk := true }

/-- The panel right after reset: standby power up, bring-up about to begin at Mount (spec/15 R425, R427), nothing queued. -/
def State.reset : State :=
  { pending := [], free := 0, ptc16 := 0, rdata := 0,
    fuses := { stepping := 2, cut := 0, hasD := true, hasG := true, hasT := true, marks := [] },
    nvm := { images := [some FwImage.shipped, none], confs := [some Conf.shipped, none], owner := none, knots := [], reports := [],
             events := [], bseq := 0, ok0 := true, ok1 := true },
    regs := [], dies := [], mds := [], fds := [], parts := [], sess := [],
    pcd := { (default : Pcd) with stat := 1, seated := true, inputClosed := true, standby := true },
    out := [] }

end Sys2Proof.Machine
end

