-- ==== Sys2Proof/WellFormed.lean ====
section
/-! DEFINITION. Which commands name units that the spec's numbering has: compute dies and routers by spindle node number 0-575,
every spindle node 0-737 (spec/11 R335), logical sites 0-511 (spec/00 R14), M-cores 0-15, V-cores 0-7, S-cores 0-3, places 0-24
(spec/02 R65, spec/08 R213), lanes 0-3 (spec/03 R86), scratchpad groups 0-31 and bank pairs 0-63 (spec/07 R191, R194), memory dies
0-127, fabric dies and regions 0-15 (spec/01 R26), partitions 0-15, sessions 8 x partition + slot (spec/13 R382). A command that
names a unit outside the numbering is not a command of this hardware; the model stops on it by name. -/

namespace Sys2Proof

/-- The source exists. -/
def Source.ok : Source → Bool
  | .host p => decide (p < 16)
  | .score d s => decide (d < 576) && decide (s < 4)
  | .pcd => true
  | .mgmt => true

/-- The origin of a DMA item exists. -/
def Origin.ok : Origin → Bool
  | .sched d => decide (d < 576)
  | .fxdma d _ _ => decide (d < 576)
  | .hostItem k _ => decide (k < 128)
  | .tload d p sl => decide (d < 576) && decide (p < 25) && decide (sl < 8)

/-- A physical link by one end: node and port. -/
def linkWf (e : Nat × Nat) : Bool := decide (e.1 < 576) && decide (e.2 < 9)
/-- The units that a test names exist (spec/15 R437, spec/11 R341). -/
def testWf (i : TestIn) : Bool :=
  i.scrubFail.all (fun d => decide (d < 576)) && i.badRouters.all (fun d => decide (d < 576)) && i.badLinks.all linkWf &&
    i.badModules.all (fun e => linkWf (e.1, e.2.1) && decide (e.2.2 < 8)) && i.long.all (fun e => decide (e.1 < 512))

/-- Every unit the command names exists in the numbering. -/
def Instr.wf : Instr → Bool
  | .registerWrite src _ _ _ => src.ok
  | .registerReadClear src _ _ _ => src.ok
  | .faultRecordRearm src _ _ => src.ok
  | .badAccessTallyReport node => decide (node < 738)
  | .srSeedWrite src site core _ => src.ok && decide (site < 512) && decide (core < 25)
  | .mcNop die core _ => decide (die < 576) && decide (core < 16)
  | .loadw die core _ => decide (die < 576) && decide (core < 16)
  | .loadwShadowReady die core => decide (die < 576) && decide (core < 16)
  | .readout die core _ => decide (die < 576) && decide (core < 16)
  | .zero die core _ => decide (die < 576) && decide (core < 16)
  | .reduceSend die core _ => decide (die < 576) && decide (core < 16)
  | .reduceAdd die core _ => decide (die < 576) && decide (core < 16)
  | .reduceAddsend die core _ => decide (die < 576) && decide (core < 16)
  | .mcInjectArm src site _ => src.ok && decide (site < 512)
  | .scrNop die _ => decide (die < 576)
  | .norm die _ => decide (die < 576)
  | .softmax die _ => decide (die < 576)
  | .normb die _ => decide (die < 576)
  | .softmaxb die _ => decide (die < 576)
  | .smoveOut die _ => decide (die < 576)
  | .smoveIn die _ => decide (die < 576)
  | .smoveClear die _ => decide (die < 576)
  | .setup die _ => decide (die < 576)
  | .vnop die v _ => decide (die < 576) && decide (v < 8)
  | .vld die v _ => decide (die < 576) && decide (v < 8)
  | .vst die v _ => decide (die < 576) && decide (v < 8)
  | .vrecv die v _ => decide (die < 576) && decide (v < 8)
  | .vsend die v _ => decide (die < 576) && decide (v < 8)
  | .aset die v _ _ _ => decide (die < 576) && decide (v < 8)
  | .vadd die v _ => decide (die < 576) && decide (v < 8)
  | .vsub die v _ => decide (die < 576) && decide (v < 8)
  | .vmul die v _ => decide (die < 576) && decide (v < 8)
  | .vfma die v _ => decide (die < 576) && decide (v < 8)
  | .vfnma die v _ => decide (die < 576) && decide (v < 8)
  | .vmin die v _ => decide (die < 576) && decide (v < 8)
  | .vmax die v _ => decide (die < 576) && decide (v < 8)
  | .vdiv die v _ => decide (die < 576) && decide (v < 8)
  | .vsqrt die v _ => decide (die < 576) && decide (v < 8)
  | .vcvt die v _ => decide (die < 576) && decide (v < 8)
  | .vcvti die v _ => decide (die < 576) && decide (v < 8)
  | .vldi die v _ => decide (die < 576) && decide (v < 8)
  | .vcmp die v _ => decide (die < 576) && decide (v < 8)
  | .vsel die v _ => decide (die < 576) && decide (v < 8)
  | .viadd die v _ => decide (die < 576) && decide (v < 8)
  | .visub die v _ => decide (die < 576) && decide (v < 8)
  | .vand die v _ => decide (die < 576) && decide (v < 8)
  | .vor die v _ => decide (die < 576) && decide (v < 8)
  | .vxor die v _ => decide (die < 576) && decide (v < 8)
  | .vshl die v _ => decide (die < 576) && decide (v < 8)
  | .vshr die v _ => decide (die < 576) && decide (v < 8)
  | .vredsum die v _ => decide (die < 576) && decide (v < 8)
  | .vredmax die v _ => decide (die < 576) && decide (v < 8)
  | .vbcast die v _ => decide (die < 576) && decide (v < 8)
  | .plArm die sc _ _ _ => decide (die < 576) && decide (sc < 4)
  | .plStop die sc _ _ => decide (die < 576) && decide (sc < 4)
  | .plStat die sc _ _ => decide (die < 576) && decide (sc < 4)
  | .fxStart die sc _ => decide (die < 576) && decide (sc < 4)
  | .fxDma die sc _ _ _ => decide (die < 576) && decide (sc < 4)
  | .fxDpoll die sc _ _ => decide (die < 576) && decide (sc < 4)
  | .fxBar die sc _ _ => decide (die < 576) && decide (sc < 4)
  | .barrierTimeout die sc => decide (die < 576) && decide (sc < 4)
  | .fxSpsend die sc _ _ _ => decide (die < 576) && decide (sc < 4)
  | .fxSprecv die sc _ => decide (die < 576) && decide (sc < 4)
  | .sCoreTrap die sc => decide (die < 576) && decide (sc < 4)
  | .scCtrlWrite src site sc _ => src.ok && decide (site < 512) && decide (sc < 4)
  | .placeDone die place => decide (die < 576) && decide (place < 25)
  | .spadLinearWrite src site _ => src.ok && decide (site < 512)
  | .spadPwrWrite src site _ => src.ok && decide (site < 512)
  | .spadGroupReady die group => decide (die < 576) && decide (group < 32)
  | .spadScrubStart src site _ => src.ok && decide (site < 512)
  | .spadScrubDone die _ => decide (die < 576)
  | .nonschedAccessGrant die pair => decide (die < 576) && decide (pair < 64)
  | .eccRepairWriteback die pair => decide (die < 576) && decide (pair < 64)
  | .tokenDepart die place lane => decide (die < 576) && decide (place < 25) && decide (lane < 4)
  | .tokenArrive die place lane _ _ _ => decide (die < 576) && decide (place < 25) && decide (lane < 4)
  | .creditReturn die place lane => decide (die < 576) && decide (place < 25) && decide (lane < 4)
  | .tload die place _ _ => decide (die < 576) && decide (place < 25)
  | .tloadComplete die place _ => decide (die < 576) && decide (place < 25)
  | .turnSwitch die place => decide (die < 576) && decide (place < 25)
  | .placeStart die => decide (die < 576)
  | .drainForced part => decide (part < 16)
  | .watchdogIdle die => decide (die < 576)
  | .quantumExpire part => decide (part < 16)
  | .contextSwitch part => decide (part < 16)
  | .landingCheck die => decide (die < 576)
  | .schSnapshot src site _ => src.ok && decide (site < 512)
  | .schMatchArm src site _ => src.ok && decide (site < 512)
  | .schMatchResolve die => decide (die < 576)
  | .slowDieEval => true
  | .dmaIssue die => decide (die < 576)
  | .desc md o _ => decide (md < 128) && o.ok
  | .trackerEntryGrant md cls => decide (md < 128) && decide (cls < 3)
  | .transactionTimeout md txid => decide (md < 128) && decide (txid < 2048)
  | .dmaItemComplete md _ => decide (md < 128)
  | .read _ => true
  | .write _ => true
  | .readData _ => true
  | .writeAck _ => true
  | .land _ => true
  | .done _ => true
  | .hbmEccWriteback md _ => decide (md < 128)
  | .hbmPatrol md => decide (md < 128)
  | .hbmCorrRateCheck md => decide (md < 128)
  | .stackFail md _ => decide (md < 128)
  | .hbmCapEval => true
  | .mdScrubStart src md _ => src.ok && decide (md < 128)
  | .mdScrubDone md => decide (md < 128)
  | .stripeReceive die side _ => decide (die < 576) && decide (side < 4)
  | .dynCodewordReceive node port _ => decide (node < 738) && decide (port < 9)
  | .packetHop node out => decide (node < 576) && decide (out < 16)
  | .spindleForward node port _ _ => decide (node < 738) && decide (port < 8)
  | .spsend die srcSite _ => decide (die < 576) && decide (srcSite < 512)
  | .barArrive node barrier _ => decide (node < 738) && decide (barrier < 256)
  | .barRelease die barrier => decide (die < 576) && decide (barrier < 256)
  | .start die _ => decide (die < 576)
  | .yield die _ => decide (die < 576)
  | .notice site _ => decide (site < 512)
  | .beacon node _ => decide (node < 738)
  | .alert _ => true
  | .regRd node _ => decide (node < 738)
  | .regWr node _ _ => decide (node < 738)
  | .regRsp node _ => decide (node < 738)
  | .alertRepeat node => decide (node < 738)
  | .eventMergeFlush _ _ => true
  | .doorbell fd ctx _ => decide (fd < 16) && decide (ctx < 256)
  | .transferPut fd ctx _ => decide (fd < 16) && decide (ctx < 256)
  | .transferGet fd ctx _ => decide (fd < 16) && decide (ctx < 256)
  | .transferCput fd ctx _ => decide (fd < 16) && decide (ctx < 256)
  | .cputStart fd ctx => decide (fd < 16) && decide (ctx < 256)
  | .transferMcast fd ctx _ => decide (fd < 16) && decide (ctx < 256)
  | .transferNote fd ctx _ => decide (fd < 16) && decide (ctx < 256)
  | .put fd _ _ => decide (fd < 16)
  | .get fd _ => decide (fd < 16)
  | .cput fd _ _ => decide (fd < 16)
  | .mcast fd _ _ _ => decide (fd < 16)
  | .ack fd _ _ _ => decide (fd < 16)
  | .getData fd _ _ => decide (fd < 16)
  | .credit fd _ _ => decide (fd < 16)
  | .note fd _ _ => decide (fd < 16)
  | .heartbeat _ _ _ => true
  | .takeover _ => true
  | .requestResendTimeout fd slot => decide (fd < 16) && decide (slot < 4096)
  | .fabricPortDown fd port => decide (fd < 16) && decide (port < 4)
  | .fabricPortUp fd port => decide (fd < 16) && decide (port < 4)
  | .pfcPauseFrame fd port prio _ => decide (fd < 18) && decide (port < 4) && decide (prio < 8)
  | .arpRequest fd _ => decide (fd < 18)
  | .neighborSolicitation fd _ => decide (fd < 18)
  | .ringForward _ _ _ _ _ _ => true
  | .heartbeatSend => true
  | .heartbeatWindowMiss _ => true
  | .mirrorComplete _ => true
  | .opn part slot port _ => decide (part < 256) && decide (slot < 256) && decide (port < 2)
  | .submit sess _ _ _ => decide (sess < 65536)
  | .sdata sess _ _ _ _ _ => decide (sess < 65536)
  | .cplAck sess _ _ _ => decide (sess < 65536)
  | .close sess _ _ => decide (sess < 65536)
  | .sessionTimeout sess => decide (sess < 128)
  | .cplResend sess => decide (sess < 128)
  | .workItemStart sess _ => decide (sess < 128)
  | .itemWrite sess _ => decide (sess < 128)
  | .writeSdataTimeout sess _ => decide (sess < 128)
  | .itemRead sess _ => decide (sess < 128)
  | .copy sess _ => decide (sess < 128)
  | .jobLoad sess _ _ => decide (sess < 128)
  | .jobStart sess _ => decide (sess < 128)
  | .jobKill sess _ => decide (sess < 128)
  | .checkpoint sess _ => decide (sess < 128)
  | .release sess _ => decide (sess < 128)
  | .hint sess _ => decide (sess < 128)
  | .itemNop sess _ => decide (sess < 128)
  | .hintExpire sess => decide (sess < 128)
  | .retentionExpire part ctx => decide (part < 16) && decide (ctx < 64)
  | .referenceLoss node _ => decide (node < 738)
  | .freqStepStop part => decide (part < 16)
  | .freqStepCountLoad part => decide (part < 16)
  | .freqStepResume part _ => decide (part < 16)
  | .localHoldBegin node mon _ => decide (node < 738) && decide (mon < 32)
  | .localHoldRelease node => decide (node < 738)
  | .replicaSlackZero die mon => decide (die < 576) && decide (mon < 32)
  | .spindleNodeOut node => decide (node < 738)
  | .beaconSend => true
  | .ptpSync _ _ _ => true
  | .ptpHoldover => true
  | .ptcStepToPtp _ => true
  | .resetAssert _ => true
  | .mount _ => true
  | .roughOut i => i.unlocked.all (fun n => decide (n < 738)) && i.refBad.all (fun e => decide (e.1 < 738)) && i.noRsd.all (fun r => decide (r < 16))
  | .truing i => testWf i
  | .shaping i => i.stackFail.all (fun m => decide (m < 128)) && i.badLinks.all linkWf && i.long.all (fun e => decide (e.1 < 512))
  | .finishing i => i.ports.all (fun e => decide (e.1 < 16) && decide (e.2 < 4))
  | .reTrue region i => decide (region < 16) && testWf i
  | .retrueRequest region => decide (region < 16)
  | .hostPortUp _ => true
  | .activePcdFail => true
  | .regionOvercurrent region => decide (region < 16)
  | .inputVoltageWarn _ _ => true
  | .inputUndervoltage => true
  | .inputOvervoltage => true
  | .busPairLost _ => true
  | .busPairRestored _ => true
  | .powerLoopUpdate _ watts => watts.all (fun e => decide (e.1 < 16))
  | .powerGuardTrip => true
  | .guardHoldEnd => true
  | .stepCeilingUpdate part => decide (part < 16)
  | .warmHoldEnter part => decide (part < 16)
  | .powerWake part => decide (part < 16)
  | .warmHoldLoadAdjust => true
  | .sensorSample _ => true
  | .thermalThrottleEval => true
  | .heatRegionRestore region => decide (region < 16)
  | .coolantEval _ _ _ _ => true
  | .coolantStopDeadline => true
  | .coolantSuddenLoss _ => true
  | .pcdOvertemp _ => true
  | .requestUpdate => true
  | .updateComponent _ => true
  | .activateFirmware => true
  | .getVersion => true
  | .getCapabilities => true
  | .negotiateAlgorithms => true
  | .getDigests => true
  | .getCertificate _ => true
  | .challenge _ => true
  | .getMeasurements _ => true
  | .setEndpointId _ => true
  | .evtAckWrite _ => true
  | .resetEffecter _ => true
  | .telemetrySend _ => true
  | .nvmDeviceFail dev => decide (dev < 2)
  | .moduleInsert _ _ _ => true
  | .inputSwitchClose => true
  | .moduleWithdraw => true
  | .nvmIsolate _ => true
  | .statusLatchTimeout => true
  | .fread _ => true
  | .freadData _ => true
  | .fwrite _ => true
  | .fwriteAck _ => true
  | .sCoreMemoryAccess die sc _ _ _ _ => decide (die < 576) && decide (sc < 4)
  | .drainedReport die => decide (die < 576)
  | .ringPortDown _ => true
  | .ringPortUp _ => true
  | .twinLinkDown => true
  | .twinLinkUp => true
  | .hostPortDown _ => true
  | .referenceRestored node _ => decide (node < 738)
  | .standbyRailLoss => true
  | .fabricDieLoss fd => decide (fd < 16)
  | .rsdLoss region => decide (region < 16)
  | .powerWakeComplete part => decide (part < 16)
  | .powerEntryComplete part => decide (part < 16)
  | .ptpFollowUp _ => true
  | .ptpDelayResp _ => true
  | .ptpAnnounce _ => true
  | .arpReply fd _ => decide (fd < 18)

end Sys2Proof
end

