-- ==== Sys2Proof/Machine/Ops.lean ====
section
/-! DEFINITION. The named operations over the panel's state: sparse maps and memory, units, registers and counters, placement,
free values, error codes of stored words, and the fault reports of a die. -/

namespace Sys2Proof.Machine

/-- The outcome of a command: its effect when every unit it names exists, the fault otherwise. -/
def guard (ok : Bool) (t : State) : Host.Outcome State Fault Refusal := if ok then .next t else .fault .noSuchUnit

-- Sparse maps ---------------------------------------------------------------------------------------------------------

/-- The value at a key; `d` where the map lists none. -/
def sget {α : Type} (d : α) : SMap α → Nat → α
  | [], _ => d
  | (k', v) :: r, k => if k' = k then v else sget d r k

/-- The map with a value put at a key, the keys kept rising. -/
def sput {α : Type} : SMap α → Nat → α → SMap α
  | [], k, v => [(k, v)]
  | (k', w) :: r, k, v => if k' = k then (k, v) :: r else if k < k' then (k, v) :: (k', w) :: r else (k', w) :: sput r k v

/-- The map without a key. -/
def serase {α : Type} (m : SMap α) (k : Nat) : SMap α := m.filter (fun e => decide (e.1 ≠ k))

/-- As `sput`, keeping no entry equal to what an unlisted key reads as. -/
def nput {α : Type} [DecidableEq α] (d : α) (m : SMap α) (k : Nat) (v : α) : SMap α :=
  if v = d then serase m k else sput m k v

/-- The value at a key when it is listed. -/
def sfind {α : Type} (m : SMap α) (k : Nat) : Option α := (m.find? (fun e => decide (e.1 = k))).map (·.2)

-- Byte memory ---------------------------------------------------------------------------------------------------------

/-- The canonical form of a memory: addresses strictly rising, no zero byte listed. -/
def Memory.wf : List Host.Cell → Bool
  | [] => true
  | [(_, b)] => decide (b ≠ 0#8)
  | (a, b) :: (a', b') :: r => decide (b ≠ 0#8) && decide (a < a') && Memory.wf ((a', b') :: r)

/-- One byte; an unlisted byte reads 0 (log entry 1). -/
def memRead (m : List Host.Cell) (a : Nat) : Byte := sget 0#8 m a
/-- One byte written. -/
def memWrite (m : List Host.Cell) (a : Nat) (b : Byte) : List Host.Cell := nput 0#8 m a b
/-- n bytes from a. -/
def readBytes (m : List Host.Cell) (a n : Nat) : List Byte := (List.range n).map (fun i => memRead m (a + i))
/-- Bytes written from a upward. -/
def writeBytes : List Host.Cell → Nat → List Byte → List Host.Cell
  | m, _, [] => m
  | m, a, b :: r => writeBytes (memWrite m a b) (a + 1) r
/-- Zero from lo to hi, hi not included. -/
def clearRange (m : List Host.Cell) (lo hi : Nat) : List Host.Cell := m.filter (fun e => decide (e.1 < lo) || decide (hi ≤ e.1))
/-- Entries of a map below lo or not below hi. -/
def dropKeys {α : Type} (m : SMap α) (lo hi : Nat) : SMap α := m.filter (fun e => decide (e.1 < lo) || decide (hi ≤ e.1))

-- Units ---------------------------------------------------------------------------------------------------------------

/-- A compute die by its spindle node number. -/
def State.die (s : State) (d : Nat) : Die := sget Die.reset s.dies d
def State.setDie (s : State) (d : Nat) (x : Die) : State := { s with dies := sput s.dies d x }
def State.modDie (s : State) (d : Nat) (f : Die → Die) : State := s.setDie d (f (s.die d))
/-- A place of a die. -/
def Die.place (x : Die) (p : Nat) : Place := sget Place.reset x.places p
def Die.setPlace (x : Die) (p : Nat) (v : Place) : Die := { x with places := sput x.places p v }
def State.place (s : State) (d p : Nat) : Place := (s.die d).place p
def State.setPlace (s : State) (d p : Nat) (v : Place) : State := s.modDie d (fun x => x.setPlace p v)
def State.modPlace (s : State) (d p : Nat) (f : Place → Place) : State := s.setPlace d p (f (s.place d p))
/-- An M-core. -/
def Die.mc (x : Die) (c : Nat) : Mcore := sget default x.mcs c
def State.mc (s : State) (d c : Nat) : Mcore := (s.die d).mc c
def State.setMc (s : State) (d c : Nat) (v : Mcore) : State := s.modDie d (fun x => { x with mcs := sput x.mcs c v })
/-- A V-core. -/
def Die.vc (x : Die) (v : Nat) : Vcore := sget default x.vcs v
def State.vc (s : State) (d v : Nat) : Vcore := (s.die d).vc v
def State.setVc (s : State) (d v : Nat) (y : Vcore) : State := s.modDie d (fun x => { x with vcs := sput x.vcs v y })
/-- The scraper. -/
def State.setScr (s : State) (d : Nat) (y : Scraper) : State := s.modDie d (fun x => { x with scr := y })
/-- The scratchpad. -/
def State.setSpad (s : State) (d : Nat) (y : Spad) : State := s.modDie d (fun x => { x with spad := y })
/-- An S-core. -/
def Die.sc (x : Die) (c : Nat) : SCore := sget SCore.reset x.scs c
def State.sc (s : State) (d c : Nat) : SCore := (s.die d).sc c
def State.setSc (s : State) (d c : Nat) (y : SCore) : State := s.modDie d (fun x => { x with scs := sput x.scs c y })
/-- An integer register of an S-core; x0 reads 0. -/
def SCore.getX (y : SCore) (r : Nat) : W64 := if r = 0 then 0#64 else sget 0#64 y.x r
/-- Writes an integer register; x0 discards. -/
def SCore.setX (y : SCore) (r : Nat) (v : W64) : SCore := if r = 0 then y else { y with x := nput 0#64 y.x r v }
/-- A control and status register of an S-core as stored. -/
def SCore.csr (y : SCore) (k : Nat) : Nat := sget 0 y.csrs k
def SCore.setCsr (y : SCore) (k v : Nat) : SCore := { y with csrs := nput 0 y.csrs k v }
/-- A lane of a place. -/
def Place.lane (p : Place) (l : Nat) : Lane := sget default p.lanes l
def Place.setLane (p : Place) (l : Nat) (v : Lane) : Place := { p with lanes := sput p.lanes l v }
/-- Memory dies, fabric dies, partitions, sessions. -/
def State.md (s : State) (m : Nat) : Mdie := sget default s.mds m
def State.setMd (s : State) (m : Nat) (v : Mdie) : State := { s with mds := sput s.mds m v }
def State.fd (s : State) (f : Nat) : Fdie := sget default s.fds f
def State.setFd (s : State) (f : Nat) (v : Fdie) : State := { s with fds := sput s.fds f v }
def State.part (s : State) (p : Nat) : Part := sget Part.reset s.parts p
def State.setPart (s : State) (p : Nat) (v : Part) : State := { s with parts := sput s.parts p v }
def State.modPart (s : State) (p : Nat) (f : Part → Part) : State := s.setPart p (f (s.part p))
def State.session (s : State) (k : Nat) : Session := sget default s.sess k
def State.setSession (s : State) (k : Nat) (v : Session) : State := { s with sess := sput s.sess k v }
def State.setPcd (s : State) (f : Pcd → Pcd) : State := { s with pcd := f s.pcd }
/-- The running context of a partition: its number and itself. -/
def State.running (s : State) (p : Nat) : Option (Nat × Ctx) :=
  match (s.part p).run with
  | some cid => (sfind (s.part p).ctxs cid).map (fun c => (cid, c))
  | none => none
/-- Sends something outward. -/
def State.emit (s : State) (o : Out) : State := { s with out := o :: s.out }
def State.emitAll (s : State) (os : List Out) : State := { s with out := os.reverse ++ s.out }

/-- Panel time in nanoseconds (spec/14 R405, R418). -/
def State.ptc (s : State) : Nat := s.ptc16 / 16 % 2 ^ 64

-- Node numbers (spec/11 R335) -----------------------------------------------------------------------------------------

def nodeMd (m : Nat) : Nat := 576 + m
def nodeFd (f : Nat) : Nat := 704 + f
def nodeRs (r : Nat) : Nat := 720 + r
/-- The PC block of the active panel controller die. -/
def nodePc : Nat := 736

/-- Region of a node's die (spec/00 R14, spec/01 R26); none for the panel controller dies. -/
def regionOfNode (n : Nat) : Option Nat :=
  if n < 576 then some (4 * (n / 36 / 4) + n % 36 / 9)
  else if n < 704 then some ((n - 576) / 8)
  else if n < 720 then some (n - 704)
  else if n < 736 then some (n - 720)
  else none

/-- Unit codes (spec/15 R438). -/
def unitCode (kind node index : Nat) : Nat := kind * 2 ^ 28 + node * 2 ^ 18 + index
def unitDie (node : Nat) : Nat := unitCode 1 node 0
def unitCore (node core : Nat) : Nat := unitCode 2 node core
def unitSram (node array row : Nat) : Nat := unitCode 3 node (array * 1024 + row)
def unitLink (node port : Nat) : Nat := unitCode 5 node port
def unitStack (m : Nat) : Nat := unitCode 6 (nodeMd m) m
/-- Parts of a unit code. -/
def unitKind (u : Nat) : Nat := bits u 31 28
def unitNode (u : Nat) : Nat := bits u 27 18
def unitIndex (u : Nat) : Nat := bits u 17 0

-- Configuration -------------------------------------------------------------------------------------------------------

/-- Regions of the cut (spec/00 R2-R4). -/
def State.cutRegions (s : State) : Nat := if s.fuses.cut = 0 then 16 else if s.fuses.cut = 1 then 8 else 2
/-- Partition records in force (spec/18 R503). -/
def State.partCfgs (s : State) : List PartCfg := match s.pcd.conf with | some c => c.parts | none => []
/-- Partition of a region (spec/16 R448). -/
def State.partOfRegion (s : State) (r : Nat) : Option Nat :=
  (s.partCfgs.find? (fun p => p.regions.getLsbD r)).map (·.num)
def State.partOfNode (s : State) (n : Nat) : Option Nat :=
  match regionOfNode n with
  | some r => s.partOfRegion r
  | none => none
/-- Regions of a partition, ascending. -/
def State.regionsOf (s : State) (p : Nat) : List Nat := (List.range s.cutRegions).filter (fun r => s.partOfRegion r == some p)
/-- An option is enabled when it is fitted and the configuration enables it (spec/00 R6-R8); by default as fitted. -/
def State.enD (s : State) : Bool := match s.pcd.conf with | some c => s.fuses.hasD && c.enD.getD true | none => false
def State.enG (s : State) : Bool := match s.pcd.conf with | some c => s.fuses.hasG && c.enG.getD true | none => false
def State.enT (s : State) : Bool := match s.pcd.conf with | some c => s.fuses.hasT && c.enT.getD true | none => false

-- Registers -----------------------------------------------------------------------------------------------------------

/-- Key of a register: block of the node, offset (for a compute die, the offset in its site window). -/
def rkey (node off : Nat) : Nat := node * 2 ^ 32 + off

/-- Stored value of a register that nothing has written: its reset value where that is not 0 (the register maps; log entry 2). -/
def rawReset (node off : Nat) : Nat :=
  if off = CD_SPAD_PWR ∧ node < 576 then 0xFFFFFFFF
  else if (off = CD_CLK_MARGIN ∧ node < 576) ∨ (off = MD_CLK_MARGIN ∧ 576 ≤ node) then 0xFC003140
  else if 576 ≤ node ∧ node < 704 ∧ 0x80 ≤ off ∧ off < 0x100 then 0xFFFFFFFF
  else if node = nodePc ∧ off = PC_BRINGUP_STATUS then 0x20
  else if node = nodePc ∧ off = PC_COOLANT then 0x8000
  else 0

/-- Stored value of a register. -/
def State.rg (s : State) (node off : Nat) : Nat := sget (rawReset node off) s.regs (rkey node off)
def State.setRg (s : State) (node off v : Nat) : State := { s with regs := sput s.regs (rkey node off) v }
/-- A field of a register. -/
def State.rgF (s : State) (node off msb lsb : Nat) : Nat := bits (s.rg node off) msb lsb
def State.rgB (s : State) (node off n : Nat) : Bool := (s.rg node off).testBit n
def State.setRgF (s : State) (node off msb lsb v : Nat) : State := s.setRg node off (setBits (s.rg node off) msb lsb v)
def State.setRgB (s : State) (node off n : Nat) (b : Bool) : State := s.setRgF node off n n (b2n b)
/-- Sets bits of a register. -/
def State.orRg (s : State) (node off m : Nat) : State := s.setRg node off (s.rg node off ||| m)

-- Power ---------------------------------------------------------------------------------------------------------------

/-- The dies of a region are powered at Rough-out (spec/15 R430) and sequenced by a region services die that works (spec/01 R48). -/
def State.regionUp (s : State) (r : Nat) : Bool :=
  decide (r < s.cutRegions) && decide (2 ≤ s.pcd.stageDone) && !s.pcd.heldOff && !s.pcd.rsdLost.contains r
/-- The region's supply is on: powered, its input switch closed (spec/16 R468). -/
def State.regionOn (s : State) (r : Nat) : Bool := s.regionUp r && !s.rgB (nodeRs r) RS_FENCE 63
/-- The core rail of a compute die is on (spec/01 R29, spec/16 R449, R468). -/
def State.coreOn (s : State) (d : Nat) : Bool :=
  decide (d < 576) && s.regionOn (4 * (d / 36 / 4) + d % 36 / 9) &&
    !s.rgB (nodeRs (4 * (d / 36 / 4) + d % 36 / 9)) RS_FENCE (9 * (d / 36 % 4) + d % 36 % 9)
/-- The rail of a memory die is on. -/
def State.mdOn (s : State) (m : Nat) : Bool :=
  decide (m < 128) && s.regionOn (m / 8) && !s.rgB (nodeRs (m / 8)) RS_FENCE (50 + m % 8)
/-- A fabric die is powered and not fenced: its own switch on the edge rail, not the region's (spec/01 R29, spec/16 R463). -/
def State.fdOn (s : State) (f : Nat) : Bool := decide (f < 16) && s.regionUp f && !(s.fd f).lost

-- Placement (spec/01) -------------------------------------------------------------------------------------------------

/-- The row map that covers logical row y of region column c (spec/01 R36). -/
def State.rowMap (s : State) (region n : Nat) : Nat := s.rg (nodeRs region) (RS_ROW_MAP n)

/-- Spindle node of the compute die that holds a logical site; none where the window is unbacked (spec/01 R30, R35; spec/00 R4). -/
def State.siteNode (s : State) (site : Nat) : Option Nat :=
  let x := site % 32
  let y := site / 32
  let r := 4 * (y / 4) + x / 8
  if 512 ≤ site ∨ s.cutRegions ≤ r ∨ s.pcd.stageDone < 3 then none
  else
    let m := s.rowMap r (y % 4)
    if m.testBit (x % 8) then none
    else some (36 * y + 9 * (x / 8) + x % 8 + (if bits m 23 20 ≤ x % 8 then 1 else 0))

/-- Logical site held by a physical compute die, none for a spare or an excluded site. -/
def State.nodeSite (s : State) (d : Nat) : Option Nat :=
  let y := d / 36
  let px := d % 36
  let o := px % 9
  let cands := [o, o - 1].filter (fun k => decide (k < 8))
  (cands.map (fun k => 32 * y + 8 * (px / 9) + k)).find? (fun site => s.siteNode site == some d)

/-- Logical sites of a partition, ascending. -/
def State.sitesOf (s : State) (p : Nat) : List Nat :=
  (List.range' 0 512).filter (fun i => s.partOfRegion (4 * (i / 32 / 4) + i % 32 / 8) == some p)
/-- Compute dies that hold a logical site of a partition. -/
def State.diesOf (s : State) (p : Nat) : List Nat := (s.sitesOf p).filterMap s.siteNode

/-- Panel address of a register (spec/00 R15, spec/01 R27). -/
def State.regAddr (s : State) (node off : Nat) : Nat :=
  if node < 576 then
    match s.nodeSite node with
    | some i => 0x4000000000000000 + i * 2 ^ 32 + off
    | none => 0
  else if node < 704 then 0x7000002000000000 + (node - 576) * 2 ^ 24 + off
  else if node < 720 then 0x7000003000000000 + (node - 704) * 2 ^ 24 + off
  else if node < 736 then 0x7000001000000000 + (node - 720) * 2 ^ 24 + off
  else 0x7000000000000000 + off

-- Reports -------------------------------------------------------------------------------------------------------------

/-- A die, or the active PCD itself (node 736), reports an event (spec/11 R335, spec/16 R452, R453). The ALERT stays until the PCD
has acknowledged it. -/
def State.raise (s : State) (node code unit data : Nat) : State :=
  let a : Alert := { node := node, serial := s.pcd.serial, code := code, part := (s.partOfNode node).getD 31, unit := unit,
                     data := data, ptc := s.ptc }
  s.setPcd (fun p => { p with alerts := p.alerts ++ [a], serial := p.serial + 1 })
/-- As `raise`, for a given partition (31 = panel-wide). -/
def State.raisePart (s : State) (node part code unit data : Nat) : State :=
  let a : Alert := { node := node, serial := s.pcd.serial, code := code, part := part, unit := unit, data := data, ptc := s.ptc }
  s.setPcd (fun p => { p with alerts := p.alerts ++ [a], serial := p.serial + 1 })

/-- n more events in an error and event counter (spec/00 R24, spec/16 R466): it sticks at 0xFFFF_FFFF, sets its overflow bit and
raises 0x1010 unless that bit was still set. -/
def State.bumpErr (s : State) (node off st b n : Nat) : State :=
  let v := s.rg node off
  if v = 0xFFFFFFFF ∨ n = 0 then s
  else if v + n < 0xFFFFFFFF then s.setRg node off (v + n)
  else
    let s1 := s.setRg node off 0xFFFFFFFF
    if s.rgB node st b then s1 else (s1.orRg node st (2 ^ b)).raise node 0x1010 0 (s.regAddr node off)

/-- n more in a performance counter (spec/00 R24): 48 bits, bit 63 set when it wraps. -/
def State.bumpPerf (s : State) (node off n : Nat) : State :=
  if n = 0 then s
  else
    let v := s.rg node off
    let c := v % 2 ^ 48 + n
    s.setRg node off (c % 2 ^ 48 + (if v.testBit 63 || decide (2 ^ 48 ≤ c) then 2 ^ 63 else 0))

/-- The next free value (log entry 6). -/
def State.freeVal (s : State) : Nat := Config.freeValue s.free
def State.takeFree (s : State) : State := { s with free := s.free + 1 }

/-- What an error code reports of a stored word (spec/07 R202, R532). `altered` delivers the word with the bits of `flips` changed. -/
inductive EccOut where
  | ok
  | corr
  | bad
  | altered (counted : Bool) (flips : Nat)
deriving DecidableEq, Repr, Inhabited

/-- The report for an error pattern of n erroneous bits or symbols: one is corrected, two are detected, and three or more have one of the
three outcomes of spec/07 R532, which depends only on the pattern and is otherwise a free choice (log entry 6). -/
def eccReport (n pat : Nat) : EccOut :=
  if n = 0 then .ok
  else if n = 1 then .corr
  else if n = 2 then .bad
  else if Config.eccOutcome pat % 3 = 0 then .bad
  else if Config.eccOutcome pat % 3 = 1 then .altered true (Config.eccMiscorrect pat)
  else .altered false pat

/-- The report of a SEC-DED code: bit i of a pattern is set where bit i of the stored word is flipped, the check bits above the data. -/
def eccJudge (pat : Nat) : EccOut := eccReport ((List.range 72).filter pat.testBit).length pat

/-- The report of the Reed–Solomon code of a 64-byte line: 68 symbols of 8 bits (spec/10 R299). -/
def rsJudge (pat : Nat) : EccOut := eccReport ((List.range 68).filter (fun i => decide (bits pat (8 * i + 7) (8 * i) ≠ 0))).length pat

/-- Stored bytes with the bits of a number, lowest byte first, changed. -/
def flipBytes (m : List Host.Cell) (a n flips : Nat) : List Host.Cell :=
  writeBytes m a (leBytes n (Nat.xor (leVal (readBytes m a n)) (flips % 2 ^ (8 * n))))

/-- What is left of the error pattern of a word whose altered value has been delivered: the bits in error now are those that the code corrects,
one when it reported a correction, else none. -/
def eccLeft (errs : SMap Nat) (k : Nat) (counted : Bool) : SMap Nat := if counted then sput errs k 1 else serase errs k

/-- Status bits of an operation: CD.ARITH_STATUS and CD.SAT_COUNT (spec/02 R77, R78). -/
def State.arith (s : State) (d : Nat) (x : Stat) : State :=
  let s1 := if x.flags = 0 then s else s.orRg d CD_ARITH_STATUS x.flags
  s1.bumpErr d CD_SAT_COUNT CD_ARITH_STATUS 31 x.sats

/-- Bit c of vgpend when a place enters DONE or HALTED (spec/06 R186). -/
def State.setPend (s : State) (d p : Nat) : State := s.modDie d (fun x => { x with vgpend := x.vgpend ||| 2 ^ p })

/-- A command reads nothing after a cycle; an earlier end stands. -/
def Run.cutAt (r : Run) (c : Nat) : Run := { r with cut := some (match r.cut with | some b => min b c | none => c) }

/-- The units of a core go idle after a cycle, but for what their pipelines still complete. -/
def Mcore.stopUnits (m : Mcore) (n : Nat) : Mcore :=
  { m with loadUntil := if m.shadow.isSome then m.loadUntil else min m.loadUntil n, arrayUntil := min m.arrayUntil n, outUntil := min m.outUntil n }

/-- The core of a place takes no further step of its commands after cycle c; writes already in its pipelines complete (spec/03 R117,
spec/05 R161, spec/06 R172, R184). -/
def Die.cutRuns (x : Die) (p c : Nat) : Die :=
  let n := c + 1
  let y := { x with runs := x.runs.map (fun (r : Run) => if r.place = p then r.cutAt c else r) }
  if p < 16 then { y with mcs := sput y.mcs p ((y.mc p).stopUnits n) }
  else if p < 24 then { y with vcs := sput y.vcs (p - 16) { y.vc (p - 16) with loadUntil := min (y.vc (p - 16)).loadUntil n } }
  else { y with scr := { y.scr with busyUntil := min y.scr.busyUntil n } }

/-- Halts a place (spec/06 R183): it issues nothing further. -/
def State.haltPlace (s : State) (d p : Nat) : State :=
  if (s.place d p).st = .halted then s
  else ((s.modPlace d p (fun x => { x with st := .halted })).modDie d (fun x => x.cutRuns p x.cyc)).setPend d p

/-- The common count of the partition of a die (spec/14 R410). -/
def State.ccountOf (s : State) (d : Nat) : Nat :=
  match s.partOfNode d with
  | some p => (s.part p).ccount
  | none => 0

/-- A PL.STOP whose place faults in its cycle or the next (spec/06 R185): the place is halted by the fault, the instruction returns 1, and is not
the cause of the job's end. -/
def State.stopFaults (s : State) (d p c rd : Nat) : State :=
  let s1 := (s.modPlace d p (fun x => { x with faulted := true, stopAt := none })).modDie d (fun x => x.cutRuns p x.cyc)
  (s1.setSc d c ((s1.sc d c).setX rd 1#64)).setPcd (fun q =>
    { q with alerts := q.alerts.filter (fun a => !(decide (a.node = d) && decide (a.code = 0x2132) && decide (a.unit = unitCore d p))) })

/-- A fault halts a place, and its core's status says so (spec/03 R119, spec/05 R162, spec/06 R173). -/
def State.faultHalt (s : State) (d p : Nat) : State :=
  let x := s.place d p
  if x.st = .halted then
    match x.stopAt with
    | some (n, c, rd, _) => if s.ccountOf d ≤ n + 1 then s.stopFaults d p c rd else s
    | none => s
  else (s.haltPlace d p).modPlace d p (fun x => { x with faulted := true })

/-- A fault halts every place of a die. -/
def State.haltAll (s : State) (d : Nat) : State := (List.range 25).foldl (fun t p => t.faultHalt d p) s

/-- The turn and entry that are issuing on a place, for its fault record. -/
def State.turnOf (s : State) (d p : Nat) : Nat := (s.place d p).slot
def State.entryOf (s : State) (d p : Nat) : Nat := (s.place d p).entry

/-- The M-core fault record stays as it is (spec/03 R120): it holds an earlier fault, or one of a lower core of this cycle. -/
def State.mcRecKept (s : State) (d c : Nat) : Bool :=
  s.rgB d CD_MC_FAULT_INFO 31 && !(decide ((s.die d).mcRecAt = s.ccountOf d + 1) && decide (c < s.rgF d CD_MC_FAULT_INFO 27 24))

/-- An M-core fault of a command of a turn: halts the place, keeps the first record (spec/03 R120) and fails the job. -/
def State.mcFaultAt (s : State) (d c turn cmd kind cause row diff tol code unit : Nat) : State :=
  let s1 := s.faultHalt d c
  let s2 := if s.mcRecKept d c then s1 else
    (((((s1.setRg d CD_MC_FAULT_INFO (2 ^ 31 + kind * 2 ^ 28 + c * 2 ^ 24 + turn * 2 ^ 21 + cause * 2 ^ 16 + row)).setRg d
      CD_MC_FAULT_CMD cmd).setRg d CD_MC_FAULT_DIFF diff).setRg d CD_MC_FAULT_TOL tol).setRg d CD_MC_FAULT_PTC s.ptc).modDie d
      (fun x => { x with mcRecAt := s.ccountOf d + 1 })
  s2.raise d code unit 0
/-- The same, of the command that is issuing. -/
def State.mcFault (s : State) (d c kind cause row diff tol code unit : Nat) : State :=
  s.mcFaultAt d c (s.turnOf d c) (s.entryOf d c) kind cause row diff tol code unit

/-- A command fault of an M-core (spec/03 R102). -/
def State.mcCmdFault (s : State) (d c cause row : Nat) : State := s.mcFault d c 0 cause row 0 0 0x2100 (unitCore d c)

/-- A scraper fault of a command of a turn (spec/05 R161, R162); the scraper is place 24. -/
def State.scrFaultAt (s : State) (d turn cmd kind cause index code unit : Nat) : State :=
  let s1 := s.faultHalt d 24
  let s2 := if s.rgB d CD_SCR_FAULT_INFO 31 then s1 else
    ((s1.setRg d CD_SCR_FAULT_INFO (2 ^ 31 + kind * 2 ^ 28 + cause * 2 ^ 23 + turn * 2 ^ 20 + index)).setRg d
      CD_SCR_FAULT_CMD cmd).setRg d CD_SCR_FAULT_PTC s.ptc
  s2.raise d code unit 0
/-- The same, of the command that is issuing. -/
def State.scrFault (s : State) (d kind cause index code unit : Nat) : State :=
  s.scrFaultAt d (s.turnOf d 24) (s.entryOf d 24) kind cause index code unit
def State.scrCmdFault (s : State) (d cause index : Nat) : State := s.scrFault d 0 cause index 0x2110 (unitCore d 24)

/-- A V-core fault (spec/06 R172, R173); V-core v is place 16 + v. -/
def State.vcFault (s : State) (d v kind cause reg code unit : Nat) : State :=
  let s1 := s.faultHalt d (16 + v)
  let s2 := if s.rgB d CD_VC_FAULT_INFO 31 then s1 else
    ((s1.setRg d CD_VC_FAULT_INFO (2 ^ 31 + kind * 2 ^ 28 + v * 2 ^ 24 + s.turnOf d (16 + v) * 2 ^ 21 + cause * 2 ^ 16 + reg)).setRg d
      CD_VC_FAULT_CMD (s.entryOf d (16 + v))).setRg d CD_VC_FAULT_PTC s.ptc
  s2.raise d code unit 0
def State.vcCmdFault (s : State) (d v cause : Nat) : State := s.vcFault d v 0 cause 0 0x2120 (unitCore d (16 + v))

/-- A scratchpad fault record (spec/07 R212). -/
def State.spadRecord (s : State) (d kind bank a b addr : Nat) : State :=
  if s.rgB d CD_SPAD_FAULT_INFO 31 then s else
  ((s.setRg d CD_SPAD_FAULT_INFO (2 ^ 31 + kind * 2 ^ 28 + bank * 2 ^ 21 + a * 2 ^ 14 + b * 2 ^ 7)).setRg d CD_SPAD_FAULT_ADDR
    (addr / 64 * 64 % 2 ^ 32)).setRg d CD_SPAD_FAULT_PTC s.ptc

/-- A place fault of the sequencer, a lane or turn memory (spec/08 R254). -/
def State.plRecord (s : State) (d kind place slot cause lane entry : Nat) : State :=
  if s.rgB d CD_PL_FAULT_INFO 31 then s else
  ((s.setRg d CD_PL_FAULT_INFO (2 ^ 31 + kind * 2 ^ 28 + place * 2 ^ 23 + slot * 2 ^ 20 + cause * 2 ^ 16 + lane)).setRg d
    CD_PL_FAULT_ENTRY entry).setRg d CD_PL_FAULT_PTC s.ptc

/-- First (lowest) cause whose condition holds (spec/03 R102). -/
def lowestCause (l : List (Bool × Nat)) : Option Nat :=
  (l.filter (·.1)).foldl (fun m x => match m with | none => some x.2 | some y => some (min y x.2)) none

/-- A running place that a PL.STOP has halted in the present cycle issues its entries of this cycle (spec/06 R184). -/
def State.stoppedNow (s : State) (d p : Nat) : Bool :=
  match (s.place d p).stopAt with
  | some (n, _, _, ran) => ran && decide (n = s.ccountOf d)
  | none => false

/-- A core takes a command: its rail is on, and its place is not halted. -/
def State.canIssue (s : State) (d p : Nat) : Bool := s.coreOn d && (decide ((s.place d p).st ≠ .halted) || s.stoppedNow d p)

end Sys2Proof.Machine
end

