-- ==== Sys2Proof/Machine/Operands.lean ====
section
/-! DEFINITION. Operand forms: format codes, packed elements, rows and lines of the scratchpad, MX blocks, stochastic draws, and the
scratchpad accesses of the scheduled ports (spec/02, spec/03 R88-R92, spec/07). -/

namespace Sys2Proof.Machine

/-- M-core format codes (spec/03 R88). -/
def fmtOf (c : Nat) : Option NFmt :=
  match c with
  | 0 => some (.fp b32)
  | 1 => some (.fp b16)
  | 2 => some (.fp bf16)
  | 3 => some (.fp e5m2)
  | 4 => some (.fp e4m3)
  | 5 => some (.fp e3m2)
  | 6 => some (.fp e2m3)
  | 7 => some (.fp e2m1)
  | 8 => some (.int 8)
  | 9 => some (.int 4)
  | 10 => some (.int 2)
  | _ => none

/-- V-core format codes: also 0xB, binary64 (spec/06 R167). -/
def vfmtOf (c : Nat) : Option NFmt := if c = 11 then some (.fp b64) else fmtOf c

/-- The format of a code that has been checked. -/
def fmtD (c : Nat) : NFmt := (vfmtOf c).getD (.fp b32)
/-- Bits per element of a format code. -/
def fmtW (c : Nat) : Nat := (fmtD c).width
/-- MX-capable codes (spec/03 R88). -/
def mxOk (c : Nat) : Bool := decide (3 ≤ c) && decide (c ≤ 8)
/-- Rate class as its width: 32, 16, 8, 4 or 2 bits (spec/03 R88). -/
def rateBits (c : Nat) : Nat := if c = 0 then 32 else if c ≤ 2 then 16 else if c = 7 ∨ c = 9 then 4 else if c = 10 then 2 else 8
/-- Formats of 8 bits or fewer (spec/02 R52). -/
def narrow (c : Nat) : Bool := decide (3 ≤ c)
/-- Pairs the M-core multiplies (spec/02 R52). -/
def pairOk (a b : Nat) : Bool :=
  if a ≤ 2 ∨ b ≤ 2 then a == b
  else (fmtD a).isInt == (fmtD b).isInt

/-- Element i of w-bit elements packed from a byte source (spec/02 R51). -/
def elemAt (rd : Nat → Byte) (w i : Nat) : Nat :=
  let o := w * i
  (leVal ((List.range (w / 8 + 2)).map (fun k => rd (o / 8 + k)))) >>> (o % 8) % 2 ^ w

/-- Elements packed into one number, element 0 lowest (spec/02 R51). -/
def packElems (w : Nat) : List Nat → Nat
  | [] => 0
  | e :: r => e % 2 ^ w + packElems w r <<< w

/-- Bytes of a row of n elements. -/
def rowBytes (w n : Nat) : Nat := cdiv (w * n) 8

/-- A row's place is legal (spec/03 R90). -/
def rowOk (a bytes : Nat) : Bool := if bytes ≤ 64 then decide (a % 64 + bytes ≤ 64) else decide (a % 64 = 0)

/-- Line addresses (multiples of 64) that hold bytes a to a + n - 1. -/
def linesOf (a n : Nat) : List Nat := if n = 0 then [] else (List.range ((a + n - 1) / 64 - a / 64 + 1)).map (fun k => (a / 64 + k) * 64)

/-- A number put into a rising list without repeats. -/
def insUniq (x : Nat) : List Nat → List Nat
  | [] => [x]
  | y :: r => if x < y then x :: y :: r else if x = y then y :: r else y :: insUniq x r
/-- Rising, without repeats. -/
def sortUniq (l : List Nat) : List Nat := l.foldr insUniq []

-- MX blocks (spec/02 R56-R58) -----------------------------------------------------------------------------------------

/-- Value of an MX element (spec/02 R56). -/
def mxVal (fmt scale code : Nat) : Val :=
  if scale = 255 then .nan
  else (decodeN (fmtD fmt) code).scale ((scale : Int) - 127 - (if fmt = 8 then 6 else 0))

/-- emax of an element type (spec/02 R58). -/
def emaxOf (fmt : Nat) : Int := if fmt = 3 then 15 else if fmt = 4 then 8 else if fmt = 5 then 4 else if fmt = 6 ∨ fmt = 7 then 2 else 0

/-- Exponent of the largest magnitude of a list of finite values, not all zero. -/
def topOf (vs : List Val) : Int :=
  vs.foldl (fun t v => match v with | .fin _ m e => if m = 0 then t else max t (topExp m e) | _ => t) (-100000)

/-- One element of an MX encode: its source divided by 2^x, saturating (spec/02 R58). -/
def mxElem (fmt mode r : Nat) (x : Int) (v : Val) : Nat × Stat :=
  if fmt = 8 then convI 8 (-127) 127 mode r (v.scale (6 - x))
  else convN (fmtD fmt) mode true r (v.scale (-x))

/-- The status of a list of results. -/
def statAll (l : List (Nat × Stat)) : Stat := l.foldl (fun a x => a.or x.2) Stat.none

/-- Encoding of one block: scale code, element codes, status (spec/02 R58). `rs` are the draws of its elements. -/
def mxEncode (fmt mode : Nat) (rs : List Nat) (vs : List Val) : Nat × List Nat × Stat :=
  if vs.any (fun v => v.isNan || v.isInf) then
    (255, vs.map (fun _ => 0), (nanIn vs).or (stFlag fMxScaleNan))
  else if vs.all Val.isZero then
    (127, vs.map (fun v => if fmt = 8 then 0 else (convN (fmtD fmt) 0 true 0 v).1), Stat.none)
  else
    let x := max (-127) (min 127 (topOf vs - emaxOf fmt))
    let es := (vs.zip rs).map (fun p => mxElem fmt mode p.2 x p.1)
    ((x + 127).toNat, es.map (·.1), statAll es)

-- Stochastic draws (spec/02 R63, R64) ---------------------------------------------------------------------------------

/-- State of generator g of core c (spec/02 R65; an unlisted one holds what SEED 0 gives). -/
def Die.gen (x : Die) (c g : Nat) : W64 := sget (seedState 0#64 g) x.gens (16 * c + g)

/-- One step of the generators that serve the lanes listed: the die after it, and each lane's draw, in the order of the lanes. A
generator steps once for the cycle; draw i of a step goes to its lane 4g + i. -/
def Die.draws (x : Die) (c : Nat) (lanes : List Nat) : Die × List Nat :=
  let gs := sortUniq (lanes.map (· / 4))
  let y := gs.foldl (fun d g => { d with gens := sput d.gens (16 * c + g) (xorshift (d.gen c g)) }) x
  (y, lanes.map (fun l => drawOf (y.gen c (l / 4)) (l % 4)))

/-- Draws for the lanes when the mode is SR; zeros, and no step, otherwise. -/
def State.drawsFor (s : State) (d c mode : Nat) (lanes : List Nat) : State × List Nat :=
  if mode = 2 then
    let r := (s.die d).draws c lanes
    (s.setDie d r.1, r.2)
  else (s, lanes.map (fun _ => 0))

/-- One level of a combine over partials and the lanes that hold them: the two operands of each pair, and the lane the sum is rounded
and held on. -/
def combinePairs (level : Nat) (l : List (Val × Nat)) : List ((Val × Val) × Nat) :=
  (List.range (l.length / 2)).map (fun i =>
    let a := (l[2 * i]?).getD default
    let b := (l[2 * i + 1]?).getD default
    ((a.1, b.1), if Config.combineRight level i then b.2 else a.2))

-- Scratchpad mapping (spec/00 R17, spec/07 R190-R193) -----------------------------------------------------------------

/-- Bytes of the scratchpad in force. -/
def State.spadSize (s : State) : Nat := if s.enD then 2 ^ 27 else 2 ^ 26

/-- A window is linear (spec/07 R212). -/
def State.linearWin (s : State) (d w : Nat) : Bool := s.rgB d CD_SPAD_LINEAR w

/-- Bank of a byte address (spec/00 R17, spec/07 R192). -/
def State.bankOf (s : State) (d a : Nat) : Nat :=
  64 * bits a 26 26 +
    (if s.linearWin d (bits a 26 22) then bits a 11 6
     else Nat.xor (Nat.xor (bits a 11 6) (bits a 17 12)) (Nat.xor (bits a 23 18) (bits a 25 24)))

/-- Storage position of a byte address: (bank · 16,384 + line) · 64 + byte. -/
def State.spadPos (s : State) (d a : Nat) : Nat := (s.bankOf d a * 16384 + bits a 25 12) * 64 + a % 64

/-- A group is powered and usable (spec/07 R205, R206). -/
def State.groupOn (s : State) (d g : Nat) : Bool := s.rgB d CD_SPAD_PWR g && !((s.die d).spad.settling.contains g)

/-- An address lies within the scratchpad and its group is powered (spec/07 R193, R205). -/
def State.spadOk (s : State) (d a : Nat) : Bool := decide (a < s.spadSize) && s.groupOn d (bits a 26 22)

/-- All of a range lies within the scratchpad, in powered groups. -/
def State.spadRangeOk (s : State) (d a n : Nat) : Bool := (linesOf a n).all (s.spadOk d)

/-- A job that has ended holds the die's state for post-mortem reading (spec/16 R465). -/
def State.retainedOn (s : State) (d : Nat) : Bool :=
  match s.partOfNode d, s.nodeSite d with
  | some p, some site => (s.part p).ctxs.any (fun e => decide (e.2.st = .retained) && e.2.onDie && e.2.img.sites.contains site)
  | _, _ => false

/-- The stores of a die are closed to all but its places: to be scrubbed, or held under retention (spec/07 R209, spec/16 R465). -/
def State.winClosed (s : State) (d : Nat) : Bool := s.retainedOn d || s.rgB d CD_SPAD_STATUS 0

/-- Bytes that a requester that is no place may reach (spec/07 R205, R206, R209). -/
def State.spadOpen (s : State) (d a n : Nat) : Bool := s.spadRangeOk d a n && !s.winClosed d

/-- A byte of the scratchpad as stored. -/
def State.spadByte (s : State) (d a : Nat) : Byte := memRead (s.die d).spad.mem (s.spadPos d a)

-- Scheduled accesses (spec/07 R196-R204) ------------------------------------------------------------------------------

/-- A scheduled line access: cycle (unstalled), requester code of R212, byte address. -/
structure Acc where
  cyc : Nat
  port : Nat
  addr : Nat
deriving DecidableEq, Repr, Inhabited

/-- Bank pair of an address. -/
def State.pairOf (s : State) (d a : Nat) : Nat := s.bankOf d a % 64

/-- Adds accesses to the reservations; a meeting of two in one bank pair and cycle is returned as (cycle, pair, bank, PORT_A, PORT_B,
address of PORT_A's access), the earliest cycle and the lowest pair first (spec/07 R198). -/
def State.reserve (s : State) (d : Nat) (accs : List Acc) :
    List (Nat × Nat × Nat × Nat × Nat) × Option (Nat × Nat × Nat × Nat × Nat × Nat) :=
  let live := (s.die d).spad.resv.filter (fun r => decide ((s.die d).cyc ≤ r.1))
  accs.foldl (fun st a =>
    let pr := s.pairOf d a.addr
    let here := st.1.find? (fun r => decide (r.1 = a.cyc) && decide (r.2.1 = pr))
    let entry := (a.cyc, pr, s.bankOf d a.addr, a.port, a.addr)
    match here with
    | none => (st.1 ++ [entry], st.2)
    | some (_, _, bk, pt, ad) =>
      let c := if pt ≤ a.port then (a.cyc, pr, bk, pt, a.port, ad) else (a.cyc, pr, s.bankOf d a.addr, a.port, pt, a.addr)
      match st.2 with
      | none => (st.1, some c)
      | some o => (st.1, if c.1 < o.1 ∨ (c.1 = o.1 ∧ c.2.1 < o.2.1) then some c else some o)) (live, none)

/-- An uncorrectable word found by a place (spec/07 R203): every place of the die halts, the record is kept, the job fails. -/
def State.spadBad (s : State) (d port addr : Nat) (byPlace : Bool) : State :=
  let s1 := if byPlace then s.haltAll d else s
  (s1.spadRecord d 0 (s.bankOf d addr) port 0 addr).raise d 0x2140 (unitSram d (s.bankOf d addr) (bits addr 25 12 / 16)) 0

/-- A word has been corrected: it is counted, and its repair is pending unless the bank pair holds one already (spec/07 R204). -/
def State.spadCorr (s : State) (d addr : Nat) : State :=
  let t := s.bumpErr d CD_SPAD_ECC_CORR CD_SPAD_STATUS 31 1
  let pr := s.pairOf d addr
  t.modDie d (fun x => if sget 0 x.spad.repair pr = 0 then
      { x with spad := { x.spad with repair := nput 0 x.spad.repair pr (s.spadPos d addr / 8 + 1) } } else x)

/-- Error check of one 64-bit word at an address (spec/07 R202, R204, R532): the state after it, and whether it is uncorrectable. -/
def State.spadCheckWord (s : State) (d addr : Nat) : State × Bool :=
  let w := s.spadPos d addr / 8
  let j := eccJudge (sget 0 (s.die d).spad.errs w)
  match j with
  | .ok => (s, false)
  | .bad => (s, true)
  | .altered cnt v =>
    let t := s.modDie d (fun x => { x with spad := { x.spad with mem := flipBytes x.spad.mem (8 * w) 8 v, errs := eccLeft x.spad.errs w cnt } })
    (if cnt then t.spadCorr d addr else t, false)
  | .corr => (s.spadCorr d addr, false)

/-- Error check of the lines of a read (all eight words of each): the state after it, and the first line with an uncorrectable word. -/
def State.spadCheckLines (s : State) (d : Nat) (lines : List Nat) : State × Option Nat :=
  if (s.die d).spad.errs = [] then (s, none)
  else
    (lines.flatMap (fun l => (List.range 8).map (fun k => l + 8 * k))).foldl
      (fun st a =>
        let r := st.1.spadCheckWord d a
        (r.1, match st.2 with | some x => some x | none => if r.2 then some (a / 64 * 64) else none)) (s, none)

/-- The scheduled accesses of a command. On a bank conflict every place halts and none of the command's accesses is performed
(spec/07 R198; log entry 4). The Bool says whether the command goes on. -/
def State.schedule (s : State) (d : Nat) (accs : List Acc) : State × Bool :=
  let r := s.reserve d accs
  match r.2 with
  | some (_, _, bank, a, b, addr) =>
    (((s.haltAll d).spadRecord d 1 bank a b addr).raise d 0x2141 (unitDie d) 0, false)
  | none =>
    (((s.modDie d (fun x => { x with spad := { x.spad with resv := r.1 } })).bumpPerf d CD_SPAD_ACCESS accs.length), true)

/-- Scheduled reads: the accesses, then the error check of every line read. -/
def State.schedRead (s : State) (d : Nat) (accs : List Acc) : State × Bool :=
  let r := s.schedule d accs
  if r.2 then
    let c := r.1.spadCheckLines d (accs.map (fun a => a.addr / 64 * 64))
    match c.2 with
    | none => (c.1, true)
    | some l =>
      let port := match accs.find? (fun a => decide (a.addr / 64 * 64 = l)) with | some a => a.port | none => 0
      (c.1.spadBad d port l true, false)
  else r

/-- The aligned words a bit range covers, with mask and value: address of the word, mask, value. -/
def wordsOf (addr nbits v : Nat) : List (Nat × Nat × Nat) :=
  let sh := addr % 8 * 8
  let total := (v % 2 ^ nbits) <<< sh
  let m := (2 ^ nbits - 1) <<< sh
  (List.range (cdiv (sh + nbits) 64)).map (fun k => (addr / 8 * 8 + 8 * k, m >>> (64 * k) % 2 ^ 64, total >>> (64 * k) % 2 ^ 64))

/-- Writes the bits of one aligned 64-bit word: `mask` bits take `v`; its errors and its repair are gone. -/
def State.spadSetWord (s : State) (d addr mask v : Nat) : State :=
  s.modDie d (fun x =>
    let w := s.spadPos d addr / 8
    let old := leVal (readBytes x.spad.mem (8 * w) 8)
    let new := (old - (old &&& mask)) + (v &&& mask)
    { x with spad := { x.spad with
        mem := writeBytes x.spad.mem (8 * w) (leBytes 8 new)
        errs := serase x.spad.errs w
        repair := x.spad.repair.filter (fun e => decide (e.2 ≠ w + 1)) } })

/-- Reads the words that writes merge with their bits (spec/07 R201, R202): the state after their error checks, and of each line that has an
uncorrectable one, its first. -/
def State.spadMerge (s : State) (d : Nat) (ws : List (Nat × Nat × Nat)) : State × List Nat :=
  if (s.die d).spad.errs = [] then (s, [])
  else
    (ws.filter (fun w => decide (w.2.1 ≠ 2 ^ 64 - 1))).foldl (fun st w =>
      let r := st.1.spadCheckWord d w.1
      (r.1, if r.2 && !st.2.any (fun a => decide (a / 64 = w.1 / 64)) then st.2 ++ [w.1] else st.2)) (s, [])

/-- Stores nbits bits from a byte address upward, leaving every other bit unchanged. Each line is one write: where a word that it merges is
uncorrectable, the write is not performed (spec/07 R201, R203). -/
def State.spadStore (s : State) (d port addr nbits v : Nat) (byPlace : Bool) : State :=
  let ws := wordsOf addr nbits v
  let c := s.spadMerge d ws
  c.2.foldl (fun t a => t.spadBad d port a byPlace)
    ((ws.filter (fun w => !c.2.any (fun a => decide (a / 64 = w.1 / 64)))).foldl (fun t w => t.spadSetWord d w.1 w.2.1 w.2.2) c.1)

/-- A word that a store merges is uncorrectable (spec/07 R201, R203). -/
def State.mergeBad (s : State) (d addr nbits v : Nat) : Bool := !(s.spadMerge d (wordsOf addr nbits v)).2.isEmpty

/-- Stores bytes. -/
def State.spadStoreBytes (s : State) (d port addr : Nat) (bs : List Byte) (byPlace : Bool) : State :=
  s.spadStore d port addr (8 * bs.length) (leVal bs) byPlace

/-- Bytes of the scratchpad from an address. -/
def State.spadBytes (s : State) (d a n : Nat) : List Byte := (List.range n).map (fun k => s.spadByte d (a + k))

-- Lanes (spec/03 R86, spec/08 R221) -----------------------------------------------------------------------------------

/-- The byte source of flits taken from a lane: flit k holds bytes 64k to 64k + 63. -/
def flitByte (fl : List Token) (i : Nat) : Byte :=
  match fl[i / 64]? with
  | some t => BitVec.ofNat 8 (t.payload.toNat >>> (8 * (i % 64)))
  | none => 0#8

/-- Puts flits on an outbound lane, flit k to leave no earlier than unstalled cycle c + k; `hdr` marks the first (spec/08 R219). -/
def State.laneOut (s : State) (d p lane c : Nat) (hdr : Bool) (flits : List (BitVec 512)) : State :=
  s.modPlace d p (fun x =>
    let l := x.lane lane
    let ts := flits.zipIdx.map (fun e => (c + e.2, ({ payload := e.1, gen := BitVec.ofNat 4 x.gen, hdr := hdr && e.2 == 0 } : Token)))
    x.setLane lane { l with out := l.out ++ ts })

/-- Bytes as 64-byte flits, the last filled with zeros. -/
def flitsOf (bs : List Byte) : List (BitVec 512) :=
  (List.range (cdiv bs.length 64)).map (fun k => BitVec.ofNat 512 (leVal ((bs.drop (64 * k)).take 64)))

-- Rows put out ------------------------------------------------------------------------------------------------------

/-- Scale bytes of one row of n elements. -/
def scaleCount (n : Nat) : Nat := cdiv n 32

/-- Blocks of 32. -/
def chunks32 {α : Type} (l : List α) : List (List α) := (List.range (cdiv l.length 32)).map (fun b => (l.drop (32 * b)).take 32)

/-- Conversion of a row of values to a format, by element or in MX blocks: the codes, the scales, the status (spec/02 R58, R75). The
NaN operands of a conversion set NAN_IN (R531). -/
def convRow (fmt mode : Nat) (sat mx : Bool) (rs : List Nat) (vs : List Val) : List Nat × List Nat × Stat :=
  if mx then
    let bs := (chunks32 (vs.zip rs)).map (fun b => mxEncode fmt mode (b.map (·.2)) (b.map (·.1)))
    (bs.flatMap (fun b => b.2.1), bs.map (·.1), bs.foldl (fun a b => a.or b.2.2) Stat.none)
  else
    let es := (vs.zip rs).map (fun p => convN (fmtD fmt) mode sat p.2 p.1)
    (es.map (·.1), [], (nanIn vs).or (statAll es))

/-- The lines of a row of w-bit codes as they go on a lane: line i in cycle `leave i`. -/
def State.laneRow (s : State) (d p lane w addr : Nat) (codes : List Nat) (leave : Nat → Nat) : State :=
  let first := addr / 64 * 64
  let whole := packElems w codes <<< (8 * (addr - first))
  (linesOf addr (cdiv (w * codes.length) 8)).zipIdx.foldl (fun t l =>
    t.laneOut d p lane (leave l.2) false [BitVec.ofNat 512 (whole >>> (8 * (l.1 - first)))]) s

/-- Puts a row of element codes and its scales out: to the scratchpad, or as the lines of the row on an outbound lane. -/
def State.putRow (s : State) (d p port lane : Nat) (dst : Bool) (w addr : Nat) (codes : List Nat) (saddr : Nat) (scales : List Nat)
    (leave : Nat → Nat) : State :=
  if dst then s.laneRow d p lane w addr codes leave
  else
    let t := s.spadStore d port addr (w * codes.length) (packElems w codes) true
    if scales = [] then t else t.spadStore d port saddr (8 * scales.length) (packElems 8 scales) true

/-- The parts of a bit range that lie in one line each: address, bits, value. -/
def lineParts (addr nbits v : Nat) : List (Nat × Nat × Nat) :=
  (linesOf addr (cdiv nbits 8)).map (fun l =>
    let a := max addr l
    let skip := 8 * (a - addr)
    (a, min (nbits - skip) (8 * (l + 64 - a)), v >>> skip))

/-- A row put out by a command under way: its lines go on the lane, or are written in cycles to come, line i at `leave i`, the line i of its
scales at `scLeave i`. -/
def State.rowOut (s : State) (d p port lane : Nat) (dst : Bool) (w addr : Nat) (codes : List Nat) (saddr : Nat) (scales : List Nat)
    (leave scLeave : Nat → Nat) : State × List (Nat × Late) :=
  if dst then (s.laneRow d p lane w addr codes leave, [])
  else
    (s, (lineParts addr (w * codes.length) (packElems w codes)).zipIdx.map (fun e => (leave e.2, .store port e.1.1 e.1.2.1 e.1.2.2)) ++
      (lineParts saddr (8 * scales.length) (packElems 8 scales)).zipIdx.map (fun e => (scLeave e.2, .store port e.1.1 e.1.2.1 e.1.2.2)))

end Sys2Proof.Machine
end

