-- ==== Sys2Proof/Machine/Streams.lean ====
section
/-! DEFINITION. Streams: the place grid, the two ends of a binding, latencies, the taking of tokens and the return of credits
(spec/08 R213-R223). -/

namespace Sys2Proof.Machine

/-- Place numbers by row, south to north, west to east (spec/08 R213). -/
def placeGrid : List (List Nat) :=
  [[0, 1, 16, 2, 3], [4, 17, 5, 18, 6], [19, 7, 24, 8, 20], [9, 21, 10, 22, 11], [12, 13, 23, 14, 15]]

/-- The place at a column and row. -/
def placeAt (col row : Nat) : Option Nat := match placeGrid[row]? with | some r => r[col]? | none => none

/-- Column and row of a place. -/
def placePos (p : Nat) : Nat × Nat :=
  ((List.range 25).map (fun i => (i % 5, i / 5))).find? (fun q => placeAt q.1 q.2 == some p) |>.getD (0, 0)

/-- The grid neighbour of a place to the north (0), east (1), south (2) or west (3) (spec/08 R214). -/
def gridNeighbour (p dir : Nat) : Option Nat :=
  let q := placePos p
  if dir = 0 then placeAt q.1 (q.2 + 1)
  else if dir = 1 then placeAt (q.1 + 1) q.2
  else if dir = 2 then (if q.2 = 0 then none else placeAt q.1 (q.2 - 1))
  else (if q.1 = 0 then none else placeAt (q.1 - 1) q.2)

/-- Places of the side channels 0-3 of a side: 0 N, 1 E, 2 S, 3 W (spec/08 R215). -/
def sidePlaces (side : Nat) : List Nat :=
  if side = 0 then [12, 13, 14, 15] else if side = 1 then [3, 6, 11, 15] else if side = 2 then [0, 1, 2, 3] else [0, 4, 9, 12]

/-- Channel of a place on a side. -/
def sideChannel (side p : Nat) : Option Nat := ((sidePlaces side).zipIdx.find? (fun e => e.1 == p)).map (·.2)

/-- Opposite direction or side. -/
def opposite (dir : Nat) : Nat := (dir + 2) % 4

/-- Logical neighbour of a site on a side. -/
def siteNeighbour (site side : Nat) : Option Nat :=
  let x := site % 32
  let y := site / 32
  if side = 0 then (if y < 15 then some (site + 32) else none)
  else if side = 1 then (if x < 31 then some (site + 1) else none)
  else if side = 2 then (if 0 < y then some (site - 32) else none)
  else (if 0 < x then some (site - 1) else none)

/-- The logical link between two adjacent sites has a route (spec/01 R39, R42). -/
def State.hasRoute (s : State) (a b : Nat) : Bool :=
  let lo := min a b
  let east := decide (max a b = lo + 1)
  s.pcd.routes.any (fun r => r.lo == lo && r.east == east)

/-- Port of router u's link to router v (spec/11 R341). -/
def portTo (u v : Nat) : Option Nat :=
  if v = u + 36 then some 0 else if v = u + 1 then some 1 else if u = v + 36 then some 2 else if u = v + 1 then some 3
  else if v = u + 72 then some 4 else if v = u + 2 then some 5 else if u = v + 72 then some 6 else if u = v + 2 then some 7
  else none

/-- Routers of the route of the logical link on a side of a site, from that site outward; none without a route (spec/01 R39). -/
def State.sideRoute (s : State) (d side : Nat) : Option (List Nat) :=
  match s.nodeSite d with
  | none => none
  | some i =>
    match siteNeighbour i side with
    | none => none
    | some j =>
      match s.pcd.routes.find? (fun r => decide (r.lo = min i j) && decide (r.east = decide (side % 2 = 1))), s.siteNode j with
      | some r, some e => some (match r.via with | some v => [d, v, e] | none => [d, e])
      | _, _ => none

/-- Port by which the route on a side reaches a site's router; the neighbour link of that side where it has none. -/
def State.sidePort (s : State) (d side : Nat) : Nat :=
  match s.sideRoute d side with
  | some (_ :: v :: _) => (portTo d v).getD side
  | _ => side

/-- Binding field of a lane (spec/08 R218): enable, port, wire, credits. -/
def State.bindOf (s : State) (d p lane : Nat) : Nat := bits (s.rg d (CD_PL_BIND p)) (16 * lane + 15) (16 * lane)
def bindEn (b : Nat) : Bool := b.testBit 15
def bindPort (b : Nat) : Nat := bits b 14 12
def bindWire (b : Nat) : Nat := bits b 11 11
def bindCred (b : Nat) : Nat := bits b 7 0

/-- Latency of a stream: 12 cycles on the die, 12 + 40 over a side channel (spec/08 R220, spec/11 R320). -/
def lambdaOf (b : Nat) : Nat := if bindPort b < 4 then 12 else 52

/-- Die and place that a lane field of a place faces (spec/08 R214-R216). -/
def State.facing (s : State) (d p b : Nat) : Option (Nat × Nat) :=
  let port := bindPort b
  if port < 4 then (gridNeighbour p port).map (fun q => (d, q))
  else
    match sideChannel (port - 4) p, s.nodeSite d with
    | some k, some site =>
      match siteNeighbour site (port - 4) with
      | some nb =>
        if s.hasRoute site nb then
          match s.siteNode nb, (sidePlaces (opposite (port - 4)))[k]? with
          | some d', some q => some (d', q)
          | _, _ => none
        else none
      | none => none
    | _, _ => none

/-- The field that mirrors b at the other end: the opposite port, the same wire, the same credits (spec/08 R218). -/
def mirrors (b c : Nat) : Bool :=
  bindEn c && bindPort c == (if bindPort b < 4 then opposite (bindPort b) else 4 + opposite (bindPort b - 4)) &&
    bindWire c == bindWire b && bindCred c == bindCred b

/-- The other end of a bound lane: die, place, lane. An inbound lane (0, 1) meets an outbound one (2, 3). -/
def State.peer (s : State) (d p lane : Nat) : Option (Nat × Nat × Nat) :=
  let b := s.bindOf d p lane
  if bindEn b then
    match s.facing d p b with
    | some (d', q) =>
      ((if lane < 2 then [2, 3] else [0, 1]).find? (fun l => mirrors b (s.bindOf d' q l))).map (fun l => (d', q, l))
    | none => none
  else none

/-- Takes up to n tokens off an inbound lane; each take's credit returns to the source λ cycles later (spec/08 R221). -/
def State.laneTake (s : State) (d p lane n : Nat) : State × List Token :=
  let l := (s.place d p).lane lane
  let got := l.q.take n
  let s1 := s.modPlace d p (fun x => x.setLane lane { l with q := l.q.drop n })
  let s2 := match s.peer d p lane with
    | some (d', q, m) =>
      s1.modPlace d' q (fun x =>
        let o := x.lane m
        x.setLane m { o with retAt := o.retAt ++ got.map (fun _ => s.ccountOf d + lambdaOf (s.bindOf d p lane)) })
    | none => s1
  (s2, got)

/-- A command of a place is under way from the present cycle on (spec/03 R87), with what its pipeline has to write. -/
def State.launch (s : State) (d p : Nat) (cmd : RunCmd) (late : List (Nat × Late)) : State :=
  s.modDie d (fun x => { x with runs := x.runs ++ [{ place := p, cmd := cmd, t := x.cyc, slot := (x.place p).slot, entry := (x.place p).entry,
                                                     cut := if (x.place p).st = .halted then some x.cyc else none, got := [], gotSc := [], late := late }] })

/-- An inbound lane holds n tokens. -/
def State.laneHas (s : State) (d p lane n : Nat) : Bool := decide (n ≤ ((s.place d p).lane lane).q.length)

/-- A scratchpad line as stored. -/
def State.lineAt (s : State) (d a : Nat) : BitVec 512 := BitVec.ofNat 512 (leVal (s.spadBytes d (a / 64 * 64) 64))

/-- A byte of the lines that a command has read or taken, the newest reading of its line. -/
def gotByte (got : List (Nat × BitVec 512)) (a : Nat) : Byte :=
  match got.find? (fun e => decide (e.1 = a / 64 * 64)) with
  | some e => BitVec.ofNat 8 (e.2.toNat >>> (8 * (a % 64)))
  | none => 0#8

/-- Reads a line by a scheduled port in the present cycle (spec/07 R196, R202, R203): the state after its error check, and the line; none
where a word of it is uncorrectable, which halts every place. -/
def State.lineRead (s : State) (d port a : Nat) : State × Option (BitVec 512) :=
  let c := (s.bumpPerf d CD_SPAD_ACCESS 1).spadCheckLines d [a / 64 * 64]
  match c.2 with
  | some l => (c.1.spadBad d port l true, none)
  | none => (c.1, some (c.1.lineAt d a))

/-- The line a command takes in a cycle: a flit of its lane (absent: the state and none, which a held cycle rules out), or a line read. -/
def State.lineTake (s : State) (d p : Nat) (src : Bool) (lane port a : Nat) : State × Option (BitVec 512) :=
  if src then
    let g := s.laneTake d p lane 1
    (g.1, g.2.head?.map (fun t => t.payload))
  else s.lineRead d port a

end Sys2Proof.Machine
end

