-- ==== Sys2Proof/Machine/Mcore.lean ====
section
/-! DEFINITION. The M-core's commands (spec/03, spec/04). A command that the sequencer issues is under way from its issue on, and reads,
writes and checks in the cycles the rules state (R87). A row of the table is one whole step of the part (spec/95): LOADW, READOUT, ZERO and
REDUCE then take their whole effect at once, unless they wait for tokens of a lane (log entry 4). -/

namespace Sys2Proof.Machine

-- Accumulator buffer --------------------------------------------------------------------------------------------------

/-- Element n of accumulator row r (spec/03 R108). -/
def Mcore.elem (m : Mcore) (r n : Nat) : W32 := sget 0#32 m.acc (64 * r + n)
/-- An element written: its errors go with it (spec/03 R109). -/
def Mcore.setElem (m : Mcore) (r n : Nat) (v : W32) : Mcore :=
  { m with acc := nput 0#32 m.acc (64 * r + n) v, accErr := serase m.accErr (64 * r + n) }
/-- Elements of a row written from element n upward. -/
def Mcore.setRow (m : Mcore) (r : Nat) : Nat → List W32 → Mcore
  | _, [] => m
  | n, v :: l => (m.setElem r n v).setRow r (n + 1) l
/-- The tag of a row (spec/04 R129). -/
def Mcore.tag (m : Mcore) (r : Nat) : Nat := sget 0 m.tags r
def Mcore.setTag (m : Mcore) (r t : Nat) : Mcore := { m with tags := nput 0 m.tags r t }
/-- Tags of rows r to r + n - 1 set. -/
def Mcore.setTags (m : Mcore) (r n t : Nat) : Mcore := (List.range n).foldl (fun x i => x.setTag (r + i) t) m

/-- Reads n elements from buffer element k: the state after the error checks, the values, and whether one was uncorrectable
(spec/03 R109). -/
def State.accReadAt (s : State) (d c k n : Nat) : State × List W32 × Bool :=
  let m := s.mc d c
  let el := fun (i : Nat) => sget 0#32 m.acc (k + i)
  if m.accErr = [] then (s, (List.range n).map el, false)
  else
    (List.range n).foldl (fun (st : State × List W32 × Bool) i =>
      let j := (eccJudge (sget 0 m.accErr (k + i)), st.1)
      match j.1 with
      | .ok => (j.2, st.2.1 ++ [el i], st.2.2)
      | .corr => (j.2.bumpErr d (CD_MC_ECC_CORR c) (CD_MC_STATUS c) 29 1, st.2.1 ++ [el i], st.2.2)
      | .bad => (j.2, st.2.1 ++ [0#32], true)
      | .altered q v => (if q then j.2.bumpErr d (CD_MC_ECC_CORR c) (CD_MC_STATUS c) 29 1 else j.2,
          st.2.1 ++ [el i ^^^ BitVec.ofNat 32 v], st.2.2)) (s, [], false)
/-- Reads elements 0 to n - 1 of a row. -/
def State.accRead (s : State) (d c r n : Nat) : State × List W32 × Bool := s.accReadAt d c (64 * r) n

/-- An uncorrectable accumulator element (spec/03 R109, R120): KIND 2 with the row; the job fails with 0x2102. -/
def State.accFault (s : State) (d c r : Nat) : State := s.mcFault d c 2 0 r 0 0 0x2102 (unitSram d (128 + c) r)

-- Rows of operands ----------------------------------------------------------------------------------------------------

/-- Addresses of rows. -/
def rowAddrs (a stride n : Nat) : List Nat := (List.range n).map (fun i => a + i * stride)

/-- Byte source of a tile: the scratchpad, or the flits of a lane that carry the lines listed. -/
def State.byteSrc (s : State) (d : Nat) (flits : Option (List Token)) (lines : List Nat) : Nat → Byte :=
  match flits with
  | none => s.spadByte d
  | some fl => fun a => flitByte fl (64 * lines.idxOf (a / 64 * 64) + a % 64)

/-- Elements of a row at a byte address. -/
def rowElems (src : Nat → Byte) (w a n : Nat) : List Nat := (List.range n).map (elemAt (fun i => src (a + i)) w)

-- LOADW (spec/03 R90-R98) ---------------------------------------------------------------------------------------------

/-- Byte ranges of the scales of a stationary tile (spec/03 R92). -/
def loadwScales (c : LoadwCmd) : List (Nat × Nat) :=
  if c.mx then
    if c.mxdir then (List.range (cdiv (c.rowsM1.toNat + 1) 32)).map (fun b => (c.scaleAddr.toNat + b * c.sstride.toNat, 64))
    else (rowAddrs c.scaleAddr.toNat c.sstride.toNat (c.rowsM1.toNat + 1)).map (fun a => (a, 2))
  else []

/-- Lines of the tile, then of its scales, each once (spec/03 R95). -/
def loadwLines (c : LoadwCmd) : List Nat × List Nat :=
  let bytes := rowBytes (fmtW c.fmt.toNat) (c.colsM1.toNat + 1)
  (sortUniq ((rowAddrs c.addr.toNat c.stride.toNat (c.rowsM1.toNat + 1)).flatMap (fun a => linesOf a bytes)),
   sortUniq ((loadwScales c).flatMap (fun p => linesOf p.1 p.2)))

/-- L, the number of line reads or flits (spec/03 R95). -/
def loadwL (c : LoadwCmd) : Nat := (loadwLines c).1.length + (loadwLines c).2.length

/-- Line reads of a LOADW from the scratchpad issued at unstalled cycle t (spec/03 R95). -/
def loadwAccs (c : LoadwCmd) (k t : Nat) : List Acc :=
  ((loadwLines c).1 ++ (loadwLines c).2).zipIdx.map (fun e => { cyc := t + e.2, port := 4 * k, addr := e.1 })

/-- Command fault causes of a LOADW (spec/03 R102). -/
def State.loadwCause (s : State) (d k : Nat) (c : LoadwCmd) : Option Nat :=
  let f := c.fmt.toNat
  let bytes := rowBytes (fmtW f) (c.colsM1.toNat + 1)
  let rows := rowAddrs c.addr.toNat c.stride.toNat (c.rowsM1.toNat + 1)
  lowestCause [
    (decide (11 ≤ f), 2),
    (c.mx && !mxOk f, 4),
    (decide (c.stride.toNat % 16 ≠ 0) || !rows.all (fun a => rowOk a bytes), 6),
    (!c.src && !(rows.all (fun a => s.spadRangeOk d a bytes) && (loadwScales c).all (fun p => s.spadRangeOk d p.1 p.2)), 7),
    (decide ((s.die d).cyc < (s.mc d k).loadUntil), 9),
    (c.rsv, 12)]

/-- The value of element (i, j) of a tile under R56. -/
def Tile.val (t : Tile) (i j : Nat) : Val :=
  let code := (t.cells[t.cols * i + j]?).getD 0
  if t.mx then
    mxVal t.fmt ((t.scales[(if t.mxdir then 64 * (i / 32) + j else 2 * i + j / 32)]?).getD 127) code
  else decodeN (fmtD t.fmt) code

/-- The checksum vectors of a tile (spec/03 R96): c and a by the plain tree over j, r and q by sequential addition over i. -/
def Tile.checksums (t : Tile) : Tile :=
  let row := fun i => (List.range t.cols).map (t.val i)
  let col := fun j => (List.range t.rows).map (fun i => t.val i j)
  { t with
    c := (List.range t.rows).map (fun i => code32 (plainTree (row i)).1)
    a := (List.range t.rows).map (fun i => code32 (plainTree ((row i).map Val.abs)).1)
    r := (List.range t.cols).map (fun j => code32 (chain (col j)).1)
    q := (List.range t.cols).map (fun j => code32 (chain ((col j).map Val.abs)).1) }

/-- The tile that a LOADW reads (spec/03 R90, R92). -/
def loadwTile (c : LoadwCmd) (src scaleSrc : Nat → Byte) : Tile :=
  let f := c.fmt.toNat
  let rows := c.rowsM1.toNat + 1
  let cols := c.colsM1.toNat + 1
  let cells := (rowAddrs c.addr.toNat c.stride.toNat rows).flatMap (fun a => rowElems src (fmtW f) a cols)
  let scales := (loadwScales c).flatMap (fun p => (List.range p.2).map (fun i => (scaleSrc (p.1 + i)).toNat))
  Tile.checksums { fmt := f, mx := c.mx, mxdir := c.mxdir, rows := rows, cols := cols, cells := cells, scales := scales,
                   c := [], a := [], r := [], q := [] }

/-- A LOADW with its operand at hand, issued at unstalled cycle t (spec/03 R95-R98): the shadow takes the tile and is ready at
t + L + 10. -/
def State.loadwDo (s : State) (d k : Nat) (c : LoadwCmd) (t : Nat) (flits : Option (List Token)) : State :=
  let ln := loadwLines c
  let r := match flits with
    | none => s.schedRead d (loadwAccs c k t)
    | some _ => (s, true)
  if r.2 then
    let s1 := r.1
    let src := s1.byteSrc d flits ln.1
    let ssrc := s1.byteSrc d (flits.map (fun l => l.drop ln.1.length)) ln.2
    s1.setMc d k { s1.mc d k with shadow := some (loadwTile c src ssrc), shadowReady := false, loadUntil := t + loadwL c + 10 }
  else r.1

/-- A LOADW under way (spec/03 R97, R98): the load unit is busy for L + 10 cycles, and the earlier shadow tile is gone. -/
def State.loadwGo (s : State) (d k : Nat) (c : LoadwCmd) : State :=
  (s.setMc d k { s.mc d k with shadow := none, shadowReady := false, loadUntil := (s.die d).cyc + loadwL c + 10 }).launch d k (.loadw c) []

/-- LOADW (spec/03 R95-R98, R102), `whole` as one step with its operand at hand. From a lane it takes L flits (R86). -/
def State.loadw (s : State) (d k : Nat) (c : LoadwCmd) (whole : Bool) : State :=
  if s.canIssue d k then
    match s.loadwCause d k c with
    | some n => s.mcCmdFault d k n 0
    | none =>
      if whole && !c.src then s.loadwDo d k c (s.die d).cyc none
      else if whole && s.laneHas d k (b2n c.lane) (loadwL c) then
        let got := s.laneTake d k (b2n c.lane) (loadwL c)
        got.1.loadwDo d k c (s.die d).cyc (some got.2)
      else s.loadwGo d k c
  else s

/-- Cycle n of a LOADW (spec/03 R95, R96): it takes line n; with the last one the tile stands in the shadow registers. -/
def State.loadwStep (s : State) (d : Nat) (r : Run) (c : LoadwCmd) (n : Nat) : State × Run :=
  let ln := loadwLines c
  match (ln.1 ++ ln.2)[n]? with
  | none => (s, r)
  | some a =>
    let q := s.lineTake d r.place c.src (b2n c.lane) (4 * r.place) a
    match q.2 with
    | none => (q.1, r)
    | some v =>
      let r1 := if n < ln.1.length then { r with got := (a, v) :: r.got } else { r with gotSc := (a, v) :: r.gotSc }
      if n + 1 = loadwL c then
        (q.1.setMc d r.place { q.1.mc d r.place with shadow := some (loadwTile c (gotByte r1.got) (gotByte r1.gotSc)), shadowReady := false }, r1)
      else (q.1, r1)

/-- The shadow becomes ready L + 10 cycles after the LOADW (spec/03 R97); the load unit is free. -/
def State.shadowReadyNow (s : State) (d k : Nat) : State :=
  let m := s.mc d k
  if m.shadow.isSome then s.setMc d k { m with shadowReady := true, loadUntil := min m.loadUntil (s.die d).cyc } else s

-- STREAM (spec/03 R97A-R106, R113-R118) -------------------------------------------------------------------------------

/-- One row of a pass: its number, the slot in which it completes, its address. -/
structure PassRow where
  m : Nat
  slot : Nat
  addr : Nat
deriving DecidableEq, Repr, Inhabited

/-- Slots of a pass (spec/03 R103): the rows with their completing slots, the line reads (slot, line), the slot of each row's scales,
and S. `cls` is the rate class in bits. -/
def passLayout (cls bytes : Nat) (addrs : List Nat) : List PassRow × List (Nat × Nat) × List (Nat × Nat) × Nat :=
  if 8 ≤ cls then
    let r := if cls = 32 then 8 else if cls = 16 then 2 else 1
    (addrs.zipIdx.map (fun e => { m := e.2, slot := r * e.2 + r - 1, addr := e.1 }),
     addrs.zipIdx.flatMap (fun e => (linesOf e.1 bytes).zipIdx.map (fun l => (r * e.2 + l.2, l.1))),
     addrs.zipIdx.map (fun e => (r * e.2, e.2)), r * addrs.length)
  else
    let g := if cls = 4 then 2 else 4
    (List.range (cdiv addrs.length g)).foldl (fun st k =>
      let rows := (addrs.drop (g * k)).take g
      let lines := sortUniq (rows.map (fun a => a / 64 * 64))
      let base := st.2.2.2
      (st.1 ++ rows.zipIdx.map (fun e => { m := g * k + e.2, slot := base + lines.idxOf (e.1 / 64 * 64), addr := e.1 }),
       st.2.1 ++ lines.zipIdx.map (fun l => (base + l.2, l.1)),
       st.2.2.1 ++ rows.zipIdx.map (fun e => (base + lines.idxOf (e.1 / 64 * 64), g * k + e.2)),
       base + lines.length)) ([], [], [], 0)

/-- The tile a STREAM reads (spec/03 R83): the shadow under SWAP, else the active one. -/
def Mcore.streamTile (m : Mcore) (swap : Bool) : Option Tile :=
  if swap then (if m.shadowReady then m.shadow else none) else m.active

/-- The layout of a STREAM against a tile. -/
def streamLayout (c : StreamCmd) (t : Tile) : List PassRow × List (Nat × Nat) × List (Nat × Nat) × Nat :=
  let kp := if c.read then t.cols else t.rows
  let cls := max (rateBits c.fmt.toNat) (rateBits t.fmt)
  passLayout cls (rowBytes (fmtW c.fmt.toNat) kp) (rowAddrs c.addr.toNat c.stride.toNat (c.mrowsM1.toNat + 1))

/-- Scale byte ranges of the rows of a STREAM: (slot, address, bytes) (spec/03 R92, R105); a row of 32 elements or fewer has one scale
(log entry 84). -/
def streamScales (c : StreamCmd) (t : Tile) : List (Nat × Nat × Nat) :=
  if c.mx then
    let kp := if c.read then t.cols else t.rows
    (streamLayout c t).2.2.1.map (fun e => (e.1, c.scaleAddr.toNat + e.2 * c.sstride.toNat, cdiv kp 32))
  else []

/-- The scales of one slot's rows lie in one line (spec/03 R105). -/
def scalesOneLine (l : List (Nat × Nat × Nat)) : Bool :=
  l.all (fun e => decide (e.2.1 % 64 + e.2.2 ≤ 64) && l.all (fun f => decide (e.1 ≠ f.1) || decide (e.2.1 / 64 = f.2.1 / 64)))

/-- Command fault causes of a STREAM (spec/03 R102, spec/04 R139). Log entry 84: without an active tile causes 3, 5 and 6 are not judged on one;
ADDR and STRIDE of a lane's STREAM fall under cause 6, not 7. -/
def State.streamCause (s : State) (d k : Nat) (c : StreamCmd) : Option Nat :=
  let m := s.mc d k
  let f := c.fmt.toNat
  let rows := c.mrowsM1.toNat + 1
  let r0 := c.accRow.toNat
  let addrs := rowAddrs c.addr.toNat c.stride.toNat rows
  let base := [
    (decide (11 ≤ f), 2),
    (c.mx && !mxOk f, 4),
    (decide (c.stride.toNat % 16 ≠ 0), 6),
    (decide (1024 < r0 + rows), 8),
    (decide ((s.die d).cyc < m.arrayUntil), 9),
    (c.swap && (m.streamTile true).isNone, 10),
    (!c.swap && m.active.isNone, 11),
    (c.rsv, 12),
    (c.acc && (List.range rows).any (fun i => decide (m.tag (r0 + i) ≠ c.gtag.toNat)), 13)]
  let more := match m.streamTile c.swap with
    | none => [(!c.src && !addrs.all (fun a => s.spadOk d a), 7)]
    | some t =>
      let bytes := rowBytes (fmtW f) (if c.read then t.cols else t.rows)
      [(!pairOk f t.fmt, 3),
       (t.mx && (t.mxdir == c.read), 5),
       (!addrs.all (fun a => rowOk a bytes) || !scalesOneLine (streamScales c t), 6),
       (!(c.src || addrs.all (fun a => s.spadRangeOk d a bytes)) || !(streamScales c t).all (fun e => s.spadRangeOk d e.2.1 e.2.2), 7)]
  lowestCause (base ++ more)

/-- A block result of formats of 8 bits or fewer (spec/02 R69): the exact sum rounded once; a zero sum is +0. -/
def blockNarrow (ints : Bool) (ps : List (Val × Val)) : Val × Stat :=
  let prods := ps.map (fun p => let x := mulV p.1 p.2; (x.1, (nanIn [p.1, p.2]).or x.2))
  let sum := prods.foldl (fun a p => let x := addV a.1 p.1; (x.1, (a.2.or p.2).or x.2)) (Val.zero, Stat.none)
  -- where a NaN operand stands in the block, the result is that operand's NaN, not one produced
  let st := if ps.any (fun p => p.1.isNan || p.2.isNan) then stFlag fNanIn else sum.2
  let c := convF b32 0 false 0 sum.1
  let v := decodeF b32 c.1
  if sum.1.isZero then (Val.zero, st) else (v, (st.or c.2).or (stIf (ints && !eqV v sum.1) fInexactInt))

/-- A block result of 16- and 32-bit formats (spec/02 R73): rounded products through the tree of the read direction. -/
def blockWide (transposed : Bool) (ps : List (Val × Val)) : Val × Stat :=
  let prods := ps.map (fun p => mul32 p.1 p.2)
  let st := prods.foldl (fun a p => a.or p.2) Stat.none
  let t := if transposed then transTree (prods.map (·.1)) else plainTree (prods.map (·.1))
  (t.1, st.or t.2.inner)

/-- The result of one streaming row against one output index (spec/02 R69, R73). -/
def blockOf (c : StreamCmd) (t : Tile) (ps : List (Val × Val)) : Val × Stat :=
  if narrow c.fmt.toNat && narrow t.fmt then
    blockNarrow ((fmtD c.fmt.toNat).isInt && (fmtD t.fmt).isInt && !c.mx && !t.mx) ps
  else blockWide c.read ps

/-- A STREAM of INT8, INT4 or INT2 operands without MX (spec/02 R531). -/
def intPass (c : StreamCmd) (t : Tile) : Bool := (fmtD c.fmt.toNat).isInt && (fmtD t.fmt).isInt && !c.mx && !t.mx

/-- What one streaming row gives before the accumulator adder: the block results, their status, and the sum check's D, S and A
(spec/03 R97A, R113). -/
structure RowOut where
  bs : List Val
  stat : Stat
  dSum : Val
  sSum : Val
  aSum : Val
deriving Repr, Inhabited

/-- One streaming row of a pass. -/
def streamRow (c : StreamCmd) (t : Tile) (xs : List Val) : RowOut :=
  let kp := if c.read then t.cols else t.rows
  let np := if c.read then t.rows else t.cols
  let bs := (List.range np).map (fun n =>
    blockOf c t ((List.range kp).map (fun k => ((xs[k]?).getD Val.zero, if c.read then t.val n k else t.val k n))))
  let ck := if c.read then t.r else t.c
  let am := if c.read then t.q else t.a
  let dot := fun (ys : List Val) (ws : List W32) =>
    (plainTree ((List.range kp).map (fun k => (mul32 ((ys[k]?).getD Val.zero) (val32 ((ws[k]?).getD 0#32))).1))).1
  { bs := bs.map (·.1)
    stat := bs.foldl (fun a e => a.or e.2) Stat.none
    dSum := (plainTree (bs.map (·.1))).1
    sSum := dot xs ck
    aSum := dot (xs.map Val.abs) am }

/-- The accumulator adder on one element (spec/02 R70, R531): C plus the block result, and what the addition sets. A NaN block result is no
operand's NaN; an integer pass is inexact where the sum of numbers is. -/
def accSum (ints : Bool) (c0 b : Val) : W32 × Stat :=
  let y := add32 c0 b
  let st := if b.isNan && !c0.isNan then Stat.none else y.2
  (code32 y.1, st.or (stIf (ints && !c0.isNan && !b.isNan && !eqV y.1 (addV c0 b).1) fInexactInt))

/-- The sum check of a row (spec/03 R113-R115, R118): skipped, passed, or failed with |D - S| and τ. -/
inductive SumCheck where
  | skip
  | pass
  | fail (diff tol : W32)
deriving DecidableEq, Repr, Inhabited

/-- The check on D, S and A; `fin`: every block result is finite. -/
def sumCheck (fin : Bool) (dSum sSum aSum : Val) (inject : Bool) : SumCheck :=
  if !(fin && dSum.isFin && sSum.isFin && aSum.isFin) then .skip
  else
    let floor : Val := .fin false 1 (-100)
    let tau := (if ltV aSum floor then floor else aSum).scale (-16)
    let s' := if inject then (add32 sSum (tau.scale 1)).1 else sSum
    let diff := (add32 dSum s'.neg).1.abs
    if ltV tau diff then .fail (code32 diff) (code32 tau) else .pass

/-- STREAM (spec/03 R83, R97A, R102, R103). It has no row in the table: the sequencer issues it. The swap takes place at its issue; the tags of
its rows change in the next cycle (spec/04 R129). -/
def State.stream (s : State) (d k : Nat) (c : StreamCmd) : State :=
  if s.canIssue d k then
    match s.streamCause d k c, (s.mc d k).streamTile c.swap with
    | some n, _ => s.mcCmdFault d k n 0
    | none, none => s
    | none, some tile =>
      let m := s.mc d k
      let t := (s.die d).cyc
      let m1 : Mcore := { m with
        active := some tile
        shadow := if c.swap then none else m.shadow
        shadowReady := if c.swap then false else m.shadowReady
        arrayUntil := t + (streamLayout c tile).2.2.2 }
      (s.setMc d k m1).launch d k (.stream c tile) (if c.acc then [] else [(t, .tags c.accRow.toNat (c.mrowsM1.toNat + 1) c.gtag.toNat false)])
  else s

/-- The values of streaming row p from the lines read (spec/03 R91, R92). -/
def passVals (c : StreamCmd) (t : Tile) (p : PassRow) (src scs : Nat → Byte) : List Val :=
  (rowElems src (fmtW c.fmt.toNat) p.addr (if c.read then t.cols else t.rows)).zipIdx.map (fun e =>
    if c.mx then mxVal c.fmt.toNat (scs (c.scaleAddr.toNat + p.m * c.sstride.toNat + e.2 / 32)).toNat e.1 else decodeN (fmtD c.fmt.toNat) e.1)

/-- What the pipeline has to do for a row that completes in cycle u (spec/03 R104): its results at u + 24, its check at u + 28. -/
def passLate (c : StreamCmd) (t : Tile) (p : PassRow) (u : Nat) (last : Bool) (src scs : Nat → Byte) : List (Nat × Late) :=
  let o := streamRow c t (passVals c t p src scs)
  [(u + 24, .result (c.accRow.toNat + p.m) p.m c.acc (intPass c t) (o.bs.map code32) o.stat.flags o.stat.sats last),
   (u + 28, .check p.m (o.bs.all Val.isFin) (code32 o.dSum) (code32 o.sSum) (code32 o.aSum))]

/-- Slot n of a pass, in the present cycle (spec/03 R103-R105): its line, the scales of its rows, and the rows that complete in it. -/
def State.streamStep (s : State) (d : Nat) (r : Run) (c : StreamCmd) (t : Tile) (n : Nat) : State × Run :=
  let lay := streamLayout c t
  let u := (s.die d).cyc
  if lay.2.2.2 ≤ n then (s, r)
  else
    let s0 := s.bumpPerf d (CD_MC_BUSY r.place) 1
    let q := match lay.2.1.find? (fun e => decide (e.1 = n)) with
      | some e =>
        let x := s0.lineTake d r.place c.src (b2n c.lane) (4 * r.place + 1) e.2
        (x.1, x.2.map (fun v => { r with got := ((e.2, v) :: r.got).take 8 }))
      | none => (s0, some r)
    let w := match (streamScales c t).find? (fun e => decide (e.1 = n)), q.2 with
      | some e, some r1 =>
        let x := q.1.lineRead d (4 * r.place + 2) e.2.1
        (x.1, x.2.map (fun v => { r1 with gotSc := ((e.2.1 / 64 * 64, v) :: r1.gotSc).take 8 }))
      | _, _ => q
    match w.2 with
    | none => (w.1, r)
    | some r2 =>
      (w.1, { r2 with late := r2.late ++ (lay.1.filter (fun p => decide (p.slot = n))).flatMap (fun p =>
        passLate c t p u (decide (p.m + 1 = lay.1.length)) (gotByte r2.got) (gotByte r2.gotSc)) })

/-- The results of a row reach its accumulator row (spec/03 R97A, R104, R107): ACC = 1 adds to what stands there. An uncorrectable element of
it leaves the row as it was (log entry 34). -/
def State.resultIn (s : State) (d : Nat) (r : Run) (row : Nat) (acc ints : Bool) (bs : List W32) (flags sats : Nat) (last : Bool) : State :=
  let k := r.place
  let rd := if acc then s.accRead d k row bs.length else (s, bs.map (fun _ => 0#32), false)
  if rd.2.2 then rd.1.mcFaultAt d k r.slot r.entry 2 0 row 0 0 0x2102 (unitSram d (128 + k) row)
  else
    let sums := (rd.2.1.zip bs).map (fun e => accSum ints (val32 e.1) (val32 e.2))
    let s1 := (rd.1.setMc d k ((rd.1.mc d k).setRow row 0 (sums.map (·.1)))).arith d
      (sums.foldl (fun a e => a.or e.2) { flags := flags, sats := sats })
    if last then s1.bumpPerf d (CD_MC_PASSES k) 1 else s1

/-- The check of a row (spec/03 R114-R118). -/
def State.checkRow (s : State) (d : Nat) (r : Run) (m : Nat) (fin : Bool) (dS sS aS : W32) : State :=
  let k := r.place
  match sumCheck fin (val32 dS) (val32 sS) (val32 aS) ((s.die d).inject.testBit k) with
  | .skip => s.bumpErr d (CD_MC_SUMCHK_SKIP k) (CD_MC_STATUS k) 30 1
  | .pass => s.modDie d (fun x => { x with inject := x.inject - (x.inject &&& 2 ^ k) })
  | .fail diff tol =>
    ((s.modDie d (fun x => { x with inject := x.inject - (x.inject &&& 2 ^ k) })).bumpErr d (CD_MC_SUMCHK_COUNT k) (CD_MC_STATUS k) 31 1).mcFaultAt
      d k r.slot r.entry 1 0 m diff.toNat tol.toNat 0x2101 (unitDie d)

/-- Buffer writes of the array unit still to come: cycle, row, elements (spec/03 R104, spec/04 R137). -/
def State.arrPending (s : State) (d k : Nat) : List (Nat × Nat × Nat) :=
  (s.die d).runs.flatMap (fun r => if r.place ≠ k then [] else match r.cmd with
    | .stream c t => (streamLayout c t).1.filterMap (fun p =>
        let u := r.t + p.slot
        if decide ((s.die d).cyc ≤ u + 24) && (match r.cut with | some b => decide (u ≤ b) | none => true) then
          some (u + 24, c.accRow.toNat + p.m, if c.read then t.rows else t.cols)
        else none)
    | _ => [])

-- READOUT, ZERO (spec/03 R100, R101, R106) ----------------------------------------------------------------------------

/-- Slots of one READOUT row (spec/03 R106). -/
def readoutW (c : ReadoutCmd) : Nat := max 1 (cdiv (rowBytes (fmtW c.fmt.toNat) (c.colsM1.toNat + 1)) 64) + b2n c.mx

/-- Command fault causes of a READOUT (spec/03 R100, R102). -/
def State.readoutCause (s : State) (d k : Nat) (c : ReadoutCmd) : Option Nat :=
  let f := c.fmt.toNat
  let cols := c.colsM1.toNat + 1
  let rows := c.nrowsM1.toNat + 1
  let bytes := rowBytes (fmtW f) cols
  let addrs := rowAddrs c.addr.toNat c.stride.toNat rows
  let scs := if c.mx then rowAddrs c.scaleAddr.toNat c.sstride.toNat rows else []
  lowestCause [
    (decide (11 ≤ f) || decide (c.rmode.toNat = 3), 2),
    (c.mx && (!mxOk f || c.dst), 4),
    (decide (c.stride.toNat % 16 ≠ 0) || !addrs.all (fun a => rowOk a bytes) || !scs.all (fun a => decide (a % 64 + scaleCount cols ≤ 64)), 6),
    (!c.dst && !(addrs.all (fun a => s.spadRangeOk d a bytes) && scs.all (fun a => s.spadRangeOk d a (scaleCount cols))), 7),
    (decide (1024 < c.accRow.toNat + rows), 8),
    (decide ((s.die d).cyc < (s.mc d k).outUntil), 9),
    (c.rsv, 12)]

/-- Line writes of a READOUT issued at unstalled cycle t (spec/03 R106); none where it goes to a lane. -/
def readoutAccs (c : ReadoutCmd) (k t : Nat) : List Acc :=
  let rw := readoutW c
  if c.dst then [] else
    (List.range (c.nrowsM1.toNat + 1)).flatMap (fun n =>
      (linesOf (c.addr.toNat + n * c.stride.toNat) (rowBytes (fmtW c.fmt.toNat) (c.colsM1.toNat + 1))).zipIdx.map (fun e =>
        ({ cyc := t + rw * n + 8 + e.2, port := 4 * k + 3, addr := e.1 } : Acc)) ++
      (if c.mx then [({ cyc := t + rw * n + 8 + rw - 1, port := 4 * k + 3, addr := c.scaleAddr.toNat + n * c.sstride.toNat } : Acc)] else []))

/-- Reads and converts row n of a READOUT (spec/03 R100, R106): the state, and the codes and scales; none where an element is uncorrectable,
which halts the place and leaves this row and the later ones unread (log entry 34). -/
def State.readoutRow (s : State) (d k : Nat) (c : ReadoutCmd) (n turn cmd : Nat) : State × Option (List Nat × List Nat) :=
  let cols := c.colsM1.toNat + 1
  let row := c.accRow.toNat + n
  let rd := s.accRead d k row cols
  if rd.2.2 then (rd.1.mcFaultAt d k turn cmd 2 0 row 0 0 0x2102 (unitSram d (128 + k) row), none)
  else
    let dr := rd.1.drawsFor d k (if c.fmt.toNat = 0 then 0 else c.rmode.toNat) (List.range cols)
    let cv := convRow c.fmt.toNat c.rmode.toNat c.sat c.mx dr.2 (rd.2.1.map val32)
    (dr.1.arith d cv.2.2, some (cv.1, cv.2.1))

/-- READOUT as one step at unstalled cycle t (spec/03 R100, R106, R107). -/
def State.readoutDo (s : State) (d k : Nat) (c : ReadoutCmd) (t : Nat) : State :=
  let cols := c.colsM1.toNat + 1
  let rows := c.nrowsM1.toNat + 1
  let rw := readoutW c
  let r := s.schedule d (readoutAccs c k t)
  if r.2 then
    let s1 := r.1.setMc d k { r.1.mc d k with outUntil := t + rw * rows }
    ((List.range rows).foldl (fun (st : State × Bool) n =>
      if st.2 then st
      else
        let q := st.1.readoutRow d k c n (s.turnOf d k) (s.entryOf d k)
        match q.2 with
        | none => (q.1, true)
        | some cv =>
          let s3 := q.1.putRow d k (4 * k + 3) (2 + b2n c.lane) c.dst (fmtW c.fmt.toNat) (c.addr.toNat + n * c.stride.toNat) cv.1
            (c.scaleAddr.toNat + n * c.sstride.toNat) cv.2 (fun i => t + rw * n + 8 + i)
          (if c.clear then s3.setMc d k ((s3.mc d k).setRow (c.accRow.toNat + n) 0 (List.replicate cols 0#32)) else s3, false)) (s1, false)).1
  else r.1

/-- A READOUT under way: the output unit is busy for w cycles a row. -/
def State.readoutGo (s : State) (d k : Nat) (c : ReadoutCmd) : State :=
  (s.setMc d k { s.mc d k with outUntil := (s.die d).cyc + readoutW c * (c.nrowsM1.toNat + 1) }).launch d k (.readout c) []

/-- READOUT (spec/03 R100, R102), `whole` as one step. -/
def State.readout (s : State) (d k : Nat) (c : ReadoutCmd) (whole : Bool) : State :=
  if s.canIssue d k then
    match s.readoutCause d k c with
    | some n => s.mcCmdFault d k n 0
    | none => if whole then s.readoutDo d k c (s.die d).cyc else s.readoutGo d k c
  else s

/-- Slot n of a READOUT, in the present cycle (spec/03 R106): in the first slot of a row it is read, and its lines and scales follow from 8
cycles on. -/
def State.readoutStep (s : State) (d : Nat) (r : Run) (c : ReadoutCmd) (n : Nat) : State × Run :=
  let rw := readoutW c
  let i := n / rw
  if n % rw ≠ 0 ∨ c.nrowsM1.toNat + 1 ≤ i then (s, r)
  else
    let u := (s.die d).cyc
    let q := s.readoutRow d r.place c i r.slot r.entry
    match q.2 with
    | none => (q.1, r)
    | some cv =>
      let o := q.1.rowOut d r.place (4 * r.place + 3) (2 + b2n c.lane) c.dst (fmtW c.fmt.toNat) (c.addr.toNat + i * c.stride.toNat) cv.1
        (c.scaleAddr.toNat + i * c.sstride.toNat) cv.2 (fun j => u + 8 + j) (fun _ => u + 8 + rw - 1)
      (o.1, { r with late := r.late ++ (if c.clear then [(u, .clear (c.accRow.toNat + i) 0 (c.colsM1.toNat + 1))] else []) ++ o.2 })

/-- ZERO's effect on the core (spec/03 R101, spec/04 R129): +0 in all 64 elements of the rows, their tags 0. -/
def Mcore.zeroRows (m : Mcore) (r n : Nat) : Mcore :=
  { m with acc := dropKeys m.acc (64 * r) (64 * (r + n)), accErr := dropKeys m.accErr (64 * r) (64 * (r + n)),
           tags := dropKeys m.tags r (r + n) }

/-- Command fault causes of a ZERO (spec/03 R102). -/
def State.zeroCause (s : State) (d k : Nat) (c : ZeroCmd) : Option Nat :=
  lowestCause [
    (decide (1024 < c.accRow.toNat + c.nrowsM1.toNat + 1), 8),
    (decide ((s.die d).cyc < (s.mc d k).outUntil), 9),
    (c.rsv, 12)]

/-- ZERO (spec/03 R101): four rows in a cycle; `whole` as one step. -/
def State.zero (s : State) (d k : Nat) (c : ZeroCmd) (whole : Bool) : State :=
  if s.canIssue d k then
    match s.zeroCause d k c with
    | some n => s.mcCmdFault d k n 0
    | none =>
      let t := (s.die d).cyc
      let m := s.mc d k
      let m1 := if whole then m.zeroRows c.accRow.toNat (c.nrowsM1.toNat + 1) else m
      let s1 := s.setMc d k { m1 with outUntil := t + cdiv (c.nrowsM1.toNat + 1) 4 }
      if whole then s1 else s1.launch d k (.zero c) [(t, .tags c.accRow.toNat (c.nrowsM1.toNat + 1) 0 false)]
  else s

/-- Cycle n of a ZERO (spec/03 R106): its four rows, after the array unit's write of this cycle. -/
def State.zeroStep (s : State) (d : Nat) (r : Run) (c : ZeroCmd) (n : Nat) : State × Run :=
  let rows := min 4 (c.nrowsM1.toNat + 1 - 4 * n)
  (s, if rows = 0 then r else { r with late := r.late ++ [((s.die d).cyc, .zeroRows (c.accRow.toNat + 4 * n) rows)] })

-- REDUCE (spec/04 R131-R139) ------------------------------------------------------------------------------------------

/-- Flits of one row of a REDUCE (spec/04 R133). -/
def reduceW (c : ReduceCmd) : Nat := cdiv (c.colsM1.toNat + 1) 16
def reduceRows (c : ReduceCmd) : Nat := c.nrowsM1.toNat + 1

/-- The gather header flit (spec/04 R133). -/
def gatherHeader (c : ReduceCmd) (contrib : Nat) : BitVec 512 :=
  BitVec.ofNat 512 (c.gtag.toNat + c.nrowsM1.toNat * 2 ^ 16 + c.colsM1.toNat * 2 ^ 26 + contrib * 2 ^ 32)

/-- Command fault causes of a REDUCE at its issue (spec/03 R102, spec/04 R139). MODE: 0 SEND, 1 ADD, 2 ADDSEND. `busy`: the output unit is. -/
def State.reduceCause (s : State) (d k mode : Nat) (c : ReduceCmd) (busy : Bool) (head : Option Token) : Option Nat :=
  let m := s.mc d k
  let tags := (List.range (reduceRows c)).map (fun i => m.tag (c.accRow.toNat + i))
  let g := c.gtag.toNat
  lowestCause [
    (decide (1024 < c.accRow.toNat + reduceRows c), 8),
    (busy, 9),
    (c.rsv, 12),
    (decide (g = 0) || tags.any (fun t => decide (t ≠ g) && !(decide (mode = 1) && decide (t = 0))), 13),
    (match head with | none => false | some t => !(t.hdr && decide (t.payload = gatherHeader c c.expect.toNat)), 14),
    ((decide (mode = 0) && decide (c.expect.toNat ≠ 0)) || (decide (mode ≠ 0) && decide (c.expect.toNat = 0)) ||
      (decide (mode = 2) && decide (c.expect.toNat = 255)) || (decide (mode = 1) && c.clear), 15)]

/-- Element e of a flit. -/
def flitElem (v : BitVec 512) (e : Nat) : W32 := BitVec.ofNat 32 (v.toNat >>> (32 * e))
/-- Sixteen elements as a flit. -/
def flitOfElems (l : List W32) : BitVec 512 := BitVec.ofNat 512 (packElems 32 (l.map BitVec.toNat))

/-- The sum of an own and an incoming element (spec/04 R131). -/
def reduceSum (own inc : W32) : W32 × Stat :=
  let x := add32 (val32 own) (val32 inc)
  (code32 x.1, x.2)

/-- The rows of a REDUCE one by one: `inc` are the incoming rows' flits (ADD, ADDSEND). Accumulates the outgoing flits; stops at an
uncorrectable element, and at a flit of an ADD that meets a write of the array unit still to come (cause 16). -/
def State.reduceRowsDo (s : State) (d k mode : Nat) (c : ReduceCmd) (t : Nat) (inc : List Token) : State × List (BitVec 512) × Bool :=
  let cols := c.colsM1.toNat + 1
  let w := reduceW c
  let arr := s.arrPending d k
  (List.range (reduceRows c)).foldl (fun (st : State × List (BitVec 512) × Bool) n =>
    if st.2.2 then st
    else
      let row := c.accRow.toNat + n
      let rd := st.1.accRead d k row cols
      if rd.2.2 then (rd.1.accFault d k row, st.2.1, true)
      else
        let vals := rd.2.1.zipIdx.map (fun e =>
          if mode = 0 then (e.1, Stat.none) else reduceSum e.1 (flitElem ((inc[w * n + e.2 / 16]?).getD default).payload (e.2 % 16)))
        let flits := (List.range w).map (fun f => flitOfElems (((vals.map (·.1)).drop (16 * f)).take 16))
        let s2 := rd.1.arith d (vals.foldl (fun a e => a.or e.2) Stat.none)
        if mode = 1 then
          let hit := (List.range w).find? (fun f => arr.any (fun a =>
            decide (a.1 = t + 1 + w * n + f + 6) && decide (a.2.1 = row) && decide (16 * f < a.2.2)))
          let upto := match hit with | some f => min cols (16 * f) | none => cols
          let s3 := s2.setMc d k ((s2.mc d k).setRow row 0 ((vals.map (·.1)).take upto))
          match hit with
          | some _ => (s3.mcCmdFault d k 16 row, st.2.1, true)
          | none => (s3, st.2.1, false)
        else
          let m := s2.mc d k
          let m1 := if c.clear then (m.setRow row 0 (List.replicate cols 0#32)).setTag row 0 else m
          (s2.setMc d k m1, st.2.1 ++ flits, false)) (s, [], false)

/-- Tags that a REDUCE ADD sets: its rows' that are 0 (spec/04 R129). -/
def Mcore.tagUnset (m : Mcore) (r n t : Nat) : Mcore :=
  (List.range n).foldl (fun x i => if x.tag (r + i) = 0 then x.setTag (r + i) t else x) m

/-- CONTRIB of the header that a SEND or ADDSEND puts out, and the cycles from a read to its departure (spec/04 R133, R135). -/
def reduceContrib (mode : Nat) (c : ReduceCmd) : Nat := if mode = 0 then 1 else c.expect.toNat + 1
def reduceDelay (mode : Nat) : Nat := if mode = 0 then 4 else 6

/-- A REDUCE as one step with all its flits at hand, at unstalled cycle t (spec/04 R129, R133, R135). -/
def State.reduceDo (s : State) (d k mode : Nat) (c : ReduceCmd) (t : Nat) (inc : List Token) : State :=
  let m1 : Mcore := { s.mc d k with outUntil := t + reduceW c * reduceRows c + 1 }
  let m2 := if mode = 1 then m1.tagUnset c.accRow.toNat (reduceRows c) c.gtag.toNat else m1
  let r := (s.setMc d k m2).reduceRowsDo d k mode c t inc
  if mode = 1 then r.1
  else r.1.laneOut d k (2 + b2n c.laneOut) (t + reduceDelay mode) true (gatherHeader c (reduceContrib mode c) :: r.2.1)

/-- The output unit of a core is busy. -/
def State.outBusy (s : State) (d k : Nat) : Bool := decide ((s.die d).cyc < (s.mc d k).outUntil)

/-- A REDUCE under way: the output unit is busy for 1 + w · NROWS cycles (spec/04 R135). -/
def State.reduceGo (s : State) (d k mode : Nat) (c : ReduceCmd) : State :=
  (s.setMc d k { s.mc d k with outUntil := (s.die d).cyc + reduceW c * reduceRows c + 1 }).launch d k (.reduce mode c) []

/-- REDUCE (spec/04 R134-R136), `whole` as one step with its flits at hand. An ADD or ADDSEND that finds no token at the head of its lane is
held there (R136): it is judged with its header, and before it only by the causes that no header can come before. -/
def State.reduce (s : State) (d k mode : Nat) (c : ReduceCmd) (whole : Bool) : State :=
  if s.canIssue d k then
    let t := (s.die d).cyc
    let lane := b2n c.laneIn
    let need := 1 + reduceW c * reduceRows c
    let head := if mode = 0 then none else ((s.place d k).lane lane).q.head?
    match s.reduceCause d k mode c (s.outBusy d k) head with
    | some n => if mode = 0 ∨ head.isSome ∨ n < 14 then s.mcCmdFault d k n 0 else s.reduceGo d k mode c
    | none =>
      if whole && decide (mode = 0) then s.reduceDo d k 0 c t []
      else if whole && s.laneHas d k lane need then
        let got := s.laneTake d k lane need
        got.1.reduceDo d k mode c t (got.2.drop 1)
      else s.reduceGo d k mode c
  else s

/-- The issue cycle of a REDUCE under way (spec/04 R129, R134, R135): its causes, the header off the lane, the tags of an ADD in the next cycle,
the header of a SEND or ADDSEND on its way. -/
def State.reduceBegin (s : State) (d : Nat) (r : Run) (mode : Nat) (c : ReduceCmd) : State × Run :=
  let k := r.place
  let u := (s.die d).cyc
  let head := if mode = 0 then none else ((s.place d k).lane (b2n c.laneIn)).q.head?
  match s.reduceCause d k mode c false head with
  | some n => (s.mcFaultAt d k r.slot r.entry 0 n 0 0 0 0x2100 (unitCore d k), r)
  | none =>
    let s1 := if mode = 0 then s else (s.laneTake d k (b2n c.laneIn) 1).1
    if mode = 1 then (s1, { r with late := r.late ++ [(u, .tags c.accRow.toNat (reduceRows c) c.gtag.toNat true)] })
    else (s1.laneOut d k (2 + b2n c.laneOut) (u + reduceDelay mode) true [gatherHeader c (reduceContrib mode c)], r)

/-- Flit n of a REDUCE under way, in the present cycle (spec/04 R135): own elements read, the incoming flit consumed, what is sent or summed on
its way; CLEAR and the tag of a row whose last flit is read. -/
def State.reduceFlit (s : State) (d : Nat) (r : Run) (mode : Nat) (c : ReduceCmd) (n : Nat) : State × Run :=
  let k := r.place
  let u := (s.die d).cyc
  let w := reduceW c
  let row := c.accRow.toNat + n / w
  let first := 16 * (n % w)
  let cnt := min 16 (c.colsM1.toNat + 1 - first)
  let rd := s.accReadAt d k (64 * row + first) cnt
  if rd.2.2 then (rd.1.mcFaultAt d k r.slot r.entry 2 0 row 0 0 0x2102 (unitSram d (128 + k) row), r)
  else
    let g := if mode = 0 then (rd.1, []) else rd.1.laneTake d k (b2n c.laneIn) 1
    let inc := (g.2.head?.getD default).payload
    let vals := rd.2.1.zipIdx.map (fun e => if mode = 0 then (e.1, Stat.none) else reduceSum e.1 (flitElem inc e.2))
    let s1 := g.1.arith d (vals.foldl (fun a e => a.or e.2) Stat.none)
    if mode = 1 then (s1, { r with late := r.late ++ [(u + 6, .sums row first (vals.map (·.1)))] })
    else
      (s1.laneOut d k (2 + b2n c.laneOut) (u + reduceDelay mode) false [flitOfElems (vals.map (·.1))],
       if c.clear then { r with late := r.late ++ (u, .clear row first cnt) :: (if n % w + 1 = w then [(u, .tags row 1 0 false)] else []) } else r)

/-- Cycle n of a REDUCE under way. -/
def State.reduceStep (s : State) (d : Nat) (r : Run) (mode : Nat) (c : ReduceCmd) (n : Nat) : State × Run :=
  if n = 0 then s.reduceBegin d r mode c
  else if n ≤ reduceW c * reduceRows c then s.reduceFlit d r mode c (n - 1)
  else (s, r)

/-- A reserved field of a NOP is cause 12 (spec/03 R94, R102); a NOP has no effect. -/
def State.mcNop (s : State) (d k : Nat) (rsv : Bool) : State :=
  if s.canIssue d k && rsv then s.mcCmdFault d k 12 0 else s

-- The meanings --------------------------------------------------------------------------------------------------------

/-- MC_NOP (spec/03 R94). -/
def execMcNop (die core : Nat) (rsv : Bool) (s : State) : Host.Outcome State Fault Refusal :=
  guard (Instr.mcNop die core rsv).wf (s.mcNop die core rsv)
/-- LOADW (spec/03 R95-R98, R102). -/
def execLoadw (die core : Nat) (c : LoadwCmd) (s : State) : Host.Outcome State Fault Refusal :=
  guard (Instr.loadw die core c).wf (s.loadw die core c true)
/-- LOADW_SHADOW_READY (spec/03 R97). -/
def execLoadwShadowReady (die core : Nat) (s : State) : Host.Outcome State Fault Refusal :=
  guard (Instr.loadwShadowReady die core).wf (s.shadowReadyNow die core)
/-- READOUT (spec/03 R100, R106). -/
def execReadout (die core : Nat) (c : ReadoutCmd) (s : State) : Host.Outcome State Fault Refusal :=
  guard (Instr.readout die core c).wf (s.readout die core c true)
/-- ZERO (spec/03 R101). -/
def execZero (die core : Nat) (c : ZeroCmd) (s : State) : Host.Outcome State Fault Refusal :=
  guard (Instr.zero die core c).wf (s.zero die core c true)
/-- REDUCE with MODE = SEND (spec/04 R131-R136). -/
def execReduceSend (die core : Nat) (c : ReduceCmd) (s : State) : Host.Outcome State Fault Refusal :=
  guard (Instr.reduceSend die core c).wf (s.reduce die core 0 c true)
/-- REDUCE with MODE = ADD (spec/04 R131-R137). -/
def execReduceAdd (die core : Nat) (c : ReduceCmd) (s : State) : Host.Outcome State Fault Refusal :=
  guard (Instr.reduceAdd die core c).wf (s.reduce die core 1 c true)
/-- REDUCE with MODE = ADDSEND (spec/04 R131-R136). -/
def execReduceAddsend (die core : Nat) (c : ReduceCmd) (s : State) : Host.Outcome State Fault Refusal :=
  guard (Instr.reduceAddsend die core c).wf (s.reduce die core 2 c true)

end Sys2Proof.Machine
end

