-- ==== Sys2Proof/Machine/Scraper.lean ====
section
/-! DEFINITION. The scraper's commands (spec/05). A command that the sequencer issues is under way from its issue on, and reads, evaluates and
writes in the cycles of R158 and R159. A row of the table is one whole step (spec/95), which takes its whole effect at once unless it waits for
tokens of a lane (log entry 4). -/

namespace Sys2Proof.Machine

-- Rounding steps on the lanes (spec/05 R151, R152) --------------------------------------------------------------------

/-- The scraper's rounding state inside a command: its generators, the mode, the status so far. -/
structure RG where
  gens : List W64
  mode : Nat
  stat : Stat
deriving DecidableEq, Repr, Inhabited

/-- One cycle in which the given lanes round: under SR every generator that serves one of them steps once, and each lane takes its draw
(spec/02 R64; which lane a combine step rounds on is log entry 9). -/
def RG.cycle (g : RG) (lanes : List Nat) : RG × List Nat :=
  if g.mode = 2 then
    let gs := g.gens.zipIdx.map (fun e => if lanes.any (fun l => decide (l / 4 = e.2)) then xorshift e.1 else e.1)
    ({ g with gens := gs }, lanes.map (fun l => drawOf ((gs[l / 4]?).getD golden) (l % 4)))
  else (g, lanes.map (fun _ => 0))

/-- Rounds one exact result per lane to binary32. -/
def RG.round (g : RG) (lanes : List Nat) (xs : List (Val × Stat)) : RG × List Val :=
  let c := g.cycle lanes
  let rs := (xs.zip c.2).map (fun p =>
    let y := convF b32 g.mode false p.2 p.1.1
    (decodeF b32 y.1, p.1.2.or y.2))
  ({ c.1 with stat := rs.foldl (fun a r => a.or r.2) c.1.stat }, rs.map (·.1))

/-- A two-operand step on lanes 0 … n - 1. -/
def RG.op2 (g : RG) (f : Val → Val → Val × Stat) (a b : List Val) : RG × List Val :=
  g.round (List.range a.length) ((a.zip b).map (fun p => f p.1 p.2))
/-- A three-operand step. -/
def RG.op3 (g : RG) (f : Val → Val → Val → Val × Stat) (a b c : List Val) : RG × List Val :=
  g.round (List.range a.length) ((a.zip (b.zip c)).map (fun p => f p.1 p.2.1 p.2.2))
/-- A step on one lane (which one is open, log entry 9). -/
def RG.op1 (g : RG) (x : Val × Stat) : RG × Val :=
  let r := g.round [Config.singleLane % 32] [x]
  (r.1, r.2.headD Val.zero)

def subV (a b : Val) : Val × Stat := addV a b.neg

/-- Final conversion of a group of elements to the output format (spec/05 R151). -/
def RG.out (g : RG) (fmt : Nat) (sat : Bool) (xs : List (Val × Stat)) : RG × List Nat :=
  let c := g.cycle (List.range xs.length)
  let rs := (xs.zip c.2).map (fun p =>
    let y := convN (fmtD fmt) g.mode sat p.2 p.1.1
    (y.1, p.1.2.or y.2))
  ({ c.1 with stat := rs.foldl (fun a r => a.or r.2) c.1.stat }, rs.map (·.1))

/-- The levels of a combine over the lane partials (spec/05 R152). -/
def RG.treeOn : Nat → RG → List (Val × Nat) → RG × Val
  | 0, g, l => (g, (l.headD default).1)
  | n + 1, g, l =>
    let ps := combinePairs n l
    let r := g.round (ps.map (·.2)) (ps.map (fun p => addV p.1.1 p.1.2))
    RG.treeOn n r.1 (r.2.zip (ps.map (·.2)))
def RG.tree (n : Nat) (g : RG) (l : List Val) : RG × Val := RG.treeOn n g l.zipIdx

/-- The lane partials at the start of a sum. -/
def zeros32 : List Val := List.replicate 32 Val.zero

/-- Adds a group's terms to the lane partials. -/
def RG.accAdd (g : RG) (acc xs : List Val) : RG × List Val :=
  let r := g.op2 addV (acc.take xs.length) xs
  (r.1, r.2 ++ acc.drop xs.length)
/-- fma of a group's terms into the lane partials. -/
def RG.accFma (g : RG) (acc xs ys : List Val) : RG × List Val :=
  let r := g.op3 fmaV xs ys (acc.take xs.length)
  (r.1, r.2 ++ acc.drop xs.length)

/-- Groups of 32 elements of a row. -/
def groups (l : List Val) : List (List Val) := (List.range (cdiv l.length 32)).map (fun b => (l.drop (32 * b)).take 32)

/-- Operands of a row. -/
structure RowIn where
  x : List Val
  dy : List Val
  gamma : List Val
  beta : List Val
  mask : List Bool             -- masked elements (spec/05 R153)
  n : Nat                      -- C
deriving Repr, Inhabited

/-- What a row gives: the output codes, its scales, the statistic slot (kind, values) when it has one, and the column gradients. -/
structure RowRes where
  codes : List Nat
  scales : List Nat
  slot : Option (Nat × Val × Val)
  dgamma : List Val
  dbeta : List Val
deriving Repr, Inhabited

/-- C as a binary32 value. -/
def RowIn.count (r : RowIn) : Val := .fin false r.n 0

/-- Output of a whole row: the last rounding step of the table straight to the format, or to binary32 and then MX (spec/05 R151),
whose encoding draws once more (log entry 84). -/
def RG.outRow (g : RG) (c : RowCmd) (xs : List (List (Val × Stat))) : RG × List Nat × List Nat :=
  if c.mx then
    xs.foldl (fun st grp =>
      let r := st.1.round (List.range grp.length) grp
      let d := r.1.cycle (List.range grp.length)
      let e := mxEncode c.fmtOut.toNat g.mode d.2 r.2
      ({ d.1 with stat := d.1.stat.or e.2.2 }, st.2.1 ++ e.2.1, st.2.2 ++ [e.1])) (g, [], [])
  else
    xs.foldl (fun st grp =>
      let r := st.1.out c.fmtOut.toNat c.sat grp
      (r.1, st.2.1 ++ r.2, st.2.2)) (g, [], [])

/-- NORM of one row (spec/05 R153): layer (VARIANT 0) or RMS. -/
def normRow (c : RowCmd) (eps : Val) (g : RG) (r : RowIn) : RG × RowRes :=
  let xs := groups r.x
  -- sweep 1 and its combine: μ
  let s1 := if c.variant then (g, Val.zero) else
    let a := xs.foldl (fun st grp => st.1.accAdd st.2 grp) (g, zeros32)
    let t := RG.tree 5 a.1 a.2
    t.1.op1 (divV t.2 r.count)
  let mu := s1.2
  -- sweep 2: d_j and the sum of squares
  let s2 := xs.foldl (fun (st : RG × List Val × List (List Val)) grp =>
    let d := if c.variant then (st.1, grp) else st.1.op2 subV grp (grp.map (fun _ => mu))
    let a := d.1.accFma st.2.1 d.2 d.2
    (a.1, a.2, st.2.2 ++ [d.2])) (s1.1, zeros32, [])
  let t2 := RG.tree 5 s2.1 s2.2.1
  let v := t2.1.op1 (divV t2.2 r.count)
  let ve := v.1.op1 (addV v.2 eps)
  let rho := ve.1.op1 (rsqrtV ve.2)
  -- sweep 3: u_j, y_j
  let gm := groups r.gamma
  let bt := groups r.beta
  let s3 := s2.2.2.zipIdx.foldl (fun (st : RG × List (List (Val × Stat))) e =>
    let u := st.1.op2 mulV e.1 (e.1.map (fun _ => rho.2))
    let ga := (gm[e.2]?).getD []
    let be := (bt[e.2]?).getD []
    let ys := if c.b21 then (u.2.zip ga).map (fun p => mulV p.1 p.2)
      else (u.2.zip (ga.zip be)).map (fun p => fmaV p.1 p.2.1 p.2.2)
    (u.1, st.2 ++ [ys])) (rho.1, [])
  let o := s3.1.outRow c s3.2
  (o.1, { codes := o.2.1, scales := o.2.2, slot := some ((if c.variant then 2 else 1), mu, rho.2), dgamma := [], dbeta := [] })

/-- Splits the mask like the elements. -/
def maskGroups (l : List Bool) : List (List Bool) := (List.range (cdiv l.length 32)).map (fun b => (l.drop (32 * b)).take 32)

/-- z_j = α·x_j, -∞ where masked (spec/05 R153). -/
def RG.zStep (g : RG) (alpha : Val) (xs : List Val) (mk : List Bool) : RG × List Val :=
  let z := g.op2 mulV xs (xs.map (fun _ => alpha))
  (z.1, (z.2.zip mk).map (fun p => if p.2 then .inf true else p.1))

/-- e_j = exp(z_j - mx). -/
def RG.eStep (g : RG) (mx : Val) (zs : List Val) : RG × List Val :=
  let d := g.op2 subV zs (zs.map (fun _ => mx))
  d.1.round (List.range d.2.length) (d.2.map (fun v => (expV v, Stat.none)))

/-- SOFTMAX of one row (spec/05 R153, R155); a fully masked one draws nothing (log entry 84). -/
def softmaxRow (c : RowCmd) (g : RG) (r : RowIn) : RG × RowRes :=
  if r.mask.all id && !r.mask.isEmpty then
    (g, { codes := r.x.map (fun _ => 0), scales := if c.mx then (groups r.x).map (fun _ => 127) else [],
          slot := some (3, .inf true, Val.zero), dgamma := [], dbeta := [] })
  else
    let alpha := val32 c.param
    let xs := groups r.x
    let mk := maskGroups r.mask
    let s1 := xs.zipIdx.foldl (fun (st : RG × List (List Val)) e =>
      let z := st.1.zStep alpha e.1 ((mk[e.2]?).getD [])
      (z.1, st.2 ++ [z.2])) (g, [])
    let mx := (s1.2.flatten).foldl maxV (.inf true)
    let s2 := s1.2.foldl (fun (st : RG × List Val × List (List Val)) zs =>
      let e := st.1.eStep mx zs
      let a := e.1.accAdd st.2.1 e.2
      (a.1, a.2, st.2.2 ++ [e.2])) (s1.1, zeros32, [])
    let t := RG.tree 5 s2.1 s2.2.1
    let ys := s2.2.2.zipIdx.map (fun e => (e.1.zip ((mk[e.2]?).getD [])).map (fun p =>
      if p.2 then (Val.zero, Stat.none) else divV p.1 t.2))
    let o := t.1.outRow c ys
    (o.1, { codes := o.2.1, scales := o.2.2, slot := some (3, mx, t.2), dgamma := [], dbeta := [] })

/-- NORMB of one row (spec/05 R153, R156): `mu`, `rho` from the slot; `dg`, `db` the column gradients so far when GB = 1. -/
def normbRow (c : RowCmd) (mu rho : Val) (dg db : List Val) (g : RG) (r : RowIn) : RG × RowRes :=
  let xs := groups r.x
  let dy := groups r.dy
  let gm := groups r.gamma
  let dgs := groups dg
  let dbs := groups db
  let s1 := xs.zipIdx.foldl (fun (st : RG × (List Val × List Val) × List (List Val × List Val) × (List Val × List Val)) e =>
    let d := (dy[e.2]?).getD []
    let a := st.1.op2 subV e.1 (e.1.map (fun _ => mu))
    let xh := a.1.op2 mulV a.2 (a.2.map (fun _ => rho))
    let gg := xh.1.op2 mulV d ((gm[e.2]?).getD [])
    let sg := gg.1.accAdd st.2.1.1 gg.2
    let sx := sg.1.accFma st.2.1.2 gg.2 xh.2
    let w := if c.b21 then
        let p := sx.1.op3 fmaV d xh.2 ((dgs[e.2]?).getD [])
        let q := p.1.op2 addV ((dbs[e.2]?).getD []) d
        (q.1, p.2, q.2)
      else (sx.1, [], [])
    (w.1, (sg.2, sx.2), st.2.2.1 ++ [(xh.2, gg.2)], (st.2.2.2.1 ++ w.2.1, st.2.2.2.2 ++ w.2.2)))
    (g, (zeros32, zeros32), [], ([], []))
  let t1 := RG.tree 5 s1.1 s1.2.1.1
  let t2 := RG.tree 5 t1.1 s1.2.1.2
  let ab := if c.variant then (t2.1, Val.zero) else t2.1.op1 (divV t1.2 r.count)
  let bb := ab.1.op1 (divV t2.2 r.count)
  let s2 := s1.2.2.1.foldl (fun (st : RG × List (List (Val × Stat))) e =>
    let a := st.1.op2 subV e.2 (e.2.map (fun _ => ab.2))
    let f := a.1.op3 fmaV (e.1.map Val.neg) (e.1.map (fun _ => bb.2)) a.2
    (f.1, st.2 ++ [f.2.map (fun v => mulV rho v)])) (bb.1, [])
  let o := s2.1.outRow c s2.2
  (o.1, { codes := o.2.1, scales := [], slot := none, dgamma := s1.2.2.2.1, dbeta := s1.2.2.2.2 })

/-- SOFTMAXB of one row (spec/05 R153, R155): `mx`, `sm` from the slot. -/
def softmaxbRow (c : RowCmd) (mx sm : Val) (g : RG) (r : RowIn) : RG × RowRes :=
  if r.mask.all id && !r.mask.isEmpty then
    (g, { codes := r.x.map (fun _ => 0), scales := [], slot := none, dgamma := [], dbeta := [] })
  else
    let alpha := val32 c.param
    let xs := groups r.x
    let dy := groups r.dy
    let mk := maskGroups r.mask
    let s1 := xs.zipIdx.foldl (fun (st : RG × List Val × List (List Val)) e =>
      let z := st.1.zStep alpha e.1 ((mk[e.2]?).getD [])
      let ee := z.1.eStep mx z.2
      let y := ee.1.op2 divV ee.2 (ee.2.map (fun _ => sm))
      let a := y.1.accFma st.2.1 ((dy[e.2]?).getD []) y.2
      (a.1, a.2, st.2.2 ++ [y.2])) (g, zeros32, [])
    let t := RG.tree 5 s1.1 s1.2.1
    let s2 := s1.2.2.zipIdx.foldl (fun (st : RG × List (List (Val × Stat))) e =>
      let d := (dy[e.2]?).getD []
      let m := (mk[e.2]?).getD []
      let a := st.1.op2 subV d (d.map (fun _ => t.2))
      let b := a.1.op2 mulV e.1 a.2
      (b.1, st.2 ++ [(b.2.zip m).map (fun p => if p.2 then (Val.zero, Stat.none) else mulV alpha p.1)])) (t.1, [])
    let o := s2.1.outRow c s2.2
    (o.1, { codes := o.2.1, scales := [], slot := none, dgamma := [], dbeta := [] })

-- Side memory (spec/05 R142-R146) -------------------------------------------------------------------------------------

def Scraper.slot (x : Scraper) (i : Nat) : Slot := sget default x.side i
/-- A slot set: value and kind; stored errors go with the old value. -/
def Scraper.setSlot (x : Scraper) (i : Nat) (v : Slot) : Scraper :=
  { x with side := nput default x.side i v, sideErr := serase (serase x.sideErr (2 * i)) (2 * i + 1) }

/-- Reads slot values with the error check (spec/05 R146): the state, the slot, and whether it is uncorrectable. -/
def State.slotRead (s : State) (d i : Nat) : State × Slot × Bool :=
  let x := (s.die d).scr
  if x.sideErr = [] then (s, x.slot i, false)
  else
    [0, 1].foldl (fun (st : State × Slot × Bool) h =>
      let j := (eccJudge (sget 0 x.sideErr (2 * i + h)), st.1)
      match j.1 with
      | .ok => (j.2, st.2)
      | .corr => (j.2.bumpErr d CD_SCR_ECC_CORR CD_SCR_STATUS 31 1, st.2)
      | .bad => (j.2, st.2.1, true)
      | .altered k v =>
        (if k then j.2.bumpErr d CD_SCR_ECC_CORR CD_SCR_STATUS 31 1 else j.2,
         if h = 0 then { st.2.1 with a := st.2.1.a ^^^ BitVec.ofNat 32 v } else { st.2.1 with b := st.2.1.b ^^^ BitVec.ofNat 32 v }, st.2.2)) (s, x.slot i, false)

/-- An uncorrectable side-memory value (spec/05 R146, R162): KIND 1 with the slot; 0x2111. -/
def State.slotFault (s : State) (d i : Nat) : State := s.scrFault d 1 0 i 0x2111 (unitSram d 144 (i / 256))

-- Row commands (spec/05 R147-R161) ------------------------------------------------------------------------------------

/-- Elements of a row, C. -/
def rowC (c : RowCmd) : Nat := c.colsM1.toNat + 1
def rowN (c : RowCmd) : Nat := c.nrowsM1.toNat + 1
/-- Bytes of a row in a format. -/
def rowB (fmt : Nat) (c : RowCmd) : Nat := rowBytes (fmtW fmt) (rowC c)
/-- Row addresses of x, dy, the output and its scales (spec/05 R148). -/
def rowAddrIn (c : RowCmd) (m : Nat) : Nat := c.addrIn.toNat + m * 16 * c.strideIn.toNat
def rowAddrAux (c : RowCmd) (m : Nat) : Nat := c.addrAux.toNat + m * 16 * c.strideAux.toNat
def rowAddrOut (c : RowCmd) (m : Nat) : Nat := c.addrOut.toNat + m * 16 * c.strideOut.toNat
/-- Operations: 1 NORM, 2 SOFTMAX, 3 NORMB, 4 SOFTMAXB. -/
def isNorm (op : Nat) : Bool := decide (op = 1) || decide (op = 3)
def isBack (op : Nat) : Bool := decide (3 ≤ op)
/-- γ is read by the normalisations; β by NORM without NOBETA. -/
def usesBeta (op : Nat) (c : RowCmd) : Bool := decide (op = 1) && !c.b21
/-- Bytes of the parameter vectors. -/
def paramBytes (c : RowCmd) : Nat := 64 * cdiv (4 * rowC c) 64
/-- GB of NORMB. -/
def gbOn (op : Nat) (c : RowCmd) : Bool := decide (op = 3) && c.b21

/-- Command fault causes found at issue (spec/05 R161); a FMT_AUX that a command reserves is cause 9 (log entry 84). -/
def State.rowCause (s : State) (d op : Nat) (c : RowCmd) : Option Nat :=
  let x := (s.die d).scr
  let rows := List.range (rowN c)
  let fi := c.fmtIn.toNat
  let fo := c.fmtOut.toNat
  let fa := c.fmtAux.toNat
  let okIn := rows.all (fun m => rowOk (rowAddrIn c m) (rowB fi c))
  let okAux := !isBack op || rows.all (fun m => rowOk (rowAddrAux c m) (rowB fa c))
  let okOut := rows.all (fun m => rowOk (rowAddrOut c m) (rowB fo c))
  let rgIn := c.src || rows.all (fun m => s.spadRangeOk d (rowAddrIn c m) (rowB fi c))
  let rgAux := !isBack op || rows.all (fun m => s.spadRangeOk d (rowAddrAux c m) (rowB fa c))
  let rgOut := c.dst || rows.all (fun m => s.spadRangeOk d (rowAddrOut c m) (rowB fo c))
  let rgSc := !(c.mx && !isBack op && !c.dst) || rows.all (fun m => s.spadRangeOk d (rowAddrAux c m) (scaleCount (rowC c)))
  let rgPar := !isNorm op || s.spadRangeOk d c.param.toNat (paramBytes c + if usesBeta op c then paramBytes c else 0)
  lowestCause [
    (decide (4 < fi) || (isBack op && decide (4 < fa)) || decide (7 < fo) || decide (c.rmode.toNat = 3), 2),
    (c.mx && (decide (fo < 3) || c.dst || isBack op), 3),
    (!okIn || !okAux || !okOut || (isNorm op && decide (c.param.toNat % 64 ≠ 0)), 4),
    (!(rgIn && rgAux && rgOut && rgSc && rgPar), 5),
    (decide (262143 < c.slot.toNat + rowN c - 1) || (gbOn op c && decide (262143 < x.gbSlot.toNat + rowC c - 1)), 6),
    (decide ((s.die d).cyc < x.busyUntil), 8),
    (c.rsv || (!isNorm op && c.b21) || (!gbOn op c && c.gbacc) || (!isBack op && decide (fa ≠ 0)) ||
      (!isBack op && !c.mx && decide (c.addrAux.toNat ≠ 0)), 9)]

/-- Lines of a row. -/
def rowLines (fmt : Nat) (c : RowCmd) (a : Nat) : List Nat := linesOf a (rowB fmt c)

/-- k of a sweep: 1, or the rounding steps of R153 under SR (spec/05 R158). -/
def sweepK (op : Nat) (c : RowCmd) (i : Nat) : Nat :=
  if c.rmode.toNat ≠ 2 then 1
  else
    match op, i with
    | 1, 1 => 1
    | 1, _ => 2
    | 2, 1 => 1
    | 2, 2 => 3
    | 2, _ => 1
    | 3, 1 => if c.b21 then 7 else 5
    | 4, 1 => 5
    | _, _ => 3

/-- Timing of one row from its first sweep: the offset at which the output sweep begins, its length Λ, and the row interval
(spec/05 R158, R159). -/
def rowTiming (op : Nat) (c : RowCmd) (m : Nat) : Nat × Nat × Nat :=
  let p := cdiv (rowC c) 32
  let lin := (rowLines c.fmtIn.toNat c (rowAddrIn c m)).length
  let laux := if isBack op then (rowLines c.fmtAux.toNat c (rowAddrAux c m)).length else 0
  let lout := (rowLines c.fmtOut.toNat c (rowAddrOut c m)).length +
    (if c.mx && !c.dst then (linesOf (rowAddrAux c m) (scaleCount (rowC c))).length else 0)
  let rms := decide (op = 1) && c.variant
  let firstK := sweepK op c (if rms then 2 else 1)
  let first := (if c.src then max (max (firstK * p) lin) laux else max (firstK * p) (lin + laux)) + 4
  let lastI := if isBack op then 2 else 3
  let last := max (sweepK op c lastI * p) lout
  let mid := if isBack op || rms then 0 else sweepK op c 2 * p + 10
  (first + 10 + mid, last, first + 10 + mid + last)

/-- Cycles of parameter load (spec/05 R158). -/
def parLines (op : Nat) (c : RowCmd) : Nat :=
  if isNorm op then cdiv (4 * rowC c) 64 * (if usesBeta op c then 2 else 1) else 0

/-- Cycle, from issue, at which each row's first sweep begins. -/
def rowStarts (op : Nat) (c : RowCmd) : List Nat :=
  ((List.range (rowN c)).foldl (fun (st : List Nat × Nat) m => (st.1 ++ [st.2], st.2 + (rowTiming op c m).2.2)) ([], parLines op c)).1

/-- Length of the whole command. -/
def rowLength (op : Nat) (c : RowCmd) : Nat :=
  (List.range (rowN c)).foldl (fun n m => n + (rowTiming op c m).2.2) (parLines op c)

/-- Flits that the x rows take from a lane (spec/05 R160). -/
def rowFlits (c : RowCmd) : Nat :=
  (List.range (rowN c)).foldl (fun n m => n + (rowLines c.fmtIn.toNat c (rowAddrIn c m)).length) 0

/-- What a row command captures of SETUP at its issue (spec/05 R149). -/
structure RowSet where
  eps : W32
  diag : BitVec 16
  gb : Nat
deriving DecidableEq, Repr, Inhabited

/-- The setting in force. -/
def Scraper.setting (x : Scraper) : RowSet := { eps := x.eps, diag := x.diag, gb := x.gbSlot.toNat }

/-- The masked elements of row m (spec/05 R153). -/
def rowMask (op : Nat) (c : RowCmd) (w : RowSet) (m : Nat) : List Bool :=
  if isNorm op then [] else (List.range (rowC c)).map (fun j => c.variant && decide ((m : Int) + signedOf 16 w.diag.toNat < (j : Int)))

/-- The operands of row m, as one step reads them. `flits` are the flits of this row when x comes from a lane. -/
def State.rowIn (s : State) (d op : Nat) (c : RowCmd) (w : RowSet) (m : Nat) (flits : Option (List Token)) : RowIn :=
  let n := rowC c
  let vals := fun (fmt : Nat) (src : Nat → Byte) (a : Nat) =>
    (List.range n).map (fun j => decodeN (fmtD fmt) (elemAt (fun i => src (a + i)) (fmtW fmt) j))
  let srcX := match flits with
    | none => s.spadByte d
    | some fl => fun a => flitByte fl (a - rowAddrIn c m / 64 * 64)
  { x := vals c.fmtIn.toNat srcX (rowAddrIn c m)
    dy := if isBack op then vals c.fmtAux.toNat (s.spadByte d) (rowAddrAux c m) else []
    gamma := if isNorm op then vals 0 (s.spadByte d) c.param.toNat else []
    beta := if usesBeta op c then vals 0 (s.spadByte d) (c.param.toNat + paramBytes c) else []
    mask := rowMask op c w m
    n := n }

/-- The slot kind a backward command needs (spec/05 R161 cause 7). -/
def needKind (op : Nat) (c : RowCmd) : Nat := if op = 4 then 3 else if c.variant then 2 else 1

/-- The kinds that row m needs do not stand in its slots (spec/05 R161 cause 7). -/
def Scraper.badKind (x : Scraper) (op : Nat) (c : RowCmd) (w : RowSet) (m : Nat) : Bool :=
  isBack op && (decide ((x.slot (c.slot.toNat + m)).kind ≠ needKind op c) ||
    (gbOn op c && c.gbacc && (List.range (rowC c)).any (fun j => decide ((x.slot (w.gb + j)).kind ≠ 4))))

/-- Slots read one by one (spec/05 R146): the state, their contents, and the first uncorrectable one. -/
def State.slotReads (s : State) (d first n : Nat) : State × List Slot × Option Nat :=
  (List.range n).foldl (fun (q : State × List Slot × Option Nat) j =>
    let r := q.1.slotRead d (first + j)
    (r.1, q.2.1 ++ [r.2.1], if r.2.2 then q.2.2.or (some (first + j)) else q.2.2)) (s, [], none)

/-- Evaluates row m on its operands (spec/05 R151-R156): reads the slots it needs, and writes its statistic, its column gradients, the generators
and the status. The codes and scales it puts out; none, with the slot, where a slot value is uncorrectable. -/
def State.rowEval (s : State) (d op : Nat) (c : RowCmd) (w : RowSet) (m : Nat) (ri : RowIn) : State × (Nat ⊕ (List Nat × List Nat)) :=
  let gb := gbOn op c
  let cols := List.range (rowC c)
  let st : State × Slot × Bool := if isBack op then s.slotRead d (c.slot.toNat + m) else (s, default, false)
  if st.2.2 then (st.1, .inl (c.slot.toNat + m))
  else
    let fresh := decide (m = 0) && !c.gbacc
    let gr : State × List Slot × Option Nat :=
      if gb && !fresh then st.1.slotReads d w.gb (rowC c) else (st.1, cols.map (fun _ => default), none)
    match gr.2.2 with
    | some i => (gr.1, .inl i)
    | none =>
      let die := gr.1.die d
      let dg := gr.2.1.map (fun (q : Slot) => val32 q.a)
      let db := gr.2.1.map (fun (q : Slot) => val32 q.b)
      let g0 : RG := { gens := (List.range 8).map (die.gen 24), mode := c.rmode.toNat,
                       stat := nanIn (ri.x ++ ri.dy ++ ri.gamma ++ ri.beta ++ (if op = 1 then [val32 w.eps] else []) ++
                         (if isBack op then [val32 st.2.1.a, val32 st.2.1.b] else []) ++ (if gb then dg ++ db else []) ++
                         (if isNorm op then [] else [val32 c.param])) }
      let rr : RG × RowRes := match op with
        | 1 => normRow c (val32 w.eps) g0 ri
        | 2 => softmaxRow c g0 ri
        | 3 => normbRow c (val32 st.2.1.a) (val32 st.2.1.b) dg db g0 ri
        | _ => softmaxbRow c (val32 st.2.1.a) (val32 st.2.1.b) g0 ri
      let s2 := gr.1.modDie d (fun y =>
        let y1 := if c.rmode.toNat = 2 then { y with gens := rr.1.gens.zipIdx.foldl (fun gm (e : W64 × Nat) => sput gm (16 * 24 + e.2) e.1) y.gens } else y
        let z0 := match rr.2.slot with
          | some (k, a, b) => y1.scr.setSlot (c.slot.toNat + m) { kind := k, a := code32 a, b := code32 b }
          | none => y1.scr
        let z1 := if gb then (rr.2.dgamma.zip rr.2.dbeta).zipIdx.foldl (fun (z : Scraper) (e : (Val × Val) × Nat) =>
            z.setSlot (w.gb + e.2) { kind := 4, a := code32 e.1.1, b := code32 e.1.2 }) z0 else z0
        { y1 with scr := z1 })
      (s2.arith d rr.1.stat, .inr (rr.2.codes, rr.2.scales))

/-- Cycle, from the first sweep of row m, in which output line i is written or leaves (spec/05 R159): 6 cycles after the one that processes its
last element. -/
def rowLeave (op : Nat) (c : RowCmd) (m i : Nat) : Nat :=
  let tm := rowTiming op c m
  let a := rowAddrOut c m
  let j := min (rowC c - 1) (((a / 64 * 64 + 64 * (i + 1) - a) * 8 - 1) / fmtW c.fmtOut.toNat)
  tm.1 + j * tm.2.1 / rowC c + 6

/-- Scratchpad accesses of a row command issued at cycle t (spec/05 R158, R159; the place of the scale lines is log entry 9). -/
def rowAccs (op : Nat) (c : RowCmd) (t : Nat) : List Acc :=
  let par := if isNorm op then
      (linesOf c.param.toNat (paramBytes c + if usesBeta op c then paramBytes c else 0)).zipIdx.map (fun e =>
        ({ cyc := t + e.2, port := 80, addr := e.1 } : Acc))
    else []
  par ++ (rowStarts op c).zipIdx.flatMap (fun e =>
    let m := e.2
    let tm := rowTiming op c m
    let ins := (if c.src then [] else rowLines c.fmtIn.toNat c (rowAddrIn c m)) ++
      (if isBack op then rowLines c.fmtAux.toNat c (rowAddrAux c m) else [])
    let outs := if c.dst then [] else rowLines c.fmtOut.toNat c (rowAddrOut c m)
    let scl := if c.mx && !c.dst then linesOf (rowAddrAux c m) (scaleCount (rowC c)) else []
    ins.zipIdx.map (fun l => ({ cyc := t + e.1 + l.2, port := 80, addr := l.1 } : Acc)) ++
    outs.zipIdx.map (fun l => ({ cyc := t + e.1 + rowLeave op c m l.2, port := 81, addr := l.1 } : Acc)) ++
    scl.zipIdx.map (fun l => ({ cyc := t + e.1 + tm.1 + tm.2.1 + 6 + l.2, port := 81, addr := l.1 } : Acc)))

/-- One row of a row command as one step: the new state and whether the command has ended by a fault. -/
def State.rowStep (s : State) (d op : Nat) (c : RowCmd) (t m start : Nat) (flits : Option (List Token)) : State × Bool :=
  let w := (s.die d).scr.setting
  if (s.die d).scr.badKind op c w m then (s.scrCmdFault d 7 m, true)
  else
    let q := s.rowEval d op c w m (s.rowIn d op c w m flits)
    match q.2 with
    | .inl i => (q.1.slotFault d i, true)
    | .inr o =>
      ((q.1.putRow d 24 81 (2 + b2n c.laneOut) c.dst (fmtW c.fmtOut.toNat) (rowAddrOut c m) o.1 (rowAddrAux c m) o.2
        (fun i => t + start + rowLeave op c m i)).bumpPerf d CD_SCR_ROWS 1, false)

/-- A row command as one step with its operands at hand, at unstalled cycle t. -/
def State.rowDo (s : State) (d op : Nat) (c : RowCmd) (t : Nat) (flits : Option (List Token)) : State :=
  let r := s.schedRead d (rowAccs op c t)
  if r.2 then
    let len := rowLength op c
    let s1 := (r.1.setScr d { (r.1.die d).scr with busyUntil := t + len }).bumpPerf d CD_SCR_BUSY len
    ((rowStarts op c).zipIdx.foldl (fun (st : (State × Bool) × Nat) e =>
      let k := (rowLines c.fmtIn.toNat c (rowAddrIn c e.2)).length
      if st.1.2 then st
      else (st.1.1.rowStep d op c t e.2 e.1 (flits.map (fun l => (l.drop st.2).take k)), st.2 + k)) ((s1, false), 0)).1.1
  else r.1

/-- A row command under way (spec/05 R149, R159): the scraper is busy until its last sweep ends, and its setting is captured. -/
def State.rowGo (s : State) (d op : Nat) (c : RowCmd) : State :=
  let x := (s.die d).scr
  (s.setScr d { x with busyUntil := (s.die d).cyc + rowLength op c }).launch d 24 (.row op c x.eps x.diag x.gbSlot) []

/-- A row command (spec/05 R151-R161), `whole` as one step with its operands at hand. -/
def State.rowCmd (s : State) (d op : Nat) (c : RowCmd) (whole : Bool) : State :=
  if s.canIssue d 24 then
    match s.rowCause d op c with
    | some n => s.scrCmdFault d n 0
    | none =>
      if whole && !c.src then s.rowDo d op c (s.die d).cyc none
      else if whole && s.laneHas d 24 (b2n c.laneIn) (rowFlits c) then
        let got := s.laneTake d 24 (b2n c.laneIn) (rowFlits c)
        got.1.rowDo d op c (s.die d).cyc (some got.2)
      else s.rowGo d op c
  else s

-- A row command under way (spec/05 R140, R146, R158, R159) ------------------------------------------------------------

/-- Words of the buffers (log entry 75). -/
def bufWord (b m j : Nat) : Nat := 32768 * b + 16384 * (m % 2) + j

/-- A word of the parameter buffer, or of a row buffer, written; its errors go with it. -/
def Scraper.setPar (x : Scraper) (i : Nat) (v : W32) : Scraper := { x with par := nput 0#32 x.par i v, parErr := serase x.parErr i }
def Scraper.setBuf (x : Scraper) (i : Nat) (v : W32) : Scraper := { x with rows := nput 0#32 x.rows i v, rowErr := serase x.rowErr i }

/-- The elements of a row at address a that lie in a line: their numbers and, widened to binary32, their values (spec/05 R151). -/
def lineElems (fmt a n line : Nat) (v : BitVec 512) : List (Nat × W32) :=
  let w := fmtW fmt
  ((List.range n).filter (fun j => decide ((a + w * j / 8) / 64 * 64 = line))).map (fun j =>
    (j, code32 (decodeN (fmtD fmt) (elemAt (fun i => gotByte [(line, v)] (a + i)) w j))))

/-- A line of γ and β in the parameter buffer. -/
def Scraper.fillPar (x : Scraper) (c : RowCmd) (line : Nat) (v : BitVec 512) : Scraper :=
  let put := fun (y : Scraper) (a off : Nat) => (lineElems 0 a (rowC c) line v).foldl (fun z e => z.setPar (off + e.1) e.2) y
  put (put x c.param.toNat 0) (c.param.toNat + paramBytes c) 16384
/-- A line of a row in a row buffer. -/
def Scraper.fillRow (x : Scraper) (b m fmt a n line : Nat) (v : BitVec 512) : Scraper :=
  (lineElems fmt a n line v).foldl (fun z e => z.setBuf (bufWord b m e.1) e.2) x

/-- Reads buffer words with the error check (spec/05 R146): the state, the values, and whether one was uncorrectable. `err` gives the flipped
bits of a word, `val` its value. -/
def State.bufRead (s : State) (d : Nat) (err : Nat → Nat) (val : Nat → W32) (ws : List Nat) : State × List Val × Bool :=
  ws.foldl (fun (st : State × List Val × Bool) i =>
    let j := (eccJudge (err i), st.1)
    match j.1 with
    | .ok => (j.2, st.2.1 ++ [val32 (val i)], st.2.2)
    | .corr => (j.2.bumpErr d CD_SCR_ECC_CORR CD_SCR_STATUS 31 1, st.2.1 ++ [val32 (val i)], st.2.2)
    | .bad => (j.2, st.2.1 ++ [Val.zero], true)
    | .altered k v => (if k then j.2.bumpErr d CD_SCR_ECC_CORR CD_SCR_STATUS 31 1 else j.2,
        st.2.1 ++ [val32 (val i ^^^ BitVec.ofNat 32 v)], st.2.2)) (s, [], false)

/-- The operands of row m from the buffers, and whether a word of them was uncorrectable. -/
def State.rowBuf (s : State) (d op : Nat) (c : RowCmd) (w : RowSet) (m : Nat) : State × RowIn × Bool :=
  let x := (s.die d).scr
  let n := rowC c
  let rd := fun (t : State) (on : Bool) (b : Nat) =>
    if on then t.bufRead d (sget 0 x.rowErr) (sget 0#32 x.rows) ((List.range n).map (bufWord b m)) else (t, [], false)
  let rp := fun (t : State) (on : Bool) (off : Nat) =>
    if on then t.bufRead d (sget 0 x.parErr) (sget 0#32 x.par) ((List.range n).map (off + ·)) else (t, [], false)
  let a := rd s true 0
  let b := rd a.1 (isBack op) 1
  let g := rp b.1 (isNorm op) 0
  let h := rp g.1 (usesBeta op c) 16384
  (h.1, { x := a.2.1, dy := b.2.1, gamma := g.2.1, beta := h.2.1, mask := rowMask op c w m, n := n }, a.2.2 || b.2.2 || g.2.2 || h.2.2)

/-- Unit of an error in a row buffer or the parameter buffer (spec/15 R438). -/
def bufUnit (d : Nat) : Nat := unitCore d 24

/-- The first cycle of the output sweep of row m (spec/05 R159): the row is evaluated, its statistic written, its lines on their way. -/
def State.rowFinish (s : State) (d : Nat) (r : Run) (op : Nat) (c : RowCmd) (w : RowSet) (m start : Nat) : State × Run :=
  let b := s.rowBuf d op c w m
  if b.2.2 then (b.1.scrFaultAt d r.slot r.entry 1 0 m 0x2111 (bufUnit d), r)
  else
    let q := b.1.rowEval d op c w m b.2.1
    match q.2 with
    | .inl i => (q.1.scrFaultAt d r.slot r.entry 1 0 i 0x2111 (unitSram d 144 (i / 256)), r)
    | .inr o =>
      let tm := rowTiming op c m
      let z := q.1.rowOut d 24 81 (2 + b2n c.laneOut) c.dst (fmtW c.fmtOut.toNat) (rowAddrOut c m) o.1 (rowAddrAux c m) o.2
        (fun i => r.t + start + rowLeave op c m i) (fun i => r.t + start + tm.1 + tm.2.1 + 6 + i)
      (z.1, { r with late := r.late ++ z.2 })

/-- The lines that row m takes in cycle o of its first sweep: buffer, format, row address, line, and whether it comes by the lane. -/
def rowTakes (op : Nat) (c : RowCmd) (m o : Nat) : List (Nat × Nat × Nat × Nat × Bool) :=
  let xs := rowLines c.fmtIn.toNat c (rowAddrIn c m)
  let ys := if isBack op then rowLines c.fmtAux.toNat c (rowAddrAux c m) else []
  let x := fun (l : Nat) => (0, c.fmtIn.toNat, rowAddrIn c m, l, c.src)
  let y := fun (l : Nat) => (1, c.fmtAux.toNat, rowAddrAux c m, l, false)
  if c.src then (xs[o]?).toList.map x ++ (ys[o]?).toList.map y
  else match xs[o]? with
    | some l => [x l]
    | none => (ys[o - xs.length]?).toList.map y

/-- Cycle o of row m, counted from its first sweep (spec/05 R158, R159, R161). -/
def State.rowCycle (s : State) (d : Nat) (r : Run) (op : Nat) (c : RowCmd) (w : RowSet) (m start o : Nat) : State × Run :=
  if o = 0 ∧ (s.die d).scr.badKind op c w m then (s.scrFaultAt d r.slot r.entry 0 7 m 0x2110 (unitCore d 24), r)
  else
    let s1 := (rowTakes op c m o).foldl (fun t e =>
      let q := t.lineTake d 24 e.2.2.2.2 (b2n c.laneIn) 80 e.2.2.2.1
      match q.2 with
      | some v => q.1.setScr d ((q.1.die d).scr.fillRow e.1 m e.2.1 e.2.2.1 (rowC c) e.2.2.2.1 v)
      | none => q.1) s
    let tm := rowTiming op c m
    let q := if o = tm.1 then s1.rowFinish d r op c w m start else (s1, r)
    (if o + 1 = tm.2.2 then q.1.bumpPerf d CD_SCR_ROWS 1 else q.1, q.2)

/-- The row of a row command under way in cycle n from its issue: its number and first cycle. -/
def rowAt (op : Nat) (c : RowCmd) (n : Nat) : Option (Nat × Nat) :=
  ((rowStarts op c).zipIdx.find? (fun e => decide (e.1 ≤ n) && decide (n < e.1 + (rowTiming op c e.2).2.2))).map (fun e => (e.2, e.1))

/-- Cycle n of a row command under way: its parameters first, then its rows. -/
def State.rowRun (s : State) (d : Nat) (r : Run) (op : Nat) (c : RowCmd) (w : RowSet) (n : Nat) : State × Run :=
  let s0 := if n < rowLength op c then s.bumpPerf d CD_SCR_BUSY 1 else s
  if n < parLines op c then
    match (linesOf c.param.toNat (64 * parLines op c))[n]? with
    | some a =>
      let q := s0.lineRead d 80 a
      match q.2 with
      | some v => (q.1.setScr d ((q.1.die d).scr.fillPar c a v), r)
      | none => (q.1, r)
    | none => (s0, r)
  else
    match rowAt op c n with
    | some e => s0.rowCycle d r op c w e.1 e.2 (n - e.2)
    | none => (s0, r)

-- SMOVE, SETUP (spec/05 R149, R150) -----------------------------------------------------------------------------------

/-- Slots of an SMOVE. -/
def smoveN (c : SmoveCmd) : Nat := c.countM1.toNat + 1

/-- Command fault causes of an SMOVE (spec/05 R161); an ADDR off a line is cause 4 (log entry 84). DIR: 0 OUT, 1 IN, 2 CLEAR. -/
def State.smoveCause (s : State) (d dir : Nat) (c : SmoveCmd) : Option Nat :=
  lowestCause [
    (decide (dir ≠ 2) && decide (c.addr.toNat % 64 ≠ 0), 4),
    (decide (dir ≠ 2) && !s.spadRangeOk d c.addr.toNat (8 * smoveN c), 5),
    (decide (262143 < c.slot.toNat + smoveN c - 1), 6),
    (decide ((s.die d).cyc < (s.die d).scr.busyUntil), 8),
    (c.rsv || (if dir = 1 then !(decide (1 ≤ c.kind.toNat) && decide (c.kind.toNat ≤ 4)) else decide (c.kind.toNat ≠ 0)), 9)]

/-- The scheduled accesses of an SMOVE issued at cycle t. -/
def smoveAccs (c : SmoveCmd) (dir t : Nat) : List Acc :=
  if dir = 2 then [] else
    (linesOf c.addr.toNat (8 * smoveN c)).zipIdx.map (fun e => { cyc := t + e.2, port := if dir = 1 then 80 else 81, addr := e.1 })

/-- Cycles of an SMOVE: ⌈COUNT/8⌉, plus 4 for IN (spec/05 R150). -/
def smoveLen (c : SmoveCmd) (dir : Nat) : Nat := cdiv (smoveN c) 8 + (if dir = 1 then 4 else 0)

/-- Bytes of slots, as SMOVE OUT writes them (spec/05 R150). -/
def slotBytes (l : List Slot) : List Byte := l.flatMap (fun v => leBytes 4 v.a.toNat ++ leBytes 4 v.b.toNat)

/-- The two values of a slot in its eight bytes. -/
def slotVals (bs : List Byte) : W32 × W32 := (BitVec.ofNat 32 (leVal (bs.take 4)), BitVec.ofNat 32 (leVal ((bs.drop 4).take 4)))

/-- Slots from `first` upward take values and a kind. -/
def Scraper.fillSlots (x : Scraper) (first kind : Nat) (vs : List (W32 × W32)) : Scraper :=
  vs.zipIdx.foldl (fun z e => z.setSlot (first + e.2) { kind := kind, a := e.1.1, b := e.1.2 }) x

/-- Slots emptied (spec/05 R144, R150). -/
def Scraper.emptySlots (x : Scraper) (first n : Nat) : Scraper :=
  { x with side := dropKeys x.side first (first + n), sideErr := dropKeys x.sideErr (2 * first) (2 * (first + n)) }

/-- An SMOVE as one step at unstalled cycle t (spec/05 R150). -/
def State.smoveDo (s : State) (d dir : Nat) (c : SmoveCmd) (t : Nat) : State :=
  let n := smoveN c
  let r := if dir = 1 then s.schedRead d (smoveAccs c dir t) else s.schedule d (smoveAccs c dir t)
  if r.2 then
    let s1 := (r.1.setScr d { (r.1.die d).scr with busyUntil := t + smoveLen c dir }).bumpPerf d CD_SCR_BUSY (smoveLen c dir)
    if dir = 0 then
      let out := s1.slotReads d c.slot.toNat n
      match out.2.2 with
      | some i => out.1.slotFault d i
      | none => out.1.spadStoreBytes d 81 c.addr.toNat (slotBytes out.2.1) true
    else if dir = 1 then
      s1.setScr d ((s1.die d).scr.fillSlots c.slot.toNat c.kind.toNat
        ((List.range n).map (fun i => slotVals (s1.spadBytes d (c.addr.toNat + 8 * i) 8))))
    else s1.setScr d ((s1.die d).scr.emptySlots c.slot.toNat n)
  else r.1

/-- SMOVE (spec/05 R150), `whole` as one step. -/
def State.smove (s : State) (d dir : Nat) (c : SmoveCmd) (whole : Bool) : State :=
  if s.canIssue d 24 then
    match s.smoveCause d dir c with
    | some n => s.scrCmdFault d n 0
    | none =>
      if whole then s.smoveDo d dir c (s.die d).cyc
      else (s.setScr d { (s.die d).scr with busyUntil := (s.die d).cyc + smoveLen c dir }).launch d 24 (.smove dir c) []
  else s

/-- Cycle n of an SMOVE under way (spec/05 R150): eight slots, one line. A line read reaches its slots 4 cycles later (R140). -/
def State.smoveStep (s : State) (d : Nat) (r : Run) (dir : Nat) (c : SmoveCmd) (n : Nat) : State × Run :=
  let u := (s.die d).cyc
  let s0 := if n < smoveLen c dir then s.bumpPerf d CD_SCR_BUSY 1 else s
  let cnt := min 8 (smoveN c - 8 * n)
  let first := c.slot.toNat + 8 * n
  let a := c.addr.toNat + 64 * n
  if cnt = 0 then (s0, r)
  else if dir = 0 then
    let out := s0.slotReads d first cnt
    match out.2.2 with
    | some i => (out.1.scrFaultAt d r.slot r.entry 1 0 i 0x2111 (unitSram d 144 (i / 256)), r)
    | none => (out.1, { r with late := r.late ++ [(u, .store 81 a (64 * cnt) (leVal (slotBytes out.2.1)))] })
  else if dir = 1 then
    let q := s0.lineRead d 80 a
    match q.2 with
    | some v =>
      (q.1, { r with late := r.late ++ [(u + 4, .slots first c.kind.toNat
        ((List.range cnt).map (fun i => slotVals (leBytes 8 (v.toNat >>> (64 * i))))))] })
    | none => (q.1, r)
  else (s0, { r with late := r.late ++ [(u, .slots first 0 ((List.range cnt).map (fun _ => (0#32, 0#32))))] })

/-- SETUP (spec/05 R149): it may issue while the scraper is busy. -/
def State.setup (s : State) (d : Nat) (c : SetupCmd) : State :=
  if s.canIssue d 24 then
    if c.rsv then s.scrCmdFault d 9 0
    else s.setScr d { (s.die d).scr with eps := c.eps, diag := c.diag, gbSlot := c.gbSlot }
  else s

/-- NOP (spec/05 R147); a reserved field is cause 9. -/
def State.scrNop (s : State) (d : Nat) (rsv : Bool) : State := if s.canIssue d 24 && rsv then s.scrCmdFault d 9 0 else s

-- The meanings --------------------------------------------------------------------------------------------------------

/-- SCR_NOP (spec/05 R147). -/
def execScrNop (die : Nat) (rsv : Bool) (s : State) : Host.Outcome State Fault Refusal :=
  guard (Instr.scrNop die rsv).wf (s.scrNop die rsv)
/-- NORM (spec/05 R153). -/
def execNorm (die : Nat) (c : RowCmd) (s : State) : Host.Outcome State Fault Refusal :=
  guard (Instr.norm die c).wf (s.rowCmd die 1 c true)
/-- SOFTMAX (spec/05 R153). -/
def execSoftmax (die : Nat) (c : RowCmd) (s : State) : Host.Outcome State Fault Refusal :=
  guard (Instr.softmax die c).wf (s.rowCmd die 2 c true)
/-- NORMB (spec/05 R153, R156). -/
def execNormb (die : Nat) (c : RowCmd) (s : State) : Host.Outcome State Fault Refusal :=
  guard (Instr.normb die c).wf (s.rowCmd die 3 c true)
/-- SOFTMAXB (spec/05 R153, R155). -/
def execSoftmaxb (die : Nat) (c : RowCmd) (s : State) : Host.Outcome State Fault Refusal :=
  guard (Instr.softmaxb die c).wf (s.rowCmd die 4 c true)
/-- SMOVE with DIR = OUT (spec/05 R150). -/
def execSmoveOut (die : Nat) (c : SmoveCmd) (s : State) : Host.Outcome State Fault Refusal :=
  guard (Instr.smoveOut die c).wf (s.smove die 0 c true)
/-- SMOVE with DIR = IN (spec/05 R150). -/
def execSmoveIn (die : Nat) (c : SmoveCmd) (s : State) : Host.Outcome State Fault Refusal :=
  guard (Instr.smoveIn die c).wf (s.smove die 1 c true)
/-- SMOVE with DIR = CLEAR (spec/05 R150). -/
def execSmoveClear (die : Nat) (c : SmoveCmd) (s : State) : Host.Outcome State Fault Refusal :=
  guard (Instr.smoveClear die c).wf (s.smove die 2 c true)
/-- SETUP (spec/05 R149). -/
def execSetup (die : Nat) (c : SetupCmd) (s : State) : Host.Outcome State Fault Refusal :=
  guard (Instr.setup die c).wf (s.setup die c)

end Sys2Proof.Machine
end

