-- ==== Sys2Proof/Machine/Vcore.lean ====
section
/-! DEFINITION. The V-core's instructions (spec/06 R163-R174). Registers are read at issue; a result waits in `pend` until its latency
has passed (R165). A VLD, VST or VRECV that the sequencer issues moves its lines in the cycles R170 states; as a row of the table it moves them
in one step (spec/95, log entry 4). V-core v is place 16 + v. -/

namespace Sys2Proof.Machine

/-- Elements of w bits of a register. -/
def regElems (r : BitVec 2048) (w n : Nat) : List Nat := (List.range n).map (fun k => r.toNat >>> (w * k) % 2 ^ w)

end Sys2Proof.Machine

namespace Sys2Proof

open Sys2Proof.Machine

-- Operands ------------------------------------------------------------------------------------------------------------

/-- FMT = 0xB reads binary64 elements (spec/06 R164). -/
def VIns.f64 (i : VIns) : Bool := decide (i.fmt.toNat = 11)
/-- Elements of an instruction. -/
def VIns.count (i : VIns) : Nat := if i.f64 then 32 else 64
/-- Element width in a register. -/
def VIns.width (i : VIns) : Nat := if i.f64 then 64 else 32
def VIns.ffmt (i : VIns) : FFmt := if i.f64 then b64 else b32
/-- The signed immediate. -/
def VIns.simm (i : VIns) : Int := signedOf 17 i.imm.toNat
def VIns.inc (i : VIns) : Bool := i.va.getLsbD 3
def VIns.mx (i : VIns) : Bool := i.va.getLsbD 4
def VIns.ar (i : VIns) : Nat := i.va.toNat % 8
def VIns.sar (i : VIns) : Nat := i.vb.toNat % 8
def VIns.lane (i : VIns) : Nat := i.va.toNat % 2
/-- The register that VST and VSEND send: no rule names its field (log entry 10). -/
def VIns.stored (i : VIns) : Nat := if Config.storeInVd then i.vd.toNat else i.vc.toNat
/-- Values of a register's elements. -/
def VIns.vals (i : VIns) (r : BitVec 2048) : List Val := (regElems r i.width i.count).map (decodeF i.ffmt)
/-- Bytes a VLD, VST, VRECV or VSEND moves (spec/06 R170). -/
def VIns.bytes (i : VIns) : Nat := if i.f64 then 256 else 8 * fmtW i.fmt.toNat
/-- Flits of a VRECV or VSEND. -/
def VIns.flits (i : VIns) : Nat := cdiv i.bytes 64
/-- Lanes on which the elements of an instruction round (spec/06 R163, R164; log entry 9 for binary64). -/
def VIns.lanes (i : VIns) : List Nat :=
  if i.f64 then (List.range 32).map (fun l => 2 * l + Config.half64 l % 2) else List.range 64
/-- Source registers read from the register file. -/
def VIns.srcs (i : VIns) (op : Nat) : List Nat :=
  if op = 2 ∨ op = 4 then [i.stored]
  else if op = 0 ∨ op = 1 ∨ op = 3 ∨ op = 27 then []
  else if op = 19 ∨ op = 20 then [i.va.toNat, i.vb.toNat, i.vc.toNat]
  else if op = 24 ∨ op = 25 ∨ op = 26 ∨ 48 ≤ op then [i.va.toNat]
  else [i.va.toNat, i.vb.toNat]
/-- Where the result goes; none for VNOP, VST, VSEND and for a write to m0. -/
def VIns.dest (i : VIns) (op : Nat) : Option VDest :=
  if op = 0 ∨ op = 2 ∨ op = 4 then none
  else if op = 32 then (if i.vd.toNat % 8 = 0 then none else some (.mask (i.vd.toNat % 8)))
  else some (.reg i.vd.toNat)
/-- Widening of loaded elements to the register (spec/06 R167, R170): codes and status. `scales` is none without MX. Only a scaled MX value can
leave the range of the register's format: it overflows under RMODE and SAT (spec/02 R61, R75, R76); every other value is exact, so that
no draw decides. -/
def VIns.widen (i : VIns) (src : Nat → Byte) (scales : Option (Nat → Nat)) : List (Nat × Stat) :=
  (List.range i.count).map (fun k =>
    let c := elemAt src (fmtW i.fmt.toNat) k
    let x := match scales with
      | some sc => mxVal i.fmt.toNat (sc (k / 32)) c
      | none => decodeN (fmtD i.fmt.toNat) c
    let z := convF i.ffmt i.rmode.toNat i.sat 0 x
    (z.1, (nanIn [x]).or z.2))

end Sys2Proof

namespace Sys2Proof.Machine

/-- A vector register as stored. -/
def Vcore.reg (y : Vcore) (r : Nat) : BitVec 2048 := sget 0#2048 y.regs r

/-- A mask register; m0 reads as all ones (spec/06 R163). -/
def Vcore.mask (y : Vcore) (k : Nat) : Nat := if k = 0 then 2 ^ 64 - 1 else (sget 0#64 y.masks k).toNat

/-- Bits of the 32-bit lanes that `en` marks. -/
def laneMask (en : Nat) : Nat := (List.range 64).foldl (fun a l => if en.testBit l then a + (2 ^ 32 - 1) <<< (32 * l) else a) 0

/-- Bits of `new` where `m` is set, of `old` elsewhere. -/
def mergeBits (old new m : Nat) : Nat := (old - (old &&& m)) + (new &&& m)

/-- One result reaches its register: the lanes it writes, their stored errors gone. -/
def Vcore.land (y : Vcore) (p : VPend) : Vcore :=
  match p.dest with
  | .reg n =>
    { y with
      regs := nput 0#2048 y.regs n (BitVec.ofNat 2048 (mergeBits (y.reg n).toNat p.val.toNat (laneMask p.en.toNat)))
      regErr := y.regErr.filter (fun e => !(decide (e.1 / 64 = n) && p.en.getLsbD (e.1 % 64))) }
  | .mask n =>
    if n = 0 then y
    else { y with masks := nput 0#64 y.masks n (BitVec.ofNat 64 (mergeBits (y.mask n) p.val.toNat p.en.toNat)) }

/-- Results seen by an instruction that issues at cycle t, the earliest first (spec/06 R165). -/
def Vcore.settle (y : Vcore) (t : Nat) : Vcore :=
  let z := (y.pend.filter (fun p => decide (p.due ≤ t))).foldl Vcore.land y
  { z with pend := y.pend.filter (fun p => decide (t < p.due)) }

/-- A result put in order of its cycle. -/
def insPend (p : VPend) : List VPend → List VPend
  | [] => [p]
  | q :: r => if p.due < q.due then p :: q :: r else q :: insPend p r

/-- An address register (spec/06 R163). -/
def Vcore.base (y : Vcore) (k : Nat) : Nat := (sget 0#32 y.arBase k).toNat
/-- INC: BASE increases by 16 × STEP (spec/06 R166). -/
def Vcore.inc (y : Vcore) (k : Nat) : Vcore :=
  let b := BitVec.ofNat 32 (toTwos 32 ((y.base k : Int) + 16 * signedOf 14 (sget 0#14 y.arStep k).toNat))
  { y with arBase := nput 0#32 y.arBase k b }

-- Operands ------------------------------------------------------------------------------------------------------------

/-- Byte address of a VLD or VST: BASE + 16 · IMM. -/
def Vcore.addr (y : Vcore) (i : VIns) : Nat := toTwos 32 ((y.base i.ar : Int) + 16 * i.simm)
/-- Lines of an access: its data lines, then the line of its scales. -/
def Vcore.lines (y : Vcore) (i : VIns) : List Nat :=
  linesOf (y.addr i) i.bytes ++ (if i.mx then [y.base i.sar / 64 * 64] else [])

-- Opcodes (spec/06 R167) ----------------------------------------------------------------------------------------------

/-- Memory and lane instructions: VLD, VST, VRECV, VSEND. -/
def isMove (op : Nat) : Bool := decide (1 ≤ op) && decide (op ≤ 4)
/-- The opcodes of R167 in the general layout. -/
def vKnown (op : Nat) : Bool :=
  decide (op ≤ 4) || (decide (16 ≤ op) && decide (op ≤ 27)) || (decide (32 ≤ op) && decide (op ≤ 33)) ||
    (decide (40 ≤ op) && decide (op ≤ 46)) || (decide (48 ≤ op) && decide (op ≤ 50))
/-- Latency (spec/06 R167); n lines or flits. -/
def vLat (op n : Nat) : Nat :=
  if op = 1 then n + 5 else if op = 3 then n + 2 else if op = 23 ∨ op = 24 then 24 else if op = 27 then 1
  else if op = 32 ∨ op = 33 ∨ (40 ≤ op ∧ op ≤ 46) ∨ op = 50 then 2 else if op = 48 ∨ op = 49 then 14 else 4

/-- Cycles in which results reach a register: those in the pipeline, and those of loads and receives under way. -/
def State.vDues (s : State) (d v : Nat) (r : VDest) : List Nat :=
  ((s.vc d v).pend.filter (fun p => decide (p.dest = r))).map (·.due) ++
    (s.die d).runs.filterMap (fun q =>
      if q.place = 16 + v ∧ q.cut.isNone then
        (match q.cmd with
         | .vld i ln _ _ => if VDest.reg i.vd.toNat = r then some (q.t + vLat 1 ln.length) else none
         | .vrecv i => if VDest.reg i.vd.toNat = r then some (q.t + vLat 3 i.flits) else none
         | _ => none)
      else none)

/-- Fault causes (spec/06 R172). -/
def State.vCause (s : State) (d v op : Nat) (i : VIns) : Option Nat :=
  let y := s.vc d v
  let t := (s.die d).cyc
  let f := i.fmt.toNat
  let mem := decide (op = 1) || decide (op = 2)
  let n := if op = 3 then i.flits else (y.lines i).length
  lowestCause [
    (!vKnown op, 1),
    (decide (i.rmode.toNat = 3) || (if isMove op then decide (11 < f) else decide (op ≠ 0) && decide (f ≠ 0) && decide (f ≠ 11)), 2),
    (mem && (!rowOk (y.addr i) i.bytes || (i.mx && decide (62 < y.base i.sar % 64))), 3),
    (mem && !(s.spadRangeOk d (y.addr i) i.bytes && (!i.mx || s.spadOk d (y.base i.sar))), 4),
    ((decide (op = 1) && decide (t < y.loadUntil)) || (decide (op = 2) && decide (y.storeFrom ≤ t) && decide (t < y.storeUntil)) ||
      ((decide (op = 23) || decide (op = 24)) && decide (t < y.divUntil)), 5),
    ((match i.dest op with
      | none => false
      | some r => (s.vDues d v r).contains (t + vLat op n)), 6),
    (mem && i.mx && !mxOk f, 7),
    (i.rsv || (mem && decide (i.va.toNat / 32 ≠ 0)) || (decide (op = 32) && decide (4 < i.imm.toNat % 8)), 8)]

/-- Reads source registers with the error check (spec/06 R163, R172, R532): the first uncorrectable register. -/
def State.vCheck (s : State) (d v : Nat) (rs : List Nat) : State × Option Nat :=
  if (s.vc d v).regErr = [] then (s, none)
  else
    (rs.flatMap (fun r => (List.range 64).map (fun w => 64 * r + w))).foldl (fun (st : State × Option Nat) k =>
      let j := (eccJudge (sget 0 (st.1.vc d v).regErr k), st.1)
      match j.1 with
      | .ok => (j.2, st.2)
      | .corr => (j.2.bumpErr d (CD_VC_ECC_CORR v) (CD_VC_STATUS v) 31 1, st.2)
      | .bad => (j.2, st.2.or (some (k / 64)))
      | .altered cnt w =>
        let y := j.2.vc d v
        let r := y.reg (k / 64) ^^^ BitVec.ofNat 2048 ((w % 2 ^ 32) <<< (32 * (k % 64)))
        let t := j.2.setVc d v { y with regs := nput 0#2048 y.regs (k / 64) r, regErr := eccLeft y.regErr k cnt }
        (if cnt then t.bumpErr d (CD_VC_ECC_CORR v) (CD_VC_STATUS v) 31 1 else t, st.2)) (s, none)

-- Results -------------------------------------------------------------------------------------------------------------

/-- Element results of w bits: codes, and the status each element sets. -/
structure VRes where
  w : Nat
  els : List (Nat × Stat)
deriving Repr, Inhabited

/-- Lanes that a result of w-bit elements writes under element mask m. -/
def enOf (w n m : Nat) : Nat :=
  (List.range n).foldl (fun a k => if m.testBit k then a + (if w = 64 then 3 <<< (2 * k) else 1 <<< k) else a) 0

/-- Sends a result to its register; masked elements set no status (spec/06 R168). -/
def State.vResult (s : State) (d v lat m : Nat) (dest : VDest) (r : VRes) : State :=
  let y := s.vc d v
  let val := packElems r.w (r.els.map (·.1))
  let en := match dest with
    | .reg _ => enOf r.w r.els.length m
    | .mask _ => 2 ^ r.els.length - 1
  let live := r.els.zipIdx.filter (fun e => m.testBit e.2)
  let p : VPend := { due := (s.die d).cyc + lat, dest := dest, val := BitVec.ofNat 2048 val, en := BitVec.ofNat 64 en }
  ((s.setVc d v { y with pend := insPend p y.pend }).arith d (live.foldl (fun a e => a.or e.1.2) Stat.none)).bumpPerf d
    (CD_VC_LANEOPS v) live.length

/-- The exact result of a lane operation (spec/06 R167). -/
def vFloat (op : Nat) (a b c : Val) : Val × Stat :=
  match op with
  | 16 => addV a b
  | 17 => addV a b.neg
  | 18 => mulV a b
  | 19 => fmaV a b c
  | 20 => fmaV a.neg b c
  | 21 => (minNumV a b, Stat.none)
  | 22 => (maxNumV a b, Stat.none)
  | 23 => divV a b
  | _ => sqrtV a

/-- VADD to VSQRT: one rounding of the exact result on each lane; VMIN and VMAX round nothing. -/
def State.vArith (s : State) (d v op m : Nat) (i : VIns) : State :=
  let y := s.vc d v
  let mode := if op = 21 ∨ op = 22 then 0 else i.rmode.toNat
  let dr := s.drawsFor d (16 + v) mode i.lanes
  let a := i.vals (y.reg i.va.toNat)
  let b := if (i.srcs op).length < 2 then a else i.vals (y.reg i.vb.toNat)
  let c := if (i.srcs op).length < 3 then a else i.vals (y.reg i.vc.toNat)
  let els := ((a.zip (b.zip c)).zip dr.2).map (fun q =>
    let x := vFloat op q.1.1 q.1.2.1 q.1.2.2
    let z := convF i.ffmt mode i.sat q.2 x.1
    let ops := [q.1.1] ++ (if (i.srcs op).length < 2 then [] else [q.1.2.1]) ++ (if (i.srcs op).length < 3 then [] else [q.1.2.2])
    (z.1, ((nanIn ops).or x.2).or z.2))
  dr.1.vResult d v (vLat op 0) m (.reg i.vd.toNat) { w := i.width, els := els }

/-- VCVT (spec/06 R167). -/
def State.vCvt (s : State) (d v m : Nat) (i : VIns) : State :=
  let r := (s.vc d v).reg i.va.toNat
  if i.imm.getLsbD 0 then
    let els := (regElems r 32 32).map (fun c => let x := decodeF b32 c; let z := convF b64 0 false 0 x; (z.1, (nanIn [x]).or z.2))
    s.vResult d v 4 m (.reg i.vd.toNat) { w := 64, els := els }
  else
    let dr := s.drawsFor d (16 + v) i.rmode.toNat (List.range 32)
    let els := ((regElems r 64 32).zip dr.2).map (fun q =>
      let x := decodeF b64 q.1
      let z := convF b32 i.rmode.toNat i.sat q.2 x
      (z.1, (nanIn [x]).or z.2))
    dr.1.vResult d v 4 m (.reg i.vd.toNat) { w := 32, els := els ++ List.replicate 32 (0, Stat.none) }

/-- VCVTI (spec/06 R167). -/
def State.vCvti (s : State) (d v m : Nat) (i : VIns) : State :=
  let r := (s.vc d v).reg i.va.toNat
  let dr := s.drawsFor d (16 + v) i.rmode.toNat (List.range 64)
  let els := ((regElems r 32 64).zip dr.2).map (fun q =>
    if i.imm.getLsbD 0 then
      let x := decodeF b32 q.1
      let z := convN (.int 32) i.rmode.toNat i.sat q.2 x
      (z.1, (nanIn [x]).or z.2)
    else convF b32 i.rmode.toNat i.sat q.2 (valOfInt (signedOf 32 q.1)))
  dr.1.vResult d v 4 m (.reg i.vd.toNat) { w := 32, els := els }

/-- VLDI: bits 31:15 are IMM (spec/06 R167). -/
def State.vLdi (s : State) (d v m : Nat) (i : VIns) : State :=
  s.vResult d v 1 m (.reg i.vd.toNat) { w := 32, els := List.replicate 64 (i.imm.toNat * 2 ^ 15, Stat.none) }

/-- The condition of a VCMP (spec/06 R167). -/
def vCond (cond : Nat) (a b : Val) : Bool :=
  match cond with
  | 0 => eqV a b
  | 1 => ltV a b
  | 2 => ltV a b || eqV a b
  | 3 => !eqV a b
  | _ => a.isNan || b.isNan

/-- VCMP: not masked (spec/06 R168). -/
def State.vCmp (s : State) (d v : Nat) (i : VIns) : State :=
  let y := s.vc d v
  let els := ((i.vals (y.reg i.va.toNat)).zip (i.vals (y.reg i.vb.toNat))).map (fun p =>
    (b2n (vCond (i.imm.toNat % 8) p.1 p.2), nanIn [p.1, p.2]))
  match i.dest 32 with
  | some dst => s.vResult d v 2 (2 ^ 64 - 1) dst { w := 1, els := els }
  | none => s.arith d (els.foldl (fun a e => a.or e.2) Stat.none)

/-- VSEL: MASK is its operand (spec/06 R167, R168). -/
def State.vSel (s : State) (d v m : Nat) (i : VIns) : State :=
  let y := s.vc d v
  let a := regElems (y.reg i.va.toNat) i.width i.count
  let b := regElems (y.reg i.vb.toNat) i.width i.count
  s.vResult d v 2 (2 ^ 64 - 1) (.reg i.vd.toNat)
    { w := i.width, els := (a.zip b).zipIdx.map (fun e => (if m.testBit e.2 then e.1.1 else e.1.2, Stat.none)) }

/-- 32-bit two's complement operations (spec/06 R167). -/
def vInt (op a b : Nat) : Nat :=
  match op with
  | 40 => (a + b) % 2 ^ 32
  | 41 => wrapSub 32 a b
  | 42 => a &&& b
  | 43 => a ||| b
  | 44 => Nat.xor a b
  | 45 => a <<< (b % 32) % 2 ^ 32
  | _ => toTwos 32 (signedOf 32 a / (2 ^ (b % 32) : Nat))

/-- VIADD to VSHR: 64 lanes of 32 bits. -/
def State.vInts (s : State) (d v op m : Nat) (i : VIns) : State :=
  let y := s.vc d v
  let els := ((regElems (y.reg i.va.toNat) 32 64).zip (regElems (y.reg i.vb.toNat) 32 64)).map (fun p => (vInt op p.1 p.2, Stat.none))
  s.vResult d v 2 m (.reg i.vd.toNat) { w := 32, els := els }

/-- The levels of a VREDSUM: pairs rounded in the instruction's mode, each on a lane that holds an operand (spec/06 R167, spec/02 R60,
R64). -/
def State.vTree : Nat → State → Nat → Nat → VIns → Stat → List (Val × Nat) → State × Val × Stat
  | 0, s, _, _, _, st, l => (s, (l.headD default).1, st)
  | n + 1, s, d, v, i, st, l =>
    let ps := combinePairs n l
    let dr := s.drawsFor d (16 + v) i.rmode.toNat (ps.map (·.2))
    let rs := (ps.zip dr.2).map (fun p =>
      let x := addV p.1.1.1 p.1.1.2
      let z := convF i.ffmt i.rmode.toNat i.sat p.2 x.1
      (decodeF i.ffmt z.1, x.2.or z.2))
    State.vTree n dr.1 d v i (rs.foldl (fun a e => a.or e.2) st) ((rs.map (·.1)).zip (ps.map (·.2)))

/-- VREDSUM and VREDMAX: lane 0 takes the result, the others +0 (spec/06 R167). -/
def State.vRed (s : State) (d v op m : Nat) (i : VIns) : State :=
  let xs := i.vals ((s.vc d v).reg i.va.toNat)
  let t := if op = 48 then s.vTree (if i.f64 then 5 else 6) d v i (nanIn xs) (xs.zip i.lanes)
    else (s, xs.foldl maxV (.inf true), nanIn xs)
  t.1.vResult d v 14 m (.reg i.vd.toNat)
    { w := i.width, els := ((convF i.ffmt 0 false 0 t.2.1).1, t.2.2) :: List.replicate (i.count - 1) (0, Stat.none) }

/-- VBCAST: a binary64 element number of 32 or more names no element, and the value is open (spec/06 R167; log entry 6). -/
def State.vBcast (s : State) (d v m : Nat) (i : VIns) : State :=
  let k := i.imm.toNat % 64
  let e := (regElems ((s.vc d v).reg i.va.toNat) i.width i.count)[k]?
  match e with
  | some x => s.vResult d v 2 m (.reg i.vd.toNat) { w := i.width, els := List.replicate i.count (x, Stat.none) }
  | none => s.takeFree.vResult d v 2 m (.reg i.vd.toNat) { w := i.width, els := List.replicate i.count (s.freeVal % 2 ^ 64, Stat.none) }

/-- The scheduled reads of a VLD issued at cycle t, over the lines ln (spec/06 R170). -/
def vldAccs (v t : Nat) (ln : List Nat) : List Acc := ln.zipIdx.map (fun e => { cyc := t + e.2, port := 64 + 2 * v, addr := e.1 })
/-- The scheduled writes of a VST issued at cycle t. -/
def vstAccs (v t : Nat) (ln : List Nat) : List Acc := ln.zipIdx.map (fun e => { cyc := t + 2 + e.2, port := 65 + 2 * v, addr := e.1 })

/-- INC of a VLD or VST: the address registers that it advances (spec/06 R166, R170). -/
def vAdvance (i : VIns) (y : Vcore) : Vcore := if i.inc then (if i.mx then (y.inc i.ar).inc i.sar else y.inc i.ar) else y

/-- What a VLD writes to its register, from the bytes of its data and of its scales. -/
def vLoaded (i : VIns) (src scaleSrc : Nat → Byte) : VRes :=
  { w := i.width, els := i.widen src (if i.mx then some (fun b => (scaleSrc b).toNat) else none) }

/-- VLD (spec/06 R167, R170), `whole` as one step. -/
def State.vLoad (s : State) (d v : Nat) (i : VIns) (whole : Bool) : State :=
  let y := s.vc d v
  let t := (s.die d).cyc
  let ln := y.lines i
  let y1 := { (vAdvance i y) with loadUntil := t + ln.length }
  if whole then
    let r := s.schedRead d (vldAccs v t ln)
    if r.2 then
      (r.1.setVc d v y1).vResult d v (vLat 1 ln.length) (2 ^ 64 - 1) (.reg i.vd.toNat)
        (vLoaded i (fun k => r.1.spadByte d (y.addr i + k)) (fun b => r.1.spadByte d (y.base i.sar + b)))
    else r.1
  else (s.setVc d v y1).launch d (16 + v) (.vld i ln (y.addr i) (y.base i.sar)) []

/-- Cycle n of a VLD under way (spec/06 R170): it reads line n; with the last one its result is on its way to the register. -/
def State.vLoadStep (s : State) (d : Nat) (r : Run) (i : VIns) (ln : List Nat) (addr scale n : Nat) : State × Run :=
  let v := r.place - 16
  match ln[n]? with
  | none => (s, r)
  | some a =>
    let q := s.lineRead d (64 + 2 * v) a
    match q.2 with
    | none => (q.1, r)
    | some x =>
      let r1 := { r with got := (a, x) :: r.got }
      if n + 1 = ln.length then
        (q.1.vResult d v (vLat 1 ln.length - n) (2 ^ 64 - 1) (.reg i.vd.toNat)
          (vLoaded i (fun k => gotByte r1.got (addr + k)) (fun b => gotByte r1.got (scale + b))), r1)
      else (q.1, r1)

/-- The codes and scales that a VST or VSEND sends (spec/06 R167, R170). A format as wide as the lanes takes no rounding and no draw. -/
def State.vNarrow (s : State) (d v : Nat) (i : VIns) (mx : Bool) : State × List Nat × List Nat :=
  let f := i.fmt.toNat
  let mode := if f = 0 ∨ f = 11 then 0 else i.rmode.toNat
  let dr := s.drawsFor d (16 + v) mode (List.range i.count)
  let cv := convRow f mode i.sat mx dr.2 (i.vals ((s.vc d v).reg i.stored))
  (dr.1.arith d cv.2.2, cv.1, cv.2.1)

/-- VST (spec/06 R167, R170), `whole` as one step. The lanes are read and rounded at issue; line k is written in cycle t + 2 + k. -/
def State.vStore (s : State) (d v : Nat) (i : VIns) (whole : Bool) : State :=
  let y := s.vc d v
  let t := (s.die d).cyc
  let ln := y.lines i
  let w := fmtW i.fmt.toNat
  let y1 : Vcore := { (vAdvance i y) with
    storeFrom := if y.storeUntil < t + 2 then t + 2 else y.storeFrom, storeUntil := max y.storeUntil (t + 2 + ln.length) }
  let r := if whole then s.schedule d (vstAccs v t ln) else (s, true)
  if r.2 then
    let cv := r.1.vNarrow d v i i.mx
    let s1 := cv.1.setVc d v y1
    let port := 65 + 2 * v
    let data := (y.addr i, 8 * i.bytes, packElems w cv.2.1)
    let scales := if i.mx then [(y.base i.sar, 16, packElems 8 cv.2.2)] else []
    if whole then (data :: scales).foldl (fun u e => u.spadStore d port e.1 e.2.1 e.2.2 true) s1
    else
      s1.launch d (16 + v) (.vst i) ((lineParts data.1 data.2.1 data.2.2 ++ scales).zipIdx.map (fun e =>
        (t + 2 + e.2, .store port e.1.1 e.1.2.1 e.1.2.2)))
  else r.1

/-- VSEND: n flits that leave from t + 2 (spec/06 R167). -/
def State.vSend (s : State) (d v : Nat) (i : VIns) : State :=
  let cv := s.vNarrow d v i false
  let whole := packElems (fmtW i.fmt.toNat) cv.2.1
  cv.1.laneOut d (16 + v) (2 + i.lane) ((s.die d).cyc + 2) false
    ((List.range i.flits).map (fun k => BitVec.ofNat 512 (whole >>> (512 * k))))

/-- VRECV (spec/06 R167, spec/03 R86), `whole` as one step with its flits at hand. -/
def State.vRecv (s : State) (d v : Nat) (i : VIns) (whole : Bool) : State :=
  if whole && s.laneHas d (16 + v) i.lane i.flits then
    let got := s.laneTake d (16 + v) i.lane i.flits
    got.1.vResult d v (vLat 3 i.flits) (2 ^ 64 - 1) (.reg i.vd.toNat) { w := i.width, els := i.widen (flitByte got.2) none }
  else s.launch d (16 + v) (.vrecv i) []

/-- Cycle n of a VRECV under way: it takes flit n; with the last one its result is on its way to the register. -/
def State.vRecvStep (s : State) (d : Nat) (r : Run) (i : VIns) (n : Nat) : State × Run :=
  if i.flits ≤ n then (s, r)
  else
    let g := s.laneTake d r.place i.lane 1
    let r1 := { r with got := r.got ++ g.2.map (fun t => (64 * n, t.payload)) }
    if n + 1 = i.flits then
      (g.1.vResult d (r.place - 16) (vLat 3 i.flits - n) (2 ^ 64 - 1) (.reg i.vd.toNat) { w := i.width, els := i.widen (gotByte r1.got) none }, r1)
    else (g.1, r1)

/-- The effect of an accepted instruction. -/
def State.vEffect (s : State) (d v op : Nat) (i : VIns) (whole : Bool) : State :=
  let m := (s.vc d v).mask i.mask.toNat
  if op = 0 then s
  else if op = 1 then s.vLoad d v i whole
  else if op = 2 then s.vStore d v i whole
  else if op = 3 then s.vRecv d v i whole
  else if op = 4 then s.vSend d v i
  else if op ≤ 24 then
    let s1 := if op = 23 ∨ op = 24 then
        s.setVc d v { s.vc d v with divUntil := (s.die d).cyc + (if i.f64 then 16 else 8) } else s
    s1.vArith d v op m i
  else if op = 25 then s.vCvt d v m i
  else if op = 26 then s.vCvti d v m i
  else if op = 27 then s.vLdi d v m i
  else if op = 32 then s.vCmp d v i
  else if op = 33 then s.vSel d v m i
  else if op ≤ 46 then s.vInts d v op m i
  else if op ≤ 49 then s.vRed d v op m i
  else s.vBcast d v m i

/-- A V-core instruction (spec/06 R164-R173): its faults, the check of its source registers, its effect, its count. -/
def State.vIssue (s : State) (d v op : Nat) (i : VIns) (whole : Bool) : State :=
  if s.canIssue d (16 + v) then
    match s.vCause d v op i with
    | some n => s.vcCmdFault d v n
    | none =>
      let s0 := s.setVc d v ((s.vc d v).settle (s.die d).cyc)
      let c := s0.vCheck d v (i.srcs op)
      match c.2 with
      | some r => c.1.vcFault d v 1 0 r 0x2121 (unitCore d (16 + v))
      | none => (c.1.vEffect d v op i whole).bumpPerf d (CD_VC_INSTR v) 1
  else s

/-- ASET (spec/06 R167). -/
def State.aset (s : State) (d v : Nat) (ar : BitVec 3) (base : BitVec 32) (stp : BitVec 14) : State :=
  if s.canIssue d (16 + v) then
    let y := s.vc d v
    (s.setVc d v { y with arBase := nput 0#32 y.arBase ar.toNat base, arStep := nput 0#14 y.arStep ar.toNat stp }).bumpPerf d
      (CD_VC_INSTR v) 1
  else s

-- The meanings --------------------------------------------------------------------------------------------------------

/-- VNOP (spec/06 R167). -/
def execVnop (die v : Nat) (i : VIns) (s : State) : Host.Outcome State Fault Refusal :=
  guard (Instr.vnop die v i).wf (s.vIssue die v 0 i true)
/-- VLD (spec/06 R170). -/
def execVld (die v : Nat) (i : VIns) (s : State) : Host.Outcome State Fault Refusal :=
  guard (Instr.vld die v i).wf (s.vIssue die v 1 i true)
/-- VST (spec/06 R170). -/
def execVst (die v : Nat) (i : VIns) (s : State) : Host.Outcome State Fault Refusal :=
  guard (Instr.vst die v i).wf (s.vIssue die v 2 i true)
/-- VRECV (spec/06 R167). -/
def execVrecv (die v : Nat) (i : VIns) (s : State) : Host.Outcome State Fault Refusal :=
  guard (Instr.vrecv die v i).wf (s.vIssue die v 3 i true)
/-- VSEND (spec/06 R167). -/
def execVsend (die v : Nat) (i : VIns) (s : State) : Host.Outcome State Fault Refusal :=
  guard (Instr.vsend die v i).wf (s.vIssue die v 4 i true)
/-- VADD (spec/06 R167). -/
def execVadd (die v : Nat) (i : VIns) (s : State) : Host.Outcome State Fault Refusal :=
  guard (Instr.vadd die v i).wf (s.vIssue die v 16 i true)
/-- VSUB (spec/06 R167). -/
def execVsub (die v : Nat) (i : VIns) (s : State) : Host.Outcome State Fault Refusal :=
  guard (Instr.vsub die v i).wf (s.vIssue die v 17 i true)
/-- VMUL (spec/06 R167). -/
def execVmul (die v : Nat) (i : VIns) (s : State) : Host.Outcome State Fault Refusal :=
  guard (Instr.vmul die v i).wf (s.vIssue die v 18 i true)
/-- VFMA (spec/06 R167). -/
def execVfma (die v : Nat) (i : VIns) (s : State) : Host.Outcome State Fault Refusal :=
  guard (Instr.vfma die v i).wf (s.vIssue die v 19 i true)
/-- VFNMA (spec/06 R167). -/
def execVfnma (die v : Nat) (i : VIns) (s : State) : Host.Outcome State Fault Refusal :=
  guard (Instr.vfnma die v i).wf (s.vIssue die v 20 i true)
/-- VMIN (spec/06 R167). -/
def execVmin (die v : Nat) (i : VIns) (s : State) : Host.Outcome State Fault Refusal :=
  guard (Instr.vmin die v i).wf (s.vIssue die v 21 i true)
/-- VMAX (spec/06 R167). -/
def execVmax (die v : Nat) (i : VIns) (s : State) : Host.Outcome State Fault Refusal :=
  guard (Instr.vmax die v i).wf (s.vIssue die v 22 i true)
/-- VDIV (spec/06 R169). -/
def execVdiv (die v : Nat) (i : VIns) (s : State) : Host.Outcome State Fault Refusal :=
  guard (Instr.vdiv die v i).wf (s.vIssue die v 23 i true)
/-- VSQRT (spec/06 R169). -/
def execVsqrt (die v : Nat) (i : VIns) (s : State) : Host.Outcome State Fault Refusal :=
  guard (Instr.vsqrt die v i).wf (s.vIssue die v 24 i true)
/-- VCVT (spec/06 R167). -/
def execVcvt (die v : Nat) (i : VIns) (s : State) : Host.Outcome State Fault Refusal :=
  guard (Instr.vcvt die v i).wf (s.vIssue die v 25 i true)
/-- VCVTI (spec/06 R167). -/
def execVcvti (die v : Nat) (i : VIns) (s : State) : Host.Outcome State Fault Refusal :=
  guard (Instr.vcvti die v i).wf (s.vIssue die v 26 i true)
/-- VLDI (spec/06 R167). -/
def execVldi (die v : Nat) (i : VIns) (s : State) : Host.Outcome State Fault Refusal :=
  guard (Instr.vldi die v i).wf (s.vIssue die v 27 i true)
/-- VCMP (spec/06 R167). -/
def execVcmp (die v : Nat) (i : VIns) (s : State) : Host.Outcome State Fault Refusal :=
  guard (Instr.vcmp die v i).wf (s.vIssue die v 32 i true)
/-- VSEL (spec/06 R167). -/
def execVsel (die v : Nat) (i : VIns) (s : State) : Host.Outcome State Fault Refusal :=
  guard (Instr.vsel die v i).wf (s.vIssue die v 33 i true)
/-- VIADD (spec/06 R167). -/
def execViadd (die v : Nat) (i : VIns) (s : State) : Host.Outcome State Fault Refusal :=
  guard (Instr.viadd die v i).wf (s.vIssue die v 40 i true)
/-- VISUB (spec/06 R167). -/
def execVisub (die v : Nat) (i : VIns) (s : State) : Host.Outcome State Fault Refusal :=
  guard (Instr.visub die v i).wf (s.vIssue die v 41 i true)
/-- VAND (spec/06 R167). -/
def execVand (die v : Nat) (i : VIns) (s : State) : Host.Outcome State Fault Refusal :=
  guard (Instr.vand die v i).wf (s.vIssue die v 42 i true)
/-- VOR (spec/06 R167). -/
def execVor (die v : Nat) (i : VIns) (s : State) : Host.Outcome State Fault Refusal :=
  guard (Instr.vor die v i).wf (s.vIssue die v 43 i true)
/-- VXOR (spec/06 R167). -/
def execVxor (die v : Nat) (i : VIns) (s : State) : Host.Outcome State Fault Refusal :=
  guard (Instr.vxor die v i).wf (s.vIssue die v 44 i true)
/-- VSHL (spec/06 R167). -/
def execVshl (die v : Nat) (i : VIns) (s : State) : Host.Outcome State Fault Refusal :=
  guard (Instr.vshl die v i).wf (s.vIssue die v 45 i true)
/-- VSHR (spec/06 R167). -/
def execVshr (die v : Nat) (i : VIns) (s : State) : Host.Outcome State Fault Refusal :=
  guard (Instr.vshr die v i).wf (s.vIssue die v 46 i true)
/-- VREDSUM (spec/06 R167). -/
def execVredsum (die v : Nat) (i : VIns) (s : State) : Host.Outcome State Fault Refusal :=
  guard (Instr.vredsum die v i).wf (s.vIssue die v 48 i true)
/-- VREDMAX (spec/06 R167). -/
def execVredmax (die v : Nat) (i : VIns) (s : State) : Host.Outcome State Fault Refusal :=
  guard (Instr.vredmax die v i).wf (s.vIssue die v 49 i true)
/-- VBCAST (spec/06 R167). -/
def execVbcast (die v : Nat) (i : VIns) (s : State) : Host.Outcome State Fault Refusal :=
  guard (Instr.vbcast die v i).wf (s.vIssue die v 50 i true)
/-- ASET (spec/06 R167). -/
def execAset (die v : Nat) (ar : BitVec 3) (base : BitVec 32) (stp : BitVec 14) (s : State) : Host.Outcome State Fault Refusal :=
  guard (Instr.aset die v ar base stp).wf (s.aset die v ar base stp)

end Sys2Proof.Machine
end

