-- ==== Sys2Proof/Machine/Runs.lean ====
section
/-! DEFINITION. The unstalled fabric cycle of the commands under way on a die: what each reads and takes in it, the meeting of two accesses in
one bank pair, and what the pipelines then write and check (spec/03 R86, R87, R104-R107, R117, spec/04 R135-R139, spec/05 R158-R161,
spec/06 R170, spec/07 R196-R198). -/

namespace Sys2Proof.Machine

-- What a command does in a cycle ------------------------------------------------------------------------------------------

/-- Cycles, from its issue, in which a command reads or takes something. -/
def Run.len (r : Run) : Nat :=
  match r.cmd with
  | .loadw c => loadwL c
  | .stream c t => (streamLayout c t).2.2.2
  | .readout c => readoutW c * (c.nrowsM1.toNat + 1)
  | .zero c => cdiv (c.nrowsM1.toNat + 1) 4
  | .reduce _ c => 1 + reduceW c * reduceRows c
  | .row op c _ _ _ => rowLength op c
  | .smove dir c => smoveLen c dir
  | .vld _ ln _ _ => ln.length
  | .vst _ => 0
  | .vrecv i => i.flits

/-- The command still reads in a cycle: its place has not halted before it. -/
def Run.goes (r : Run) (u : Nat) : Bool :=
  decide (r.t ≤ u) && decide (u < r.t + r.len) && (match r.cut with | some b => decide (u ≤ b) | none => true)

/-- The inbound lane from which a command takes a token in cycle n from its issue. -/
def Run.takes (r : Run) (n : Nat) : Option Nat :=
  match r.cmd with
  | .loadw c => if c.src ∧ n < loadwL c then some (b2n c.lane) else none
  | .stream c t => if c.src ∧ (streamLayout c t).2.1.any (fun e => decide (e.1 = n)) then some (b2n c.lane) else none
  | .reduce mode c => if mode ≠ 0 ∧ n ≤ reduceW c * reduceRows c then some (b2n c.laneIn) else none
  | .row op c _ _ _ =>
    match rowAt op c n with
    | some (m, st) => if (rowTakes op c m (n - st)).any (fun e => e.2.2.2.2) then some (b2n c.laneIn) else none
    | none => none
  | .vrecv i => if n < i.flits then some i.lane else none
  | _ => none

/-- The scratchpad accesses that a command makes by itself in cycle n from its issue: requester code and address (spec/07 R196). The writes of
its pipeline are among its `late` ones. -/
def Run.accs (r : Run) (n : Nat) : List (Nat × Nat) :=
  let one := fun (port : Nat) (l : Option Nat) => l.toList.map (fun a => (port, a))
  match r.cmd with
  | .loadw c => if c.src then [] else one (4 * r.place) (((loadwLines c).1 ++ (loadwLines c).2)[n]?)
  | .stream c t =>
    (if c.src then [] else one (4 * r.place + 1) (((streamLayout c t).2.1.find? (fun e => decide (e.1 = n))).map (·.2))) ++
      one (4 * r.place + 2) (((streamScales c t).find? (fun e => decide (e.1 = n))).map (·.2.1))
  | .row op c _ _ _ =>
    if n < parLines op c then one 80 ((linesOf c.param.toNat (64 * parLines op c))[n]?)
    else match rowAt op c n with
      | some (m, st) => ((rowTakes op c m (n - st)).filter (fun e => !e.2.2.2.2)).map (fun e => (80, e.2.2.2.1))
      | none => []
  | .smove dir c => if dir = 2 ∨ smoveN c ≤ 8 * n then [] else [(if dir = 1 then 80 else 81, c.addr.toNat + 64 * n)]
  | .vld _ ln _ _ => one (64 + 2 * (r.place - 16)) (ln[n]?)
  | _ => []

/-- The scratchpad write of a late effect: requester code and address. -/
def Late.acc : Late → Option (Nat × Nat)
  | .store port addr _ _ => some (port, addr)
  | _ => none

/-- The scheduled accesses of the present cycle: bank pair, requester code, address. Those of rows already performed stand in `resv`. -/
def State.cycleAccs (s : State) (d : Nat) : List (Nat × Nat × Nat) :=
  let x := s.die d
  let u := x.cyc
  (x.runs.flatMap (fun r =>
    (if r.goes u then r.accs (u - r.t) else []) ++ r.late.filterMap (fun e => if e.1 ≤ u then e.2.acc else none))).map
      (fun a => (s.pairOf d a.2, a.1, a.2)) ++
    (x.spad.resv.filter (fun r => decide (r.1 = u))).map (fun r => (r.2.1, r.2.2.2.1, r.2.2.2.2))

/-- Bank pairs in which two accesses of the cycle meet. -/
def clashes (l : List (Nat × Nat × Nat)) : List Nat :=
  (List.range 64).filter (fun p => decide (1 < (l.filter (fun a => decide (a.1 = p))).length))

/-- A bank conflict (spec/07 R198): the lowest pair, its two lowest requester codes, the address of the lower; every place of the die halts. -/
def State.bankConflict (s : State) (d : Nat) (accs : List (Nat × Nat × Nat)) (bad : List Nat) : State :=
  match bad with
  | [] => s
  | p :: _ =>
    let l := (accs.filter (fun a => decide (a.1 = p))).map (·.2)
    let low := fun (l : List (Nat × Nat)) => l.foldl (fun (a : Nat × Nat) b => if b.1 < a.1 then b else a) (l.headD (0, 0))
    let a := low l
    let b := low (l.erase a)
    ((s.haltAll d).spadRecord d 1 (s.bankOf d a.2) a.1 b.1 a.2).raise d 0x2141 (unitDie d) 0

-- Tokens (spec/03 R86, spec/04 R136, spec/08 R221) ----------------------------------------------------------------------

/-- Tokens that the commands under way take off a lane in the present cycle. -/
def Die.wants (x : Die) (p lane : Nat) : Nat :=
  (x.runs.filter (fun r => decide (r.place = p) && r.goes x.cyc && decide (r.takes (x.cyc - r.t) = some lane))).length

/-- A place is held on a lane: a command lacks a token that it takes now, or a token that leaves now has no credit (spec/03 R86, spec/08
R221). -/
def State.laneHeld (s : State) (d : Nat) : Bool :=
  let x := s.die d
  x.runs.any (fun r => (List.range 2).any (fun l => decide (((x.place r.place).lane l).q.length < x.wants r.place l))) ||
    x.places.any (fun e => (decide (e.2.st = .running) || x.runs.any (fun r => decide (r.place = e.1))) &&
      e.2.lanes.any (fun l => decide (2 ≤ l.1) && decide (l.2.cred = 0) && l.2.out.any (fun t => decide (t.1 ≤ x.cyc))))

-- The cycle -----------------------------------------------------------------------------------------------------------

/-- What a command reads and takes in cycle n from its issue, and what it puts on its way. -/
def State.runStep (s : State) (d : Nat) (r : Run) (n : Nat) : State × Run :=
  match r.cmd with
  | .loadw c => s.loadwStep d r c n
  | .stream c t => s.streamStep d r c t n
  | .readout c => s.readoutStep d r c n
  | .zero c => s.zeroStep d r c n
  | .reduce mode c => s.reduceStep d r mode c n
  | .row op c eps diag gb => s.rowRun d r op c { eps := eps, diag := diag, gb := gb.toNat } n
  | .smove dir c => s.smoveStep d r dir c n
  | .vld i ln addr scale => s.vLoadStep d r i ln addr scale n
  | .vst _ => (s, r)
  | .vrecv i => s.vRecvStep d r i n

/-- The i-th command under way takes its step, unless an access of its meets another's. A halt that the step brings about is kept. -/
def State.runAt (s : State) (d u : Nat) (bad : List Nat) (i : Nat) : State :=
  match (s.die d).runs[i]? with
  | none => s
  | some r =>
    if r.goes u && !(r.accs (u - r.t)).any (fun a => bad.contains (s.pairOf d a.2)) then
      let q := s.runStep d r (u - r.t)
      q.1.modDie d (fun x => { x with runs := x.runs.modify i (fun y => { q.2 with cut := y.cut }) })
    else s

/-- Accumulator elements that the array unit writes in the present cycle: place, row, elements. -/
def Die.resultsDue (x : Die) : List (Nat × Nat × Nat) :=
  x.runs.flatMap (fun r => r.late.filterMap (fun e => match e.2 with
    | .result row _ _ _ bs _ _ _ => if e.1 ≤ x.cyc then some (r.place, row, bs.length) else none
    | _ => none))

/-- Cause 16 of a REDUCE ADD whose sums meet a write of the array unit in this cycle: the row (spec/04 R137, R139). -/
def Run.sumsMeet (r : Run) (u : Nat) (res : List (Nat × Nat × Nat)) : Option Nat :=
  (r.late.find? (fun e => decide (e.1 ≤ u) && (match e.2 with
    | .sums row first _ => res.any (fun a => decide (a.1 = r.place) && decide (a.2.1 = row) && decide (first < a.2.2))
    | _ => false))).bind (fun e => match e.2 with
      | .sums row _ _ => some row
      | _ => none)

/-- Every REDUCE ADD that meets such a write faults, and makes no later write. -/
def State.sumsClash (s : State) (d : Nat) : State :=
  let res := (s.die d).resultsDue
  (List.range (s.die d).runs.length).foldl (fun t i =>
    match (t.die d).runs[i]? with
    | none => t
    | some r =>
      match r.sumsMeet (t.die d).cyc res with
      | none => t
      | some row =>
        let keep := fun (e : Nat × Late) => match e.2 with | .sums _ _ _ => false | _ => true
        (t.modDie d (fun x => { x with runs := x.runs.modify i (fun y => { y with late := y.late.filter keep }) })).mcFaultAt d r.place r.slot r.entry
          0 16 row 0 0 0x2100 (unitCore d r.place)) s

/-- Order of the late effects of one cycle (spec/03 R107, spec/04 R137): the array unit's writes; +0, sums and tags; the scratchpad's and the
side memory's writes; the checks. -/
def Late.rank : Late → Nat
  | .result _ _ _ _ _ _ _ _ => 0
  | .clear _ _ _ => 1
  | .zeroRows _ _ => 1
  | .sums _ _ _ => 1
  | .tags _ _ _ _ => 1
  | .store _ _ _ _ => 2
  | .slots _ _ _ => 2
  | .check _ _ _ _ _ => 3

/-- One late effect of a command. -/
def State.lateDo (s : State) (d : Nat) (r : Run) (bad : List Nat) : Late → State
  | .result row _ acc ints bs flags sats last => s.resultIn d r row acc ints bs flags sats last
  | .check m fin dS sS aS => s.checkRow d r m fin dS sS aS
  | .clear row first n => s.setMc d r.place ((s.mc d r.place).setRow row first (List.replicate n 0#32))
  | .zeroRows row n => s.setMc d r.place ((s.mc d r.place).zeroRows row n)
  | .sums row first vals => s.setMc d r.place ((s.mc d r.place).setRow row first vals)
  | .tags row n tag unset =>
    s.setMc d r.place (if unset then (s.mc d r.place).tagUnset row n tag else (s.mc d r.place).setTags row n tag)
  | .store port addr nbits v =>
    if bad.contains (s.pairOf d addr) then s else (s.bumpPerf d CD_SPAD_ACCESS 1).spadStore d port addr nbits v true
  | .slots first kind vals =>
    s.setScr d (if kind = 0 then (s.die d).scr.emptySlots first vals.length else (s.die d).scr.fillSlots first kind vals)

/-- The late effects due in the present cycle, by their order. -/
def State.latesDue (s : State) (d : Nat) (bad : List Nat) : State :=
  let u := (s.die d).cyc
  let due := (s.die d).runs.flatMap (fun r => (r.late.filter (fun e => decide (e.1 ≤ u))).map (fun e => (r, e.2)))
  ((List.range 4).flatMap (fun k => due.filter (fun e => decide (e.2.rank = k)))).foldl (fun t e => t.lateDo d e.1 bad e.2) s

/-- What is left of the commands after the present cycle. -/
def Die.runsLeft (x : Die) : List Run :=
  (x.runs.map (fun r => { r with late := r.late.filter (fun e => decide (x.cyc < e.1)) })).filter (fun r =>
    !r.late.isEmpty || (r.cut.isNone && decide (x.cyc + 1 < r.t + r.len)))

/-- One unstalled cycle of the commands under way on a die: the meetings, the reads, the writes and checks (spec/03 R87, R107, spec/07 R197,
R198). -/
def State.runsCycle (s : State) (d : Nat) : State :=
  if (s.die d).runs = [] then s
  else
    let u := (s.die d).cyc
    let accs := s.cycleAccs d
    let bad := clashes accs
    let s1 := s.bankConflict d accs bad
    let s2 := (List.range (s.die d).runs.length).foldl (fun t i => t.runAt d u bad i) s1
    ((s2.sumsClash d).latesDue d bad).modDie d (fun x => { x with runs := x.runsLeft })

end Sys2Proof.Machine
end

