-- ==== Sys2Proof/Machine/Net.lean ====
section
/-! DEFINITION. The dynamic layer: endpoints, attachments, orders, hops and injection (spec/01 R45, spec/11 R323, R327-R331). -/

namespace Sys2Proof.Machine

/-- Endpoint codes (spec/11 R327). -/
def epSite (node : Nat) : Nat := node % 36 * 16 + node / 36
def epMd (m : Nat) : Nat := 2 ^ 14 + m
def epFd (f : Nat) : Nat := 2 * 2 ^ 14 + f
/-- Kind of an endpoint: 0 site, 1 memory die, 2 fabric die. -/
def epKind (e : Nat) : Nat := e / 2 ^ 14
/-- Site node, memory-die or fabric-die number of an endpoint. -/
def epId (e : Nat) : Nat :=
  let i := e % 2 ^ 14
  if epKind e = 0 then 36 * (i % 16) + i / 16 % 64 else if epKind e = 1 then i % 128 else i % 16

/-- A site's router is out of service. -/
def State.routerOut (s : State) (n : Nat) : Bool := s.pcd.routersOut.contains n

/-- The router that a memory die attaches to: its even physical offset, or the odd one when that is out of service (spec/01 R45,
spec/11 R330). -/
def State.mdAttach (s : State) (m : Nat) : Nat :=
  let r := m / 8
  let k := m % 8
  let y := 4 * (r / 4) + (if k < 4 then 1 else 2)
  let n := 36 * y + 9 * (r % 4) + 2 * (k % 4)
  if s.routerOut n then n + 1 else n

/-- The memory die through which a source reaches a fabric die: the sources are spread evenly over the region's memory dies in service
(spec/11 R330; which one is log entry 12). -/
def State.fdVia (s : State) (f src : Nat) : Nat :=
  let l := (List.range 8).map (fun k => 8 * f + k) |>.filter s.mdOn
  (l[src % max 1 l.length]?).getD (8 * f)

/-- The router at which packets for an endpoint leave the mesh. -/
def State.epRouter (s : State) (e src : Nat) : Nat :=
  if epKind e = 0 then epId e else if epKind e = 1 then s.mdAttach (epId e) else s.mdAttach (s.fdVia (epId e) src)

/-- One hop along a dimension from coordinate a toward b, on routers given by `at'` (spec/11 R329). -/
def hopCoord (out : Nat → Bool) (a b : Nat) : Nat :=
  let d := if a < b then b - a else a - b
  let go := fun n => if a < b then a + n else a - n
  if 2 ≤ d then (if out (go 2) then go 1 else go 2)
  else if out (go 1) then go 2 else go 1

/-- The router a packet moves to from router n toward router t; none when it is there (spec/11 R329). -/
def State.nextHop (s : State) (n t : Nat) (yFirst : Bool) : Option Nat :=
  let x := n % 36
  let y := n / 36
  let tx := t % 36
  let ty := t / 36
  let hx := 36 * y + hopCoord (fun c => s.routerOut (36 * y + c)) x tx
  let hy := 36 * hopCoord (fun c => s.routerOut (36 * c + x)) y ty + x
  if x = tx ∧ y = ty then none
  else if yFirst then (if y ≠ ty then some hy else some hx)
  else (if x ≠ tx then some hx else some hy)

/-- Coordinates from a to b, both included. -/
def spanOf (a b : Nat) : List Nat := (List.range (max a b - min a b + 1)).map (fun k => min a b + k)

/-- No two neighbouring members of a list of routers are both out of service. -/
def noPair (out : Nat → Bool) : List Nat → Bool
  | a :: b :: r => !(out a && out b) && noPair out (b :: r)
  | _ => true

/-- An order serves a pair of routers of a partition (spec/11 R331). -/
def State.orderOk (s : State) (p a b : Nat) (yFirst : Bool) : Bool :=
  let turn := if yFirst then 36 * (b / 36) + a % 36 else 36 * (a / 36) + b % 36
  let leg1 := if yFirst then (spanOf (a / 36) (b / 36)).map (fun y => 36 * y + a % 36) else (spanOf (a % 36) (b % 36)).map (fun x => 36 * (a / 36) + x)
  let leg2 := if yFirst then (spanOf (a % 36) (b % 36)).map (fun x => 36 * (b / 36) + x) else (spanOf (a / 36) (b / 36)).map (fun y => 36 * y + b % 36)
  (leg1 ++ leg2).all (fun n => s.partOfNode n == some p) && (turn == a || turn == b || !s.routerOut turn) &&
    noPair s.routerOut leg1 && noPair s.routerOut leg2

/-- The ORD of a pair: X then Y where that serves, else Y then X (spec/11 R331). -/
def State.orderOf (s : State) (p a b : Nat) : Bool := !s.orderOk p a b false && s.orderOk p a b true

/-- A packet type travels on the reply channels (spec/11 R323, R327, spec/12 R351). -/
def isReply (ty : Nat) : Bool := decide (ty = 2) || decide (ty = 3) || decide (ty = 5) || decide (ty = 6) || decide (ty = 9) || decide (ty = 11)

/-- Number that tells the far router of a port of a router, the inverse of `portTo`: beyond 576 where there is none. -/
def portFar (n port : Nat) : Nat :=
  if port = 0 then n + 36 else if port = 1 then n + 1 else if port = 2 then n - 36 else if port = 3 then n - 1
  else if port = 4 then n + 72 else if port = 5 then n + 2 else if port = 6 then n - 72 else if port = 7 then n - 2
  else 576

/-- Key of a port of a router and a channel. -/
def netKey (node port ch : Nat) : Nat := 4 * (16 * node + port) + ch

/-- Packets that wait in the buffer of a router's input on a channel. Input 15 is the site's own, 8 that of its memory die. -/
def State.netQ (s : State) (node inp ch : Nat) : List DynPkt := sget [] s.pcd.net (netKey node inp ch)
def State.setNetQ (s : State) (node inp ch : Nat) (l : List DynPkt) : State :=
  s.setPcd (fun p => { p with net := nput [] p.net (netKey node inp ch) l })

/-- Flits of a packet (spec/11 R327). -/
def pktFlits (p : DynPkt) : Nat := 2 + cdiv p.payload.length 16

/-- A packet enters the mesh at a router on the channel of its type and ORD (spec/11 R323, R331). -/
def State.injectAt (s : State) (a : Nat) (p : DynPkt) : State :=
  let b := s.epRouter p.dst.toNat p.src.toNat
  let ord := s.orderOf p.part.toNat a b
  let ch := (if isReply p.ptype.toNat then 2 else 0) + b2n ord
  let inp := if epKind p.src.toNat = 0 then 15 else 8
  s.setNetQ a inp ch (s.netQ a inp ch ++ [{ p with ord := ord }])
/-- The same at the router of its source. -/
def State.inject (s : State) (p : DynPkt) : State := s.injectAt (s.epRouter p.src.toNat p.src.toNat) p

/-- Output of a router by which a packet leaves it: the port to the next router; at its destination 15, the site itself, or 8, its memory die. -/
def State.outOf (s : State) (n : Nat) (p : DynPkt) : Nat :=
  match s.nextHop n (s.epRouter p.dst.toNat p.src.toNat) p.ord with
  | some m => (portTo n m).getD 14
  | none => if epKind p.dst.toNat = 0 then 15 else 8

/-- The input that an output serves next on a channel, in round-robin order (spec/11 R332). -/
def State.nextInput (s : State) (n out ch : Nat) : Option Nat :=
  ((List.range 16).map (fun k => (sget 0 s.pcd.rrIn (netKey n out ch) + k) % 16)).find? (fun i =>
    match s.netQ n i ch with
    | p :: _ => decide (s.outOf n p = out)
    | [] => false)

/-- Credits of an output for the far buffer of a channel remain (spec/11 R323): a packet that has started takes its credits as they return. -/
def State.hasCredit (s : State) (n out ch : Nat) : Bool := decide (8 ≤ out) || decide (sget 0 s.pcd.netUsed (netKey n out ch) < 64)

/-- The channel and input that an output serves next: the channels in round-robin order, the inputs within one (spec/11 R332). -/
def State.netPick (s : State) (n out : Nat) : Option (Nat × Nat) :=
  ((List.range 4).map (fun k => (sget 0 s.pcd.rrCh (16 * n + out) + k) % 4)).findSome? (fun ch =>
    if s.hasCredit n out ch then (s.nextInput n out ch).map (fun i => (ch, i)) else none)

/-- An output has served an input on a channel: the next ones come first from now on. -/
def State.netServed (s : State) (n out ch i : Nat) : State :=
  s.setPcd (fun p => { p with rrCh := nput 0 p.rrCh (16 * n + out) ((ch + 1) % 4), rrIn := nput 0 p.rrIn (netKey n out ch) ((i + 1) % 16) })

/-- A packet made by a unit: its ECRC holds. -/
def mkPkt (ty part dst src txid status addr aux len : Nat) (payload : List Byte) : DynPkt :=
  { ptype := BitVec.ofNat 4 ty, ord := false, part := BitVec.ofNat 4 part, dst := BitVec.ofNat 16 dst, src := BitVec.ofNat 16 src,
    txid := BitVec.ofNat 11 txid, status := BitVec.ofNat 3 status, addr := BitVec.ofNat 64 addr, aux := BitVec.ofNat 32 aux,
    len := len, payload := payload, ecrcOk := true }

end Sys2Proof.Machine

namespace Sys2Proof

/-- Reply to a packet: its destination answers its source (spec/11 R327). -/
def DynPkt.reply (p : DynPkt) (ty status : Nat) (payload : List Byte) : DynPkt :=
  { p with ptype := BitVec.ofNat 4 ty, dst := p.src, src := p.dst, status := BitVec.ofNat 3 status, len := payload.length,
           payload := payload, ecrcOk := true }

end Sys2Proof
end

