-- ==== Sys2Proof/Machine/Hbm.lean ====
section
/-! DEFINITION. Partition HBM: the interleave, reads and writes of stacks with their error code, and the scrub in progress
(spec/10 R277-R283, R288, R289, R299-R301, R309). -/

namespace Sys2Proof.Machine

/-- Bytes of one stack (spec/10 R277). -/
def stackBytes : Nat := 24 * 2 ^ 30

/-- Bytes of HBM that a partition backs (spec/10 R280). -/
def State.hbmSize (s : State) (p : Nat) : Nat := stackBytes * (s.part p).stackList.length

/-- g of R281 for a stack-local page. -/
def hbmHash (q : Nat) : Nat := Nat.xor (Nat.xor (bits q 9 0) (bits q 19 10)) (bits q 22 20)

/-- Slot and stack-local byte address of a partition-relative address among n stacks (spec/10 R281). -/
def hbmSlot (n a : Nat) : Nat × Nat :=
  let pg := a / 4096
  let q := pg / n
  ((pg % n + hbmHash q) % n, q * 4096 + a % 4096)

/-- Memory die and stack-local byte address; none where unbacked (spec/10 R280, R281). -/
def State.hbmMap (s : State) (p a : Nat) : Option (Nat × Nat) :=
  let l := (s.part p).stackList
  if a < s.hbmSize p then
    let x := hbmSlot l.length a
    l[x.1]?.map (fun m => (m, x.2))
  else none

/-- The partition-relative address of a stack-local byte address: the inverse of R281. -/
def State.hbmUnmap (s : State) (p m loc : Nat) : Nat :=
  let l := (s.part p).stackList
  let n := l.length
  let q := loc / 4096
  (q * n + (l.idxOf m + (n - hbmHash q % n)) % n) * 4096 + loc % 4096

/-- Partition of a memory die (spec/10 R278). -/
def State.partOfMd (s : State) (m : Nat) : Nat := (s.partOfRegion (m / 8)).getD 0

/-- Pseudo-channel of a stack-local address (spec/10 R282). -/
def pchOf (loc : Nat) : Nat := Nat.xor (bits loc 11 7) (loc / 4096 % 32)

/-- A memory die's fault record (spec/10 R310). -/
def State.mdRecord (s : State) (m kind cause pch peer addr : Nat) : State :=
  let n := nodeMd m
  if s.rgB n MD_FAULT_INFO 31 then s else
  ((s.setRg n MD_FAULT_INFO (2 ^ 31 + kind * 2 ^ 28 + cause * 2 ^ 25 + pch * 2 ^ 20 + peer * 2 ^ 13)).setRg n MD_FAULT_ADDR
    (addr / 64 * 64 % 2 ^ 35)).setRg n MD_FAULT_PTC s.ptc

/-- Error check of one 64-byte line of a stack (spec/10 R299-R301). `kind` is 0 for a read, 1 for the patrol. An error beyond the code's
guarantee has the outcomes that R532 lists for the other codes (log entry 11). -/
def State.lineCheck (s : State) (m line kind : Nat) : State × Bool :=
  let x := s.md m
  let n := nodeMd m
  let j := (rsJudge (sget 0 x.errs line), s)
  match j.1 with
  | .ok => (j.2, false)
  | .corr =>
    let t := j.2.bumpErr n MD_ECC_CORR MD_STATUS 31 1
    (t.setMd m { t.md m with wb := insUniq line (t.md m).wb }, false)
  | .bad =>
    let t := (j.2.bumpErr n MD_ECC_UNCORR MD_STATUS 30 1).mdRecord m kind 0 (pchOf (64 * line)) 0 (64 * line)
    let old := (t.md m).badSectors.filter (fun b => decide (s.ptc < b.1 + 1000000000) && decide (b.2 ≠ line / 2))
    (t.setMd m { t.md m with badSectors := old ++ [(s.ptc, line / 2)] }, true)
  | .altered cnt v =>
    let t := s.setMd m { x with mem := flipBytes x.mem (64 * line) 64 v, errs := eccLeft x.errs line cnt, wb := if cnt then insUniq line x.wb else x.wb }
    (if cnt then t.bumpErr n MD_ECC_CORR MD_STATUS 31 1 else t, false)

/-- Lines that hold bytes loc to loc + n - 1 of a stack. -/
def stackLines (loc n : Nat) : List Nat := (linesOf loc n).map (· / 64)

/-- Error check of the lines of a read. -/
def State.linesCheck (s : State) (m loc n kind : Nat) : State × Bool :=
  if (s.md m).errs = [] then (s, false)
  else (stackLines loc n).foldl (fun (st : State × Bool) l =>
    let r := st.1.lineCheck m l kind
    (r.1, st.2 || r.2)) (s, false)

/-- Doorbell lines that a memory die watches, at most 32 in the order of fabric die and context: die, context, stack-local address (spec/12
R350). -/
def State.bellLines (s : State) (m : Nat) : List (Nat × Nat × Nat) :=
  let p := s.partOfMd m
  let ctx := fun (k : Nat) => (k % 2 ^ 32 - 0x1000) / 0x20
  ((s.regs.filterMap (fun e =>
    let f := e.1 / 2 ^ 32 - nodeFd 0
    if nodeFd 0 ≤ e.1 / 2 ^ 32 ∧ f < 16 ∧ 0x1000 ≤ e.1 % 2 ^ 32 ∧ e.1 % 2 ^ 32 = FD_CTX_W0 (ctx e.1) ∧ ctx e.1 < 256 ∧ e.2.testBit 63 = true ∧
        s.partOfRegion f = some p then
      (match s.hbmMap p (s.rg (nodeFd f) (FD_CTX_W2 (ctx e.1))) with | some (k, loc) => if k = m then some (f, ctx e.1, loc) else none | none => none)
    else none)).take 32)

/-- A write that touches bytes 0-3 of a doorbell line of a list is passed to the fabric die, as a WRITE packet at the context's doorbell offset with
the bytes as they now stand (spec/12 R350). -/
def State.bellPass (s : State) (lines : List (Nat × Nat × Nat)) (m loc n : Nat) : State :=
  lines.foldl (fun t b =>
    if loc < b.2.2 + 4 ∧ b.2.2 < loc + n then
      t.inject (mkPkt 1 (s.partOfMd m) (epFd b.1) (epMd m) 0 0 (FD_CTX_W2 b.2.1) 0 4 (readBytes (t.md m).mem b.2.2 4))
    else t) s

/-- Reads bytes of a stack: the state, whether a codeword was uncorrectable, the bytes (spec/10 R299-R301). -/
def State.stackRead (s : State) (m loc n : Nat) : State × Bool × List Byte :=
  let c := s.linesCheck m loc n 0
  let t := c.1.bumpPerf (nodeMd m) MD_RD_BYTES n
  (t, c.2, if c.2 then [] else readBytes (t.md m).mem loc n)

/-- Writes bytes of a stack (spec/10 R288, R289, R301): the state, and whether a line it covers only in part was uncorrectable. Such a
line is read, merged and written whole, so that the byte counters take the line (R310); a whole line is replaced. -/
def State.stackWrite (s : State) (m loc : Nat) (bs : List Byte) : State × Bool :=
  let n := bs.length
  let part := (stackLines loc n).filter (fun l => decide (64 * l < loc) || decide (loc + n < 64 * l + 64))
  let c := if (s.md m).errs = [] then (s, false) else part.foldl (fun (st : State × Bool) l =>
    let r := st.1.lineCheck m l 0
    (r.1, st.2 || r.2)) (s, false)
  let s1 := c.1.bumpPerf (nodeMd m) MD_RD_BYTES (64 * part.length)
  if c.2 then (s1, true)
  else
    let t := s1.bumpPerf (nodeMd m) MD_WR_BYTES (64 * (stackLines loc n).length)
    let x := t.md m
    let inR := fun l => decide (loc / 64 ≤ l) && decide (64 * l < loc + n)
    ((t.setMd m { x with mem := writeBytes x.mem loc bs, errs := x.errs.filter (fun e => !inR e.1), wb := x.wb.filter (fun l => !inR l) }).bellPass
      (s.bellLines m) m loc n, false)

/-- Pieces of a partition-relative range, page by page: address and length. -/
def pagePieces (a n : Nat) : List (Nat × Nat) :=
  if n = 0 then [] else
  (List.range ((a + n - 1) / 4096 - a / 4096 + 1)).map (fun k =>
    let lo := max a ((a / 4096 + k) * 4096)
    let hi := min (a + n) ((a / 4096 + k + 1) * 4096)
    (lo, hi - lo))

/-- The range that a memory die scrubs, or scrubbed last: base and length (spec/10 R309, R310). -/
def State.mdScrubRange (s : State) (m : Nat) : Nat × Nat := (s.rg (nodeMd m) MD_SCRUB_BASE / 4096 * 4096, 4096 * s.rg (nodeMd m) MD_SCRUB_LEN)

/-- A page of a range is being scrubbed (spec/10 R309). -/
def State.scrubHits (s : State) (p a n : Nat) : Bool :=
  (s.part p).stackList.any (fun m => s.rgB (nodeMd m) MD_SCRUB_CTRL 1 &&
    decide (a / 4096 * 4096 < (s.mdScrubRange m).1 + (s.mdScrubRange m).2) && decide ((s.mdScrubRange m).1 < a + n))

/-- A range touches HBM that a job holds under retention (spec/16 R465): closed to every access but READ items of its key. -/
def State.keptRange (s : State) (p a n : Nat) : Bool :=
  (s.part p).ctxs.any (fun e => decide (e.2.st = .retained) && e.2.img.ranges.any (fun r => decide (a < r.1 + r.2) && decide (r.1 < a + n)))

/-- A refused access to held HBM, counted by the memory die that holds its first byte (spec/00 R21). -/
def State.keptTally (s : State) (p a : Nat) : State :=
  match s.hbmMap p a with
  | some (m, _) => s.setMd m { s.md m with tally := min 0xFFFFFFFF ((s.md m).tally + 1) }
  | none => s

/-- Reads partition-relative HBM: the state, a status (0 done, 1 unbacked, 2 uncorrectable, 4 stack off), the bytes. -/
def State.hbmRead (s : State) (p a n : Nat) : State × Nat × List Byte :=
  (pagePieces a n).foldl (fun (st : State × Nat × List Byte) q =>
    if st.2.1 ≠ 0 then st
    else match st.1.hbmMap p q.1 with
      | none => (st.1, 1, st.2.2)
      | some (m, loc) =>
        if st.1.mdOn m then
          let r := st.1.stackRead m loc q.2
          (r.1, if r.2.1 then 2 else 0, st.2.2 ++ r.2.2)
        else (st.1, 4, st.2.2)) (s, 0, [])

/-- Writes partition-relative HBM: the state and a status as `hbmRead` gives it. -/
def State.hbmWrite (s : State) (p a : Nat) (bs : List Byte) : State × Nat :=
  let r := (pagePieces a bs.length).foldl (fun (st : State × Nat × List Byte) q =>
    if st.2.1 ≠ 0 then st
    else match st.1.hbmMap p q.1 with
      | none => (st.1, 1, st.2.2)
      | some (m, loc) =>
        if st.1.mdOn m then
          let w := st.1.stackWrite m loc (st.2.2.take q.2)
          (w.1, if w.2 then 2 else 0, st.2.2.drop q.2)
        else (st.1, 4, st.2.2)) (s, 0, bs)
  (r.1, r.2.1)

end Sys2Proof.Machine
end

