-- ==== Sys2Proof/Machine/Events.lean ====
section
/-! DEFINITION. Event records, the event ring and logs, the field knot log, and completion records (spec/16 R452-R455, R466, R469,
spec/15 R438, spec/13 R389-R396). -/

namespace Sys2Proof.Machine

-- CRC-32C (spec/11 R324, spec/15 R438, spec/16 R452) ------------------------------------------------------------------

/-- One bit of a reflected CRC-32C. -/
def crcBit (c : Nat) : Nat := if c % 2 = 1 then Nat.xor (c / 2) 0x82F63B78 else c / 2
def crcBits : Nat → Nat → Nat
  | 0, c => c
  | n + 1, c => crcBits n (crcBit c)
/-- CRC-32C of bytes. -/
def crc32c (bs : List Byte) : Nat := Nat.xor (bs.foldl (fun c b => crcBits 8 (Nat.xor c b.toNat)) 0xFFFFFFFF) 0xFFFFFFFF

/-- Words of 64 bits, little-endian, of a byte list. -/
def words8 (bs : List Byte) : List Nat := (List.range (cdiv bs.length 8)).map (fun k => leVal ((bs.drop (8 * k)).take 8))

/-- Stores 64-bit words in a run of registers. -/
def State.setWords (s : State) (node : Nat) (off : Nat → Nat) : Nat → List Nat → State
  | _, [] => s
  | k, w :: r => (s.setRg node (off k) w).setWords node off (k + 1) r

-- Event records (spec/16 R452-R454, R469) -----------------------------------------------------------------------------

/-- The 64 bytes of an event record (spec/16 R452). -/
def Event.bytes (e : Event) : List Byte :=
  let head := leBytes 2 e.code ++ leBytes 1 e.part ++ leBytes 1 (b2n e.fence + 2 * b2n e.lost + 4 * b2n e.att) ++ leBytes 4 e.eseq ++
    leBytes 8 e.ptc ++ leBytes 4 e.unit ++ leBytes 2 e.job ++ leBytes 2 e.incarn ++ leBytes 2 e.rept ++ leBytes 2 e.attId ++ leBytes 32 e.data
  head ++ leBytes 4 (crc32c head)

/-- Puts a record in its place of the ring. -/
def State.ringPut (s : State) (e : Event) : State := s.setWords nodePc (fun k => PC_EVT_REC (8 * (e.eseq % 1024) + k)) 0 (words8 e.bytes)

/-- Records written and not acknowledged. -/
def State.evtPending (s : State) : Nat := s.rgF nodePc PC_EVT_STATUS 10 0

/-- Appends to a log of limited length, the oldest leaving first. -/
def appendCap {α : Type} (n : Nat) (l : List α) (x : α) : List α := (l ++ [x]).drop (l.length + 1 - n)

/-- Writes one record: its ESEQ, the ring, PENDING, EVT_LOST, the NVM log of fatal and fence records (spec/16 R454, R469). The
second component says whether a record was lost. -/
def State.writeRecord (s : State) (e : Event) : State × Event × Bool :=
  let n := s.rg nodePc PC_EVT_NEXT
  let full := decide (s.evtPending = 1024)
  let e1 := { e with eseq := n, lost := full }
  let s1 := (s.ringPut e1).setRg nodePc PC_EVT_NEXT ((n + 1) % 2 ^ 32)
  let s2 := if full then s1.bumpErr nodePc PC_EVT_LOST PC_EVT_STATUS 31 1 else s1.setRgF nodePc PC_EVT_STATUS 10 0 (s.evtPending + 1)
  let keep := e1.fence || decide (e1.code / 4096 = 3) || decide (e1.code / 4096 = 4)
  (if keep then { s2 with nvm := { s2.nvm with events := appendCap 4096 s2.nvm.events e1 } } else s2, e1, full)

/-- A host port is up. -/
def State.hostPort (s : State) (portB : Bool) : Bool := s.rgB nodePc PC_HOST_STATUS (b2n portB)

/-- The MCTP endpoint answers: a PCD has booted (spec/18 R511). -/
def State.mgmtUp (s : State) : Bool := s.pcd.standby && !s.pcd.nvmIso && (decide (1 ≤ s.pcd.stageDone) || s.rgB nodePc PC_BRINGUP_STATUS 3)

/-- A record is sent: an EVENT packet to each report address on every host port that is up, and a PLDM event message on the management path
(spec/16 R454, spec/18 R512). -/
def State.sendEvent (s : State) (e : Event) : State :=
  let addrs := match s.pcd.conf with | some c => c.reports | none => []
  let send := fun (t : State) (b : Bool) => if s.hostPort b then addrs.foldl (fun u a => u.emit (.event b a e)) t else t
  let s1 := send (send s false) true
  if s.mgmtUp then s1.emit (.mgmt (.event e)) else s1

/-- Writes and sends a record; a run of lost records raises 0x1011 once (spec/16 R469). A correctable record is sent when its second
ends (spec/16 R454). -/
def State.addRecord (s : State) (e : Event) : State :=
  let r := s.writeRecord e
  let s1 := if e.code / 4096 = 1 then r.1.setPcd (fun p => { p with merging := p.merging ++ [r.2.1] }) else r.1.sendEvent r.2.1
  if r.2.2 then
    if s1.pcd.lostRun then s1
    else
      let x : Event := { code := 0x1011, part := 31, fence := false, lost := true, att := false, eseq := 0, ptc := s.ptc, unit := 0,
                         job := 0, incarn := 0, rept := 0, attId := 0, data := 0 }
      let q := s1.writeRecord x
      q.1.setPcd (fun p => { p with lostRun := true, merging := p.merging ++ [q.2.1] })
  else s1.setPcd (fun p => { p with lostRun := false })

/-- A further occurrence of a correctable event within its second: REPEAT of the first record (spec/16 R454). -/
def State.mergeRecord (s : State) (code unit : Nat) : State :=
  let up := fun (e : Event) => if e.code = code ∧ e.unit = unit then { e with rept := min 0xFFFF (e.rept + 1) } else e
  let s1 := s.setPcd (fun p => { p with merging := p.merging.map up })
  match s1.pcd.merging.find? (fun e => decide (e.code = code ∧ e.unit = unit)) with
  | some e => if wrapSub 32 (s.rg nodePc PC_EVT_NEXT) e.eseq ≤ 1024 then s1.ringPut e else s1
  | none => s1

/-- Job number and incarnation that run on a partition; zeros where none does. -/
def State.runJob (s : State) (p : Nat) : Nat × Nat :=
  match (s.part p).run with
  | some c => match sfind (s.part p).ctxs c with
    | some x => (x.job, x.incarn)
    | none => (0, 0)
  | none => (0, 0)

/-- The record of an event (spec/16 R452, R454). -/
def State.putEvent (s : State) (code part unit data ptc : Nat) (job : Nat × Nat) (fence : Bool) : State :=
  if code / 4096 = 1 ∧ s.pcd.merging.any (fun e => decide (e.code = code ∧ e.unit = unit)) then s.mergeRecord code unit
  else s.addRecord { code := code, part := part, fence := fence, lost := false, att := false, eseq := 0, ptc := ptc, unit := unit,
                     job := job.1, incarn := job.2, rept := 0, attId := 0, data := data }

/-- A notice of the active PCD's own detection: no job fails by it. -/
def State.notice (s : State) (code part unit data : Nat) : State :=
  s.putEvent code part unit data s.ptc (if code / 4096 = 2 ∧ part < 16 then s.runJob part else (0, 0)) false

-- Field knot log (spec/15 R438) ---------------------------------------------------------------------------------------

/-- A re-true is owed or in progress (spec/15 R444). -/
def State.retrueBusy (s : State) : Bool := s.parts.any (fun e => decide (e.2.retrue ≠ 0) && !e.2.off)

/-- The STAGE code that an entry written now carries: the stage in progress, or 6 in a re-true and after Ready. -/
def State.knotStage (s : State) : Nat :=
  if s.pcd.stageDone < 4 ∨ (s.pcd.stageDone = 4 ∧ s.retrueBusy = false) then s.pcd.stageDone + 1 else 6

/-- Appends an entry; types 1-5 stop at 16,320 entries; 0x11B2 at 12,288 (spec/15 R438). -/
def State.knot (s : State) (unit type : Nat) : State :=
  let n := s.nvm.knots.length
  if (type ≠ 6 ∧ 16320 ≤ n) ∨ 16384 ≤ n then s
  else
    let k : Knot := { unit := unit, type := type, stage := s.knotStage, bseq := s.nvm.bseq,
                      ptc := if s.pcd.stageDone < 5 then 0 else s.ptc }
    let s1 := { s with nvm := { s.nvm with knots := s.nvm.knots ++ [k] } }
    if n + 1 = 12288 then s1.notice 0x11B2 31 0 0 else s1

-- Completions (spec/13 R389-R396) -------------------------------------------------------------------------------------

/-- An item of a session that has no completion yet. -/
def State.item (s : State) (k sseq : Nat) : Option SItem := (s.session k).items.find? (fun i => decide (i.w.sseq.toNat = sseq))
/-- Changes an item of a session. -/
def State.modItem (s : State) (k sseq : Nat) (f : SItem → SItem) : State :=
  let x := s.session k
  s.setSession k { x with items := x.items.map (fun i => if i.w.sseq.toNat = sseq then f i else i) }

/-- Addresses that the configuration gives a unit (spec/12 R343, spec/13 R379). -/
def State.netCfg (s : State) (unit : Nat) : NetCfg :=
  match s.pcd.conf with | some c => (c.nets.find? (fun n => decide (n.unit = unit))).getD default | none => default
/-- Ethernet priority and DSCP of a class, 0 request, 1 reply, 2 collective, 3 control (spec/12 R347). -/
def State.clsPcp (s : State) (cls : Nat) : Nat := match s.pcd.conf with | some c => c.pcps.getD cls 0 | none => 0
def State.clsDscp (s : State) (cls : Nat) : Nat := match s.pcd.conf with | some c => c.dscps.getD cls 0 | none => 0

/-- Sends the waiting packets to hosts whose port and priority are not paused; a port that is down loses its own (spec/13 R379, R380). -/
def State.hostFlush (s : State) : State :=
  s.pcd.hostTxq.foldl (fun t f =>
    if !t.hostPort f.portB then t
    else if decide (f.prio = t.clsPcp 3) || decide (sget 0 t.pcd.hostPaused (8 * b2n f.portB + f.prio) ≤ t.ptc16) then
      (t.emit f.out).bumpPerf nodePc PC_HOST_TX_BYTES f.bytes
    else t.setPcd (fun p => { p with hostTxq := p.hostTxq ++ [f] })) (s.setPcd (fun p => { p with hostTxq := [] }))

/-- Host port, session and marks of a packet of a class to a session's host (spec/13 R379–R381, spec/12 R347). -/
def State.hostTo (s : State) (portB : Bool) (k cls : Nat) : HostTo :=
  { portB := portB, sess := k, gen := (s.session k).gen, vid := (s.netCfg (16 + b2n portB)).vid, pcp := s.clsPcp cls, dscp := s.clsDscp cls }

/-- Sends a packet of a class to a session's host over a port, with the port's tag and the marks of the class (spec/13 R379–R381). -/
def State.hostSend (s : State) (portB : Bool) (k cls bytes : Nat) (o : HostTo → Out) : State :=
  let f : HostFrame := { portB := portB, prio := s.clsPcp cls, bytes := bytes, out := o (s.hostTo portB k cls) }
  (s.setPcd (fun p => { p with hostTxq := p.hostTxq ++ [f] })).hostFlush

/-- Port of a session's packets: the one its last packet came by, or the other when that is down (spec/13 R380). -/
def State.sessPort (s : State) (k : Nat) : Bool :=
  let b := (s.session k).portB
  if s.hostPort b then b else !b

/-- Sends completion records to the session's host when it is open (spec/13 R386, R395). -/
def State.sendCpl (s : State) (k : Nat) (rs : List Cpl) : State :=
  if (s.session k).isOpen ∧ rs ≠ [] then s.hostSend (s.sessPort k) k 1 (52 + 32 * rs.length) (fun d => .cpl d rs) else s

/-- Writes the completion record of an item (spec/13 R392, R393, R397). -/
def State.complete (s : State) (k sseq status event done : Nat) : State :=
  match s.item k sseq with
  | none => s
  | some i =>
    let x := s.session k
    let r : Cpl := { sseq := sseq, cseq := x.nextCseq, status := status, op := i.w.op.toNat, event := event, user := i.w.user.toNat,
                     done := done, ptc := s.ptc }
    let s1 := s.setSession k { x with items := x.items.filter (fun j => decide (j.w.sseq.toNat ≠ sseq)), recs := x.recs ++ [r],
                                      nextCseq := (x.nextCseq + 1) % 2 ^ 32 }
    (if status = 0 then s1 else s1.bumpPerf nodePc PC_WI_FAILED 1).sendCpl k [r]

end Sys2Proof.Machine
end

