-- ==== Sys2Proof/Machine/Jobs.lean ====
section
/-! DEFINITION. Job failure and the end of jobs, strikes, fences and scrubs: what Uttos does at an event (spec/16 R449, R455-R465,
spec/10 R295-R298, R309, spec/13 R391, R396, spec/08 R252). -/

namespace Sys2Proof.Machine

-- Scrubs --------------------------------------------------------------------------------------------------------------

/-- Begins the scratchpad scrub of a die (spec/07 R210, R212). -/
def State.spadScrub (s : State) (d : Nat) : State := s.setRgF d CD_SPAD_STATUS 2 0 1

/-- Starts the HBM scrub at the head of a partition's queue on every memory die of its stack list (spec/10 R309). -/
def State.startScrub (s : State) (p : Nat) : State :=
  let x := s.part p
  match x.scrubQ, x.scrubLeft with
  | r :: _, [] =>
    let s1 := x.stackList.foldl (fun t m =>
      ((t.setRg (nodeMd m) MD_SCRUB_BASE r.base).setRg (nodeMd m) MD_SCRUB_LEN (r.len / 4096)).setRgF (nodeMd m) MD_SCRUB_CTRL 2 1 1) s
    s1.setPart p { s1.part p with scrubLeft := x.stackList }
  | _, _ => s
/-- Queues ranges to be scrubbed. -/
def State.addScrub (s : State) (p : Nat) (rs : List ScrubRange) : State :=
  (s.setPart p { s.part p with scrubQ := (s.part p).scrubQ ++ rs }).startScrub p

/-- Page intervals of `r` outside the interval `h`. -/
def cutOut (h r : Nat × Nat) : List (Nat × Nat) :=
  [(r.1, min r.2 h.1), (max r.1 h.2, r.2)].filter (fun x => decide (x.1 < x.2))
/-- Pages, as intervals, that ranges touch and no held range of the key and job touches (spec/16 R458, R465). -/
def freePages (ranges held : List (Nat × Nat)) : List (Nat × Nat) :=
  let iv := fun (l : List (Nat × Nat)) => (l.filter (fun r => decide (0 < r.2))).map (fun r => (r.1 / 4096, cdiv (r.1 + r.2) 4096))
  (iv held).foldl (fun rs h => rs.flatMap (cutOut h)) (iv ranges)
def scrubsOf (ranges held : List (Nat × Nat)) : List ScrubRange :=
  (freePages ranges held).map (fun r => { base := 4096 * r.1, len := 4096 * (r.2 - r.1), granule := none })

/-- A die without any state of a job: cores, places, tables, S-cores (spec/16 R465, spec/03 R111, spec/05 R144, spec/06 R174, R187,
spec/08 R225, spec/10 R296). -/
def Die.scrubJob (x : Die) : Die :=
  { x with places := [], mcs := [], vcs := [], scr := Scraper.reset, gens := [], tabs := [], tabErr := [], flags := [], landPtr := 0,
           landLate := false, dmaPtr := 0, tickets := [], ticketNext := 0, scs := [], spq := [], vgpend := 0, barSkip := [], barAt := [],
           l2 := [], ctx := none, runs := [], nomWraps := 0, startAt := none, strobed := 0, issuedNom := 0, waitCnt := 0, yieldAt := none, inPhase := false, resumed := false, epochAt := 0 }

/-- The scrub of a die's on-die state at the end of a job: cells, registers and tables at once, the scratchpad by its engine. -/
def State.scrubDie (s : State) (d : Nat) : State :=
  let s1 := ((s.modDie d Die.scrubJob).setRg d CD_ARITH_STATUS 0).setRg d CD_SAT_COUNT 0
  ((List.range 4).foldl (fun t c => t.setRgB d (CD_SC_CTRL c) 0 false) s1).spadScrub d

-- Stopping places -----------------------------------------------------------------------------------------------------

/-- PL.STOP of a place: an armed or running place halts (spec/06 R184). -/
def State.stopPlace (s : State) (d p : Nat) : State :=
  if (s.place d p).st = .armed ∨ (s.place d p).st = .running then s.haltPlace d p else s
/-- Every armed or running place of a partition halts (spec/16 R457). -/
def State.stopPart (s : State) (p : Nat) : State :=
  (s.diesOf p).foldl (fun t d => (List.range 25).foldl (fun u q => u.stopPlace d q) t) s

/-- A job that ends clears the step armed on every die; dies that wait at its boundary wait no more (spec/14 R414). -/
def State.stepCancel (s : State) (p : Nat) : State :=
  let s1 := (s.part p).stackList.foldl (fun t m => t.setRgB (nodeMd m) MD_CLK_NEXT 63 false)
    ((s.diesOf p).foldl (fun t d => t.setRgB d CD_CLK_NEXT 63 false) s)
  if (s1.part p).stepW.isSome then s1
  else ((s1.diesOf p).foldl (fun t d => t.modDie d (fun x => { x with fstep := false })) s1).modPart p (fun x => { x with atStep := [] })

/-- Sessions of a partition. -/
def sessionsOf (p : Nat) : List Nat := (List.range 8).map (fun k => 8 * p + k)

-- Power state of an idle partition ------------------------------------------------------------------------------------

/-- A place of a die is ARMED or RUNNING. -/
def Die.busy (x : Die) : Bool := x.places.any (fun e => decide (e.2.st = .armed) || decide (e.2.st = .running))
/-- No place of a partition is ARMED or RUNNING. -/
def State.partQuiet (s : State) (p : Nat) : Bool := (s.diesOf p).all (fun d => !(s.die d).busy)

/-- The earliest hint in force among the sessions of a partition (spec/13 R398). -/
def State.hintOf (s : State) (p : Nat) : Option Nat :=
  ((sessionsOf p).filterMap (fun k => (s.session k).hint)).foldl (fun a h =>
    if h ≤ s.ptc then a else match a with | none => some h | some x => some (min x h)) none

/-- The threshold for Doze (spec/17 R482). -/
def State.dozeNs (s : State) : Nat := match s.pcd.conf with | some c => c.dozeNs | none => 900000000000

/-- Deepest power state for a hint that lies Δ ns ahead (spec/17 R481, R482): 0 Run, 1 Hold, 2 Warm-hold, 3 Doze. -/
def powerFor (delta doze : Nat) : Nat :=
  if 1400000000 + 120000000000 ≤ delta ∧ doze < delta then 3
  else if 50000 + 1000000 ≤ delta then 2
  else if 2000 + 10000 ≤ delta then 1
  else 0

/-- The twin link's role: 0 unpaired, 1 headstock, 2 tailstock (spec/12 R378). -/
def State.twinRole (s : State) : Nat := if s.enT then s.rgF (nodeFd 0) FD_TWIN_STATUS 1 0 else 0

/-- Uttos chooses the power state of an idle partition, one where no place is ARMED or RUNNING and no job runs or waits to run (spec/17 R482;
log entry 23). A deeper state is entered; where the choice is less deep than
the state in force, the partition begins to wake (R483). A tailstock stays in Warm-hold (spec/12 R376, spec/17 R484). -/
def State.powerSelect (s : State) (p : Nat) : State :=
  let x := s.part p
  let job := x.run.isSome || x.ctxs.any (fun e => decide (e.2.st = .ready) && e.2.endAs.isNone)
  if !s.partQuiet p || x.off || x.waking || job then s
  else
    let t := if s.twinRole = 2 then 2 else match s.hintOf p with
      | some h => powerFor (h - s.ptc) s.dozeNs
      | none => if x.pstate = 0 then 1 else min 2 x.pstate
    if x.pstate < t then s.setPart p { x with pstate := t, entering := decide (2 ≤ t) }
    else if t < x.pstate then s.setPart p { x with waking := true, entering := false }
    else s

/-- When an item ends, and no other of the partition's items is in progress, Uttos chooses again (spec/17 R482, R485). -/
def State.idleChoose (s : State) (p : Nat) : State :=
  if (sessionsOf p).any (fun k => (s.session k).items.any (fun i => i.started)) then s else s.powerSelect p

-- Items and transfers -------------------------------------------------------------------------------------------------

/-- Leading bytes whose transactions completed (spec/10 R295). -/
def doneBytes : List Tx → Nat
  | [] => 0
  | t :: r => if t.st = .ok then t.len + doneBytes r else 0
/-- Status of the first failed transaction; 5 for an item that was ended, unless a scratchpad word failed it before (spec/10 R297, R298,
spec/07 R203). The model writes 7 for a status 4 that a fenced stack brings about (R305). -/
def Item.status (i : Item) : Nat :=
  if i.ended then (if i.txs.any (fun t => decide (t.doom = 3)) then 3 else 5)
  else i.txs.foldl (fun a t => if a ≠ 0 then a else match t.st with | .failed n => n | _ => 0) 0
/-- No transaction is outstanding or waiting. -/
def Item.over (i : Item) : Bool :=
  i.txs.all (fun t => match t.st with | .ok => true | .failed _ => true | .waiting => i.ended | .issued => false)
/-- Changes transaction k of an item. -/
def State.modTx (s : State) (m id k : Nat) (f : Tx → Tx) : State :=
  let x := s.md m
  s.setMd m { x with items := x.items.map (fun i => if i.id = id then { i with txs := i.txs.modify k f } else i) }

/-- The transaction that a request packet belongs to will fail with a status, whatever its answer says. -/
def State.doomTx (s : State) (p : DynPkt) (status : Nat) : State :=
  if epKind p.src.toNat = 1 then
    match sfind (s.md (epId p.src.toNat)).trk p.txid.toNat with
    | some t => s.modTx (epId p.src.toNat) t.item t.tx (fun x => { x with doom := status })
    | none => s
  else s

/-- Event code of a failed item (spec/10 R298); 0 where none. -/
def itemEvent (status : Nat) : Nat :=
  if status = 1 ∨ status = 6 then 0x2202 else if status = 2 then 0x2200 else if status = 3 then 0x2140 else if status = 4 then 0x2203
  else if status = 7 then 0x3200 else 0

/-- STATUS of an item as it is reported. -/
def itemStatus (status : Nat) : Nat := if status = 7 then 4 else status

/-- The write-back word of a descriptor (spec/10 R291): DONE and STATUS. -/
def backWord (done status : Nat) : List Byte := leBytes 8 (done % 2 ^ 40 + status * 2 ^ 40)

/-- Packets of a transfer (spec/12 R351). -/
def xferPkts (d : FabDesc) : Nat := cdiv d.length.toNat 8192

/-- DONE count of a transfer: the leading bytes whose packets completed, on every copy (spec/12 R350, R353). -/
def Xfer.done (x : Xfer) : Nat :=
  let ok := fun k => (List.range x.copies.length).all (fun c => x.acked.contains (k, c))
  min x.desc.length.toNat (8192 * ((List.range (xferPkts x.desc)).takeWhile ok).length)

/-- The group serves a transfer. -/
def GrpKind.ofXfer (k : GrpKind) (id : Nat) : Bool :=
  match k with
  | .send x _ => decide (x = id)
  | .back x _ => decide (x = id)
  | _ => false

/-- A fabric die without a transfer: its packets, groups and waiting pieces go with it. -/
def Fdie.without (f : Fdie) (id : Nat) : Fdie :=
  let gs := (f.grps.filter (fun g => g.kind.ofXfer id)).map (·.id)
  { f with xfers := f.xfers.filter (fun y => decide (y.id ≠ id)), slots := f.slots.filter (fun e => decide (e.2.xfer ≠ id)),
           grps := f.grps.filter (fun g => !g.kind.ofXfer id), wait := f.wait.filter (fun w => !gs.contains w.grp) }

/-- Ends a fabric transfer: its write-back, the masks of an MCAST, and the landing tag of a complete one (spec/12 R350, R367). -/
def State.xferEnd (s : State) (fd id status done : Nat) : State :=
  let f := s.fd fd
  match f.xfers.find? (fun x => decide (x.id = id)) with
  | none => s
  | some x =>
    let p := (s.partOfRegion fd).getD 0
    let s1 := (s.setFd fd (f.without id)).hbmWrite p (x.addr + 56) (backWord done status) |>.1
    let s2 := if x.desc.op.toNat = 3 ∧ x.started then
      (s1.hbmWrite p (x.desc.list.toNat + 256) (leBytes 8 x.delivered ++ leBytes 8 x.failed)).1 else s1
    if x.desc.land && decide (status = 0) then
      match s2.siteNode x.desc.lsite.toNat with
      | some n => s2.inject (mkPkt 5 p (epSite n) (epFd fd) 0 0 0 x.desc.tag.toNat 0 [])
      | none => s2
    else s2

/-- Disables a job's entry on every fabric die of its partition, drops its cached ranks, and ends its transfers with status 5
(spec/16 R457, spec/12 R357). -/
def State.fabricOff (s : State) (p job : Nat) : State :=
  (s.regionsOf p).foldl (fun t r =>
    let t1 := (List.range 64).foldl (fun u j =>
      if u.rgB (nodeFd r) (FD_JOB_W0 j) 63 && decide (u.rgF (nodeFd r) (FD_JOB_W0 j) 31 16 = job) then u.setRgB (nodeFd r) (FD_JOB_W0 j) 63 false
      else u) t
    let f := t1.fd r
    let t2 := if (f.cache.any (fun c => decide (c.1 = job))) then t1.setFd r { f with cache := f.cache.filter (fun c => decide (c.1 ≠ job)) } else t1
    ((t2.fd r).xfers.filter (fun x => decide (x.job = job))).foldl (fun u x => u.xferEnd r x.id 5 x.done) t2) s

/-- Completes the landing tag of an item (spec/10 R295, spec/09 R262): a LAND packet to the die named. -/
def State.sendLand (s : State) (m : Nat) (tag : Nat) (dir : Bool) (site : Nat) : State :=
  match s.siteNode site with
  | some n => s.inject (mkPkt 5 (s.partOfMd m) (epSite n) (epMd m) 0 0 0 (tag + b2n dir * 2 ^ 12) 0 [])
  | none => s

/-- The DONE packet of an item: its report carries DONE and STATUS, and the tag of a scheduled item (log entry 12 for its layout). -/
def State.sendDone (s : State) (m die ticket : Nat) (sched : Bool) (tag done status : Nat) : State :=
  s.inject (mkPkt 6 (s.partOfMd m) (epSite die) (epMd m) 0 0 0 ticket 16 (backWord done status ++ leBytes 8 (b2n sched + 2 * tag)))

/-- DATA of an ALERT that names the job it fails: its number plus 1, 0 for none. -/
def jobMark (job : Nat) : Nat := if job < 65536 then job + 1 else 0

/-- An item that is over is reported and leaves its memory die (spec/10 R295-R298, R265). -/
def State.itemFinish (s : State) (m id : Nat) : State :=
  match (s.md m).items.find? (fun i => decide (i.id = id)) with
  | none => s
  | some i =>
    let st := i.status
    let rep := itemStatus st
    let done := doneBytes i.txs
    let s1 := s.setMd m { s.md m with items := (s.md m).items.filter (fun j => decide (j.id ≠ id)) }
    let s2 := if i.desc.land && decide (st = 0) && !i.landed then s1.sendLand m i.desc.tag.toNat i.desc.ldir i.desc.lsite.toNat else s1
    match i.origin with
    | .sched d =>
      let s3 := s2.sendDone m d 0 true i.desc.tag.toNat done rep
      if st = 0 ∨ st = 5 ∨ st = 3 ∨ st = 7 then s3 else s3.raise (nodeMd m) (itemEvent st) (unitStack m) (jobMark i.job)
    | .fxdma d tk a =>
      let s3 := (s2.hbmWrite (s.partOfMd m) (a + 56) (backWord done rep)).1.sendDone m d tk false 0 done rep
      if st = 2 ∨ st = 4 then s3.raise (nodeMd m) (itemEvent st) (unitStack m) (jobMark i.job) else s3
    | .hostItem k q =>
      let p := s.partOfMd m
      let own := match (s.part p).run with | some cid => (match sfind (s.part p).ctxs cid with | some c => decide (c.job = i.job) | none => false) | none => false
      let s3 := (s2.complete k q rep (if 2 ≤ rep ∧ rep ≤ 4 then itemEvent st else 0) done).idleChoose p
      if 2 ≤ st ∧ st ≤ 4 ∧ i.job < 65536 ∧ (st ≠ 3 ∨ own = false) then s3.raise (nodeMd m) (itemEvent st) (unitStack m) (jobMark i.job) else s3
    | .tload _ _ _ => if st = 0 ∨ st = 5 ∨ st = 7 then s2 else s2.raise (nodeMd m) (itemEvent st) (unitStack m) (jobMark i.job)

/-- Job an item belongs to (spec/10 R301): 65,536 where none. -/
def State.itemJob (s : State) (p : Nat) (o : Origin) : Nat :=
  match o with
  | .hostItem k q =>
    match s.item k q with
    | some i => if (s.part p).ctxs.any (fun e => decide (e.2.job = i.w.job.toNat) && decide (e.2.key = k)) then i.w.job.toNat else 65536
    | none => 65536
  | _ => match s.running p with
    | some (_, c) => c.job
    | none => 65536

/-- Descriptors on their way to a memory die end before it takes them; a ticket then has failed, a COPY has its record (spec/10 R297, R305). -/
def State.descsEnd (s : State) (hit : Nat × Origin × DmaDesc → Bool) (status event : Nat) : State :=
  let gone := s.pcd.descs.filter hit
  gone.foldl (fun t e => match e.2.1 with
    | .fxdma d tk _ => t.modDie d (fun x => if (sfind x.tickets tk).isSome then { x with tickets := sput x.tickets tk 2 } else x)
    | .hostItem k q => t.complete k q status event 0
    | _ => t) (s.setPcd (fun q => { q with descs := q.descs.filter (fun e => !hit e), descsOff := q.descsOff ++ gone.map (fun e => (e.1, e.2.1)) }))

/-- Ends every DMA item of a job with status 5; those with nothing outstanding are reported at once (spec/10 R297). -/
def State.endItems (s : State) (p job : Nat) : State :=
  (s.part p).stackList.foldl (fun t m =>
    let ids := ((t.md m).items.filter (fun i => decide (i.job = job))).map (·.id)
    if ids = [] then t
    else
      let t1 := t.setMd m { t.md m with items := (t.md m).items.map (fun i => if i.job = job then { i with ended := true } else i) }
      ids.foldl (fun u id => match (u.md m).items.find? (fun i => decide (i.id = id)) with
        | some i => if i.over then u.itemFinish m id else u
        | none => u) t1)
    (s.descsEnd (fun e => decide (s.partOfMd e.1 = p) && decide (s.itemJob p e.2.1 = job)) 5 0)

/-- The item works for a job of its own key: WRITE, READ, COPY or CHECKPOINT in flight (spec/10 R301, spec/13 R396). -/
def SItem.works (i : SItem) (job : Nat) : Bool :=
  i.started && decide (i.w.job.toNat = job) && (decide (i.w.op.toNat ≤ 3) || decide (i.w.op.toNat = 0x13))

/-- Host items of a job that no memory die holds end with status 5 and the DONE kept (spec/13 R396). -/
def State.endHostItems (s : State) (k job : Nat) : State :=
  ((s.session k).items.filter (fun i => i.works job && i.item.isNone)).foldl (fun t i => t.complete k i.w.sseq.toNat 5 0 i.done) s

-- The end of a job ----------------------------------------------------------------------------------------------------

/-- Something of the job is still in flight. -/
def State.jobBusy (s : State) (p : Nat) (c : Ctx) : Bool :=
  (s.part p).stackList.any (fun m => (s.md m).items.any (fun i => decide (i.job = c.job))) ||
    (s.session c.key).items.any (fun i => i.works c.job)

/-- The post-mortem copy and the scrub of the state that has no site-window address (spec/16 R465). The layout of the area is not
stated: its bytes take free values (log entry 6). -/
def State.postMortem (s : State) (p cid : Nat) (c : Ctx) : State :=
  let s1 := match c.img.postMortem with
    | some (a, n) =>
      let bs := (List.range n).map (fun k => BitVec.ofNat 8 (Config.freeValue (s.free + k)))
      ({ s with free := s.free + n } : State).hbmWrite p a bs |>.1
    | none => s
  if (s.part p).run ≠ some cid then s1
  else (s1.diesOf p).foldl (fun t d => t.modDie d (fun x =>
    { x with vcs := [], gens := [], scs := [], l2 := [], mcs := x.mcs.map (fun e => (e.1, { e.2 with tags := [], active := none, shadow := none })),
             scr := { x.scr with side := x.scr.side.map (fun e => (e.1, { e.2 with kind := 0 })) } })) s1

/-- The held ranges of a job number under a key (spec/16 R458). -/
def Part.heldOf (x : Part) (job key : Nat) : List (Nat × Nat) :=
  (x.held.filter (fun h => decide (h.job = job) && decide (h.key = key))).map (fun h => (h.base, h.len))

/-- The job of a context leaves the panel: its state is scrubbed (spec/16 R465). -/
def State.dropCtx (s : State) (p cid : Nat) : State :=
  match sfind (s.part p).ctxs cid with
  | none => s
  | some c =>
    let x := s.part p
    let onDie := decide (x.run = some cid) || (decide (c.st = .retained) && c.onDie)
    let s1 := s.setPart p { x with ctxs := serase x.ctxs cid, run := if x.run = some cid then none else x.run }
    let s2 := if onDie then (s1.diesOf p).foldl State.scrubDie s1 else s1
    s2.addScrub p (scrubsOf c.img.ranges (x.heldOf c.job c.key))

/-- A context whose job is ending and of which nothing is in flight any more: the JOB_START's record, then those of its JOB_KILLs, then
the scrub or the retention of its state (spec/13 R391, R396, spec/16 R457, R465). -/
def State.settleCtx (s : State) (p cid : Nat) : State :=
  match sfind (s.part p).ctxs cid with
  | none => s
  | some c =>
    match c.endAs with
    | none => s
    | some (st, ev) =>
      if s.jobBusy p c then s
      else
        let s1 := match c.jsItem with
          | some (k, q) => s.complete k q st ev 0
          | none => s
        let s2 := (sessionsOf p).foldl (fun t k =>
          ((t.session k).items.filter (fun i => i.acted && decide (i.w.op.toNat = 0x12) && decide (i.w.job.toNat = c.job))).foldl
            (fun u i => u.complete k i.w.sseq.toNat 0 0 0) t) s1
        let s2 := if c.jsItem.isSome then s2.setPart p { s2.part p with endedJobs := insUniq c.job (s2.part p).endedJobs } else s2
        if c.retain then
          let c1 := { c with st := .retained, endAs := none, jsItem := none, retainedAt := s.ptc, onDie := decide ((s.part p).run = some cid) }
          let s3 := s2.postMortem p cid c
          let x := s3.part p
          (s3.setPart p { x with ctxs := sput x.ctxs cid c1, run := if x.run = some cid then none else x.run }).idleChoose p
        else (s2.dropCtx p cid).idleChoose p

/-- RELEASE items whose scrubs are complete (spec/13 R387, spec/16 R465). -/
def State.releaseSettle (s : State) (p : Nat) : State :=
  if (s.part p).scrubQ.isEmpty && (s.diesOf p).all (fun d => !s.rgB d CD_SPAD_STATUS 0) then
    (sessionsOf p).foldl (fun t k =>
      ((t.session k).items.filter (fun i => i.acted && decide (i.w.op.toNat = 0x14))).foldl (fun u i => u.complete k i.w.sseq.toNat 0 0 0) t) s
  else s

/-- Every ending context of a partition. -/
def State.settle (s : State) (p : Nat) : State := ((s.part p).ctxs.map (·.1)).foldl (fun t cid => t.settleCtx p cid) s

/-- Writes rd and goes on to the next instruction. -/
def State.scRet (s : State) (d c : Nat) (rd : BitVec 5) (v : Nat) : State :=
  let y := s.sc d c
  s.setSc d c { (y.setX rd.toNat (BitVec.ofNat 64 v)) with pc := y.pc + 4#64, st := 1 }

/-- An FX.BAR of an S-core completes with a result. -/
def State.barEnd (s : State) (d c v : Nat) : State :=
  match (s.sc d c).bar with
  | some (_, rd) => (s.setSc d c { s.sc d c with bar := none }).scRet d c (BitVec.ofNat 5 rd) v
  | none => s

/-- FX.BARs in progress on the dies of a partition return 2 at the teardown of their job (spec/06 R184). -/
def State.barsAbort (s : State) (p : Nat) : State :=
  (s.diesOf p).foldl (fun t d => (List.range 4).foldl (fun u c => u.barEnd d c 2) t) s

/-- Ends the job of a context with a status of its JOB_START: places, fabric entries, items (spec/16 R457, spec/13 R391). -/
def State.endJob (s : State) (p cid status event : Nat) : State :=
  match sfind (s.part p).ctxs cid with
  | none => s
  | some c =>
    if c.st = .retained ∨ c.endAs.isSome then s
    else
      let s1 := if (s.part p).run = some cid then ((s.stopPart p).stepCancel p).barsAbort p else s
      let s2 := ((s1.fabricOff p c.job).endItems p c.job).endHostItems c.key c.job
      (s2.setPart p { s2.part p with ctxs := sput (s2.part p).ctxs cid { c with endAs := some (status, event) } }).settleCtx p cid

/-- A fault ends the running job of a partition (spec/16 R457). -/
def State.failRunning (s : State) (p code : Nat) : State :=
  match (s.part p).run with
  | some cid => s.endJob p cid 10 code
  | none => s
/-- Codes whose ALERT names the job that fails; the spec states no DATA for their records (spec/10 R298, R301, R302). -/
def jobCodes : List Nat := [0x2200, 0x2201, 0x2202, 0x2203, 0x2140, 0x2180, 0x2181, 0x2182]

/-- The contexts that an ALERT of a named job, or of a line found bad by the patrol, concerns (spec/10 R301, R302, spec/12 R353, R354, R367); none where the running
one is meant. -/
def State.namedCtxs (s : State) (p code data : Nat) : Option (List Nat) :=
  if code = 0x2201 then
    some (((s.part p).ctxs.filter (fun e => e.2.img.ranges.any (fun r => decide (r.1 ≤ data) && decide (data < r.1 + r.2)))).map (·.1))
  else if jobCodes.contains code && decide (data ≠ 0) then
    some (((s.part p).ctxs.filter (fun e => decide (e.2.job + 1 = data))).map (·.1))
  else none

/-- The jobs that a job-fatal event ends. -/
def State.failJobs (s : State) (p code data : Nat) : State :=
  match s.namedCtxs p code data with
  | some l => l.foldl (fun t cid => t.endJob p cid 10 code) s
  | none => s.failRunning p code

/-- Job number and incarnation in the record of an event. -/
def State.jobOfEvent (s : State) (p code data : Nat) : Nat × Nat :=
  match s.namedCtxs p code data with
  | some (cid :: _) => match sfind (s.part p).ctxs cid with
    | some c => (c.job, c.incarn)
    | none => (0, 0)
  | some [] => (0, 0)
  | none => s.runJob p

/-- Every resident context of a partition fails. -/
def State.failAll (s : State) (p code : Nat) : State :=
  ((s.part p).ctxs.map (·.1)).foldl (fun t cid => t.endJob p cid 10 code) s

-- Fences (spec/16 R449, R460-R464) ------------------------------------------------------------------------------------

/-- Bit of RS.FENCE.CORE_OFF for a compute die. -/
def coreBit (d : Nat) : Nat := 9 * (d / 36 % 4) + d % 36 % 9

/-- A re-true of a region is owed (spec/15 R444). -/
def State.oweRetrue (s : State) (r : Nat) : State :=
  match s.partOfRegion r with
  | some p => s.setPart p { s.part p with retrue := (s.part p).retrue ||| 2 ^ r }
  | none => s

/-- A compute die is the idle spare of its row: the map gives it no position, and has not excluded it (spec/01 R36). -/
def State.idleSpare (s : State) (d : Nat) : Bool :=
  decide (d < 576) && decide (d % 36 % 9 = 8) && decide (s.rgF (nodeRs ((regionOfNode d).getD 0)) (RS_ROW_MAP (d / 36 % 4)) 19 18 = 0)

/-- Fences a compute die: its core switch opens, the log takes a type 2 entry, its region is re-trued (spec/16 R461). Of an idle spare the row
map changes at once, and no re-true is owed (spec/16 R462; log entry 90). -/
def State.fenceSite (s : State) (d : Nat) : State :=
  if s.pcd.fencedSites.contains d then s
  else
    let r := (regionOfNode d).getD 0
    let row := RS_ROW_MAP (d / 36 % 4)
    let s1 := ((s.setRgB (nodeRs r) RS_FENCE (coreBit d) true).setPcd (fun p => { p with fencedSites := insUniq d p.fencedSites })).knot (unitDie d) 2
    if s.idleSpare d then (s1.setRgF (nodeRs r) row 19 18 2).setRgB (nodeRs r) row 17 true else s1.oweRetrue r

/-- Fences a memory die with its stack; a region with none left loses its fabric die (spec/10 R305). -/
def State.fenceMd (s : State) (m : Nat) : State :=
  if s.pcd.fencedMds.contains m then s
  else
    let s1 := (s.setRgB (nodeRs (m / 8)) RS_FENCE (50 + m % 8) true).setPcd (fun p => { p with fencedMds := insUniq m p.fencedMds })
    let all := (List.range 8).all (fun k => s1.pcd.fencedMds.contains (m / 8 * 8 + k))
    let s2 := if all then s1.setFd (m / 8) { s1.fd (m / 8) with lost := true } else s1
    (s2.knot (unitStack m) 4).oweRetrue (m / 8)

/-- Fences a physical link: it counts as a bad link at the re-true of the regions of both ends (spec/11 R326, spec/16 R460). -/
def State.fenceLink (s : State) (node port : Nat) : State :=
  let far := if port % 4 = 0 then node + 36 * (1 + port / 4) else if port % 4 = 1 then node + (1 + port / 4)
    else if port % 4 = 2 then node - 36 * (1 + port / 4) else node - (1 + port / 4)
  let s1 := ((s.setPcd (fun p => { p with badLinks := p.badLinks ++ [(node, port)] })).knot (unitLink node port) 5).oweRetrue ((regionOfNode node).getD 0)
  if port < 8 ∧ node < 576 then s1.oweRetrue ((regionOfNode far).getD 0) else s1

/-- Fences a spindle node: it is out of service (spec/16 R460, R461). -/
def State.fenceSpindle (s : State) (n : Nat) : State :=
  ((s.setPcd (fun p => { p with nodesOut := insUniq n p.nodesOut })).knot (unitDie n) 2).oweRetrue ((regionOfNode n).getD 16)

/-- Fences a fabric die. -/
def State.fenceFd (s : State) (f : Nat) : State := (s.setFd f { s.fd f with lost := true }).knot (unitDie (nodeFd f)) 2

/-- Units that take a strike, as a site, an array, a link or a spindle node (spec/16 R460); 2^32 more than its unit code names a die's
spindle node. -/
def strikeUnits (code unit : Nat) : List Nat :=
  let array := unit - unitIndex unit % 1024
  if code = 0x2101 then [unitDie (unitNode unit)]
  else if [0x2102, 0x2111, 0x2121, 0x2131, 0x2140, 0x2155, 0x2157].contains code then
    (if unitKind unit = 3 then [array] else [unit]) ++ [unitDie (unitNode unit)]
  else if code = 0x2150 ∨ code = 0x2160 then [unit]
  else if code = 0x2170 then [2 ^ 32 + unit]
  else []

/-- Units that a second strike within the window fences. -/
def State.secondStrike (s : State) (us : List Nat) : List Nat :=
  us.filter (fun u => s.pcd.strikes.any (fun k => decide (k.1 = u) && decide (s.ptc < k.2 + (match s.pcd.conf with | some c => c.strikeNs | none => 86400000000000))))

/-- The event fences a unit (the FENCE bit of its record). -/
def State.fences (s : State) (code unit : Nat) : Bool :=
  [0x2142, 0x2156, 0x21A1, 0x2161, 0x2183, 0x3200, 0x3300, 0x3301].contains code || !(s.secondStrike (strikeUnits code unit)).isEmpty

/-- Fences the unit of a unit code. -/
def State.fenceUnit (s : State) (u : Nat) : State :=
  if 2 ^ 32 ≤ u then s.fenceSpindle (unitNode (u - 2 ^ 32))
  else if unitKind u = 5 then s.fenceLink (unitNode u) (unitIndex u)
  else if unitKind u = 6 then s.fenceMd (unitIndex u)
  else if unitNode u < 576 then s.fenceSite (unitNode u)
  else if unitNode u < 704 then s.fenceMd (unitNode u - 576)
  else if unitNode u < 720 then s.fenceFd (unitNode u - 704)
  else s

/-- The unit consequence of an event (spec/16 R460). -/
def State.consequence (s : State) (code unit : Nat) : State :=
  let us := strikeUnits code unit
  if us ≠ [] then
    let second := s.secondStrike us
    let s1 := s.setPcd (fun p => { p with strikes := p.strikes ++ us.map (fun u => (u, s.ptc)) })
    second.foldl State.fenceUnit s1
  else if code = 0x2142 ∨ code = 0x2156 ∨ code = 0x21A1 then s.fenceSite (unitNode unit)
  else if code = 0x2161 then s.fenceLink (unitNode unit) (unitIndex unit)
  else if code = 0x21A0 ∨ code = 0x3170 ∨ code = 0x31A0 then
    match regionOfNode (unitNode unit) with
    | some r => s.oweRetrue r
    | none => s
  else if code = 0x2183 then s.fenceFd (unitNode unit - 704)
  else if code = 0x3200 then s.fenceMd (unitIndex unit)
  else s

/-- COPY items that a memory die holds end with status 5. -/
def State.copiesEnd (s : State) (m : Nat) : State :=
  (s.md m).items.foldl (fun t i => match i.origin with
    | .hostItem k q => t.complete k q 5 0 (doneBytes i.txs)
    | _ => t) s

/-- A region's supply goes: its dies lose their state, its stacks their contents, and what is inside its routers and spindle nodes is lost;
its links number their codewords anew (spec/16 R463). The region services die and the fabric die are on other rails (spec/01 R29). -/
def State.regionDark (s : State) (r : Nat) : State :=
  let mine := fun (n : Nat) => decide (n < 704) && decide (regionOfNode n = some r)
  let s1 := (List.range 8).foldl (fun t k => t.copiesEnd (8 * r + k)) s
  let s2 := { s1 with dies := s1.dies.filter (fun e => !mine e.1), mds := s1.mds.filter (fun e => decide (e.1 / 8 ≠ r)),
                      regs := s1.regs.filter (fun e => !mine (e.1 / 2 ^ 32)) }
  let link := fun (k : Nat) => mine (k / 16) || mine (portFar (k / 16) (k % 16))
  let kept := fun (m : SMap Nat) => m.filter (fun e => !link e.1)
  s2.setPcd (fun p => { p with spn := p.spn.filter (fun e => !mine (e.1 / 16)), net := p.net.filter (fun e => !mine (e.1 / 64)),
                               netUsed := p.netUsed.filter (fun e => !link (e.1 / 4)), seqExp := kept p.seqExp, sentNext := kept p.sentNext,
                               sentBase := kept p.sentBase, resent := kept p.resent, nakSent := p.nakSent.filter (fun k => !link k) })

/-- A region's input switch opens (spec/16 R449). -/
def State.regionOpen (s : State) (r : Nat) : State := (s.setRgB (nodeRs r) RS_FENCE 63 true).regionDark r

/-- A partition goes off until the next bring-up: the input switches of its regions open (spec/15 R428). -/
def State.partOff (s : State) (p : Nat) : State :=
  let s1 := (s.regionsOf p).foldl State.regionOpen s
  ((s1.setPart p { s1.part p with off := true, retrue := 0 }).settle p).setRgB nodePc PC_BRINGUP_STATUS (48 + p) false

/-- An event concerns the die of an idle spare itself: it fails no job (spec/16 R462). -/
def State.spareEvent (s : State) (unit : Nat) : Bool := [1, 3, 7].contains (unitKind unit) && s.idleSpare (unitNode unit)

/-- What follows an event by its class (spec/16 R455, R457). -/
def State.actOn (s : State) (code part unit data : Nat) : State :=
  let s1 := if s.spareEvent unit then s
    else if code / 4096 = 2 then s.failJobs part code data
    else if code / 4096 = 3 then s.failAll part code
    else if code / 4096 = 4 then
      ((List.range 16).foldl (fun t p => t.failAll p code) s).setPcd (fun p => { p with heldOff := true })
    else s
  let s2 := s1.consequence code unit
  if code = 0x31B0 ∨ code = 0x31B2 ∨ code = 0x3300 then s2.partOff part else s2

/-- The active PCD handles an event: the record, then what follows (spec/16 R454, R455, R457). -/
def State.event (s : State) (code part unit data ptc : Nat) : State :=
  (s.putEvent code part unit (if jobCodes.contains code then 0 else data) ptc
    (if part < 16 ∧ (code / 4096 = 2 ∨ code / 4096 = 3) ∧ !s.spareEvent unit then s.jobOfEvent part code data else (0, 0)) (s.fences code unit)).actOn code part unit data

/-- An event that the active PCD detects itself. -/
def State.pcdEvent (s : State) (code part unit data : Nat) : State := s.event code part unit data s.ptc

/-- An event of one context's job, which may not be running. -/
def State.ctxEvent (s : State) (code p cid unit data : Nat) : State :=
  match sfind (s.part p).ctxs cid with
  | none => s
  | some c => ((s.putEvent code p unit data s.ptc (c.job, c.incarn) (s.fences code unit)).endJob p cid 10 code).consequence code unit

/-- Registers of a fault record besides its first, by that first one (spec/03 R120, spec/05 R162, spec/06 R173, spec/07 R212, spec/08
R254, spec/10 R310). -/
def recordRest (node off : Nat) : Option (List Nat) :=
  if node < 576 then
    if off = CD_MC_FAULT_INFO then some [CD_MC_FAULT_CMD, CD_MC_FAULT_DIFF, CD_MC_FAULT_TOL, CD_MC_FAULT_PTC]
    else if off = CD_SCR_FAULT_INFO then some [CD_SCR_FAULT_CMD, CD_SCR_FAULT_PTC]
    else if off = CD_VC_FAULT_INFO then some [CD_VC_FAULT_CMD, CD_VC_FAULT_PTC]
    else if off = CD_SPAD_FAULT_INFO then some [CD_SPAD_FAULT_ADDR, CD_SPAD_FAULT_PTC]
    else if off = CD_PL_FAULT_INFO then some [CD_PL_FAULT_ENTRY, CD_PL_FAULT_PTC]
    else none
  else if node < 704 ∧ off = MD_FAULT_INFO then some [MD_FAULT_ADDR, MD_FAULT_PTC]
  else none

/-- A fault record is cleared whole and re-armed. -/
def State.recordClear (s : State) (node off : Nat) : State :=
  match recordRest node off with
  | some l => (off :: l).foldl (fun t o => t.setRg node o 0) s
  | none => s

/-- Fault record of the node whose event has a code. -/
def recordOf (code : Nat) : Option Nat :=
  if 0x2100 ≤ code ∧ code ≤ 0x2102 then some CD_MC_FAULT_INFO
  else if code = 0x2110 ∨ code = 0x2111 then some CD_SCR_FAULT_INFO
  else if code = 0x2120 ∨ code = 0x2121 then some CD_VC_FAULT_INFO
  else if 0x2140 ≤ code ∧ code ≤ 0x2142 then some CD_SPAD_FAULT_INFO
  else if code = 0x2150 ∨ code = 0x2152 ∨ code = 0x2153 ∨ code = 0x2155 then some CD_PL_FAULT_INFO
  else if (0x2200 ≤ code ∧ code ≤ 0x2203) ∨ code = 0x3200 then some MD_FAULT_INFO
  else none

/-- Uttos reports an event of a node: it reads the fault record that the event left, and clears it (spec/03 R120, spec/05 R162, spec/06 R173,
spec/07 R212, spec/08 R254, spec/10 R310). -/
def State.recordRead (s : State) (node code : Nat) : State :=
  match recordOf code with
  | some off => if s.rgB node off 31 then s.recordClear node off else s
  | none => s

/-- An ALERT reaches the active PCD, and its node's fault record is read and cleared; a repeat of one already handled is discarded (spec/16 R453, R454). -/
def State.alertIn (s : State) (a : Alert) : State :=
  if s.pcd.seen.contains (a.node, a.serial) then s
  else ((s.setPcd (fun p => { p with seen := p.seen ++ [(a.node, a.serial)] })).event a.code a.part a.unit a.data a.ptc).recordRead a.node a.code

end Sys2Proof.Machine
end

