-- ==== Sys2Proof/Machine/Spindle.lean ====
section
/-! DEFINITION. The spindle: its links, its routes, the tree of a partition and the sending of packets (spec/11 R334-R340). -/

namespace Sys2Proof.Machine

/-- Region of a node's spindle links; of a PCD, which joins RSD 0 and RSD 1, the one that it uses first (spec/11 R334; log entry 13). -/
def spRegion (n : Nat) : Nat := if n < 736 then (regionOfNode n).getD 0 else n - 736

/-- The site that a memory die's node joins: its even attachment (spec/11 R334). -/
def attSite (m : Nat) : Nat := 36 * (4 * (m / 8 / 4) + (if m % 8 < 4 then 1 else 2)) + 9 * (m / 8 % 4) + 2 * (m % 8 % 4)

/-- A node is in service: its supply is on, and it has not taken itself out (spec/11 R334, R337, spec/14 R407). -/
def State.spUp (s : State) (n : Nat) : Bool :=
  !s.pcd.nodesOut.contains n &&
    (if n < 576 then s.regionOn ((regionOfNode n).getD 16) else if n < 704 then s.mdOn (n - 576) else if n < 720 then s.fdOn (n - 704)
     else s.pcd.standby && !s.pcd.rsdLost.contains (n - 720))

/-- The memory die over which an RSD's packets go: MD 8r + 1, or MD 8r + 2 where the first or its site is out of service. -/
def State.spGate (s : State) (r : Nat) : Nat :=
  if s.spUp (nodeMd (8 * r + 1)) && s.spUp (attSite (8 * r + 1)) then 8 * r + 1 else 8 * r + 2

/-- A region's services die reaches the site mesh: it and the memory die of its gate are in service. -/
def State.spJoined (s : State) (r : Nat) : Bool :=
  s.spUp (nodeRs r) && s.spUp (nodeMd (s.spGate r)) && s.spUp (attSite (s.spGate r))

/-- Region over which a node's packets leave and reach the site mesh: of a PCD region 0 or 1, the other where its own does not reach the mesh. -/
def State.spHome (s : State) (n : Nat) : Nat :=
  if n < 736 then spRegion n else if s.spJoined (n - 736) || !s.spJoined (737 - n) then n - 736 else 737 - n

/-- The site at which packets for a node leave the site mesh. -/
def State.spSite (s : State) (n : Nat) : Nat :=
  if n < 576 then n else if n < 704 then attSite (n - 576) else attSite (s.spGate (s.spHome n))

/-- The node at the far end of an output: 0-3 north, east, south, west of a site, 4 its memory die; 0 the site and 1 the RSD of a memory
die; 0 MD 8r + 1, 1 MD 8r + 2, 2 FD r, 3 PCD A, 4 PCD B of an RSD; 0 the RSD of a fabric die, 0 and 1 the RSDs of a PCD. Output 7 is the
node's own die. -/
def spFar (n port : Nat) : Option Nat :=
  let r := spRegion n
  if port = 7 then some n
  else if n < 576 then
    if port = 0 then (if n + 36 < 576 then some (n + 36) else none)
    else if port = 1 then (if n % 36 < 35 then some (n + 1) else none)
    else if port = 2 then (if 36 ≤ n then some (n - 36) else none)
    else if port = 3 then (if 0 < n % 36 then some (n - 1) else none)
    else if port = 4 then ((List.range' 0 128).find? (fun m => decide (attSite m = n))).map nodeMd
    else none
  else if n < 704 then
    if port = 0 then some (attSite (n - 576))
    else if port = 1 ∧ ((n - 576) % 8 = 1 ∨ (n - 576) % 8 = 2) then some (nodeRs r)
    else none
  else if n < 720 then (if port = 0 then some (nodeRs r) else none)
  else if n < 736 then
    if port = 0 then some (nodeMd (8 * r + 1))
    else if port = 1 then some (nodeMd (8 * r + 2))
    else if port = 2 then some (nodeFd r)
    else if (port = 3 ∨ port = 4) ∧ r < 2 then some (733 + port)
    else none
  else if port < 2 then some (nodeRs port)
  else none

/-- Site nodes on the way along the row of n, then along the column of t. -/
def meshSpan (n t : Nat) : List Nat :=
  (spanOf (n % 36) (t % 36)).map (fun x => 36 * (n / 36) + x) ++ (spanOf (n / 36) (t / 36)).map (fun y => 36 * y + t % 36)

/-- Layers of site nodes by their distance from the nodes of `front`, over nodes in service. -/
def meshLayers (ok : Nat → Bool) : Nat → List Nat → List Nat → List (List Nat)
  | 0, _, _ => []
  | k + 1, seen, front =>
    let next := (sortUniq (front.flatMap (fun n => (List.range 4).filterMap (spFar n)))).filter (fun n => ok n && !seen.contains n && !front.contains n)
    front :: (if next = [] then [] else meshLayers ok k front next)

/-- The output of a site node toward another on a shortest route over nodes in service: along the row, then along the column, where those
are; else round what is not (spec/11 R337: Uttos sets the routes; which ones is log entry 13). None where no route of 72 hops exists. -/
def meshPort (ok : Nat → Bool) (n t : Nat) : Option Nat :=
  if (meshSpan n t).all (fun m => decide (m = n) || ok m) then
    some (if n % 36 < t % 36 then 1 else if t % 36 < n % 36 then 3 else if n / 36 < t / 36 then 0 else 2)
  else
    let ls := meshLayers (fun m => ok m || decide (m = n)) 73 [] [t]
    match ls.findIdx? (fun l => l.contains n) with
    | some (k + 1) => (List.range 4).find? (fun port => match spFar n port with | some m => ((ls[k]?).getD []).contains m | none => false)
    | _ => none

/-- The output a node takes toward a destination; none where it has no route. -/
def State.spPort (s : State) (n dst : Nat) : Option Nat :=
  let r := spRegion n
  let site := s.spSite dst
  let here := decide (704 ≤ dst) && decide (s.spHome dst = r)
  if n = dst then some 7
  else if n < 576 then (if n = site then some 4 else meshPort s.spUp n site)
  else if n < 704 then some (if here ∧ (n - 576) % 8 = 1 ∨ here ∧ (n - 576) % 8 = 2 then 1 else 0)
  else if n < 720 then some 0
  else if n < 736 then
    some (if dst = nodeFd r then 2 else if 736 ≤ dst ∧ r < 2 then dst - 733 else if dst = nodeMd (8 * r + 2) then 1 else if dst = nodeMd (8 * r + 1) then 0
          else s.spGate r - 8 * r - 1)
  else some (if 704 ≤ dst ∧ dst < 736 ∧ spRegion dst < 2 then spRegion dst else s.spHome n)

/-- FIFO of a node's output and class. -/
def spKey (n port : Nat) (cls : Bool) : Nat := (n * 8 + port) * 2 + b2n cls
def State.spQ (s : State) (n port : Nat) (cls : Bool) : List SpPkt := sget [] s.pcd.spn (spKey n port cls)
def State.setSpQ (s : State) (n port : Nat) (cls : Bool) (l : List SpPkt) : State :=
  s.setPcd (fun p => { p with spn := nput [] p.spn (spKey n port cls) l })
/-- Puts a packet in the FIFO of an output (spec/11 R336). -/
def State.spPush (s : State) (n port : Nat) (p : SpPkt) : State := s.setSpQ n port p.cls (s.spQ n port p.cls ++ [p])

/-- Class of a packet type: 0x01 and the register accesses are class B (spec/11 R335). -/
def spClassB (ty : Nat) : Bool := decide (ty = 1) || decide (9 ≤ ty)

/-- A packet made by a node. -/
def spPkt (ty src dst part arg payload : Nat) : SpPkt :=
  { ty := BitVec.ofNat 6 ty, cls := spClassB ty, panel := decide (ty = 7), dst := BitVec.ofNat 10 dst, src := BitVec.ofNat 10 src,
    part := BitVec.ofNat 4 part, arg := BitVec.ofNat 32 arg, payload := BitVec.ofNat 64 payload }

/-- Sends a packet point to point. -/
def State.spSend (s : State) (src : Nat) (p : SpPkt) : State :=
  match s.spPort src p.dst.toNat with
  | some port => s.spPush src port p
  | none => s

/-- The node of the active PCD. -/
def State.activeNode (s : State) : Nat := 736 + b2n s.pcd.activeB

-- The tree of a partition (spec/11 R339) ------------------------------------------------------------------------------

/-- Node of a partition's kernel site, its tree's root. -/
def State.kernelNode (s : State) (p : Nat) : Option Nat :=
  match s.partCfgs.find? (fun c => decide (c.num = p)) with
  | some c => s.siteNode c.kernel
  | none => none

/-- A site's node is in service in a partition's tree. -/
def State.treeNode (s : State) (p n : Nat) : Bool := decide (n < 576) && decide (s.partOfNode n = some p) && s.spUp n

/-- Output of a node toward its parent in a partition's shortest-path tree, rooted at a node. -/
def State.treeUp (s : State) (p root n : Nat) : Option Nat := if n = root then none else meshPort (s.treeNode p) n root
/-- Parent of a node in a partition's tree. -/
def State.treeParent (s : State) (p root n : Nat) : Option Nat :=
  match s.treeUp p root n with
  | some port => spFar n port
  | none => none

/-- Child outputs of a node in a partition's tree. -/
def State.treePorts (s : State) (p root n : Nat) : List Nat :=
  (List.range 4).filter (fun port => match spFar n port with
    | some c => s.treeNode p c && decide (s.treeParent p root c = some n)
    | none => false)

/-- Sends a broadcast down a partition's tree from a node: a copy on each child link, and one to its own die (spec/11 R339). -/
def State.spDown (s : State) (p root n : Nat) (k : SpPkt) : State :=
  (s.treePorts p root n).foldl (fun t port => t.spPush n port k) (s.spPush n 7 k)

/-- Broadcasts a packet to every die of a partition, from the tree's root. -/
def State.spBroadcast (s : State) (p ty arg payload : Nat) : State :=
  match s.kernelNode p with
  | some root => s.spDown p root root (spPkt ty root root p arg payload)
  | none => s

/-- Nodes from a node up to the root of its partition's tree. -/
def State.pathUp (s : State) (p root : Nat) : Nat → Nat → List Nat
  | 0, n => [n]
  | k + 1, n => match s.treeParent p root n with
    | some q => n :: s.pathUp p root k q
    | none => [n]

/-- An S-core takes part in barriers: it runs or waits for an interrupt. -/
def SCore.live (y : SCore) : Bool := decide (y.st = 1) || decide (y.st = 2)

/-- Some S-core of a die takes part in barriers. -/
def Die.hasLive (x : Die) : Bool := x.scs.any (fun e => e.2.live)

/-- A die has arrived at barrier b: every S-core of it that runs or waits has issued FX.BAR b (spec/11 R339); with none it holds
nothing up. -/
def Die.arrivedAt (x : Die) (b : Nat) : Bool := x.barAt.contains b || !x.hasLive

/-- A node's own die and all its children have arrived at barrier b. A child none of whose dies has a live S-core holds nothing up. -/
def State.barReady (s : State) (p root n b : Nat) : Bool :=
  (s.die n).arrivedAt b &&
    (s.treePorts p root n).all (fun port => match spFar n port with
      | some c => (s.part p).arrived.contains (n, b, c) ||
          !(s.diesOf p).any (fun d => (s.die d).hasLive && (s.pathUp p root 72 d).contains c)
      | none => true)

/-- After an arrival at a node: when its die and children have arrived, BAR_ARRIVE goes up, or at the root BAR_RELEASE goes down
(spec/11 R339). -/
def State.barUp (s : State) (p n b : Nat) : State :=
  match s.kernelNode p with
  | none => s
  | some root =>
    if s.barReady p root n b then
      let x := s.part p
      let s1 := s.setPart p { x with arrived := x.arrived.filter (fun a => !(decide (a.1 = n) && decide (a.2.1 = b))) }
      match s.treeUp p root n with
      | some port => s1.spPush n port (spPkt 2 n root p b 0)
      | none => if n = root then s1.spBroadcast p 3 b 0 else s1
    else s

/-- A die's notice to the active PCD: 0 idle, 1 active, 2 drained, 3 step boundary reached (spec/11 R335). -/
def State.spNotice (s : State) (d kind : Nat) : State :=
  match s.nodeSite d with
  | some site => s.spSend d (spPkt 6 d s.activeNode ((s.partOfNode d).getD 0) kind site)
  | none => s

end Sys2Proof.Machine
end

