-- ==== Sys2Proof/Machine/Phases.lean ====
section
/-! DEFINITION. Loading a phase, arming places, drains and reconfigurations, starting, saving and restoring job contexts, and the choice
of a power state (spec/08 R218, R235, R242-R247, R252, R253, spec/07 R206-R208, spec/09 R258, R259, R270, spec/17 R482). -/

namespace Sys2Proof.Machine

-- Scratchpad power ----------------------------------------------------------------------------------------------------

/-- Group of a storage position (spec/07 R191, R192). -/
def groupOfPos (pos : Nat) : Nat := pos / 64 / 16384 / 64 * 16 + pos / 64 % 16384 / 1024

/-- Contents of the scratchpad kept for the groups of a mask. -/
def Spad.keepGroups (y : Spad) (mask : Nat) : Spad :=
  { y with mem := y.mem.filter (fun e => mask.testBit (groupOfPos e.1)), errs := y.errs.filter (fun e => mask.testBit (groupOfPos (8 * e.1))) }

/-- Bits of a scratchpad mask that exist: without option D the upper half does not (spec/07 R212). -/
def State.windowMask (s : State) (v : Nat) : Nat := if s.enD then v % 2 ^ 32 else v % 2 ^ 16

/-- A new power mask: groups that turn off lose their contents; groups that turn on settle and then read zero (spec/07 R206). -/
def State.setSpadPwr (s : State) (d v : Nat) : State :=
  let v := s.windowMask v
  let old := s.windowMask (s.rg d CD_SPAD_PWR)
  let up := (List.range 32).filter (fun g => v.testBit g && !old.testBit g)
  let s1 := (s.setRg d CD_SPAD_PWR v).modDie d (fun x =>
    { x with spad := { (x.spad.keepGroups (v &&& old)) with settling := sortUniq (x.spad.settling.filter (fun g => v.testBit g) ++ up) } })
  s1.setRgB d CD_SPAD_STATUS 3 (!(s1.die d).spad.settling.isEmpty)

-- Arming --------------------------------------------------------------------------------------------------------------

/-- A place is armed (spec/06 R183, R184, spec/08 R221, spec/07 R212): its slot and generation, its credits at CREDITS, and the mark of
a job load. -/
def State.armPlace (s : State) (d p slot gen : Nat) : State :=
  let credits := fun (x : Place) (l : Nat) =>
    let b := s.bindOf d p l
    x.setLane l { x.lane l with cred := if bindEn b then bindCred b else 0, retAt := [] }
  (s.modPlace d p (fun x =>
    { credits (credits x 2) 3 with st := .armed, slot := slot, gen := gen, yielded := false, ended := false, faulted := false, stopAt := none, iter := 0, waitLoad := false })).setRgB d
      CD_SPAD_STATUS 1 false

-- Loading a phase -----------------------------------------------------------------------------------------------------

/-- Window offsets of the tables (spec/09 R266, spec/10 R293). -/
def landBase : Nat := 0x20400000
def dmaListBase : Nat := 0x20500000
def dmaTableBase : Nat := 0x20600000

/-- Mask of the RW bits of CD.PL_BIND_c (spec/08 R218). -/
def bindMask : Nat := 0xF8FFF8FFF8FFF8FF

/-- Writes the bindings of a phase over cleared ones (spec/08 R218, R235). -/
def State.writeBinds (s : State) (p : Nat) (ph : Phase) : State :=
  let ds := s.diesOf p
  let isBind := fun (k : Nat) => ds.contains (k / 2 ^ 32) && decide (CD_PL_BIND 0 ≤ k % 2 ^ 32) && decide (k % 2 ^ 32 < CD_PL_BIND 25)
  ph.binds.foldl (fun t b => match t.siteNode b.1 with
    | some d => t.setRg d (CD_PL_BIND b.2.1) (b.2.2.toNat &&& bindMask)
    | none => t) { s with regs := s.regs.filter (fun e => !isBind e.1) }

/-- Every enabled lane of the phase has the other end that mirrors it (spec/08 R217, R218). -/
def State.bindsOk (s : State) (ph : Phase) : Bool :=
  ph.binds.all (fun b => match s.siteNode b.1 with
    | none => false
    | some d => (List.range 4).all (fun l =>
        let f := s.bindOf d b.2.1 l
        !bindEn f || (decide (1 ≤ bindCred f) && decide (bindCred f ≤ 128) &&
          (match s.peer d b.2.1 l with
           | some (d', q, m) => s.peer d' q m == some (d, b.2.1, l)
           | none => false))))

/-- Writes a table's bytes from a window offset of a site. -/
def State.writeTab (s : State) (site base : Nat) (bs : List Byte) : State :=
  match s.siteNode site with
  | some d => s.modDie d (fun x =>
      { x with tabs := writeBytes (clearRange x.tabs base (base + 0x100000)) base bs, tabErr := dropKeys x.tabErr (base / 8) ((base + 0x100000) / 8) })
  | none => s

/-- A complete image written into a slot (spec/08 R225). -/
def Place.fillSlot (x : Place) (slot : Nat) (bs : List Byte) : Place :=
  { x with mem := writeBytes (clearRange x.mem (slot * 0x2000) ((slot + 1) * 0x2000)) (slot * 0x2000) (bs.take 0x2000),
           memErr := dropKeys x.memErr (slot * 0x400) ((slot + 1) * 0x400), valid := x.valid ||| 2 ^ slot, tloaded := serase x.tloaded slot }

/-- Step that the configuration names for a partition (spec/14 R409). -/
def State.cfgStep (s : State) (p : Nat) : Nat :=
  match s.partCfgs.find? (fun c => decide (c.num = p)) with
  | some c => c.step % 16
  | none => 0

/-- CD.PL_EPOCH of the kernel's die. -/
def State.epochOf (s : State) (p : Nat) : Nat := match s.kernelNode p with | some d => s.rg d CD_PL_EPOCH | none => 0

/-- EPOCH records of the phase that runs that name a step (spec/09 R268). -/
def State.epochSteps (s : State) (p : Nat) : List (Nat × Nat) :=
  match s.running p with
  | some (_, c) => match c.img.phases[c.phase]? with
    | some ph => ph.steps.filter (fun e => decide (e.2 < 16))
    | none => []
  | none => []

/-- The step that the program has named last. -/
def State.progNow (s : State) (p : Nat) : Nat :=
  (((s.epochSteps p).filter (fun e => decide (e.1 ≤ s.epochOf p))).getLast?.map (·.2)).getD (s.part p).progStep

/-- Arms the next step of a running program on every die of its partition (spec/14 R409, spec/17 R479): at the next boundary where the step in
force is not the larger of the ceiling and the program's; else at the next EPOCH record that changes it. -/
def State.armStep (s : State) (p : Nat) : State :=
  let x := s.part p
  if (s.running p).isNone || x.stepW.isSome then s
  else
    let e := s.epochOf p
    let coming := (s.epochSteps p).filter (fun r => decide (e < r.1))
    let at1 := match coming.find? (fun r => decide (r.1 = e + 1)) with | some r => r.2 | none => s.progNow p
    let next := if max x.ceil at1 ≠ x.step then some (e + 1, max x.ceil at1)
      else (coming.find? (fun r => decide (max x.ceil r.2 ≠ x.step))).map (fun r => (r.1, max x.ceil r.2))
    let put := fun (t : State) (n off : Nat) => match next with
      | some (c, st) => t.setRg n off (2 ^ 63 + st * 2 ^ 48 + c % 2 ^ 32)
      | none => t.setRgB n off 63 false
    x.stackList.foldl (fun t m => put t (nodeMd m) MD_CLK_NEXT) ((s.diesOf p).foldl (fun t d => put t d CD_CLK_NEXT) s)

/-- Loads phase n of an image on a partition (spec/08 R218, R235, R242, spec/09 R266, spec/10 R293): the generation, the bindings, the
slots and tables; then arms the places. The Bool says that the bindings agree; where they do not, no place is armed. -/
def State.loadPhase (s : State) (p : Nat) (img : Image) (n : Nat) : State × Bool :=
  let ph := (img.phases[n]?).getD default
  let gen := n % 16
  let s1 := ((s.diesOf p).foldl (fun t d => t.setRgF d CD_PL_CTRL 3 0 gen) s).writeBinds p ph
  if s1.bindsOk ph then
    let s2 := ph.slots.foldl (fun t e => match t.siteNode e.1 with
      | some d => t.modPlace d e.2.1 (fun x => x.fillSlot e.2.2.1 e.2.2.2)
      | none => t) s1
    let s3 := ph.land.foldl (fun t e => t.writeTab e.1 landBase e.2) s2
    let s4 := ph.dmaList.foldl (fun t e => t.writeTab e.1 dmaListBase e.2) s3
    let s5 := ph.dmaTable.foldl (fun t e => t.writeTab e.1 dmaTableBase e.2) s4
    ((ph.arms.foldl (fun t e => match t.siteNode e.1 with
      | some d => t.armPlace d e.2.1 e.2.2 gen
      | none => t) s5).armStep p, true)
  else (s1, false)

-- Drain and reconfiguration (spec/08 R244-R247) -----------------------------------------------------------------------

/-- Tokens in the queues and outbound lanes of a die. -/
def Die.tokens (x : Die) : Nat :=
  x.places.foldl (fun a e => e.2.lanes.foldl (fun b l => b + l.2.q.length + l.2.out.length) a) 0

/-- Empties every queue and outbound lane of a partition, counting the tokens (spec/08 R244); a command that still waits for tokens takes no
more. -/
def State.flushPart (s : State) (p : Nat) : State :=
  (s.diesOf p).foldl (fun t d =>
    let n := (t.die d).tokens
    (t.modDie d (fun x => { x with
      runs := x.runs.map (fun r => r.cutAt x.cyc)
      places := x.places.map (fun e => (e.1, { e.2 with lanes := e.2.lanes.map (fun l => (l.1, { l.2 with q := [], out := [] })) })) })).bumpErr d CD_PL_FLUSHED CD_PL_STATUS 30 n) s

/-- Every place of a partition enters IDLE. -/
def State.idlePart (s : State) (p : Nat) : State :=
  (s.diesOf p).foldl (fun t d => t.modDie d (fun x => { x with places := x.places.map (fun e => (e.1, { e.2 with st := .idle, yielded := false, ended := false, faulted := false, stopAt := none })) })) s

/-- Longest λ of the streams bound on a die (spec/08 R220, R244). -/
def State.longest (s : State) (d : Nat) : Nat :=
  (List.range 25).foldl (fun a p => (List.range 4).foldl (fun b l => let f := s.bindOf d p l; if bindEn f then max b (lambdaOf f) else b) a) 0

/-- A die is drained (spec/08 R244): every place DONE, HALTED or IDLE, outbound lanes empty, λ of its longest stream past. -/
def State.drainedNow (s : State) (d : Nat) : Bool :=
  let x := s.die d
  !x.busy && x.places.all (fun e => e.2.lanes.all (fun l => l.2.out.isEmpty)) && decide (x.lastDep + s.longest d ≤ s.ccountOf d)

/-- Tokens on the way on the streams of a partition are gone. -/
def State.wiresOff (s : State) (p : Nat) : State :=
  (s.diesOf p).foldl (fun t d => t.modDie d (fun y => { y with places := y.places.map (fun e => (e.1, { e.2 with
    lanes := e.2.lanes.map (fun l => (l.1, { l.2 with wire := [] })) })) })) s

/-- Steps 4 and 5 of a reconfiguration (spec/08 R244, R246, R247), or the end of the job after its last phase (spec/13 R391). Where the
generation of a forced drain comes round again, tokens still on the way are emptied with the rest (R246), those of every such drain. -/
def State.reconfigure (s : State) (p : Nat) (forced : Bool) : State :=
  match s.running p with
  | none => s
  | some (cid, c) =>
    let s1 := (s.flushPart p).idlePart p
    let s2 := s1.setPart p { s1.part p with drained := [], drainAt := none }
    if c.phase + 1 < c.img.phases.length then
      let n := c.phase + 1
      let x := s2.part p
      let again := x.forcedGens.contains (n % 16)
      let s3 := s2.setPart p { x with ctxs := sput x.ctxs cid { c with phase := n }, progStep := s2.progNow p,
                                      forcedGens := if again then [] else if forced then insUniq (c.phase % 16) x.forcedGens else x.forcedGens }
      let s4 := if again then s3.wiresOff p else s3
      let r := s4.loadPhase p c.img n
      if r.2 then r.1 else r.1.endJob p cid 10 0
    else s2.endJob p cid 0 0

/-- The drain of the running program begins once no place of the partition is ARMED or RUNNING and one has run (spec/08 R244). -/
def State.drainBegin (s : State) (p : Nat) : State :=
  match s.running p with
  | none => s
  | some (_, c) =>
    let x := s.part p
    let ran := (s.diesOf p).any (fun d => (s.die d).places.any (fun e => decide (e.2.st = .done) || decide (e.2.st = .halted)))
    if x.drainAt.isNone && c.endAs.isNone && ran && s.partQuiet p then s.setPart p { x with drainAt := some x.ccount, drained := [] }
    else s

/-- A drained report of a site reaches the active PCD; with every die's report the reconfiguration proceeds (spec/08 R244). -/
def State.drainedIn (s : State) (p site : Nat) : State :=
  let x := s.part p
  if x.drainAt.isNone then s
  else
    let l := insUniq site x.drained
    let s1 := s.setPart p { x with drained := l }
    if (s1.sitesOf p).all (fun i => (s1.siteNode i).isNone || l.contains i) then s1.reconfigure p false else s1

-- The counters at the end of a phase (spec/09 R258, R270) -------------------------------------------------------------

/-- Every place of a die is DONE, HALTED or IDLE, or has stopped at a yield (spec/09 R258). -/
def Die.allStopped (x : Die) : Bool :=
  x.places.all (fun e => decide (e.2.st ≠ .armed ∨ e.2.yielded = true) && decide (e.2.st ≠ .running ∨ e.2.yielded = true))

/-- The END and ISSUED values of a die in the phase that runs (spec/09 R270). -/
def State.endsOf (s : State) (p d : Nat) : Option (Nat × Nat) :=
  match s.running p, s.nodeSite d with
  | some (_, c), some site =>
    match c.img.phases[c.phase]? with
    | some ph => (ph.ends.find? (fun e => decide (e.1 = site))).map (fun e => e.2)
    | none => none
  | _, _ => none

/-- A 64-bit word of the tables at a window offset. -/
def Die.tabWord (x : Die) (off : Nat) : Nat := leVal (readBytes x.tabs off 8)

/-- Check k of the landing table: V, CYCLE, TAG (spec/09 R266). -/
def Die.landCheck (x : Die) (k : Nat) : Bool × Nat × Nat :=
  let w0 := x.tabWord (landBase + 16 * k)
  let w1 := x.tabWord (landBase + 16 * k + 8)
  (decide (k < 4096) && w1.testBit 13, bits w0 47 0, bits w1 11 0)

/-- The next landing check is due at the present nominal cycle (spec/09 R262). -/
def State.landDue (s : State) (d : Nat) : Bool :=
  let c := (s.die d).landCheck (s.die d).landPtr
  c.1 && decide (c.2.1 ≤ s.rg d CD_SCH_NOMINAL % 2 ^ 48)

/-- The places of a die have stopped at a yield, but a check of its boundary's own cycle has not been met (spec/08 R251, spec/09 R259): the
counters run on until it is (log entry 77). -/
def State.yieldLate (s : State) (d : Nat) : Bool := (s.die d).places.any (fun e => e.2.yielded) && s.landDue d

/-- The counters stop when no place goes on (spec/09 R258); after places that all reached DONE, Uttos compares them with the DIE record
(spec/09 R270). -/
def State.phaseEnd (s : State) (d : Nat) : State :=
  let x := s.die d
  if x.inPhase && x.allStopped && !s.yieldLate d then
    let s1 := s.modDie d (fun y => { y with inPhase := false, stopped := true })
    let doneAll := x.places.all (fun e => decide (e.2.st = .done) || decide (e.2.st = .idle))
    match s1.partOfNode d with
    | none => s1
    | some p =>
      match s1.endsOf p d with
      | none => s1
      | some (e, n) =>
        if doneAll ∧ (s1.rg d CD_SCH_NOMINAL % 2 ^ 48 ≠ e % 2 ^ 48 ∨ s1.rg d CD_SCH_ISSUED % 2 ^ 48 ≠ n % 2 ^ 48) then
          s1.pcdEvent 0x2156 p (unitDie d) 0
        else s1
  else s

-- S-cores -------------------------------------------------------------------------------------------------------------

/-- A write of CD.SC_CTRL_s (spec/06 R187, R189): RUN 0 to 1 releases the S-core at BOOT_ADDR in machine mode; RUN = 0 holds it in
reset. -/
def State.scBoot (s : State) (d c : Nat) (v : Nat) : State :=
  let was := s.rgB d (CD_SC_CTRL c) 0
  let s1 := s.setRg d (CD_SC_CTRL c) (v &&& 0xFFFFFFFFFFFFF001)
  if v.testBit 0 then
    if was then s1 else s1.setSc d c { SCore.reset with st := 1, pc := BitVec.ofNat 64 (v / 4096 * 4096) }
  else s1.setSc d c SCore.reset

-- Job contexts (spec/08 R252, R253) -----------------------------------------------------------------------------------

/-- The eight schedule counters (spec/09 R257, R258). -/
def schedRegs : List Nat :=
  [CD_SCH_NOMINAL, CD_SCH_ELAPSED, CD_STALL_FSTEP, CD_STALL_HOLD, CD_STALL_THERMAL, CD_STALL_MEMLATE, CD_STALL_BP, CD_SCH_ISSUED]

/-- Counters of the evaluation of slow dies: the five stall counters and CD.SCH_ELAPSED (spec/09 R274). -/
def slowRegs : List Nat := [CD_STALL_FSTEP, CD_STALL_HOLD, CD_STALL_THERMAL, CD_STALL_MEMLATE, CD_STALL_BP, CD_SCH_ELAPSED]

/-- The counters of a die are set anew, from what they read in s to what they read in t: what they have grown by in the interval stands. -/
def State.keepDeltas (s t : State) (d : Nat) : State :=
  t.modDie d (fun x => { x with
    lastCnt := slowRegs.zipIdx.map (fun e => wrapSub 48 ((x.lastCnt[e.2]?).getD 0 + t.rg d e.1 % 2 ^ 48) (s.rg d e.1 % 2 ^ 48)) })

/-- Registers of a die that read 0 when a job is loaded (spec/02 R67, spec/08 R235, spec/06 R187); the schedule counters hold until the next start
cycle (spec/09 R258). -/
def loadRegs : List Nat :=
  [CD_ARITH_STATUS, CD_SAT_COUNT, CD_PL_CTRL, CD_PL_EPOCH, CD_SC_CTRL 0, CD_SC_CTRL 1, CD_SC_CTRL 2, CD_SC_CTRL 3] ++
    (List.range 25).map CD_SR_SEED
/-- Registers of a die that belong to its job's saved state (spec/08 R253, spec/09 R259). -/
def jobRegs : List Nat := loadRegs ++ schedRegs

/-- What a switch of job contexts saves of a die (spec/08 R253), its pipelines complete. `live` marks the scratchpad windows saved. -/
def Die.toSave (x : Die) (live : Nat) : Die :=
  let mc := fun (m : Mcore) => { (default : Mcore) with acc := m.acc, accErr := m.accErr, tags := m.tags }
  let vc := fun (w : Vcore) =>
    let v := w.settle x.cyc
    { (default : Vcore) with regs := v.regs, regErr := v.regErr, masks := v.masks, arBase := v.arBase, arStep := v.arStep }
  let pl := fun (q : Place) => { Place.reset with st := q.st, slot := q.slot, gen := q.gen, iter := q.iter, yielded := q.yielded, tloaded := q.tloaded }
  let sp := x.spad.keepGroups live
  { Die.reset with
    mcs := x.mcs.map (fun e => (e.1, mc e.2)), scr := { x.scr with busyUntil := 0 }, vcs := x.vcs.map (fun e => (e.1, vc e.2)),
    gens := x.gens, scs := x.scs.map (fun e => (e.1, { e.2 with ic := [], dc := [] })), vgpend := x.vgpend, tickets := x.tickets, ticketNext := x.ticketNext, landPtr := x.landPtr,
    dmaPtr := x.dmaPtr, issuedNom := x.issuedNom, nomWraps := x.nomWraps, epochAt := x.epochAt, places := x.places.map (fun e => (e.1, pl e.2)),
    spad := { (default : Spad) with mem := sp.mem, errs := sp.errs } }

/-- The dies of a context as they are saved. -/
def State.saveDies (s : State) (p : Nat) (c : Ctx) : List SavedDie :=
  (s.sitesOf p).filterMap (fun site => (s.siteNode site).map (fun d =>
    let live := match c.img.live.find? (fun e => decide (e.1 = site)) with | some e => e.2 | none => 0
    { site := site, die := (s.die d).toSave live, regs := jobRegs.map (fun off => (off, s.rg d off)) }))

-- The S-cores' caches (spec/06 R187, R188)

/-- Replaces the bytes of a line from byte k. -/
def CLine.put (l : CLine) (k : Nat) (bs : List Byte) : CLine :=
  { l with bytes := l.bytes.take k ++ bs ++ l.bytes.drop (k + bs.length),
           errs := l.errs.filter (fun e => !(decide (k ≤ 8 * e.1) && decide (8 * e.1 + 8 ≤ k + bs.length))) }

/-- A corrected error of an S-core cache (spec/06 R188, R189). -/
def State.cacheCorr (s : State) (d : Nat) : State := s.bumpErr d CD_SC_ECC_CORR CD_SC_DIE_STATUS 30 1

/-- Judges the words of bytes k to k + n - 1 of a line of cache array `array` (spec/15 R438): the state, the line as it is delivered, whether a word was
uncorrectable. That ends the job with 0x2131 (R188); which repair row it is, is not stated (log entry 6). -/
def State.cacheJudge (s : State) (d array : Nat) (l : CLine) (k n : Nat) : State × CLine × Bool :=
  let r := (l.errs.filter (fun e => decide (8 * e.1 < k + n) && decide (k < 8 * e.1 + 8))).foldl (fun (st : State × CLine × Bool) e =>
    match eccJudge e.2 with
    | .ok => st
    | .corr => (st.1.cacheCorr d, st.2)
    | .bad => (st.1, st.2.1, true)
    | .altered cnt v =>
      let old := leVal ((st.2.1.bytes.drop (8 * e.1)).take 8)
      let l1 := { st.2.1.put (8 * e.1) (leBytes 8 (Nat.xor old (v % 2 ^ 64))) with errs := eccLeft st.2.1.errs e.1 cnt }
      (if cnt then st.1.cacheCorr d else st.1, l1, st.2.2)) (s, l, false)
  if r.2.2 then (r.1.takeFree.raise d 0x2131 (unitSram d array (r.1.freeVal % 1024)) 0, r.2) else r

/-- Writes a dirty line of the second-level cache of a die back to HBM; one with an uncorrectable word ends the job instead. -/
def State.lineBack (s : State) (p d : Nat) (l : CLine) : State :=
  if l.dirty then
    let j := s.cacheJudge d 186 l 0 64
    if j.2.2 then j.1 else (j.1.hbmWrite p j.2.1.addr j.2.1.bytes).1
  else s

/-- The monitor cleans every dirty line of a die's second-level cache to HBM (spec/06 R187). -/
def State.cleanDie (s : State) (p d : Nat) : State :=
  ((s.die d).l2.foldl (fun t l => t.lineBack p d l) s).modDie d (fun x => { x with l2 := x.l2.map (fun l => { l with dirty := false }) })

/-- Dirty lines cleaned, and the save area of a context written (spec/08 R253 step 4). The layout of the area is not stated: its bytes take free
values (log entry 6). -/
def State.saveArea (s : State) (p : Nat) (c : Ctx) : State :=
  let s1 := (s.diesOf p).foldl (fun t d => t.cleanDie p d) s
  let bs := (List.range c.img.saveLen).map (fun k => BitVec.ofNat 8 (Config.freeValue (s1.free + k)))
  (({ s1 with free := s1.free + c.img.saveLen } : State).hbmWrite p c.img.saveBase bs).1

/-- Saves a context (spec/08 R253 step 4). -/
def State.saveCtx (s : State) (p cid : Nat) : State :=
  match sfind (s.part p).ctxs cid with
  | none => s
  | some c =>
    let s1 := s.saveArea p c
    let c1 : Ctx := { c with saved := s.saveDies p c, st := .ready, expired := false, step := some ((s1.part p).step, s1.progNow p) }
    s1.setPart p { s1.part p with ctxs := sput (s1.part p).ctxs cid c1 }

/-- A die cleared for another context: no place, no slot, no job state, a scratchpad of zeros (spec/08 R253 step 5, spec/07 R208). -/
def Die.cleared (x : Die) : Die := { x.scrubJob with spad := { x.spad with mem := [], errs := [], repair := [], resv := [] } }

/-- Sets the scratchpad modes of an image on a die (spec/07 R194, R207, R208). -/
def State.imageModes (s : State) (d site : Nat) (img : Image) : State :=
  let pick := fun (l : List (Nat × Nat)) (dflt : Nat) => match l.find? (fun e => decide (e.1 = site)) with | some e => e.2 | none => dflt
  (s.setRg d CD_SPAD_LINEAR (s.windowMask (pick img.linear 0))).setSpadPwr d (pick img.power 0xFFFFFFFF)

/-- A die restored from a saved one (spec/08 R253 step 6). -/
def Die.restore (x : Die) (v : Die) : Die :=
  { x with mcs := v.mcs, scr := v.scr, vcs := v.vcs, gens := v.gens, scs := v.scs, vgpend := v.vgpend, tickets := v.tickets,
           ticketNext := v.ticketNext, landPtr := v.landPtr, dmaPtr := v.dmaPtr, issuedNom := v.issuedNom, nomWraps := v.nomWraps, resumed := true, stopped := true, epochAt := v.epochAt,
           spad := { x.spad with mem := v.spad.mem, errs := v.spad.errs } }

/-- Takes the dies of a partition for a context and clears them (spec/08 R225, spec/03 R111, spec/06 R187). -/
def State.takeDies (s : State) (p cid : Nat) (img : Image) : State :=
  (s.sitesOf p).foldl (fun t site => match t.siteNode site with
    | some d =>
      let t1 := t.modDie d (fun x => { x.cleared with ctx := some cid })
      let t2 := loadRegs.foldl (fun u off => u.setRg d off 0) t1
      t2.imageModes d site img
    | none => t) s

/-- The slots that TLOADs had filled before a context was switched out, filled again from their images (spec/08 R253 step 6; log entry 79). -/
def State.refill (s : State) (p d : Nat) (e : Nat × Place) : State :=
  e.2.tloaded.foldl (fun t q =>
    let r := t.hbmRead p (q.2 * 64) 0x2000
    if r.2.1 = 0 then
      r.1.modPlace d e.1 (fun x => let y := x.fillSlot q.1 r.2.2; { y with tloaded := sput y.tloaded q.1 q.2 })
    else r.1) s

/-- A die takes its part of a saved context (spec/08 R253 step 6, spec/07 R208): its state, its registers, its slots, its places. -/
def State.restoreDie (s : State) (p d : Nat) (v : SavedDie) : State :=
  let t1 := s.modDie d (fun x => x.restore v.die)
  let t2 := t1.keepDeltas (v.regs.foldl (fun u e => u.setRg d e.1 e.2) t1) d
  let t3 := v.die.places.foldl (fun u e => u.refill p d e) t2
  v.die.places.foldl (fun u e =>
    if e.2.yielded then (u.armPlace d e.1 e.2.slot e.2.gen).modPlace d e.1 (fun x => { x with iter := e.2.iter })
    else u.modPlace d e.1 (fun x => { x with st := e.2.st, slot := e.2.slot, gen := e.2.gen })) t3

/-- Every scratchpad group that the modes of a partition's dies power is usable (spec/07 R206). -/
def State.groupsUp (s : State) (p : Nat) : Bool := (s.diesOf p).all (fun d => (s.die d).spad.settling.isEmpty)

/-- The context in force is loaded, on dies whose groups are usable: its phase, and what was saved of it, or its boot (spec/08 R242, R253, spec/07
R206, R208). -/
def State.beginCtx (s : State) (p : Nat) : State :=
  match s.running p with
  | none => s
  | some (cid, c) =>
    let s1 := s.modPart p (fun x => { x with loading := false, ctxs := sput x.ctxs cid { c with saved := [], step := none } })
    let r := s1.loadPhase p c.img c.phase
    if !r.2 then r.1.endJob p cid 10 0
    else if c.saved = [] then
      c.img.boot.foldl (fun t b => match t.siteNode b.1 with
        | some d => t.scBoot d b.2.1 (b.2.2.toNat)
        | none => t) r.1
    else c.saved.foldl (fun t v => match t.siteNode v.site with | some d => t.restoreDie p d v | none => t) r.1

/-- A context begins to run: its first phase, or the phase it was switched out of at its epoch boundary (spec/13 R391, spec/08 R242,
R253 step 6, spec/09 R259). Where its modes power a group up, it is loaded once the group is usable: no place is armed before (spec/07 R206). -/
def State.runCtx (s : State) (p cid : Nat) : State :=
  match sfind (s.part p).ctxs cid with
  | none => s
  | some c =>
    let s1 := s.takeDies p cid c.img
    let s2 := s1.modPart p (fun x =>
      { x with run := some cid, step := (c.step.map (·.1)).getD x.step, progStep := (c.step.map (·.2)).getD (s1.cfgStep p), drained := [],
               drainAt := none, forcedGens := [], idle := [], loading := true, ctxs := sput x.ctxs cid { c with st := .running, expired := false } })
    if s2.groupsUp p then s2.beginCtx p else s2

/-- The ready context that runs next: highest PRIO, then the next context number after `after` (spec/08 R252, spec/13 R391). -/
def Part.nextReady (x : Part) (after : Nat) : Option Nat :=
  let l := x.ctxs.filter (fun e => decide (e.2.st = .ready) && e.2.endAs.isNone)
  let top := l.foldl (fun a e => max a e.2.prio) 0
  let best := (l.filter (fun e => decide (e.2.prio = top))).map (·.1)
  match best.find? (fun k => decide (after < k)) with
  | some k => some k
  | none => best.head?

/-- Uttos runs a ready context when none runs, its partition is on, in Run and without a re-true owed, and its sites are scrubbed, not withheld and not held under retention
(spec/08 R252, spec/07 R209, spec/16 R465). -/
def State.tryRun (s : State) (p after : Nat) : State :=
  let x := s.part p
  let clean := (s.diesOf p).all (fun d => !s.rgB d CD_SPAD_STATUS 0 && !(s.die d).withheld)
  let kept := x.ctxs.any (fun e => decide (e.2.st = .retained) && e.2.onDie)
  if x.run.isNone && !x.off && clean && !kept && decide (x.pstate = 0) && decide (x.retrue = 0) then
    match x.nextReady after with
    | some cid => s.runCtx p cid
    | none => s
  else s

end Sys2Proof.Machine
end

