-- ==== Sys2Proof/Machine/Places.lean ====
section
/-! DEFINITION. The S-cores' place-control and fabric instructions, their traps and their control register, and the end of a place's
program (spec/06 R182-R189, spec/08 R236, spec/10 R296, spec/11 R339). -/

namespace Sys2Proof.Machine

-- Accesses to a site window ------------------------------------------------------------------------------------------

/-- A refused access is added to the tally of the issuing S-core's die, or of the active PCD (spec/00 R20, R21). -/
def State.refuseBy (s : State) (src : Source) : State :=
  match src with
  | .score d _ => s.modDie d (fun x => { x with tally := min 0xFFFFFFFF (x.tally + 1) })
  | _ => s.setPcd (fun p => { p with tally := min 0xFFFFFFFF (p.tally + 1) })

/-- Exception code of a trap taken in a mode (PRESUMED, RISC-V; log entry 81). -/
def Trap.code (mode : Nat) : Trap → Nat
  | .fetchAccessFault => 1
  | .illegalInstruction => 2
  | .breakpoint => 3
  | .loadMisaligned => 4
  | .loadAccessFault => 5
  | .storeMisaligned => 6
  | .storeAccessFault => 7
  | .environmentCall => 8 + mode
  | .fetchPageFault => 12
  | .loadPageFault => 13
  | .storePageFault => 15

/-- Entry of a trap handler in supervisor or machine mode (PRESUMED, RISC-V; log entry 81): the pc, the cause and the trap value saved, the
interrupt enable and the mode stacked in mstatus, the pc at the vector. -/
def SCore.enter (y : SCore) (toS intr : Bool) (code tval : Nat) : SCore :=
  let st := y.csr 0x300
  let st' := if toS then setBits (setBits (setBits st 5 5 (bits st 1 1)) 1 1 0) 8 8 (b2n (decide (y.mode ≠ 0)))
             else setBits (setBits (setBits st 7 7 (bits st 3 3)) 3 3 0) 12 11 y.mode
  let k := if toS then 0x100 else 0x300
  let tvec := y.csr (k + 5)
  let pc := tvec / 4 * 4 + (if intr && tvec.testBit 0 then 4 * code else 0)
  { ((((y.setCsr 0x300 st').setCsr (k + 0x41) y.pc.toNat).setCsr (k + 0x42) (b2n intr * 2 ^ 63 + code)).setCsr (k + 0x43) tval) with
    pc := BitVec.ofNat 64 pc, mode := if toS then 1 else 3, st := 1 }

/-- An S-core takes an exception (spec/06 R175, R188): the handler of its supervisor mode where medeleg delegates it, else the monitor, whose answer
is then owed. -/
def State.scTrapAt (s : State) (d c : Nat) (tr : Trap) (tval : Nat) : State :=
  let y := s.sc d c
  let code := tr.code y.mode
  if y.mode ≤ 1 ∧ (y.csr 0x302).testBit code = true then s.setSc d c (y.enter true false code tval)
  else s.setSc d c { y.enter false false code tval with trap := some tr }
def State.scTrap (s : State) (d c : Nat) (tr : Trap) : State := s.scTrapAt d c tr 0

/-- Partition of a logical site. -/
def State.partOfSite (s : State) (site : Nat) : Option Nat := s.partOfRegion (4 * (site / 32 / 4) + site % 32 / 8)

/-- A write to a register of a site window (spec/06 R179, spec/13 R388, spec/00 R20, R21): a window outside the source's partition is
not reached, an unbacked one refuses. -/
def State.atSite (s : State) (src : Source) (site : Nat) (f : State → Nat → State) : State :=
  let go := match s.siteNode site with
    | some d => if s.coreOn d then f s d else s.refuseBy src
    | none => s.refuseBy src
  match src with
  | .score d c => if s.partOfSite site = s.partOfNode d then go else s.scTrap d c .storeAccessFault
  | .host p => if s.partOfSite site = some p then go else s.refuseBy src
  | .mgmt => s
  | .pcd => go

-- S-core instructions (spec/06 R184, R185) ----------------------------------------------------------------------------

/-- The S-core executes instructions: it runs, or an interrupt ends its wait, and nothing holds it. -/
def State.scReady (s : State) (d c : Nat) : Bool :=
  s.coreOn d && (s.sc d c).live && (s.sc d c).bar.isNone && (s.sc d c).fxHold.isNone

/-- A PL instruction: illegal in user mode (spec/06 R184). -/
def State.plOp (s : State) (d c : Nat) (f : State → State) : State :=
  if s.scReady d c then (if (s.sc d c).mode = 0 then s.scTrap d c .illegalInstruction else f s) else s
/-- An FX instruction: illegal in user mode unless vgfx.U (spec/06 R184). -/
def State.fxOp (s : State) (d c : Nat) (f : State → State) : State :=
  if s.scReady d c then (if (s.sc d c).mode = 0 ∧ (s.sc d c).vgfx = false then s.scTrap d c .illegalInstruction else f s) else s

/-- Code of a place's state (spec/06 R184). -/
def PState.code : PState → Nat
  | .idle => 0
  | .armed => 1
  | .running => 2
  | .done => 3
  | .halted => 4
/-- What PL.STAT reads of a place. -/
def Place.stat (x : Place) : Nat := x.st.code + x.slot * 8 + x.gen * 64

/-- A lower-numbered S-core's PL.ARM or PL.STOP has the place in this cycle (spec/06 R185; log entry 14). -/
def State.contended (s : State) (d p c : Nat) : Bool :=
  match (s.place d p).plUse with
  | some (c', n, _) => decide (n = s.ccountOf d) && decide (c' < c)
  | none => false

/-- A higher-numbered S-core that has had the place in this cycle loses it (spec/06 R185): its instruction returns 4, and has done nothing. -/
def State.plGiveUp (s : State) (d p c : Nat) : State :=
  match (s.place d p).plUse, sfind (s.die d).plUndo p with
  | some (c', n, _), some u =>
    if n = s.ccountOf d ∧ c < c' then
      let s1 := (s.setPlace d p { u.place with mem := (s.place d p).mem, memErr := (s.place d p).memErr }).modDie d (fun x => { x with vgpend := u.pend })
      let s2 := (s1.setRgB d CD_SPAD_STATUS 1 u.scrubDone).setSc d c' ((s1.sc d c').setX u.rd 4#64)
      let s3 := match s2.partOfNode d with
        | some q => s2.modPart q (fun x => { x with drainAt := u.drain })
        | none => s2
      s3.setPcd (fun q => { q with
        alerts := q.alerts.filter (fun a => !(decide (a.node = d) && decide (a.code = 0x2132) && decide (a.unit = unitCore d p))) })
    else s
  | _, _ => s

/-- Takes the place for the cycle. -/
def State.takePlace (s : State) (d p c rd : Nat) : State :=
  let s0 := s.plGiveUp d p c
  let u : PlUndo := { rd := rd, place := s0.place d p, pend := (s0.die d).vgpend, scrubDone := s0.rgB d CD_SPAD_STATUS 1,
                      drain := match s0.partOfNode d with | some q => (s0.part q).drainAt | none => none }
  (s0.modDie d (fun x => { x with plUndo := sput x.plUndo p u })).modPlace d p (fun x => { x with plUse := some (c, s0.ccountOf d, x.stat) })

/-- The job that runs on a die places something on its site (spec/06 R184; log entry 15). -/
def State.jobHas (s : State) (d : Nat) : Bool :=
  match s.partOfNode d, s.nodeSite d with
  | some p, some site =>
    match s.running p with
    | some (_, c) => c.img.sites.contains site
    | none => true
  | _, _ => false

/-- PL.ARM (spec/06 R184, R185, spec/07 R206): the result, and the state. -/
def State.plArm (s : State) (d c : Nat) (rd rs1 rs2 : BitVec 5) : State :=
  s.plOp d c (fun s =>
    let a := ((s.sc d c).getX rs1.toNat).toNat
    let g := bits ((s.sc d c).getX rs2.toNat).toNat 3 0
    let p := bits a 4 0
    if 25 ≤ p then s.scRet d c rd 3
    else if s.contended d p c then s.scRet d c rd 4
    else
      let s1 := s.takePlace d p c rd.toNat
      if !s1.jobHas d then s1.scRet d c rd 3
      else if ((s1.place d p).st ≠ .idle ∧ (s1.place d p).st ≠ .done) ∨ s1.rgB d CD_SPAD_STATUS 3 = true then s1.scRet d c rd 1
      else if g ≠ s1.rgF d CD_PL_CTRL 3 0 then s1.scRet d c rd 2
      else (s1.armPlace d p (bits a 10 8) g).scRet d c rd 0)

/-- PL.STOP (spec/06 R184, R185): the place halts, its entries of the present cycle still to issue; a running one fails the job. Of a place number
above 24 no result is stated: a free value (log entry 6). -/
def State.plStop (s : State) (d c : Nat) (rd rs1 : BitVec 5) : State :=
  s.plOp d c (fun s =>
    let p := bits ((s.sc d c).getX rs1.toNat).toNat 4 0
    if 25 ≤ p then s.takeFree.scRet d c rd s.freeVal
    else if s.contended d p c then s.scRet d c rd 4
    else
      let s1 := s.takePlace d p c rd.toNat
      let ran := decide ((s1.place d p).st = .running)
      if (s1.place d p).st = .armed ∨ ran then
        let s2 := ((s1.modPlace d p (fun x => { x with st := .halted, stopAt := some (s1.ccountOf d, c, rd.toNat, ran) })).setPend d p).scRet d c rd 0
        let s3 := if ran then s2.raise d 0x2132 (unitCore d p) 0 else s2
        match s3.partOfNode d with
        | some q => s3.drainBegin q
        | none => s3
      else s1.scRet d c rd 1)

/-- PL.STAT (spec/06 R184, R185): the state as it stood before any PL.ARM or PL.STOP of the cycle. -/
def State.plStat (s : State) (d c : Nat) (rd rs1 : BitVec 5) : State :=
  s.plOp d c (fun s =>
    let p := bits ((s.sc d c).getX rs1.toNat).toNat 4 0
    if 25 ≤ p then s.takeFree.scRet d c rd s.freeVal
    else match (s.place d p).plUse with
      | some (_, n, v) => s.scRet d c rd (if n = s.ccountOf d then v else (s.place d p).stat)
      | none => s.scRet d c rd (s.place d p).stat)

/-- FX.START (spec/06 R184, spec/08 R236): S-core 0 of the kernel site sends the strobe that names the count 5,000 cycles on. -/
def State.fxStart (s : State) (d c : Nat) (rd : BitVec 5) : State :=
  s.fxOp d c (fun s =>
    match s.partOfNode d with
    | some p =>
      if c = 0 ∧ s.kernelNode p = some d then
        (s.spBroadcast p 4 0 (((s.part p).ccount + 5000) % 2 ^ 64)).scRet d c rd 0
      else s.scRet d c rd 1
    | none => s.scRet d c rd 1)

/-- The ticket n before another, the number 0xFFFF_FFFF skipped (spec/10 R296). -/
def ticketBack (t n : Nat) : Nat := (t + (2 ^ 32 - 1) - n) % (2 ^ 32 - 1)

/-- Issues an FX.DMA item: its ticket pending, its descriptor's address on its way to the memory die (spec/10 R291, R296). An MD of the
partition that is fenced never receives it: the item ends with status 1 (spec/10 R292). -/
def State.fxDmaGo (s : State) (d c rd addr m : Nat) : State :=
  let x := s.die d
  let t := x.ticketNext
  let live := s.mdOn m
  let s1 := s.modDie d (fun y => { y with tickets := sput (serase y.tickets (ticketBack t 1024)) t (if live then 0 else 2),
                                          ticketNext := (t + 1) % (2 ^ 32 - 1) })
  let s2 := if live then s1.setPcd (fun p => { p with descs := p.descs ++ [(m, .fxdma d t addr, default)] }) else s1
  let y := { s2.sc d c with fxHold := none }
  (s2.setSc d c y).scRet d c (BitVec.ofNat 5 rd) t

/-- FX.DMA (spec/06 R184, spec/10 R296): it holds the S-core while it would displace a pending ticket. -/
def State.fxDma (s : State) (d c : Nat) (rd rs1 rs2 : BitVec 5) : State :=
  s.fxOp d c (fun s =>
    let addr := ((s.sc d c).getX rs1.toNat).toNat
    let m := ((s.sc d c).getX rs2.toNat).toNat
    if 128 ≤ m ∨ s.partOfRegion (m / 8) ≠ s.partOfNode d then s.scRet d c rd 0xFFFFFFFF
    else if sfind (s.die d).tickets (ticketBack (s.die d).ticketNext 1024) = some 0 then
      s.setSc d c { s.sc d c with fxHold := some (rd.toNat, addr, m) }
    else s.fxDmaGo d c rd.toNat addr m)

/-- FX.DPOLL (spec/06 R184, spec/10 R296): a ticket older than the 1,024 most recent reads 1. -/
def State.fxDpoll (s : State) (d c : Nat) (rd rs1 : BitVec 5) : State :=
  s.fxOp d c (fun s => s.scRet d c rd ((sfind (s.die d).tickets (bits ((s.sc d c).getX rs1.toNat).toNat 31 0)).getD 1))

/-- The die's S-cores that run or wait have all issued FX.BAR b (spec/11 R339): the die arrives. -/
def State.barCheck (s : State) (d b : Nat) : State :=
  let x := s.die d
  let all := x.scs.all (fun e => !e.2.live || (match e.2.bar with | some (b', _) => decide (b' = b) | none => false))
  if x.hasLive && all && !x.barAt.contains b && !x.barSkip.contains b then
    let s1 := s.modDie d (fun y => { y with barAt := insUniq b y.barAt })
    match s1.partOfNode d with
    | some p => s1.barUp p d b
    | none => s1
  else s

/-- FX.BAR (spec/06 R184, spec/11 R339): the S-core waits for the release. -/
def State.fxBar (s : State) (d c : Nat) (rd rs1 : BitVec 5) : State :=
  s.fxOp d c (fun s =>
    let b := bits ((s.sc d c).getX rs1.toNat).toNat 7 0
    (s.setSc d c { s.sc d c with bar := some (b, rd.toNat), st := 1 }).barCheck d b)

/-- BARRIER_TIMEOUT (spec/11 R339): FX.BAR returns 1; the die's arrival stays, and the release that follows is discarded. -/
def State.barTimeout (s : State) (d c : Nat) : State :=
  if s.coreOn d then
    match (s.sc d c).bar with
    | some (b, _) =>
      if (s.sc d c).vgbartmo = 0#32 then s
      else (s.modDie d (fun x => if x.barAt.contains b then { x with barSkip := insUniq b x.barSkip } else x)).barEnd d c 1
    | none => s
  else s

/-- FX.SPSEND (spec/06 R184): a packet to a site of the partition. -/
def State.fxSpsend (s : State) (d c : Nat) (rd rs1 rs2 : BitVec 5) : State :=
  s.fxOp d c (fun s =>
    let site := ((s.sc d c).getX rs1.toNat).toNat
    match (if site < 512 ∧ s.partOfSite site = s.partOfNode d then s.siteNode site else none) with
    | some t =>
      (s.spSend d (spPkt 1 d t ((s.partOfNode d).getD 0) ((s.nodeSite d).getD 0) ((s.sc d c).getX rs2.toNat).toNat)).scRet d c rd 0
    | none => s.scRet d c rd 1)

/-- FX.SPRECV (spec/06 R184, R186): the oldest payload, and its source in vgsrc. -/
def State.fxSprecv (s : State) (d c : Nat) (rd : BitVec 5) : State :=
  s.fxOp d c (fun s =>
    match (s.die d).spq with
    | (src, v) :: r =>
      ((s.modDie d (fun x => { x with spq := r })).setSc d c { s.sc d c with vgsrc := BitVec.ofNat 32 src }).scRet d c rd v.toNat
    | [] => (s.setSc d c { s.sc d c with vgsrc := 0xFFFFFFFF#32 }).scRet d c rd 0)

/-- S_CORE_TRAP (spec/06 R188): the monitor stops the S-core and ends the job with 0x2130. -/
def State.monitorTrap (s : State) (d c : Nat) : State :=
  if s.coreOn d && (s.sc d c).live then
    (s.setSc d c { s.sc d c with st := 3, trap := none, mode := 3 }).raise d 0x2130 (unitCore d (25 + c)) 0
  else s

/-- A write to CD.SC_CTRL_s: the active PCD's only (spec/06 R189). -/
def State.scCtrl (s : State) (src : Source) (site c : Nat) (v : W64) : State :=
  s.atSite src site (fun s d => if src = .pcd then s.scBoot d c v.toNat else s)

/-- The commands of a place stopped by a PL.STOP read nothing from the cycle after it on (spec/06 R184). -/
def State.stopsEnd (s : State) (d : Nat) : State :=
  (List.range 25).foldl (fun t p =>
    match (t.place d p).stopAt with
    | some (n, _, _, _) =>
      if t.ccountOf d ≤ n then t
      else
        let t1 := t.modDie d (fun x => x.cutRuns p (x.cyc - 1))
        if t.ccountOf d = n + 1 then t1 else t1.modPlace d p (fun x => { x with stopAt := none })
    | none => t) s

/-- PLACE_DONE (spec/06 R183, R186, spec/08 R228, R244, spec/09 R258, R270, spec/17 R482). -/
def State.placeDone (s : State) (d p : Nat) : State :=
  if s.coreOn d && decide ((s.place d p).st = .running) then
    let s1 := (s.modPlace d p (fun x => { x with st := .done })).setPend d p
    let s2 := s1.phaseEnd d
    match s2.partOfNode d with
    | some q => (s2.drainBegin q).powerSelect q
    | none => s2
  else s

-- The meanings --------------------------------------------------------------------------------------------------------

/-- PL_ARM (spec/06 R184). -/
def execPlArm (die sc : Nat) (rd rs1 rs2 : BitVec 5) (s : State) : Host.Outcome State Fault Refusal :=
  guard (Instr.plArm die sc rd rs1 rs2).wf (s.plArm die sc rd rs1 rs2)
/-- PL_STOP (spec/06 R184). -/
def execPlStop (die sc : Nat) (rd rs1 : BitVec 5) (s : State) : Host.Outcome State Fault Refusal :=
  guard (Instr.plStop die sc rd rs1).wf (s.plStop die sc rd rs1)
/-- PL_STAT (spec/06 R184). -/
def execPlStat (die sc : Nat) (rd rs1 : BitVec 5) (s : State) : Host.Outcome State Fault Refusal :=
  guard (Instr.plStat die sc rd rs1).wf (s.plStat die sc rd rs1)
/-- FX_START (spec/08 R236). -/
def execFxStart (die sc : Nat) (rd : BitVec 5) (s : State) : Host.Outcome State Fault Refusal :=
  guard (Instr.fxStart die sc rd).wf (s.fxStart die sc rd)
/-- FX_DMA (spec/10 R296). -/
def execFxDma (die sc : Nat) (rd rs1 rs2 : BitVec 5) (s : State) : Host.Outcome State Fault Refusal :=
  guard (Instr.fxDma die sc rd rs1 rs2).wf (s.fxDma die sc rd rs1 rs2)
/-- FX_DPOLL (spec/10 R296). -/
def execFxDpoll (die sc : Nat) (rd rs1 : BitVec 5) (s : State) : Host.Outcome State Fault Refusal :=
  guard (Instr.fxDpoll die sc rd rs1).wf (s.fxDpoll die sc rd rs1)
/-- FX_BAR (spec/11 R339). -/
def execFxBar (die sc : Nat) (rd rs1 : BitVec 5) (s : State) : Host.Outcome State Fault Refusal :=
  guard (Instr.fxBar die sc rd rs1).wf (s.fxBar die sc rd rs1)
/-- BARRIER_TIMEOUT (spec/11 R339). -/
def execBarrierTimeout (die sc : Nat) (s : State) : Host.Outcome State Fault Refusal :=
  guard (Instr.barrierTimeout die sc).wf (s.barTimeout die sc)
/-- FX_SPSEND (spec/06 R184). -/
def execFxSpsend (die sc : Nat) (rd rs1 rs2 : BitVec 5) (s : State) : Host.Outcome State Fault Refusal :=
  guard (Instr.fxSpsend die sc rd rs1 rs2).wf (s.fxSpsend die sc rd rs1 rs2)
/-- FX_SPRECV (spec/06 R184). -/
def execFxSprecv (die sc : Nat) (rd : BitVec 5) (s : State) : Host.Outcome State Fault Refusal :=
  guard (Instr.fxSprecv die sc rd).wf (s.fxSprecv die sc rd)
/-- S_CORE_TRAP (spec/06 R188). -/
def execSCoreTrap (die sc : Nat) (s : State) : Host.Outcome State Fault Refusal :=
  guard (Instr.sCoreTrap die sc).wf (s.monitorTrap die sc)
/-- SC_CTRL_WRITE (spec/06 R189). -/
def execScCtrlWrite (src : Source) (site sc : Nat) (val : W64) (s : State) : Host.Outcome State Fault Refusal :=
  guard (Instr.scCtrlWrite src site sc val).wf (s.scCtrl src site sc val)
/-- PLACE_DONE (spec/06 R183). -/
def execPlaceDone (die place : Nat) (s : State) : Host.Outcome State Fault Refusal :=
  guard (Instr.placeDone die place).wf (s.placeDone die place)

end Sys2Proof.Machine
end

