-- ==== Sys2Proof/Machine/Spad.lean ====
section
/-! DEFINITION. The scratchpad's own rows: modes, group power, the scrub, accesses that are not scheduled, and the repair of corrected
words (spec/07 R194, R199-R212). -/

namespace Sys2Proof.Machine

/-- A write of the active PCD to a scratchpad setting of a die (spec/07 R194, R210, R212): discarded from any other source; discarded
with CFG_REJECT while a place of the die is ARMED or RUNNING. -/
def State.spadSetOn (s : State) (src : Source) (d : Nat) (f : State → Nat → State) : State :=
  if src = .pcd then (if (s.die d).busy then s.setRgB d CD_SPAD_STATUS 4 true else f s d) else s
/-- The same, made through a site window. -/
def State.spadSet (s : State) (src : Source) (site : Nat) (f : State → Nat → State) : State :=
  s.atSite src site (fun s d => s.spadSetOn src d f)

/-- A write to CD.SPAD_LINEAR (spec/07 R194). -/
def State.spadLinear (s : State) (src : Source) (site : Nat) (v : W32) : State :=
  s.spadSet src site (fun s d => s.setRg d CD_SPAD_LINEAR (s.windowMask v.toNat))
/-- A write to CD.SPAD_PWR (spec/07 R194, R206). -/
def State.spadPwr (s : State) (src : Source) (site : Nat) (v : W32) : State := s.spadSet src site (fun s d => s.setSpadPwr d v.toNat)
/-- A write to CD.SPAD_SCRUB (spec/07 R210). -/
def State.spadScrubWrite (s : State) (src : Source) (site : Nat) (v : W32) : State :=
  if v.getLsbD 0 then s.spadSet src site State.spadScrub else s

/-- A group that settled has been filled with zero and is usable (spec/07 R206). -/
def State.groupReady (s : State) (d g : Nat) : State :=
  if s.coreOn d && (s.die d).spad.settling.contains g then
    let s1 := s.modDie d (fun x =>
      let y := x.spad.keepGroups (2 ^ 32 - 1 - 2 ^ g)
      { x with spad := { y with settling := y.settling.filter (fun h => decide (h ≠ g)) } })
    let s2 := s1.setRgB d CD_SPAD_STATUS 3 (!(s1.die d).spad.settling.isEmpty)
    match s2.partOfNode d with
    | some p => if (s2.part p).loading && s2.groupsUp p then s2.beginCtx p else s2
    | none => s2
  else s

/-- Byte address, in a hashed window, of the line at a storage line (bank · 16,384 + line) (spec/07 R192, R212). -/
def hashedLine (n : Nat) : Nat :=
  let bank := n / 16384
  let l := n % 16384
  let lo := Nat.xor (Nat.xor (bank % 64) (bits l 5 0)) (Nat.xor (bits l 11 6) (bits l 13 12))
  bank / 64 * 2 ^ 26 + l * 4096 + lo * 64

/-- The last verify read of a scrub (spec/07 R203, R210, R211): every line zero, every group powered; a failed verify withholds the site, and
fails the job on the die where there is one. `bad` is the first storage line that fails. -/
def State.spadScrubDone (s : State) (d : Nat) (bad : Option Nat) : State :=
  if s.coreOn d && s.rgB d CD_SPAD_STATUS 0 then
    let s1 := (((s.modDie d (fun x => { x with spad := { x.spad with mem := [], errs := [], repair := [], settling := [] } })).setRg d
      CD_SPAD_PWR (s.windowMask (2 ^ 32 - 1))).setRgB d CD_SPAD_STATUS 3 false).setRgF d CD_SPAD_STATUS 2 0 2
    match bad with
    | some n =>
      let u := unitSram d (n / 16384 % 128) (n % 16384 / 16)
      let s2 := ((((s1.setRgB d CD_SPAD_STATUS 2 true).spadRecord d 2 (n / 16384 % 128) 100 0 (hashedLine n)).modDie d
        (fun x => { x with withheld := true })).raise d 0x2142 u 0)
      if (s.die d).ctx.isSome then s2.raise d 0x2140 u 0 else s2
    | none =>
      match s1.partOfNode d with
      | some p => (s1.releaseSettle p).tryRun p 63
      | none => s1
  else s

-- Accesses that are not scheduled (spec/07 R199-R203, R205) ------------------------------------------------------------

/-- Requester code of a class (spec/07 R199, R212). -/
def classPort (cls : Nat) : Nat := 96 + cls

/-- Reads scratchpad bytes for a requester that is no place (spec/07 R202, R203): none where a word is uncorrectable; the job then fails. -/
def State.spadFetch (s : State) (d port a n : Nat) : State × Option (List Byte) :=
  let s1 := s.bumpPerf d CD_SPAD_ACCESS (linesOf a n).length
  let c := s1.spadCheckLines d (linesOf a n)
  match c.2 with
  | some l => (c.1.spadBad d port l false, none)
  | none => (c.1, some (c.1.spadBytes d a n))

/-- Stores scratchpad bytes for a requester that is no place (spec/07 R201, R203). -/
def State.spadPut (s : State) (d port a : Nat) (bs : List Byte) : State :=
  (s.bumpPerf d CD_SPAD_ACCESS (linesOf a bs.length).length).spadStoreBytes d port a bs false

/-- A request with every line of it to be accessed. -/
def spadReq (cls a n : Nat) (wdata : Option (List Byte)) (sc : Option (Nat × Nat × Nat × Bool)) (host : Bool) (pkt : Option DynPkt) : SpadReq :=
  { cls := cls, addr := a, width := n, wdata := wdata, sc := sc, host := host, pkt := pkt, left := linesOf a n, got := [] }

/-- Queues a scratchpad request; it waits for a free bank-pair cycle (spec/07 R199, spec/06 R181). -/
def State.spadAsk (s : State) (d : Nat) (r : SpadReq) : State := s.modDie d (fun x => { x with spad := { x.spad with reqs := x.spad.reqs ++ [r] } })

/-- A loaded value in a 64-bit register: sign-extended or zero-extended from its bytes. -/
def extend (sx : Bool) (width v : Nat) : W64 :=
  if sx && v.testBit (8 * width - 1) then BitVec.ofNat 64 (v + (2 ^ 64 - 2 ^ (8 * width))) else BitVec.ofNat 64 v

/-- Puts a loaded value into register rd of an S-core: 0-31 the integer registers, 32-63 the floating ones, a narrower value boxed (PRESUMED,
RISC-V; log entry 81). -/
def SCore.setLoaded (y : SCore) (rd : Nat) (sx : Bool) (width v : Nat) : SCore :=
  if rd < 32 then y.setX rd (extend sx width v)
  else { y with f := nput 0#64 y.f (rd - 32) (BitVec.ofNat 64 (if width = 8 then v else 2 ^ 64 - 2 ^ (8 * width) + v)) }

/-- Adds a refused access to the tally of a die (spec/00 R21). -/
def State.dieRefuse (s : State) (d : Nat) : State := s.modDie d (fun x => { x with tally := min 0xFFFFFFFF (x.tally + 1) })

/-- Answers a request: with its bytes, or none where a word was uncorrectable, in which case the item of the packet fails before the job (spec/07 R203, spec/06 R179, spec/11 R327). -/
def State.spadReply (s : State) (r : SpadReq) (res : Option (List Byte)) : State :=
  match r.pkt, r.sc, r.wdata, res with
  | some p, _, none, some bs => s.inject (p.reply 2 0 bs)
  | some p, _, none, none => (s.doomTx p 3).inject (p.reply 2 1 [])
  | some p, _, some _, some _ => s.inject (p.reply 3 0 [])
  | some p, _, some _, none => (s.doomTx p 3).inject (p.reply 3 1 [])
  | none, _, some _, _ => s
  | none, some (e, c, rd, sx), none, some bs => s.setSc e c ((s.sc e c).setLoaded rd sx r.width (leVal bs))
  | none, some (e, c, _), none, none => s.scTrap e c .loadAccessFault
  | none, none, none, some bs => { s with rdata := leVal bs }
  | none, none, none, none => { s with rdata := 0 }

/-- A request of the dynamic port; one of no byte needs no access. -/
def State.dynAsk (s : State) (d : Nat) (r : SpadReq) : State := if r.left = [] then s.spadReply r (some []) else s.spadAsk d r

/-- A request that may not be performed (spec/00 R20, R21): the active PCD counts it for a host, the die else; a read gives 0. -/
def State.spadRefuse (s : State) (d : Nat) (r : SpadReq) : State :=
  (if r.host then s.refuseBy (.host 0) else s.dieRefuse d).spadReply r (some (List.replicate r.width 0#8))

/-- Puts request i back with a line of it done, or takes it out. -/
def State.spadKeep (s : State) (d i : Nat) (r : Option SpadReq) : State :=
  s.modDie d (fun x => { x with spad := { x.spad with reqs := match r with
    | some q => x.spad.reqs.set i q
    | none => x.spad.reqs.eraseIdx i } })

/-- Performs the access of one line of request i; with its last line, or with an uncorrectable word, the request is answered. -/
def State.spadServe (s : State) (d i : Nat) (r : SpadReq) (line : Nat) : State :=
  let lo := max line r.addr
  let n := min (line + 64) (r.addr + r.width) - lo
  let left := r.left.filter (fun a => decide (a ≠ line))
  if s.spadOpen d lo n then
    match r.wdata with
    | some bs =>
      let part := (bs.drop (lo - r.addr)).take n
      let bad := s.mergeBad d lo (8 * n) (leVal part)
      let t := s.spadPut d (classPort r.cls) lo part
      if bad then (t.spadKeep d i none).spadReply r none
      else if left.isEmpty then (t.spadKeep d i none).spadReply r (some [])
      else t.spadKeep d i (some { r with left := left })
    | none =>
      let f := s.spadFetch d (classPort r.cls) lo n
      match f.2 with
      | none => (f.1.spadKeep d i none).spadReply r none
      | some bs =>
        let got := sput r.got line bs
        if left.isEmpty then (f.1.spadKeep d i none).spadReply r (some (got.flatMap (·.2)))
        else f.1.spadKeep d i (some { r with left := left, got := got })
  else (s.spadKeep d i none).spadRefuse d r

-- The meanings --------------------------------------------------------------------------------------------------------

/-- SPAD_LINEAR_WRITE (spec/07 R194). -/
def execSpadLinearWrite (src : Source) (site : Nat) (val : W32) (s : State) : Host.Outcome State Fault Refusal :=
  guard (Instr.spadLinearWrite src site val).wf (s.spadLinear src site val)
/-- SPAD_PWR_WRITE (spec/07 R206). -/
def execSpadPwrWrite (src : Source) (site : Nat) (val : W32) (s : State) : Host.Outcome State Fault Refusal :=
  guard (Instr.spadPwrWrite src site val).wf (s.spadPwr src site val)
/-- SPAD_GROUP_READY (spec/07 R206). -/
def execSpadGroupReady (die group : Nat) (s : State) : Host.Outcome State Fault Refusal :=
  guard (Instr.spadGroupReady die group).wf (s.groupReady die group)
/-- SPAD_SCRUB_START (spec/07 R210). -/
def execSpadScrubStart (src : Source) (site : Nat) (val : W32) (s : State) : Host.Outcome State Fault Refusal :=
  guard (Instr.spadScrubStart src site val).wf (s.spadScrubWrite src site val)
/-- SPAD_SCRUB_DONE (spec/07 R210, R211). -/
def execSpadScrubDone (die : Nat) (badLine : Option Nat) (s : State) : Host.Outcome State Fault Refusal :=
  guard (Instr.spadScrubDone die badLine).wf (s.spadScrubDone die badLine)

end Sys2Proof.Machine
end

