-- ==== Sys2Proof/Machine/Seq.lean ====
section
/-! DEFINITION. The sequencer of a place: turn images and the commands in them as spec/08 R225, R226, spec/03 R94, spec/04 R131, spec/05
R147-R149 and spec/06 R166 lay them out, the sequencer's checks (R231), the issue of an entry, and the start of a turn. -/

namespace Sys2Proof.Machine

-- Commands in turn memory ----------------------------------------------------------------------------------------------

/-- A command of a place as turn memory holds it. -/
inductive Body where
  | mcNop (rsv : Bool)
  | loadw (c : LoadwCmd)
  | stream (c : StreamCmd)
  | readout (c : ReadoutCmd)
  | zero (c : ZeroCmd)
  | reduce (mode : Nat) (c : ReduceCmd)
  | mcBad
  | scrNop (rsv : Bool)
  | row (op : Nat) (c : RowCmd)
  | smove (dir : Nat) (c : SmoveCmd)
  | setup (c : SetupCmd)
  | scrBad
  | vins (op : Nat) (i : VIns)
  | aset (ar : BitVec 3) (base : BitVec 32) (stp : BitVec 14)
  | vBad
deriving DecidableEq, Repr, Inhabited

/-- Field of the 32-bit word at a byte offset of a command. -/
def bf (b off msb lsb : Nat) : Nat := bits b (8 * off + msb) (8 * off + lsb)
def bt (b off n : Nat) : Bool := b.testBit (8 * off + n)

/-- LOADW (spec/03, layout under R94). -/
def decLoadw (b : Nat) : LoadwCmd :=
  { fmt := BitVec.ofNat 4 (bf b 0 7 4), mx := bt b 0 8, mxdir := bt b 0 9, src := bt b 0 10, lane := bt b 0 11,
    rowsM1 := BitVec.ofNat 6 (bf b 0 21 16), colsM1 := BitVec.ofNat 6 (bf b 0 27 22), addr := BitVec.ofNat 32 (bf b 4 31 0),
    stride := BitVec.ofNat 24 (bf b 8 23 0), scaleAddr := BitVec.ofNat 32 (bf b 0xC 31 0), sstride := BitVec.ofNat 24 (bf b 0x10 23 0),
    rsv := decide (bf b 0 15 12 ≠ 0 ∨ bf b 0 31 28 ≠ 0 ∨ bf b 8 31 24 ≠ 0 ∨ bf b 0x10 31 24 ≠ 0 ∨ bits b 255 160 ≠ 0) }

/-- STREAM (spec/03, layout under R97). -/
def decStream (b : Nat) : StreamCmd :=
  { fmt := BitVec.ofNat 4 (bf b 0 7 4), mx := bt b 0 8, read := bt b 0 9, swap := bt b 0 10, acc := bt b 0 11, src := bt b 0 12,
    lane := bt b 0 13, mrowsM1 := BitVec.ofNat 10 (bf b 0 25 16), addr := BitVec.ofNat 32 (bf b 4 31 0),
    stride := BitVec.ofNat 24 (bf b 8 23 0), scaleAddr := BitVec.ofNat 32 (bf b 0xC 31 0), sstride := BitVec.ofNat 24 (bf b 0x10 23 0),
    accRow := BitVec.ofNat 10 (bf b 0x14 9 0), gtag := BitVec.ofNat 16 (bf b 0x18 15 0),
    rsv := decide (bf b 0 15 14 ≠ 0 ∨ bf b 0 31 26 ≠ 0 ∨ bf b 8 31 24 ≠ 0 ∨ bf b 0x10 31 24 ≠ 0 ∨ bf b 0x14 31 10 ≠ 0 ∨ bf b 0x18 31 16 ≠ 0 ∨
      bf b 0x1C 31 0 ≠ 0) }

/-- READOUT (spec/03, layout under R99). -/
def decReadout (b : Nat) : ReadoutCmd :=
  { fmt := BitVec.ofNat 4 (bf b 0 7 4), mx := bt b 0 8, rmode := BitVec.ofNat 2 (bf b 0 10 9), sat := bt b 0 11, dst := bt b 0 12,
    lane := bt b 0 13, clear := bt b 0 14, nrowsM1 := BitVec.ofNat 10 (bf b 0 25 16), addr := BitVec.ofNat 32 (bf b 4 31 0),
    stride := BitVec.ofNat 24 (bf b 8 23 0), scaleAddr := BitVec.ofNat 32 (bf b 0xC 31 0), sstride := BitVec.ofNat 24 (bf b 0x10 23 0),
    accRow := BitVec.ofNat 10 (bf b 0x14 9 0), colsM1 := BitVec.ofNat 6 (bf b 0x14 21 16),
    rsv := bt b 0 15 || decide (bf b 0 31 26 ≠ 0 ∨ bf b 8 31 24 ≠ 0 ∨ bf b 0x10 31 24 ≠ 0 ∨ bf b 0x14 15 10 ≠ 0 ∨ bf b 0x14 31 22 ≠ 0 ∨
      bits b 255 192 ≠ 0) }

/-- REDUCE (spec/04, layout under R132). -/
def decReduce (b : Nat) : ReduceCmd :=
  { laneIn := bt b 0 6, laneOut := bt b 0 7, clear := bt b 0 8, nrowsM1 := BitVec.ofNat 10 (bf b 0 25 16),
    accRow := BitVec.ofNat 10 (bf b 4 9 0), colsM1 := BitVec.ofNat 6 (bf b 4 21 16), gtag := BitVec.ofNat 16 (bf b 8 15 0),
    expect := BitVec.ofNat 8 (bf b 8 23 16),
    rsv := decide (bf b 0 15 9 ≠ 0 ∨ bf b 0 31 26 ≠ 0 ∨ bf b 4 15 10 ≠ 0 ∨ bf b 4 31 22 ≠ 0 ∨ bf b 8 31 24 ≠ 0 ∨ bits b 255 96 ≠ 0) }

/-- Row command of the scraper (spec/05, layout under R147). -/
def decRow (b : Nat) : RowCmd :=
  { fmtIn := BitVec.ofNat 4 (bf b 0 7 4), fmtOut := BitVec.ofNat 4 (bf b 0 11 8), mx := bt b 0 12, rmode := BitVec.ofNat 2 (bf b 0 14 13),
    sat := bt b 0 15, src := bt b 0 16, laneIn := bt b 0 17, dst := bt b 0 18, laneOut := bt b 0 19, variant := bt b 0 20,
    b21 := bt b 0 21, gbacc := bt b 0 22, fmtAux := BitVec.ofNat 4 (bf b 0 26 23), addrIn := BitVec.ofNat 32 (bf b 4 31 0),
    addrOut := BitVec.ofNat 32 (bf b 8 31 0), addrAux := BitVec.ofNat 32 (bf b 0xC 31 0), param := BitVec.ofNat 32 (bf b 0x10 31 0),
    strideIn := BitVec.ofNat 16 (bf b 0x14 15 0), strideOut := BitVec.ofNat 16 (bf b 0x14 31 16),
    strideAux := BitVec.ofNat 16 (bf b 0x18 15 0), nrowsM1 := BitVec.ofNat 16 (bf b 0x18 31 16), slot := BitVec.ofNat 18 (bf b 0x1C 17 0),
    colsM1 := BitVec.ofNat 14 (bf b 0x1C 31 18), rsv := decide (bf b 0 31 27 ≠ 0) }

/-- SMOVE (spec/05, layout under R149). -/
def decSmove (b : Nat) : SmoveCmd :=
  { kind := BitVec.ofNat 3 (bf b 0 8 6), addr := BitVec.ofNat 32 (bf b 4 31 0), slot := BitVec.ofNat 18 (bf b 8 17 0),
    countM1 := BitVec.ofNat 18 (bf b 0xC 17 0),
    rsv := decide (bf b 0 31 9 ≠ 0 ∨ bf b 8 31 18 ≠ 0 ∨ bf b 0xC 31 18 ≠ 0 ∨ bits b 255 128 ≠ 0) }

/-- SETUP (spec/05, layout under R148). -/
def decSetup (b : Nat) : SetupCmd :=
  { eps := BitVec.ofNat 32 (bf b 4 31 0), diag := BitVec.ofNat 16 (bf b 8 15 0), gbSlot := BitVec.ofNat 18 (bf b 0xC 17 0),
    rsv := decide (bf b 0 31 4 ≠ 0 ∨ bf b 8 31 16 ≠ 0 ∨ bf b 0xC 31 18 ≠ 0 ∨ bits b 255 128 ≠ 0) }

/-- V-core instruction word (spec/06 R166). -/
def decVins (b : Nat) : VIns :=
  { vd := BitVec.ofNat 7 (bits b 14 8), va := BitVec.ofNat 7 (bits b 21 15), vb := BitVec.ofNat 7 (bits b 28 22),
    vc := BitVec.ofNat 7 (bits b 35 29), fmt := BitVec.ofNat 4 (bits b 39 36), rmode := BitVec.ofNat 2 (bits b 41 40), sat := b.testBit 42,
    mask := BitVec.ofNat 3 (bits b 45 43), rsv := b.testBit 46, imm := BitVec.ofNat 17 (bits b 63 47) }

/-- Opcodes of the V-core but ASET (spec/06 R167). -/
def vOps : List Nat := [0, 1, 2, 3, 4, 16, 17, 18, 19, 20, 21, 22, 23, 24, 25, 26, 27, 32, 33, 40, 41, 42, 43, 44, 45, 46, 48, 49, 50]

/-- Core kind of a place: 0 M-core, 1 V-core, 2 scraper (spec/08 R213, R225). -/
def placeKind (p : Nat) : Nat := if p < 16 then 0 else if p < 24 then 1 else 2

/-- The command in a body of a core kind. -/
def decBody (kind b : Nat) : Body :=
  if kind = 0 then
    (match b % 16 with
     | 0 => .mcNop (decide (b / 16 % 2 ^ 252 ≠ 0))
     | 1 => .loadw (decLoadw b)
     | 2 => .stream (decStream b)
     | 3 => .readout (decReadout b)
     | 4 => .zero { nrowsM1 := BitVec.ofNat 10 (bf b 0 25 16), accRow := BitVec.ofNat 10 (bf b 0x14 9 0),
                    rsv := decide (bf b 0 15 4 ≠ 0 ∨ bf b 0 31 26 ≠ 0 ∨ bits b 159 32 ≠ 0 ∨ bf b 0x14 31 10 ≠ 0 ∨ bits b 255 192 ≠ 0) }
     | 5 => .reduce (bf b 0 5 4) (decReduce b)
     | _ => .mcBad)
  else if kind = 2 then
    (match b % 16 with
     | 0 => .scrNop (decide (b / 16 % 2 ^ 252 ≠ 0))
     | 5 => .smove (bf b 0 5 4) (decSmove b)
     | 6 => .setup (decSetup b)
     | n => if n ≤ 4 then .row n (decRow b) else .scrBad)
  else if b % 256 = 8 then .aset (BitVec.ofNat 3 (bits b 17 15)) (BitVec.ofNat 32 (bits b 49 18)) (BitVec.ofNat 14 (bits b 63 50))
  else if vOps.contains (b % 256) then .vins (b % 256) (decVins b)
  else .vBad

/-- A core's issue of a command (spec/08 R227): it is under way from this cycle on (spec/03 R87). A reserved opcode is the core's own cause 1. -/
def State.issueBody (s : State) (d p : Nat) : Body → State
  | .mcNop r => s.mcNop d p r
  | .loadw c => s.loadw d p c false
  | .stream c => s.stream d p c
  | .readout c => s.readout d p c false
  | .zero c => s.zero d p c false
  | .reduce m c =>
    if m = 3 then (if s.canIssue d p then s.mcCmdFault d p (min 15 ((s.reduceCause d p 3 c (s.outBusy d p) none).getD 15)) 0 else s) else s.reduce d p m c false
  | .mcBad => if s.canIssue d p then s.mcCmdFault d p 1 0 else s
  | .scrNop r => s.scrNop d r
  | .row op c => s.rowCmd d op c false
  | .smove dir c => if dir = 3 then (if s.canIssue d 24 then s.scrCmdFault d (min 9 ((s.smoveCause d 3 c).getD 9)) 0 else s) else s.smove d dir c false
  | .setup c => s.setup d c
  | .scrBad => if s.canIssue d 24 then s.scrCmdFault d 1 0 else s
  | .vins op i => s.vIssue d (p - 16) op i false
  | .aset ar b st => s.aset d (p - 16) ar b st
  | .vBad => if s.canIssue d p then s.vcCmdFault d (p - 16) 1 else s

/-- The command has a stepped address (spec/08 R227). -/
def Body.stepped : Body → Bool
  | .loadw _ => true
  | .stream _ => true
  | .readout _ => true
  | .smove _ _ => true
  | .row _ _ => true
  | _ => false

/-- Unit the command occupies for the limits of spec/08 R227; none for a NOP of an M-core or the scraper and a reserved opcode. -/
def Body.unit : Body → Option Nat
  | .loadw _ => some 0
  | .stream _ => some 1
  | .readout _ => some 2
  | .zero _ => some 2
  | .reduce _ _ => some 2
  | .row _ _ => some 0
  | .smove _ _ => some 0
  | .setup _ => some 1
  | .vins _ _ => some 0
  | .aset _ _ _ => some 0
  | _ => none

/-- Lanes the command uses. -/
def Body.lanes : Body → List Nat
  | .loadw c => if c.src then [b2n c.lane] else []
  | .stream c => if c.src then [b2n c.lane] else []
  | .readout c => if c.dst then [2 + b2n c.lane] else []
  | .reduce m c => (if m = 0 then [] else [b2n c.laneIn]) ++ (if m = 1 then [] else [2 + b2n c.laneOut])
  | .row _ c => (if c.src then [b2n c.laneIn] else []) ++ (if c.dst then [2 + b2n c.laneOut] else [])
  | .vins op i => if op = 3 then [i.lane] else if op = 4 then [2 + i.lane] else []
  | _ => []

-- Turn images (spec/08 R225-R227) --------------------------------------------------------------------------------------

/-- A 32-bit word of a slot. -/
def Place.word (x : Place) (slot off : Nat) : Nat := leVal (readBytes x.mem (slot * 0x2000 + off) 4)

/-- Header fields of a slot. -/
structure Turn where
  gen : Nat
  kind : Nat
  next : Nat
  fin : Bool
  epoch : Bool
  period : Nat
  rep : Nat
  nent : Nat
  rsv : Bool
deriving DecidableEq, Repr, Inhabited

/-- The header of a slot. -/
def Place.turn (x : Place) (slot : Nat) : Turn :=
  let w0 := x.word slot 0
  { gen := bits w0 19 16, kind := bits w0 21 20, next := bits w0 26 24, fin := w0.testBit 27, epoch := w0.testBit 28,
    period := bits (x.word slot 4) 23 0, rep := x.word slot 8, nent := bits (x.word slot 0xC) 15 0,
    rsv := decide (bits w0 23 22 ≠ 0 ∨ bits w0 31 29 ≠ 0 ∨ bits (x.word slot 4) 31 24 ≠ 0 ∨ bits (x.word slot 0xC) 31 16 ≠ 0) ||
      (List.range 12).any (fun k => decide (x.word slot (0x10 + 4 * k) ≠ 0)) }

/-- Entries a slot can hold (spec/08 R226), and the bytes of one. -/
def maxEnt (kind : Nat) : Nat := if kind = 1 then 508 else 203
def entBytes (kind : Nat) : Nat := if kind = 1 then 16 else 40

/-- An entry of a turn. -/
structure Entry where
  idx : Nat
  cycle : Nat
  wh : Nat
  tload : Bool
  step : Nat
  rsv : Bool
  body : Nat
deriving DecidableEq, Repr, Inhabited

/-- Entry k of a slot. -/
def Place.entry' (x : Place) (slot kind k : Nat) : Entry :=
  let o := 0x40 + k * entBytes kind
  let w0 := x.word slot o
  let w1 := x.word slot (o + 4)
  let b := leVal (readBytes x.mem (slot * 0x2000 + o + 8) (entBytes kind - 8))
  { idx := k, cycle := bits w0 23 0, wh := bits w0 25 24, tload := w0.testBit 26, step := bits w1 15 0,
    rsv := decide (bits w0 31 27 ≠ 0 ∨ bits w1 31 16 ≠ 0) || (w0.testBit 26 && decide (b / 2 ^ 39 ≠ 0)), body := b }

/-- Entries of a slot. -/
def Place.entries (x : Place) (slot kind : Nat) : List Entry := (List.range ((x.turn slot).nent)).map (x.entry' slot kind)

/-- WHEN holds in iteration i of n (spec/08 R226). -/
def whenHolds (wh i n : Nat) : Bool :=
  if wh = 0 then true else if wh = 1 then decide (i + 1 ≠ n) else if wh = 2 then decide (i + 1 = n) else decide (i = 0)

/-- Kinds of iteration of a turn: the first, any between, the last (spec/08 R231). -/
def iterKinds (n : Nat) : List Nat := if n ≤ 1 then [0] else if n = 2 then [0, 1] else [0, 1, n - 1]

/-- Unit of an entry for cause 4: a TLOAD has a limit of its own. -/
def Entry.unit (e : Entry) (kind : Nat) : Option Nat := if e.tload then some 9 else (decBody kind e.body).unit

/-- Entries that come after another of the same unit in one cycle of one iteration (spec/08 R227, R231 cause 4). -/
def overLimit (kind rep : Nat) (es : List Entry) : List Nat :=
  (iterKinds rep).flatMap (fun i =>
    ((es.filter (fun e => whenHolds e.wh i rep)).foldl (fun (st : List (Nat × Nat) × List Nat) e =>
      match e.unit kind with
      | none => st
      | some u => if st.1.contains (e.cycle, u) then (st.1, st.2 ++ [e.idx]) else ((e.cycle, u) :: st.1, st.2)) ([], [])).2)

/-- Entries out of CYCLE order, or at or beyond PERIOD. -/
def outOfOrder (period : Nat) (es : List Entry) : List Nat :=
  (es.foldl (fun (st : Nat × List Nat) e => (max st.1 e.cycle, if e.cycle < st.1 ∨ period ≤ e.cycle then st.2 ++ [e.idx] else st.2)) (0, [])).2

/-- Causes found when a turn is started or switched to, each with an entry's index (spec/08 R231). -/
def State.turnFaults (s : State) (d p slot : Nat) : List (Nat × Nat) :=
  let x := s.place d p
  let t := x.turn slot
  let kind := placeKind p
  let ok := x.valid.testBit slot && decide (t.kind = kind)
  let c1 := if ok then [] else [(1, 0)]
  let c2 := if ok && decide (t.gen ≠ s.rgF d CD_PL_CTRL 3 0) then [(2, 0)] else []
  if !ok || decide (maxEnt kind < t.nent) then
    c1 ++ c2 ++ (if ok then [(3, 0)] else [])
  else
    let es := x.entries slot kind
    let h := fun (c : Bool) (n : Nat) => if c then [(n, 0)] else []
    c1 ++ c2 ++ h (decide (t.period = 0) || decide (t.rep = 0)) 3 ++ (outOfOrder t.period es).map (fun i => (3, i)) ++
      (overLimit kind t.rep es).map (fun i => (4, i)) ++
      (es.filter (fun e => decide (e.step ≠ 0) && !e.tload && !(decBody kind e.body).stepped)).map (fun e => (5, e.idx)) ++
      h t.rsv 7 ++ (es.filter (fun e => e.rsv)).map (fun e => (7, e.idx)) ++
      (es.filter (fun e => !e.tload && (decBody kind e.body).lanes.any (fun l => !bindEn (s.bindOf d p l)))).map (fun e => (8, e.idx))

/-- The lowest cause, and the lowest index with it. -/
def lowestFault (l : List (Nat × Nat)) : Option (Nat × Nat) :=
  l.foldl (fun a x => match a with | none => some x | some y => if x.1 < y.1 ∨ (x.1 = y.1 ∧ x.2 < y.2) then some x else some y) none

/-- A fault of the sequencer (spec/08 R231, R254). -/
def State.seqFault (s : State) (d p slot cause entry : Nat) : State :=
  ((s.faultHalt d p).plRecord d 0 p slot cause 0 entry).raise d 0x2153 (unitCore d p) 0

/-- Error check of the words of turn memory that a turn is read from (spec/08 R224). -/
def State.turnEcc (s : State) (d p slot : Nat) : State × Bool :=
  let x := s.place d p
  let lo := slot * 0x400
  let hi := lo + (0x40 + (x.turn slot).nent * entBytes (placeKind p) + 7) / 8
  (x.memErr.filter (fun e => decide (lo ≤ e.1) && decide (e.1 < hi))).foldl (fun (st : State × Bool) e =>
    let j := (eccJudge e.2, st.1)
    match j.1 with
    | .bad => (j.2, true)
    | .altered k v => (j.2.modPlace d p (fun y => { y with mem := flipBytes y.mem (8 * e.1) 8 v, memErr := eccLeft y.memErr e.1 k }), st.2)
    | _ => (j.2, st.2)) (s, false)

/-- The nominal cycle of the phase, counted without wrap (spec/09 R260, R269). -/
def State.nominal (s : State) (d : Nat) : Nat := (s.die d).nomWraps * 2 ^ 48 + s.rg d CD_SCH_NOMINAL % 2 ^ 48

/-- Begins a turn from a slot at a nominal cycle (spec/08 R228, R231, R236): the sequencer checks it first. A slot still being loaded
stalls the die until the load completes (R229). -/
def State.beginTurn (s : State) (d p slot nominal : Nat) : State :=
  let x := s.place d p
  if x.loading.testBit slot then
    s.setPlace d p { x with st := .running, slot := slot, base := nominal, waitLoad := true }
  else
    let c := s.turnEcc d p slot
    if c.2 then
      (((c.1.faultHalt d p).plRecord d 3 p slot 0 0 0).raise d 0x2155 (unitSram d (153 + p) (slot * 128)) 0)
    else match lowestFault (c.1.turnFaults d p slot) with
      | some (n, e) => c.1.seqFault d p slot n e
      | none => c.1.modPlace d p (fun y => { y with st := .running, slot := slot, base := nominal, waitLoad := false, entry := 0 })

/-- The die reaches an epoch boundary: at the one that CD.CLK_NEXT names it holds every place and tells the active PCD (spec/14 R413). -/
def State.stepBoundary (s : State) (d : Nat) : State :=
  if s.rgB d CD_CLK_NEXT 63 && decide (s.rgF d CD_CLK_NEXT 31 0 = s.rg d CD_PL_EPOCH) then
    (s.modDie d (fun x => { x with fstep := true })).spNotice d 3
  else s

/-- The end of the turn in force at a nominal cycle (spec/08 R228, R251, R253). At an epoch boundary CD.PL_EPOCH of the die advances once
(log entry 16); a place stops there under a yield. -/
def State.endTurn (s : State) (d p nominal : Nat) : State :=
  let x := s.place d p
  let t := x.turn x.slot
  let s1 := if t.epoch ∧ (s.die d).epochAt ≠ nominal + 1 then
      ((s.setRg d CD_PL_EPOCH ((s.rg d CD_PL_EPOCH + 1) % 2 ^ 32)).modDie d (fun y => { y with epochAt := nominal + 1 })).stepBoundary d
    else s
  if t.fin then s1.modPlace d p (fun y => { y with ended := true })
  else if t.epoch ∧ (s1.die d).yieldAt = some (s1.rg d CD_PL_EPOCH) then
    (s1.modPlace d p (fun y => { y with yielded := true, slot := t.next, base := nominal, iter := 0 })).phaseEnd d
  else s1.beginTurn d p t.next nominal

/-- A TLOAD (spec/08 R229): the slot becomes invalid; the memory die that holds the image's first byte executes the load. -/
def State.tload (s : State) (d p slot addr : Nat) : State :=
  if s.canIssue d p then
    let x := s.place d p
    if (x.st = .running ∧ x.slot = slot) ∨ x.loading.testBit slot = true then s.seqFault d p x.slot 6 x.entry
    else
      let s1 := s.setPlace d p { x with valid := x.valid - (x.valid &&& 2 ^ slot), loading := x.loading ||| 2 ^ slot, tloaded := sput x.tloaded slot addr }
      let part := (s.partOfNode d).getD 0
      let site := (s.nodeSite d).getD 0
      let dd : DmaDesc := { (default : DmaDesc) with
        length := 0x2000#32, src := BitVec.ofNat 64 (addr * 64),
        dst := BitVec.ofNat 64 (0x4000000000000000 + site * 2 ^ 32 + 0x20000000 + p * 0x10000 + slot * 0x2000) }
      match s.hbmMap part (addr * 64) with
      | some (m, _) => s1.setPcd (fun q => { q with descs := q.descs ++ [(m, .tload d p slot, dd)] })
      | none => s1.raise d 0x2202 (unitDie d) 0
  else s

/-- Body of an entry in iteration i, its address stepped (spec/08 R227). -/
def Entry.stepBody (e : Entry) (kind i : Nat) : Nat :=
  if (decBody kind e.body).stepped then
    setBits e.body 63 32 (toTwos 32 ((bits e.body 63 32 : Nat) + (i : Int) * 64 * signedOf 16 e.step))
  else e.body

/-- Issues one entry of the turn in force in iteration i (spec/08 R227). -/
def State.issueEntry (s : State) (d p i : Nat) (e : Entry) : State :=
  let s1 := (s.modPlace d p (fun x => { x with entry := e.idx })).bumpPerf d CD_SCH_ISSUED 1
  if e.tload then
    let a := toTwos 36 ((bits e.body 35 0 : Nat) + (i : Int) * signedOf 16 e.step)
    s1.tload d p (bits e.body 38 36) a
  else s1.issueBody d p (decBody (placeKind p) (e.stepBody (placeKind p) i))

end Sys2Proof.Machine
end

