-- ==== Sys2Proof/Machine/Turns.lean ====
section
/-! DEFINITION. Tokens, turns, drains, the watchdog and job contexts (spec/08 R219-R253). -/

namespace Sys2Proof.Machine

-- Tokens (spec/08 R219-R223, R243) --------------------------------------------------------------------------------------

/-- A token leaves an outbound lane (spec/08 R220, R221): a credit goes, and the token is on its way for λ cycles of the common count. -/
def State.depart (s : State) (d p lane : Nat) : State :=
  let l := (s.place d p).lane lane
  if s.coreOn d && decide (2 ≤ lane) && decide (0 < l.cred) then
    match l.out, s.peer d p lane with
    | (_, tok) :: r, some (d', q, m) =>
      let at' := s.ccountOf d + lambdaOf (s.bindOf d p lane)
      let s1 := s.modPlace d p (fun x => x.setLane lane { l with out := r, cred := l.cred - 1 })
      let s2 := s1.modPlace d' q (fun x => let k := x.lane m; x.setLane m { k with wire := k.wire ++ [(at', tok)] })
      s2.modDie d (fun x => { x with lastDep := s.ccountOf d })
    | _, _ => s
  else s

/-- Unit of a token's fault: the side link it came over, else its place (spec/16 R460). -/
def State.tokenUnit (s : State) (d p lane : Nat) : Nat :=
  let b := s.bindOf d p lane
  if 4 ≤ bindPort b then unitLink d (s.sidePort d (bindPort b - 4)) else unitCore d p

/-- Tokens a lane's queue may hold (spec/08 R221). -/
def State.laneRoom (s : State) (d p lane : Nat) : Nat := if bindEn (s.bindOf d p lane) then bindCred (s.bindOf d p lane) else 0

/-- A correction made in a token (spec/08 R223). -/
def State.tokCorr (s : State) (d : Nat) : State := s.bumpErr d CD_PL_TOK_CORR CD_PL_STATUS 29 1

/-- A token is queued, or overruns the queue (spec/08 R222). -/
def State.enqueue (s : State) (d p lane : Nat) (tok : Token) : State :=
  let l := (s.place d p).lane lane
  if s.laneRoom d p lane ≤ l.q.length then
    (s.plRecord d 2 p (s.turnOf d p) 0 lane 0).raise d 0x2152 (unitCore d p) 0
  else s.modPlace d p (fun x => x.setLane lane { l with q := l.q ++ [tok] })

/-- A token arrives at its sink (spec/08 R222, R223, R243): sideband, generation, payload, in that order. -/
def State.arrive (s : State) (d p lane : Nat) (tok : Token) (sideband payload : Ecc) : State :=
  if s.coreOn d && decide (lane < 2) then
    let s0 := s.modPlace d p (fun x => let k := x.lane lane; x.setLane lane { k with wire := k.wire.tail })
    let bad := fun (t : State) => (t.plRecord d 1 p (t.turnOf d p) 0 lane 0).raise d 0x2150 (t.tokenUnit d p lane) 0
    if sideband = .uncorrectable then bad s0
    else
      let s1 := if sideband = .corrected then s0.tokCorr d else s0
      if tok.gen.toNat ≠ s.rgF d CD_PL_CTRL 3 0 then s1.bumpErr d CD_PL_STALE CD_PL_STATUS 31 1
      else if payload = .uncorrectable then bad s1
      else (if payload = .corrected then s1.tokCorr d else s1).enqueue d p lane tok
  else s

/-- A credit comes back (spec/08 R221). -/
def State.creditBack (s : State) (d p lane : Nat) : State :=
  if s.coreOn d && decide (2 ≤ lane) then
    s.modPlace d p (fun x =>
      let l := x.lane lane
      x.setLane lane { l with cred := min (s.laneRoom d p lane) (l.cred + 1), retAt := l.retAt.tail })
  else s

-- Turns -------------------------------------------------------------------------------------------------------------

/-- The fill of a slot has written its last byte (spec/08 R229): the slot is valid; a turn that waits for it begins. -/
def State.tloadDone (s : State) (d p slot : Nat) : State :=
  let x := s.place d p
  if s.coreOn d && x.loading.testBit slot then
    let s1 := s.setPlace d p { x with loading := x.loading - (x.loading &&& 2 ^ slot), valid := x.valid ||| 2 ^ slot }
    if x.waitLoad && decide (x.slot = slot) && decide (x.st = .running) then s1.beginTurn d p slot x.base else s1
  else s

/-- The turn in force ends at T + REPEAT × PERIOD (spec/08 R228). -/
def State.turnSwitch (s : State) (d p : Nat) : State :=
  let x := s.place d p
  if s.coreOn d && decide (x.st = .running) && !x.waitLoad && !x.yielded && !x.ended then
    let t := x.turn x.slot
    s.endTurn d p (x.base + t.rep * t.period)
  else s

/-- The start cycle on a die (spec/08 R236, spec/09 R257-R259, R263): landing flags clear, the counters at 0 or as restored, and every
place that was ARMED at the strobe begins its starting slot. -/
def State.placeStart (s : State) (d : Nat) : State :=
  let x := s.die d
  if s.coreOn d && x.startAt.isSome then
    let s1 := if x.resumed then s else (s.keepDeltas (schedRegs.foldl (fun t r => t.setRg d r 0) s) d).modDie d (fun y =>
      { y with landPtr := 0, dmaPtr := 0, issuedNom := 0, nomWraps := 0, epochAt := 0 })
    let s2 := s1.modDie d (fun y => { y with flags := [], landLate := false, startAt := none, resumed := false, inPhase := true, stopped := false })
    (List.range 25).foldl (fun t p =>
      if x.strobed.testBit p && decide ((t.place d p).st = .armed) then t.beginTurn d p (t.place d p).slot (t.nominal d)
      else t) s2
  else s

-- Drain, watchdog, contexts ------------------------------------------------------------------------------------------

/-- A die that meets the drained condition reports it (spec/08 R244). -/
def State.drainedReport (s : State) (d : Nat) : State := if s.coreOn d && s.drainedNow d then s.spNotice d 2 else s

/-- The drain reaches its limit (spec/08 R244). -/
def State.drainForced (s : State) (p : Nat) : State := if (s.part p).drainAt.isSome then s.reconfigure p true else s

/-- The waiting count of a die reaches 2^24 (spec/08 R249). -/
def State.watchdogIdle (s : State) (d : Nat) : State := if s.coreOn d then (s.setRgB d CD_PL_STATUS 0 true).spNotice d 0 else s

/-- The running context's quantum has expired while another is ready: a yield naming e + 2 goes out (spec/08 R252, R253). -/
def State.quantumExpire (s : State) (p : Nat) : State :=
  match s.running p with
  | none => s
  | some (cid, c) =>
    if (s.part p).ctxs.any (fun e => decide (e.1 ≠ cid) && decide (e.2.st = .ready) && e.2.endAs.isNone) then
      let s1 := s.setPart p { s.part p with ctxs := sput (s.part p).ctxs cid { c with expired := true } }
      match s1.kernelNode p with
      | some k => s1.spBroadcast p 5 0 ((s1.rg k CD_PL_EPOCH + 2) % 2 ^ 32)
      | none => s1
    else s

/-- Every place of a partition has stopped, at a yield or for good. -/
def State.allYielded (s : State) (p : Nat) : Bool := (s.diesOf p).all (fun d => (s.die d).allStopped)

/-- The pipelines of a die are complete: no command under way, no result on its way to a V-core register. -/
def Die.pipesDone (x : Die) : Bool := x.runs.isEmpty && x.vcs.all (fun e => e.2.pend.all (fun p => decide (p.due ≤ x.cyc)))

/-- A switch of job contexts, once the pipelines of the partition are complete (spec/08 R253, spec/07 R208). Where a queue holds a token, the
outgoing job fails and the incoming runs alone. -/
def State.contextSwitch (s : State) (p : Nat) : State :=
  match s.running p with
  | none => s.tryRun p 63
  | some (cid, c) =>
    if s.allYielded p && c.expired && !(s.part p).loading && (s.diesOf p).all (fun d => (s.die d).pipesDone) then
      let left := (s.diesOf p).any (fun d => decide (0 < (s.die d).tokens))
      let s1 := s.saveCtx p cid
      let s2 := s1.setPart p { s1.part p with run := none }
      let s3 := if left then s2.ctxEvent 0x2154 p cid 0 0 else s2
      match (s3.part p).nextReady cid with
      | some n => s3.runCtx p n
      | none => s3
    else s

-- The meanings --------------------------------------------------------------------------------------------------------

/-- TOKEN_DEPART (spec/08 R221). -/
def execTokenDepart (die place lane : Nat) (s : State) : Host.Outcome State Fault Refusal :=
  guard (Instr.tokenDepart die place lane).wf (s.depart die place lane)
/-- TOKEN_ARRIVE (spec/08 R223). -/
def execTokenArrive (die place lane : Nat) (tok : Token) (sideband payload : Ecc) (s : State) : Host.Outcome State Fault Refusal :=
  guard (Instr.tokenArrive die place lane tok sideband payload).wf (s.arrive die place lane tok sideband payload)
/-- CREDIT_RETURN (spec/08 R221). -/
def execCreditReturn (die place lane : Nat) (s : State) : Host.Outcome State Fault Refusal :=
  guard (Instr.creditReturn die place lane).wf (s.creditBack die place lane)
/-- TLOAD (spec/08 R229). -/
def execTload (die place : Nat) (slot : BitVec 3) (addr : BitVec 36) (s : State) : Host.Outcome State Fault Refusal :=
  guard (Instr.tload die place slot addr).wf (s.tload die place slot.toNat addr.toNat)
/-- TLOAD_COMPLETE (spec/08 R229). -/
def execTloadComplete (die place : Nat) (slot : BitVec 3) (s : State) : Host.Outcome State Fault Refusal :=
  guard (Instr.tloadComplete die place slot).wf (s.tloadDone die place slot.toNat)
/-- TURN_SWITCH (spec/08 R228). -/
def execTurnSwitch (die place : Nat) (s : State) : Host.Outcome State Fault Refusal :=
  guard (Instr.turnSwitch die place).wf (s.turnSwitch die place)
/-- PLACE_START (spec/08 R236). -/
def execPlaceStart (die : Nat) (s : State) : Host.Outcome State Fault Refusal := guard (Instr.placeStart die).wf (s.placeStart die)
/-- DRAINED_REPORT (spec/08 R244). -/
def execDrainedReport (die : Nat) (s : State) : Host.Outcome State Fault Refusal :=
  guard (Instr.drainedReport die).wf (s.drainedReport die)
/-- DRAIN_FORCED (spec/08 R244). -/
def execDrainForced (part : Nat) (s : State) : Host.Outcome State Fault Refusal := guard (Instr.drainForced part).wf (s.drainForced part)
/-- WATCHDOG_IDLE (spec/08 R249). -/
def execWatchdogIdle (die : Nat) (s : State) : Host.Outcome State Fault Refusal := guard (Instr.watchdogIdle die).wf (s.watchdogIdle die)
/-- QUANTUM_EXPIRE (spec/08 R252). -/
def execQuantumExpire (part : Nat) (s : State) : Host.Outcome State Fault Refusal :=
  guard (Instr.quantumExpire part).wf (s.quantumExpire part)
/-- CONTEXT_SWITCH (spec/08 R253). -/
def execContextSwitch (part : Nat) (s : State) : Host.Outcome State Fault Refusal :=
  guard (Instr.contextSwitch part).wf (s.contextSwitch part)

end Sys2Proof.Machine
end

