-- ==== Sys2Proof/Machine/Sched.lean ====
section
/-! DEFINITION. Landing checks, the DMA issue list, the snapshot and match registers, and the evaluation of slow dies (spec/09 R262-R276,
spec/10 R291-R294). -/

namespace Sys2Proof.Machine

/-- Error check of table words (spec/09 R266, spec/10 R293): an uncorrectable one fails the job with 0x2157. -/
def State.tabCheck (s : State) (d off n : Nat) : State × Bool :=
  let c := ((s.die d).tabErr.filter (fun e => decide (off / 8 ≤ e.1) && decide (e.1 < (off + n) / 8))).foldl (fun (st : State × Bool) e =>
    let j := (eccJudge e.2, st.1)
    match j.1 with
    | .bad => (j.2, true)
    | .altered k v => (j.2.modDie d (fun y => { y with tabs := flipBytes y.tabs (8 * e.1) 8 v, tabErr := eccLeft y.tabErr e.1 k }), st.2)
    | _ => (j.2, st.2)) (s, false)
  if c.2 then (c.1.raise d 0x2157 (unitDie d) 0, true) else c

-- Landing checks (spec/09 R262-R266) ------------------------------------------------------------------------------------

/-- Tags of the checks that share the CYCLE of the next unread one. -/
def Die.landGroup (x : Die) : List Nat :=
  let c := x.landCheck x.landPtr
  if c.1 then
    ((List.range (4096 - x.landPtr)).map (fun i => x.landCheck (x.landPtr + i))).takeWhile (fun e => e.1 && decide (e.2.1 = c.2.1))
      |>.map (fun e => e.2.2)
  else []

/-- The test of the checks due (spec/09 R262): with every flag set they are cleared and the die proceeds; else it is late. Checks that cannot be
read have failed the job (R266); the die does not read them again (log entry 80). -/
def State.landTest (s : State) (d : Nat) : State :=
  if s.coreOn d && s.landDue d then
    let g := (s.die d).landGroup
    let c := s.tabCheck d (landBase + 16 * (s.die d).landPtr) (16 * g.length)
    if c.2 then c.1.modDie d (fun x => { x with landPtr := x.landPtr + g.length, landLate := false })
    else
      let x := c.1.die d
      let unmet := g.filter (fun t => !sget false x.flags t)
      if unmet = [] then
        c.1.setDie d { x with flags := g.foldl (fun f t => serase f t) x.flags, landPtr := x.landPtr + g.length, landLate := false }
      else if x.landLate then c.1
      else (c.1.setDie d { x with landLate := true }).bumpErr d CD_LAND_LATE CD_SCH_STATUS 30 unmet.length
  else s

/-- A completion of a landing tag reaches its die (spec/09 R262, R263). -/
def State.landIn (s : State) (d tag : Nat) : State :=
  if sget false (s.die d).flags tag then s.bumpErr d CD_LAND_DUP CD_SCH_STATUS 29 1
  else s.modDie d (fun x => { x with flags := sput x.flags tag true })

-- DMA issue (spec/10 R291-R294) -----------------------------------------------------------------------------------------

/-- A DMA descriptor in 64 bytes (spec/10 R291). -/
def descOf (bs : List Byte) : DmaDesc :=
  let b := leVal bs
  { op := BitVec.ofNat 2 b, twoD := b.testBit 2, land := b.testBit 3, ldir := b.testBit 4, length := BitVec.ofNat 32 (b >>> 32),
    src := BitVec.ofNat 64 (b >>> 64), dst := BitVec.ofNat 64 (b >>> 128), rowsM1 := BitVec.ofNat 32 (b >>> 192),
    pattern := BitVec.ofNat 32 (b >>> 224), sstride := BitVec.ofNat 64 (b >>> 256), dstride := BitVec.ofNat 64 (b >>> 320),
    tag := BitVec.ofNat 12 (b >>> 384), lsite := BitVec.ofNat 9 (b >>> 396),
    rsv := decide (bits b 31 5 ≠ 0 ∨ bits b 415 405 ≠ 0 ∨ bits b 447 416 ≠ 0) }

/-- Entry k of the DMA issue list: V, CYCLE, DESC, MD. -/
def Die.dmaEntry (x : Die) (k : Nat) : Bool × Nat × Nat × Nat :=
  let w0 := x.tabWord (dmaListBase + 16 * k)
  let w1 := x.tabWord (dmaListBase + 16 * k + 8)
  (decide (k < 4096) && w1.testBit 19, bits w0 47 0, bits w1 11 0, bits w1 18 12)

/-- The next entry of the issue list is due at the present nominal cycle. -/
def State.dmaDue (s : State) (d : Nat) : Bool :=
  let e := (s.die d).dmaEntry (s.die d).dmaPtr
  e.1 && decide (e.2.1 ≤ s.rg d CD_SCH_NOMINAL % 2 ^ 48)

/-- Sends the descriptor of the entry due to its memory die (spec/10 R294). The die itself rejects one that names a memory die outside
the partition or a fenced one (R292): its flag is set and the job fails with 0x2202 (spec/09 R265). -/
def State.dmaSend (s : State) (d : Nat) : State :=
  if s.coreOn d && s.dmaDue d then
    let x := s.die d
    let e := x.dmaEntry x.dmaPtr
    let off := dmaTableBase + 64 * e.2.2.1
    let c1 := s.tabCheck d (dmaListBase + 16 * x.dmaPtr) 16
    let c := if c1.2 then c1 else c1.1.tabCheck d off 64
    let s1 := c.1.modDie d (fun y => { y with dmaPtr := y.dmaPtr + 1 })
    if c.2 then s1
    else
      let dd := descOf (readBytes x.tabs off 64)
      let m := e.2.2.2
      if s1.partOfRegion (m / 8) = s1.partOfNode d ∧ s1.mdOn m then
        s1.setPcd (fun p => { p with descs := p.descs ++ [(m, .sched d, dd)] })
      else
        let s2 := if dd.land then s1.modDie d (fun y => { y with flags := sput y.flags dd.tag.toNat true }) else s1
        s2.raise d 0x2202 (unitDie d) 0
  else s

-- Snapshot and match (spec/09 R271, R272) ------------------------------------------------------------------------------

/-- A source that may write CD.SCH_CTRL and CD.SCH_MATCH (spec/09 R276). -/
def Source.schedOk : Source → Bool
  | .mgmt => false
  | _ => true

/-- A snapshot on a die (spec/09 R271). -/
def State.snapOn (s : State) (src : Source) (v : Nat) (d : Nat) : State :=
  if Source.schedOk src && v.testBit 0 then
    ((schedRegs.zipIdx.map (fun e => (e.2, s.rg d e.1))).foldl (fun t e => t.setRg d (CD_SCH_SNAP e.1) e.2) s).setRgB d CD_SCH_STATUS 2 true
  else s
/-- A write to CD.SCH_CTRL. -/
def State.snapshot (s : State) (src : Source) (site : Nat) (v : W32) : State := s.atSite src site (fun s d => s.snapOn src v.toNat d)

/-- A match armed on a die (spec/09 R272). -/
def State.matchOn (s : State) (src : Source) (v : Nat) (d : Nat) : State :=
  if Source.schedOk src then
    ((s.setRg d CD_SCH_MATCH (v &&& 0xFC00FFFFFFFFFFFF)).setRg d CD_SCH_MATCH_RES 0).setRg d CD_SCH_MATCH_ENTRY 0
  else s
/-- A write to CD.SCH_MATCH. -/
def State.matchArm (s : State) (src : Source) (site : Nat) (v : W64) : State := s.atSite src site (fun s d => s.matchOn src v.toNat d)

/-- The nominal cycle has passed the armed one, or the counters have stopped (spec/09 R272). -/
def State.matchDone (s : State) (d : Nat) : State :=
  if s.coreOn d && s.rgB d CD_SCH_MATCH 63 &&
      (!(s.die d).inPhase || decide (s.rgF d CD_SCH_MATCH 47 0 < s.rg d CD_SCH_NOMINAL % 2 ^ 48)) then
    s.setRgB d CD_SCH_MATCH_RES 63 true
  else s

/-- An issue of a place in the cycle that the match names (spec/09 R272): the first in table order is recorded. -/
def State.matchHit (s : State) (d p idx : Nat) : State :=
  if s.rgB d CD_SCH_MATCH 63 && decide (s.rgF d CD_SCH_MATCH 62 58 = p) && decide (s.rgF d CD_SCH_MATCH 47 0 = s.rg d CD_SCH_NOMINAL % 2 ^ 48) &&
      !s.rgB d CD_SCH_MATCH_RES 62 then
    ((s.setRgB d CD_SCH_MATCH_RES 62 true).setRgF d CD_SCH_MATCH_RES 47 0 (s.rg d CD_SCH_ELAPSED % 2 ^ 48)).setRg d CD_SCH_MATCH_ENTRY
      ((s.place d p).slot * 2 ^ 16 + idx)
  else s

-- Slow dies (spec/09 R274) -----------------------------------------------------------------------------------------------

/-- One interval's evaluation of a die (spec/09 R274); an interval in which it was stopped for more than half is not evaluated. -/
def State.slowEval (s : State) (p d : Nat) : State :=
  let x := s.die d
  let now := slowRegs.map (fun r => s.rg d r % 2 ^ 48)
  let dl := now.zipIdx.map (fun e => wrapSub 48 e.1 ((x.lastCnt[e.2]?).getD 0))
  let at' := fun k => (dl[k]?).getD 0
  let s0 := s.modDie d (fun y => { y with lastCnt := now })
  if 2 * at' 5 < 100000000 * (25 - (s.part p).step) then s0
  else
    let slow := match s.pcd.conf with | some c => c.slowPpm | none => 50
    let late := match s.pcd.conf with | some c => c.latePpm | none => 100
    let sc := if slow * at' 5 < (at' 1 + at' 2) * 10000 then x.slowCnt + 1 else 0
    let lc := if late * at' 5 < at' 3 * 10000 then x.lateCnt + 1 else 0
    let s1 := s0.modDie d (fun y => { y with slowCnt := if sc = 3 then 0 else sc, lateCnt := if lc = 3 then 0 else lc })
    let data := leVal ((dl.take 5).flatMap (fun v => leBytes 6 v))
    let s2 := if sc = 3 then (s1.pcdEvent 0x1150 p (unitDie d) data).knot (unitDie d) 3 else s1
    if lc = 3 then s2.pcdEvent 0x1151 p (unitDie d) data else s2

/-- SLOW_DIE_EVAL: every compute die in use. -/
def State.slowAll (s : State) : State :=
  (List.range 16).foldl (fun t p => (t.diesOf p).foldl (fun u d => if u.coreOn d then u.slowEval p d else u) t) s

-- The meanings --------------------------------------------------------------------------------------------------------

/-- LANDING_CHECK (spec/09 R262). -/
def execLandingCheck (die : Nat) (s : State) : Host.Outcome State Fault Refusal := guard (Instr.landingCheck die).wf (s.landTest die)
/-- SCH_SNAPSHOT (spec/09 R271). -/
def execSchSnapshot (src : Source) (site : Nat) (val : W32) (s : State) : Host.Outcome State Fault Refusal :=
  guard (Instr.schSnapshot src site val).wf (s.snapshot src site val)
/-- SCH_MATCH_ARM (spec/09 R272). -/
def execSchMatchArm (src : Source) (site : Nat) (val : W64) (s : State) : Host.Outcome State Fault Refusal :=
  guard (Instr.schMatchArm src site val).wf (s.matchArm src site val)
/-- SCH_MATCH_RESOLVE (spec/09 R272). -/
def execSchMatchResolve (die : Nat) (s : State) : Host.Outcome State Fault Refusal :=
  guard (Instr.schMatchResolve die).wf (s.matchDone die)
/-- SLOW_DIE_EVAL (spec/09 R274). -/
def execSlowDieEval (s : State) : Host.Outcome State Fault Refusal := guard Instr.slowDieEval.wf s.slowAll
/-- DMA_ISSUE (spec/10 R294). -/
def execDmaIssue (die : Nat) (s : State) : Host.Outcome State Fault Refusal := guard (Instr.dmaIssue die).wf (s.dmaSend die)

end Sys2Proof.Machine
end

