-- ==== Sys2Proof/Machine/MemDie.lean ====
section
/-! DEFINITION. Memory dies: DMA items, transactions and their tracker entries, the dynamic packets that carry them, the patrol, the
failure of a stack, the bandwidth cap and the HBM scrub (spec/10 R284-R310, spec/11 R327, R328). -/

namespace Sys2Proof.Machine

-- Descriptors (spec/10 R284, R291, R292) -------------------------------------------------------------------------------

/-- A panel address names partition HBM (spec/00 R15). -/
def isHbm (a : Nat) : Bool := decide (a < 0x4000000000000000)

/-- Site window that an address lies in, and the offset in it. -/
def windowOf (a : Nat) : Nat × Nat := ((a - 0x4000000000000000) / 2 ^ 32, a % 2 ^ 32)

/-- Rows of an item: source and destination address of each (spec/10 R291). -/
def dmaRows (d : DmaDesc) : List (Nat × Nat) :=
  (List.range (d.rowsM1.toNat + 1)).map (fun k =>
    (toTwos 64 ((d.src.toNat : Int) + k * d.sstride.toInt), toTwos 64 ((d.dst.toNat : Int) + k * d.dstride.toInt)))

/-- Offset from an address to the boundary at which an item is split: the HBM page, or the 4 KiB block of scratchpad addresses when the
item touches no HBM (spec/10 R284). -/
def splitAt (hbm : Bool) (a n : Nat) : Nat := if isHbm a == hbm then min n (4096 - a % 4096) else n

/-- Transactions of one row from item byte `off`. -/
def splitRow (hbm fill : Bool) : Nat → Nat → Nat → Nat → Nat → List Tx
  | 0, _, _, _, _ => []
  | fuel + 1, off, a, b, n =>
    if n = 0 then []
    else
      let k := min (if fill then n else splitAt hbm a n) (splitAt hbm b n)
      { off := off, len := k, src := if fill then none else some a, dst := b, st := .waiting, rd := false, doom := 0 } ::
        splitRow hbm fill fuel (off + k) (a + k) (b + k) (n - k)

/-- The item touches HBM, in any row. -/
def dmaTouches (d : DmaDesc) : Bool := (dmaRows d).any (fun r => (decide (d.op = 0#2) && isHbm r.1) || isHbm r.2)

/-- Transactions of an item, in ascending order of item byte. -/
def dmaTxs (d : DmaDesc) : List Tx :=
  let n := d.length.toNat
  ((dmaRows d).zipIdx).flatMap (fun r => splitRow (dmaTouches d) (decide (d.op = 1#2)) (n / 2048 + 4) (n * r.2) r.1.1 r.1.2 n)

/-- Every byte of a range lies in backed HBM of the partition or in the scratchpad of one of its sites (spec/10 R292). A TLOAD's destination
is its slot of turn memory (spec/08 R229). -/
def State.dmaRange (s : State) (p : Nat) (turn : Bool) (a n : Nat) : Bool :=
  if isHbm a then decide (a + n ≤ s.hbmSize p)
  else
    let w := windowOf a
    decide (w.1 < 512) && decide (s.partOfSite w.1 = some p) && (s.siteNode w.1).isSome &&
      (if turn then decide (0x20000000 ≤ w.2) && decide (w.2 + n ≤ 0x20190000) else decide (w.2 + n ≤ s.spadSize))

/-- A descriptor is accepted (spec/10 R292). -/
def State.descOk (s : State) (p : Nat) (o : Origin) (d : DmaDesc) : Bool :=
  let n := d.length.toNat
  let tl := match o with | .tload _ _ _ => true | _ => false
  decide (d.op.toNat ≤ 1) && !d.rsv && decide (0 < n) && (d.twoD || decide (d.rowsM1 = 0#32)) &&
    (!d.land || (decide (s.partOfSite d.lsite.toNat = some p) && (s.siteNode d.lsite.toNat).isSome)) &&
    (dmaRows d).all (fun r => (decide (d.op = 1#2) || s.dmaRange p false r.1 n) && s.dmaRange p tl r.2 n)

/-- Tracker class of an item (spec/10 R285). -/
def originCls : Origin → Nat
  | .sched _ => 0
  | .tload _ _ _ => 0
  | _ => 2

-- Transactions (spec/10 R284-R289) --------------------------------------------------------------------------------------

/-- Tracker entries of a class: first TXID and count (spec/10 R285). -/
def trkBase (cls : Nat) : Nat := if cls = 0 then 0 else if cls = 1 then 1024 else 1536
def trkCount (cls : Nat) : Nat := if cls = 0 then 1024 else 512

/-- The lowest free entry of a class among the memory die's own items; one whose late reply is still to be discarded only after the others
(spec/10 R287; log entry 12). -/
def Mdie.freeTx (x : Mdie) (cls : Nat) : Option Nat :=
  let free := ((List.range' 0 (trkCount cls)).map (fun k => trkBase cls + k)).filter (fun t => (sfind x.trk t).isNone)
  (free.find? (fun t => !x.lostTx.contains t)).or free.head?

/-- An item of a memory die. -/
def State.dmaItem (s : State) (m id : Nat) : Option Item := (s.md m).items.find? (fun i => decide (i.id = id))

/-- Releases a tracker entry. -/
def State.freeTrk (s : State) (m txid : Nat) : State := s.setMd m { s.md m with trk := serase (s.md m).trk txid }

/-- The tag of an outbound item completes when its last byte has been read (spec/10 R291). -/
def State.landRead (s : State) (m id : Nat) : State :=
  match s.dmaItem m id with
  | some i =>
    if i.desc.land && i.desc.ldir && !i.landed && !i.ended && i.txs.all (fun t => t.rd) then
      (s.setMd m { s.md m with items := (s.md m).items.map (fun j => if j.id = id then { j with landed := true } else j) }).sendLand m
        i.desc.tag.toNat true i.desc.lsite.toNat
    else s
  | none => s

/-- Transaction k of an item ends. -/
def State.txEnd (s : State) (m id k txid : Nat) (st : TxSt) : State :=
  (s.modTx m id k (fun t => { t with st := if t.doom = 0 then st else .failed t.doom })).freeTrk m txid

/-- Sends a request packet of a transaction to a stack or to a site. -/
def State.txSend (s : State) (m ty txid a len : Nat) (bs : List Byte) : State :=
  let p := s.partOfMd m
  if isHbm a then
    match s.hbmMap p a with
    | some (q, loc) => s.inject (mkPkt ty p (epMd q) (epMd m) txid 0 loc 0 len bs)
    | none => s
  else
    match s.siteNode (windowOf a).1 with
    | some d => s.inject (mkPkt ty p (epSite d) (epMd m) txid 0 (windowOf a).2 0 len bs)
    | none => s

/-- The memory die whose stack holds an address cannot be reached: it is fenced or off (spec/10 R305). -/
def State.txDead (s : State) (m a : Nat) : Bool :=
  isHbm a && (match s.hbmMap (s.partOfMd m) a with
    | some (q, _) => !s.mdOn q
    | none => true)

/-- The bytes of a transaction go to its destination: the die's own stack at once, elsewhere in a WRITE packet. -/
def State.txWrite (s : State) (m id k txid : Nat) (t : Tx) (bs : List Byte) : State :=
  let s1 := (s.modTx m id k (fun t => { t with rd := true })).landRead m id
  if s1.txDead m t.dst then s1.txEnd m id k txid (.failed 7)
  else if isHbm t.dst && s1.keptRange (s.partOfMd m) t.dst bs.length then (s1.keptTally (s.partOfMd m) t.dst).txEnd m id k txid .ok
  else
    match (if isHbm t.dst then s1.hbmMap (s.partOfMd m) t.dst else none) with
    | some (q, loc) =>
      if q = m then
        let w := s1.stackWrite m loc bs
        w.1.txEnd m id k txid (if w.2 then .failed 2 else .ok)
      else s1.txSend m 1 txid t.dst bs.length bs
    | none => s1.txSend m 1 txid t.dst bs.length bs

/-- Bytes of a FILL from a destination address (spec/10 R291). -/
def fillBytes (pattern : BitVec 32) (a n : Nat) : List Byte :=
  (List.range n).map (fun i => BitVec.ofNat 8 (pattern.toNat >>> (8 * ((a + i) % 4))))

/-- Part of a transaction lies on a page that is being scrubbed (spec/10 R309). -/
def State.txScrubbed (s : State) (m : Nat) (t : Tx) : Bool :=
  let p := s.partOfMd m
  (match t.src with | some a => isHbm a && s.scrubHits p a t.len | none => false) || (isHbm t.dst && s.scrubHits p t.dst t.len)

/-- Issues transaction k of an item with a tracker entry (spec/10 R284-R286, R309). -/
def State.txIssue (s : State) (m : Nat) (i : Item) (k : Nat) (t : Tx) (txid : Nat) : State :=
  if s.txScrubbed m t then s.modTx m i.id k (fun t => { t with st := .failed 6 })
  else
    let s1 := (s.modTx m i.id k (fun t => { t with st := .issued })).setMd m
      (let x := (s.modTx m i.id k (fun t => { t with st := .issued })).md m
       { x with trk := sput x.trk txid { item := i.id, tx := k, cls := i.cls }, lostTx := x.lostTx.filter (fun t => decide (t ≠ txid)) })
    match t.src with
    | none => s1.txWrite m i.id k txid t (fillBytes i.desc.pattern t.dst t.len)
    | some a =>
      if s1.txDead m a then s1.txEnd m i.id k txid (.failed 7)
      else if isHbm a && s1.keptRange (s.partOfMd m) a t.len then
        (s1.keptTally (s.partOfMd m) a).txWrite m i.id k txid t (List.replicate t.len 0#8)
      else
        match (if isHbm a then s1.hbmMap (s.partOfMd m) a else none) with
        | some (q, loc) =>
          if q = m then
            let r := s1.stackRead m loc t.len
            if r.2.1 then r.1.txEnd m i.id k txid (.failed 2) else r.1.txWrite m i.id k txid t r.2.2
          else s1.txSend m 0 txid a t.len []
        | none => s1.txSend m 0 txid a t.len []

/-- The first waiting transaction of a class on a memory die: items in the order of their arrival. -/
def Mdie.nextTx (x : Mdie) (cls : Nat) : Option (Item × Nat × Tx) :=
  x.items.foldl (fun (a : Option (Item × Nat × Tx)) i =>
    match a with
    | some r => some r
    | none =>
      if i.cls = cls ∧ i.ended = false then
        (i.txs.zipIdx.find? (fun e => decide (e.1.st = .waiting))).map (fun e => (i, e.2, e.1))
      else none) none

/-- An item that is over is reported; then contexts that end may have nothing in flight any more (spec/10 R295, R297, spec/13 R396). -/
def State.itemCheck (s : State) (m id : Nat) : State :=
  match s.dmaItem m id with
  | some i => if i.over then (s.itemFinish m id).settle (s.partOfMd m) else s
  | none => s

/-- A waiting transaction of a class obtains an entry and issues (spec/10 R286); a die in a local hold issues nothing (spec/14 R416). -/
def State.txGrant (s : State) (m cls : Nat) : State :=
  if (s.md m).holdAt.isSome then s
  else match (s.md m).nextTx cls, (s.md m).freeTx cls with
    | some (i, k, t), some txid => s.txIssue m i k t txid
    | _, _ => s

/-- Issues up to n waiting transactions of a class. -/
def State.txGrants (s : State) (m cls : Nat) : Nat → State
  | 0 => s
  | n + 1 => (s.txGrant m cls).txGrants m cls n

/-- TRACKER_ENTRY_GRANT. An item whose transactions then are all over is reported. -/
def State.trkGrant (s : State) (m cls : Nat) : State :=
  if s.mdOn m then
    match (s.md m).nextTx cls with
    | some (i, _, _) => (s.txGrant m cls).itemCheck m i.id
    | none => s
  else s

/-- A packet that fails the check of its destination endpoint is discarded and counted at the router where it ejects (spec/11 R328). -/
def State.e2eDrop (s : State) (n : Nat) : State :=
  s.bumpErr (nodeRs ((regionOfNode n).getD 0)) (RS_RT_E2E (coreBit n)) (RS_RT_STATUS (coreBit n)) 28 1

-- DESC (spec/10 R291, R292) ---------------------------------------------------------------------------------------------

/-- Removes the first descriptor that waits for a memory die from an origin. -/
def dropDesc (m : Nat) (o : Origin) : List (Nat × Origin × DmaDesc) → List (Nat × Origin × DmaDesc)
  | [] => []
  | x :: r => if x.1 = m ∧ x.2.1 = o then r else x :: dropDesc m o r

/-- A memory die takes a descriptor: an item, split and issued as far as entries are free; or a rejection (spec/10 R284, R292). -/
def State.descTake (s : State) (m : Nat) (o : Origin) (d : DmaDesc) : State :=
  let p := s.partOfMd m
  let x := s.md m
  let ok := s.descOk p o d
  let bad : List Tx := [{ off := 0, len := 0, src := none, dst := 0, st := .failed 1, rd := false, doom := 0 }]
  let i : Item := { id := x.nextItem, origin := o, desc := d, cls := originCls o, job := s.itemJob p o, txs := if ok then dmaTxs d else bad,
                    ended := false, landed := false }
  let s1 := s.setMd m { x with items := x.items ++ [i], nextItem := x.nextItem + 1 }
  let s2 := match o with
    | .hostItem k q => s1.modItem k q (fun w => { w with item := some (m, i.id) })
    | _ => s1
  if ok then (s2.txGrants m i.cls i.txs.length).itemCheck m i.id
  else (s2.bumpErr (nodeMd m) MD_DESC_REJECT MD_STATUS 28 1).itemFinish m i.id

/-- Partition of the unit that sent a descriptor. -/
def State.partOfOrigin (s : State) (o : Origin) : Option Nat :=
  match o with
  | .sched d => s.partOfNode d
  | .fxdma d _ _ => s.partOfNode d
  | .tload d _ _ => s.partOfNode d
  | .hostItem k _ => some (k / 8)

/-- DESC: one of another partition fails the packet's PART check (spec/10 R278, spec/11 R328); one that has been ended is not taken (spec/10
R297); the descriptor of an FX.DMA is read from HBM first (spec/10 R292). -/
def State.descIn (s : State) (m : Nat) (o : Origin) (d : DmaDesc) : State :=
  let s0 := s.setPcd (fun p => { p with descs := dropDesc m o p.descs })
  if s.mdOn m && decide (s.partOfOrigin o ≠ s.partOfRegion (m / 8)) then s0.e2eDrop (s.mdAttach m)
  else if s.pcd.descsOff.contains (m, o) then s0.setPcd (fun p => { p with descsOff := p.descsOff.erase (m, o) })
  else if s.mdOn m then
    match o with
    | .fxdma die tk a =>
      if s0.hbmSize (s.partOfMd m) < a + 64 then
        (s0.bumpErr (nodeMd m) MD_DESC_REJECT MD_STATUS 28 1).sendDone m die tk false 0 0 1
      else
        let r := s0.hbmRead (s.partOfMd m) a 64
        if r.2.1 = 0 then r.1.descTake m o (descOf r.2.2)
        else if r.2.1 = 2 then
          (r.1.sendDone m die tk false 0 0 2).raise (nodeMd m) 0x2200 (unitStack m) (jobMark (s.itemJob (s.partOfMd m) o))
        else (r.1.sendDone m die tk false 0 0 4).raise (nodeMd m) 0x2203 (unitStack m) (jobMark (s.itemJob (s.partOfMd m) o))
    | _ => s0.descTake m o d
  else s0

-- Packets (spec/11 R327, R328) ------------------------------------------------------------------------------------------

/-- Partition of an endpoint's die. -/
def State.partOfEp (s : State) (e : Nat) : Option Nat :=
  if epKind e = 0 then s.partOfNode (epId e) else if epKind e = 1 then s.partOfRegion (epId e / 8)
  else if epKind e = 2 then s.partOfRegion (epId e) else none

/-- The endpoint is powered. -/
def State.epOn (s : State) (e : Nat) : Bool :=
  if epKind e = 0 then s.coreOn (epId e) else if epKind e = 1 then s.mdOn (epId e) else if epKind e = 2 then s.fdOn (epId e) else false

/-- Takes a packet equal to p off the mesh, where one is under way: this arrival is its. -/
def State.netDrop (s : State) (p : DynPkt) : State :=
  match s.pcd.net.find? (fun e => e.2.contains p) with
  | some e => s.setPcd (fun q => { q with net := nput [] q.net e.1 (e.2.erase p) })
  | none => s

/-- A packet arrives at its destination endpoint, which checks ECRC, PART and TYPE (spec/11 R328): a packet that fails is discarded and
counted at the router where it ejects. -/
def State.pktIn (s : State) (p : DynPkt) (types : List Nat) (f : State → State) : State :=
  let s0 := s.netDrop p
  let e := p.dst.toNat
  if s.epOn e then
    if p.ecrcOk && decide (s.partOfEp e = some p.part.toNat) && types.contains p.ptype.toNat then f s0
    else s0.e2eDrop (s.epRouter e p.src.toNat)
  else s0

/-- The scratchpad to which data read from a stack for a memory die's transaction travels straight: its die and offset (spec/10 R284). -/
def State.straightTo (s : State) (p : DynPkt) : Option (Nat × Nat) :=
  if epKind p.src.toNat = 1 then
    match sfind (s.md (epId p.src.toNat)).trk p.txid.toNat with
    | some t => match (s.dmaItem (epId p.src.toNat) t.item).bind (fun i => i.txs[t.tx]?) with
      | some x => if isHbm x.dst then none else (s.siteNode (windowOf x.dst).1).map (fun d => (d, (windowOf x.dst).2))
      | none => none
    | none => none
  else none

/-- A page of the stack-local range of a memory die is being scrubbed. -/
def State.stackScrubs (s : State) (m loc n : Nat) : Bool :=
  (pagePieces loc n).any (fun q => s.scrubHits (s.partOfMd m) (s.hbmUnmap (s.partOfMd m) m q.1) q.2)

/-- READ at a stack or a scratchpad: the reply carries the data; STATUS 1 uncorrectable, 2 rejected (spec/11 R327). Data of a stack bound for a
scratchpad goes there in a WRITE that the scratchpad acknowledges to the memory die executing the item (spec/10 R284; log entry 12). A page
being scrubbed fails the transaction with status 6 (spec/10 R309). -/
def State.readIn (s : State) (p : DynPkt) : State :=
  s.pktIn p [0] (fun s =>
    let e := p.dst.toNat
    let a := p.addr.toNat
    if epKind e = 1 then
      if s.stackScrubs (epId e) a p.len then (s.doomTx p 6).inject (p.reply 2 2 [])
      else if a + p.len ≤ stackBytes then
        let r := s.stackRead (epId e) a p.len
        if r.2.1 then r.1.inject (p.reply 2 1 [])
        else match s.straightTo p with
          | some (d, off) => r.1.injectAt (s.mdAttach (epId e)) (mkPkt 1 p.part.toNat (epSite d) p.src.toNat p.txid.toNat 0 off 0 p.len r.2.2)
          | none => r.1.inject (p.reply 2 0 r.2.2)
      else s.inject (p.reply 2 2 [])
    else if epKind e = 0 then
      let d := epId e
      if a + p.len ≤ s.spadSize then s.dynAsk d (spadReq 0 a p.len none none false (some p))
      else s.inject (p.reply 2 2 [])
    else s.inject (p.reply 2 2 []))

/-- WRITE at a stack, a scratchpad or a slot of turn memory (spec/11 R327, spec/08 R229). -/
def State.writeIn (s : State) (p : DynPkt) : State :=
  s.pktIn p [1] (fun s =>
    let e := p.dst.toNat
    let a := p.addr.toNat
    let n := p.payload.length
    if epKind e = 1 then
      if s.stackScrubs (epId e) a n then (s.doomTx p 6).inject (p.reply 3 2 [])
      else if a + n ≤ stackBytes then
        let w := s.stackWrite (epId e) a p.payload
        w.1.inject (p.reply 3 (if w.2 then 1 else 0) [])
      else s.inject (p.reply 3 2 [])
    else if epKind e = 0 then
      let d := epId e
      if a + n ≤ s.spadSize then s.dynAsk d (spadReq 0 a n (some p.payload) none false (some p))
      else if 0x20000000 ≤ a ∧ a + n ≤ 0x20190000 then
        let pl := (a - 0x20000000) / 0x10000
        let o := a % 0x10000
        (s.modPlace d pl (fun x => { x with mem := writeBytes x.mem o p.payload,
                                            memErr := dropKeys x.memErr (o / 8) ((o + n + 7) / 8) })).inject (p.reply 3 0 [])
      else s.inject (p.reply 3 2 [])
    else s.inject (p.reply 3 2 []))

/-- Item status of a reply's STATUS: uncorrectable data of a stack is 2, of a scratchpad 3; a rejection 1. -/
def replyFail (p : DynPkt) : Nat := if p.status.toNat = 2 then 1 else if epKind p.src.toNat = 0 then 3 else 2

/-- The transaction that a reply to a memory die completes; none for one that comes after its transaction timed out (spec/10 R287). -/
def State.trkOf (s : State) (p : DynPkt) : Option (Nat × Trk × Item × Tx) :=
  let m := epId p.dst.toNat
  if epKind p.dst.toNat = 1 ∧ (s.md m).lostTx.contains p.txid.toNat = false then
    match sfind (s.md m).trk p.txid.toNat with
    | some t => match s.dmaItem m t.item with
      | some i => (i.txs[t.tx]?).map (fun x => (m, t, i, x))
      | none => none
    | none => none
  else none

/-- A reply that comes too late is discarded (spec/10 R287). -/
def State.lateReply (s : State) (p : DynPkt) : State :=
  if epKind p.dst.toNat = 1 then
    let x := s.md (epId p.dst.toNat)
    if x.lostTx.contains p.txid.toNat then s.setMd (epId p.dst.toNat) { x with lostTx := x.lostTx.filter (fun t => decide (t ≠ p.txid.toNat)) } else s
  else s

/-- READ_DATA (spec/10 R285, R287): the transaction goes on with its data, or fails. A reply to no entry is discarded. -/
def State.readDataIn (s : State) (p : DynPkt) : State :=
  s.pktIn p [2] (fun s =>
    match s.trkOf p with
    | some (m, t, i, x) =>
      (if p.status = 0#3 then (if x.doom = 0 then s.txWrite m i.id t.tx p.txid.toNat x p.payload else s.txEnd m i.id t.tx p.txid.toNat .ok)
       else s.txEnd m i.id t.tx p.txid.toNat (.failed (replyFail p))).itemCheck m i.id
    | none => s.lateReply p)

/-- WRITE_ACK (spec/10 R285, R295). -/
def State.writeAckIn (s : State) (p : DynPkt) : State :=
  s.pktIn p [3] (fun s =>
    match s.trkOf p with
    | some (m, t, i, _) =>
      (s.txEnd m i.id t.tx p.txid.toNat (if p.status = 0#3 then .ok else .failed (replyFail p))).itemCheck m i.id
    | none => s.lateReply p)

/-- LAND (spec/09 R262, R263): the tag's flag is set; a duplicate is discarded and counted. -/
def State.landPkt (s : State) (p : DynPkt) : State :=
  s.pktIn p [5] (fun s => if epKind p.dst.toNat = 0 then s.landIn (epId p.dst.toNat) (bits p.aux.toNat 11 0) else s)

/-- An S-core held by a ticket that has ended goes on (spec/10 R296). -/
def State.fxRelease (s : State) (d : Nat) : State :=
  (List.range 4).foldl (fun t c =>
    match (t.sc d c).fxHold with
    | some (rd, a, m) =>
      if sfind (t.die d).tickets (ticketBack (t.die d).ticketNext 1024) = some 0 then t else t.fxDmaGo d c rd a m
    | none => t) s

/-- A ticket ends: complete, or failed (spec/10 R296). -/
def State.ticketEnd (s : State) (d tk st : Nat) : State :=
  match sfind (s.die d).tickets tk with
  | some _ => (s.modDie d (fun x => { x with tickets := sput x.tickets tk (if st = 0 then 1 else 2) })).fxRelease d
  | none => s

/-- DONE at the source of an item (spec/09 R265, spec/10 R295, R296): a failed scheduled item sets its flag; a ticket ends. -/
def State.donePkt (s : State) (p : DynPkt) : State :=
  s.pktIn p [6] (fun s =>
    if epKind p.dst.toNat = 0 then
      let d := epId p.dst.toNat
      let st := bits (leVal p.payload) 47 40
      let w := leVal (p.payload.drop 8)
      if w.testBit 0 then (if st = 0 then s else s.modDie d (fun x => { x with flags := sput x.flags (bits w 12 1) true }))
      else s.ticketEnd d p.aux.toNat st
    else s)

-- Timeouts, ends ---------------------------------------------------------------------------------------------------------

/-- DMA_ITEM_COMPLETE (spec/10 R295). -/
def State.itemDone (s : State) (m id : Nat) : State := if s.mdOn m then s.itemCheck m id else s

-- Patrol, corrected words, failure, cap (spec/10 R300-R308) --------------------------------------------------------------

/-- HBM_ECC_WRITEBACK (spec/10 R300). -/
def State.eccBack (s : State) (m line : Nat) : State :=
  if s.mdOn m && (s.md m).wb.contains line then
    (s.setMd m { s.md m with wb := (s.md m).wb.filter (fun l => decide (l ≠ line)), errs := serase (s.md m).errs line }).bumpPerf (nodeMd m)
      MD_WR_BYTES 64
  else s

/-- Pages of a partition-relative range that map to one of n stacks, its slot given: one for each run of n pages, but for the runs at the ends. -/
def slotPages (n slot base len : Nat) : Nat :=
  let lo := base / 4096
  let hi := (base + len) / 4096
  let mine := fun (pg : Nat) => decide ((hbmSlot n (4096 * pg)).1 = slot)
  if hi ≤ lo ∨ n = 0 then 0
  else
    let q0 := cdiv lo n
    let q1 := hi / n
    if q1 ≤ q0 then ((List.range (hi - lo)).filter (fun k => mine (lo + k))).length
    else (q1 - q0) + ((List.range (q0 * n - lo)).filter (fun k => mine (lo + k))).length + ((List.range (hi - q1 * n)).filter (fun k => mine (q1 * n + k))).length

/-- HBM_PATROL (spec/10 R302): every line that holds an error is read; an uncorrectable one raises 0x2201 with its partition-relative
address. -/
def State.patrol (s : State) (m : Nat) : State :=
  if s.mdOn m then
    let p := s.partOfMd m
    ((s.md m).errs.map (·.1)).foldl (fun t l =>
      let r := t.lineCheck m l 1
      if r.2 then r.1.raise (nodeMd m) 0x2201 (unitStack m) (s.hbmUnmap p m (64 * l)) else r.1)
      (s.bumpPerf (nodeMd m) MD_RD_BYTES stackBytes)
  else s

/-- HBM_CORR_RATE_CHECK (spec/10 R303). A clearing read in the hour restarts the count from 0. -/
def State.corrRate (s : State) (m : Nat) : State :=
  if s.mdOn m then
    let now := s.rg (nodeMd m) MD_ECC_CORR
    let old := (s.md m).corrBase
    let grown := if old ≤ now then now - old else now
    let lim := match s.pcd.conf with | some c => c.corrRate | none => 1000
    let s1 := s.setMd m { s.md m with corrBase := now, corrAcc := 0 }
    if lim < (s.md m).corrAcc + grown then s1.pcdEvent 0x1200 (s.partOfMd m) (unitStack m) 0 else s1
  else s

/-- Governing temperature of a memory die in 0.125 °C, as MD.THERM holds it. -/
def State.mdTemp (s : State) (m : Nat) : Int := signedOf 16 (s.rgF (nodeMd m) MD_THERM 15 0)

/-- The hottest stack above 85 °C, the lower number on a tie (spec/10 R308). -/
def State.hottest (s : State) : Option Nat :=
  (List.range 128).foldl (fun (a : Option Nat) m =>
    if s.mdOn m && decide (680 < s.mdTemp m) then
      match a with
      | none => some m
      | some k => if s.mdTemp k < s.mdTemp m then some m else some k
    else a) none

/-- Lifts the cap of a stack. -/
def State.capOff (s : State) (m : Nat) : State :=
  (s.setRgF (nodeMd m) MD_THERM 19 18 0).setMd m { s.md m with capAt := none }

/-- HBM_CAP_EVAL (spec/10 R307, R308). A stack keeps its cap until 82 °C or until another is named. -/
def State.capEval (s : State) : State :=
  let h := s.hottest
  let s1 := (List.range 128).foldl (fun t m =>
    if t.mdOn m then
      let t1 := if 680 < t.mdTemp m then t.setRgB (nodeMd m) MD_THERM 17 true
        else if t.mdTemp m ≤ 656 then t.setRgB (nodeMd m) MD_THERM 17 false else t
      let t2 := t1.setRgB (nodeMd m) MD_THERM 16 (decide (h = some m))
      let t2 := if (t2.md m).capAt.isSome && decide (t2.mdTemp m ≤ 680) then t2.setMd m { t2.md m with capAt := some s.ptc } else t2
      if (t2.md m).capAt.isSome && (decide (t2.mdTemp m ≤ 656) || (h.isSome && decide (h ≠ some m))) then t2.capOff m else t2
    else t) s
  match h with
  | none => s1
  | some m =>
    let x := s1.md m
    match x.capAt with
    | none =>
      let s2 := (s1.setRgF (nodeMd m) MD_THERM 19 18 1).setMd m { x with capAt := some s.ptc, cappedEver := true }
      if x.cappedEver then s2 else s2.pcdEvent 0x5200 (s.partOfMd m) (unitStack m) 0
    | some t0 => if 100000000 ≤ s.ptc - t0 then s1.setRgF (nodeMd m) MD_THERM 19 18 2 else s1

-- Scrub (spec/10 R309) ---------------------------------------------------------------------------------------------------

/-- Zeroes the pages of a partition-relative range that map to a stack (spec/10 R309, R310). -/
def State.scrubStack (s : State) (p m : Nat) (base len : Nat) : State :=
  let mine := fun (loc : Nat) => let a := s.hbmUnmap p m loc; decide (base ≤ a) && decide (a < base + len)
  let x := s.md m
  let l := (s.part p).stackList
  (s.bumpPerf (nodeMd m) MD_WR_BYTES (4096 * slotPages l.length (l.idxOf m) base len)).setMd m
    { x with mem := x.mem.filter (fun e => !mine e.1), errs := x.errs.filter (fun e => !mine (64 * e.1)), wb := x.wb.filter (fun l => !mine (64 * l)) }

/-- A write of MD.SCRUB_CTRL.START: the active PCD's only; it starts, or restarts from the first page (spec/10 R309, R310). -/
def State.mdScrubGo (s : State) (src : Source) (m : Nat) (v : W32) : State :=
  if s.mdOn m then
    if src = .pcd ∧ v.getLsbD 0 = true then
      (s.setRgF (nodeMd m) MD_SCRUB_CTRL 2 1 1).setPart (s.partOfMd m)
        (let x := s.part (s.partOfMd m)
         let base := s.rg (nodeMd m) MD_SCRUB_BASE
         let len := 4096 * s.rg (nodeMd m) MD_SCRUB_LEN
         if x.scrubQ = [] then { x with scrubQ := [{ base := base, len := len, granule := none }], scrubLeft := [m] }
         else { x with scrubLeft := insUniq m x.scrubLeft })
    else s
  else s.refuseBy src

/-- The scrub at the head of a partition's queue is complete on every memory die. -/
def State.scrubNext (s : State) (p : Nat) : State :=
  let x := s.part p
  match x.scrubQ with
  | r :: q =>
    let led := match r.granule with | some g => nput false x.ledger g false | none => x.ledger
    (((s.setPart p { x with scrubQ := q, ledger := led }).startScrub p).releaseSettle p).tryRun p 63
  | [] => s

/-- MD_SCRUB_DONE (spec/10 R309, spec/15 R442). -/
def State.mdScrubEnd (s : State) (m : Nat) : State :=
  let p := s.partOfMd m
  if s.mdOn m && s.rgB (nodeMd m) MD_SCRUB_CTRL 1 then
    let s1 := (s.scrubStack p m (s.mdScrubRange m).1 (s.mdScrubRange m).2).setRgF (nodeMd m) MD_SCRUB_CTRL 2 1 2
    let x := s1.part p
    let left := x.scrubLeft.filter (fun k => decide (k ≠ m))
    let s2 := s1.setPart p { x with scrubLeft := left }
    if left = [] then s2.scrubNext p else s2
  else s

-- The meanings --------------------------------------------------------------------------------------------------------

/-- DESC (spec/10 R292). -/
def execDesc (md : Nat) (o : Origin) (d : DmaDesc) (s : State) : Host.Outcome State Fault Refusal :=
  guard (Instr.desc md o d).wf (s.descIn md o d)
/-- DMA_ITEM_COMPLETE (spec/10 R295). -/
def execDmaItemComplete (md item : Nat) (s : State) : Host.Outcome State Fault Refusal :=
  guard (Instr.dmaItemComplete md item).wf (s.itemDone md item)
/-- READ (spec/11 R327). -/
def execRead (p : DynPkt) (s : State) : Host.Outcome State Fault Refusal := guard (Instr.read p).wf (s.readIn p)
/-- READ_DATA (spec/11 R327). -/
def execReadData (p : DynPkt) (s : State) : Host.Outcome State Fault Refusal := guard (Instr.readData p).wf (s.readDataIn p)
/-- WRITE_ACK (spec/11 R327). -/
def execWriteAck (p : DynPkt) (s : State) : Host.Outcome State Fault Refusal := guard (Instr.writeAck p).wf (s.writeAckIn p)
/-- LAND (spec/09 R263). -/
def execLand (p : DynPkt) (s : State) : Host.Outcome State Fault Refusal := guard (Instr.land p).wf (s.landPkt p)
/-- DONE (spec/11 R327). -/
def execDone (p : DynPkt) (s : State) : Host.Outcome State Fault Refusal := guard (Instr.done p).wf (s.donePkt p)
/-- HBM_ECC_WRITEBACK (spec/10 R300). -/
def execHbmEccWriteback (md line : Nat) (s : State) : Host.Outcome State Fault Refusal :=
  guard (Instr.hbmEccWriteback md line).wf (s.eccBack md line)
/-- HBM_PATROL (spec/10 R302). -/
def execHbmPatrol (md : Nat) (s : State) : Host.Outcome State Fault Refusal := guard (Instr.hbmPatrol md).wf (s.patrol md)
/-- HBM_CORR_RATE_CHECK (spec/10 R303). -/
def execHbmCorrRateCheck (md : Nat) (s : State) : Host.Outcome State Fault Refusal :=
  guard (Instr.hbmCorrRateCheck md).wf (s.corrRate md)
/-- HBM_CAP_EVAL (spec/10 R308). -/
def execHbmCapEval (s : State) : Host.Outcome State Fault Refusal := guard Instr.hbmCapEval.wf s.capEval
/-- MD_SCRUB_START (spec/10 R309). -/
def execMdScrubStart (src : Source) (md : Nat) (val : W32) (s : State) : Host.Outcome State Fault Refusal :=
  guard (Instr.mdScrubStart src md val).wf (s.mdScrubGo src md val)
/-- MD_SCRUB_DONE (spec/10 R309). -/
def execMdScrubDone (md : Nat) (s : State) : Host.Outcome State Fault Refusal := guard (Instr.mdScrubDone md).wf (s.mdScrubEnd md)

end Sys2Proof.Machine
end

