-- ==== Sys2Proof/Machine/Fabric.lean ====
section
/-! DEFINITION. Fabric dies: on-panel transactions, transfers, requests and replies, credits, ranks, ports, and the grants and timeouts of
tracker entries (spec/12 R342-R370, spec/10 R285-R287). -/

namespace Sys2Proof.Machine

-- Reads and writes that a memory die executes for a unit (spec/10 R292, R298, spec/12 R351) --------------------------------

/-- Reads bytes at a panel address of a partition; a scratchpad that is not open to it counts a refusal and reads 0 (spec/07 R205, R209,
spec/00 R20): status 0 done, 1 outside its memory, 2 uncorrectable, 3 uncorrectable scratchpad word,
4 stack off, 6 page being scrubbed. -/
def State.memGet (s : State) (p a n : Nat) : State × Nat × List Byte :=
  if isHbm a then
    if s.hbmSize p < a + n then (s, 1, []) else if s.scrubHits p a n && decide (0 < n) then (s, 6, [])
    else if s.keptRange p a n then (s.keptTally p a, 0, List.replicate n 0#8) else s.hbmRead p a n
  else if !s.dmaRange p false a n then (s, 1, [])
  else
    match s.siteNode (windowOf a).1 with
    | some d =>
      if !s.coreOn d then (s, 1, [])
      else if !s.spadOpen d (windowOf a).2 n then (s.dieRefuse d, 0, List.replicate n 0#8)
      else
        let r := s.spadFetch d 96 (windowOf a).2 n
        match r.2 with
        | some bs => (r.1, 0, bs)
        | none => (r.1, 3, [])
    | none => (s, 1, [])

/-- Writes bytes at a panel address of a partition, with a status as `memGet` gives it. -/
def State.memPut (s : State) (p a : Nat) (bs : List Byte) : State × Nat :=
  if isHbm a then
    if s.hbmSize p < a + bs.length then (s, 1) else if s.scrubHits p a bs.length && decide (0 < bs.length) then (s, 6)
    else if s.keptRange p a bs.length then (s.keptTally p a, 0) else s.hbmWrite p a bs
  else if !s.dmaRange p false a bs.length then (s, 1)
  else
    match s.siteNode (windowOf a).1 with
    | some d =>
      if !s.coreOn d then (s, 1)
      else if !s.spadOpen d (windowOf a).2 bs.length then (s.dieRefuse d, 0)
      else (s.spadPut d 96 (windowOf a).2 bs, if s.mergeBad d (windowOf a).2 (8 * bs.length) (leVal bs) then 3 else 0)
    | none => (s, 1)

/-- STATUS of a reply for an item status (spec/11 R327). -/
def replyStatus (st : Nat) : Nat := if st = 0 then 0 else if st = 2 ∨ st = 3 then 1 else 2

/-- FREAD at a memory die (spec/12 R351). -/
def State.freadIn (s : State) (p : DynPkt) : State :=
  s.pktIn p [8] (fun s =>
    if epKind p.dst.toNat = 1 then
      let r := s.memGet (s.partOfMd (epId p.dst.toNat)) p.addr.toNat (bits p.aux.toNat 24 12)
      r.1.inject (p.reply 9 (replyStatus r.2.1) r.2.2)
    else s)

/-- FWRITE at a memory die (spec/12 R351). -/
def State.fwriteIn (s : State) (p : DynPkt) : State :=
  s.pktIn p [10] (fun s =>
    if epKind p.dst.toNat = 1 then
      let r := s.memPut (s.partOfMd (epId p.dst.toNat)) p.addr.toNat p.payload
      r.1.inject (p.reply 11 (replyStatus r.2) [])
    else s)

-- On-panel transactions of a fabric die (spec/12 R351) ------------------------------------------------------------------

/-- Partition of a fabric die (spec/12 R344). -/
def State.partOfFd (s : State) (f : Nat) : Nat := (s.partOfRegion f).getD 0

/-- Class-1 entries that a fabric die holds at a memory die. -/
def Fdie.held (x : Fdie) (m : Nat) : List Nat := (x.onp.filter (fun e => decide (e.2.md = m))).map (fun e => e.2.txid)

/-- The lowest memory die of the region in service that has a class-1 entry free, and that entry (spec/12 R351; log entry 12). -/
def State.fdEntry (s : State) (f : Nat) : Option (Nat × Nat) :=
  ((((List.range 8).map (fun k => 8 * f + k)).filter s.mdOn).filterMap (fun m =>
    let h := (s.fd f).held m
    (((List.range' 0 512).map (fun k => 1024 + k)).find? (fun t => !h.contains t)).map (fun t => (m, t)))).head?

/-- The lowest free FD slot. -/
def Fdie.freeSlot (x : Fdie) : Option Nat := (List.range' 0 4096).find? (fun n => (sfind x.onp n).isNone)

/-- Sends one waiting on-panel transaction. -/
def State.fdGrant (s : State) (f : Nat) : State :=
  let x := s.fd f
  match x.wait, x.freeSlot, s.fdEntry f with
  | w :: r, some n, some (m, t) =>
    let s1 := s.setFd f { x with wait := r, onp := sput x.onp n { piece := w, md := m, txid := t } }
    let k := match w.wdata with
      | some bs => mkPkt 10 (s.partOfFd f) (epMd m) (epFd f) t 0 w.addr n w.len bs
      | none => mkPkt 8 (s.partOfFd f) (epMd m) (epFd f) t 0 w.addr (n + w.len * 2 ^ 12) 0 []
    s1.inject k
  | _, _, _ => s

/-- Sends up to n waiting on-panel transactions. -/
def State.fdPump (s : State) (f : Nat) : Nat → State
  | 0 => s
  | n + 1 => if (s.fd f).wait = [] then s else (s.fdGrant f).fdPump f n

/-- Pieces of a range for a group, split at 4 KiB (spec/12 R351, spec/10 R284). -/
def piecesOf (g a : Nat) (n : Nat) (data : Option (List Byte)) : List Piece :=
  (pagePieces a n).map (fun e =>
    { grp := g, off := e.1 - a, addr := e.1, len := e.2, wdata := data.map (fun bs => (bs.drop (e.1 - a)).take e.2) })

-- Frames (spec/12 R343, R345-R348) --------------------------------------------------------------------------------------

/-- Ports of a fabric die that are up. -/
def State.portsUp (s : State) (f : Nat) : List Nat := (List.range 4).filter (fun k => s.rgB (nodeFd f) FD_STATUS k)

/-- Port of a flow context (spec/12 R343). -/
def State.ctxPort (s : State) (f c : Nat) : Option Nat :=
  let l := s.portsUp f
  if l = [] then none else l[c % l.length]?

/-- Bytes of a frame that the counters take: Jilomen header, payload and ICRC. -/
def jilBytes (n : Nat) : Nat := 36 + n

/-- A frame can leave: its port is up, its priority is not paused, the gateway's MAC address is resolved. -/
def State.txReady (s : State) (f : Nat) (t : TxFrame) : Bool :=
  match s.ctxPort f t.ctx with
  | some port => (s.fd f).gwMac.isSome && (decide (t.prio = s.clsPcp 3) || decide (sget 0 (s.fd f).paused (8 * port + t.prio) ≤ s.ptc16))
  | none => false

/-- Frame of a class. -/
def TxFrame.isCls (c : Nat) (t : TxFrame) : Bool := decide (t.h.cls.toNat = c)

/-- Deficit round robin of weights 1 : 1 between two queues that have sent a and b bytes (spec/12 R347): the one with fewer goes next. -/
def drr : Nat → Nat → Nat → List TxFrame → List TxFrame → List TxFrame
  | 0, _, _, l, r => l ++ r
  | n + 1, a, b, l, r =>
    match l, r with
    | x :: l', y :: r' => if a ≤ b then x :: drr n (a + jilBytes x.data.length) b l' (y :: r') else y :: drr n a (b + jilBytes y.data.length) (x :: l') r'
    | _, _ => l ++ r

/-- Frames of one port in the order of the transmit scheduling (spec/12 R347): control, replies, then requests and collectives in turn. -/
def txOrder (l : List TxFrame) : List TxFrame :=
  l.filter (TxFrame.isCls 3) ++ l.filter (TxFrame.isCls 1) ++ drr l.length 0 0 (l.filter (TxFrame.isCls 0)) (l.filter (TxFrame.isCls 2))

/-- Addresses and marks of a frame of a fabric port (spec/12 R343, R345, R347). -/
def State.frameHdr (s : State) (f : Nat) (t : TxFrame) : FrameHdr :=
  { dstMac := (s.fd f).gwMac.getD 0, srcMac := (s.netCfg f).mac, vid := (s.netCfg f).vid, pcp := t.prio, dscp := s.clsDscp t.h.cls.toNat,
    udpSrc := 0xC000 + 256 * f + t.ctx, udpDst := match s.pcd.conf with | some c => c.udpFabric | none => 0 }

/-- IP address of the panel's FD 0 (spec/12 R343). -/
def State.ownIp (s : State) : Nat := match s.pcd.conf with | some c => c.netIp | none => 0

/-- Sends the waiting frames that can leave, port by port; those of a class and context stay in order. -/
def State.txFlush (s : State) (f : Nat) : State :=
  let r := (s.fd f).txq.foldl (fun (st : List (Nat × TxFrame) × List TxFrame) t =>
    match s.ctxPort f t.ctx with
    | some port => if s.txReady f t then (st.1 ++ [(port, t)], st.2) else (st.1, st.2 ++ [t])
    | none => (st.1, st.2 ++ [t])) ([], [])
  let go := (List.range 4).flatMap (fun port => (txOrder ((r.1.filter (fun e => decide (e.1 = port))).map (·.2))).map (fun t => (port, t)))
  (s.setFd f { s.fd f with txq := r.2 }).emitAll (go.map (fun e =>
      .jil f e.1 false e.2.dest (s.frameHdr f e.2) { e.2.h with src := s.ownIp + f } e.2.data)) |>.bumpPerf (nodeFd f) FD_TX_BYTES
    (r.1.foldl (fun a e => a + jilBytes e.2.data.length) 0)

/-- Ring position and size of the panel (spec/12 R369, R378). -/
def State.ringPos (s : State) : Nat := s.rgF (nodeFd 0) FD_RING_STATUS 20 16
def State.ringSize (s : State) : Nat := s.rgF (nodeFd 0) FD_RING_STATUS 15 11 + 1

/-- Sends a frame on a ring port in a direction, with VC 1 across the dateline (spec/12 R369); lost where the port is down. -/
def State.ringSend (s : State) (rdst : Nat) (h : JHdr) (data : List Byte) : State :=
  let n := s.ringSize
  let me := s.ringPos
  let east := (rdst + n - me % n) % n
  let west := decide (n < 2 * east)
  let vc := if west then decide (me = 0) else decide (me + 1 = n)
  if s.rgB (nodeFd 0) FD_RING_STATUS (if west then 0 else 1) then
    (s.emit (.jil 0 (if west then 5 else 4) vc rdst default h data)).bumpPerf (nodeFd 0) FD_TX_BYTES (jilBytes data.length)
  else s

/-- Hands a frame to its port. With no port up the context sends nothing (spec/12 R343). -/
def State.jilSend (s : State) (f ctx dest : Nat) (h : JHdr) (data : List Byte) : State :=
  if h.ring then s.ringSend dest h data
  else if s.portsUp f = [] then s
  else (s.setFd f { s.fd f with txq := (s.fd f).txq ++ [{ ctx := ctx, prio := s.clsPcp h.cls.toNat, dest := dest, h := h, data := data }] }).txFlush f

-- Ranks (spec/12 R356, R357) ---------------------------------------------------------------------------------------------

/-- The enabled entry of a job on a fabric die. -/
def State.jobEntry (s : State) (f job : Nat) : Option Nat :=
  (List.range 64).find? (fun j => s.rgB (nodeFd f) (FD_JOB_W0 j) 63 && decide (s.rgF (nodeFd f) (FD_JOB_W0 j) 31 16 = job))
def State.entryIncarn (s : State) (f j : Nat) : Nat := s.rgF (nodeFd f) (FD_JOB_W0 j) 15 0

/-- A rank as its tables give it. -/
structure RankTo where
  valid : Bool
  part : Nat
  addr : Nat                   -- IP address of the panel's FD 0
  nfd : Nat
  rpos : Nat
  ring : Bool
deriving DecidableEq, Repr, Inhabited

/-- Value of bytes in network order. -/
def beVal (bs : List Byte) : Nat := leVal bs.reverse

/-- A rank of a table entry and a directory entry (spec/12, tables under R356). -/
def rankOf (e d : Nat) : RankTo :=
  let w := d >>> 128
  { valid := e.testBit 63, part := bits e 35 32, addr := beVal (leBytes 16 d), nfd := bits w 4 0, rpos := bits w 10 6, ring := w.testBit 11 }

/-- Resolves a rank through the cache; a miss reads both tables and is counted (spec/12 R357). None where the rank lies outside its table
or a table cannot be read; an uncorrectable codeword of one fails the job of the entry (spec/10 R301). -/
def State.resolve (s : State) (f j rank : Nat) : State × Option RankTo :=
  let n := nodeFd f
  let job := s.rgF n (FD_JOB_W0 j) 31 16
  let inc := s.entryIncarn f j
  match (s.fd f).cache.find? (fun c => decide (c.1 = job) && decide (c.2.1 = inc) && decide (c.2.2.1 = rank)) with
  | some c => (s, some (rankOf c.2.2.2.1 c.2.2.2.2))
  | none =>
    let s1 := s.bumpPerf n FD_RANK_MISS 1
    if s.rgF n (FD_JOB_W2 j) 63 40 ≤ rank then (s1, none)
    else
      let r := s1.hbmRead (s.partOfFd f) (s.rg n (FD_JOB_W1 j) + 8 * rank) 8
      let e := leVal r.2.2
      let q := r.1.hbmRead (s.partOfFd f) (s.rg n FD_DIR_BASE + 32 * bits e 55 36) 32
      if r.2.1 = 2 ∨ q.2.1 = 2 then (q.1.raise n 0x2200 (unitDie n) (jobMark job), none)
      else if r.2.1 ≠ 0 ∨ q.2.1 ≠ 0 then (q.1, none)
      else
        let x := q.1.fd f
        (q.1.setFd f { x with cache := appendCap 16384 x.cache (job, inc, rank, e, leVal q.2.2) }, some (rankOf e (leVal q.2.2)))

/-- The rank names this panel and partition. -/
def State.isHere (s : State) (f : Nat) (r : RankTo) : Bool := decide (r.addr = s.ownIp) && decide (r.part = s.partOfFd f)

/-- Address that a request to a rank goes to: FD (f mod NFD) of its panel, or its position on the ring (spec/12 R357, R369). -/
def rankAddr (f : Nat) (ring : Bool) (r : RankTo) : Nat := if ring then r.rpos else r.addr + f % max 1 r.nfd

-- Transfers (spec/12 R350-R355, R365) ------------------------------------------------------------------------------------

def State.xfer (s : State) (f id : Nat) : Option Xfer := (s.fd f).xfers.find? (fun x => decide (x.id = id))
def State.modXfer (s : State) (f id : Nat) (g : Xfer → Xfer) : State :=
  s.setFd f { s.fd f with xfers := (s.fd f).xfers.map (fun x => if x.id = id then g x else x) }

/-- A transfer fails: it is reported, then its job fails with an event (spec/12 R353, R354, R367). -/
def State.xferFail (s : State) (f id status code : Nat) : State :=
  match s.xfer f id with
  | some x =>
    let s1 := s.xferEnd f id status x.done
    if code = 0 then s1 else s1.raise (nodeFd f) code (unitDie (nodeFd f)) (jobMark x.job)
  | none => s

/-- Packet k of every copy has completed, and so has the transfer. -/
def Xfer.complete (x : Xfer) : Bool :=
  (List.range (xferPkts x.desc)).all (fun k => (List.range x.copies.length).all (fun c => x.acked.contains (k, c)))

/-- Ends a transfer that is complete (spec/12 R350, R367). -/
def State.xferCheck (s : State) (f id : Nat) : State :=
  match s.xfer f id with
  | some x =>
    if x.complete then (if x.failed = 0 then s.xferEnd f id 0 x.desc.length.toNat else s.xferFail f id 4 0x2182)
    else s
  | none => s

/-- Header of a request packet of a transfer (spec/12 R345). -/
def xferHdr (x : Xfer) (op cls dst k len txid aux : Nat) : JHdr :=
  { cls := BitVec.ofNat 2 cls, op := BitVec.ofNat 8 op, incarn := BitVec.ofNat 16 x.incarn, dstRank := BitVec.ofNat 24 dst,
    first := decide (k = 0), last := decide (k + 1 = xferPkts x.desc), retry := false, srcRank := BitVec.ofNat 24 x.srcRank,
    ctx := BitVec.ofNat 8 x.ctx, job := BitVec.ofNat 16 x.job, len := BitVec.ofNat 16 len, txid := BitVec.ofNat 32 txid,
    aux := BitVec.ofNat 32 aux, raddr := if op = 0x21 then 0#64 else BitVec.ofNat 64 (x.desc.raddr.toNat + 8192 * k), bad := false,
    ring := x.desc.ring, port := 0#2, src := 0 }

/-- Bytes of packet k. -/
def pktLen (d : FabDesc) (k : Nat) : Nat := min 8192 (d.length.toNat - 8192 * k)

/-- The lowest free source slot. -/
def Fdie.freeSrc (x : Fdie) : Option Nat := (List.range' 0 4096).find? (fun n => (sfind x.slots n).isNone)

/-- Sends a request packet from a source slot (spec/12 R345, R352). -/
def State.reqSend (s : State) (f : Nat) (x : Xfer) (k copy op cls dst dest aux : Nat) (data : List Byte) : State :=
  match (s.fd f).freeSrc with
  | some n =>
    let g := sget 0 (s.fd f).slotGen n
    let h := xferHdr x op cls dst k data.length (n + g * 2 ^ 14) aux
    let y := s.fd f
    (s.setFd f { y with slots := sput y.slots n { xfer := x.id, pkt := k, copy := copy, attempt := 0, gen := g, h := h, dest := dest, data := data },
                        slotGen := nput 0 y.slotGen n ((g + 1) % 2 ^ 18) }).jilSend f x.ctx dest h data
  | none => s

/-- Rank list that heads a copy: a count and three bytes per rank, in whole 8 bytes (spec/12 R365). -/
def copyHead (x : Xfer) (c : List Nat) : List Byte :=
  let bs := leBytes 1 c.length ++ c.flatMap (fun i => (leBytes 3 ((x.ranks[i]?).getD 0)).reverse)
  bs ++ List.replicate (8 * cdiv bs.length 8 - bs.length) 0#8

/-- Sends packet k of a transfer with its data, on every copy. -/
def State.pktSend (s : State) (f : Nat) (x : Xfer) (k : Nat) (data : List Byte) : State :=
  match s.jobEntry f x.job with
  | none => s
  | some j =>
    let op := x.desc.op.toNat
    if op = 3 then
      (x.copies.zipIdx).foldl (fun t c =>
        let r := t.resolve f j ((x.ranks[(c.1.head?).getD 0]?).getD 0)
        match r.2 with
        | some tr => r.1.reqSend f x k c.2 4 2 0 (rankAddr f false tr) (copyHead x c.1).length (copyHead x c.1 ++ data)
        | none => r.1) s
    else if op = 4 then
      let r := s.resolve f j x.desc.dstRank.toNat
      match r.2 with
      | some tr =>
        (r.1.jilSend f x.ctx (rankAddr f false tr) (xferHdr x 0x21 3 x.desc.dstRank.toNat k data.length 0 (bits x.desc.raddr.toNat 31 0)) data).xferEnd f
          x.id 0 data.length
      | none => r.1.xferFail f x.id 1 0
    else
      let r := s.resolve f j x.desc.dstRank.toNat
      match r.2 with
      | some tr =>
        if op = 2 then r.1.reqSend f x k 0 3 2 x.desc.dstRank.toNat (rankAddr f x.desc.ring tr) x.desc.cslot.toNat data
        else if op = 1 then r.1.reqSend f x k 0 2 0 x.desc.dstRank.toNat (rankAddr f false tr) (pktLen x.desc k) []
        else r.1.reqSend f x k 0 1 0 x.desc.dstRank.toNat (rankAddr f false tr) 0 data
      | none => r.1.xferFail f x.id 1 0

/-- Copies still to be sent or answered: outstanding packets, and those of the groups being read. -/
def Fdie.load (x : Fdie) : Nat :=
  x.slots.length + x.grps.foldl (fun a g => match g.kind with
    | .send id _ => a + (match x.xfers.find? (fun y => decide (y.id = id)) with | some y => y.copies.length | none => 0)
    | _ => a) 0

/-- Bytes held in the receive buffer of a port and class, key 4·port + class (spec/12 R348): those of the packets whose data is being written. -/
def Fdie.rxHeld (x : Fdie) (key : Nat) : Nat :=
  x.grps.foldl (fun a g => match g.rx with | some r => if r.1 = key then a + r.2 else a | none => a) 0

/-- Pauses each priority whose buffer of 512 KiB has 192 KiB or less free, and resumes one that has 320 KiB free again (spec/12 R348). -/
def State.rxSync (s : State) (f : Nat) : State :=
  ((List.range 4).flatMap (fun port => [4 * port, 4 * port + 1, 4 * port + 2])).foldl (fun t key =>
    let free := 524288 - (t.fd f).rxHeld key
    let off := (t.fd f).rxOff.contains key
    if !off && decide (free ≤ 196608) then
      (t.setFd f { t.fd f with rxOff := insUniq key (t.fd f).rxOff }).emit (.pause f (key / 4) (t.clsPcp (key % 4)) true)
    else if off && decide (327680 ≤ free) then
      (t.setFd f { t.fd f with rxOff := (t.fd f).rxOff.filter (fun j => decide (j ≠ key)) }).emit (.pause f (key / 4) (t.clsPcp (key % 4)) false)
    else t) s

/-- Adds a group of on-panel transactions, for a received packet with the receive buffer that it holds. -/
def State.addGrp (s : State) (f : Nat) (k : GrpKind) (rx : Option (Nat × Nat)) (size : Nat) (ps : Nat → List Piece) : State :=
  let x := s.fd f
  let l := ps x.nextGrp
  (s.setFd f { x with grps := x.grps ++ [{ id := x.nextGrp, kind := k, left := l.length, status := 0, data := List.replicate size 0#8, rx := rx }],
                      nextGrp := x.nextGrp + 1, wait := x.wait ++ l }).rxSync f |>.fdPump f l.length

/-- Begins the next packet of the first started transfer that has one, while source slots remain: a GET is sent at once, else its data is
read (spec/12 R351, R352). -/
def State.feedOne (s : State) (f : Nat) : State :=
  let x := s.fd f
  match x.xfers.find? (fun y => y.started && decide (y.next < xferPkts y.desc)) with
  | some y =>
    if 4096 < x.load + y.copies.length then s
    else
      let k := y.next
      let s1 := s.modXfer f y.id (fun z => { z with next := k + 1 })
      if y.desc.op.toNat = 1 then s1.pktSend f y k []
      else s1.addGrp f (.send y.id k) none (pktLen y.desc k) (fun g => piecesOf g (y.desc.laddr.toNat + 8192 * k) (pktLen y.desc k) none)
  | none => s

/-- Begins packets while they may begin, n at most. -/
def State.feed (s : State) (f : Nat) : Nat → State
  | 0 => s
  | n + 1 =>
    if (s.fd f).xfers.any (fun y => y.started && decide (y.next < xferPkts y.desc)) then (s.feedOne f).feed f n else s

/-- Number of packets that a fabric die may begin at once. -/
def Fdie.burst (x : Fdie) : Nat := min 4096 (x.xfers.foldl (fun a y => if y.started then a + (xferPkts y.desc - y.next) else a) 0)

/-- Begins what may begin. -/
def State.feedAll (s : State) (f : Nat) : State := s.feed f (s.fd f).burst

/-- The transfer may start: a CPUT or MCAST needs its whole range below the limit of its credit slot (spec/12 R355). -/
def Fdie.covered (x : Fdie) (y : Xfer) : Bool :=
  if y.desc.op.toNat = 2 ∨ y.desc.op.toNat = 3 then
    decide (y.desc.raddr.toNat + y.desc.length.toNat ≤ sget 0 x.limits (16 * y.ctx + y.desc.cslot.toNat))
  else true

/-- Transfers of a context start in order (spec/12 R350): the first that has not started holds up those behind it. -/
def State.kick (s : State) (f ctx : Nat) : State :=
  let x := s.fd f
  let r := x.xfers.foldl (fun (st : Bool × List Xfer) y =>
    if y.ctx ≠ ctx ∨ y.started = true then (st.1, st.2 ++ [y])
    else if st.1 && y.posted && x.covered y then (true, st.2 ++ [{ y with started := true }])
    else (false, st.2 ++ [y])) (true, [])
  (s.setFd f { x with xfers := r.2 }).feedAll f

/-- Bytes of HBM as they are stored. -/
def State.hbmPeek (s : State) (p a n : Nat) : List Byte :=
  (List.range n).map (fun k => match s.hbmMap p (a + k) with
    | some (m, loc) => memRead (s.md m).mem loc
    | none => 0#8)

/-- Ranks of a job's table that name this panel and partition. -/
def State.ownRanks (s : State) (f j : Nat) : List Nat :=
  let n := nodeFd f
  let p := s.partOfFd f
  (List.range (s.rgF n (FD_JOB_W2 j) 63 40)).filter (fun r =>
    let e := leVal (s.hbmPeek p (s.rg n (FD_JOB_W1 j) + 8 * r) 8)
    let t := rankOf e (leVal (s.hbmPeek p (s.rg n FD_DIR_BASE + 32 * bits e 55 36) 32))
    t.valid && s.isHere f t)

/-- A descriptor's fields are legal where it is sent (spec/12 R350, R368, spec/10 R292). -/
def State.fabOk (s : State) (f : Nat) (d : FabDesc) : Bool :=
  let p := s.partOfFd f
  let n := d.length.toNat
  !d.rsv && decide (d.op.toNat ≤ 4) && decide (0 < n) && (decide (d.op.toNat ≠ 4) || decide (n ≤ 220)) &&
    s.dmaRange p false d.laddr.toNat n &&
    (!d.ring || (decide (d.op.toNat = 2) && decide (f = 0) && s.enG)) &&
    (!d.land || (decide (s.partOfSite d.lsite.toNat = some p) && (s.siteNode d.lsite.toNat).isSome)) &&
    (decide (d.op.toNat ≠ 3) || (decide (1 ≤ d.ndst.toNat) && decide (d.ndst.toNat ≤ 64) && decide (d.list.toNat % 64 = 0) &&
      decide (d.list.toNat + 272 ≤ s.hbmSize p)))

/-- Groups the positions of a rank list by panel and partition, in the order of their first rank (spec/12 R365). -/
def groupRanks (l : List (Nat × RankTo)) : List (List Nat) :=
  let keys := (l.map (fun e => (e.2.addr, e.2.part))).eraseDups
  keys.map (fun k => (l.filter (fun e => decide ((e.2.addr, e.2.part) = k))).map (·.1))

/-- A descriptor decoded (spec/12 R350). -/
def fabDescOf (bs : List Byte) : FabDesc :=
  let b := leVal bs
  { op := BitVec.ofNat 4 b, land := b.testBit 4, ring := b.testBit 5, length := BitVec.ofNat 32 (b >>> 32), laddr := BitVec.ofNat 64 (b >>> 64),
    raddr := BitVec.ofNat 64 (b >>> 128), dstRank := BitVec.ofNat 24 (b >>> 192), cslot := BitVec.ofNat 4 (b >>> 224),
    ndst := BitVec.ofNat 7 (b >>> 228), list := BitVec.ofNat 64 (b >>> 256), tag := BitVec.ofNat 12 (b >>> 320),
    lsite := BitVec.ofNat 9 (b >>> 332),
    rsv := decide (bits b 31 6 ≠ 0 ∨ bits b 223 216 ≠ 0 ∨ bits b 255 235 ≠ 0 ∨ bits b 351 341 ≠ 0 ∨ bits b 447 352 ≠ 0) }

/-- A new transfer of a context, its descriptor at an address. -/
def State.newXfer (s : State) (f ctx addr : Nat) (d : FabDesc) (posted : Bool) : State × Nat :=
  let x := s.fd f
  let job := s.rgF (nodeFd f) (FD_CTX_W0 ctx) 47 32
  let inc := match s.jobEntry f job with | some j => s.entryIncarn f j | none => 0
  let y : Xfer := { id := x.nextXfer, addr := addr, ctx := ctx, job := job, incarn := inc, desc := d, posted := posted, started := false,
                    srcRank := 0, ranks := [], copies := [[]], next := 0, acked := [], delivered := 0, failed := 0 }
  (s.setFd f { x with xfers := x.xfers ++ [y], nextXfer := x.nextXfer + 1 }, x.nextXfer)

/-- Address of descriptor i of a context's send ring. -/
def State.ringDesc (s : State) (f ctx i : Nat) : Nat :=
  s.rg (nodeFd f) (FD_CTX_W1 ctx) + 64 * (i % 2 ^ s.rgF (nodeFd f) (FD_CTX_W0 ctx) 51 48)

/-- Fetches the descriptor at HEAD (spec/12 R350). -/
def State.fetchDesc (s : State) (f ctx : Nat) : State :=
  let n := nodeFd f
  let i := s.rgF n (FD_CTX_W3 ctx) 15 0
  let a := s.ringDesc f ctx i
  let r := s.hbmRead (s.partOfFd f) a 64
  let s1 := r.1.setRgF n (FD_CTX_W3 ctx) 15 0 ((i + 1) % 2 ^ 16)
  if r.2.1 = 0 then (s1.newXfer f ctx a (fabDescOf r.2.2) false).1
  else if r.2.1 = 2 then s1.raise n 0x2200 (unitDie n) (jobMark (s.rgF n (FD_CTX_W0 ctx) 47 32))
  else s1

/-- A doorbell write (spec/12 R350): TAIL, and the descriptors up to it. -/
def State.doorbell (s : State) (f ctx : Nat) (v : W32) : State :=
  let n := nodeFd f
  if s.fdOn f && s.rgB n (FD_CTX_W0 ctx) 63 then
    let tail := v.toNat % 2 ^ 16
    let cnt := (tail + 2 ^ 16 - s.rgF n (FD_CTX_W3 ctx) 15 0) % 2 ^ 16
    (List.range cnt).foldl (fun t _ => t.fetchDesc f ctx) (s.setRgF n (FD_CTX_W3 ctx) 31 16 tail)
  else s

/-- A descriptor of a context is taken up (spec/12 R350-R355, R365, R368): the one fetched, else the one at HEAD. An illegal one, or a rank
that its table does not hold, ends with status 1; a list with an uncorrectable codeword fails the job too (spec/10 R301). -/
def State.post (s : State) (f ctx : Nat) (d : FabDesc) : State :=
  let n := nodeFd f
  if s.fdOn f && s.rgB n (FD_CTX_W0 ctx) 63 then
    let r := match (s.fd f).xfers.find? (fun x => decide (x.ctx = ctx) && !x.posted && decide (x.desc = d)) with
      | some x => (s.modXfer f x.id (fun y => { y with posted := true }), x.id)
      | none =>
        let i := s.rgF n (FD_CTX_W3 ctx) 15 0
        let c := s.newXfer f ctx (s.ringDesc f ctx i) d true
        (c.1.setRgF n (FD_CTX_W3 ctx) 15 0 ((i + 1) % 2 ^ 16), c.2)
    let s1 := r.1
    let id := r.2
    match s1.jobEntry f (s.rgF n (FD_CTX_W0 ctx) 47 32) with
    | none => s1.xferFail f id 5 0
    | some j =>
      if !s1.fabOk f d then s1.xferFail f id 1 0
      else
        let own := s1.ownRanks f j
        let src := match own with | [k] => k | _ => s1.freeVal % 2 ^ 24
        let s2 := if own.length = 1 then s1 else s1.takeFree
        let rd := if d.op = 3#4 then s2.memGet (s.partOfFd f) d.list.toNat (4 * d.ndst.toNat) else (s2, 0, [])
        let ranks := if d.op = 3#4 then (List.range d.ndst.toNat).map (fun i => bits (leVal ((rd.2.2.drop (4 * i)).take 4)) 23 0) else [d.dstRank.toNat]
        let q := ranks.foldl (fun (st : State × List (Option RankTo)) k =>
          let z := st.1.resolve f j k
          (z.1, st.2 ++ [z.2])) (rd.1, [])
        let good := decide (rd.2.1 = 0) && q.2.all (fun z => match z with | some t => t.valid && (!d.ring || t.ring) | none => false)
        if good then
          let copies := if d.op = 3#4 then groupRanks ((q.2.zipIdx).filterMap (fun e => e.1.map (fun t => (e.2, t)))) else [[]]
          (q.1.modXfer f id (fun y => { y with srcRank := src, ranks := if d.op = 3#4 then ranks else [], copies := copies })).kick f ctx
        else q.1.xferFail f id (if rd.2.1 = 2 then 2 else 1) (if rd.2.1 = 2 then 0x2200 else 0)
  else s

/-- A WRITE packet at a context's doorbell offset is a write of its doorbell (spec/12 R350); at another address it is rejected. -/
def State.bellIn (s : State) (p : DynPkt) : State :=
  s.pktIn p [1] (fun s =>
    match (List.range 256).find? (fun c => decide (FD_CTX_W2 c = p.addr.toNat)) with
    | some c => s.doorbell (epId p.dst.toNat) c (BitVec.ofNat 32 (leVal p.payload))
    | none => s.inject (p.reply 3 2 []))

/-- WRITE at its destination: a doorbell at a fabric die, else as R327 has it. -/
def State.writeAt (s : State) (p : DynPkt) : State := if epKind p.dst.toNat = 2 then s.bellIn p else s.writeIn p

/-- DOORBELL: the WRITE packet under way that brings it, where there is one, has arrived (spec/12 R350). -/
def State.bellDrop (s : State) (f ctx : Nat) (v : W32) : State :=
  match s.pcd.net.findSome? (fun e => e.2.find? (fun p => decide (p.ptype = 1#4) && decide (p.dst.toNat = epFd f) &&
      decide (p.addr.toNat = FD_CTX_W2 ctx) && decide (leVal p.payload = v.toNat))) with
  | some p => s.netDrop p
  | none => s

/-- CPUT_START (spec/12 R355): what waits at the head of the context, its limit now covering it, starts. -/
def State.cputGo (s : State) (f ctx : Nat) : State := if s.fdOn f then s.kick f ctx else s

-- Requests received (spec/12 R346, R354, R358, R360) ----------------------------------------------------------------------

/-- Bytes that a sender's token bucket holds now: 1 more each nanosecond, 32 KiB at most (spec/12 R349). -/
def State.bucket (s : State) (f src : Nat) : Nat :=
  match sfind (s.fd f).police src with
  | some b => min 32768 (b.1 + (s.ptc - b.2))
  | none => 32768

/-- The buffer that a received packet holds until its data is written (spec/12 R348); the ring ports have none (R370). -/
def rxBuf (h : JHdr) (len : Nat) : Option (Nat × Nat) := if h.ring then none else some (4 * h.port.toNat + h.cls.toNat, jilBytes len)

/-- A received packet is parsed: a bad one, one over the policer's rate, one of no job or of another incarnation is discarded and counted
(spec/12 R346, R349, R358). The ring carries CPUT, its ACKs and CREDIT only (R368). -/
def State.jilIn (s : State) (f : Nat) (h : JHdr) (op cls : Nat) (onRing : Bool) (len : Nat) (g : State → Nat → State) : State :=
  let n := nodeFd f
  if s.fdOn f then
    let s1 := s.bumpPerf n FD_RX_BYTES (jilBytes len)
    if h.bad || decide (h.op.toNat ≠ op) || decide (h.cls.toNat ≠ cls) || decide (h.len.toNat ≠ len) || (h.ring && !(onRing && s.enG && decide (f = 0))) then
      s1.bumpErr n FD_RX_BAD FD_STATUS 28 1
    else if cls = 3 ∧ s1.bucket f h.src < jilBytes len then s1.bumpErr n FD_POLICE_DROP FD_STATUS 29 1
    else
      let s2 := if cls = 3 then s1.setFd f { s1.fd f with police := sput (s1.fd f).police h.src (s1.bucket f h.src - jilBytes len, s1.ptc) } else s1
      match s2.jobEntry f h.job.toNat with
      | none => s2.bumpErr n FD_NOJOB FD_STATUS 30 1
      | some j => if s2.entryIncarn f j = h.incarn.toNat then g s2 j else s2.bumpErr n FD_STALE_INC FD_STATUS 31 1
  else s

/-- Sends a reply to a request (spec/12 R345): it goes back to the sender of the frame; on the ring, to the source rank's position. -/
def State.replySend (s : State) (f : Nat) (h : JHdr) (op status : Nat) (data : List Byte) : State :=
  let k : JHdr := { h with cls := 1#2, op := BitVec.ofNat 8 op, dstRank := h.srcRank, srcRank := h.dstRank, retry := false,
                           len := BitVec.ofNat 16 data.length, aux := BitVec.ofNat 32 status, raddr := 0#64, port := 0#2 }
  if h.ring then
    match s.jobEntry f h.job.toNat with
    | some j =>
      let r := s.resolve f j h.srcRank.toNat
      match r.2 with
      | some t => r.1.ringSend t.rpos k data
      | none => r.1
    | none => s
  else s.jilSend f h.ctx.toNat h.src k data

/-- The target range lies in the job's fabric window and in backed memory (spec/12 R354). -/
def State.inWindow (s : State) (f j a n : Nat) : Bool :=
  let b := s.rg (nodeFd f) (FD_JOB_W3 j)
  decide (b ≤ a) && decide (a + n ≤ b + 4096 * s.rgF (nodeFd f) (FD_JOB_W2 j) 31 0) && decide (a + n ≤ s.hbmSize (s.partOfFd f))

/-- Conditions 1 and 2 of R354; a rank of another panel or partition is counted in FD.MISROUTE (R360). -/
def State.reqOk (s : State) (f j rank a n : Nat) : State × Bool :=
  let r := s.resolve f j rank
  match r.2 with
  | some t =>
    if !t.valid then (r.1, false)
    else if !r.1.isHere f t then (r.1.bumpErr (nodeFd f) FD_MISROUTE FD_STATUS 26 1, false)
    else (r.1, r.1.inWindow f j a n)
  | none => (r.1, false)

/-- Masks of an MCAST copy in its ACK (spec/12 R366). -/
def maskBytes (d f : Nat) : List Byte := leBytes 8 d ++ leBytes 8 f

/-- A packet of a transfer has completed on a copy; the next may begin. -/
def State.pktDone (s : State) (f id k c : Nat) : State :=
  ((s.modXfer f id (fun x => { x with acked := x.acked ++ [(k, c)] })).xferCheck f id).feedAll f

/-- A group has completed: its packet goes on, or its reply is sent (spec/12 R351, R354, R366). -/
def State.grpEnd (s : State) (f : Nat) (g : Grp) : State :=
  match g.kind with
  | .send id k =>
    match s.xfer f id with
    | some x =>
      if g.status = 0 then (s.pktSend f x k g.data).feedAll f
      else s.xferFail f id (if g.status = 2 then 2 else 1) (if g.status = 2 then 0x2200 else 0)
    | none => s
  | .put h => s.replySend f h 0x10 g.status []
  | .mcast h d fl => if g.status = 0 then s.replySend f h 0x10 0 (maskBytes d fl) else s.replySend f h 0x10 g.status (maskBytes 0 (d ||| fl))
  | .get h => s.replySend f h 0x11 g.status (if g.status = 0 then g.data else [])
  | .back id k =>
    if g.status = 0 then s.pktDone f id k 0 else s.xferFail f id (if g.status = 2 then 2 else 1) (if g.status = 2 then 0x2200 else 0)

/-- Ends the groups that have nothing outstanding. -/
def State.grpSweep (s : State) (f : Nat) : State :=
  match (s.fd f).grps.find? (fun g => decide (g.left = 0)) with
  | some g => ((s.setFd f { s.fd f with grps := (s.fd f).grps.filter (fun y => decide (y.id ≠ g.id)) }).rxSync f).grpEnd f g
  | none => s

/-- A reply to an on-panel transaction: `st` as an ACK gives it, 0 done, 1 rejected, 2 uncorrectable data (spec/12 R351). -/
def State.onPanelEnd (s : State) (f slot st : Nat) (bs : List Byte) : State :=
  let x := s.fd f
  match sfind x.onp slot with
  | none => s
  | some o =>
    let put := fun (g : Grp) =>
      if g.id = o.piece.grp then
        { g with left := g.left - 1, status := if g.status = 0 then st else g.status,
                 data := if o.piece.wdata.isNone && decide (st = 0) then g.data.take o.piece.off ++ bs ++ g.data.drop (o.piece.off + bs.length) else g.data }
      else g
    ((s.setFd f { x with onp := serase x.onp slot, grps := x.grps.map put }).grpSweep f).fdPump f 1

/-- Status of an on-panel reply as an ACK gives it. -/
def ackStatus (st : Nat) : Nat := if st = 1 then 2 else if st = 0 then 0 else 1

/-- FREAD_DATA and FWRITE_ACK at the fabric die (spec/12 R351). -/
def State.onPanelIn (s : State) (p : DynPkt) (ty : Nat) : State :=
  s.pktIn p [ty] (fun s =>
    if epKind p.dst.toNat = 2 then
      let f := epId p.dst.toNat
      let n := bits p.aux.toNat 11 0
      match sfind (s.fd f).onp n with
      | some o => if o.txid = p.txid.toNat ∧ o.piece.wdata.isNone = decide (ty = 9) then s.onPanelEnd f n (ackStatus p.status.toNat) p.payload else s
      | none => s
    else s)

/-- Starts a group for a request received; one of no bytes is answered at once. -/
def State.reqGrp (s : State) (f : Nat) (k : GrpKind) (rx : Option (Nat × Nat)) (size : Nat) (ps : Nat → List Piece) : State :=
  (s.addGrp f k rx size ps).grpSweep f

/-- PUT received (spec/12 R354). -/
def State.putIn (s : State) (f : Nat) (h : JHdr) (data : List Byte) : State :=
  s.jilIn f h 1 0 false data.length (fun s j =>
    let c := s.reqOk f j h.dstRank.toNat h.raddr.toNat data.length
    if c.2 then c.1.reqGrp f (.put h) (rxBuf h data.length) 0 (fun g => piecesOf g h.raddr.toNat data.length (some data)) else c.1.replySend f h 0x10 1 [])

/-- GET received (spec/12 R354): at most 8,192 bytes (R346). -/
def State.getIn (s : State) (f : Nat) (h : JHdr) : State :=
  s.jilIn f h 2 0 false 0 (fun s j =>
    let n := h.aux.toNat
    let c := s.reqOk f j h.dstRank.toNat h.raddr.toNat n
    if c.2 && decide (n ≤ 8192) then c.1.reqGrp f (.get h) none n (fun g => piecesOf g h.raddr.toNat n none) else c.1.replySend f h 0x11 1 [])

/-- The limit that this panel has granted in a credit slot. The spec gives no command by which a receiver sends a CREDIT, and no limit: a
free value (log entry 6). -/
def State.granted (s : State) : Nat := s.freeVal

/-- CPUT received (spec/12 R354, R355): its range lies below the limit granted. -/
def State.cputIn (s : State) (f : Nat) (h : JHdr) (data : List Byte) : State :=
  s.jilIn f h 3 2 true data.length (fun s j =>
    let c := s.takeFree.reqOk f j h.dstRank.toNat h.raddr.toNat data.length
    if c.2 && decide (h.raddr.toNat + data.length ≤ s.granted) then
      c.1.reqGrp f (.put h) (rxBuf h data.length) 0 (fun g => piecesOf g h.raddr.toNat data.length (some data))
    else c.1.replySend f h 0x10 1 [])

/-- MCAST received (spec/12 R366): the data is written for each rank; a rank whose target lies in the window of a site that is absent or
fenced, or that its table does not give to this panel, is reported failed. -/
def State.mcastIn (s : State) (f : Nat) (h : JHdr) (ranks : List (BitVec 24)) (data : List Byte) : State :=
  s.jilIn f h 4 2 false (h.aux.toNat + data.length) (fun s j =>
    let a := h.raddr.toNat
    if s.granted < a + data.length then s.takeFree.replySend f h 0x10 1 []
    else
      let st := ranks.foldl (fun (st : State × List Bool) r =>
        let z := st.1.resolve f j r.toNat
        let here := match z.2 with | some t => t.valid && z.1.isHere f t | none => false
        (z.1, st.2 ++ [here && (isHbm a || (match z.1.siteNode (windowOf a).1 with | some d => z.1.coreOn d | none => false))])) (s.takeFree, [])
      let ok := (st.2.zipIdx).foldl (fun m e => if e.1 then m + 2 ^ e.2 else m) 0
      let bad := (st.2.zipIdx).foldl (fun m e => if e.1 then m else m + 2 ^ e.2) 0
      let fits := if isHbm a then st.1.inWindow f j a data.length else true
      if fits then
        st.1.reqGrp f (.mcast h ok bad) (rxBuf h (h.aux.toNat + data.length)) 0 (fun g => (st.2.filter (fun e => e)).flatMap (fun _ => piecesOf g a data.length (some data)))
      else st.1.replySend f h 0x10 1 [])

-- Replies received (spec/12 R352, R353, R367) ------------------------------------------------------------------------------

/-- The outstanding packet that a reply's TXID names. -/
def State.slotOf (s : State) (f : Nat) (h : JHdr) : Option (Nat × OutPkt) :=
  let n := bits h.txid.toNat 11 0
  match sfind (s.fd f).slots n with
  | some o => if o.gen = bits h.txid.toNat 31 14 then some (n, o) else none
  | none => none

/-- Releases a source slot. -/
def State.freeSlot (s : State) (f n : Nat) : State := s.setFd f { s.fd f with slots := serase (s.fd f).slots n }

/-- List positions of a mask over a copy's ranks. -/
def copyMask (c : List Nat) (m : Nat) : Nat := (c.zipIdx).foldl (fun a e => if m.testBit e.2 then a ||| 2 ^ e.1 else a) 0
/-- All positions of a copy. -/
def copyAll (c : List Nat) : Nat := c.foldl (fun a i => a ||| 2 ^ i) 0

/-- Marks the ranks of a copy of an MCAST (spec/12 R367): a rank failed in one packet has failed. -/
def Xfer.marks (x : Xfer) (ok bad : Nat) : Xfer :=
  let f := x.failed ||| bad
  let d := x.delivered ||| ok
  { x with failed := f, delivered := d - (d &&& f) }

/-- ACK received (spec/12 R353, R354, R367). -/
def State.ackIn (s : State) (f : Nat) (h : JHdr) (ok bad : W64) (len : Nat) : State :=
  s.jilIn f h 0x10 1 true len (fun s _ =>
    match s.slotOf f h with
    | none => s
    | some (n, o) =>
      let s1 := s.freeSlot f n
      match s1.xfer f o.xfer with
      | none => s1
      | some x =>
        let c := (x.copies[o.copy]?).getD []
        let st := bits h.aux.toNat 7 0
        if x.desc.op.toNat = 1 then s
        else if st = 0 then
          (if x.desc.op.toNat = 3 then s1.modXfer f x.id (fun y => y.marks (copyMask c ok.toNat) (copyMask c bad.toNat)) else s1).pktDone f x.id o.pkt
            o.copy
        else (s1.modXfer f x.id (fun y => y.marks 0 (copyAll c))).xferFail f x.id (if st = 2 then 2 else 1) 0x2181)

/-- GET_DATA received (spec/12 R352): the data is written at the GET's own destination. -/
def State.getDataIn (s : State) (f : Nat) (h : JHdr) (data : List Byte) : State :=
  s.jilIn f h 0x11 1 false data.length (fun s _ =>
    match s.slotOf f h with
    | none => s
    | some (n, o) =>
      match s.xfer f o.xfer with
      | none => s.freeSlot f n
      | some x =>
        let st := bits h.aux.toNat 7 0
        if x.desc.op.toNat ≠ 1 then s
        else if st = 0 then
          (s.freeSlot f n).reqGrp f (.back x.id o.pkt) (rxBuf h data.length) 0 (fun g => piecesOf g (x.desc.laddr.toNat + 8192 * o.pkt) data.length (some data))
        else (s.freeSlot f n).xferFail f x.id (if st = 2 then 2 else 1) 0x2181)

/-- CREDIT received (spec/12 R349, R355): the highest limit is kept. -/
def State.creditIn (s : State) (f : Nat) (h : JHdr) (limit : W64) : State :=
  s.jilIn f h 0x20 3 true 8 (fun s _ =>
    let k := 16 * h.ctx.toNat + bits h.aux.toNat 3 0
    s.setFd f { s.fd f with limits := nput 0 (s.fd f).limits k (max (sget 0 (s.fd f).limits k) limit.toNat) })

/-- NOTE received (spec/12 R349, R358, R360). Where its bytes go is not stated: a side that the model leaves out (log entry 20). -/
def State.noteIn (s : State) (f : Nat) (h : JHdr) (data : List Byte) : State :=
  s.jilIn f h 0x21 3 false data.length (fun s j =>
    let r := s.resolve f j h.dstRank.toNat
    match r.2 with
    | some t => if t.valid && !r.1.isHere f t then r.1.bumpErr (nodeFd f) FD_MISROUTE FD_STATUS 26 1 else r.1
    | none => r.1)

/-- REQUEST_RESEND_TIMEOUT (spec/12 R353, R367). -/
def State.resend (s : State) (f slot : Nat) : State :=
  match sfind (s.fd f).slots slot with
  | none => s
  | some o =>
    if !s.fdOn f then s
    else if o.attempt < 3 then
      let a := o.attempt + 1
      let h := { o.h with retry := true, txid := BitVec.ofNat 32 (slot + a * 2 ^ 12 + o.gen * 2 ^ 14) }
      ((s.setFd f { s.fd f with slots := sput (s.fd f).slots slot { o with attempt := a, h := h } }).bumpErr (nodeFd f) FD_RETRY FD_STATUS 27 1).jilSend
        f h.ctx.toNat o.dest h o.data
    else
      let s1 := s.freeSlot f slot
      match s1.xfer f o.xfer with
      | none => s1
      | some x =>
        if x.desc.op.toNat = 3 then
          (s1.modXfer f x.id (fun y => y.marks 0 (copyAll ((x.copies[o.copy]?).getD [])))).pktDone f x.id o.pkt o.copy
        else s1.xferFail f x.id 4 0x2180

/-- A job entry takes another incarnation, or none: transfers posted under the earlier one end with status 5 (spec/12 R357, R358). -/
def State.incarnUpdate (s : State) (f job inc : Nat) : State :=
  ((s.fd f).xfers.filter (fun x => decide (x.job = job) && decide (x.incarn ≠ inc))).foldl (fun t x => t.xferEnd f x.id 5 x.done) s

-- Ports (spec/12 R343, R348) ---------------------------------------------------------------------------------------------

/-- A port goes down or comes up (spec/12 R343): the contexts' ports follow at once; with none up, what waits is not sent. -/
def State.portSet (s : State) (f port : Nat) (up : Bool) : State :=
  if s.fdOn f then
    let s1 := s.setRgB (nodeFd f) FD_STATUS port up
    if s1.portsUp f = [] then s1.setFd f { s1.fd f with txq := [] } else s1.txFlush f
  else s

/-- A pause frame (spec/12 R348, spec/13 R379): the three PFC priorities obey; 0 quanta resume. One quantum is 512 bit times, at 800 Gb/s on a
fabric port and at 400 Gb/s on host port A (16) or B (17). -/
def State.pfcIn (s : State) (f port prio : Nat) (quanta : BitVec 16) : State :=
  if [0, 1, 2].all (fun c => decide (s.clsPcp c ≠ prio)) then s
  else if 16 ≤ f then
    let till := if quanta = 0#16 then 0 else s.ptc16 + cdiv (quanta.toNat * 2048) 100
    (s.setPcd (fun p => { p with hostPaused := nput 0 p.hostPaused (8 * (f - 16) + prio) till })).hostFlush
  else if s.fdOn f then
    let till := if quanta = 0#16 then 0 else s.ptc16 + cdiv (quanta.toNat * 1024) 100
    (s.setFd f { s.fd f with paused := nput 0 (s.fd f).paused (8 * port + prio) till }).txFlush f
  else s

/-- The panel announces its addresses: it has not yielded to a takeover (spec/12 R375). -/
def State.answers (s : State) : Bool := !s.pcd.twinYielded

/-- An ARP request or a Neighbor Solicitation for the address of a fabric die, or of host port A (16) or B (17), is answered (spec/12 R343,
spec/13 R379). -/
def State.arpIn (s : State) (f target : Nat) (v4 : Bool) : State :=
  let ip := if f < 16 then s.ownIp + f else (s.netCfg f).ip
  if 16 ≤ f then
    if s.hostPort (decide (f = 17)) && decide (target = ip) && (decide (ip / 2 ^ 32 = 0xFFFF) == v4) && s.answers then s.emit (.arp (720 + f)) else s
  else if s.fdOn f && !(s.portsUp f).isEmpty && decide (target = ip) && (decide (ip / 2 ^ 32 = 0xFFFF) == v4) && s.answers then s.emit (.arp (nodeFd f))
  else s

/-- The gateway's MAC address is resolved (spec/12 R343). -/
def State.arpReplyIn (s : State) (f : Nat) (mac : BitVec 48) : State :=
  if s.fdOn f then (s.setFd f { s.fd f with gwMac := some mac.toNat }).txFlush f else s

-- Tracker entries: grants and timeouts (spec/10 R285-R287) ------------------------------------------------------------------

/-- Fails every transaction that a memory die holds, and every one that others have sent to it, with status 4 (spec/10 R305). -/
def State.stackLost (s : State) (p q : Nat) : State :=
  (s.part p).stackList.foldl (fun t m =>
    let hit := fun (x : Tx) => decide (m = q) || (match x.src with
        | some a => isHbm a && (match t.hbmMap p a with | some (k, _) => decide (k = q) | none => false)
        | none => false) || (isHbm x.dst && (match t.hbmMap p x.dst with | some (k, _) => decide (k = q) | none => false))
    let dead := (t.md m).trk.filter (fun e => match t.dmaItem m e.2.item with
      | some i => (match i.txs[e.2.tx]? with | some x => hit x | none => false)
      | none => false)
    let t1 := dead.foldl (fun u e => (u.txEnd m e.2.item e.2.tx e.1 (.failed 7))) t
    let t2 := if m = q then t1.setMd m { t1.md m with items := (t1.md m).items.map (fun i =>
        { i with txs := i.txs.map (fun x => if x.st = .waiting then { x with st := .failed 7 } else x) }) } else t1
    ((t2.md m).items.map (·.id)).foldl (fun u id => u.itemCheck m id) t2) s

/-- The on-panel transactions of a partition's fabric dies that a failed memory die holds or that go to its stack fail (spec/10 R305). -/
def State.onPanelLost (s : State) (p q : Nat) : State :=
  (s.regionsOf p).foldl (fun t f =>
    ((t.fd f).onp.filter (fun e => decide (e.2.md = q) || (isHbm e.2.piece.addr &&
      (match t.hbmMap p e.2.piece.addr with | some (k, _) => decide (k = q) | none => false)))).foldl (fun u e => u.onPanelEnd f e.1 1 []) t) s

/-- A memory die declares a stack failed (spec/10 R304, R305, R310); Uttos fences it at the event. -/
def State.stackFailed (s : State) (q cause : Nat) : State :=
  let p := s.partOfMd q
  let s1 := (s.setRgB (nodeMd q) MD_STATUS 1 true).mdRecord q 3 cause 0 0 0
  (((s1.raise (nodeMd q) 0x3200 (unitStack q) 0).descsEnd (fun e => decide (e.1 = q)) 4 0x3200).stackLost p q).onPanelLost p q

/-- A transaction to a stack timed out: the sixteenth within 1 s to one stack declares it failed (spec/10 R304). -/
def State.tmoSeen (s : State) (m : Nat) (peer : Option Nat) : State :=
  match peer with
  | none => s
  | some q =>
    let l := (s.md m).tmos.filter (fun e => decide (s.ptc < e.1 + 1000000000)) ++ [(s.ptc, q)]
    let s1 := s.setMd m { s.md m with tmos := l }
    if 16 ≤ (l.filter (fun e => decide (e.2 = q))).length then s1.stackFailed q 3 else s1

/-- Memory die of an address of a partition: none for a scratchpad. -/
def State.stackOf (s : State) (p a : Nat) : Option Nat := if isHbm a then (s.hbmMap p a).map (·.1) else none

/-- A timeout is counted and recorded (spec/10 R287, R310). -/
def State.tmoCount (s : State) (m : Nat) (peer : Option Nat) : State :=
  (s.bumpErr (nodeMd m) MD_TIMEOUT MD_STATUS 29 1).mdRecord m 2 0 0 (peer.getD m) 0

/-- TRANSACTION_TIMEOUT (spec/10 R287, R304, R310): a later reply is discarded. -/
def State.txTimeout (s : State) (m txid : Nat) : State :=
  match sfind (s.md m).trk txid with
  | none => s
  | some t =>
    if s.mdOn m then
      match s.dmaItem m t.item with
      | none => s.freeTrk m txid
      | some i =>
        let x := (i.txs[t.tx]?).getD default
        let peer := s.stackOf (s.partOfMd m) (if x.rd || x.src.isNone then x.dst else x.src.getD 0)
        let s1 := (s.tmoCount m peer).txEnd m i.id t.tx txid (.failed 4)
        ((s1.setMd m { s1.md m with lostTx := insUniq txid (s1.md m).lostTx }).itemCheck m i.id).tmoSeen m peer
    else s

/-- STACK_FAIL (spec/10 R304, R305): cause 2 needs uncorrectable codewords in 4 different sectors within 1 s. -/
def State.stackFail (s : State) (m cause : Nat) : State :=
  if s.mdOn m then
    if cause = 2 ∧ ((s.md m).badSectors.filter (fun b => decide (s.ptc < b.1 + 1000000000))).length < 4 then s
    else s.stackFailed m cause
  else s

/-- TRACKER_ENTRY_GRANT: class 1 serves the region's fabric die. -/
def State.entryGrant (s : State) (m cls : Nat) : State := if cls = 1 then (if s.mdOn m then s.fdPump (m / 8) 1 else s) else s.trkGrant m cls

/-- TRANSACTION_TIMEOUT: a class-1 entry is a fabric die's on-panel transaction, which fails. -/
def State.entryTimeout (s : State) (m txid : Nat) : State :=
  if 1024 ≤ txid ∧ txid < 1536 then
    match (s.fd (m / 8)).onp.find? (fun e => decide (e.2.md = m) && decide (e.2.txid = txid)) with
    | some e =>
      if s.mdOn m then
        let peer := s.stackOf (s.partOfMd m) e.2.piece.addr
        ((s.tmoCount m peer).onPanelEnd (m / 8) e.1 1 []).tmoSeen m peer
      else s
    | none => s
  else s.txTimeout m txid

-- The meanings --------------------------------------------------------------------------------------------------------

/-- TRACKER_ENTRY_GRANT (spec/10 R286). -/
def execTrackerEntryGrant (md cls : Nat) (s : State) : Host.Outcome State Fault Refusal :=
  guard (Instr.trackerEntryGrant md cls).wf (s.entryGrant md cls)
/-- TRANSACTION_TIMEOUT (spec/10 R287). -/
def execTransactionTimeout (md txid : Nat) (s : State) : Host.Outcome State Fault Refusal :=
  guard (Instr.transactionTimeout md txid).wf (s.entryTimeout md txid)
/-- STACK_FAIL (spec/10 R305). -/
def execStackFail (md cause : Nat) (s : State) : Host.Outcome State Fault Refusal :=
  guard (Instr.stackFail md cause).wf (s.stackFail md cause)
/-- FREAD (spec/12 R351). -/
def execFread (p : DynPkt) (s : State) : Host.Outcome State Fault Refusal := guard (Instr.fread p).wf (s.freadIn p)
/-- FREAD_DATA (spec/12 R351). -/
def execFreadData (p : DynPkt) (s : State) : Host.Outcome State Fault Refusal := guard (Instr.freadData p).wf (s.onPanelIn p 9)
/-- FWRITE (spec/12 R351). -/
def execFwrite (p : DynPkt) (s : State) : Host.Outcome State Fault Refusal := guard (Instr.fwrite p).wf (s.fwriteIn p)
/-- FWRITE_ACK (spec/12 R351). -/
def execFwriteAck (p : DynPkt) (s : State) : Host.Outcome State Fault Refusal := guard (Instr.fwriteAck p).wf (s.onPanelIn p 11)
/-- WRITE (spec/11 R327, spec/12 R350). -/
def execWrite (p : DynPkt) (s : State) : Host.Outcome State Fault Refusal := guard (Instr.write p).wf (s.writeAt p)
/-- DOORBELL (spec/12 R350). -/
def execDoorbell (fd ctx : Nat) (val : W32) (s : State) : Host.Outcome State Fault Refusal :=
  guard (Instr.doorbell fd ctx val).wf ((s.bellDrop fd ctx val).doorbell fd ctx val)
/-- TRANSFER_PUT (spec/12 R351). -/
def execTransferPut (fd ctx : Nat) (d : FabDesc) (s : State) : Host.Outcome State Fault Refusal :=
  guard (Instr.transferPut fd ctx d).wf (s.post fd ctx { d with op := 0#4 })
/-- TRANSFER_GET (spec/12 R351). -/
def execTransferGet (fd ctx : Nat) (d : FabDesc) (s : State) : Host.Outcome State Fault Refusal :=
  guard (Instr.transferGet fd ctx d).wf (s.post fd ctx { d with op := 1#4 })
/-- TRANSFER_CPUT (spec/12 R355). -/
def execTransferCput (fd ctx : Nat) (d : FabDesc) (s : State) : Host.Outcome State Fault Refusal :=
  guard (Instr.transferCput fd ctx d).wf (s.post fd ctx { d with op := 2#4 })
/-- CPUT_START (spec/12 R355). -/
def execCputStart (fd ctx : Nat) (s : State) : Host.Outcome State Fault Refusal := guard (Instr.cputStart fd ctx).wf (s.cputGo fd ctx)
/-- TRANSFER_MCAST (spec/12 R365). -/
def execTransferMcast (fd ctx : Nat) (d : FabDesc) (s : State) : Host.Outcome State Fault Refusal :=
  guard (Instr.transferMcast fd ctx d).wf (s.post fd ctx { d with op := 3#4 })
/-- TRANSFER_NOTE (spec/12 R350). -/
def execTransferNote (fd ctx : Nat) (d : FabDesc) (s : State) : Host.Outcome State Fault Refusal :=
  guard (Instr.transferNote fd ctx d).wf (s.post fd ctx { d with op := 4#4 })
/-- PUT (spec/12 R354). -/
def execPut (fd : Nat) (h : JHdr) (data : List Byte) (s : State) : Host.Outcome State Fault Refusal :=
  guard (Instr.put fd h data).wf (s.putIn fd h data)
/-- GET (spec/12 R354). -/
def execGet (fd : Nat) (h : JHdr) (s : State) : Host.Outcome State Fault Refusal := guard (Instr.get fd h).wf (s.getIn fd h)
/-- CPUT (spec/12 R354). -/
def execCput (fd : Nat) (h : JHdr) (data : List Byte) (s : State) : Host.Outcome State Fault Refusal :=
  guard (Instr.cput fd h data).wf (s.cputIn fd h data)
/-- MCAST (spec/12 R366). -/
def execMcast (fd : Nat) (h : JHdr) (ranks : List (BitVec 24)) (data : List Byte) (s : State) : Host.Outcome State Fault Refusal :=
  guard (Instr.mcast fd h ranks data).wf (s.mcastIn fd h ranks data)
/-- ACK (spec/12 R367): an ACK of an MCAST carries 16 bytes. -/
def execAck (fd : Nat) (h : JHdr) (delivered failed : W64) (s : State) : Host.Outcome State Fault Refusal :=
  guard (Instr.ack fd h delivered failed).wf (s.ackIn fd h delivered failed h.len.toNat)
/-- GET_DATA (spec/12 R352). -/
def execGetData (fd : Nat) (h : JHdr) (data : List Byte) (s : State) : Host.Outcome State Fault Refusal :=
  guard (Instr.getData fd h data).wf (s.getDataIn fd h data)
/-- CREDIT (spec/12 R355). -/
def execCredit (fd : Nat) (h : JHdr) (limit : W64) (s : State) : Host.Outcome State Fault Refusal :=
  guard (Instr.credit fd h limit).wf (s.creditIn fd h limit)
/-- NOTE (spec/12 R349). -/
def execNote (fd : Nat) (h : JHdr) (data : List Byte) (s : State) : Host.Outcome State Fault Refusal :=
  guard (Instr.note fd h data).wf (s.noteIn fd h data)
/-- REQUEST_RESEND_TIMEOUT (spec/12 R353). -/
def execRequestResendTimeout (fd slot : Nat) (s : State) : Host.Outcome State Fault Refusal :=
  guard (Instr.requestResendTimeout fd slot).wf (s.resend fd slot)
/-- FABRIC_PORT_DOWN (spec/12 R343). -/
def execFabricPortDown (fd port : Nat) (s : State) : Host.Outcome State Fault Refusal :=
  guard (Instr.fabricPortDown fd port).wf (s.portSet fd port false)
/-- FABRIC_PORT_UP (spec/12 R343). -/
def execFabricPortUp (fd port : Nat) (s : State) : Host.Outcome State Fault Refusal :=
  guard (Instr.fabricPortUp fd port).wf (s.portSet fd port true)
/-- PFC_PAUSE_FRAME (spec/12 R348). -/
def execPfcPauseFrame (fd port prio : Nat) (quanta : BitVec 16) (s : State) : Host.Outcome State Fault Refusal :=
  guard (Instr.pfcPauseFrame fd port prio quanta).wf (s.pfcIn fd port prio quanta)
/-- ARP_REQUEST (spec/12 R343). -/
def execArpRequest (fd target : Nat) (s : State) : Host.Outcome State Fault Refusal :=
  guard (Instr.arpRequest fd target).wf (s.arpIn fd target true)
/-- NEIGHBOR_SOLICITATION (spec/12 R343). -/
def execNeighborSolicitation (fd target : Nat) (s : State) : Host.Outcome State Fault Refusal :=
  guard (Instr.neighborSolicitation fd target).wf (s.arpIn fd target false)
/-- ARP_REPLY (spec/12 R343). -/
def execArpReply (fd : Nat) (mac : BitVec 48) (s : State) : Host.Outcome State Fault Refusal :=
  guard (decide (fd < 16)) (s.arpReplyIn fd mac)

end Sys2Proof.Machine
end

