-- ==== Sys2Proof/Machine/Twin.lean ====
section
/-! DEFINITION. The ring (option G), the twin link (option T), and the loss of a fabric die (spec/12 R368-R376, spec/01 R48). -/

namespace Sys2Proof.Machine

/-- The twin link is trained; the pair is matched. -/
def State.twinUp (s : State) : Bool := s.fdOn 0 && s.enT && s.rgB (nodeFd 0) FD_TWIN_STATUS 7
def State.matched (s : State) : Bool := s.twinRole ≠ 0 && s.rgB (nodeFd 0) FD_TWIN_STATUS 5

/-- Partition that holds region 0 (spec/12 R368, R376). -/
def State.part0 (s : State) : Nat := (s.partOfRegion 0).getD 0

/-- RING_FORWARD (spec/12 R369-R371): a frame for another position goes on to the other port; the panel at the dateline sets VC 1; one that
has come back to its source is discarded. Past a panel whose bypass is closed (in bypass, unpowered, or with G not enabled, spec/00 R8) the
frame goes on in the fibre as it is; without the option there is no ring. -/
def State.ringPass (s : State) (rdst rsrc : Nat) (west vc : Bool) (cls frame : Nat) : State :=
  let n := nodeFd 0
  if s.fdOn 0 && s.enG && s.rgB n FD_RING_STATUS 3 then
    let me := s.ringPos
    if rdst = me then s
    else if rsrc = me then s.bumpErr n FD_MISROUTE FD_STATUS 26 1
    else if s.rgB n FD_RING_STATUS (if west then 0 else 1) then
      s.emit (.ring west (vc || (if west then decide (me = 0) else decide (me + 1 = s.ringSize))) cls rdst rsrc frame)
    else s
  else if s.fuses.hasG && !(s.enG && s.rgB n FD_RING_STATUS 3 && s.regionUp 0) then s.emit (.ring west vc cls rdst rsrc frame)
  else s

/-- A ring port's training (spec/12 R371, spec/15 R436): the bypass opens once both ports have trained. -/
def State.ringPort (s : State) (east up : Bool) : State :=
  let n := nodeFd 0
  if s.fdOn 0 && s.enG then
    let s1 := s.setRgB n FD_RING_STATUS (b2n east) up
    if s1.rgB n FD_RING_STATUS 0 && s1.rgB n FD_RING_STATUS 1 then s1.setRgB n FD_RING_STATUS 3 true else s1
  else s

/-- The twin link's training (spec/12 R373, spec/15 R436). -/
def State.twinLink (s : State) (up : Bool) : State := if s.fdOn 0 && s.enT then s.setRgB (nodeFd 0) FD_TWIN_STATUS 7 up else s

/-- A heartbeat is received on a path (spec/12 R373): the run of missed windows ends. The last numbers of each path are kept. -/
def State.heartbeatIn (s : State) (onTwin : Bool) (k m : Nat) : State :=
  if s.twinRole = 0 || (onTwin && !s.twinUp) then s
  else
    let s1 := s.setPcd (fun p => if onTwin then { p with hbSeen := appendCap 4 p.hbSeen k } else { p with hbHostSeen := appendCap 4 p.hbHostSeen k })
    ((s1.setPcd (fun p => { p with hbMirror := m })).setRgF (nodeFd 0) FD_TWIN_STATUS 23 16 0).setRgB (nodeFd 0) FD_TWIN_STATUS 6
      (s1.pcd.hbHostSeen.contains k)

/-- HEARTBEAT_SEND (spec/12 R373): heartbeat k on both paths, with the role, the health summary, whose content is not stated (log entry 6), and
the number of the last mirrored checkpoint. -/
def State.heartbeatOut (s : State) : State :=
  if s.twinRole = 0 then s
  else
    let k := s.ptc / 1000000
    let m := s.rg (nodeFd 0) FD_MIRROR_SEQ
    let s1 := if s.twinUp then s.takeFree.emit (.heartbeat true k m s.twinRole s.freeVal) else s.takeFree
    (s1.emit (.heartbeat false k m s.twinRole s.freeVal)).setPcd (fun p => { p with hbSent := k })

/-- The tailstock takes over (spec/12 R374): it leaves warm-hold, claims and announces the addresses, sends TAKEOVER, and takes the role. The
restart of the mirrored jobs is Uttos's and the hosts' (log entry 21). -/
def State.takeOver (s : State) : State :=
  let s1 := (s.partCfgs.map (·.num)).foldl (fun t p =>
    if (t.part p).pstate = 2 then t.setPart p { t.part p with pstate := 0, waking := false, entering := false } else t) s
  let s2 := (List.range s.cutRegions).foldl (fun t f => t.emit (.arp (nodeFd f))) ((s1.emit (.arp 736)).emit (.arp 737))
  let s3 := (s2.emit (.takeoverMsg true)).emit (.takeoverMsg false)
  ((s3.setRgF (nodeFd 0) FD_TWIN_STATUS 1 0 1).setRgB (nodeFd 0) FD_TWIN_STATUS 4 true).pcdEvent 0x1190 31 0 0

/-- HEARTBEAT_WINDOW_MISS (spec/12 R373, R374): window k closes. A heartbeat k received on either path has saved it. -/
def State.windowMiss (s : State) (k : Nat) : State :=
  if s.twinRole = 0 || s.pcd.hbSeen.contains k || s.pcd.hbHostSeen.contains k then s
  else
    let n := nodeFd 0
    let m := min 255 (s.rgF n FD_TWIN_STATUS 23 16 + 1)
    let s1 := ((s.bumpErr n FD_HB_MISS FD_STATUS 25 1).setRgF n FD_TWIN_STATUS 23 16 m).setRgB n FD_TWIN_STATUS 6 false
    if s.twinRole = 2 && s.matched && decide (3 ≤ m) then s1.takeOver else s1

/-- TAKEOVER received by a headstock (spec/12 R375): it stops announcing its addresses and fails every job. -/
def State.takeoverIn (s : State) (onTwin : Bool) : State :=
  if s.twinRole ≠ 1 || (onTwin && !s.twinUp) || s.pcd.twinYielded then s
  else (s.setPcd (fun p => { p with twinYielded := true })).pcdEvent 0x4190 31 0 0

/-- MIRROR_COMPLETE (spec/12 R376, spec/13 R387): the number is recorded, and the CHECKPOINT items that wait for it complete. -/
def State.mirrored (s : State) (k : Nat) : State :=
  let n := nodeFd 0
  if s.matched then
    let s1 := if wrapSub 32 k (s.rg n FD_MIRROR_SEQ) < 2 ^ 31 then s.setRg n FD_MIRROR_SEQ k else s
    (sessionsOf s.part0).foldl (fun t q =>
      ((t.session q).items.filter (fun i => i.acted && decide (i.w.op.toNat = 0x13) && decide (i.w.ckpt.toNat = k))).foldl (fun u i =>
        u.complete q i.w.sseq.toNat 0 0 i.w.length.toNat) t) s1
  else s

/-- The loss of a fabric die (spec/01 R48, spec/12 R377, spec/16 R460): every job with a transfer on it fails with 0x2183, and it is fenced. -/
def State.fdLoss (s : State) (f : Nat) : State :=
  if s.fdOn f then
    let p := s.partOfFd f
    let jobs := ((s.fd f).xfers.map (fun x => x.job)).eraseDups
    let u := unitDie (nodeFd f)
    let hit := ((s.part p).ctxs.filter (fun e => jobs.contains e.2.job)).map (·.1)
    let s1 := s.setFd f { (default : Fdie) with lost := true }
    if hit = [] then (s1.putEvent 0x2183 p u 0 s.ptc (0, 0) true).consequence 0x2183 u
    else hit.foldl (fun t c => t.ctxEvent 0x2183 p c u 0) s1
  else s

-- The meanings --------------------------------------------------------------------------------------------------------

/-- HEARTBEAT (spec/12 R373). -/
def execHeartbeat (onTwin : Bool) (number mirrored : W32) (s : State) : Host.Outcome State Fault Refusal :=
  guard (Instr.heartbeat onTwin number mirrored).wf (s.heartbeatIn onTwin number.toNat mirrored.toNat)
/-- TAKEOVER (spec/12 R375). -/
def execTakeover (onTwin : Bool) (s : State) : Host.Outcome State Fault Refusal := guard (Instr.takeover onTwin).wf (s.takeoverIn onTwin)
/-- RING_FORWARD (spec/12 R369). -/
def execRingForward (rdst rsrc : BitVec 5) (west vc : Bool) (cls : BitVec 2) (frame : Nat) (s : State) : Host.Outcome State Fault Refusal :=
  guard (Instr.ringForward rdst rsrc west vc cls frame).wf (s.ringPass rdst.toNat rsrc.toNat west vc cls.toNat frame)
/-- HEARTBEAT_SEND (spec/12 R373). -/
def execHeartbeatSend (s : State) : Host.Outcome State Fault Refusal := guard Instr.heartbeatSend.wf s.heartbeatOut
/-- HEARTBEAT_WINDOW_MISS (spec/12 R373). -/
def execHeartbeatWindowMiss (number : W32) (s : State) : Host.Outcome State Fault Refusal :=
  guard (Instr.heartbeatWindowMiss number).wf (s.windowMiss number.toNat)
/-- MIRROR_COMPLETE (spec/12 R376). -/
def execMirrorComplete (number : W32) (s : State) : Host.Outcome State Fault Refusal :=
  guard (Instr.mirrorComplete number).wf (s.mirrored number.toNat)
/-- RING_PORT_DOWN (spec/12 R371). -/
def execRingPortDown (east : Bool) (s : State) : Host.Outcome State Fault Refusal := guard (Instr.ringPortDown east).wf (s.ringPort east false)
/-- RING_PORT_UP (spec/15 R436). -/
def execRingPortUp (east : Bool) (s : State) : Host.Outcome State Fault Refusal := guard (Instr.ringPortUp east).wf (s.ringPort east true)
/-- TWIN_LINK_DOWN (spec/12 R373). -/
def execTwinLinkDown (s : State) : Host.Outcome State Fault Refusal := guard Instr.twinLinkDown.wf (s.twinLink false)
/-- TWIN_LINK_UP (spec/15 R436). -/
def execTwinLinkUp (s : State) : Host.Outcome State Fault Refusal := guard Instr.twinLinkUp.wf (s.twinLink true)
/-- FABRIC_DIE_LOSS (spec/01 R48). -/
def execFabricDieLoss (fd : Nat) (s : State) : Host.Outcome State Fault Refusal := guard (decide (fd < 16)) (s.fdLoss fd)

end Sys2Proof.Machine
end

