-- ==== Sys2Proof/Machine/Routes.lean ====
section
/-! DEFINITION. Placement on the glass: row maps, routes and shares of logical links, module roles, ports (spec/01 R32-R46, spec/11
R313-R316, R341). -/

namespace Sys2Proof.Machine

-- Row maps (spec/01 R32-R36) ---------------------------------------------------------------------------------------------

/-- Node of the site at physical offset o of compute row n of a region. -/
def rowNode (r n o : Nat) : Nat := 36 * (4 * (r / 4) + n) + 9 * (r % 4) + o

/-- The shift origin that the field knot log records for a row (spec/01 R32, spec/15 R438: TYPE 6, KIND 1, the offset-0 site's node). -/
def State.shiftOrigin (s : State) (r n : Nat) : Option Nat :=
  (s.nvm.knots.find? (fun k => decide (k.type = 6) && decide (unitNode k.unit = rowNode r n 0))).map (fun k => bits (unitIndex k.unit) 3 0)

/-- Records a row's shift origin. -/
def State.recordOrigin (s : State) (r n j : Nat) : State := s.knot (unitCode 1 (rowNode r n 0) (j + 16 * n)) 6

/-- The shift origin in force after an exclusion: the recorded one, or the one that the rule records now (spec/01 R32, R33). -/
def originFor (old : Option Nat) (excl : List Nat) : Option Nat :=
  match old with
  | some j => some j
  | none => if excl.contains 8 then none else (List.range 8).find? (fun o => excl.contains o)

/-- Physical offset of logical offset k. -/
def posOf (j : Option Nat) (k : Nat) : Nat := match j with | some j => if j ≤ k then k + 1 else k | none => k

/-- RS.ROW_MAPn (spec/01 R36): `absent` holds the logical offsets that have no route (R42) besides those that have no site. -/
def rowWord (j : Option Nat) (excl absent : List Nat) : Nat :=
  let gone := (List.range 8).filter (fun k => excl.contains (posOf j k) || absent.contains k)
  let mask := fun (l : List Nat) => l.foldl (fun a o => a ||| 2 ^ o) 0
  let spare := if excl.contains 8 then 2 else if j.isSome ∧ !gone.contains 7 then 1 else 0
  (j.getD 8) * 2 ^ 20 + spare * 2 ^ 18 + mask excl * 2 ^ 9 + (if gone = [] then 0 else 2 ^ 8) + mask gone

/-- The map of one row from its excluded sites (spec/01 R32). -/
def State.mapRow (s : State) (excluded : List Nat) (r n : Nat) : State :=
  let excl := (List.range 9).filter (fun o => excluded.contains (rowNode r n o))
  let old := s.shiftOrigin r n
  let j := originFor old excl
  let s1 := match old, j with
    | none, some j => s.recordOrigin r n j
    | _, _ => s
  s1.setRg (nodeRs r) (RS_ROW_MAP n) (rowWord j excl [])

/-- A logical site is held one site east of its default. -/
def State.shifted (s : State) (site : Nat) : Bool :=
  match s.siteNode site with
  | some d => decide (d % 36 % 9 ≠ site % 8)
  | none => false

-- Physical links (spec/01 R37, R38) ---------------------------------------------------------------------------------------

/-- The node at the far end of a router's port: 0-3 neighbours north, east, south, west; 4-7 skips (spec/11 R341). -/
def State.farNode (s : State) (n port : Nat) : Option Nat :=
  let k := 1 + port / 4
  let x := n % 36
  let y := n / 36
  let far := if port % 4 = 0 then (if y + k < 16 then some (n + 36 * k) else none)
    else if port % 4 = 1 then (if x + k < 36 then some (n + k) else none)
    else if port % 4 = 2 then (if k ≤ y then some (n - 36 * k) else none)
    else (if k ≤ x then some (n - k) else none)
  match far with
  | some m => if port < 8 ∧ ((regionOfNode m).getD 16) < s.cutRegions then some m else none
  | none => none

/-- The same link's port at the other end. -/
def portBack (port : Nat) : Nat := port / 4 * 4 + (port % 4 + 2) % 4

/-- A physical link is marked bad, at either end. -/
def State.linkBad (s : State) (n port : Nat) : Bool :=
  s.pcd.badLinks.contains (n, port) || (match s.farNode n port with | some m => s.pcd.badLinks.contains (m, portBack port) | none => false)

/-- Good modules of a port, ascending: 8 of a neighbour link, 4 of a skip or attachment link (spec/01 R38, R45, spec/11 R313). A module is
bad in both directions. -/
def State.goodModules (s : State) (n port : Nat) : List Nat :=
  (List.range (if port < 4 then 8 else 4)).filter (fun k =>
    !s.pcd.badModules.contains (n, port, k) &&
      (match s.farNode n port with | some m => !s.pcd.badModules.contains (m, portBack port, k) | none => true))

-- Routes (spec/01 R39-R44) -------------------------------------------------------------------------------------------------

/-- Key of a physical link: its lower end and that end's port. -/
def linkKey (u v : Nat) : Nat := min u v * 16 + (portTo (min u v) (max u v)).getD 15

/-- The paths that the table allows for a logical link, in order of preference (spec/01 R39). -/
def pathsOf (a b : Nat) (aShifted bShifted : Bool) : List (List Nat) :=
  let ax := a % 36
  let bx := b % 36
  let dx := max ax bx - min ax bx
  let dy := max (a / 36) (b / 36) - min (a / 36) (b / 36)
  let w := min a b
  if (dx = 1 ∧ dy = 0) ∨ (dx = 0 ∧ dy = 1) then [[a, b]]
  else if dx = 2 ∧ dy = 0 then [[a, b], [a, w + 1, b]]
  else if dx = 3 ∧ dy = 0 then [[a, w + 1, b], [a, w + 2, b]]
  else if dx = 1 ∧ dy = 1 then
    let corner := fun (col row : Nat) => 36 * row + col
    let c1 := if bShifted ∧ !aShifted then corner bx (a / 36) else corner ax (b / 36)
    let c2 := if bShifted ∧ !aShifted then corner ax (b / 36) else corner bx (a / 36)
    [[a, c1, b], [a, c2, b]]
  else []

/-- Hops of a path. -/
def hopsOf : List Nat → List (Nat × Nat)
  | u :: v :: r => (u, v) :: hopsOf (v :: r)
  | _ => []

/-- What has been routed so far: the routes, the shares on each link, the positions without a route, and each route's links. -/
structure RouteSt where
  routes : List (Route × List Nat)
  use : SMap Nat
  absent : List Nat
deriving DecidableEq, Repr, Inhabited

/-- A hop has room for one more share of 3 modules beside one dynamic module (spec/01 R41, spec/11 R313). -/
def State.hopRoom (s : State) (use : SMap Nat) (u v : Nat) : Bool :=
  match portTo u v with
  | some port =>
    let k := sget 0 use (linkKey u v)
    !s.linkBad u port && decide (k < (if port < 4 then 2 else 1)) && decide (3 * (k + 1) + 1 ≤ (s.goodModules u port).length)
  | none => false

/-- A path is usable: its intermediate router in service and in a region of one of its ends, and room on each hop (spec/01 R39, R44). -/
def State.pathOk (s : State) (use : SMap Nat) (a b : Nat) (path : List Nat) : Bool :=
  path.all (fun n => n = a || n = b || (!s.routerOut n && (regionOfNode n == regionOfNode a || regionOfNode n == regionOfNode b))) &&
    (hopsOf path).all (fun h => s.hopRoom use h.1 h.2)

/-- A route over a path, with the keys of its links. -/
def routeOver (lo : Nat) (east : Bool) (a : Nat) (path : List Nat) : Route × List Nat :=
  let via := if path.length = 3 then path[1]? else none
  let skip := match path[1]? with | some v => decide (4 ≤ (portTo a v).getD 0) | none => false
  ({ lo := lo, east := east, via := via, skipFirst := skip }, (hopsOf path).map (fun h => linkKey h.1 h.2))

/-- A link gets a route over a path, and its shares. -/
def RouteSt.take (st : RouteSt) (lo : Nat) (east : Bool) (a : Nat) (path : List Nat) : RouteSt :=
  let e := routeOver lo east a path
  { st with routes := st.routes ++ [e], use := e.2.foldl (fun u k => sput u k (sget 0 u k + 1)) st.use }

/-- The routes that a test names are given up, and their shares. -/
def RouteSt.release (st : RouteSt) (mine : Route → Bool) : RouteSt :=
  { st with routes := st.routes.filter (fun e => !mine e.1),
            use := ((st.routes.filter (fun e => mine e.1)).flatMap (·.2)).foldl (fun u k => sput u k (sget 0 u k - 1)) st.use }

/-- A link without a usable route: the end with the higher index is absent, and its links release their shares (spec/01 R42). -/
def RouteSt.drop (st : RouteSt) (hi : Nat) : RouteSt :=
  let t := st.release (fun r => decide (r.lo = hi) || decide ((if r.east then r.lo + 1 else r.lo + 32) = hi))
  { t with absent := t.absent ++ [hi] }

/-- The next logical link is routed (spec/01 R42). -/
def State.routeLink (s : State) (st : RouteSt) (lo : Nat) (east : Bool) : RouteSt :=
  let hi := if east then lo + 1 else lo + 32
  match s.siteNode lo, s.siteNode hi with
  | some a, some b =>
    if st.absent.contains lo || st.absent.contains hi || s.routerOut a || s.routerOut b then st
    else
      let paths := pathsOf a b (s.shifted lo) (s.shifted hi)
      match paths.find? (fun path => s.pathOk st.use a b path) with
      | some path => st.take lo east a path
      | none => st.drop hi
  | _, _ => st

/-- A link whose route measured more than Λ takes its next one, the others keeping theirs; without one R42 applies (spec/11 R321). -/
def State.routeNext (s : State) (st : RouteSt) (l : Nat × Bool × Nat) : RouteSt :=
  let lo := l.1
  let east := l.2.1
  let hi := if east then lo + 1 else lo + 32
  match s.siteNode lo, s.siteNode hi with
  | some a, some b =>
    let paths := pathsOf a b (s.shifted lo) (s.shifted hi)
    match paths[l.2.2]? with
    | some path =>
      if st.routes.contains (routeOver lo east a path) then
        let t := st.release (fun r => r.lo == lo && r.east == east)
        match (paths.drop (l.2.2 + 1)).find? (fun q => s.pathOk t.use a b q) with
        | some q => t.take lo east a q
        | none => t.drop hi
      else st
    | none => st
  | _, _ => st

/-- Logical links of a partition in their fixed order (spec/01 R42, R44). -/
def State.linksOf (s : State) (p : Nat) : List (Nat × Bool) :=
  let mine := fun (i : Nat) => decide (i < 512) && decide (s.partOfSite i = some p)
  (List.range' 0 512).flatMap (fun i =>
    (if i % 32 < 31 ∧ mine i ∧ mine (i + 1) then [(i, true)] else []) ++ (if mine i ∧ mine (i + 32) then [(i, false)] else []))

/-- Routes and shares of a partition (spec/01 R42, spec/11 R321): its routes replace those it had, a route that Shaping measures too long gives
way to the link's next; a position without a route becomes absent. -/
def State.routePart (s : State) (p : Nat) : State :=
  let st := s.pcd.longRoutes.foldl s.routeNext ((s.linksOf p).foldl (fun a l => s.routeLink a l.1 l.2) default)
  let others := s.pcd.routes.filter (fun r => decide (s.partOfSite r.lo ≠ some p))
  let keep := s.pcd.routeAbsent.filter (fun i => decide (s.partOfSite i ≠ some p))
  let s1 := s.setPcd (fun q => { q with routes := others ++ st.routes.map (·.1), routeAbsent := keep ++ st.absent })
  st.absent.foldl (fun t i =>
    let r := 4 * (i / 32 / 4) + i % 32 / 8
    let n := i / 32 % 4
    let w := t.rowMap r n
    let w1 := w ||| 2 ^ (i % 8) ||| 2 ^ 8
    t.setRg (nodeRs r) (RS_ROW_MAP n) (if i % 8 = 7 ∧ bits w 19 18 = 1 then setBits w1 19 18 0 else w1)) s1

-- Ports and modules (spec/11 R316, R341) -----------------------------------------------------------------------------------

/-- A memory die attaches to a site's router (spec/01 R45). -/
def attachMd (n : Nat) : Option Nat :=
  let y := n / 36
  let o := n % 36 % 9
  if o < 8 ∧ (y % 4 = 1 ∨ y % 4 = 2) then some (8 * (4 * (y / 4) + n % 36 / 9) + (if y % 4 = 1 then 0 else 4) + o / 2) else none

/-- A port is trained and in use: not across a partition's boundary, its routers in service, its link good (spec/11 R341, spec/16 R450). -/
def State.portUp (s : State) (n port : Nat) : Bool :=
  decide (3 ≤ s.pcd.stageDone) && !s.routerOut n && s.regionOn ((regionOfNode n).getD 16) &&
    (if port = 8 then
      (match attachMd n with | some m => s.mdOn m && !s.pcd.badLinks.contains (n, 8) | none => false)
    else
      (match s.farNode n port with
       | some m => !s.routerOut m && decide (s.partOfNode n = s.partOfNode m) && s.regionOn ((regionOfNode m).getD 16) && !s.linkBad n port
       | none => false))

/-- Shares on the link of a port. -/
def State.sharesOn (s : State) (n port : Nat) : Nat :=
  match s.farNode n port with
  | some m =>
    (s.pcd.routes.filter (fun r =>
      match s.siteNode r.lo, s.siteNode (if r.east then r.lo + 1 else r.lo + 32) with
      | some a, some b =>
        let path := match r.via with | some v => [a, v, b] | none => [a, b]
        (hopsOf path).any (fun h => decide (h = (n, m)) || decide (h = (m, n)))
      | _, _ => false)).length
  | none => 0

/-- Code of a module (spec/11 R316, R341): the shares take the good modules in ascending order, three each; the rest are dynamic. -/
def State.moduleCode (s : State) (n port k : Nat) : Nat :=
  if !s.portUp n port then 0
  else
    let g := s.goodModules n port
    if !g.contains k then 0
    else
      let i := g.idxOf k
      let sh := if port = 8 then 0 else s.sharesOn n port
      if i / 3 < sh then i / 3 + 1 else 3

/-- The field of a port in RS.RT_MOD. -/
def State.modField (s : State) (n port : Nat) : Nat :=
  (List.range (if port < 4 then 8 else 4)).foldl (fun a k => a + s.moduleCode n port k * 4 ^ k) 0

/-- Node of router block o of a region (spec/11 R341). -/
def rtNode (r o : Nat) : Nat := rowNode r (o / 9) (o % 9)

/-- Index of a site's router block within its region. -/
def rtIndex (n : Nat) : Nat := 9 * (n / 36 % 4) + n % 36 % 9

/-- Counts in an error counter of a site's router block (spec/11 R341). -/
def State.bumpRt (s : State) (n : Nat) (off : Nat → Nat) (b k : Nat) : State :=
  s.bumpErr (nodeRs ((regionOfNode n).getD 0)) (off (rtIndex n)) (RS_RT_STATUS (rtIndex n)) b k

end Sys2Proof.Machine
end

