-- ==== Sys2Proof/Machine/Stall.lean ====
section
/-! DEFINITION. What makes a fabric cycle of a die a stall cycle, and its rest cycles (spec/09 R255, spec/17 R480, spec/08 R248). -/

namespace Sys2Proof.Machine

/-- Rest ratio in force on a die, per 64: the larger of its power and thermal ratios, and 32 while the guard holds (spec/17 R478, R480). -/
def State.restOf (s : State) (d : Nat) : Nat :=
  let p := match s.partOfNode d with | some p => (s.part p).prest | none => 0
  max (max p (s.die d).trest) (if s.pcd.guardOn then 32 else 0)

/-- The cycle of a common count rests at a ratio (spec/17 R480). -/
def restCycle (ratio ccount : Nat) : Bool :=
  let c := ccount % 64
  decide (c * ratio / 64 < (c + 1) * ratio / 64)

/-- A landing check of the die is unmet, or a turn waits for its TLOAD (spec/09 R255). -/
def State.memLate (s : State) (d : Nat) : Bool :=
  (s.landDue d && (s.die d).landLate) || (s.die d).places.any (fun e => decide (e.2.st = .running) && e.2.waitLoad)

/-- The cause under which the present cycle of a die stalls, by priority (spec/09 R255): 1 frequency-step pause, 2 local hold, 3 thermal
rest, 4 memory-late, 5 backpressure; 0 for an unstalled cycle. -/
def State.stallCause (s : State) (d : Nat) : Nat :=
  let x := s.die d
  if x.fstep then 1
  else if x.holdAt.isSome then 2
  else if restCycle (s.restOf d) (s.ccountOf d) then 3
  else if s.memLate d then 4
  else if s.laneHeld d then 5
  else 0

/-- The counter of a stall cause. -/
def stallReg (c : Nat) : Nat :=
  if c = 1 then CD_STALL_FSTEP else if c = 2 then CD_STALL_HOLD else if c = 3 then CD_STALL_THERMAL else if c = 4 then CD_STALL_MEMLATE
  else CD_STALL_BP

/-- The die waits in a stall cycle of cause 4 or 5 (spec/08 R248). In a stall cycle no place issues (spec/03 R87, spec/09 R257). -/
def State.waiting (s : State) (d c : Nat) : Bool :=
  let x := s.die d
  decide (4 ≤ c) && x.places.any (fun e => decide (e.2.st = .running)) && (decide (0 < x.tokens) || s.laneHeld d)

end Sys2Proof.Machine
end

