-- ==== Sys2Proof/Machine/Regs.lean ====
section
/-! DEFINITION. Accesses to registers, site windows and HBM: addresses, access rules, derived fields, and the effect of each write
(spec/00 R15-R24, spec/01 R27, spec/06 R175-R181, and the register maps of every chapter). -/

namespace Sys2Proof.Machine

-- Register maps ----------------------------------------------------------------------------------------------------------

/-- Block of a node. -/
def blkOf (node : Nat) : Blk :=
  if node < 576 then .cd else if node < 704 then .md else if node < 720 then .fd else if node < 736 then .rs else .pc

/-- Number of the register of a run at an offset. -/
def regIdx (base stride count off : Nat) : Option Nat :=
  if base ≤ off ∧ off < base + stride * count ∧ (off - base) % stride = 0 then some ((off - base) / stride) else none

/-- The row of a register map whose register is at an offset and has a width in bytes (spec/00 R20). -/
def findReg (b : Blk) (off bytes : Nat) : Option RegRow :=
  regRows.find? (fun r => decide (r.blk = b) && decide (r.width = 8 * bytes) && (regIdx r.off r.stride r.count off).isSome)

/-- A register of a row overlaps the bytes at an offset. -/
def RegRow.overlaps (r : RegRow) (off bytes : Nat) : Bool :=
  let i0 := (off - r.off) / r.stride
  [i0, i0 + 1].any (fun i => decide (i < r.count) && decide (r.off + i * r.stride < off + bytes) &&
    decide (off < r.off + i * r.stride + r.width / 8))
/-- Some listed register overlaps the bytes (spec/00 R19). -/
def overlapsReg (b : Blk) (off bytes : Nat) : Bool := regRows.any (fun r => decide (r.blk = b) && r.overlaps off bytes)

-- Derived fields ---------------------------------------------------------------------------------------------------------

/-- Panel time of a die, in 1/16 ns: the master's, less the error not yet slewed out (spec/14 R418, R419). -/
def State.localPtc16 (s : State) (node : Nat) : Nat := ((s.ptc16 : Int) - sget 0 s.pcd.ptcErr node).toNat

/-- Bit n set when b. -/
def flag (b : Bool) (n : Nat) : Nat := if b then 2 ^ n else 0

/-- CD.SITE_ID (spec/01 R31). -/
def State.siteId (s : State) (d : Nat) : Nat :=
  match s.nodeSite d with
  | some i => i * 2 ^ 23 + d % 36 * 2 ^ 17 + d / 36 * 2 ^ 13 + (regionOfNode d).getD 0 * 2 ^ 9 + flag (s.shifted i) 8
  | none => 0

/-- CD.SPAD_GEOM (spec/07 R195). -/
def State.spadGeom (s : State) : Nat :=
  let e := s.enD
  flag e 29 + flag s.fuses.hasD 28 + 6 * 2 ^ 24 + (if e then 128 else 64) * 2 ^ 16 + (if e then 32 else 16) * 2 ^ 10 + (if e then 128 else 64)

/-- Busy and state bits of CD.MC_STATUS_c (spec/03 R119). -/
def State.mcBits (s : State) (d c : Nat) : Nat :=
  let m := s.mc d c
  let n := (s.die d).cyc
  flag m.shadowReady 8 + flag m.active.isSome 7 + flag (decide (n < m.outUntil)) 3 + flag (decide (n < m.arrayUntil)) 2 +
    flag (decide (n < m.loadUntil)) 1 + flag (s.place d c).faulted 0
/-- CD.SCR_STATUS (spec/05 R162). -/
def State.scrBits (s : State) (d : Nat) : Nat :=
  flag (decide ((s.die d).cyc < (s.die d).scr.busyUntil)) 1 + flag (s.place d 24).faulted 0
/-- CD.VC_STATUS_v (spec/06 R173). -/
def State.vcBits (s : State) (d v : Nat) : Nat :=
  let y := s.vc d v
  let n := (s.die d).cyc
  flag (decide (n < y.divUntil)) 3 + flag (decide (y.storeFrom ≤ n) && decide (n < y.storeUntil)) 2 + flag (decide (n < y.loadUntil)) 1 +
    flag (s.place d (16 + v)).faulted 0
/-- CD.PL_QOCC_c (spec/08 R254). -/
def State.qocc (s : State) (d p : Nat) : Nat :=
  let x := s.place d p
  (x.lane 3).cred * 2 ^ 24 + (x.lane 2).cred * 2 ^ 16 + (x.lane 1).q.length * 2 ^ 8 + (x.lane 0).q.length

/-- A compute die that its row map does not exclude, or a memory die that is not fenced. -/
def State.inService (s : State) (node : Nat) : Bool :=
  if node < 576 then !(s.rowMap ((regionOfNode node).getD 0) (node / 36 % 4)).testBit (9 + node % 36 % 9) else !s.pcd.fencedMds.contains (node - 576)

/-- Fields of a clock block that follow other state (spec/14 R423): step, count, time, thresholds. -/
def State.clkField (s : State) (node off raw : Nat) : Nat :=
  let steps := decide (node < 704)
  let p := (s.partOfNode node).map s.part
  if off = 0 then
    let held := raw.testBit 4 || s.pcd.unlocked.contains node
    let on := if steps then decide (2 ≤ s.pcd.stageDone) else s.pcd.standby
    (if steps then setBits raw 19 16 ((p.map (·.step)).getD 0) else raw) ||| flag (on && !held) 3 |||
      flag (steps && decide (4 ≤ s.pcd.stageDone) && s.inService node) 8
  else if off = 0x10 then (if steps then (p.map (·.ccount)).getD 0 else 0)
  else if off = 0x18 then (if steps then raw else 0)
  else if off = 0x20 then s.localPtc16 node / 16 % 2 ^ 64
  else if off = 0x2C then
    match s.pcd.conf with
    | some c => setBits (setBits raw 16 11 c.warnTh) 10 5 c.relTh
    | none => raw
  else raw

/-- A compute-die register as it reads. -/
def State.readCd (s : State) (d off raw : Nat) : Nat :=
  let x := s.die d
  if off = CD_SITE_ID then s.siteId d
  else if off = CD_SPAD_GEOM then s.spadGeom
  else if off = CD_SCR_STATUS then raw ||| s.scrBits d
  else if off = CD_SC_DIE_STATUS then raw ||| x.spq.length
  else if off = CD_SPAD_PWR ∨ off = CD_SPAD_LINEAR then s.windowMask raw
  else if off = CD_PL_CTRL then raw ||| (x.ctx.getD 0 * 2 ^ 16) ||| flag (x.ctx.isSome && s.drainedNow d) 4
  else if off = CD_PL_STATUS then raw ||| flag x.yieldAt.isSome 1
  else if off = CD_SCH_STATUS then
    raw ||| flag x.stopped 1 ||| flag (x.inPhase && decide (s.stallCause d ≠ 0)) 0
  else if off = CD_THERM then setBits raw 25 20 (s.restOf d)
  else if 0xF0006000 ≤ off ∧ off < 0xF0006030 then s.clkField d (off - 0xF0006000) raw
  else match regIdx (CD_MC_STATUS 0) 0x40 16 off with
    | some c => raw ||| s.mcBits d c
    | none => match regIdx (CD_VC_STATUS 0) 0x40 8 off with
      | some v => raw ||| s.vcBits d v
      | none => match regIdx (CD_SC_STATUS 0) 0x20 4 off with
        | some c => (x.sc c).st
        | none => match regIdx (CD_PL_QOCC 0) 4 25 off with
          | some p => s.qocc d p
          | none => raw

/-- A memory-die register as it reads (spec/10 R310). -/
def State.readMd (s : State) (m off raw : Nat) : Nat :=
  let l := (s.part (s.partOfMd m)).stackList
  let occ := fun (c : Nat) => ((s.md m).trk.filter (fun e => decide (e.2.cls = c))).length
  if off = MD_IDENT then m * 2 ^ 16 + m / 8 * 2 ^ 12 + 24
  else if off = MD_STATUS then raw ||| flag (decide (4 ≤ s.pcd.stageDone) && s.mdOn m) 0
  else if off = MD_TRK_OCC then occ 0 * 2 ^ 20 + ((s.fd (m / 8)).held m).length * 2 ^ 10 + occ 2
  else if 0x6000 ≤ off ∧ off < 0x6030 then s.clkField (nodeMd m) (off - 0x6000) raw
  else if l = [] then raw
  else if off = MD_PSTK_HDR then s.partOfMd m * 2 ^ 16 + l.length
  else match regIdx (MD_PSTK 0) 4 32 off with
    | some n => leVal ((List.range 4).map (fun k => BitVec.ofNat 8 ((l[4 * n + k]?).getD 0xFF)))
    | none => raw

/-- A fabric-die register as it reads: ring and twin registers exist on FD 0 only, with their option enabled (spec/12 R378). -/
def State.readFd (s : State) (f off raw : Nat) : Nat :=
  if off = FD_TWIN_STATUS ∨ off = FD_MIRROR_SEQ ∨ off = FD_HB_MISS then (if f = 0 ∧ s.enT then raw else 0)
  else if off = FD_RING_STATUS then (if f = 0 ∧ s.enG then raw else 0)
  else if 0x6000 ≤ off ∧ off < 0x6030 then s.clkField (nodeFd f) (off - 0x6000) raw
  else raw

/-- The region on a side of a region: 0 north, 1 east, 2 south, 3 west; regions are numbered row by row. -/
def State.sideRegion (s : State) (r side : Nat) : Option Nat :=
  let n := if side = 0 then (if r < 12 then some (r + 4) else none)
    else if side = 1 then (if r % 4 < 3 then some (r + 1) else none)
    else if side = 2 then (if 4 ≤ r then some (r - 4) else none)
    else (if 0 < r % 4 then some (r - 1) else none)
  n.filter (fun k => decide (k < s.cutRegions))

/-- The receivers that face a region on a side are clamped: across a partition's boundary, or facing a region that is off or in a re-true
(spec/16 R449, R450, R463, spec/15 R444). -/
def State.clamped (s : State) (r side : Nat) : Bool :=
  decide (3 ≤ s.pcd.stageDone) &&
    (match s.sideRegion r side with
     | some n => decide (s.partOfRegion n ≠ s.partOfRegion r) || !s.regionOn r ||
         (match s.partOfRegion r with | some p => (s.part p).retrue.testBit r | none => false)
     | none => false)

/-- An RS register as it reads (spec/11 R341, spec/16 R468). -/
def State.readRs (s : State) (r off raw : Nat) : Nat :=
  if off = RS_FENCE then setBits raw 39 36 ((s.partOfRegion r).getD 0) ||| (List.range 4).foldl (fun a k => a ||| flag (s.clamped r k) (58 + k)) 0
  else if 0x6000 ≤ off ∧ off < 0x6030 then s.clkField (nodeRs r) (off - 0x6000) raw
  else match regIdx (RS_RT_STATUS 0) 0x40 36 off with
    | some o =>
      let n := rtNode r o
      let ok := decide (3 ≤ s.pcd.stageDone)
      raw ||| (List.range 9).foldl (fun a k => a ||| flag (s.portUp n k) (9 + k)) 0 ||| flag (ok && !s.pcd.nodesOut.contains n) 2 |||
        flag (ok && !s.routerOut n) 1
    | none =>
      let fields := fun (n k : Nat) => (List.range 4).foldl (fun a i => a + s.modField n (k + i) * 2 ^ (16 * i)) 0
      match regIdx (RS_RT_MOD_LO 0) 0x40 36 off with
      | some o => fields (rtNode r o) 0
      | none => match regIdx (RS_RT_MOD_HI 0) 0x40 36 off with
        | some o => fields (rtNode r o) 4
        | none => match regIdx (RS_RT_MOD_ATT 0) 0x40 36 off with
          | some o => s.modField (rtNode r o) 8
          | none => raw

/-- A HOST_KEY of the configuration by session number (spec/13 R382). -/
def State.keyOf (s : State) (k : Nat) : Option HostKey :=
  match s.pcd.conf with
  | some c => c.keys.find? (fun h => decide (8 * h.part + h.slot = k))
  | none => none

/-- PC.SESS_n (spec/13 R400). -/
def State.sessWord (s : State) (k : Nat) : Nat :=
  let x := s.session k
  let key := fun (f : HostKey → Bool) => match s.keyOf k with | some h => f h | none => false
  flag x.isOpen 63 + flag (key (·.admin)) 55 + flag (key (·.data)) 54 + x.gen % 2 ^ 16 * 2 ^ 32 + (x.items.length + x.lostItems.length) * 2 ^ 16 + x.recs.length

/-- Power limit of a partition after any scaling, in W (spec/17 R473, R476, R492): 0.55 with a pair lost, k of the coolant in 1/128. -/
def State.limitW (s : State) (p : Nat) : Nat :=
  let pl := match s.partCfgs.find? (fun c => decide (c.num = p)) with | some c => c.plW | none => 0
  (if s.pcd.pairA || s.pcd.pairB then pl * 55 else pl * 100) * s.rgF nodePc PC_COOLANT 15 8 / 12800

/-- A partition holds a degraded region (spec/15 R440, R447). -/
def State.degraded (s : State) (p : Nat) : Bool :=
  decide (3 ≤ s.pcd.stageDone) && (s.regionsOf p).any (fun r => (List.range 4).any (fun n => (s.rowMap r n).testBit 8))

/-- A partition is Ready: it came up, and no re-true of it is owed (spec/15 R425, R444, R447). -/
def State.partReady (s : State) (p : Nat) : Bool := s.rgB nodePc PC_BRINGUP_STATUS (48 + p) && decide ((s.part p).retrue = 0)

/-- PC.BRINGUP_STATUS as it reads (spec/15 R447). -/
def State.bringupWord (s : State) (raw : Nat) : Nat :=
  let bits16 := fun (f : Nat → Bool) (base : Nat) => (List.range 16).foldl (fun a p => a ||| flag (f p) (base + p)) 0
  setBits (raw % 2 ^ 16) 7 5 (s.pcd.stageDone + 1) ||| flag s.retrueBusy 4 ||| bits16 s.partReady 48 ||| bits16 s.degraded 32 |||
    bits16 (fun p => (s.part p).scrubQ.any (fun r => r.granule.isSome)) 16

/-- PC.PSTATE_p (spec/17 R496). -/
def State.pstateWord (s : State) (p : Nat) : Nat :=
  let x := s.part p
  (if x.waking then 4 else if x.entering then 5 else x.pstate) * 2 ^ 29 + x.ceil * 2 ^ 25 + x.prest * 2 ^ 16 + s.limitW p % 2 ^ 16

/-- PC.TRUST_STATUS but its overflow bit (spec/18 R517). -/
def State.trustBits (s : State) : Nat :=
  let m := decide (1 ≤ s.pcd.stageDone)
  let c := fun (f : Conf → Bool) => match s.pcd.conf with | some c => f c | none => false
  flag (c (fun c => c.telemetry.isSome)) 11 + flag (c (fun c => c.faultInj)) 10 + flag (m && s.nvm.ok1) 9 + flag (m && s.nvm.ok0) 8 +
    flag s.retrueBusy 7 + flag s.pcd.sealed 6 + flag s.pcd.stagedCfg 5 + flag s.pcd.stagedFw 4 + flag s.pcd.updating 3 +
    flag s.pcd.confB 2 + flag s.pcd.imageB 1 + flag (m && s.nvm.owner.isSome) 0

/-- A PC register as it reads. -/
def State.readPc (s : State) (off raw : Nat) : Nat :=
  if off = PC_PART_ID then
    0x56 * 2 ^ 24 + s.fuses.stepping * 2 ^ 20 + s.fuses.cut * 2 ^ 16 + s.cutRegions * 2 ^ 11 + flag s.enT 6 + flag s.enG 5 + flag s.enD 4 +
      flag s.fuses.hasT 2 + flag s.fuses.hasG 1 + flag s.fuses.hasD 0
  else if off = PC_HOST_STATUS then raw ||| flag s.pcd.retained 2
  else if off = PC_BRINGUP_STATUS then s.bringupWord raw
  else if off = PC_PWR_STATUS then raw ||| flag s.pcd.pairB 3 ||| flag s.pcd.pairA 2 ||| flag s.pcd.guardOn 1
  else if off = PC_BSEQ then s.nvm.bseq
  else if off = PC_KNOT_LOG_USED then s.nvm.knots.length
  else if off = PC_TRUST_STATUS then raw ||| s.trustBits
  else if off = PC_CONFIG_ID then (match s.pcd.conf with | some c => c.configId | none => 0)
  else if off = PC_FW_VERSION then
    (if 1 ≤ s.pcd.stageDone then (match s.nvm.images[b2n s.pcd.imageB]? with | some (some i) => i.version | _ => 0) else 0)
  else if 0x6000 ≤ off ∧ off < 0x6030 then s.clkField nodePc (off - 0x6000) raw
  else match regIdx (PC_SESS 0) 8 128 off with
    | some k => s.sessWord k
    | none => match regIdx (PC_PSTATE 0) 4 16 off with
      | some p => s.pstateWord p
      | none => raw

/-- The value a register reads. -/
def State.regVal (s : State) (node off : Nat) : Nat :=
  let raw := s.rg node off
  if node < 576 then s.readCd node off raw
  else if node < 704 then s.readMd (node - 576) off raw
  else if node < 720 then s.readFd (node - 704) off raw
  else if node < 736 then s.readRs (node - 720) off raw
  else s.readPc off raw

-- Refusals (spec/00 R20, R21) --------------------------------------------------------------------------------------------

/-- A die or service unit is there to answer: powered, and in the cut. -/
def State.nodeOn (s : State) (node : Nat) : Bool :=
  if node < 576 then s.coreOn node
  else if node < 704 then s.mdOn (node - 576)
  else if node < 720 then s.fdOn (node - 704)
  else if node < 736 then decide (node - 720 < s.cutRegions) && s.pcd.standby && !s.pcd.rsdLost.contains (node - 720)
  else if node = nodePc then s.pcd.standby
  else s.pcd.standby && s.pcd.standbyOk

/-- Adds a refusal to a unit's tally. The tally's width is not stated: 32 bits that stick (spec/00 R21; log entry 85). -/
def State.tallyAt (s : State) (node : Nat) : State :=
  if node < 576 then s.dieRefuse node
  else if node < 704 then s.setMd (node - 576) { s.md (node - 576) with tally := min 0xFFFFFFFF ((s.md (node - 576)).tally + 1) }
  else if node < 720 then s.setFd (node - 704) { s.fd (node - 704) with tally := min 0xFFFFFFFF ((s.fd (node - 704)).tally + 1) }
  else if node < 736 then s.setPcd (fun p => { p with rsTally := sput p.rsTally (node - 720) (min 0xFFFFFFFF (sget 0 p.rsTally (node - 720) + 1)) })
  else s.setPcd (fun p => { p with tally := min 0xFFFFFFFF (p.tally + 1) })

/-- The unit that a register access reached refuses it; on the host path the active PCD keeps the tally. -/
def State.refuseAt (s : State) (src : Source) (node : Nat) : State :=
  match src with
  | .host _ => s.tallyAt nodePc
  | _ => s.tallyAt node

-- Effects of register writes ----------------------------------------------------------------------------------------------

/-- CD.SR_SEED_c (spec/02 R65, R66). -/
def State.seedOn (s : State) (d c : Nat) (v : W64) : State :=
  if (s.place d c).st = .running then s.setRgB d CD_ARITH_STATUS 8 true
  else
    let n := if c = 24 then 8 else 16
    (s.setRg d (CD_SR_SEED c) v.toNat).modDie d (fun x =>
      { x with gens := (List.range n).foldl (fun m g => sput m (16 * c + g) (seedState v g)) x.gens })

/-- CD.MC_INJECT (spec/03 R118). -/
def State.injectOn (s : State) (d v : Nat) : State :=
  match s.pcd.conf with
  | some c => if c.faultInj && v.testBit 31 then s.modDie d (fun x => { x with inject := x.inject ||| 2 ^ bits v 19 16 }) else s
  | none => s

/-- PC.EVT_ACK (spec/16 R454, R469): the records up to the one named are acknowledged. -/
def State.evtAck (s : State) (v : Nat) : State :=
  let left := (s.rg nodePc PC_EVT_NEXT + 2 * 2 ^ 32 - 1 - v) % 2 ^ 32
  let s1 := s.setRg nodePc PC_EVT_ACK v
  if left < 2 ^ 31 then s1.setRgF nodePc PC_EVT_STATUS 10 0 (min s.evtPending left) else s1

/-- A context with a job is loaded on a partition. -/
def State.loaded (s : State) (p : Nat) : Bool := (s.part p).ctxs.any (fun e => decide (e.2.st ≠ .retained))

/-- A request for a re-true (spec/15 R444, R447): RESULT, and the re-true owed when accepted. -/
def State.retrueReq (s : State) (r : Nat) : State :=
  let res := fun (t : State) (k : Nat) => t.setRgF nodePc PC_RETRUE_CTRL 30 28 k
  match s.partOfRegion r with
  | some p =>
    if !s.regionOn r || (s.part p).off || decide (s.pcd.stageDone < 5) then res s 3
    else if s.loaded p then res s 2
    else res (s.oweRetrue r) 1
  | none => res s 3

/-- PC.RETRUE_CTRL written by the management path. -/
def State.retrueWrite (s : State) (v : Nat) : State :=
  let s1 := s.setRgF nodePc PC_RETRUE_CTRL 3 0 v
  if v.testBit 31 then s1.retrueReq (v % 16) else s1

/-- A source may write a register of a row (spec/18 R513 and the register tables): others' writes are discarded. Of the times at which the stack
registers take writes (spec/10 R279, R310), a re-true is one step here: it is in progress between no two commands. -/
def State.writerOk (s : State) (src : Source) (w : Writer) (node : Nat) : Bool :=
  match w with
  | .any => decide (src ≠ .mgmt)
  | .pcd => decide (src = .pcd)
  | .mgmt => decide (src = .mgmt)
  | .idle => decide (src = .pcd) && (s.die node).places.all (fun e => decide (e.2.st = .idle))
  | .tru => decide (src = .pcd) && decide (s.pcd.stageDone = 2)

/-- Bits of x outside a mask. -/
def dropBits (x m : Nat) : Nat := x - (x &&& m)

/-- The plain effect of a write: RW bits take the value, W1C bits written as 1 clear; a fault record is cleared whole. -/
def State.plainWrite (s : State) (r : RegRow) (node off v : Nat) : State :=
  let raw := s.rg node off
  match recordRest node off with
  | some _ => if v.testBit 31 then s.recordClear node off else s
  | none => s.setRg node off (dropBits (dropBits raw r.rw ||| (v &&& r.rw)) (v &&& r.w1c))

/-- A job entry of a fabric die after a write: what ran under an incarnation that is no longer in force ends (spec/12 R357, R358). -/
def State.jobEntryAfter (s : State) (f j oldJob : Nat) : State :=
  let w := s.rg (nodeFd f) (FD_JOB_W0 j)
  s.incarnUpdate f oldJob (if w.testBit 63 ∧ bits w 31 16 = oldJob then bits w 15 0 else 2 ^ 16)

/-- A write to a listed register by a source that may make it. -/
def State.regEffect (s : State) (src : Source) (r : RegRow) (node off v : Nat) : State :=
  if node < 576 then
    if off = CD_SPAD_LINEAR then s.spadSetOn src node (fun s d => s.setRg d CD_SPAD_LINEAR (s.windowMask v))
    else if off = CD_SPAD_PWR then s.spadSetOn src node (fun s d => s.setSpadPwr d v)
    else if off = CD_SPAD_SCRUB then (if v.testBit 0 then s.spadSetOn src node State.spadScrub else s)
    else if off = CD_MC_INJECT then s.injectOn node v
    else if off = CD_SCH_CTRL then s.snapOn src v node
    else if off = CD_SCH_MATCH then s.matchOn src v node
    else match regIdx (CD_SR_SEED 0) 8 25 off with
      | some c => s.seedOn node c (BitVec.ofNat 64 v)
      | none => match regIdx (CD_SC_CTRL 0) 0x20 4 off with
        | some c => s.scBoot node c v
        | none => s.plainWrite r node off v
  else if node < 704 then
    if off = MD_SCRUB_CTRL then s.mdScrubGo src (node - 576) (BitVec.ofNat 32 v) else s.plainWrite r node off v
  else if node < 720 then
    match regIdx (FD_JOB_W0 0) 0x20 64 off with
    | some j =>
      let old := s.rg node off
      let t := s.plainWrite r node off v
      if old.testBit 63 then t.jobEntryAfter (node - 704) j (bits old 31 16) else t
    | none => s.plainWrite r node off v
  else if node = nodePc ∧ off = PC_EVT_ACK then s.evtAck v
  else if node = nodePc ∧ off = PC_RETRUE_CTRL then s.retrueWrite v
  else s.plainWrite r node off v

/-- An aligned access of 4 or 8 bytes. -/
def regAligned (off bytes : Nat) : Bool := (decide (bytes = 4) || decide (bytes = 8)) && decide (off % bytes = 0)

/-- A register write that has reached its unit (spec/00 R19, R20). The standby PCD's block discards writes (spec/01 R27). -/
def State.regWrite (s : State) (src : Source) (node off bytes v : Nat) : State :=
  if node = 737 then s
  else match (if regAligned off bytes then findReg (blkOf node) off bytes else none) with
    | some r => if s.writerOk src r.writer node then s.regEffect src r node off (v % 2 ^ r.width) else s
    | none => if regAligned off bytes && !overlapsReg (blkOf node) off bytes then s else s.refuseAt src node

/-- Shift of the lowest bit of a mask. -/
def lowBit (m : Nat) : Nat := ((List.range 64).find? m.testBit).getD 0

/-- A register after a clearing read. Its RC fields clear, and what the events of the same cycle change is kept for the next read (spec/00 R23):
`coincident` is their number for a 32-bit count; for other fields 0 where there was none, else 1 more than the fields' new value. -/
def RegRow.afterClear (r : RegRow) (raw coincident : Nat) : Nat :=
  if r.rc = 0xFFFFFFFF then min 0xFFFFFFFF coincident
  else dropBits raw r.rc ||| (if coincident = 0 then r.reset &&& r.rc else ((coincident - 1) <<< lowBit r.rc) &&& r.rc)

/-- A clearing read of a counter whose growth is checked keeps what it took of it: MD.ECC_CORR (spec/10 R303), the corrected and resent
codewords of a router (spec/11, code 0x1160), the discards of a fabric die (spec/12 R377). -/
def State.keepGrowth (s : State) (node off v : Nat) : State :=
  if 576 ≤ node ∧ node < 704 ∧ off = MD_ECC_CORR then
    let x := s.md (node - 576)
    s.setMd (node - 576) { x with corrBase := 0, corrAcc := x.corrAcc + (if x.corrBase ≤ v then v - x.corrBase else v) }
  else if 704 ≤ node ∧ node < 720 then
    let x := s.fd (node - 704)
    if off = FD_STALE_INC then s.setFd (node - 704) { x with staleBase := 0, staleAcc := x.staleAcc + (v - x.staleBase) }
    else if off = FD_POLICE_DROP then s.setFd (node - 704) { x with polBase := 0, polAcc := x.polAcc + (v - x.polBase) }
    else s
  else if 720 ≤ node ∧ node < 736 then
    match (regIdx (RS_RT_FEC_CORR 0) 0x40 36 off).or (regIdx (RS_RT_REPLAY 0) 0x40 36 off) with
    | some o =>
      let n := rtNode (node - 720) o
      s.setPcd (fun p => { p with rtAcc := nput 0 p.rtAcc n (sget 0 p.rtAcc n + v) })
    | none => s
  else s

/-- A register read that has reached its unit: the state after it and the value. RC fields clear; events that coincide with the read stay for
the next (spec/00 R20, R23). An access of 1 or 2 bytes, or a misaligned one, wholly within reserved locations is refused too: R19 speaks of
aligned 32- and 64-bit ones (log entry 85). The attachment slots of the PC block read as memory (spec/16 R469). -/
def State.regRead (s : State) (src : Source) (node off bytes coincident : Nat) : State × Nat :=
  match (if regAligned off bytes then findReg (blkOf node) off bytes else none) with
  | some r =>
    let v := s.regVal node off
    if r.rc = 0 then (s, v)
    else
      ((s.setRg node off (r.afterClear (s.rg node off) coincident)).keepGrowth node off v, v)
  | none =>
    if node = nodePc ∧ 0x400000 ≤ off ∧ off < 0x800000 ∧ regAligned off bytes = true then (s, leVal (readBytes s.pcd.att (off - 0x400000) bytes))
    else (if regAligned off bytes && !overlapsReg (blkOf node) off bytes then s else s.refuseAt src node, 0)

-- Site windows (spec/00 R15, spec/03 R108, spec/05 R142, spec/08 R224) -----------------------------------------------------

/-- What a read of a window gives: a value, a wait for a free bank cycle, a refusal, or uncorrectable data. -/
inductive WinRes where
  | value (v : Nat)
  | wait
  | refused
  | bad
deriving DecidableEq, Repr, Inhabited

/-- A naturally aligned access of 1, 2, 4 or 8 bytes. -/
def winAligned (off n : Nat) : Bool := (decide (n = 1) || decide (n = 2) || decide (n = 4) || decide (n = 8)) && decide (off % n = 0)

/-- The access comes from a host. -/
def isHostSrc : Source → Bool
  | .host _ => true
  | _ => false

/-- Class of a scratchpad request (spec/07 R199). -/
def spadClass : Source → Nat
  | .score _ _ => 1
  | _ => 2

/-- An uncorrectable accumulator element met by a window read: TURN and CMD read 0 (spec/03 R109). -/
def State.accWinBad (s : State) (d c row : Nat) : State :=
  let s1 := if s.rgB d CD_MC_FAULT_INFO 31 then s else
    ((((s.setRg d CD_MC_FAULT_INFO (2 ^ 31 + 2 * 2 ^ 28 + c * 2 ^ 24 + row)).setRg d CD_MC_FAULT_CMD 0).setRg d CD_MC_FAULT_DIFF 0).setRg d
      CD_MC_FAULT_TOL 0).setRg d CD_MC_FAULT_PTC s.ptc
  s1.raise d 0x2102 (unitSram d (128 + c) row) 0
/-- An uncorrectable side-memory value met by a window read (spec/05 R146). -/
def State.sideWinBad (s : State) (d i : Nat) : State :=
  let s1 := if s.rgB d CD_SCR_FAULT_INFO 31 then s else
    ((s.setRg d CD_SCR_FAULT_INFO (2 ^ 31 + 2 ^ 28 + i)).setRg d CD_SCR_FAULT_CMD 0).setRg d CD_SCR_FAULT_PTC s.ptc
  s1.raise d 0x2111 (unitSram d 144 (i / 256)) 0

/-- Words as one number, the first lowest. -/
def wordsVal (l : List W32) : Nat := packElems 32 (l.map BitVec.toNat)

/-- Bytes of a number from byte k: n of them as a number. -/
def byteField (v k n : Nat) : Nat := v / 2 ^ (8 * k) % 2 ^ (8 * n)
/-- A number with n bytes from byte k replaced. -/
def putField (v k n x : Nat) : Nat := setBits v (8 * (k + n) - 1) (8 * k) x

/-- A read within a 64-bit word of turn memory or of a table. What a window read of an uncorrectable one returns is not stated: a free value
(log entry 6). -/
def State.plainWords (s : State) (errs : SMap Nat) (m : List Host.Cell) (off n : Nat) : State × Nat :=
  match eccJudge (sget 0 errs (off / 8)) with
  | .bad => (s.takeFree, s.freeVal % 2 ^ (8 * n))
  | .altered _ v => (s, leVal (readBytes (flipBytes m (off / 8 * 8) 8 v) off n))
  | _ => (s, leVal (readBytes m off n))

/-- A read of a site window whose stores are open. -/
def State.winReadOpen (s : State) (src : Source) (d off n : Nat) (sc : Option (Nat × Nat × Nat × Bool)) : State × WinRes :=
  let no := (s.refuseAt src d, WinRes.refused)
  if 0xF0000000 ≤ off then
    let r := s.regRead src d off n 0
    (r.1, .value r.2)
  else if !winAligned off n then no
  else if off < 0x10000000 then
    if s.spadOk d off then
      (s.spadAsk d (spadReq (spadClass src) off n none sc (isHostSrc src) none), .wait)
    else no
  else if off < 0x10400000 then
    let c := (off - 0x10000000) / 0x40000
    let k := off % 0x40000 / 4
    if (s.place d c).st = .running then no
    else
      let r := s.accReadAt d c k (cdiv n 4)
      if r.2.2 then (r.1.accWinBad d c (k / 64), .bad) else (r.1, .value (byteField (wordsVal r.2.1) (off % 4) n))
  else if 0x11000000 ≤ off ∧ off < 0x11200000 then
    let i := (off - 0x11000000) / 8
    if (s.place d 24).st = .running then no
    else
      let r := s.slotRead d i
      if r.2.2 then (r.1.sideWinBad d i, .bad) else (r.1, .value (byteField (wordsVal [r.2.1.a, r.2.1.b]) (off % 8) n))
  else if 0x20000000 ≤ off ∧ off < 0x20190000 then
    let c := (off - 0x20000000) / 0x10000
    if (s.place d c).st = .idle then
      let r := s.plainWords (s.place d c).memErr (s.place d c).mem (off % 0x10000) n
      (r.1, .value r.2)
    else no
  else if (landBase ≤ off ∧ off < landBase + 0x10000) ∨ (dmaListBase ≤ off ∧ off < dmaListBase + 0x10000) ∨
      (dmaTableBase ≤ off ∧ off < dmaTableBase + 0x40000) then
    if (s.die d).places.all (fun e => decide (e.2.st = .idle)) then
      let r := s.plainWords (s.die d).tabErr (s.die d).tabs off n
      (r.1, .value r.2)
    else no
  else no

/-- A read of a site window on the die that holds it. -/
def State.winRead (s : State) (src : Source) (d off n : Nat) (sc : Option (Nat × Nat × Nat × Bool)) : State × WinRes :=
  if off < 0xF0000000 ∧ s.winClosed d = true then (s.refuseAt src d, .refused) else s.winReadOpen src d off n sc

/-- A slot of turn memory after a write of n bytes at an offset of the place's memory (spec/08 R225). -/
def Place.turnWrite (x : Place) (off n v : Nat) : Place :=
  let slot := off / 0x2000
  let valid := if off % 0x2000 < 4 then x.valid ||| 2 ^ slot else x.valid - (x.valid &&& 2 ^ slot)
  { x with mem := writeBytes x.mem off (leBytes n v), memErr := if n = 8 then serase x.memErr (off / 8) else x.memErr, valid := valid }

/-- A write to a site window on the die that holds it. -/
def State.winWrite (s : State) (src : Source) (d off n v : Nat) (sc : Option (Nat × Nat × Nat × Bool)) : State :=
  let no := s.refuseAt src d
  if 0xF0000000 ≤ off then s.regWrite src d off n v
  else if !winAligned off n || s.winClosed d then no
  else if off < 0x10000000 then
    if s.spadOk d off then s.spadAsk d (spadReq (spadClass src) off n (some (leBytes n v)) sc (isHostSrc src) none) else no
  else if off < 0x10400000 then
    let c := (off - 0x10000000) / 0x40000
    let k := off % 0x40000 / 4
    if (s.place d c).st = .running then no
    else
      let m := s.mc d c
      let old := wordsVal ((List.range (cdiv n 4)).map (fun i => sget 0#32 m.acc (k + i)))
      let w := putField old (off % 4) n v
      s.setMc d c ((List.range (cdiv n 4)).foldl (fun y i => y.setElem (k / 64) (k % 64 + i) (BitVec.ofNat 32 (w / 2 ^ (32 * i)))) m)
  else if 0x11000000 ≤ off ∧ off < 0x11200000 then
    let i := (off - 0x11000000) / 8
    if (s.place d 24).st = .running then no
    else
      let x := (s.die d).scr
      let o := x.slot i
      let w := putField (wordsVal [o.a, o.b]) (off % 8) n v
      s.setScr d { x with side := nput default x.side i { o with a := BitVec.ofNat 32 w, b := BitVec.ofNat 32 (w / 2 ^ 32) },
                          sideErr := if n = 8 then serase (serase x.sideErr (2 * i)) (2 * i + 1)
                                     else if n = 4 then serase x.sideErr (2 * i + off % 8 / 4) else x.sideErr }
  else if 0x20000000 ≤ off ∧ off < 0x20190000 then
    let c := (off - 0x20000000) / 0x10000
    if (s.place d c).st = .idle then s.modPlace d c (fun x => x.turnWrite (off % 0x10000) n v) else no
  else if (landBase ≤ off ∧ off < landBase + 0x10000) ∨ (dmaListBase ≤ off ∧ off < dmaListBase + 0x10000) ∨
      (dmaTableBase ≤ off ∧ off < dmaTableBase + 0x40000) then
    if (s.die d).places.all (fun e => decide (e.2.st = .idle)) then
      s.modDie d (fun x => { x with tabs := writeBytes x.tabs off (leBytes n v), tabErr := if n = 8 then serase x.tabErr (off / 8) else x.tabErr })
    else no
  else no

-- Panel addresses (spec/00 R15, spec/01 R27) -------------------------------------------------------------------------------

/-- Node and offset of an address in a register block of an edge or service die. -/
def regBlockOf (a : Nat) : Option (Nat × Nat) :=
  let x := a - 0x7000000000000000
  let o := x % 2 ^ 24
  if x < 2 ^ 25 then some (736 + x / 2 ^ 24, o)
  else if 0x1000000000 ≤ x ∧ x < 0x1010000000 then some (720 + x % 0x1000000000 / 2 ^ 24, o)
  else if 0x2000000000 ≤ x ∧ x < 0x2080000000 then some (576 + x % 0x1000000000 / 2 ^ 24, o)
  else if 0x3000000000 ≤ x ∧ x < 0x3010000000 then some (704 + x % 0x1000000000 / 2 ^ 24, o)
  else none

/-- Where an access of a source goes. -/
inductive Target where
  | hbm (part : Nat)
  | window (die off : Nat)
  | block (node off : Nat)
  | trap
  | unbacked
deriving DecidableEq, Repr, Inhabited

/-- The target of an address for a source (spec/00 R15, R20, spec/06 R179, spec/13 R388). -/
def State.target (s : State) (src : Source) (a : Nat) : Target :=
  let part := match src with | .host p => some p | .score d _ => s.partOfNode d | _ => none
  if a < 0x4000000000000000 then (match part with | some p => .hbm p | none => .unbacked)
  else if a < 0x7000000000000000 then
    let site := (windowOf a).1
    let mine : Bool := match src with | .host p => decide (s.partOfSite site = some p) | .score d _ => decide (s.partOfSite site = s.partOfNode d) | _ => true
    if decide (site < 512) && mine then
      match s.siteNode site with
      | some d => if s.coreOn d then .window d (windowOf a).2 else .unbacked
      | none => .unbacked
    else match src with | .score _ _ => .trap | _ => .unbacked
  else match src with
    | .host _ => .unbacked
    | .score _ _ => .trap
    | _ => match regBlockOf a with
      | some (n, o) => if s.nodeOn n then .block n o else .unbacked
      | none => .unbacked

/-- A read of a panel address by a source; its answer is in rdata, once a scratchpad read has had its cycle. -/
def State.busRead (s : State) (src : Source) (a n coincident : Nat) : State :=
  match s.target src a with
  | .hbm p =>
    let r := if s.keptRange p a n then (s, 1, []) else s.memGet p a n
    if r.2.1 = 1 then { (r.1.refuseBy src) with rdata := 0 } else { r.1 with rdata := leVal r.2.2 }
  | .window d off =>
    if 0xF0000000 ≤ off then
      let r := s.regRead src d off n coincident
      { r.1 with rdata := r.2 }
    else
      let r := s.winRead src d off n none
      match r.2 with
      | .value v => { r.1 with rdata := v }
      | .wait => r.1
      | _ => { r.1 with rdata := 0 }
  | .block node off =>
    let r := s.regRead src node off n coincident
    { r.1 with rdata := r.2 }
  | .trap => match src with | .score d c => s.scTrap d c .loadAccessFault | _ => s
  | .unbacked => { (s.refuseBy src) with rdata := 0 }

/-- A write to a panel address by a source. -/
def State.busWrite (s : State) (src : Source) (a n v : Nat) : State :=
  match s.target src a with
  | .hbm p =>
    let r := if s.keptRange p a n then (s, 1) else s.memPut p a (leBytes n v)
    if r.2 = 1 then r.1.refuseBy src else r.1
  | .window d off => s.winWrite src d off n v none
  | .block node off => s.regWrite src node off n v
  | .trap => match src with | .score d c => s.scTrap d c .storeAccessFault | _ => s
  | .unbacked => s.refuseBy src

-- The tally (spec/00 R21) ---------------------------------------------------------------------------------------------------

/-- A unit's tally of refusals. -/
def State.tallyOf (s : State) (node : Nat) : Nat :=
  if node < 576 then (s.die node).tally
  else if node < 704 then (s.md (node - 576)).tally
  else if node < 720 then (s.fd (node - 704)).tally
  else if node < 736 then sget 0 s.pcd.rsTally (node - 720)
  else if node = s.activeNode then s.pcd.tally
  else 0
def State.clearTally (s : State) (node : Nat) : State :=
  if node < 576 then s.modDie node (fun x => { x with tally := 0 })
  else if node < 704 then s.setMd (node - 576) { s.md (node - 576) with tally := 0 }
  else if node < 720 then s.setFd (node - 704) { s.fd (node - 704) with tally := 0 }
  else if node < 736 then s.setPcd (fun p => { p with rsTally := serase p.rsTally (node - 720) })
  else s.setPcd (fun p => { p with tally := 0 })

/-- Refusals reported to the active PCD (spec/00 R20, R21). -/
def State.badAccess (s : State) (n : Nat) : State := s.bumpErr nodePc PC_BAD_ACCESS_COUNT PC_ACCESS_STATUS 31 n

/-- Every 1 ms a unit with refusals sends its tally in a class-B REG_WR packet and clears it; the active PCD adds its own. -/
def State.tallyReport (s : State) (node : Nat) : State :=
  let n := s.tallyOf node
  if n = 0 then s
  else if node = s.activeNode then (s.clearTally node).badAccess n
  else (s.clearTally node).spSend node (spPkt 10 node s.activeNode ((s.partOfNode node).getD 0) PC_BAD_ACCESS_COUNT n)

-- The meanings --------------------------------------------------------------------------------------------------------------

/-- Bits that hardware sets in a W1C register in the cycle of a write remain set (spec/00 R22); a fault record whose VALID it sets is kept. -/
def State.w1cSet (s : State) (node off bytes coincident : Nat) : State :=
  match (if regAligned off bytes then findReg (blkOf node) off bytes else none) with
  | some r => if coincident &&& r.w1c = 0 then s else s.orRg node off (coincident &&& r.w1c)
  | none => s

/-- A register write in whose cycle hardware sets bits of the register. -/
def State.busWriteWith (s : State) (src : Source) (a n v coincident : Nat) : State :=
  let set := fun (node off : Nat) =>
    if (recordRest node off).isSome && coincident.testBit 31 then s else (s.busWrite src a n v).w1cSet node off n coincident
  match s.target src a with
  | .window d off => if 0xF0000000 ≤ off then set d off else s.busWrite src a n v
  | .block node off => set node off
  | _ => s.busWrite src a n v

/-- REGISTER_WRITE (spec/00 R20, R22). -/
def execRegisterWrite (src : Source) (addr : W64) (width : Nat) (data : WriteData) (s : State) : Host.Outcome State Fault Refusal :=
  guard (Instr.registerWrite src addr width data).wf (s.busWriteWith src addr.toNat width data.val.toNat data.coincident)
/-- REGISTER_READ_CLEAR (spec/00 R23). -/
def execRegisterReadClear (src : Source) (addr : W64) (width : Nat) (coincident : Nat) (s : State) : Host.Outcome State Fault Refusal :=
  guard (Instr.registerReadClear src addr width coincident).wf (s.busRead src addr.toNat width coincident)
/-- FAULT_RECORD_REARM (spec/03 R120): a write of the record's first register, 32 bits. -/
def execFaultRecordRearm (src : Source) (addr : W64) (val : W64) (s : State) : Host.Outcome State Fault Refusal :=
  guard (Instr.faultRecordRearm src addr val).wf (s.busWrite src addr.toNat 4 val.toNat)
/-- BAD_ACCESS_TALLY_REPORT (spec/00 R21). -/
def execBadAccessTallyReport (node : Nat) (s : State) : Host.Outcome State Fault Refusal :=
  guard (Instr.badAccessTallyReport node).wf (s.tallyReport node)
/-- SR_SEED_WRITE (spec/02 R65). -/
def execSrSeedWrite (src : Source) (site core : Nat) (seed : W64) (s : State) : Host.Outcome State Fault Refusal :=
  guard (Instr.srSeedWrite src site core seed).wf (s.atSite src site (fun t d => t.seedOn d core seed))
/-- MC_INJECT_ARM (spec/03 R118). -/
def execMcInjectArm (src : Source) (site : Nat) (val : W32) (s : State) : Host.Outcome State Fault Refusal :=
  guard (Instr.mcInjectArm src site val).wf (s.atSite src site (fun t d => t.injectOn d val.toNat))

end Sys2Proof.Machine
end

