-- ==== Sys2Proof/Machine/Links.lean ====
section
/-! DEFINITION. What arrives over the links and the spindle: scheduled stripes, dynamic codewords and packets, spindle packets, alerts and
their records (spec/11 R314-R340, spec/08 R236, R237, R249, R250, R253, spec/14 R412, R413, spec/16 R450-R454). -/

namespace Sys2Proof.Machine

-- Scheduled stripes (spec/11 R317-R319, spec/14 R412) -------------------------------------------------------------------------

/-- Offset of a clock register in a node's block (spec/14 R423). -/
def clkOff (node k : Nat) : Nat := (if node < 576 then 0xF0006000 else 0x6000) + k

/-- Links of a router count in its block; an edge or service die has none (spec/11 R341). -/
def State.bumpLink (s : State) (n : Nat) (off : Nat → Nat) (b k : Nat) : State := if n < 576 then s.bumpRt n off b k else s

/-- The place and lane of a die bound to a channel of a side, inbound or outbound (spec/08 R216, R218). -/
def State.sideLane (s : State) (d side k : Nat) (inbound : Bool) : Option (Nat × Nat) :=
  match (sidePlaces side)[k]? with
  | none => none
  | some q => ((if inbound then [0, 1] else [2, 3]).find? (fun l =>
      let b := s.bindOf d q l
      bindEn b && decide (bindPort b = 4 + side))).map (fun l => (q, l))

/-- Module of a share, codeword of the frame and data byte of it that hold byte b of a stripe (spec/11 R317). -/
def stripeAt (b : Nat) : Nat × Nat × Nat := (b / 496, b % 496 / 124, b % 124)

/-- Puts a token or credit on its way, in the order of arrival; one that is already on the way then stays the one it is. -/
def onWay {α : Type} (l : List (Nat × α)) (t : Nat) (a : α) : List (Nat × α) :=
  if l.any (fun e => decide (e.1 = t)) then l
  else l.filter (fun e => decide (e.1 < t)) ++ [(t, a)] ++ l.filter (fun e => decide (t < e.1))

/-- Fabric cycles from the start of a frame to its last decoded codeword over a route of a number of hops (spec/11 R320): the last codeword
starts 4 in, then 12 a hop and 1 in the relay's switch. -/
def stripeFlight (hops : Nat) : Nat := if hops = 1 then 16 else 29

/-- Common count at which what left in cycle p of a stripe's five reaches its place (spec/11 R318, R321, spec/08 R220): Λ + 12 after it left,
in the frame before the one whose last codeword has now been decoded. DEDUCED (log entry 82). -/
def stripeDue (ccount hops p : Nat) : Nat := 5 * ((ccount - stripeFlight hops) / 5) + p + 47

/-- Slot t of a stripe that is delivered: its token is on its way to its place, its credit to its source, each due with its own cycle (spec/11
R318, R321). What the stream's own record already has on the way stays as it is; a discarded stripe takes it away. -/
def State.stripeSlot (s : State) (d side hops : Nat) (st : Stripe) (good : Bool) (t : Nat) : State :=
  let due := stripeDue (s.ccountOf d) hops (t / 4)
  let s1 := match s.sideLane d side (t % 4) true with
    | some (q, l) =>
      s.modPlace d q (fun x =>
        let k := x.lane l
        match good, (st.slots[t]?).getD none with
        | true, some tok => x.setLane l { k with wire := onWay k.wire due tok }
        | true, none => x
        | false, _ => x.setLane l { k with wire := k.wire.filter (fun e => decide (e.1 ≠ due)) })
    | none => s
  match s1.sideLane d side (t % 4) false with
  | some (q, l) =>
    s1.modPlace d q (fun x =>
      let k := x.lane l
      if !good then x.setLane l { k with retAt := k.retAt.filter (fun r => decide (r ≠ due)) }
      else if st.cret.getLsbD t then x.setLane l { k with retAt := (onWay (k.retAt.map (fun r => (r, ()))) due ()).map (·.1) }
      else x)
  | none => s1

/-- Router that relays the route on a side of a site (spec/01 R39, R40). -/
def State.sideRelay (s : State) (d side : Nat) : Option Nat :=
  match s.sideRoute d side with
  | some [_, v, _] => some v
  | _ => none

/-- The physical link whose receiver failed a codeword of a stripe: the relay's where its decoder failed one, else the site's own (spec/16
R460). -/
def State.failedLink (s : State) (d side : Nat) (st : Stripe) : Nat :=
  match s.sideRoute d side with
  | some [_, v, e] => if st.relayUncorr = 0 then unitLink d (s.sidePort d side) else unitLink v ((portTo v e).getD 0)
  | _ => unitLink d (s.sidePort d side)

/-- A stripe of the share on a side arrives at a site's router (spec/11 R315, R318, R319, R322, spec/14 R412). The relay of a two-hop route
decodes each codeword before it, counts what it found and sends the codeword on. A side without a route, a port that is down and links that a
frequency step has stopped deliver nothing. The first stripe of a share has none before it to follow. -/
def State.stripeIn (s : State) (d side : Nat) (st : Stripe) : State :=
  let port := s.sidePort d side
  let stopped := match s.partOfNode d with | some p => (s.part p).stopped | none => true
  if (s.sideRoute d side).isNone || !s.portUp d port || stopped then s
  else
    let unit := unitLink d port
    let relay := s.sideRelay d side
    let s0 := match relay with
      | some v => (s.bumpLink v RS_RT_FEC_CORR 31 st.relayCorr).bumpLink v RS_RT_FEC_UNCORR 30 st.relayUncorr
      | none => s
    let hops := if relay.isSome then 2 else 1
    let bad := st.uncorr + (if relay.isSome then st.relayUncorr else 0)
    let s1 := (s0.bumpLink d RS_RT_FEC_CORR 31 st.corrected).bumpLink d RS_RT_FEC_UNCORR 30 st.uncorr
    let s2 := if 1 < st.wander then (s1.bumpErr d CD_CLK_WANDER CD_CLK_STATUS 29 1).raise d 0x11A1 unit 0 else s1
    let s3 := if 3 < st.wander then s2.raise d 0x21A0 unit 0 else s2
    let exp := sfind (s.die d).sseq side
    let inSeq := match exp with | some e => decide (e = st.sseq.toNat) | none => true
    let good := decide (bad = 0) && decide (st.wander ≤ 3) && inSeq
    let next := if bad = 0 then st.sseq.toNat + 1 else exp.getD st.sseq.toNat + 1
    let s4 := s3.modDie d (fun x => { x with sseq := sput x.sseq side (next % 256) })
    let s5 := (List.range 20).foldl (fun t k => t.stripeSlot d side hops st good k) s4
    if good then s5 else s5.raise d 0x2160 (s.failedLink d side st) 0

-- Dynamic codewords (spec/11 R324-R326) ----------------------------------------------------------------------------------------

/-- A physical link fails (spec/11 R326); Uttos fences it at the event. -/
def State.linkFail (s : State) (n port : Nat) : State :=
  let k := 16 * n + port
  (s.setPcd (fun p => { p with uncorrAt := serase p.uncorrAt k, resent := serase p.resent k })).raise n 0x2161 (unitLink n port) 0

/-- Codewords that the replay buffer of a port still takes: at most 128 are unacknowledged (spec/11 R325). -/
def State.replayRoom (s : State) (n port : Nat) : Nat :=
  128 - (sget 0 s.pcd.sentNext (16 * n + port) + 4096 - sget 0 s.pcd.sentBase (16 * n + port)) % 4096

/-- Codewords are sent over a port. -/
def State.sendCodewords (s : State) (n port count : Nat) : State :=
  s.setPcd (fun p => { p with sentNext := nput 0 p.sentNext (16 * n + port) ((sget 0 p.sentNext (16 * n + port) + count) % 4096) })

/-- Flits sent take credits of the far buffer of a channel; a codeword received gives some back (spec/11 R323, R324). -/
def State.takeCredits (s : State) (n port ch k : Nat) : State :=
  s.setPcd (fun p => { p with netUsed := nput 0 p.netUsed (netKey n port ch) (sget 0 p.netUsed (netKey n port ch) + k) })
def State.giveCredits (s : State) (n port ch k : Nat) : State :=
  s.setPcd (fun p => { p with netUsed := nput 0 p.netUsed (netKey n port ch) (sget 0 p.netUsed (netKey n port ch) - k) })

/-- ACK and NAK of an accepted codeword: what the port has sent up to ACK leaves its replay buffer; a NAK resends the rest. -/
def State.replayAck (s : State) (n port : Nat) (c : Codeword) : State :=
  let k := 16 * n + port
  let next := sget 0 s.pcd.sentNext k
  let base := sget 0 s.pcd.sentBase k
  let got := (c.ack.toNat + 1 + 4096 - base) % 4096
  let base1 := if c.ackv ∧ got ≤ (next + 4096 - base) % 4096 then (base + got) % 4096 else base
  let again := (next + 4096 - base1) % 4096
  let times := (if base1 = base then sget 0 s.pcd.resent k else 0) + (if c.nak ∧ 0 < again then 1 else 0)
  let s1 := s.setPcd (fun p => { p with sentBase := nput 0 p.sentBase k base1, resent := nput 0 p.resent k times })
  let s2 := if c.nak then s1.bumpLink n RS_RT_REPLAY 29 again else s1
  if 16 ≤ times then s2.linkFail n port else s2

/-- A dynamic codeword arrives over a port (spec/11 R315, R325, R326); links that a frequency step has stopped carry none (spec/11 R322). -/
def State.codewordIn (s : State) (n port : Nat) (c : Codeword) : State :=
  let k := 16 * n + port
  let stopped := match s.partOfNode n with | some p => (s.part p).stopped | none => true
  if !(if n < 576 then s.portUp n port else s.nodeOn n) || stopped then s
  else
    let nak := fun (t : State) => t.setPcd (fun p => { p with nakSent := insUniq k p.nakSent })
    if c.ecc = .uncorrectable then
      let l := (sget [] s.pcd.uncorrAt k).filter (fun t => decide (s.ptc < t + 1000000)) ++ [s.ptc]
      let s1 := nak ((s.bumpLink n RS_RT_FEC_UNCORR 30 1).setPcd (fun p => { p with uncorrAt := sput p.uncorrAt k l }))
      if 1000 ≤ l.length then s1.linkFail n port else s1
    else
      let s1 := if c.ecc = .corrected then s.bumpLink n RS_RT_FEC_CORR 31 1 else s
      if c.crcOk && decide (c.seq.toNat = sget 0 s.pcd.seqExp k) then
        let s2 := s1.setPcd (fun p => { p with seqExp := nput 0 p.seqExp k ((c.seq.toNat + 1) % 4096), nakSent := p.nakSent.filter (fun j => decide (j ≠ k)) })
        (s2.replayAck n port c).giveCredits n port c.crch.toNat c.crn.toNat
      else nak s1

-- Dynamic packets (spec/11 R327-R330) ------------------------------------------------------------------------------------------

/-- A packet has reached its destination endpoint. -/
def State.pktArrive (s : State) (p : DynPkt) : State :=
  let ty := p.ptype.toNat
  if ty = 0 then s.readIn p
  else if ty = 1 then s.writeAt p
  else if ty = 2 then s.readDataIn p
  else if ty = 3 then s.writeAckIn p
  else if ty = 5 then s.landPkt p
  else if ty = 6 then s.donePkt p
  else if ty = 8 then s.freadIn p
  else if ty = 9 then s.onPanelIn p 9
  else if ty = 10 then s.fwriteIn p
  else if ty = 11 then s.onPanelIn p 11
  else s.pktIn p [] id

/-- An output of a router serves its next packet (spec/11 R329, R332): the packet moves one hop, its codewords and the credits of the far buffer
taken, or leaves the mesh at its destination. It waits while the replay buffer has no room for its codewords (R325). -/
def State.packetHop (s : State) (n out : Nat) : State :=
  let stopped := match s.partOfNode n with | some p => (s.part p).stopped | none => true
  match s.netPick n out with
  | none => s
  | some (ch, i) =>
    match s.netQ n i ch with
    | [] => s
    | p :: r =>
      if s.routerOut n || !s.regionOn ((regionOfNode n).getD 16) || stopped then s
      else match s.nextHop n (s.epRouter p.dst.toNat p.src.toNat) p.ord with
        | none => (s.netServed n out ch i).pktArrive p
        | some m =>
          if s.replayRoom n out < cdiv (pktFlits p) 7 then s
          else
            let far := (portTo m n).getD 14
            let s1 := ((s.netServed n out ch i).setNetQ n i ch r).setNetQ m far ch (s.netQ m far ch ++ [p])
            let s2 := s1.bumpPerf (nodeRs ((regionOfNode n).getD 0)) (RS_RT_DYN_FLITS (rtIndex n)) (pktFlits p)
            (s2.sendCodewords n out (cdiv (pktFlits p) 7)).takeCredits n out ch (pktFlits p)

-- What reaches a die over the spindle ------------------------------------------------------------------------------------------

/-- Takes the first packet that a test names out of the spindle's FIFOs, where one is under way: this arrival is its. -/
def State.spDrop (s : State) (f : Nat → SpPkt → Bool) : State :=
  match s.pcd.spn.find? (fun e => e.2.any (f (e.1 / 16))) with
  | some e => s.setPcd (fun p => { p with spn := nput [] p.spn e.1 (e.2.eraseP (f (e.1 / 16))) })
  | none => s

/-- SPSEND at its die (spec/06 R186): a payload that arrives at a full queue is discarded and counted. -/
def State.spsendIn (s : State) (d src : Nat) (v : W64) : State :=
  if !s.coreOn d then s
  else if (s.die d).spq.length < 16 then s.modDie d (fun x => { x with spq := x.spq ++ [(src, v)] })
  else s.bumpErr d CD_SC_SPDROP CD_SC_DIE_STATUS 31 1

/-- BAR_ARRIVE at a node from a child (spec/11 R339). -/
def State.barArriveIn (s : State) (n b child : Nat) : State :=
  match s.partOfNode n with
  | none => s
  | some p =>
    if s.treeNode p n then
      let x := s.part p
      (s.setPart p { x with arrived := if x.arrived.contains (n, b, child) then x.arrived else x.arrived ++ [(n, b, child)] }).barUp p n b
    else s

/-- BAR_RELEASE at a die (spec/11 R339): the FX.BARs of its S-cores complete; after a timeout the die discards it. -/
def State.barReleaseIn (s : State) (d b : Nat) : State :=
  if !s.coreOn d then s
  else if (s.die d).barSkip.contains b then
    (s.modDie d (fun x => { x with barSkip := x.barSkip.filter (fun k => decide (k ≠ b)), barAt := x.barAt.filter (fun k => decide (k ≠ b)) })).barCheck d b
  else
    let s1 := s.modDie d (fun x => { x with barAt := x.barAt.filter (fun k => decide (k ≠ b)) })
    (List.range 4).foldl (fun t c => match (t.sc d c).bar with
      | some (b', _) => if b' = b then t.barEnd d c 0 else t
      | none => t) s1

/-- A place is ARMED for a strobe of this cycle: one that a PL.ARM armed in the same cycle is not (spec/06 R185). -/
def State.armedFor (s : State) (d p : Nat) : Bool :=
  let x := s.place d p
  decide (x.st = .armed) && (match x.plUse with | some (_, n, v) => !(decide (n = s.ccountOf d) && decide (v % 8 ≠ 1)) | none => true)

/-- START at a die (spec/08 R236, R237, spec/14 R413). A strobe that comes after its start cycle starts nothing: sequencer cause 1, recorded
for the lowest place that was to start. -/
def State.startIn (s : State) (d cycle : Nat) : State :=
  if !s.coreOn d then s
  else if (s.die d).fstep then
    match s.partOfNode d with
    | some p => s.modPart p (fun x => { x with stepW := some cycle })
    | none => s
  else
    let late := wrapSub 64 (s.ccountOf d) cycle
    let armed := (List.range 25).filter (s.armedFor d)
    if 0 < late ∧ late < 2 ^ 63 then
      let p := (armed.head?).getD 0
      (s.plRecord d 0 p (s.turnOf d p) 1 0 0).raise d 0x2153 (unitCore d p) 0
    else s.modDie d (fun x => { x with startAt := some cycle, strobed := armed.foldl (fun a p => a + 2 ^ p) 0 })

/-- YIELD at a die (spec/08 R253): the epoch count at which its places stop. -/
def State.yieldIn (s : State) (d e : Nat) : State := if s.coreOn d then s.modDie d (fun x => { x with yieldAt := some e }) else s

/-- A panel time beacon at a node (spec/14 R419, R420): its error is recorded; the node slews and adjusts its rate, or takes the time
outright. -/
def State.beaconIn (s : State) (n : Nat) (payload : Nat) : State :=
  if !s.nodeOn n then s
  else
    let local16 := s.localPtc16 n
    let e := signedOf 64 (wrapSub 64 payload local16)
    let old := signedOf 32 (s.rg n (clkOff n 0x28) % 2 ^ 32)
    let s1 := s.setRg n (clkOff n 0x28) ((e % 2 ^ 32).toNat)
    let far := decide (1024 < e.natAbs)
    let s2 := s1.setRgB n (clkOff n 0) 9 (!far)
    let s3 := if far then s2.raise n 0x11A2 (unitDie n) 0 else s2
    let busy := match s.partOfNode n with | some p => s.loaded p | none => false
    if far && !busy then
      s3.setPcd (fun p => { p with ptcErr := nput 0 p.ptcErr n (sget 0 p.ptcErr n - e), ptcSlew := nput 0 p.ptcSlew n 0 })
    else
      s3.setPcd (fun p => { p with ptcSlew := nput 0 p.ptcSlew n e, ptcRate := nput 0 p.ptcRate n (sget 0 p.ptcRate n + (e - old)) })

-- Notices (spec/08 R249, R250, spec/14 R413) -----------------------------------------------------------------------------------

/-- Puts data in the attachment slot used next (spec/16 R469). -/
def State.attach (s : State) (bs : List Byte) : State × Nat :=
  let a := s.pcd.attNext
  (s.setPcd (fun p => { p with attNext := (a + 1) % 64,
                               att := writeBytes (clearRange p.att (0x10000 * a) (0x10000 * (a + 1))) (0x10000 * a) (bs.take 0x10000) }), a)

/-- A deadlock (spec/08 R249, R250): every die that has a RUNNING place has an idle notice outstanding. The queue occupancies go, by logical
site and place, into an attachment. -/
def State.deadlock (s : State) (p : Nat) : State :=
  let ds := (s.sitesOf p).filterMap (fun i => (s.siteNode i).map (fun d => (i, d)))
  let run := ds.filter (fun e => (s.die e.2).places.any (fun q => decide (q.2.st = .running)))
  if run ≠ [] ∧ run.all (fun e => (s.part p).idle.contains e.1) = true then
    let r := (s.stopPart p).attach (ds.flatMap (fun e => (List.range 25).flatMap (fun q => leBytes 4 (s.qocc e.2 q))))
    let job := s.runJob p
    (r.1.addRecord { code := 0x2151, part := p, fence := false, lost := false, att := true, eseq := 0, ptc := s.ptc, unit := 0, job := job.1,
                     incarn := job.2, rept := 0, attId := r.2, data := 0 }).actOn 0x2151 p 0 0
  else s

/-- NOTICE at the active PCD (spec/11 R335): 0 idle, 1 active, 2 drained, 3 step boundary reached. When the last die has reached its boundary
the PCD names W (spec/14 R413). -/
def State.noticeIn (s : State) (site kind : Nat) : State :=
  match s.partOfSite site with
  | none => s
  | some p =>
    let x := s.part p
    if kind % 4 = 0 then (s.setPart p { x with idle := insUniq site x.idle }).deadlock p
    else if kind % 4 = 1 then s.setPart p { x with idle := x.idle.filter (fun i => decide (i ≠ site)) }
    else if kind % 4 = 2 then s.drainedIn p site
    else
      let all := fun (l : List Nat) => (s.sitesOf p).all (fun i => (s.siteNode i).isNone || l.contains i)
      let l := insUniq site x.atStep
      let s1 := s.setPart p { x with atStep := l }
      if all l && !all x.atStep then s1.spBroadcast p 4 0 (5 * cdiv (x.ccount + 5000) 5 % 2 ^ 64) else s1

-- Alerts and register packets (spec/16 R452-R454) --------------------------------------------------------------------------------

/-- An ALERT at the active PCD: its event, and the REG_RSP that acknowledges it. -/
def State.alertTake (s : State) (a : Alert) : State :=
  let s1 := s.alertIn a
  if a.node = s.activeNode then
    s1.setPcd (fun p => { p with alerts := p.alerts.filter (fun x => !(decide (x.node = a.node) && decide (x.serial = a.serial))),
                                 seen := p.seen.filter (fun x => decide (x ≠ (a.node, a.serial))) })
  else s1.spSend s.activeNode (spPkt 11 s.activeNode a.node 0 0 a.serial)

/-- REG_RSP: at a die it acknowledges an ALERT (spec/16 R453); at the active PCD it carries the value read. -/
def State.regRspIn (s : State) (n v : Nat) : State :=
  if n = s.activeNode then { s with rdata := v }
  else s.setPcd (fun p => { p with alerts := p.alerts.filter (fun x => !(decide (x.node = n) && decide (x.serial = v))),
                                   seen := p.seen.filter (fun x => decide (x ≠ (n, v))) })

/-- Width in bytes of the register at an offset of a node's block; 4 where none is listed. -/
def regBytes (n off : Nat) : Nat := if (findReg (blkOf n) off 8).isSome then 8 else 4

/-- REG_RD at its target: the register is read, and its value sent back (spec/11 R335). -/
def State.regRdIn (s : State) (n off : Nat) : State :=
  if s.nodeOn n then
    let r := s.regRead .pcd n off (regBytes n off) 0
    r.1.spSend n (spPkt 11 n s.activeNode ((s.partOfNode n).getD 0) off r.2)
  else s

/-- REG_WR at its target; at the active PCD the tally of a unit's refusals is added to the count (spec/00 R21). -/
def State.regWrIn (s : State) (n off v : Nat) : State :=
  if n = s.activeNode ∧ off = PC_BAD_ACCESS_COUNT then s.badAccess v
  else if s.nodeOn n then s.regWrite .pcd n off (regBytes n off) v
  else s

/-- The end of the merge second of a correctable record (spec/16 R454): it is sent. -/
def State.mergeFlush (s : State) (code unit : Nat) : State :=
  match s.pcd.merging.find? (fun e => decide (e.code = code ∧ e.unit = unit)) with
  | some e => (s.setPcd (fun p => { p with merging := p.merging.erase e })).sendEvent e
  | none => s

/-- The NOTICE state of a die (spec/16 R453): step boundary reached, idle, drained, or active; none where it has sent none. -/
def State.noticeState (s : State) (d : Nat) : Option Nat :=
  let draining := match s.partOfNode d with | some p => (s.part p).drainAt.isSome | none => false
  let idle := match s.partOfNode d, s.nodeSite d with | some p, some i => (s.part p).idle.contains i | _, _ => false
  if (s.die d).fstep then some 3
  else if s.rgB d CD_PL_STATUS 0 then some 0
  else if draining && s.drainedNow d then some 2
  else if idle then some 1
  else none

/-- A die repeats its NOTICE state and its unacknowledged ALERTs (spec/16 R453). -/
def State.alertAgain (s : State) (n : Nat) : State :=
  if !s.nodeOn n then s
  else
    let s1 := if n < 576 then (match s.noticeState n with | some k => s.spNotice n k | none => s) else s
    (s1.pcd.alerts.filter (fun a => decide (a.node = n))).foldl (fun t a => t.spSend n (spPkt 8 n s.activeNode (a.part % 16) a.code a.serial)) s1

-- Forwarding (spec/11 R335-R340) -------------------------------------------------------------------------------------------------

/-- A packet leaves a node for the node's own die. -/
def State.spEject (s : State) (n : Nat) (k : SpPkt) : State :=
  let ty := k.ty.toNat
  let arg := k.arg.toNat
  let v := k.payload.toNat
  if ty = 1 then s.spsendIn n (arg % 512) k.payload
  else if ty = 3 then s.barReleaseIn n (arg % 256)
  else if ty = 4 then s.startIn n v
  else if ty = 5 then s.yieldIn n (v % 2 ^ 32)
  else if ty = 6 then (if n = s.activeNode then s.noticeIn (v % 512) arg else s)
  else if ty = 7 then s.beaconIn n v
  else if ty = 8 then
    (match s.pcd.alerts.find? (fun a => decide (a.node = k.src.toNat) && decide (a.serial = v)) with
     | some a => if n = s.activeNode then s.alertTake a else s
     | none => s)
  else if ty = 9 then s.regRdIn n arg
  else if ty = 10 then s.regWrIn n arg v
  else if ty = 11 then s.regRspIn n v
  else s

/-- A packet has been received by a node without an uncorrectable flit: it is combined, copied down the tree, or routed on. -/
def State.spRoute (s : State) (n sender : Nat) (k : SpPkt) : State :=
  let ty := k.ty.toNat
  if ty = 0 ∨ 12 ≤ ty then s.bumpLink n RS_RT_SPN_LOST 26 1
  else if ty = 2 then s.barArriveIn n (k.arg.toNat % 256) sender
  else if ty = 3 ∨ ty = 4 ∨ ty = 5 then
    match s.kernelNode k.part.toNat with
    | some root => s.spDown k.part.toNat root n k
    | none => s
  else match s.spPort n k.dst.toNat with
    | some port => s.spPush n port k
    | none => s

/-- A lost packet fails the job of its partition: class A, of a partition, neither NOTICE nor ALERT (spec/11 R340). -/
def spFatal (k : SpPkt) : Bool := !k.cls && !k.panel && decide (k.ty.toNat ≠ 6) && decide (k.ty.toNat ≠ 8)

/-- A node sends the packet at the head of an output's FIFO of a class; the node at the far end checks it (spec/11 R336, R337, R340). -/
def State.spForward (s : State) (n port : Nat) (cls : Bool) (e : Ecc) : State :=
  match s.spQ n port cls with
  | [] => s
  | k :: r =>
    let s1 := s.setSpQ n port cls r
    if !s.spUp n then s
    else if port = 7 then s1.spEject n k
    else match spFar n port with
      | none => s1
      | some m =>
        if !s.spUp m then s1
        else if e = .uncorrectable then
          let s2 := s1.bumpLink m RS_RT_SPN_LOST 26 1
          if spFatal k then s2.raisePart m k.part.toNat 0x2170 (unitDie m) 0 else s2
        else (if e = .corrected then s1.bumpLink m RS_RT_SPN_CORR 27 1 else s1).spRoute m n k

-- The meanings -----------------------------------------------------------------------------------------------------------------

/-- STRIPE_RECEIVE (spec/11 R319). -/
def execStripeReceive (die side : Nat) (st : Stripe) (s : State) : Host.Outcome State Fault Refusal :=
  guard (Instr.stripeReceive die side st).wf (s.stripeIn die side st)
/-- DYN_CODEWORD_RECEIVE (spec/11 R325). -/
def execDynCodewordReceive (node port : Nat) (c : Codeword) (s : State) : Host.Outcome State Fault Refusal :=
  guard (Instr.dynCodewordReceive node port c).wf (s.codewordIn node port c)
/-- PACKET_HOP (spec/11 R329). -/
def execPacketHop (node out : Nat) (s : State) : Host.Outcome State Fault Refusal := guard (Instr.packetHop node out).wf (s.packetHop node out)
/-- SPINDLE_FORWARD (spec/11 R337). -/
def execSpindleForward (node port : Nat) (cls : Bool) (e : Ecc) (s : State) : Host.Outcome State Fault Refusal :=
  guard (Instr.spindleForward node port cls e).wf (s.spForward node port cls e)
/-- SPSEND (spec/06 R186). -/
def execSpsend (die srcSite : Nat) (payload : W64) (s : State) : Host.Outcome State Fault Refusal :=
  guard (Instr.spsend die srcSite payload).wf
    ((s.spDrop (fun _ k => decide (k.ty = 1#6) && decide (k.dst.toNat = die) && decide (k.arg.toNat = srcSite) && decide (k.payload = payload))).spsendIn
      die srcSite payload)
/-- BAR_ARRIVE (spec/11 R339). -/
def execBarArrive (node barrier child : Nat) (s : State) : Host.Outcome State Fault Refusal :=
  guard (Instr.barArrive node barrier child).wf
    ((s.spDrop (fun f k => decide (k.ty = 2#6) && decide (f = child) && decide (k.arg.toNat = barrier))).barArriveIn node barrier child)
/-- BAR_RELEASE (spec/11 R339). -/
def execBarRelease (die barrier : Nat) (s : State) : Host.Outcome State Fault Refusal :=
  guard (Instr.barRelease die barrier).wf
    ((s.spDrop (fun f k => decide (k.ty = 3#6) && decide (f = die) && decide (k.arg.toNat = barrier))).barReleaseIn die barrier)
/-- START (spec/08 R236). -/
def execStart (die : Nat) (cycle : W64) (s : State) : Host.Outcome State Fault Refusal :=
  guard (Instr.start die cycle).wf
    ((s.spDrop (fun f k => decide (k.ty = 4#6) && decide (f = die) && decide (k.payload = cycle))).startIn die cycle.toNat)
/-- YIELD (spec/08 R253). -/
def execYield (die : Nat) (epoch : W32) (s : State) : Host.Outcome State Fault Refusal :=
  guard (Instr.yield die epoch).wf
    ((s.spDrop (fun f k => decide (k.ty = 5#6) && decide (f = die) && decide (k.payload.toNat = epoch.toNat))).yieldIn die epoch.toNat)
/-- NOTICE (spec/08 R249). -/
def execNotice (site kind : Nat) (s : State) : Host.Outcome State Fault Refusal :=
  guard (Instr.notice site kind).wf
    ((s.spDrop (fun _ k => decide (k.ty = 6#6) && decide (k.payload.toNat = site) && decide (k.arg.toNat = kind))).noticeIn site kind)
/-- BEACON (spec/14 R419). -/
def execBeacon (node : Nat) (payload : W64) (s : State) : Host.Outcome State Fault Refusal :=
  guard (Instr.beacon node payload).wf (s.beaconIn node payload.toNat)
/-- ALERT (spec/16 R452). -/
def execAlert (a : Alert) (s : State) : Host.Outcome State Fault Refusal :=
  guard (Instr.alert a).wf
    ((s.spDrop (fun _ k => decide (k.ty = 8#6) && decide (k.src.toNat = a.node) && decide (k.payload.toNat = a.serial))).alertTake a)
/-- REG_RD (spec/11 R335). -/
def execRegRd (node off : Nat) (s : State) : Host.Outcome State Fault Refusal :=
  guard (Instr.regRd node off).wf
    ((s.spDrop (fun _ k => decide (k.ty = 9#6) && decide (k.dst.toNat = node) && decide (k.arg.toNat = off))).regRdIn node off)
/-- REG_WR (spec/00 R21). -/
def execRegWr (node off : Nat) (val : W64) (s : State) : Host.Outcome State Fault Refusal :=
  guard (Instr.regWr node off val).wf
    ((s.spDrop (fun _ k => decide (k.ty = 10#6) && decide (k.dst.toNat = node) && decide (k.arg.toNat = off) && decide (k.payload = val))).regWrIn
      node off val.toNat)
/-- REG_RSP (spec/16 R453). -/
def execRegRsp (node serial : Nat) (s : State) : Host.Outcome State Fault Refusal :=
  guard (Instr.regRsp node serial).wf
    ((s.spDrop (fun _ k => decide (k.ty = 11#6) && decide (k.dst.toNat = node) && decide (k.payload.toNat = serial))).regRspIn node serial)
/-- ALERT_REPEAT (spec/16 R453). -/
def execAlertRepeat (node : Nat) (s : State) : Host.Outcome State Fault Refusal := guard (Instr.alertRepeat node).wf (s.alertAgain node)
/-- EVENT_MERGE_FLUSH (spec/16 R454). -/
def execEventMergeFlush (code unit : Nat) (s : State) : Host.Outcome State Fault Refusal :=
  guard (Instr.eventMergeFlush code unit).wf (s.mergeFlush code unit)

end Sys2Proof.Machine
end

