-- ==== Sys2Proof/Machine/Host.lean ====
section
/-! DEFINITION. Hosts: sessions, submission, data and completions, and what each work item does (spec/13 R379-R399, spec/15 R441, spec/16
R458, R465, spec/12 R376). -/

namespace Sys2Proof.Machine

-- Host ports (spec/13 R379, R380, spec/15 R430, R443) -------------------------------------------------------------------

/-- The host service answers: a configuration is in force and a port is up. -/
def State.hostUp (s : State) : Bool := s.pcd.conf.isSome && (s.hostPort false || s.hostPort true)

/-- The panel controller die of a port works. -/
def State.pcdWorks (s : State) (portB : Bool) : Bool := s.pcd.standby && (decide (s.pcd.activeB = portB) || s.pcd.standbyOk)

/-- Sends a stage report to every report address over a port (spec/15 R443). -/
def State.sendStage (s : State) (portB : Bool) (r : Report) : State :=
  match s.pcd.conf with
  | some c => c.reports.foldl (fun t a => t.emit (.stage portB a r)) s
  | none => s

/-- The port that the PTP servo uses: the active PCD's where that is up, else the other (spec/14 R421). -/
def State.ptpPort (s : State) : State :=
  let own := s.pcd.activeB
  s.setRgB nodePc PC_PTP_STATUS 2 (if s.hostPort own then own else if s.hostPort (!own) then !own else own)

/-- HOST_PORT_UP: reports written before it came up are sent (spec/15 R430). -/
def State.portRise (s : State) (portB : Bool) : State :=
  if s.pcdWorks portB then
    let q := if portB then s.pcd.repQB else s.pcd.repQA
    let s1 := (s.setRgB nodePc PC_HOST_STATUS (b2n portB) true).setPcd (fun p => if portB then { p with repQB := [] } else { p with repQA := [] })
    (q.foldl (fun t r => t.sendStage portB r) s1).ptpPort
  else s
/-- HOST_PORT_DOWN: sessions stay; the PTP servo moves to the other port (spec/13 R380, spec/14 R421). -/
def State.portFall (s : State) (portB : Bool) : State := (s.setRgB nodePc PC_HOST_STATUS (b2n portB) false).ptpPort

-- Packets (spec/13 R380, R381, R384) --------------------------------------------------------------------------------------

/-- Bytes of a host frame's Jilomen header and payload are counted (spec/13 R400). -/
def State.hostRx (s : State) (n : Nat) : State := s.bumpPerf nodePc PC_HOST_RX_BYTES (36 + n)

/-- Sends a packet of a session to its host when the session is open; the payload ends with a 16-byte tag (spec/13 R384). -/
def State.hostTx (s : State) (k op sseq aux off : Nat) (data : List Byte) : State :=
  if (s.session k).isOpen then s.hostSend (s.sessPort k) k 1 (52 + data.length) (fun d => .host d op sseq aux off data) else s

/-- An ACK of a SUBMIT or SDATA (spec/13 R394). -/
def State.hostAck (s : State) (k sseq aux status : Nat) : State := s.hostTx k 0x10 sseq aux status []

/-- A packet of a session other than OPEN: its tag, then its generation; a valid one keeps the session alive, and its port is the session's from
now on (spec/13 R380, R384, R386). -/
def State.hostPkt (s : State) (k : Nat) (gen : Nat) (h : HostHdr) (n : Nat) (f : State → State) : State :=
  if s.hostUp && s.hostPort h.portB then
    let s1 := s.hostRx n
    let x := s1.session k
    if !x.known || !h.tagOk then s1.bumpErr nodePc PC_HOST_AUTH_FAIL PC_HOST_STATUS 31 1
    else if !x.isOpen || decide (x.gen ≠ gen) then s1.bumpErr nodePc PC_HOST_STALE PC_HOST_STATUS 30 1
    else f (s1.setSession k { x with lastRx := s.ptc, portB := h.portB })
  else s

/-- Sends records in CPL packets of at most 32 (spec/13 R380, R395). -/
def State.cplAll (s : State) (k : Nat) (l : List Cpl) : State :=
  (List.range (cdiv l.length 32)).foldl (fun t i => t.sendCpl k ((l.drop (32 * i)).take 32)) s

-- OPEN, CLOSE (spec/13 R383-R386, R397) -------------------------------------------------------------------------------------

/-- Records with status 5 for the items that a reset ended, in SSEQ order (spec/13 R397). -/
def State.lostOut (s : State) (k : Nat) : State :=
  let x := s.session k
  if s.pcd.retained then
    let put := fun (t : State) (i : SItem) =>
      let y := t.session k
      let t1 := t.setSession k { y with items := [i] ++ y.items }
      t1.complete k i.w.sseq.toNat 5 0 i.done
    x.lostItems.foldl put (s.setSession k { x with lostItems := [] })
  else s.setSession k { x with lostItems := [] }

/-- A grant: the session that the key holds is superseded, or it is opened (spec/13 R383, R385). -/
def State.grantOpen (s : State) (k : Nat) (portB : Bool) : State :=
  let x := s.session k
  let gen := if x.isOpen then (x.gen + 1) % 65536 else x.gen
  let s1 := s.setSession k { x with isOpen := true, known := true, gen := gen, lastRx := s.ptc, portB := portB }
  let s2 := s1.hostSend portB k 3 (36 + 152) (fun d => .openOk d 0 s.pcd.retained x.nextSseq)
  (s2.cplAll k x.recs).lostOut k

/-- OPEN of a key slot of a partition (spec/13 R383); a number that no partition or slot has names an empty slot. -/
def State.openIn (s : State) (part slot port : Nat) (sigOk : Bool) : State :=
  if s.hostUp && s.hostPort (decide (port = 1)) then
    let k := 8 * part + slot
    let s1 := s.hostRx 148
    match (if part < 16 ∧ slot < 8 then s1.keyOf k else none) with
    | none => s1.hostSend (decide (port = 1)) k 3 (36 + 152) (fun d => .openOk { d with gen := 0 } 1 s.pcd.retained 0)
    | some _ => if sigOk then s1.grantOpen k (decide (port = 1)) else s1.bumpErr nodePc PC_HOST_AUTH_FAIL PC_HOST_STATUS 31 1
  else s

/-- A session ends: its hint expires; its items go on (spec/13 R386, R398). -/
def State.endSession (s : State) (k : Nat) : State :=
  let x := s.session k
  if x.isOpen then (s.setSession k { x with isOpen := false, hint := none }).powerSelect (k / 8) else s

-- SUBMIT, SDATA (spec/13 R394) --------------------------------------------------------------------------------------------------

/-- Sets the ledger bits of the granules that a range of partition HBM touches (spec/15 R441). -/
def State.markLedger (s : State) (p a n : Nat) : State :=
  let hi := min (a + n) (s.hbmSize p)
  if a < hi then
    s.modPart p (fun x => { x with ledger := (List.range ((hi - 1) / 2 ^ 30 + 1 - a / 2 ^ 30)).foldl (fun l g => nput false l (a / 2 ^ 30 + g) true) x.ledger })
  else s

/-- The granules that an item writes are marked when it is accepted. -/
def State.markItem (s : State) (p : Nat) (w : WItem) : State :=
  if w.op = 1#8 then (if isHbm w.addr.toNat then s.markLedger p w.addr.toNat w.length.toNat else s)
  else if w.op = 3#8 then
    (dmaRows w.desc).foldl (fun t r => if isHbm r.2 then t.markLedger p r.2 w.desc.length.toNat else t) s
  else s

/-- Leading items of a packet whose SSEQs follow one another. -/
def inRow : Nat → List WItem → List WItem
  | _, [] => []
  | q, w :: r => if w.sseq.toNat = q then w :: inRow ((q + 1) % 2 ^ 32) r else []

/-- An accepted item. -/
def SItem.fresh (w : WItem) : SItem := { w := w, started := false, done := 0, lastData := 0, item := none, acted := false, got := [] }

/-- SUBMIT (spec/13 R394). -/
def State.submitIn (s : State) (k : Nat) (items : List WItem) : State :=
  match items with
  | [] => s
  | w0 :: _ =>
    let x := s.session k
    let q := w0.sseq.toNat
    let d := wrapSub 32 q x.nextSseq
    if 16 < items.length then s
    else if 2 ^ 31 ≤ d then
      match x.lastSubmits.find? (fun e => decide (e.1 = q)) with
      | some e => s.hostAck k q e.2 0
      | none => s.takeFree.hostAck k q (s.freeVal % 17) 0
    else if d ≠ 0 ∨ 1024 ≤ x.items.length then (s.bumpErr nodePc PC_HOST_REFUSED PC_HOST_STATUS 29 1).hostAck k q 0 1
    else
      let l := (inRow q items).take (1024 - x.items.length)
      let s1 := s.setSession k { x with items := x.items ++ l.map SItem.fresh, nextSseq := (q + l.length) % 2 ^ 32,
                                        lastSubmits := (q, l.length) :: x.lastSubmits }
      let s2 := l.foldl (fun t w => t.markItem (k / 8) w) s1
      (s2.bumpPerf nodePc PC_WI_ACCEPTED l.length).hostAck k q l.length 0

/-- Leading bytes that ranges cover. -/
def leading : Nat → List (Nat × Nat) → Nat → Nat
  | 0, _, n => n
  | f + 1, l, n =>
    let m := l.foldl (fun a r => if r.1 ≤ n then max a r.2 else a) n
    if m = n then n else leading f l m

/-- Bytes of an aligned access at an offset of a window with n bytes left: a 64-bit register takes 8, another register 4. -/
def accessLen (off n : Nat) : Nat :=
  if off % 8 = 0 ∧ 8 ≤ n ∧ (off < 0xF0000000 ∨ (findReg .cd off 8).isSome = true) then 8
  else if off % 4 = 0 ∧ 4 ≤ n then 4
  else if off % 2 = 0 ∧ 2 ≤ n then 2
  else 1

/-- Accesses that cover n bytes of a window: offset and length. -/
def accesses : Nat → Nat → Nat → List (Nat × Nat)
  | 0, _, _ => []
  | f + 1, off, n => if n = 0 then [] else let k := accessLen off n; (off, k) :: accesses f (off + k) (n - k)

/-- Writes bytes at a panel address for a WRITE item: the state and a status (spec/13 R388, R396, spec/10 R298). A refused access writes
nothing and counts (spec/00 R20). -/
def State.itemPut (s : State) (p a : Nat) (bs : List Byte) : State × Nat :=
  let n := bs.length
  if isHbm a then
    if s.scrubHits p a n && decide (0 < n) then (s, 6)
    else if s.keptRange p a n then (s.refuseBy (.host p), 0)
    else s.hbmWrite p a bs
  else
    match s.target (.host p) a with
    | .window d off =>
      if off + n ≤ 0x10000000 then
        (if s.spadOpen d off n then s.spadPut d (classPort 2) off bs else s.refuseBy (.host p), 0)
      else
        (((accesses (n + 1) off n).foldl (fun t e => t.winWrite (.host p) d e.1 e.2 (leVal ((bs.drop (e.1 - off)).take e.2)) none) s), 0)
    | _ => (s.refuseBy (.host p), 0)

/-- Reads bytes at a panel address for a READ item of a key: the state, a status, the bytes. State held under retention is open to its own
key (spec/16 R465). Of a site window, an uncorrectable word reads 0 (spec/03 R109, spec/07 R203). -/
def State.itemGet (s : State) (k p a n : Nat) : State × Nat × List Byte :=
  let zeros := List.replicate n 0#8
  let own := (s.part p).ctxs.all (fun e => decide (e.2.st ≠ .retained) || decide (e.2.key = k))
  if isHbm a then
    if s.scrubHits p a n && decide (0 < n) then (s, 6, [])
    else if s.keptRange p a n && !own then (s.refuseBy (.host p), 0, zeros)
    else s.hbmRead p a n
  else
    match s.target (.host p) a with
    | .window d off =>
      let closed := (s.retainedOn d && !own) || s.rgB d CD_SPAD_STATUS 0
      if off + n ≤ 0x10000000 then
        if closed || !s.spadRangeOk d off n then (s.refuseBy (.host p), 0, zeros)
        else
          let r := s.spadFetch d (classPort 2) off n
          match r.2 with
          | some bs => (r.1, 0, bs)
          | none => (r.1, 0, zeros)
      else if closed && decide (off < 0xF0000000) then (s.refuseBy (.host p), 0, zeros)
      else
        (accesses (n + 1) off n).foldl (fun (st : State × Nat × List Byte) e =>
          let r := st.1.winReadOpen (.host p) d e.1 e.2 none
          (r.1, 0, st.2.2 ++ (match r.2 with | .value v => leBytes e.2 v | _ => List.replicate e.2 0#8))) (s, 0, [])
    | _ => (s.refuseBy (.host p), 0, zeros)

/-- Pieces of an item's range: no piece crosses a 4 KiB boundary (spec/10 R284). Offset in the item and length. -/
def itemPieces (a n : Nat) : List (Nat × Nat) := (pagePieces a n).map (fun r => (r.1 - a, r.2))

/-- Every memory die that owns bytes of a range of partition HBM has a class 2 tracker entry for the transactions of an item (spec/13 R388, spec/10
R285). -/
def State.hostRoom (s : State) (p a n : Nat) : Bool :=
  !isHbm a || (pagePieces a n).all (fun e => match s.hbmMap p e.1 with
    | some (m, _) => (s.md m).holdAt.isNone && ((s.md m).freeTx 2).isSome
    | none => true)

/-- A transaction of an item fails: the item's record, and the failure of the job that it belongs to (spec/10 R298, R301). -/
def State.itemFails (s : State) (k q a status done : Nat) : State :=
  let p := k / 8
  let job := s.itemJob p (.hostItem k q)
  let s1 := s.complete k q status (if 2 ≤ status ∧ status ≤ 4 then itemEvent status else 0) done
  if (status = 2 ∨ status = 4) ∧ job < 65536 then
    match s.hbmMap p a with
    | some (m, _) => s1.raise (nodeMd m) (itemEvent status) (unitStack m) (jobMark job)
    | none => s1
  else s1

/-- A WRITE whose bytes have all been received and written is complete (spec/13 R387). -/
def State.writeCheck (s : State) (k q : Nat) : State :=
  match s.item k q with
  | some i => if i.acted && decide (i.w.op = 1#8) && decide (i.w.length.toNat ≤ i.done) then ((s.complete k q 0 0 i.done).settle (k / 8)).idleChoose (k / 8) else s
  | none => s

/-- Data of a WRITE item is written, transaction by transaction (spec/13 R388, R393). -/
def State.writeData (s : State) (k q : Nat) (i : SItem) (off : Nat) (bs : List Byte) : State :=
  let p := k / 8
  let a := i.w.addr.toNat + off
  let r := (itemPieces a bs.length).foldl (fun (st : State × Nat × Nat) e =>
    if st.2.1 ≠ 0 then st
    else
      let w := st.1.itemPut p (a + e.1) ((bs.drop e.1).take e.2)
      (w.1, w.2, if w.2 = 0 then st.2.2 else a + e.1)) (s, 0, 0)
  if r.2.1 ≠ 0 then (r.1.itemFails k q r.2.2 r.2.1 i.done).settle p
  else
    let got := i.got ++ [(off, off + bs.length)]
    let done := leading got.length got 0
    r.1.modItem k q (fun j => { j with got := got, done := done, lastData := s.ptc })

/-- SDATA (spec/13 R380, R394). Data of an item that is not started, beyond its length, or for which a tracker entry is wanting, is not taken and
not acknowledged; data of a WRITE
that has its record is acknowledged. -/
def State.sdataIn (s : State) (k q off : Nat) (data : List Byte) : State :=
  match s.item k q with
  | some i =>
    if i.started && decide (i.w.op = 1#8) && decide (off + data.length ≤ i.w.length.toNat) && decide (data.length ≤ 8064) &&
        s.hostRoom (k / 8) (i.w.addr.toNat + off) data.length then
      ((s.writeData k q i off data).hostAck k q 0 0).writeCheck k q
    else s
  | none => if 2 ^ 31 ≤ wrapSub 32 q (s.session k).nextSseq then s.hostAck k q 0 0 else s

/-- CPL_ACK: records up to a CSEQ leave (spec/13 R392). -/
def State.cplAckIn (s : State) (k c : Nat) : State :=
  let x := s.session k
  s.setSession k { x with recs := x.recs.filter (fun r => decide (2 ^ 31 ≤ wrapSub 32 c r.cseq)) }

-- The start of an item (spec/13 R388, R391, R392, R395, R399, spec/15 R442, spec/17 R493) -----------------------------------------

/-- The right an operation needs: ADMIN for the job operations, DATA for the others (spec/13 R387). -/
def opAdmin (op : Nat) : Bool := [0x10, 0x11, 0x12, 0x14].contains op
def opKnown (op : Nat) : Bool := [1, 2, 3, 0x10, 0x11, 0x12, 0x13, 0x14, 0x20, 0x21].contains op

/-- A range that an item may name: backed HBM of its partition, or site windows of its logical sites (spec/13 R388). -/
def State.itemRange (s : State) (p a n : Nat) : Bool :=
  if isHbm a then decide (a + n ≤ s.hbmSize p)
  else
    let lo := (windowOf a).1
    let hi := (windowOf (a + n - 1)).1
    decide (hi < 512) && (List.range (hi + 1 - lo)).all (fun j => decide (s.partOfSite (lo + j) = some p))

/-- Status with which an item ends as it starts; none where it runs (spec/13 R388, R391, R396). -/
def State.startStatus (s : State) (k : Nat) (w : WItem) : Option Nat :=
  let p := k / 8
  let op := w.op.toNat
  let right := match s.keyOf k with | some h => if opAdmin op then h.admin else h.data | none => false
  let others := fun (f : Nat × Ctx → Bool) => (s.part p).ctxs.any (fun e => f e && decide (e.2.key ≠ k)) && !(s.part p).ctxs.any (fun e => f e && decide (e.2.key = k))
  let badRange := if op = 1 ∨ op = 2 then !s.itemRange p w.addr.toNat w.length.toNat
    else if op = 0x10 ∨ op = 0x13 then !(isHbm w.addr.toNat && s.itemRange p w.addr.toNat w.length.toNat) else false
  if !opKnown op then some 9
  else if !right then some 8
  else if w.rsv || badRange then some 9
  else if decide (op < 0x20) && decide (op ≠ 0x12) && decide (op ≠ 0x14) && others (fun e => decide (e.2.job = w.job.toNat)) then some 8
  else if (op = 0x10 ∨ op = 0x11) ∧ others (fun e => decide (e.1 = w.ctx.toNat) && decide (e.2.st ≠ .retained)) = true then some 8
  else none

/-- The items of a session before one. -/
def earlier (q : Nat) (l : List SItem) : List SItem := l.takeWhile (fun i => decide (i.w.sseq.toNat ≠ q))

/-- A partition begins to wake (spec/17 R483). -/
def State.wakeBegin (s : State) (p : Nat) : State := s.modPart p (fun x => { x with waking := true, entering := false })

/-- Nothing holds an item back but the state of its partition: order, fence, records held, readiness, the ledger scrub, the coolant. -/
def State.mayStart (s : State) (k : Nat) (i : SItem) : Bool :=
  let p := k / 8
  let x := s.session k
  let op := i.w.op.toNat
  let light := decide (op = 0x20) || decide (op = 0x21)
  let before := earlier i.w.sseq.toNat x.items
  let cool := s.rgF nodePc PC_COOLANT 19 16
  decide (s.pcd.stageDone = 5) && !s.pcd.heldOff && s.partReady p && before.all (fun j => j.started) &&
    (!i.w.fence || before.isEmpty) && decide (x.recs.length < 4096) && (light || !(s.part p).scrubQ.any (fun r => r.granule.isSome)) &&
    !((decide (op = 0x10) || decide (op = 0x11)) && (decide (cool = 3) || decide (cool = 4)))

/-- WORK_ITEM_START (spec/13 R395). An item for a partition that is not in Run wakes it, and starts once it has woken (spec/13 R399). -/
def State.itemStart (s : State) (k q : Nat) : State :=
  match s.item k q with
  | none => s
  | some i =>
    let p := k / 8
    let light := decide (i.w.op = 0x20#8) || decide (i.w.op = 0x21#8)
    if i.started || !s.mayStart k i then s
    else if decide ((s.part p).pstate ≠ 0) && !light then (if (s.part p).waking then s else s.wakeBegin p)
    else
      match s.startStatus k i.w with
      | some st => s.complete k q st 0 0
      | none => s.modItem k q (fun j => { j with started := true, lastData := s.ptc })

/-- The effect of a started item of an operation. -/
def State.onItem (s : State) (k q : Nat) (op : Nat) (f : State → SItem → State) : State :=
  match s.item k q with
  | some i => if i.started && decide (i.w.op.toNat = op) then f s i else s
  | none => s

-- Data items (spec/13 R387, R388, R393) ---------------------------------------------------------------------------------------------

/-- ITEM_WRITE: the item takes its data from now on; it is complete once every byte is written. -/
def State.itemWrite (s : State) (k q : Nat) : State :=
  s.onItem k q 1 (fun s i => (s.modItem k q (fun j => { j with acted := true, lastData := if i.acted then j.lastData else s.ptc })).writeCheck k q)

/-- RDATA packets of bytes from offset 0: at most 8,064 bytes each (spec/13 R380). -/
def State.rdataOut (s : State) (k q : Nat) (bs : List Byte) : State :=
  (List.range (cdiv bs.length 8064)).foldl (fun t j => t.hostTx k 0x35 q 0 (8064 * j) ((bs.drop (8064 * j)).take 8064)) s

/-- ITEM_READ: transactions in order; the bytes before the first that fails are sent (spec/13 R393, spec/10 R298). It waits for its tracker
entries. -/
def State.itemRead (s : State) (k q : Nat) : State :=
  s.onItem k q 2 (fun s i =>
    let p := k / 8
    let a := i.w.addr.toNat
    if !s.hostRoom p a i.w.length.toNat then s
    else
    let r := (itemPieces a i.w.length.toNat).foldl (fun (st : State × Nat × List Byte × Nat) e =>
      if st.2.1 ≠ 0 then st
      else
        let g := st.1.itemGet k p (a + e.1) e.2
        if g.2.1 = 0 then (g.1, 0, st.2.2.1 ++ g.2.2, 0) else (g.1, g.2.1, st.2.2.1, a + e.1)) (s, 0, [], 0)
    let s1 := r.1.rdataOut k q r.2.2.1
    ((if r.2.1 = 0 then s1.complete k q 0 0 r.2.2.1.length else s1.itemFails k q r.2.2.2 r.2.1 r.2.2.1.length).settle p).idleChoose p)

/-- COPY: the memory die named, or one the panel chooses, executes the descriptor; the PCD itself rejects one that names a die outside the
partition or a fenced one (spec/10 R292). -/
def State.itemCopy (s : State) (k q : Nat) : State :=
  s.onItem k q 3 (fun s i =>
    let p := k / 8
    let m := if i.w.md = 0xFF#8 then ((s.part p).stackList.find? s.mdOn).getD 128 else i.w.md.toNat
    if i.item.isSome then s
    else if decide (m < 128) && decide (s.partOfRegion (m / 8) = some p) && s.mdOn m then s.descTake m (.hostItem k q) i.w.desc
    else s.complete k q 1 0 0)

/-- Phase of a key's job that is resident. -/
def State.phaseOf (s : State) (p job k : Nat) : Nat :=
  match (s.part p).ctxs.find? (fun e => decide (e.2.job = job) && decide (e.2.key = k)) with
  | some e => e.2.phase
  | none => 0

/-- CHECKPOINT: the range is held; with a matched twin it is copied, and it completes when mirrored (spec/16 R458, spec/12 R376). -/
def State.itemCheckpoint (s : State) (k q : Nat) : State :=
  s.onItem k q 0x13 (fun s i =>
    let p := k / 8
    let a := i.w.addr.toNat
    let n := i.w.length.toNat
    if i.acted then s
    else if s.scrubHits p a n && decide (0 < n) then s.complete k q 6 0 0
    else
      let s1 := s.modPart p (fun x => { x with held := x.held ++ [{ job := i.w.job.toNat, key := k, base := a, len := n, ckpt := i.w.ckpt.toNat, phase := s.phaseOf p i.w.job.toNat k }] })
      if s.matched && decide (s.twinRole = 1) && decide (p = s.part0) && s.twinUp then
        let r := s1.hbmRead p a n
        if r.2.1 = 0 then (r.1.emit (.mirror i.w.ckpt.toNat a r.2.2)).modItem k q (fun j => { j with acted := true })
        else r.1.itemFails k q a r.2.1 0
      else s1.complete k q 0 0 0)

-- Job items (spec/13 R390, R391, R396, spec/16 R465) -----------------------------------------------------------------------------------

/-- The retained contexts of a key end at its JOB_LOAD; those of the same job keep their HBM ranges (spec/16 R465). -/
def State.endKept (s : State) (p k job : Nat) : State :=
  ((s.part p).ctxs.filter (fun e => decide (e.2.st = .retained) && decide (e.2.key = k))).foldl (fun t e =>
    if e.2.job = job then
      let x := t.part p
      let t1 := t.setPart p { x with ctxs := serase x.ctxs e.1 }
      if e.2.onDie then (t1.diesOf p).foldl State.scrubDie t1 else t1
    else t.dropCtx p e.1) s

/-- An image fits the panel: digest, cut, option D, sites present and of the partition, ranges backed, bindings that agree (spec/13 R390,
spec/15 R440, spec/08 R218, spec/09 R267). -/
def State.imageOk (s : State) (p : Nat) (img : Image) : Bool :=
  img.digestOk && decide (img.cut.toNat = s.fuses.cut) && (!img.needsD || s.enD) &&
    img.sites.all (fun i => decide (s.partOfSite i = some p) && (s.siteNode i).isSome) &&
    (img.ranges ++ [(img.saveBase, img.saveLen)]).all (fun r => decide (r.1 + r.2 ≤ s.hbmSize p)) &&
    decide (img.phases ≠ []) && img.phases.all (fun ph => (s.writeBinds p ph).bindsOk ph)

/-- A range that is being scrubbed, or waits to be. -/
def State.scrubWaits (s : State) (p a n : Nat) : Bool :=
  (s.part p).scrubQ.any (fun r => decide (a < r.base + r.len) && decide (r.base < a + n))

/-- JOB_LOAD (spec/13 R390, spec/16 R465). It waits for the scrub of the ranges it would be given. -/
def State.itemLoad (s : State) (k q : Nat) (img : Image) : State :=
  s.onItem k q 0x10 (fun s i =>
    let p := k / 8
    let cid := i.w.ctx.toNat
    if (s.part p).ctxs.any (fun e => decide (e.2.st = .retained) && decide (e.2.key ≠ k)) then s.complete k q 13 0 0
    else
      let s1 := s.endKept p k i.w.job.toNat
      if (sfind (s1.part p).ctxs cid).isSome then s1.complete k q 13 0 0
      else if ((i.w.addr.toNat, i.w.length.toNat) :: img.ranges).any (fun r => s1.scrubWaits p r.1 r.2) then s1
      else
        let r := s1.hbmRead p i.w.addr.toNat i.w.length.toNat
        if r.2.1 = 0 ∧ r.1.imageOk p img = true then
          let c : Ctx := { job := i.w.job.toNat, incarn := 0, key := k, st := .loaded, img := img, phase := 0, prio := 0, quantum := 0,
                           retain := i.w.retain, jsItem := none, saved := [], retainedAt := 0, expired := false, endAs := none, step := none, onDie := false }
          let s2 := img.ranges.foldl (fun t x => t.markLedger p x.1 x.2) r.1
          (s2.modPart p (fun x => { x with ctxs := sput x.ctxs cid c })).complete k q 0 0 0
        else r.1.complete k q 14 0 0)

/-- The job entry of a context on every fabric die of its partition (spec/12 R356, spec/13 R391). The entry's number is the context's. -/
def State.setJobEntries (s : State) (p cid : Nat) (w : WItem) : State :=
  (s.regionsOf p).foldl (fun t f =>
    let n := nodeFd f
    let old := t.rg n (FD_JOB_W0 cid)
    let t1 := (((t.setRg n (FD_JOB_W0 cid) (2 ^ 63 + w.job.toNat * 2 ^ 16 + w.incarn.toNat)).setRg n (FD_JOB_W1 cid) w.rankBase.toNat).setRg n
      (FD_JOB_W2 cid) (w.ranks.toNat * 2 ^ 40 + w.winPages.toNat)).setRg n (FD_JOB_W3 cid) (w.winBase.toNat / 4096 * 4096)
    if old.testBit 63 then t1.jobEntryAfter f cid (bits old 31 16) else t1) s

/-- Phase in which a job starts: 0 (spec/13 R391), or at a restart from a checkpoint the phase in which the last one was taken (spec/08 R242, log
entry 78). -/
def Part.startPhase (x : Part) (c : Ctx) : Nat :=
  match (x.held.filter (fun h => decide (h.job = c.job) && decide (h.key = c.key))).getLast? with
  | some h => if h.phase < c.img.phases.length then h.phase else 0
  | none => 0

/-- JOB_START (spec/13 R391): the job entries, then the phase it starts in once the context's turn comes. It completes when the job ends. -/
def State.itemJobStart (s : State) (k q : Nat) : State :=
  s.onItem k q 0x11 (fun s i =>
    let p := k / 8
    let cid := i.w.ctx.toNat
    match sfind (s.part p).ctxs cid with
    | none => s.complete k q 13 0 0
    | some c =>
      if c.jsItem = some (k, q) then s
      else if c.job ≠ i.w.job.toNat ∨ c.key ≠ k ∨ c.st ≠ .loaded ∨ c.endAs.isSome = true then s.complete k q 13 0 0
      else if i.w.quantum.toNat < 1000 then s.complete k q 9 0 0
      else
        let c1 := { c with incarn := i.w.incarn.toNat, prio := i.w.prio.toNat, quantum := i.w.quantum.toNat, st := .ready, jsItem := some (k, q),
                           phase := (s.part p).startPhase c }
        ((s.setJobEntries p cid i.w).modPart p (fun x => { x with ctxs := sput x.ctxs cid c1 })).tryRun p 63)

/-- JOB_KILL (spec/13 R391, R396): the job ends with status 11; the kill's record follows that of the JOB_START. -/
def State.itemKill (s : State) (k q : Nat) : State :=
  s.onItem k q 0x12 (fun s i =>
    let p := k / 8
    let l := (s.part p).ctxs.filter (fun e => decide (e.2.job = i.w.job.toNat))
    if i.acted then s
    else match l with
      | [] => s.complete k q (if (s.part p).endedJobs.contains i.w.job.toNat then 0 else 13) 0 0
      | e :: _ =>
        if e.2.st = .retained then s.complete k q 0 0 0
        else (s.modItem k q (fun j => { j with acted := true })).endJob p e.1 11 0)

/-- RELEASE (spec/13 R387, R396, spec/16 R458, R465): retention and held ranges of the job end, and its state is scrubbed. -/
def State.itemRelease (s : State) (k q : Nat) : State :=
  s.onItem k q 0x14 (fun s i =>
    let p := k / 8
    let job := i.w.job.toNat
    let l := (s.part p).ctxs.filter (fun e => decide (e.2.job = job))
    let h := (s.part p).held.filter (fun x => decide (x.job = job))
    if i.acted then s.releaseSettle p
    else if l.any (fun e => decide (e.2.st = .ready) || decide (e.2.st = .running)) then s.complete k q 13 0 0
    else if l = [] ∧ h = [] then s.complete k q 13 0 0
    else
      let s1 := s.modPart p (fun x => { x with held := x.held.filter (fun y => decide (y.job ≠ job)) })
      let s2 := l.foldl (fun t e => t.dropCtx p e.1) s1
      let s3 := s2.addScrub p (scrubsOf (h.map (fun x => (x.base, x.len))) [])
      (s3.modItem k q (fun j => { j with acted := true })).releaseSettle p)

/-- HINT (spec/13 R398): the session's hint; 0 is no hint. -/
def State.itemHint (s : State) (k q : Nat) : State :=
  s.onItem k q 0x20 (fun s i =>
    let x := s.session k
    ((s.setSession k { x with hint := if i.w.nextEvent = 0#64 then none else some i.w.nextEvent.toNat }).powerSelect (k / 8)).complete k q 0 0 0)

/-- NOP. -/
def State.itemNop (s : State) (k q : Nat) : State := s.onItem k q 0x21 (fun s _ => s.complete k q 0 0 0)

/-- A WRITE that has had no SDATA for 10 s ends with status 12 (spec/13 R391). -/
def State.writeTimeout (s : State) (k q : Nat) : State := s.onItem k q 1 (fun s i => ((s.complete k q 12 0 i.done).settle (k / 8)).idleChoose (k / 8))

/-- HINT_EXPIRE (spec/13 R398). -/
def State.hintEnd (s : State) (k : Nat) : State :=
  let x := s.session k
  if x.hint.isSome then (s.setSession k { x with hint := none }).powerSelect (k / 8) else s

/-- RETENTION_EXPIRE (spec/16 R465). -/
def State.keptEnd (s : State) (p cid : Nat) : State :=
  match sfind (s.part p).ctxs cid with
  | some c => if c.st = .retained then s.dropCtx p cid else s
  | none => s

-- The meanings --------------------------------------------------------------------------------------------------------------------------

/-- OPEN (spec/13 R383). -/
def execOpn (part slot port : Nat) (sigOk : Bool) (s : State) : Host.Outcome State Fault Refusal :=
  guard (Instr.opn part slot port sigOk).wf (s.openIn part slot port sigOk)
/-- SUBMIT (spec/13 R394). -/
def execSubmit (sess : Nat) (gen : BitVec 16) (h : HostHdr) (items : List WItem) (s : State) : Host.Outcome State Fault Refusal :=
  guard (Instr.submit sess gen h items).wf (s.hostPkt sess gen.toNat h (128 * items.length + 16) (fun t => t.submitIn sess items))
/-- SDATA (spec/13 R380). -/
def execSdata (sess : Nat) (gen : BitVec 16) (h : HostHdr) (sseq : W32) (off : Nat) (data : List Byte) (s : State) :
    Host.Outcome State Fault Refusal :=
  guard (Instr.sdata sess gen h sseq off data).wf
    (s.hostPkt sess gen.toNat h (data.length + 16) (fun t => t.sdataIn sess sseq.toNat off data))
/-- CPL_ACK (spec/13 R392). -/
def execCplAck (sess : Nat) (gen : BitVec 16) (h : HostHdr) (cseq : W32) (s : State) : Host.Outcome State Fault Refusal :=
  guard (Instr.cplAck sess gen h cseq).wf (s.hostPkt sess gen.toNat h 20 (fun t => t.cplAckIn sess cseq.toNat))
/-- CLOSE (spec/13 R386). -/
def execClose (sess : Nat) (gen : BitVec 16) (h : HostHdr) (s : State) : Host.Outcome State Fault Refusal :=
  guard (Instr.close sess gen h).wf (s.hostPkt sess gen.toNat h 16 (fun t => t.endSession sess))
/-- SESSION_TIMEOUT (spec/13 R386). -/
def execSessionTimeout (sess : Nat) (s : State) : Host.Outcome State Fault Refusal :=
  guard (Instr.sessionTimeout sess).wf (s.endSession sess)
/-- CPL_RESEND (spec/13 R392). -/
def execCplResend (sess : Nat) (s : State) : Host.Outcome State Fault Refusal :=
  guard (Instr.cplResend sess).wf (s.cplAll sess (s.session sess).recs)
/-- WORK_ITEM_START (spec/13 R395). -/
def execWorkItemStart (sess : Nat) (sseq : W32) (s : State) : Host.Outcome State Fault Refusal :=
  guard (Instr.workItemStart sess sseq).wf (s.itemStart sess sseq.toNat)
/-- ITEM_WRITE (spec/13 R393). -/
def execItemWrite (sess : Nat) (sseq : W32) (s : State) : Host.Outcome State Fault Refusal :=
  guard (Instr.itemWrite sess sseq).wf (s.itemWrite sess sseq.toNat)
/-- WRITE_SDATA_TIMEOUT (spec/13 R391). -/
def execWriteSdataTimeout (sess : Nat) (sseq : W32) (s : State) : Host.Outcome State Fault Refusal :=
  guard (Instr.writeSdataTimeout sess sseq).wf (s.writeTimeout sess sseq.toNat)
/-- ITEM_READ (spec/13 R393). -/
def execItemRead (sess : Nat) (sseq : W32) (s : State) : Host.Outcome State Fault Refusal :=
  guard (Instr.itemRead sess sseq).wf (s.itemRead sess sseq.toNat)
/-- COPY (spec/13 R388). -/
def execCopy (sess : Nat) (sseq : W32) (s : State) : Host.Outcome State Fault Refusal :=
  guard (Instr.copy sess sseq).wf (s.itemCopy sess sseq.toNat)
/-- JOB_LOAD (spec/13 R390). -/
def execJobLoad (sess : Nat) (sseq : W32) (img : Image) (s : State) : Host.Outcome State Fault Refusal :=
  guard (Instr.jobLoad sess sseq img).wf (s.itemLoad sess sseq.toNat img)
/-- JOB_START (spec/13 R391). -/
def execJobStart (sess : Nat) (sseq : W32) (s : State) : Host.Outcome State Fault Refusal :=
  guard (Instr.jobStart sess sseq).wf (s.itemJobStart sess sseq.toNat)
/-- JOB_KILL (spec/13 R396). -/
def execJobKill (sess : Nat) (sseq : W32) (s : State) : Host.Outcome State Fault Refusal :=
  guard (Instr.jobKill sess sseq).wf (s.itemKill sess sseq.toNat)
/-- CHECKPOINT (spec/16 R458). -/
def execCheckpoint (sess : Nat) (sseq : W32) (s : State) : Host.Outcome State Fault Refusal :=
  guard (Instr.checkpoint sess sseq).wf (s.itemCheckpoint sess sseq.toNat)
/-- RELEASE (spec/16 R465). -/
def execRelease (sess : Nat) (sseq : W32) (s : State) : Host.Outcome State Fault Refusal :=
  guard (Instr.release sess sseq).wf (s.itemRelease sess sseq.toNat)
/-- HINT (spec/13 R398). -/
def execHint (sess : Nat) (sseq : W32) (s : State) : Host.Outcome State Fault Refusal :=
  guard (Instr.hint sess sseq).wf (s.itemHint sess sseq.toNat)
/-- ITEM_NOP (spec/13 R387). -/
def execItemNop (sess : Nat) (sseq : W32) (s : State) : Host.Outcome State Fault Refusal :=
  guard (Instr.itemNop sess sseq).wf (s.itemNop sess sseq.toNat)
/-- HINT_EXPIRE (spec/13 R398). -/
def execHintExpire (sess : Nat) (s : State) : Host.Outcome State Fault Refusal := guard (Instr.hintExpire sess).wf (s.hintEnd sess)
/-- RETENTION_EXPIRE (spec/16 R465). -/
def execRetentionExpire (part ctx : Nat) (s : State) : Host.Outcome State Fault Refusal :=
  guard (Instr.retentionExpire part ctx).wf (s.keptEnd part ctx)
/-- HOST_PORT_UP (spec/15 R430). -/
def execHostPortUp (portB : Bool) (s : State) : Host.Outcome State Fault Refusal := guard (Instr.hostPortUp portB).wf (s.portRise portB)
/-- HOST_PORT_DOWN (spec/14 R421, spec/13 R380). -/
def execHostPortDown (portB : Bool) (s : State) : Host.Outcome State Fault Refusal := guard true (s.portFall portB)

end Sys2Proof.Machine
end

