-- ==== Sys2Proof/Machine/Clock.lean ====
section
/-! DEFINITION. Clocks and panel time: references, frequency steps, local holds, the loss of a spindle node, and the PTP servo (spec/14
R401-R424, spec/11 R337, spec/16 R456). -/

namespace Sys2Proof.Machine

-- References (spec/14 R402-R404) ------------------------------------------------------------------------------------------

/-- Node whose registers hold a die's clock block: the PC block is the active PCD's. -/
def State.clkNode (s : State) (n : Nat) : Nat := if n < 736 then n else if n = s.activeNode then nodePc else 737

/-- The standby PCD takes over, with the session table, the contexts and the PTC as they are; running jobs fail (spec/16 R456, spec/13 R380).
Without a standby that works the panel has no controller, and is held until reset. -/
def State.pcdTakeover (s : State) : State :=
  if s.pcd.standbyOk then
    let clk := s.rg 737 PC_CLK_STATUS
    let down := s.setRgB nodePc PC_HOST_STATUS (b2n s.pcd.activeB) false
    let s1 := (down.setPcd (fun p => { p with activeB := !p.activeB, standbyOk := false })).setRg nodePc PC_CLK_STATUS clk
    let s2 := s1.pcdEvent 0x1012 31 0 0
    ((List.range 16).foldl (fun t p => match (t.part p).run with
      | some c => t.ctxEvent 0x2013 p c 0 0
      | none => t) s2).ptpPort
  else s.setPcd (fun p => { p with heldOff := true })

/-- A reference input of a die becomes unusable. -/
def State.refLost (s : State) (n : Nat) (refB : Bool) : State :=
  if !s.nodeOn n then s
  else
    let k := s.clkNode n
    let r := clkOff k 0
    let was := s.rg k r
    let s1 := s.setRgB k r (1 + b2n refB) true
    if was.testBit 0 ≠ refB ∨ was.testBit (1 + b2n refB) = true then s1
    else if was.testBit (1 + b2n !refB) then
      let s2 := s1.setRgB k r 4 true
      if n = s.activeNode then s2.pcdTakeover
      else if 736 ≤ n then s2.setPcd (fun p => { p with standbyOk := false })
      else s2.raise n 0x31A0 (unitCode 7 n (b2n refB)) 0
    else ((s1.setRgB k r 0 !refB).bumpErr k (clkOff k 4) r 31 1).raise n 0x11A0 (unitCode 7 n (b2n refB)) 0

/-- A reference input is usable again: the die does not switch back on its own. -/
def State.refBack (s : State) (n : Nat) (refB : Bool) : State :=
  if !s.nodeOn n then s
  else
    let k := s.clkNode n
    (s.setRgB k (clkOff k 0) (1 + b2n refB) false).setRgB k (clkOff k 0) 4 false

-- Frequency steps (spec/14 R408, R413, R414) --------------------------------------------------------------------------------

/-- Pause P of a step, in fabric cycles (spec/14 R408). -/
def pauseOf (step : Nat) : Nat := 400 * (25 - step)

/-- Step 3: at common count W the links stop, and the new step is in force. -/
def State.stepStop (s : State) (p : Nat) : State :=
  let x := s.part p
  match s.kernelNode p with
  | none => s
  | some d =>
    if x.stepW.isSome && !x.stopped then s.setPart p { x with stopped := true, step := s.rgF d CD_CLK_NEXT 51 48 }
    else s

/-- Step 4: 120 reference periods after W the common count is loaded with W + P − 2,800 × f; the links restart and are aligned. -/
def State.stepLoad (s : State) (p : Nat) : State :=
  let x := s.part p
  match x.stepW with
  | some w =>
    if x.stopped then
      let s1 := s.setPart p { x with stopped := false, ccount := (w + pauseOf x.step - 280 * (25 - x.step)) % 2 ^ 64 }
      (s1.diesOf p).foldl (fun t d => (t.modDie d (fun y => { y with sseq := [], sent := [] })).setRgB d CD_CLK_STATUS 8 true) s1
    else s
  | none => s

/-- Step 6: at W + P every place resumes; a die that has not completed raises 0x21A0 (spec/14 R414). -/
def State.stepResume (s : State) (p : Nat) (late : List Nat) : State :=
  let x := s.part p
  if x.stepW.isSome && !x.stopped then
    let ds := s.diesOf p
    let s1 := ds.foldl (fun t d => (t.modDie d (fun y => { y with fstep := false })).setRgB d CD_CLK_NEXT 63 false) s
    let s2 := x.stackList.foldl (fun t m => t.setRgB (nodeMd m) MD_CLK_NEXT 63 false) s1
    let s3 := (s2.modPart p (fun y => { y with stepW := none, atStep := [] })).armStep p
    (late.filter ds.contains).foldl (fun t d => t.raise d 0x21A0 (unitDie d) 0) s3
  else s

-- Margin monitors (spec/14 R415-R417) -----------------------------------------------------------------------------------------

/-- Replica-path monitors of a node's die. -/
def monitors (n : Nat) : Nat := if n < 576 then 24 else if n < 704 then 4 else if n < 736 then 2 else 0

/-- Warning threshold (spec/14 R416). -/
def State.warnTh (s : State) : Nat := match s.pcd.conf with | some c => c.warnTh | none => 6

/-- A slack in the margin record: the lowest since the last read, and its monitor. -/
def State.marginOf (s : State) (n mon slack : Nat) : State :=
  let r := clkOff n 0x2C
  if slack < s.rgF n r 31 26 then s.setRgF n r 31 21 (slack * 32 + mon) else s

/-- A local hold is in force on a die. -/
def State.holding (s : State) (n : Nat) : Bool := s.rgB n (clkOff n 0) 5

/-- A monitor warns: the die begins a local hold, unless one is in force (spec/14 R416). -/
def State.holdBegin (s : State) (n mon slack : Nat) : State :=
  if s.nodeOn n && decide (mon < monitors n) && decide (slack < s.warnTh) then
    let s1 := s.marginOf n mon slack
    if s1.holding n then s1
    else
      let s2 := (s1.bumpErr n (clkOff n 8) (clkOff n 0) 30 1).setRgB n (clkOff n 0) 5 true
      if n < 576 then (s2.bumpErr n CD_HOLD_EVENTS CD_SCH_STATUS 31 1).modDie n (fun x => { x with holdAt := some (s.ccountOf n) })
      else if n < 704 then s2.setMd (n - 576) { s2.md (n - 576) with holdAt := some (s.part (s.partOfMd (n - 576))).ccount }
      else s2
  else s

/-- The hold is released (spec/14 R416); a memory die issues what has waited. -/
def State.holdEnd (s : State) (n : Nat) : State :=
  if s.nodeOn n && s.holding n then
    let s1 := s.setRgB n (clkOff n 0) 5 false
    if n < 576 then s1.modDie n (fun x => { x with holdAt := none })
    else if n < 704 then
      let m := n - 576
      let s2 := s1.setMd m { s1.md m with holdAt := none }
      let count := ((s2.md m).items.map (fun i => i.txs.length)).foldl (· + ·) 0
      ((s2.md m).items.map (·.id)).foldl (fun t id => t.itemCheck m id) ((List.range 3).foldl (fun t c => t.txGrants m c count) s2)
    else s1
  else s

/-- A monitor has no slack: the die halts its places (spec/14 R417). -/
def State.slackZero (s : State) (d mon : Nat) : State :=
  if s.coreOn d && decide (mon < 24) then
    ((List.range 25).foldl (fun t p => t.stopPlace d p) (s.marginOf d mon 0)).raise d 0x21A1 (unitDie d) 0
  else s

-- Spindle nodes (spec/14 R407, spec/11 R337) -------------------------------------------------------------------------------------

/-- A site node of a partition in service that no route of 72 hops joins to the active PCD (spec/11 R337). -/
def State.cutOff (s : State) (p : Nat) : Option Nat :=
  let near := (meshLayers s.spUp 73 [] [s.spSite s.activeNode]).flatten
  (List.range' 0 576).find? (fun n => decide (s.partOfNode n = some p) && s.spUp n && !near.contains n)

/-- Partitions that hold a node without a route fail with 0x3170. -/
def State.routeCheck (s : State) : State :=
  (List.range 16).foldl (fun t p => match t.cutOff p with
    | some n => if (t.part p).off then t else t.pcdEvent 0x3170 p (unitDie n) 0
    | none => t) s

/-- A node takes itself out of service; the spindle routes around it. -/
def State.nodeOut (s : State) (n : Nat) : State :=
  if s.pcd.nodesOut.contains n then s else (s.setPcd (fun p => { p with nodesOut := insUniq n p.nodesOut })).routeCheck

-- Panel time (spec/14 R419-R422) -----------------------------------------------------------------------------------------------------

/-- BEACON_SEND: the master's time goes out. -/
def State.sendBeacon (s : State) : State := if s.pcd.standby && decide (4 ≤ s.pcd.stageDone) then s.emit (.beacon s.ptc16) else s

/-- Bounds of the servo's next rate, in units of 2^−32: ±50 ppm of the reference, and 2 ppm from every rate of the last 1,000 ms. -/
def State.rateBounds (s : State) : Int × Int :=
  let now := signedOf 32 (s.rg nodePc PC_PTP_RATE)
  let l := now :: (s.pcd.rateHist.filter (fun e => decide (s.ptc < e.1 + 1000000000))).map (·.2)
  (l.foldl (fun a r => max a (r - 8589)) (-214748), l.foldl (fun a r => min a (r + 8589)) 214748)

/-- A measured offset, PTC minus PTP time in 1/16 ns: the servo steers the rate, to a value that the spec leaves to it; a PTP time that lies
behind is reached at the lowest rate of the bounds (spec/14 R421, R422; log entries 6, 88). -/
def State.servo (s : State) (offset : Int) : State :=
  let b := s.rateBounds
  let rate := if 1600 < offset then b.1 else b.1 + ((s.freeVal % ((b.2 - b.1).toNat + 1) : Nat) : Int)
  let good := if offset.natAbs ≤ 1600 then s.pcd.ptpGood + 1 else 0
  let s1 := (s.takeFree.setRg nodePc PC_PTP_OFFSET (toTwos 64 offset)).setRg nodePc PC_PTP_RATE (toTwos 32 rate)
  let hist := (s.pcd.rateHist.filter (fun e => decide (s.ptc < e.1 + 1000000000))) ++ [(s.ptc, signedOf 32 (s.rg nodePc PC_PTP_RATE))]
  let s2 := s1.setPcd (fun p => { p with ptpGood := good, rateHist := hist })
  let s3 := if 16 ≤ good then s2.setRgF nodePc PC_PTP_STATUS 1 0 1 else s2
  if 16000 < offset.natAbs then s3.pcdEvent 0x11A4 31 0 0 else s3

/-- The servo takes messages of its domain, on its port (spec/14 R421). -/
def State.ptpOn (s : State) (f : PtpFrom) : Bool :=
  s.hostUp && s.hostPort f.portB && decide (s.rgB nodePc PC_PTP_STATUS 2 = f.portB) &&
    (match s.pcd.conf with | some c => decide (c.ptpDomain = f.domain) | none => false)

/-- PTP_SYNC on a port: `offset` is its time of receipt less the origin time it carries. A two-step master's origin follows in Follow_Up. -/
def State.syncIn (s : State) (f : PtpFrom) (twoStep : Bool) (offset : Int) : State :=
  if s.ptpOn f then
    if twoStep then s.setPcd (fun p => { p with ptpWait := some s.ptc16 })
    else (s.setPcd (fun p => { p with ptpWait := none })).servo (offset - s.pcd.ptpDelay)
  else s
/-- Follow_Up: the origin time of the Sync that waits, in 1/16 ns. -/
def State.followIn (s : State) (m : PtpMsg) : State :=
  match s.pcd.ptpWait with
  | some t => if s.ptpOn m.frm then (s.setPcd (fun p => { p with ptpWait := none })).servo (t - m.val - s.pcd.ptpDelay) else s
  | none => s
/-- Delay_Resp: the path delay. -/
def State.delayIn (s : State) (m : PtpMsg) : State := if s.ptpOn m.frm then s.setPcd (fun p => { p with ptpDelay := m.val }) else s
/-- Announce: the grandmaster's identity. -/
def State.announceIn (s : State) (m : PtpGm) : State := if s.ptpOn m.frm then s.setRg nodePc PC_PTP_GMID m.gmid.toNat else s

/-- 4 s without Sync: the rate is held (spec/14 R421). -/
def State.ptpLost (s : State) : State :=
  if s.rgF nodePc PC_PTP_STATUS 1 0 = 1 then
    ((s.setRgF nodePc PC_PTP_STATUS 1 0 2).setPcd (fun p => { p with ptpGood := 0, ptpWait := none })).pcdEvent 0x11A3 31 0 0
  else s

/-- PTP time found after Ready: with no job loaded in any partition the PTC moves forward to it (spec/14 R422, R418). -/
def State.ptpStep (s : State) (time16 : Nat) : State :=
  if decide (s.pcd.stageDone = 5) && (List.range 16).all (fun p => !s.loaded p) && decide (s.ptc16 < time16) then
    let s1 := { s with ptc16 := time16 }
    if s.ptc16 + 16000 < time16 then s1.pcdEvent 0x11A4 31 0 0 else s1
  else s

-- The meanings -------------------------------------------------------------------------------------------------------------------------

/-- REFERENCE_LOSS (spec/14 R403). -/
def execReferenceLoss (node : Nat) (refB : Bool) (s : State) : Host.Outcome State Fault Refusal :=
  guard (Instr.referenceLoss node refB).wf (s.refLost node refB)
/-- REFERENCE_RESTORED (spec/14 R402). -/
def execReferenceRestored (node : Nat) (refB : Bool) (s : State) : Host.Outcome State Fault Refusal :=
  guard (decide (node < 738)) (s.refBack node refB)
/-- FREQ_STEP_STOP (spec/14 R413). -/
def execFreqStepStop (part : Nat) (s : State) : Host.Outcome State Fault Refusal := guard (Instr.freqStepStop part).wf (s.stepStop part)
/-- FREQ_STEP_COUNT_LOAD (spec/14 R413). -/
def execFreqStepCountLoad (part : Nat) (s : State) : Host.Outcome State Fault Refusal :=
  guard (Instr.freqStepCountLoad part).wf (s.stepLoad part)
/-- FREQ_STEP_RESUME (spec/14 R413). -/
def execFreqStepResume (part : Nat) (late : List Nat) (s : State) : Host.Outcome State Fault Refusal :=
  guard (Instr.freqStepResume part late).wf (s.stepResume part late)
/-- LOCAL_HOLD_BEGIN (spec/14 R416). -/
def execLocalHoldBegin (node mon slack : Nat) (s : State) : Host.Outcome State Fault Refusal :=
  guard (Instr.localHoldBegin node mon slack).wf (s.holdBegin node mon slack)
/-- LOCAL_HOLD_RELEASE (spec/14 R416). -/
def execLocalHoldRelease (node : Nat) (s : State) : Host.Outcome State Fault Refusal :=
  guard (Instr.localHoldRelease node).wf (s.holdEnd node)
/-- REPLICA_SLACK_ZERO (spec/14 R417). -/
def execReplicaSlackZero (die mon : Nat) (s : State) : Host.Outcome State Fault Refusal :=
  guard (Instr.replicaSlackZero die mon).wf (s.slackZero die mon)
/-- SPINDLE_NODE_OUT (spec/14 R407). -/
def execSpindleNodeOut (node : Nat) (s : State) : Host.Outcome State Fault Refusal := guard (Instr.spindleNodeOut node).wf (s.nodeOut node)
/-- BEACON_SEND (spec/14 R419). -/
def execBeaconSend (s : State) : Host.Outcome State Fault Refusal := guard Instr.beaconSend.wf s.sendBeacon
/-- PTP_SYNC (spec/14 R421). -/
def execPtpSync (frm : PtpFrom) (twoStep : Bool) (offset16 : Int) (s : State) : Host.Outcome State Fault Refusal :=
  guard (Instr.ptpSync frm twoStep offset16).wf (s.syncIn frm twoStep offset16)
/-- PTP_FOLLOW_UP (spec/14 R421). -/
def execPtpFollowUp (m : PtpMsg) (s : State) : Host.Outcome State Fault Refusal := guard true (s.followIn m)
/-- PTP_DELAY_RESP (spec/14 R421). -/
def execPtpDelayResp (m : PtpMsg) (s : State) : Host.Outcome State Fault Refusal := guard true (s.delayIn m)
/-- PTP_ANNOUNCE (spec/14 R424). -/
def execPtpAnnounce (m : PtpGm) (s : State) : Host.Outcome State Fault Refusal := guard true (s.announceIn m)
/-- PTP_HOLDOVER (spec/14 R421). -/
def execPtpHoldover (s : State) : Host.Outcome State Fault Refusal := guard Instr.ptpHoldover.wf s.ptpLost
/-- PTC_STEP_TO_PTP (spec/14 R422). -/
def execPtcStepToPtp (time16 : Nat) (s : State) : Host.Outcome State Fault Refusal := guard (Instr.ptcStepToPtp time16).wf (s.ptpStep time16)
/-- ACTIVE_PCD_FAIL (spec/16 R456). -/
def execActivePcdFail (s : State) : Host.Outcome State Fault Refusal := guard Instr.activePcdFail.wf s.pcdTakeover

end Sys2Proof.Machine
end

