-- ==== Sys2Proof/Machine/Bringup.lean ====
section
/-! DEFINITION. Reset, the five stages of bring-up, stage reports and the re-true (spec/15 R425-R447, spec/16 R461-R467, spec/18 R498-R506,
spec/19 R521). -/

namespace Sys2Proof.Machine

-- Reset (spec/15 R427, R434, spec/16 R467, spec/19 R521) --------------------------------------------------------------------

/-- DONE of an item as the retained table keeps it: it is renewed at least once in 64 KiB of progress (spec/13 R389; which value stands at a
reset is open, log entry 6). -/
def State.keptDone (s : State) (i : SItem) (k : Nat) : Nat :=
  let at' := match i.item with
    | some (m, id) => (match (s.md m).items.find? (fun x => decide (x.id = id)) with | some x => doneBytes x.txs | none => i.done)
    | none => i.done
  at' - Config.freeValue (s.free + k) % (min at' 65536 + 1)

/-- A session after a reset: closed, its items ended (spec/13 R389, R397). -/
def State.sessionReset (s : State) (x : Session) : Session :=
  let ended := (List.range x.items.length).filterMap (fun k => (x.items[k]?).map (fun i => { i with done := s.keptDone i k }))
  { x with isOpen := false, hint := none, items := [], lostItems := x.lostItems ++ ended }

/-- A partition after a reset: the ledger, the held ranges and what jobs hold in HBM for post-mortem reading (spec/15 R434, spec/16 R458, R467). -/
def Part.afterReset (x : Part) : Part :=
  { Part.reset with ledger := x.ledger, lastList := x.lastList, held := x.held,
                    ctxs := (x.ctxs.filter (fun e => decide (e.2.st = .retained))).map (fun e => (e.1, { e.2 with onDie := false, saved := [] })) }

/-- Module reset: what survives is the retained memory, the NVM and the contents of HBM; bring-up begins again at Mount (spec/15 R427, R434). -/
def State.resetPanel (s : State) : State :=
  if s.pcd.standby then
    let items := (s.sess.map (fun e => e.2.items.length)).foldl max 0
    { State.reset with
      pending := s.pending, free := s.free + items, rdata := s.rdata, fuses := s.fuses, nvm := s.nvm, out := s.out,
      regs := s.regs.filter (fun e => decide (e.1 = rkey (nodeFd 0) FD_MIRROR_SEQ)),
      mds := s.mds.map (fun e => (e.1, { (default : Mdie) with mem := e.2.mem, errs := e.2.errs })),
      parts := s.parts.map (fun e => (e.1, e.2.afterReset)),
      sess := s.sess.map (fun e => (e.1, s.sessionReset e.2)),
      pcd := { State.reset.pcd with strikes := s.pcd.strikes, nvmIso := s.pcd.nvmIso,
                                    restart := decide (s.pcd.stageDone < 5) || s.retrueBusy } }
  else s

/-- RESET_ASSERT: 10 µs assert the reset, less than 1 µs is ignored; between the two the outcome is open (spec/19 R521; log entry 6). -/
def State.resetPin (s : State) (ns : Nat) : State :=
  if 10000 ≤ ns then s.resetPanel
  else if ns < 1000 then s
  else if s.freeVal % 2 = 1 then s.takeFree.resetPanel
  else s.takeFree

/-- Module power goes: nothing outside the NVM and the fuses stays (spec/13 R389, spec/16 R460). -/
def State.powerLost (s : State) : State :=
  { State.reset with
    pending := s.pending, free := s.free, rdata := s.rdata, fuses := s.fuses, nvm := s.nvm, out := s.out,
    pcd := { State.reset.pcd with stat := 0, standby := false, inputClosed := false, seated := s.pcd.seated, nvmIso := s.pcd.nvmIso,
                                  restart := decide (s.pcd.stageDone < 5) || s.retrueBusy } }

-- Stage reports (spec/15 R443) ----------------------------------------------------------------------------------------------

/-- A count of a stage report in 2 bytes. -/
def count16 (n : Nat) : List Byte := leBytes 2 (min 0xFFFF n)

/-- The 60 bytes of a stage report before its CRC; a count beyond its field stays at the field's largest value (log entry 22). -/
def Report.head (r : Report) : List Byte :=
  List.flatten [leBytes 1 r.stage, leBytes 1 r.status, leBytes 1 r.region,
    leBytes 1 (b2n r.restart + 2 * b2n r.logged + 4 * b2n r.imageB + 8 * b2n r.retained), leBytes 4 r.bseq, leBytes 8 r.ptc,
    leBytes 4 (min 0xFFFFFFFF r.duration), count16 r.badFuse, count16 r.badTest, count16 r.badBoth,
    count16 (r.badFuse + r.badTest - 2 * r.badBoth), count16 r.spares, count16 r.absent, leBytes 4 r.firstFail, leBytes 2 r.event,
    leBytes 2 r.partsReady, leBytes 4 r.configId, leBytes 4 r.fwVersion, count16 r.stacksUp, count16 r.logUsed, leBytes 8 0]

/-- The report with its CRC (spec/15 R443). -/
def Report.bytes (r : Report) : List Byte := r.head ++ leBytes 4 (crc32c r.head)

/-- Partitions of the configuration that have not failed. -/
def State.partsOn (s : State) : List Nat := (s.partCfgs.map (·.num)).filter (fun p => !(s.part p).off)
/-- Logical positions absent, over every row of the cut (spec/01 R35, R36). -/
def State.absentCount (s : State) : Nat :=
  (List.range s.cutRegions).foldl (fun a r => (List.range 4).foldl (fun b n =>
    b + ((List.range 8).filter (fun k => (s.rowMap r n).testBit k)).length) a) 0
/-- Rows whose spare holds a position, in some regions. -/
def State.sparesUsed (s : State) (regions : List Nat) : List (Nat × Nat) :=
  regions.flatMap (fun r => ((List.range 4).filter (fun n => decide (bits (s.rowMap r n) 19 18 = 1))).map (fun n => (r, n)))

/-- A report of the stage that ends, its counts 0. `knots0` is the length of the field knot log when the stage began. -/
def State.newReport (s : State) (stage status region knots0 : Nat) : Report :=
  { stage := stage, status := status, region := region, restart := s.pcd.restart, logged := decide (knots0 < s.nvm.knots.length),
    imageB := s.pcd.imageB, retained := s.pcd.retained, bseq := s.nvm.bseq, ptc := if s.pcd.stageDone = 5 then s.ptc else 0,
    duration := (s.ptc16 - s.pcd.stageAt) / 16, badFuse := 0, badTest := 0, badBoth := 0, spares := 0, absent := 0, firstFail := 0, event := 0,
    partsReady := if status = 2 then 0 else s.partsOn.foldl (fun a p => a ||| 2 ^ p) 0,
    configId := s.regVal nodePc PC_CONFIG_ID % 2 ^ 32, fwVersion := s.regVal nodePc PC_FW_VERSION % 2 ^ 32,
    stacksUp := (s.partsOn.map (fun p => (s.part p).stackList.length)).foldl (· + ·) 0, logUsed := s.nvm.knots.length }

/-- Words of a report window. -/
def State.reportWords (s : State) (n : Nat) : List Nat := (List.range 8).map (fun k => s.rg nodePc (PC_STAGE_REPORT (8 * n + k)))
def State.putReport (s : State) (n : Nat) (ws : List Nat) : State := s.setWords nodePc (fun k => PC_STAGE_REPORT (8 * n + k)) 0 ws

/-- The active PCD writes a report: the NVM ring, the status window, and the report addresses; a port that is down takes it when it comes up
(spec/15 R430, R443, R447). -/
def State.writeReport (s : State) (r : Report) : State :=
  let s1 := { s with nvm := { s.nvm with reports := appendCap 4096 s.nvm.reports r } }
  let s2 := if r.stage ≤ 5 then s1.putReport (r.stage - 1) (words8 r.bytes)
    else ((s1.putReport 7 (s1.reportWords 6)).putReport 6 (s1.reportWords 5)).putReport 5 (words8 r.bytes)
  let send := fun (t : State) (b : Bool) =>
    if t.hostPort b then t.sendStage b r
    else t.setPcd (fun p => if b then { p with repQB := p.repQB ++ [r] } else { p with repQA := p.repQA ++ [r] })
  (send (send s2 false) true).setPcd (fun p => { p with stageAt := s.ptc16 })

/-- STATUS of a stage that did not stop bring-up. -/
def State.passStatus (s : State) : Nat :=
  if (s.partCfgs.any (fun c => (s.part c.num).off)) || (List.range 16).any s.degraded then 1 else 0

-- Mount (spec/15 R429, spec/18 R498-R506) -----------------------------------------------------------------------------------

/-- A sequence number with a window of 2^31 is higher than another (spec/00 R24). -/
def seqHigher (a b : Nat) : Bool := decide (a % 2 ^ 32 ≠ b % 2 ^ 32) && decide (wrapSub 32 a b < 2 ^ 31)

/-- The two slots in order of preference: the higher SEQ, A where they are equal (spec/18 R499). The Bool says slot B. -/
def preferSlots {α : Type} (seq : α → Nat) (a b : Option α) : List (Bool × α) :=
  match a, b with
  | some x, some y => if seqHigher (seq y) (seq x) then [(true, y), (false, x)] else [(false, x), (true, y)]
  | some x, none => [(false, x)]
  | none, some y => [(true, y)]
  | none, none => []

/-- An image slot is valid (spec/18 R499). -/
def fwImageOk (f : FwImage) : Bool := f.magicOk && f.sigOk && f.digestOk
/-- A configuration is valid against an owner record (spec/18 R505, R506). -/
def confValid (owner : Option (Nat × Nat)) (c : Conf) : Bool :=
  c.magicOk && c.sigOwner && (match owner with
    | none => true
    | some (_, h) => decide (c.owner = h) || decide (c.sigPrior = some h))

/-- What an NVM device holds in a slot, where the device answers. -/
def State.slotImage (s : State) (b : Bool) : Option FwImage :=
  if (if b then s.nvm.ok1 else s.nvm.ok0) then ((s.nvm.images[b2n b]?).getD none).filter fwImageOk else none
def State.slotConf (s : State) (b : Bool) : Option Conf :=
  if (if b then s.nvm.ok1 else s.nvm.ok0) then ((s.nvm.confs[b2n b]?).getD none).filter (confValid s.nvm.owner) else none

/-- Regions of a set that neighbour a region, with the region itself. -/
def nearRegions (set : List Nat) (r : Nat) : List Nat :=
  set.filter (fun k => decide (k = r) || (decide (k / 4 = r / 4) && (decide (k = r + 1) || decide (r = k + 1))) || decide (k = r + 4) || decide (r = k + 4))
/-- A set of regions is connected (spec/16 R448). -/
def connectedRegions (set : List Nat) : Bool :=
  match set with
  | [] => false
  | r :: _ =>
    let reach := (List.range 16).foldl (fun l _ => sortUniq (l.flatMap (nearRegions set))) [r]
    set.all reach.contains

/-- Every pair of sites has a path of one turn, X then Y or Y then X, within the regions (spec/11 R331). -/
def pathsInside (set : List Nat) : Bool :=
  set.all (fun a => set.all (fun b =>
    let xy := (spanOf (a % 4) (b % 4)).map (fun c => 4 * (a / 4) + c) ++ (spanOf (a / 4) (b / 4)).map (fun y => 4 * y + b % 4)
    let yx := (spanOf (a / 4) (b / 4)).map (fun y => 4 * y + a % 4) ++ (spanOf (a % 4) (b % 4)).map (fun c => 4 * (b / 4) + c)
    xy.all set.contains || yx.all set.contains))

/-- Edge allowance and maximum sustained power of a cut, in W (spec/17 R471). -/
def edgeWatts (cut : Nat) : Nat := if cut = 0 then 920 else if cut = 1 then 560 else 340
def mostWatts (cut : Nat) : Nat := if cut = 0 then 36000 else if cut = 1 then 18000 else 4700

/-- The configuration check of Mount (spec/00 R7, spec/15 R429, spec/16 R448, spec/11 R331, spec/17 R476, spec/18 R503, spec/12 R369). -/
def State.confCheck (s : State) (c : Conf) : Bool :=
  let regs := fun (q : PartCfg) => (List.range 16).filter (fun r => q.regions.getLsbD r)
  let opt := fun (e : Option Bool) (fit : Bool) => decide (e ≠ some true) || fit
  c.formOk && decide (c.cut = s.fuses.cut) && opt c.enD s.fuses.hasD && opt c.enG s.fuses.hasG && opt c.enT s.fuses.hasT &&
    (match c.ring with | some (n, k, _) => decide (2 ≤ n) && decide (n ≤ 32) && decide (k < n) | none => true) &&
    decide (c.pcps.length = 4) && decide c.pcps.Nodup &&
    decide ((c.parts.map (·.num)).Nodup) && c.parts.all (fun q => decide (q.num < 16) && decide (q.step < 16) && decide (q.kernel < 512) &&
      connectedRegions (regs q) && pathsInside (regs q) && (regs q).contains (4 * (q.kernel / 32 / 4) + q.kernel % 32 / 8)) &&
    (List.range 16).all (fun r => decide ((c.parts.filter (fun q => q.regions.getLsbD r)).length = if r < s.cutRegions then 1 else 0)) &&
    decide ((c.parts.map (·.plW)).foldl (· + ·) 0 + edgeWatts s.fuses.cut ≤ mostWatts s.fuses.cut)

/-- Bring-up stops in the stage that is in progress (spec/15 R428). -/
def State.stopUp (s : State) (stage : Nat) : State :=
  let s1 := s.writeReport { s.newReport stage 2 255 s.nvm.knots.length with event := 0x41B0 }
  ((s1.pcdEvent 0x41B0 31 0 0).setRgB nodePc PC_BRINGUP_STATUS 3 true).setPcd (fun p => { p with heldOff := true, stat := 3 })

/-- The retained memory as Mount finds it: without it, no session, ledger, strike, held range or retained job is known (spec/13 R389). -/
def State.keepRetained (s : State) (kept : Bool) : State :=
  if kept then s.setPcd (fun p => { p with retained := true })
  else { s with sess := [], parts := [], pcd := { s.pcd with strikes := [], retained := false } }

/-- The configuration in force, and what registers hold of it (spec/12 R378, spec/18 R517); the owner record where ownership is taken or
transferred (spec/18 R505, R506). -/
def State.setConf (s : State) (b : Bool) (c : Conf) : State :=
  let s1 := s.setPcd (fun p => { p with conf := some c, confB := b })
  let s2 := match c.twin with
    | some (head, _) => if s1.enT then s1.setRgF (nodeFd 0) FD_TWIN_STATUS 1 0 (if head then 1 else 2) else s1
    | none => s1
  let s3 := match c.ring with
    | some (n, k, d) => if s2.enG then s2.setRg (nodeFd 0) FD_RING_STATUS (k * 2 ^ 16 + (n - 1) * 2 ^ 11 + b2n d * 2 ^ 2) else s2
    | none => s2
  match s3.nvm.owner with
  | none => ({ s3 with nvm := { s3.nvm with owner := some (1, c.owner) } } : State).pcdEvent 0x11C4 31 0 0
  | some (q, h) => if h = c.owner then s3
      else ({ s3 with nvm := { s3.nvm with owner := some ((q + 1) % 2 ^ 32, c.owner) } } : State).pcdEvent 0x11C4 31 0 0

/-- MOUNT (spec/15 R425, R429, spec/18 R498-R506, spec/17 R494). Flow absent at its end is a sudden loss, and no region is powered. -/
def State.mountOn (s : State) (i : MountIn) : State :=
  if !s.pcd.standby || s.pcd.nvmIso || s.pcd.heldOff || decide (s.pcd.stageDone ≠ 0) then s
  else
    let s1 := ({ s with nvm := { s.nvm with bseq := (s.nvm.bseq + 1) % 2 ^ 32 } } : State).keepRetained i.retained
    let s2 := s1.setPcd (fun p => { p with straps := i.straps.toNat, activeB := !i.selfA, standbyOk := i.selfA && i.selfB })
    if !i.selfA && !i.selfB then s2.setPcd (fun p => { p with heldOff := true })
    else
      let confs := preferSlots (·.seq) (s2.slotConf false) (s2.slotConf true)
      let imgs := preferSlots (·.seq) (s2.slotImage false) (s2.slotImage true)
      match confs.find? (fun e => s2.confCheck e.2) with
      | none => s2.stopUp 1
      | some (cb, c) =>
        let fits := fun (e : Bool × FwImage) => decide (c.minSvn ≤ e.2.svn) && (i.bodyStepOk || decide (some e.1 ≠ imgs.head?.map (·.1)))
        match imgs.find? fits with
        | none => s2.stopUp 1
        | some (ib, _) =>
          let s3 := (s2.setPcd (fun p => { p with imageB := ib })).setConf cb c
          let other := decide (imgs.head?.map (·.1) ≠ some ib) || decide (confs.head?.map (·.1) ≠ some cb)
          let s4 := if other then s3.pcdEvent 0x11C0 31 0 0 else s3
          let s5 := (s4.setPcd (fun p => { p with stageDone := 1 })).setRgB nodePc PC_COOLANT 0 i.flowOk
          let s6 := s5.writeReport (s5.newReport 1 s5.passStatus 255 s.nvm.knots.length)
          if i.flowOk then s6
          else ((s6.setRgF nodePc PC_COOLANT 19 16 5).pcdEvent 0x4300 31 0 0).setPcd (fun p => { p with stat := 3 })

-- Rough-out (spec/15 R430-R432, spec/14 R402) ---------------------------------------------------------------------------------

/-- A die selects its reference: A where it is usable, else B (spec/14 R402). -/
def State.refSelect (s : State) (n : Nat) : State :=
  let k := s.clkNode n
  let r := clkOff k 0
  let w := s.rg k r
  if w.testBit 1 && !w.testBit 2 then s.setRgB k r 0 true else if w.testBit 0 then s.setRgB k r 0 false else s

/-- A partition fails bring-up (spec/15 R428). -/
def State.partFails (s : State) (p unit : Nat) : State := if (s.part p).off then s else s.pcdEvent 0x31B0 p unit 0

/-- Units marked: by the fuses, and by the field knot log but for slow entries and shift origins (spec/15 R437). -/
def State.marks (s : State) : List Nat :=
  (s.fuses.marks ++ (s.nvm.knots.filter (fun k => decide (k.type ≠ 3) && decide (k.type ≠ 6))).map (·.unit)).eraseDups

/-- ROUGH_OUT. -/
def State.roughOn (s : State) (i : RoughIn) : State :=
  if s.pcd.heldOff || decide (s.pcd.stageDone ≠ 1) then s
  else
    let s1 := i.refBad.foldl (fun t e => t.setRgB (t.clkNode e.1) (clkOff (t.clkNode e.1) 0) (1 + b2n e.2) true) s
    let s2 := ((i.refBad.map (·.1)).eraseDups).foldl State.refSelect s1
    let dead := i.unlocked ++ (i.refBad.filter (fun e => !e.2 && i.refBad.contains (e.1, true))).map (·.1)
    let s3 := s2.setPcd (fun p => { p with stageDone := 2, unlocked := sortUniq dead, nodesOut := sortUniq i.unlocked })
    let s4 := i.noRsd.foldl (fun t r =>
      let u := t.setPcd (fun p => { p with rsdLost := insUniq r p.rsdLost })
      match u.partOfRegion r with
      | some p => u.partFails p (unitDie (nodeRs r))
      | none => u) s3
    s4.writeReport { s4.newReport 2 s4.passStatus 255 s.nvm.knots.length with badFuse := s.marks.length }

-- Reconciliation and maps (spec/15 R433, R437, R439, spec/01 R32-R42) ------------------------------------------------------------

/-- Sites that a list of unit codes excludes: the die or a core of it (spec/15 R433). -/
def sitesOfUnits (us : List Nat) : List Nat :=
  (us.filter (fun u => (decide (unitKind u = 1) || decide (unitKind u = 2)) && decide (unitNode u < 576))).map unitNode
/-- Sites of repair rows that repair cannot replace; banks 64-127 count with option D only. -/
def State.sitesUnrepaired (s : State) (us : List Nat) : List Nat :=
  (us.filter (fun u => decide (unitNode u < 576) && (s.enD || decide (unitIndex u / 1024 < 64) || decide (128 ≤ unitIndex u / 1024)))).map unitNode
/-- Memory dies, fabric dies, links and modules that a list of unit codes names. -/
def mdsOfUnits (us : List Nat) : List Nat :=
  us.filterMap (fun u => if unitKind u = 6 then some (unitIndex u) else if unitKind u = 1 ∧ 576 ≤ unitNode u ∧ unitNode u < 704 then some (unitNode u - 576) else none)
def fdsOfUnits (us : List Nat) : List Nat :=
  us.filterMap (fun u => if unitKind u = 1 ∧ 704 ≤ unitNode u ∧ unitNode u < 720 then some (unitNode u - 704) else none)
def linksOfUnits (us : List Nat) : List (Nat × Nat) := us.filterMap (fun u => if unitKind u = 5 then some (unitNode u, unitIndex u) else none)
def modulesOfUnits (us : List Nat) : List (Nat × Nat × Nat) :=
  us.filterMap (fun u => if unitKind u = 4 then some (unitNode u, unitIndex u / 8, unitIndex u % 8) else none)

/-- Logical offsets of a row that have a site, for a recorded origin and excluded offsets (spec/01 R32). -/
def presentIn (old : Option Nat) (excl : List Nat) : List Nat := (List.range 8).filter (fun k => !excl.contains (posOf (originFor old excl) k))

/-- Sites with the slow ones of regions that may be excluded: those whose exclusion leaves present every position that would be (spec/15 R437,
spec/09 R275). -/
def State.withSlow (s : State) (regions excl : List Nat) : List Nat :=
  ((s.nvm.knots.filter (fun k => decide (k.type = 3))).map (fun k => unitNode k.unit)).foldl (fun l n =>
    if l.contains n || decide (576 ≤ n) || !regions.contains ((regionOfNode n).getD 16) then l
    else
      let r := (regionOfNode n).getD 0
      let row := n / 36 % 4
      let e := (List.range 9).filter (fun o => l.contains (rowNode r row o))
      let old := s.shiftOrigin r row
      let o := n % 36 % 9
      if (presentIn old e).all (presentIn old (o :: e)).contains then l ++ [n] else l) excl

/-- The maps of regions (spec/01 R32, spec/15 R439). -/
def State.mapRegions (s : State) (excl regions : List Nat) : State :=
  regions.foldl (fun t r => (List.range 4).foldl (fun u n => u.mapRow excl r n) t) s

/-- Takes a memory die or fabric die out of service at a test. -/
def State.dropMd (s : State) (m : Nat) : State :=
  if s.pcd.fencedMds.contains m ∨ 128 ≤ m then s
  else (s.setRgB (nodeRs (m / 8)) RS_FENCE (50 + m % 8) true).setPcd (fun p => { p with fencedMds := insUniq m p.fencedMds })
def State.dropFd (s : State) (f : Nat) : State := s.setFd f { s.fd f with lost := true }

/-- Stacks in service of a partition, by memory-die number (spec/10 R279). -/
def State.stacksNow (s : State) (p : Nat) : List Nat :=
  (s.regionsOf p).flatMap (fun r => ((List.range 8).map (fun k => 8 * r + k)).filter (fun m => !s.pcd.fencedMds.contains m && s.regionOn r))

/-- Units that a test finds or a record names leave service; a region without a memory die loses its fabric die (spec/10 R305). -/
def State.takeOut (s : State) (us : List Nat) (i : TestIn) : State :=
  let s1 := (fdsOfUnits us).foldl State.dropFd ((mdsOfUnits us).foldl State.dropMd s)
  let s2 := (List.range s.cutRegions).foldl (fun t r =>
    if (List.range 8).all (fun k => t.pcd.fencedMds.contains (8 * r + k)) then t.dropFd r else t) s1
  s2.setPcd (fun p => { p with routersOut := sortUniq (p.routersOut ++ i.badRouters), badLinks := (p.badLinks ++ linksOfUnits us ++ i.badLinks).eraseDups,
                               badModules := (p.badModules ++ modulesOfUnits us ++ i.badModules).eraseDups })

/-- Unit codes of what a test finds bad: dies and cores, dies whose scrub fails its verify, modules and links (spec/11 R313, spec/15 R438). -/
def testUnits (i : TestIn) : List Nat :=
  (i.found ++ i.scrubFail.map unitDie ++ i.badModules.map (fun e => unitCode 4 e.1 (8 * e.2.1 + e.2.2)) ++
    i.badLinks.map (fun e => unitLink e.1 e.2)).eraseDups

/-- Type of the field knot log entry of a unit that a test finds bad: 5 for a link and its modules, else 1 (spec/15 R438, log entry 83). -/
def knotType (u : Nat) : Nat := if unitKind u = 4 ∨ unitKind u = 5 then 5 else 1

/-- Sites at the northern end of a bad vertical neighbour link (spec/01 R42), of which one is that cannot hold its own share and a dynamic module
(spec/11 R313; log entry 83). A link to a router out of service is none. -/
def State.northEnds (s : State) : List Nat :=
  if s.pcd.badLinks = [] ∧ s.pcd.badModules = [] then []
  else (List.range' 0 576).filter (fun n => match s.farNode n 2 with
    | some m => !s.routerOut n && !s.routerOut m && (s.linkBad n 2 || decide ((s.goodModules n 2).length < 4))
    | none => false)

/-- The scratchpads of dies have been scrubbed (spec/07 R210, R212, spec/15 R434). -/
def State.scrubbed (s : State) (l : List Nat) : State := l.foldl (fun t d => t.setRg d CD_SPAD_STATUS 2) s

/-- Writes a partition's stack list (spec/10 R279). -/
def State.writeStacks (s : State) (p : Nat) : State := s.modPart p (fun x => { x with stackList := s.stacksNow p })

/-- A partition none of whose positions has a site fails (spec/15 R428). -/
def State.usableCheck (s : State) (p : Nat) : State := if s.diesOf p = [] then s.partFails p 0 else s

/-- 0x11B3 for each degraded region of a list (spec/15 R440). -/
def State.degradedEvents (s : State) (regions : List Nat) : State :=
  regions.foldl (fun t r =>
    if (List.range 4).any (fun n => (t.rowMap r n).testBit 8) then t.pcdEvent 0x11B3 ((t.partOfRegion r).getD 31) (unitDie (nodeRs r)) 0 else t) s

/-- Reports of units on which marks and test disagree (spec/15 R437). -/
def State.disagree (s : State) (us : List Nat) : State := us.foldl (fun t u => t.pcdEvent 0x11B0 ((t.partOfNode (unitNode u)).getD 31) u 0) s

/-- TRUING (spec/15 R433, R434, R437, R439, R440). -/
def State.truingOn (s : State) (i : TestIn) : State :=
  if s.pcd.heldOff || decide (s.pcd.stageDone ≠ 2) then s
  else
    let found := (testUnits i ++ s.pcd.unlocked.map unitDie).eraseDups
    let marked0 := s.marks
    let all := List.range s.cutRegions
    let s0 := s.takeOut (marked0 ++ found) i
    let base := (sitesOfUnits (marked0 ++ found) ++ s.sitesUnrepaired i.unrepaired ++ i.badRouters ++ s0.northEnds).eraseDups
    let excl := s.withSlow all base
    let slow := ((s.nvm.knots.filter (fun k => decide (k.type = 3) && excl.contains (unitNode k.unit))).map (·.unit)).filter (fun u => !marked0.contains u)
    let marked := (marked0 ++ slow).eraseDups
    let fresh := found.filter (fun u => !marked.contains u)
    let s1 := fresh.foldl (fun t u => t.knot u (knotType u)) s0
    let s2 := s1.disagree (fresh ++ marked.filter (fun u => !found.contains u))
    let s3 := s2.mapRegions excl all
    let s4 := ({ s3 with dies := [], pcd := { s3.pcd with stageDone := 3, found := sortUniq (marked ++ found) } } : State).scrubbed
      ((List.range' 0 576).reverse.filter s3.coreOn)
    let ps := s4.partsOn
    let s5 := ps.foldl (fun t p => ((t.routePart p).writeStacks p).usableCheck p) s4
    let s6 := s5.degradedEvents all
    s6.writeReport { s6.newReport 3 s6.passStatus 255 s.nvm.knots.length with
      badFuse := marked.length, badTest := found.length, badBoth := (found.filter marked.contains).length,
      spares := (s6.sparesUsed all).length, absent := s6.absentCount, firstFail := fresh.head?.getD 0 }

-- Shaping (spec/15 R435, spec/14 R409, R411, spec/11 R321, R331, R337) --------------------------------------------------------------

/-- A pair of a partition's routers that neither order serves: its destination (spec/11 R331). -/
def State.orderless (s : State) (p : Nat) : Option Nat :=
  let l := (List.range' 0 576).filter (fun n => decide (s.partOfNode n = some p) && !s.routerOut n)
  l.find? (fun b => l.any (fun a => !s.orderOk p a b false && !s.orderOk p a b true))

/-- SHAPING. A stack that fails is fenced, and every region of its partition is re-trued before the partition is Ready. -/
def State.shapingOn (s : State) (i : ShapeIn) : State :=
  if s.pcd.heldOff || decide (s.pcd.stageDone ≠ 3) then s
  else
    let s1 := s.partsOn.foldl (fun t p => t.modPart p (fun x => { x with step := s.cfgStep p, progStep := s.cfgStep p })) s
    let s2 := if i.badLinks = [] ∧ i.long = [] then s1
      else
        let t := s1.setPcd (fun p => { p with badLinks := (p.badLinks ++ i.badLinks).eraseDups, longRoutes := i.long })
        (t.partsOn.foldl (fun u p => (u.routePart p).usableCheck p) t)
    let bad := s2.partsOn.filterMap (fun p => (s2.orderless p).map (fun n => (p, unitDie n)))
    let s3 := bad.foldl (fun t e => t.partFails e.1 e.2) s2
    let s4 := i.stackFail.foldl (fun t m =>
      if t.mdOn m then
        let u := t.pcdEvent 0x3200 (t.partOfMd m) (unitStack m) 0
        (u.regionsOf (t.partOfMd m)).foldl State.oweRetrue u
      else t) s3
    let s5 := (s4.setPcd (fun p => { p with stageDone := 4 })).routeCheck
    let failing := i.stackFail.map unitStack
    s5.writeReport { s5.newReport 4 s5.passStatus 255 s.nvm.knots.length with
      badTest := failing.length, absent := s5.absentCount,
      firstFail := ((bad.map (·.2)) ++ failing).head?.getD 0, event := if bad = [] then (if failing = [] then 0 else 0x3200) else 0x31B0 }

-- Finishing (spec/15 R436, R442, spec/14 R422, spec/12 R371, R372, spec/18 R510) -----------------------------------------------------

/-- Largest PTC in the NVM logs, in ns (spec/14 R422). -/
def Nvm.maxPtc (n : Nvm) : Nat :=
  max ((n.knots.map (·.ptc)).foldl max 0) (max ((n.reports.map (·.ptc)).foldl max 0) ((n.events.map (·.ptc)).foldl max 0))

/-- Granules of a partition's HBM. -/
def State.granules (s : State) (p : Nat) : Nat := s.hbmSize p / 2 ^ 30
/-- A range of bytes touches a granule. -/
def touches (g : Nat) (r : Nat × Nat) : Bool := decide (r.1 < (g + 1) * 2 ^ 30) && decide (g * 2 ^ 30 < r.1 + r.2)

/-- The scrub of a partition's HBM after Ready (spec/15 R442): granules whose ledger bit is set but for those of a job held for post-mortem
reading; every granule where the ledger has not survived or the stack list has changed. The held ranges of keys that the configuration no longer
names are scrubbed too (spec/16 R458). -/
def State.ledgerScrub (s : State) (p : Nat) : State :=
  let x := s.part p
  let all := !s.pcd.retained || decide (x.lastList ≠ x.stackList)
  let kept := if all then [] else (x.ctxs.filter (fun e => decide (e.2.st = .retained))).flatMap (fun e => e.2.img.ranges)
  let gs := (List.range (s.granules p)).filter (fun g => all || (sget false x.ledger g && !kept.any (touches g)))
  let gone := x.held.filter (fun h => decide (s.keyOf h.key = none))
  let stay := x.held.filter (fun h => decide (s.keyOf h.key ≠ none) && !gs.any (fun g => touches g (h.base, h.len)))
  let ledger := if all then (List.range (s.granules p)).foldl (fun l g => sput l g true) [] else x.ledger
  let s1 := s.setPart p { x with held := stay, ledger := ledger, lastList := x.stackList, ctxs := if all then [] else x.ctxs }
  s1.addScrub p (gs.map (fun g => { base := g * 2 ^ 30, len := 2 ^ 30, granule := some g }) ++ scrubsOf (gone.map (fun h => (h.base, h.len))) [])

/-- What measurement blocks 5 and 6 cover, fixed at Finishing and at each re-true (spec/18 R509). -/
def State.measured (s : State) : State :=
  s.setPcd (fun p => { p with measKnots := s.nvm.knots.length,
                              measRows := (List.range s.cutRegions).flatMap (fun r => (List.range 4).map (s.rowMap r)) })

/-- FINISHING: the panel is Ready when it ends. -/
def State.finishOn (s : State) (i : FinIn) : State :=
  if s.pcd.heldOff || decide (s.pcd.stageDone ≠ 4) then s
  else
    let s1 := i.ports.foldl (fun t e => t.portSet e.1 e.2 true) s
    let s2 := if i.ring then (s1.ringPort false true).ringPort true true else s1
    let s3 := if i.twin then s2.twinLink true else s2
    let s4 := if i.twin && s3.twinUp && decide (s3.twinRole ≠ 0) then
        (if i.matched then s3.setRgB (nodeFd 0) FD_TWIN_STATUS 5 true else s3.pcdEvent 0x1191 31 0 0) else s3
    let took := s4.ptc16 - s4.pcd.stageAt
    let s5 := match i.ptp with
      | some t => ({ s4 with ptc16 := t } : State).setRgF nodePc PC_PTP_STATUS 1 0 1
      | none => ({ s4 with ptc16 := 16 * (s4.nvm.maxPtc + 10000000000) } : State).setRgF nodePc PC_PTP_STATUS 1 0 0
    let s6 := s5.measured.setPcd (fun p => { p with stageDone := 5, sealed := true, stat := 2, stageAt := s5.ptc16 - took })
    let s7 := s6.partsOn.foldl (fun t p => t.setRgB nodePc PC_BRINGUP_STATUS (48 + p) true) s6
    let s8 := (s7.writeReport { s7.newReport 5 s7.passStatus 255 s.nvm.knots.length with absent := s7.absentCount }).setPcd (fun p => { p with restart := false })
    s8.partsOn.foldl (fun t p => (t.ledgerScrub p).powerSelect p) s8

-- Re-true (spec/15 R444-R446, spec/16 R461, R462, spec/14 R403, R420) -------------------------------------------------------------------

/-- RESULT of the request that a re-true answers. -/
def State.retrueResult (s : State) (r res : Nat) : State :=
  if s.rgF nodePc PC_RETRUE_CTRL 30 28 = 1 ∧ s.rgF nodePc PC_RETRUE_CTRL 3 0 = r then s.setRgF nodePc PC_RETRUE_CTRL 30 28 res else s

/-- Nodes of a region. -/
def regionNodes (r : Nat) : List Nat := (List.range' 0 736).filter (fun n => decide (regionOfNode n = some r))

/-- Sites that the row maps of a partition exclude now. -/
def State.exclNow (s : State) (p : Nat) : List Nat :=
  (s.regionsOf p).flatMap (fun r => (List.range 4).flatMap (fun n => ((List.range 9).filter (fun o => (s.rowMap r n).testBit (9 + o))).map (rowNode r n)))

/-- Resident contexts after a re-true: those that the new map or stack list does not suit fail with 0x2012 (spec/16 R461, R462). State held for
post-mortem reading stays but for what the change takes from it (spec/10 R283). -/
def State.contextsAfter (s : State) (p : Nat) (moved : Bool) : State :=
  let hurt := fun (e : Nat × Ctx) => decide (e.2.st ≠ .retained) && (moved || e.2.img.sites.any (fun i => (s.siteNode i).isNone))
  let s1 := (((s.part p).ctxs.filter hurt).map (·.1)).foldl (fun t c => t.ctxEvent 0x2012 p c 0 0) s
  if moved then s1.modPart p (fun x => { x with held := [], ctxs := x.ctxs.filter (fun e => decide (e.2.st ≠ .retained)) }) else s1

/-- Stacks without their contents: a new stack list preserves none (spec/10 R283). -/
def State.emptyStacks (s : State) (l : List Nat) : State :=
  l.foldl (fun t m => t.setMd m { t.md m with mem := [], errs := [], wb := [] }) s

/-- A die brought in: its state is scrubbed, its panel time and its step are the partition's (spec/15 R434, R439, spec/14 R420). -/
def State.bringIn (s : State) (d : Nat) : State :=
  let s1 := (jobRegs.foldl (fun t off => t.setRg d off 0) (s.setDie d Die.reset)).scrubbed [d]
  s1.setPcd (fun p => { p with ptcErr := serase p.ptcErr d, ptcSlew := serase p.ptcSlew d, ptcRate := serase p.ptcRate d })

/-- What the tests of a re-true find: the sensor references chosen anew, the dies without a sensor fenced; the units of the region marked bad
before and the units found bad now, none known to the partition. -/
def State.retrueFinds (s : State) (r : Nat) (i : TestIn) : State × List Nat × List Nat :=
  let s1 := (regionNodes r).foldl State.refSelect s
  let blind := (regionNodes r).filter (fun d => decide (d < 576) && s.rgB d CD_THERM 27 && !s.pcd.fencedSites.contains d)
  let s2 := blind.foldl (fun t d => (t.setPcd (fun q => { q with fencedSites := insUniq d q.fencedSites })).knot (unitDie d) 2) s1
  (s2, s2.marks.filter (fun u => decide (regionOfNode (unitNode u) = some r) && !s2.pcd.found.contains u),
    (testUnits i).filter (fun u => !s2.pcd.found.contains u))

/-- The map, the routes and the stack list of a partition after the tests of a re-true, from the map before it. -/
def State.retrueMap (s s0 : State) (p r : Nat) (i : TestIn) (marked found : List Nat) : State :=
  let s1 := s.takeOut (s.marks ++ found) i
  let base := (s0.exclNow p ++ s.pcd.fencedSites ++ sitesOfUnits (s.marks ++ found) ++ s0.sitesUnrepaired i.unrepaired ++ i.badRouters ++
    s1.northEnds.filter (fun n => decide (regionOfNode n = some r))).eraseDups
  let s2 := s1.mapRegions (s.withSlow [r] base) (s0.regionsOf p)
  let s3 := s2.setPcd (fun q => { q with found := sortUniq (q.found ++ marked ++ found), longRoutes := (q.longRoutes ++ i.long).eraseDups })
  (s3.routePart p).writeStacks p

/-- The dies that a re-true brings in, and the stripes of the partition numbered anew (spec/15 R444, spec/14 R411). -/
def State.retrueDies (s : State) (p : Nat) (before : List Nat) : State :=
  let s1 := ((s.diesOf p).filter (fun d => !before.contains d)).foldl State.bringIn s
  ((s1.regionsOf p).flatMap (fun k => regionNodes k)).foldl (fun t d =>
    if d < 576 then t.modDie d (fun x => { x with sseq := [], sent := [] }) else t) s1

/-- The contexts and stacks of a partition after its new map, whose stack list was `list0` (spec/16 R461, R462, spec/10 R283). -/
def State.retrueCtxs (s : State) (p r : Nat) (list0 : List Nat) : State :=
  let moved := decide ((s.part p).stackList ≠ list0)
  let s1 := (s.degradedEvents [r]).contextsAfter p moved
  if moved then s1.emptyStacks (s1.part p).stackList else s1

/-- The re-true of a region is over: no longer owed, counted, its result shown (spec/15 R447). -/
def State.retrueOver (s : State) (p r : Nat) : State :=
  let s1 := s.modPart p (fun x => { x with retrue := x.retrue - (x.retrue &&& 2 ^ r), lastList := x.stackList })
  let s2 := (s1.bumpErr nodePc PC_RETRUE_COUNT PC_BRINGUP_STATUS 8 1).retrueResult r 4
  if s2.pcd.stageDone = 5 then s2.setRgB nodePc PC_BRINGUP_STATUS (48 + p) true else s2

/-- The tests of a re-true with their entries in the field knot log, then the partition's new map with the dies it brings in. -/
def State.retrueTested (s : State) (r : Nat) (i : TestIn) : State :=
  let f := s.retrueFinds r i
  let fresh := f.2.2.filter (fun u => !f.2.1.contains u)
  (fresh.foldl (fun t u => t.knot u (knotType u)) f.1).disagree fresh
def State.retrueMapped (s : State) (p r : Nat) (i : TestIn) : State :=
  let f := s.retrueFinds r i
  let s1 := s.retrueTested r i
  (s1.retrueMap s p r i f.2.1 f.2.2).retrueDies p (s1.diesOf p)

/-- A re-true that fails a step or overruns: the partition is off (spec/15 R445). -/
def State.retrueFails (s : State) (p r knots0 first : Nat) : State :=
  let s1 := ((s.pcdEvent 0x31B2 p (unitDie (nodeRs r)) 0).bumpErr nodePc PC_RETRUE_COUNT PC_BRINGUP_STATUS 8 1).retrueResult r 5
  s1.measured.writeReport { s1.newReport 6 2 r knots0 with
    absent := s1.absentCount, firstFail := first, event := 0x31B2, partsReady := s1.partsOn.foldl (fun a q => a ||| 2 ^ q) 0 }

/-- The re-true of a region that its tests pass. Spindle routes are set anew in it (spec/11 R337). -/
def State.reTrued (s : State) (p r : Nat) (i : TestIn) : State :=
  let f := s.retrueFinds r i
  let fresh := f.2.2.filter (fun u => !f.2.1.contains u)
  let s1 := s.retrueTested r i
  let s2 := s.retrueMapped p r i
  let taken := (s2.sparesUsed (s.regionsOf p)).filter (fun e => !(s1.sparesUsed (s.regionsOf p)).contains e)
  let s3 := taken.foldl (fun t e => t.pcdEvent 0x11B1 p (unitDie (rowNode e.1 e.2 8)) 0) s2
  let s4 := (((s3.retrueCtxs p r (s1.part p).stackList).routeCheck).retrueOver p r).measured
  s4.writeReport { s4.newReport 6 s4.passStatus r s.nvm.knots.length with
    badFuse := f.2.1.length, badTest := f.2.2.length, badBoth := (f.2.2.filter f.2.1.contains).length, spares := taken.length,
    absent := s4.absentCount, firstFail := fresh.head?.getD 0 }

/-- RE_TRUE of a region whose re-true is owed. One whose tests fail or overrun, or after which some pair of routers has no order or no site has a
position, puts the partition off (spec/15 R428, R445, spec/11 R331; log entry 91). -/
def State.reTrueOn (s : State) (r : Nat) (i : TestIn) : State :=
  match s.partOfRegion r with
  | none => s
  | some p =>
    if decide (s.pcd.stageDone < 4) || !(s.part p).retrue.testBit r || (s.part p).off || !s.regionOn r then s
    else if !i.ok then s.retrueFails p r s.nvm.knots.length 0
    else
      let t := s.retrueMapped p r i
      match t.orderless p with
      | some n => t.retrueFails p r s.nvm.knots.length (unitDie n)
      | none => if t.diesOf p = [] then t.retrueFails p r s.nvm.knots.length 0 else s.reTrued p r i

-- The meanings ---------------------------------------------------------------------------------------------------------------------------

/-- RESET_ASSERT (spec/19 R521). -/
def execResetAssert (lowNs : Nat) (s : State) : Host.Outcome State Fault Refusal := guard (Instr.resetAssert lowNs).wf (s.resetPin lowNs)
/-- MOUNT (spec/15 R429). -/
def execMount (i : MountIn) (s : State) : Host.Outcome State Fault Refusal := guard (Instr.mount i).wf (s.mountOn i)
/-- ROUGH_OUT (spec/15 R430). -/
def execRoughOut (i : RoughIn) (s : State) : Host.Outcome State Fault Refusal := guard (Instr.roughOut i).wf (s.roughOn i)
/-- TRUING (spec/15 R433). -/
def execTruing (i : TestIn) (s : State) : Host.Outcome State Fault Refusal := guard (Instr.truing i).wf (s.truingOn i)
/-- SHAPING (spec/15 R434). -/
def execShaping (i : ShapeIn) (s : State) : Host.Outcome State Fault Refusal := guard (Instr.shaping i).wf (s.shapingOn i)
/-- FINISHING (spec/15 R436). -/
def execFinishing (i : FinIn) (s : State) : Host.Outcome State Fault Refusal := guard (Instr.finishing i).wf (s.finishOn i)
/-- RE_TRUE (spec/15 R445). -/
def execReTrue (region : Nat) (i : TestIn) (s : State) : Host.Outcome State Fault Refusal := guard (Instr.reTrue region i).wf (s.reTrueOn region i)
/-- RETRUE_REQUEST (spec/15 R444): effecter 1 writes PC.RETRUE_CTRL with REGION and REQ. -/
def execRetrueRequest (region : Nat) (s : State) : Host.Outcome State Fault Refusal :=
  guard (Instr.retrueRequest region).wf (if s.pcd.standby then s.retrueWrite (2 ^ 31 + region) else s)

end Sys2Proof.Machine
end

