-- ==== Sys2Proof/Machine/Power.lean ====
section
/-! DEFINITION. Power, heat and coolant, and the loss of a region or of the input (spec/17 R470-R496, spec/16 R463, R464, spec/01 R48). -/

namespace Sys2Proof.Machine

-- Input (spec/17 R472, R473) -------------------------------------------------------------------------------------------------

/-- The voltages of the pairs, in 10 mV. -/
def State.vin (s : State) (va vb : Nat) : State := (s.setRgF nodePc PC_PWR_STATUS 63 48 va).setRgF nodePc PC_PWR_STATUS 47 32 vb

/-- INPUT_VOLTAGE_WARN: a pair outside 44-58 V and within 40-60 V; VIN_WARN shows whether one is (spec/17 R472). -/
def State.inputWarn (s : State) (va vb : Nat) : State :=
  if s.pcd.standby then
    let bad := fun (v : Nat) => decide (4000 ≤ v) && decide (v ≤ 6000) && (decide (v < 4400) || decide (5800 < v))
    let w := bad va || bad vb
    let s1 := (s.vin va vb).setRgB nodePc PC_PWR_STATUS 0 w
    if w then s1.pcdEvent 0x5305 31 0 0 else s1
  else s

/-- Every region's input switch opens, and every per-FD switch (spec/17 R472, R494). -/
def State.allOpen (s : State) : State :=
  (List.range s.cutRegions).foldl (fun t r => (t.regionOpen r).setFd r { t.fd r with lost := true, xfers := [], slots := [], grps := [], wait := [], onp := [], txq := [] }) s

/-- A panel-fatal event: every job fails, and the panel is held until reset (spec/16 R455, spec/19 R522). -/
def State.panelFatal (s : State) (code : Nat) : State := (s.pcdEvent code 31 0 0).setPcd (fun p => { p with heldOff := true, stat := 3 })

/-- INPUT_UNDERVOLTAGE: the region switches open, and every job fails; the standby rail runs on. -/
def State.inputLow (s : State) : State :=
  if s.pcd.standby then (List.range s.cutRegions).foldl State.regionOpen (s.panelFatal 0x4301) else s

/-- An event written to the NVM event log as the module goes dark: the record alone. -/
def State.lastRecord (s : State) (code : Nat) : State :=
  let e : Event := { code := code, part := 31, fence := false, lost := decide (s.evtPending = 1024), att := false, eseq := s.rg nodePc PC_EVT_NEXT,
                     ptc := s.ptc, unit := 0, job := 0, incarn := 0, rept := 0, attId := 0, data := 0 }
  { s with nvm := { s.nvm with events := appendCap 4096 s.nvm.events e } }

/-- INPUT_OVERVOLTAGE: the protection disconnects the module; 0x4301 is logged before it goes dark. -/
def State.inputHigh (s : State) : State := if s.pcd.standby then (s.lastRecord 0x4301).powerLost else s

/-- BUS_PAIR_LOST: one pair lost while the other is in range; the limits scale (spec/17 R473). -/
def State.pairLost (s : State) (b : Bool) : State :=
  if !s.pcd.standby || s.pcd.pairA || s.pcd.pairB then s
  else (s.setPcd (fun p => if b then { p with pairB := true } else { p with pairA := true })).pcdEvent 0x5304 31 0 0
/-- BUS_PAIR_RESTORED. -/
def State.pairBack (s : State) (b : Bool) : State := s.setPcd (fun p => if b then { p with pairB := false } else { p with pairA := false })

-- Power loop, guard, step ceiling (spec/17 R476-R479) ---------------------------------------------------------------------------

/-- Power of a partition, averaged over the last 10 ms: its region blocks' (spec/17 R476). -/
def State.partWatts (s : State) (p : Nat) : Nat := (s.regionsOf p).foldl (fun a r => a + s.rgF (nodeRs r) RS_PWR 31 16) 0

/-- POWER_LOOP_UPDATE: the measured powers, then each partition's rest ratio (spec/17 R477). -/
def State.powerLoop (s : State) (total : Nat) (watts : List (Nat × Nat × Nat)) : State :=
  if s.pcd.standby then
    let s1 := watts.foldl (fun t e => t.setRg (nodeRs e.1) RS_PWR (e.2.1 % 65536 * 65536 + e.2.2 % 65536)) (s.setRgF nodePc PC_PWR_STATUS 31 16 total)
    s1.partsOn.foldl (fun t p =>
      let w := t.partWatts p
      let l := t.limitW p
      t.modPart p (fun x => { x with prest := if l < w then min 48 (x.prest + 4) else if 100 * w < 95 * l then x.prest - 1 else x.prest })) s1
  else s

/-- POWER_GUARD_TRIP, GUARD_HOLD_END (spec/17 R478). -/
def State.guardTrip (s : State) : State :=
  if s.pcd.standby then (s.setPcd (fun p => { p with guardOn := true })).bumpErr nodePc PC_PWR_GUARD PC_PWR_STATUS 15 1 else s
def State.guardEnd (s : State) : State := s.setPcd (fun p => { p with guardOn := false })

/-- The step ceiling rises by 1, to at most 15, with 0x5302 (spec/17 R479). -/
def State.ceilUp (s : State) (p : Nat) : State :=
  ((s.modPart p (fun x => { x with ceil := min 15 (x.ceil + 1) })).pcdEvent 0x5302 p 0 0).armStep p

/-- STEP_CEILING_UPDATE: the moment at which the power policy changes a partition's ceiling (spec/17 R479): up while the power rest ratio is above 0,
down where nothing rests and the power is below 0.85 of the limit. -/
def State.ceilStep (s : State) (p : Nat) : State :=
  let x := s.part p
  if !s.partsOn.contains p then s
  else if 0 < x.prest then s.ceilUp p
  else if (s.diesOf p).all (fun d => decide (s.restOf d = 0)) && decide (100 * s.partWatts p < 85 * s.limitW p) then
    (s.modPart p (fun y => { y with ceil := y.ceil - 1 })).armStep p
  else s

-- Power states (spec/17 R481-R485) ------------------------------------------------------------------------------------------------

/-- WARM_HOLD_ENTER: 100 ms in Hold without a hint. -/
def State.warmEnter (s : State) (p : Nat) : State :=
  let x := s.part p
  if decide (x.pstate = 1) && !x.waking && !x.entering && (s.hintOf p).isNone && s.partQuiet p then s.setPart p { x with pstate := 2, entering := true } else s

/-- POWER_WAKE: at NEXT_EVENT less the wake time of the state. -/
def State.wakeAt (s : State) (p : Nat) : State := if 1 ≤ (s.part p).pstate ∧ (s.part p).waking = false then s.wakeBegin p else s

/-- The context in force: the one that runs, else one whose state is on the dies for post-mortem reading. -/
def State.ctxInForce (s : State) (p : Nat) : Option (Nat × Ctx) :=
  match s.running p with
  | some e => some e
  | none => (s.part p).ctxs.find? (fun e => decide (e.2.st = .retained) && e.2.onDie)

/-- The core switches of a partition's regions, open or as the fences leave them (spec/17 R485). -/
def State.coreSwitches (s : State) (p : Nat) (opened : Bool) : State :=
  (s.regionsOf p).foldl (fun t r =>
    let fenced := (t.pcd.fencedSites.filter (fun d => decide (regionOfNode d = some r))).foldl (fun a d => a ||| 2 ^ coreBit d) 0
    t.setRgF (nodeRs r) RS_FENCE 35 0 (if opened then 2 ^ 36 - 1 else fenced)) s

/-- Compute dies of a partition's regions lose what they hold. -/
def State.coresDark (s : State) (p : Nat) : State :=
  let mine := fun (n : Nat) => decide (n < 576) && decide (s.partOfNode n = some p)
  { s with dies := s.dies.filter (fun e => !mine e.1), regs := s.regs.filter (fun e => !mine (e.1 / 2 ^ 32)) }

/-- POWER_ENTRY_COMPLETE: Warm-hold is reached; Doze saves the context in force and opens the core switches (spec/17 R485). The layout of the save
area is not stated (log entry 6). -/
def State.entryDone (s : State) (p : Nat) : State :=
  let x := s.part p
  if !x.entering then s
  else if x.pstate = 3 then
    let s1 := match s.ctxInForce p with
      | some (_, c) =>
        (s.saveArea p c).modPart p (fun y => { y with dozeSaved := s.saveDies p c })
      | none => s
    ((s1.coreSwitches p true).coresDark p).modPart p (fun y => { y with dozed := true, entering := false })
  else s.setPart p { x with entering := false }

/-- The saved context is restored on scrubbed dies (spec/17 R485): one that runs as a switch of contexts restores it, one held for reading as it was
saved. -/
def State.dozeRestore (s : State) (p : Nat) : State :=
  let saved := (s.part p).dozeSaved
  let s1 := s.modPart p (fun x => { x with dozed := false, dozeSaved := [] })
  match s1.running p with
  | some (cid, c) => (s1.modPart p (fun x => { x with ctxs := sput x.ctxs cid { c with saved := saved, step := some (x.step, s1.progNow p) } })).runCtx p cid
  | none => saved.foldl (fun t v => match t.siteNode v.site with
      | some d => v.regs.foldl (fun u e => u.setRg d e.1 e.2) (t.modDie d (fun y => y.restore v.die))
      | none => t) s1

/-- POWER_WAKE_COMPLETE: the partition is in Run; from Doze it has taken the steps of a re-true (spec/17 R483, R485). With no item waiting, Uttos runs a
context or chooses again. -/
def State.wakeDone (s : State) (p : Nat) : State :=
  let x := s.part p
  if !x.waking then s
  else
    let s1 := s.setPart p { x with pstate := 0, waking := false, entering := false }
    let s2 := (s1.diesOf p).foldl (fun t d => if (t.die d).synth = 0 then t else t.modDie d (fun y => { y with synth := 0, coldCnt := 0 })) s1
    let s3 := if x.dozed then
        ((((s2.regionsOf p).flatMap regionNodes).foldl State.refSelect (s2.coreSwitches p false)).dozeRestore p)
      else s2
    if (sessionsOf p).any (fun k => !(s3.session k).items.isEmpty) then s3.tryRun p 63 else (s3.tryRun p 63).powerSelect p

-- Warm-hold load (spec/17 R484) -----------------------------------------------------------------------------------------------------

/-- Governing temperature of a compute die, in 0.125 °C (spec/17 R486). -/
def State.dieTemp (s : State) (d : Nat) : Int := signedOf 16 (s.rgF d CD_THERM 15 0)

/-- A die in warm-hold: a site in service that holds no position, or a die of a partition in that state (spec/01 R37, R42, spec/17 R484). -/
def State.warmHeld (s : State) (d : Nat) : Bool :=
  s.coreOn d && decide (3 ≤ s.pcd.stageDone) &&
    (match s.partOfNode d with
     | some p =>
       if (s.nodeSite d).isSome then decide ((s.part p).pstate = 2) && !(s.part p).waking
       else !(s.rowMap ((regionOfNode d).getD 0) (d / 36 % 4)).testBit (9 + d % 36 % 9)
     | none => false)

/-- WARM_HOLD_LOAD_ADJUST: 1 W toward 47 °C; 1,000 samples in a row below 45 °C at the full load raise 0x5307. -/
def State.loadAdjust (s : State) : State :=
  (List.range' 0 576).foldl (fun t d =>
    if t.warmHeld d then
      let x := t.die d
      let temp := t.dieTemp d
      let load := if temp < 376 then min 20 (x.synth + 1) else if 376 < temp then x.synth - 1 else x.synth
      let cold := if decide (temp < 360) && decide (x.synth = 20) then x.coldCnt + 1 else 0
      let t1 := t.setDie d { x with synth := load, coldCnt := cold }
      if cold = 1000 then t1.raise d 0x5307 (unitDie d) 0 else t1
    else t) s

-- Heat (spec/17 R486-R490, spec/16 R464) ------------------------------------------------------------------------------------------------

/-- A region is switched off for heat: the path of an overcurrent without the trip. It is re-trued once its supply is back. -/
def State.heatOff (s : State) (r : Nat) : State :=
  match s.partOfRegion r with
  | some p =>
    if s.regionOn r && !(s.part p).off then
      let s1 := ((s.pcdEvent 0x3301 p (unitDie (nodeRs r)) 0).regionOpen r).oweRetrue r
      ((s1.setPcd (fun q => { q with heatOff := sput q.heatOff r s.ptc })).settle p).routeCheck
    else s
  | none => s

/-- HEAT_REGION_RESTORE: after 120 s and 60 s of normal coolant, the region's supply closes; its re-true is owed. -/
def State.heatBack (s : State) (r : Nat) : State :=
  match sfind s.pcd.heatOff r with
  | some _ => (s.setRgB (nodeRs r) RS_FENCE 63 false).setPcd (fun p => { p with heatOff := serase p.heatOff r })
  | none => s

/-- A reading is within −20 to 150 °C. -/
def inSpan (t : Int) : Bool := decide (-160 ≤ t) && decide (t ≤ 1200)

/-- The exclusion of one sensor after a sample: excluded or not, samples back in range, and whether it has just been excluded (spec/17 R487). -/
def exclNext (t : Int) (was : Bool) (back : Nat) : Bool × Nat × Bool :=
  if !inSpan t then (true, 0, !was)
  else if was then (if 10000 ≤ back + 1 then (false, 0, false) else (true, back + 1, false))
  else (false, 0, false)

/-- Samples of a pair's disagreement: the count, the DISAGREE bit and whether it is raised now. -/
def differNext (a b : Int) (valid : Bool) (cnt : Nat) (was : Bool) : Nat × Bool × Bool :=
  let d := (a - b).natAbs
  if !valid then (0, was, false)
  else if 40 < d then (if was then (cnt, true, false) else if 100000 ≤ cnt + 1 then (0, true, true) else (cnt + 1, false, false))
  else (0, was && decide (24 ≤ d), false)

/-- A sample of a compute die (spec/17 R486-R490). -/
def State.sampleDie (s : State) (d : Nat) (i : SensorIn) : State :=
  if s.coreOn d then
    let x := s.die d
    let w := s.rg d CD_THERM
    let ts := [i.t0, i.t1, i.t2]
    let e := (List.range 3).map (fun k => exclNext (ts.getD k 0) (w.testBit (28 + k)) (sget 0 x.inRange k))
    let ex := fun (k : Nat) => (e.getD k (false, 0, false)).1
    let valid := ((List.range 3).filter (fun k => !ex k)).map (fun k => ts.getD k 0)
    let none' := valid.isEmpty
    let gov : Int := if none' then 760 else valid.foldl max (-160)
    let df := differNext i.t0 i.t1 (!ex 0 && !ex 1) x.differCnt (w.testBit 31)
    let hot := if 840 ≤ gov then x.hotCnt + 1 else 0
    let therm := setBits (setBits (setBits (setBits w 15 0 (toTwos 16 gov)) 27 27 (b2n none')) 30 28 (b2n (ex 0) + 2 * b2n (ex 1) + 4 * b2n (ex 2))) 31 31 (b2n df.2.1)
    let s1 := (s.setRg d CD_THERM therm).setRg d CD_THERM_RAW (toTwos 16 i.t2 * 2 ^ 32 + toTwos 16 i.t1 * 2 ^ 16 + toTwos 16 i.t0)
    let back := (List.range 3).foldl (fun m k => nput 0 m k (e.getD k (false, 0, false)).2.1) x.inRange
    let s2 := s1.modDie d (fun y => { y with inRange := back, differCnt := df.1, hotCnt := hot })
    let s3 := (e.filter (fun q => q.2.2)).foldl (fun t _ => t.raise d 0x1301 (unitDie d) 0) s2
    let s4 := if none' && !w.testBit 27 then s3.raise d 0x1301 (unitDie d) 0 else s3
    let s5 := if df.2.2 then s4.raise d 0x1300 (unitDie d) 0 else s4
    if 10 ≤ hot then s5.heatOff ((regionOfNode d).getD 0) else s5
  else s

/-- A sample of a memory die, t0, and of its stack, t1 (spec/17 R486-R490, spec/10 R307). -/
def State.sampleMd (s : State) (m : Nat) (i : SensorIn) : State :=
  if s.mdOn m then
    let x := s.md m
    let n := nodeMd m
    let ts := [i.t0, i.t1]
    let e := (List.range 2).map (fun k => exclNext (ts.getD k 0) (x.excl.testBit k) (sget 0 x.inRange k))
    let ex := fun (k : Nat) => (e.getD k (false, 0, false)).1
    let valid := ((List.range 2).filter (fun k => !ex k)).map (fun k => ts.getD k 0)
    let gov : Int := if valid.isEmpty then 688 else valid.foldl max (-160)
    let df := differNext i.t0 i.t1 (!ex 0 && !ex 1) x.differCnt x.disagree
    let hot := if 760 ≤ gov then x.hotCnt + 1 else 0
    let back := (List.range 2).foldl (fun a k => nput 0 a k (e.getD k (false, 0, false)).2.1) x.inRange
    let s1 := s.setMd m { x with excl := b2n (ex 0) + 2 * b2n (ex 1), inRange := back, disagree := df.2.1, differCnt := df.1, hotCnt := hot }
    let s2 := s1.setRgF n MD_THERM 15 0 (toTwos 16 gov)
    let s3 := if 680 < gov then s2.setRgB n MD_THERM 17 true else if gov ≤ 656 then s2.setRgB n MD_THERM 17 false else s2
    let s4 := (e.filter (fun q => q.2.2)).foldl (fun t _ => t.raise n 0x1301 (unitStack m) 0) s3
    let s5 := if df.2.2 then s4.raise n 0x1300 (unitStack m) 0 else s4
    if 100 ≤ hot then s5.heatOff (m / 8) else s5
  else s

/-- SENSOR_SAMPLE. -/
def State.sensors (s : State) (l : List SensorIn) : State :=
  l.foldl (fun t i => if i.node < 576 then t.sampleDie i.node i else if i.node < 704 then t.sampleMd (i.node - 576) i else t) s

/-- The hottest die of a partition at or above 95 °C, the lower logical site on a tie (spec/17 R489). -/
def State.hottestDie (s : State) (p : Nat) : Option Nat :=
  (s.diesOf p).foldl (fun (a : Option Nat) d =>
    if s.coreOn d && decide (760 ≤ s.dieTemp d) then
      match a with
      | none => some d
      | some b => if s.dieTemp b < s.dieTemp d then some d else some b
    else a) none

/-- A named die rests more; the first naming raises 0x5303, and 100 ms at the most rest raise the ceiling (spec/17 R489). -/
def State.nameDie (s : State) (p d : Nat) : State :=
  let x := s.die d
  let ms := if x.trest = 48 then x.namedMs + 1 else 0
  let s1 := (s.setDie d { x with trest := min 48 (x.trest + 4), namedEver := true, namedMs := if ms = 100 then 0 else ms }).setRgB d CD_THERM 26 true
  let s2 := if x.namedEver then s1 else s1.pcdEvent 0x5303 p (unitDie d) 0
  if ms = 100 then s2.ceilUp p else s2

/-- THERMAL_THROTTLE_EVAL. -/
def State.throttle (s : State) : State :=
  let named := s.partsOn.filterMap (fun p => (s.hottestDie p).map (fun d => (p, d)))
  let s1 := (List.range' 0 576).foldl (fun t d =>
    if named.any (fun e => decide (e.2 = d)) then t
    else
      let t1 := if t.rgB d CD_THERM 26 then t.setRgB d CD_THERM 26 false else t
      if (t1.die d).trest = 0 ∧ (t1.die d).namedMs = 0 then t1 else t1.modDie d (fun x => { x with trest := x.trest - 2, namedMs := 0 })) s
  named.foldl (fun t e => t.nameDie e.1 e.2) s1

-- Coolant (spec/17 R491-R495, spec/19 R518) -------------------------------------------------------------------------------------------------

/-- Flow factor of the cut, in twentieths (spec/19 R518). -/
def State.flowFactor (s : State) : Int := if s.fuses.cut = 0 then 20 else if s.fuses.cut = 1 then 10 else 3

/-- k of R492 in 1/128, for a flow in 0.01 L/min and an inlet temperature in 0.125 °C. -/
def coolScale (factor flow tin : Int) : Nat := (min 128 (min (128 * flow / (150 * factor)) (128 * (400 - tin) / 80))).toNat

/-- A row of R492 after a second in which its condition holds or not, entered after `need` such seconds and left after 60 without. -/
def State.coolRow (s : State) (row need : Nat) (cond : Bool) : State :=
  let on := if cond then sget 0 s.pcd.rowOn row + 1 else 0
  let s1 := s.setPcd (fun p => { p with rowOn := nput 0 p.rowOn row on })
  match sfind s.pcd.rowOff row with
  | none => if need ≤ on ∧ cond = true then s1.setPcd (fun p => { p with rowOff := sput p.rowOff row 0 }) else s1
  | some n =>
    if cond then s1.setPcd (fun p => { p with rowOff := sput p.rowOff row 0 })
    else if 60 ≤ n + 1 then s1.setPcd (fun p => { p with rowOff := serase p.rowOff row })
    else s1.setPcd (fun p => { p with rowOff := sput p.rowOff row (n + 1) })

/-- COOLANT_EVAL (spec/17 R492, R493). -/
def State.coolant (s : State) (flow tin tout : Int) (psw : Bool) : State :=
  let state := s.rgF nodePc PC_COOLANT 19 16
  if !s.pcd.standby || decide (state = 5) then s
  else
    let f := s.flowFactor
    let below := fun (l : Int) => decide (flow * 20 < l * 100 * f)
    let c1f := below 36
    let c1t := decide (304 < tin) || decide (tin < 160)
    let had := fun (row : Nat) => (sfind s.pcd.rowOff row).isSome
    let s1 := ((s.coolRow 1 1 (c1f || c1t)).coolRow 2 1 (below 30 || decide (320 < tin))).coolRow 3 5 (below 20 || decide (360 < tin))
    let has := fun (row : Nat) => (sfind s1.pcd.rowOff row).isSome
    let next := if state = 4 ∧ s1.pcd.rowOff ≠ [] then 4 else if has 3 then 3 else if has 2 then 2 else if has 1 then 1 else 0
    let k := if has 2 then coolScale f flow tin else 128
    let w := (toTwos 16 flow) * 2 ^ 48 + (toTwos 12 tin) * 2 ^ 36 + (toTwos 12 tout) * 2 ^ 24 + next * 2 ^ 16 + k * 2 ^ 8 + b2n psw
    let s2 := s1.setRg nodePc PC_COOLANT w
    let s3 := if has 1 && !had 1 then
        let t := if c1f then s2.pcdEvent 0x5300 31 0 0 else s2
        if c1t then t.pcdEvent 0x5301 31 0 0 else t
      else s2
    let s4 := if has 3 && !had 3 && decide (state ≠ 4) then
        (s3.setPcd (fun p => { p with deadline := some (s.ptc + 60000000000) })).pcdEvent 0x5306 31 0 (s.ptc + 60000000000)
      else if !has 3 && had 3 then s3.setPcd (fun p => { p with deadline := none }) else s3
    if state = 4 ∧ next = 0 then
      s4.partsOn.foldl (fun t p =>
        let x := t.part p
        if x.pstate = 3 ∧ (t.hintOf p).isNone then t.setPart p { x with waking := true, entering := false } else t.powerSelect p) s4
    else s4

/-- Contexts whose job has started and has not ended, the one that runs last. -/
def Part.startedCtxs (x : Part) : List Nat :=
  let l := (x.ctxs.filter (fun e => (decide (e.2.st = .ready) || decide (e.2.st = .running)) && e.2.endAs.isNone)).map (·.1)
  l.filter (fun c => decide (x.run ≠ some c)) ++ l.filter (fun c => decide (x.run = some c))

/-- COOLANT_STOP_DEADLINE: partition by partition, every job that has started and not ended ends with 0x2300, and the partition enters Doze (spec/17
R493). -/
def State.coolStop (s : State) : State :=
  match s.pcd.deadline with
  | none => s
  | some _ =>
    let s1 := (List.range 16).foldl (fun t p =>
      if t.partsOn.contains p then
        let t1 := ((t.part p).startedCtxs).foldl (fun u c => u.ctxEvent 0x2300 p c 0 0) t
        t1.modPart p (fun x => if x.dozed then x else { x with pstate := 3, entering := true, waking := false })
      else t) s
    (s1.setRgF nodePc PC_COOLANT 19 16 4).setPcd (fun p => { p with deadline := none })

/-- Items in flight of every session end with status 5 and DONE, then every JOB_START with status 10 and EVENT 0x4300 (spec/17 R494). -/
def State.itemsEnd (s : State) : State :=
  let ends := fun (t : State) (pick : SItem → Bool) (status event : Nat) =>
    (List.range 128).foldl (fun t k => ((t.session k).items.filter pick).foldl (fun u i => u.complete k i.w.sseq.toNat status event i.done) t) t
  ends (ends s (fun i => i.started && decide (i.w.op ≠ 0x11#8)) 5 0) (fun i => decide (i.w.op = 0x11#8)) 10 0x4300

/-- COOLANT_SUDDEN_LOSS: over every other action, a stop sequence, a frequency step or a re-true (spec/17 R494, R495). -/
def State.suddenLoss (s : State) (psw : Bool) : State :=
  if s.pcd.standby then
    let s1 := ((s.setRgF nodePc PC_COOLANT 19 16 5).setRgB nodePc PC_COOLANT 0 psw).setPcd (fun p => { p with deadline := none })
    let calm := fun (x : Part) => { x with retrue := 0, stepW := none, stopped := false }
    let dark := fun (x : Die) => { x with synth := 0 }
    let s2 := { s1 with parts := s1.parts.map (fun (e : Nat × Part) => (e.1, calm e.2)), dies := s1.dies.map (fun (e : Nat × Die) => (e.1, dark e.2)) }
    ((s2.panelFatal 0x4300).itemsEnd).allOpen
  else s

/-- PCD_OVERTEMP: the die writes a final record, whose content is not stated (log entry 6), and stops; the other takes over (spec/17 R494, spec/01
R48). -/
def State.pcdHot (s : State) (b : Bool) : State :=
  if s.pcdWorks b then
    let s1 := ({ s with free := s.free + 1 } : State).lastRecord (s.freeVal % 2 ^ 16)
    if s.pcd.activeB = b then s1.pcdTakeover else s1.setPcd (fun p => { p with standbyOk := false })
  else s

-- Loss of a region (spec/16 R463, spec/01 R48, spec/15 R428) --------------------------------------------------------------------------------------

/-- REGION_OVERCURRENT: the input switch opens and the RSD records the trip. During Rough-out the partition fails bring-up. -/
def State.regionTrip (s : State) (r : Nat) : State :=
  if decide (r < s.cutRegions) && s.pcd.standby && decide (1 ≤ s.pcd.stageDone) && !s.rgB (nodeRs r) RS_FENCE 63 then
    let s1 := (s.regionOpen r).setRgB (nodeRs r) RS_FENCE 62 true
    match s.partOfRegion r with
    | some p => if s.pcd.stageDone = 1 then s1.partFails p (unitDie (nodeRs r)) else (s1.pcdEvent 0x3300 p (unitDie (nodeRs r)) 0).routeCheck
    | none => s1
  else s

/-- RSD_LOSS: the region is switched off and its partition fails (spec/01 R48); before Ready it fails bring-up (spec/15 R428). After Ready no code is
stated: the partition's contexts end with status 10 and EVENT 0. -/
def State.rsdGone (s : State) (r : Nat) : State :=
  let s1 := s.setPcd (fun x => { x with rsdLost := insUniq r x.rsdLost })
  match s1.partOfRegion r with
  | some p =>
    if (s1.part p).off then s1
    else if s1.pcd.stageDone < 5 then s1.partFails p (unitDie (nodeRs r))
    else ((s1.failAll p 0).partOff p).routeCheck
  | none => s1

-- The meanings --------------------------------------------------------------------------------------------------------------------------------

/-- REGION_OVERCURRENT (spec/16 R463). -/
def execRegionOvercurrent (region : Nat) (s : State) : Host.Outcome State Fault Refusal :=
  guard (Instr.regionOvercurrent region).wf (s.regionTrip region)
/-- INPUT_VOLTAGE_WARN (spec/17 R472). -/
def execInputVoltageWarn (va vb : Nat) (s : State) : Host.Outcome State Fault Refusal := guard (Instr.inputVoltageWarn va vb).wf (s.inputWarn va vb)
/-- INPUT_UNDERVOLTAGE (spec/17 R472). -/
def execInputUndervoltage (s : State) : Host.Outcome State Fault Refusal := guard Instr.inputUndervoltage.wf s.inputLow
/-- INPUT_OVERVOLTAGE (spec/17 R472). -/
def execInputOvervoltage (s : State) : Host.Outcome State Fault Refusal := guard Instr.inputOvervoltage.wf s.inputHigh
/-- BUS_PAIR_LOST (spec/17 R473). -/
def execBusPairLost (pairB : Bool) (s : State) : Host.Outcome State Fault Refusal := guard (Instr.busPairLost pairB).wf (s.pairLost pairB)
/-- BUS_PAIR_RESTORED (spec/17 R473). -/
def execBusPairRestored (pairB : Bool) (s : State) : Host.Outcome State Fault Refusal := guard (Instr.busPairRestored pairB).wf (s.pairBack pairB)
/-- POWER_LOOP_UPDATE (spec/17 R477). -/
def execPowerLoopUpdate (total : Nat) (watts : List (Nat × Nat × Nat)) (s : State) : Host.Outcome State Fault Refusal :=
  guard (Instr.powerLoopUpdate total watts).wf (s.powerLoop total watts)
/-- POWER_GUARD_TRIP (spec/17 R478). -/
def execPowerGuardTrip (s : State) : Host.Outcome State Fault Refusal := guard Instr.powerGuardTrip.wf s.guardTrip
/-- GUARD_HOLD_END (spec/17 R478). -/
def execGuardHoldEnd (s : State) : Host.Outcome State Fault Refusal := guard Instr.guardHoldEnd.wf s.guardEnd
/-- STEP_CEILING_UPDATE (spec/17 R479). -/
def execStepCeilingUpdate (part : Nat) (s : State) : Host.Outcome State Fault Refusal := guard (Instr.stepCeilingUpdate part).wf (s.ceilStep part)
/-- WARM_HOLD_ENTER (spec/17 R482). -/
def execWarmHoldEnter (part : Nat) (s : State) : Host.Outcome State Fault Refusal := guard (Instr.warmHoldEnter part).wf (s.warmEnter part)
/-- POWER_WAKE (spec/17 R483). -/
def execPowerWake (part : Nat) (s : State) : Host.Outcome State Fault Refusal := guard (Instr.powerWake part).wf (s.wakeAt part)
/-- POWER_WAKE_COMPLETE (spec/17 R483). -/
def execPowerWakeComplete (part : Nat) (s : State) : Host.Outcome State Fault Refusal := guard (decide (part < 16)) (s.wakeDone part)
/-- POWER_ENTRY_COMPLETE (spec/17 R485). -/
def execPowerEntryComplete (part : Nat) (s : State) : Host.Outcome State Fault Refusal := guard (decide (part < 16)) (s.entryDone part)
/-- WARM_HOLD_LOAD_ADJUST (spec/17 R484). -/
def execWarmHoldLoadAdjust (s : State) : Host.Outcome State Fault Refusal := guard Instr.warmHoldLoadAdjust.wf s.loadAdjust
/-- SENSOR_SAMPLE (spec/17 R486). -/
def execSensorSample (readings : List SensorIn) (s : State) : Host.Outcome State Fault Refusal :=
  guard (Instr.sensorSample readings).wf (s.sensors readings)
/-- THERMAL_THROTTLE_EVAL (spec/17 R489). -/
def execThermalThrottleEval (s : State) : Host.Outcome State Fault Refusal := guard Instr.thermalThrottleEval.wf s.throttle
/-- HEAT_REGION_RESTORE (spec/17 R490). -/
def execHeatRegionRestore (region : Nat) (s : State) : Host.Outcome State Fault Refusal := guard (Instr.heatRegionRestore region).wf (s.heatBack region)
/-- COOLANT_EVAL (spec/17 R492). -/
def execCoolantEval (flow tin tout : Int) (psw : Bool) (s : State) : Host.Outcome State Fault Refusal :=
  guard (Instr.coolantEval flow tin tout psw).wf (s.coolant flow tin tout psw)
/-- COOLANT_STOP_DEADLINE (spec/17 R493). -/
def execCoolantStopDeadline (s : State) : Host.Outcome State Fault Refusal := guard Instr.coolantStopDeadline.wf s.coolStop
/-- COOLANT_SUDDEN_LOSS (spec/17 R494). -/
def execCoolantSuddenLoss (psw : Bool) (s : State) : Host.Outcome State Fault Refusal := guard (Instr.coolantSuddenLoss psw).wf (s.suddenLoss psw)
/-- PCD_OVERTEMP (spec/17 R494). -/
def execPcdOvertemp (pcdB : Bool) (s : State) : Host.Outcome State Fault Refusal := guard (Instr.pcdOvertemp pcdB).wf (s.pcdHot pcdB)
/-- RSD_LOSS (spec/01 R48). -/
def execRsdLoss (region : Nat) (s : State) : Host.Outcome State Fault Refusal := guard (decide (region < 16)) (s.rsdGone region)

end Sys2Proof.Machine
end

