-- ==== Sys2Proof/Machine/Manage.lean ====
section
/-! DEFINITION. Trust, the management path and telemetry, and the module in its slot (spec/18 R497-R517, spec/19 R518-R525). -/

namespace Sys2Proof.Machine

-- The management path (spec/18 R507-R513) -------------------------------------------------------------------------------------

/-- An answer, where the endpoint answers. -/
def State.answer (s : State) (m : MgmtOut) : State := if s.mgmtUp then s.emit (.mgmt m) else s

/-- RequestUpdate: one session at a time (spec/18 R508). -/
def State.updateOpen (s : State) : State :=
  if !s.mgmtUp then s
  else if s.pcd.updating then s.answer .alreadyInUpdateMode
  else (s.setPcd (fun p => { p with updating := true })).answer .updateOpen

/-- Some valid image slot meets a MIN_SVN (spec/18 R501). -/
def State.svnMet (s : State) (svn : Nat) : Bool := [false, true].any (fun b => match s.slotImage b with | some f => decide (svn ≤ f.svn) | none => false)

/-- SEQ of the slot in use. -/
def State.seqInUse (s : State) (config : Bool) : Nat :=
  if config then (match s.pcd.conf with | some c => c.seq | none => 0)
  else (match s.slotImage s.pcd.imageB with | some f => f.seq | none => 0)

/-- What follows the verification of a component: staged, or rejected and counted (spec/18 R507). -/
def State.componentEnd (s : State) (config ok : Bool) : State :=
  let s1 := s.setPcd (fun p => if config then { p with stagedCfg := ok } else { p with stagedFw := ok })
  if ok then (s1.pcdEvent 0x11C1 31 0 0).answer (.staged config)
  else ((s1.bumpErr nodePc PC_UPDATE_REJECT PC_TRUST_STATUS 31 1).pcdEvent 0x11C2 31 0 0).answer (.rejected config)

/-- UPDATE_COMPONENT: a component is written into the slot not in use, and verified (spec/18 R507, R508). -/
def State.updateIn (s : State) (c : Component) : State :=
  if !s.mgmtUp || !s.pcd.updating then s
  else
    match c with
    | .image f =>
      let b := !s.pcd.imageB
      let on := if b then s.nvm.ok1 else s.nvm.ok0
      let min := match s.pcd.conf with | some x => x.minSvn | none => 0
      let s1 := if on then { s with nvm := { s.nvm with images := s.nvm.images.set (b2n b) (some f) } } else s
      s1.componentEnd false (on && fwImageOk f && decide (min ≤ f.svn) && seqHigher f.seq (s.seqInUse false))
    | .config x =>
      let b := !s.pcd.confB
      let on := if b then s.nvm.ok1 else s.nvm.ok0
      let s1 := if on then { s with nvm := { s.nvm with confs := s.nvm.confs.set (b2n b) (some x) } } else s
      s1.componentEnd true (on && confValid s.nvm.owner x && s.svnMet x.minSvn && seqHigher x.seq (s.seqInUse true))

/-- ActivateFirmware, without self-contained activation: it ends the session (spec/18 R507). -/
def State.activate (s : State) : State := if s.mgmtUp then (s.setPcd (fun p => { p with updating := false })).answer .activated else s

/-- GET_CERTIFICATE and CHALLENGE: slot 0 only (spec/18 R509). -/
def State.slotAnswer (s : State) (slot : Nat) (m : MgmtOut) : State := s.answer (if slot = 0 then m else .unsupported)

/-- What a measurement block covers (spec/18 R509). -/
def State.measBlock (s : State) (k : Nat) : List Meas :=
  if k = 1 then [.rom Config.romVersion]
  else if k = 2 then (match s.slotImage s.pcd.imageB with | some f => [.image f] | none => [])
  else if k = 3 then (match s.pcd.conf with | some c => [.config c] | none => [])
  else if k = 4 then [.fused s.fuses]
  else if k = 5 then [.knots (s.nvm.knots.take s.pcd.measKnots)]
  else if k = 6 then [.rowMaps s.pcd.measRows]
  else if k = 7 then [.ids (s.regVal nodePc PC_PART_ID) s.nvm.bseq]
  else []

/-- GET_MEASUREMENTS: Busy before sealing, and for blocks 5 and 6 during a re-true; index 0 asks for their number and 0xFF for all (spec/18 R510). -/
def State.measure (s : State) (index : Nat) : State :=
  let moving := decide (index = 5) || decide (index = 6) || decide (index = 255)
  s.answer (if !s.pcd.sealed || (moving && s.retrueBusy) then .busy else if index ≤ 7 ∨ index = 255 then .measurements index
    (if index = 255 then (List.range' 1 7).flatMap s.measBlock else s.measBlock index) else .unsupported)

/-- A device of the NVM stops answering (spec/18 R502). -/
def State.nvmFail (s : State) (dev : Nat) : State :=
  if (if dev = 0 then s.nvm.ok0 else s.nvm.ok1) then
    let s1 := { s with nvm := if dev = 0 then { s.nvm with ok0 := false } else { s.nvm with ok1 := false } }
    if s.mgmtUp then s1.pcdEvent 0x11C3 31 0 0 else s1
  else s

-- Telemetry (spec/18 R514-R516) -------------------------------------------------------------------------------------------------

/-- Powered compute dies, and memory dies, of a region. -/
def State.diesIn (s : State) (r : Nat) : List Nat := (regionNodes r).filter (fun d => s.coreOn d)
def State.mdsIn (s : State) (r : Nat) : List Nat := ((List.range 8).map (fun k => 8 * r + k)).filter s.mdOn

/-- Lowest slack of a region's dies since the last read (spec/18 R514). -/
def State.minSlack (s : State) (r : Nat) : Nat := (s.diesIn r).foldl (fun a d => min a (s.rgF d CD_CLK_MARGIN 31 26)) 63

/-- The header of a datagram. -/
def State.telemHead (s : State) (seq : Nat) : List Byte :=
  let c := s.rg nodePc PC_COOLANT
  leBytes 4 0x4D544756 ++ leBytes 2 s.cutRegions ++ leBytes 2 0 ++ leBytes 4 seq ++ leBytes 4 s.nvm.bseq ++ leBytes 8 s.ptc ++
    leBytes 2 (s.rgF nodePc PC_PWR_STATUS 31 16) ++ leBytes 2 (bits c 63 48) ++ leBytes 2 (toTwos 16 (signedOf 12 (bits c 47 36))) ++
    leBytes 2 (toTwos 16 (signedOf 12 (bits c 35 24)))

/-- The block of a region. -/
def State.telemBlock (s : State) (r : Nat) (i : TelemIn) : List Byte :=
  let p := (s.partOfRegion r).getD 0
  let temp : Int := match s.diesIn r with
    | [] => 0
    | d :: l => l.foldl (fun a e => max a (s.dieTemp e)) (s.dieTemp d)
  let holds := (s.diesIn r).foldl (fun a d => a + s.rg d CD_HOLD_EVENTS) 0
  let fec := (List.range 36).foldl (fun a o => a + s.rg (nodeRs r) (RS_RT_FEC_CORR o)) 0
  let hbm := (s.mdsIn r).foldl (fun a m => a + s.rg (nodeMd m) MD_ECC_CORR) 0
  leBytes 2 (s.rgF (nodeRs r) RS_PWR 31 16) ++ leBytes 2 (toTwos 16 temp) ++ leBytes 1 (s.minSlack r) ++
    leBytes 1 ((s.part p).step % 16 + s.pstateWord p / 2 ^ 29 * 16) ++ leBytes 2 (min 0xFFFF holds) ++ leBytes 2 (toTwos 16 i.vmargin) ++
    leBytes 2 (toTwos 16 i.omargin) ++ leBytes 4 (fec % 2 ^ 32) ++ leBytes 4 (hbm % 2 ^ 32) ++ leBytes 12 0

/-- The reads of a region's registers that clear (spec/18 R515). What the corrected-error checks of Uttos count stays counted. -/
def State.telemClear (s : State) (r : Nat) : State :=
  let s1 := (s.diesIn r).foldl (fun t d => (t.setRgF d CD_CLK_MARGIN 31 21 (63 * 32)).setRg d CD_HOLD_EVENTS 0) s
  let s2 := (List.range 36).foldl (fun t o =>
    let v := t.rg (nodeRs r) (RS_RT_FEC_CORR o)
    if v = 0 then t else (t.setRg (nodeRs r) (RS_RT_FEC_CORR o) 0).keepGrowth (nodeRs r) (RS_RT_FEC_CORR o) v) s1
  (s.mdsIn r).foldl (fun t m =>
    let v := t.rg (nodeMd m) MD_ECC_CORR
    if v = 0 then t else (t.setRg (nodeMd m) MD_ECC_CORR 0).keepGrowth (nodeMd m) MD_ECC_CORR v) s2

/-- A margin of a region against its threshold: raised after three low intervals in a row, and again only after ten that were not (spec/18 R516).
Kinds: 0 voltage, 1 optical, 2 timing. -/
def State.marginWarn (s : State) (r kind : Nat) (low : Bool) : State :=
  let k := 4 * r + kind
  let lo := if low then sget 0 s.pcd.lowCnt k + 1 else 0
  let ok := if low then 0 else sget 0 s.pcd.okCnt k + 1
  let was := s.pcd.raised.contains k
  let now := !was && decide (3 ≤ lo)
  let kept := if now then insUniq k s.pcd.raised else if was && decide (10 ≤ ok) then s.pcd.raised.filter (· ≠ k) else s.pcd.raised
  let s1 := s.setPcd (fun p => { p with lowCnt := nput 0 p.lowCnt k lo, okCnt := nput 0 p.okCnt k (min 10 ok), raised := kept })
  if now then s1.pcdEvent (0x51C0 + kind) ((s.partOfRegion r).getD 31) (unitDie (nodeRs r)) 0 else s1

/-- TELEMETRY_SEND: the datagram without its tag (spec/18 R514), then the margin warnings. -/
def State.telemetry (s : State) (l : List TelemIn) : State :=
  match s.pcd.conf with
  | none => s
  | some c =>
    if c.telemetry.isNone || !s.mgmtUp then s
    else
      let seq := (s.rg nodePc PC_TELEM_SEQ + 1) % 2 ^ 32
      let of := fun (r : Nat) => (l.find? (fun e => decide (e.region = r))).getD { region := r, vmargin := 0, omargin := 0 }
      let all := List.range s.cutRegions
      let bytes := s.telemHead seq ++ all.flatMap (fun r => s.telemBlock r (of r))
      let slack := all.map s.minSlack
      let s1 := ((all.foldl State.telemClear s).setRg nodePc PC_TELEM_SEQ seq).emit (.telemetry seq bytes)
      all.foldl (fun t r =>
        if l.any (fun e => decide (e.region = r)) then
          ((t.marginWarn r 0 (decide ((of r).vmargin < c.vmargin))).marginWarn r 1 (decide ((of r).omargin < c.omargin))).marginWarn r 2
            (decide (slack.getD r 63 < c.warnTh + 2))
        else t) s1

-- The module (spec/19 R521-R525) ----------------------------------------------------------------------------------------------------

/-- MODULE_INSERT: with both pairs at 40 V or more and J1 mated, the capacitance is precharged (spec/19 R524). -/
def State.insert (s : State) (va vb : Nat) (j1 : Bool) : State :=
  if s.pcd.inputClosed then s
  else s.setPcd (fun p => { p with seated := true, precharge := decide (4000 ≤ va) && decide (4000 ≤ vb) && j1 })

/-- INPUT_SWITCH_CLOSE: supply good follows, and bring-up begins at Mount with no retained memory (spec/19 R522, R524). -/
def State.inputClose (s : State) : State :=
  if s.pcd.precharge then s.setPcd (fun p => { p with precharge := false, inputClosed := true, standby := true, stat := 1, heldOff := false, stageDone := 0 })
  else s

/-- MODULE_WITHDRAW: every switch opens; whether the energy left allows the record 0x4302 is open (spec/19 R525; log entry 6). -/
def State.withdraw (s : State) : State :=
  if s.pcd.inputClosed then
    let s1 := s.takeFree
    ((if s.freeVal % 2 = 1 then s1.lastRecord 0x4302 else s1).powerLost).setPcd (fun p => { p with seated := false })
  else s.setPcd (fun p => { p with seated := false, precharge := false })

/-- What an external programmer writes while NVM_ISO_N is low: slots of images and configurations. An owner record that the device identity key
has not signed does not verify: the module is unowned (spec/19 R523, spec/18 R504; log entry 89). -/
def Nvm.programmed (n : Nvm) (i : IsoIn) : Nvm :=
  let n1 := i.images.foldl (fun m e => if (if e.1 = 0 then m.ok0 else m.ok1) then { m with images := m.images.set e.1 e.2 } else m) n
  let n2 := i.confs.foldl (fun m e => if (if e.1 = 0 then m.ok0 else m.ok1) then { m with confs := m.confs.set e.1 e.2 } else m) n1
  if i.ownerLost then { n2 with owner := none } else n2

/-- NVM_ISOLATE: low holds the PCDs in reset, as RESET_N does; high performs a reset (spec/19 R523). -/
def State.isolate (s : State) (i : IsoIn) : State :=
  let s1 := if !i.low && s.pcd.nvmIso then { s with nvm := s.nvm.programmed i } else s
  (s1.resetPanel).setPcd (fun p => { p with nvmIso := i.low })

/-- STATUS_LATCH_TIMEOUT: no PCD has passed its self-test (spec/19 R522). -/
def State.latchTimeout (s : State) : State :=
  if s.pcd.standby && decide (s.pcd.stageDone = 0) && decide (s.pcd.stat = 1) then s.setPcd (fun p => { p with stat := 3 }) else s

-- The meanings --------------------------------------------------------------------------------------------------------------------------

/-- REQUEST_UPDATE (spec/18 R508). -/
def execRequestUpdate (s : State) : Host.Outcome State Fault Refusal := guard Instr.requestUpdate.wf s.updateOpen
/-- UPDATE_COMPONENT (spec/18 R507). -/
def execUpdateComponent (c : Component) (s : State) : Host.Outcome State Fault Refusal := guard (Instr.updateComponent c).wf (s.updateIn c)
/-- ACTIVATE_FIRMWARE (spec/18 R507). -/
def execActivateFirmware (s : State) : Host.Outcome State Fault Refusal := guard Instr.activateFirmware.wf s.activate
/-- GET_VERSION (spec/18 R509). -/
def execGetVersion (s : State) : Host.Outcome State Fault Refusal := guard Instr.getVersion.wf (s.answer .version)
/-- GET_CAPABILITIES (spec/18 R509). -/
def execGetCapabilities (s : State) : Host.Outcome State Fault Refusal := guard Instr.getCapabilities.wf (s.answer .capabilities)
/-- NEGOTIATE_ALGORITHMS (spec/18 R509). -/
def execNegotiateAlgorithms (s : State) : Host.Outcome State Fault Refusal := guard Instr.negotiateAlgorithms.wf (s.answer .algorithms)
/-- GET_DIGESTS (spec/18 R509). -/
def execGetDigests (s : State) : Host.Outcome State Fault Refusal := guard Instr.getDigests.wf (s.answer .digests)
/-- GET_CERTIFICATE (spec/18 R509). -/
def execGetCertificate (slot : Nat) (s : State) : Host.Outcome State Fault Refusal :=
  guard (Instr.getCertificate slot).wf (s.slotAnswer slot .certificate)
/-- CHALLENGE (spec/18 R509). -/
def execChallenge (slot : Nat) (s : State) : Host.Outcome State Fault Refusal := guard (Instr.challenge slot).wf (s.slotAnswer slot .challengeAuth)
/-- GET_MEASUREMENTS (spec/18 R510). -/
def execGetMeasurements (index : Nat) (s : State) : Host.Outcome State Fault Refusal := guard (Instr.getMeasurements index).wf (s.measure index)
/-- SET_ENDPOINT_ID (spec/18 R511). -/
def execSetEndpointId (eid : BitVec 8) (s : State) : Host.Outcome State Fault Refusal :=
  guard (Instr.setEndpointId eid).wf (if s.mgmtUp then s.setPcd (fun p => { p with eid := eid.toNat }) else s)
/-- EVT_ACK_WRITE (spec/16 R469): effecter 2. -/
def execEvtAckWrite (val : W32) (s : State) : Host.Outcome State Fault Refusal :=
  guard (Instr.evtAckWrite val).wf (if s.mgmtUp then s.evtAck val.toNat else s)
/-- RESET_EFFECTER (spec/19 R521): effecter 3. -/
def execResetEffecter (val : W32) (s : State) : Host.Outcome State Fault Refusal :=
  guard (Instr.resetEffecter val).wf (if s.mgmtUp ∧ val = 0x5245#32 then s.resetPanel else s)
/-- TELEMETRY_SEND (spec/18 R514). -/
def execTelemetrySend (m : List TelemIn) (s : State) : Host.Outcome State Fault Refusal := guard (Instr.telemetrySend m).wf (s.telemetry m)
/-- NVM_DEVICE_FAIL (spec/18 R502). -/
def execNvmDeviceFail (dev : Nat) (s : State) : Host.Outcome State Fault Refusal := guard (Instr.nvmDeviceFail dev).wf (s.nvmFail dev)
/-- MODULE_INSERT (spec/19 R524). -/
def execModuleInsert (va vb : Nat) (j1 : Bool) (s : State) : Host.Outcome State Fault Refusal :=
  guard (Instr.moduleInsert va vb j1).wf (s.insert va vb j1)
/-- INPUT_SWITCH_CLOSE (spec/19 R524). -/
def execInputSwitchClose (s : State) : Host.Outcome State Fault Refusal := guard Instr.inputSwitchClose.wf s.inputClose
/-- MODULE_WITHDRAW (spec/19 R525). -/
def execModuleWithdraw (s : State) : Host.Outcome State Fault Refusal := guard Instr.moduleWithdraw.wf s.withdraw
/-- NVM_ISOLATE (spec/19 R523). -/
def execNvmIsolate (i : IsoIn) (s : State) : Host.Outcome State Fault Refusal := guard (Instr.nvmIsolate i).wf (s.isolate i)
/-- STATUS_LATCH_TIMEOUT (spec/19 R522). -/
def execStatusLatchTimeout (s : State) : Host.Outcome State Fault Refusal := guard Instr.statusLatchTimeout.wf s.latchTimeout
/-- STANDBY_RAIL_LOSS (spec/15 R428). -/
def execStandbyRailLoss (s : State) : Host.Outcome State Fault Refusal := guard true s.powerLost

end Sys2Proof.Machine
end

