-- ==== Sys2Proof/Machine/Tick.lean ====
section
/-! DEFINITION. The passing of panel time: what one PTC tick of 1 ns brings about of itself (spec/14 R405, R408, R410, R418, spec/08 R227-R229,
R236, R248, spec/09 R255-R262, R272, R294). Log entry 8 says which effects the tick has and which wait for their own command. -/

namespace Sys2Proof.Machine

-- A fabric cycle of a compute die ------------------------------------------------------------------------------------------

/-- The entries of the turn in force that issue at a nominal cycle, with their iteration (spec/08 R227). -/
def Place.dueEntries (x : Place) (kind nominal : Nat) : Nat × List Entry :=
  let t := x.turn x.slot
  let off := nominal - x.base
  let i := off / t.period
  if x.base ≤ nominal ∧ t.period ≠ 0 ∧ i < t.rep then
    (i, (x.entries x.slot kind).filter (fun e => decide (e.cycle = off % t.period) && whenHolds e.wh i t.rep))
  else (0, [])

/-- A place goes on with its turn. -/
def Place.goes (x : Place) : Bool := decide (x.st = .running) && !x.waitLoad && !x.yielded && !x.ended

/-- The turns that end at the present nominal cycle give way to the next (spec/08 R228). -/
def State.turnsEnd (s : State) (d : Nat) : State :=
  (List.range 25).foldl (fun t p =>
    let x := t.place d p
    let h := x.turn x.slot
    if x.goes && decide (x.base + h.rep * h.period = t.nominal d) then t.turnSwitch d p else t) s

/-- A place issues entries in the present cycle: it goes on with its turn, or a PL.STOP of this cycle is to halt it (spec/06 R184). -/
def State.issues (s : State) (d p : Nat) : Bool := (s.place d p).goes || s.stoppedNow d p

/-- One place issues what is due at the present nominal cycle, in table order (spec/08 R227); one that halts issues no more. -/
def State.issuePlace (s : State) (d p : Nat) : State :=
  if s.issues d p then
    let es := (s.place d p).dueEntries (placeKind p) (s.nominal d)
    es.2.foldl (fun t e => if t.canIssue d p then (t.matchHit d p e.idx).issueEntry d p es.1 e else t) s
  else s

/-- A place of the die has an entry due. -/
def State.issueDue (s : State) (d : Nat) : Bool :=
  (s.die d).places.any (fun e => s.issues d e.1 && !(e.2.dueEntries (placeKind e.1) (s.nominal d)).2.isEmpty)

/-- An issue ends the waiting of a die, and takes back its idle notice (spec/08 R248, R249). -/
def State.issueSeen (s : State) (d : Nat) : State :=
  let s1 := s.modDie d (fun x => { x with waitCnt := 0 })
  if s.rgB d CD_PL_STATUS 0 then (s1.setRgB d CD_PL_STATUS 0 false).spNotice d 1 else s1

/-- The issues of the present nominal cycle, each nominal cycle once. -/
def State.issueAll (s : State) (d : Nat) : State :=
  let n := s.rg d CD_SCH_NOMINAL % 2 ^ 48
  if (s.die d).issuedNom = n + 1 then s
  else
    let seen := if s.issueDue d then s.issueSeen d else s
    ((List.range 25).foldl (fun t p => t.issuePlace d p) seen).modDie d (fun x => { x with issuedNom := n + 1 })

/-- DMA descriptors of the present nominal cycle go out (spec/10 R294). -/
def State.dmaSends (s : State) (d : Nat) : Nat → State
  | 0 => s
  | n + 1 => if s.dmaDue d then (s.dmaSend d).dmaSends d n else s

/-- Shadow tiles whose load has ended are ready (spec/03 R97). -/
def State.shadowsReady (s : State) (d : Nat) : State :=
  (s.die d).mcs.foldl (fun t e =>
    if e.2.shadow.isSome && !e.2.shadowReady && decide (e.2.loadUntil ≤ (s.die d).cyc) then t.shadowReadyNow d e.1 else t) s

/-- Tokens that may leave do so, one a lane (spec/08 R220, R221). -/
def State.departs (s : State) (d : Nat) : State :=
  (s.die d).places.foldl (fun t e => e.2.lanes.foldl (fun u l =>
    match l.2.out with
    | (c, _) :: _ => if c ≤ (s.die d).cyc then u.depart d e.1 l.1 else u
    | [] => u) t) s

/-- Tokens arrive whose flight is over, and credits that have come back count (spec/08 R220, R221). -/
def State.arrivals (s : State) (d : Nat) : State :=
  let c := s.ccountOf d
  (s.die d).places.foldl (fun t e => e.2.lanes.foldl (fun u l =>
    let v := (l.2.wire.takeWhile (fun w => decide (w.1 ≤ c))).foldl (fun w k => w.arrive d e.1 l.1 k.2 .clean .clean) u
    (l.2.retAt.takeWhile (fun r => decide (r ≤ c))).foldl (fun w _ => w.creditBack d e.1 l.1) v) t) s

/-- A command under way still reads, or has something to write; the check of a row is no write. -/
def Run.writes (r : Run) (u : Nat) : Bool :=
  (r.cut.isNone && decide (u < r.t + r.len)) || r.late.any (fun e => match e.2 with | .check _ _ _ _ _ => false | _ => true)

/-- Writes of a place are complete: its units are free, and what they still write has been written (spec/06 R183). -/
def State.writesDone (s : State) (d p : Nat) : Bool :=
  let x := s.die d
  let n := x.cyc
  let own :=
    if p < 16 then
      let m := s.mc d p
      decide (m.loadUntil ≤ n) && decide (m.arrayUntil ≤ n) && decide (m.outUntil ≤ n)
    else if p < 24 then
      let v := s.vc d (p - 16)
      v.pend.all (fun w => decide (w.due ≤ n)) && decide (v.storeUntil ≤ n)
    else decide (x.scr.busyUntil ≤ n)
  own && x.runs.all (fun r => decide (r.place ≠ p) || !r.writes n) && (s.place d p).lanes.all (fun l => l.2.out.all (fun t => decide (t.1 < n)))

/-- Places whose last turn has ended and whose writes are complete enter DONE. -/
def State.placesDone (s : State) (d : Nat) : State :=
  (List.range 25).foldl (fun t p =>
    if (t.place d p).ended && decide ((t.place d p).st = .running) && t.writesDone d p then t.placeDone d p else t) s

/-- A cycle that stalls under a cause (spec/09 R257, spec/08 R248, R249). -/
def State.stallCycle (s : State) (d c : Nat) : State :=
  let s1 := (s.bumpPerf d (stallReg c) 1).bumpPerf d CD_SCH_ELAPSED 1
  if s.waiting d c then
    let n := (s.die d).waitCnt + 1
    let s2 := (s1.bumpPerf d CD_PL_NOISSUE 1).modDie d (fun x => { x with waitCnt := n })
    if n = 2 ^ 24 then s2.watchdogIdle d else s2
  else s1

/-- A cycle that does not stall; with it the turns end that end at the next one, which reads as the phase's END on a die whose last turn that
was (spec/08 R228, spec/09 R258, R268). -/
def State.freeCycle (s : State) (d : Nat) : State :=
  let wrap := decide (s.rg d CD_SCH_NOMINAL % 2 ^ 48 = 2 ^ 48 - 1)
  let s1 := (((s.departs d).bumpPerf d CD_SCH_NOMINAL 1).bumpPerf d CD_SCH_ELAPSED 1).modDie d (fun x =>
    { x with cyc := x.cyc + 1, nomWraps := x.nomWraps + b2n wrap })
  (((s1.shadowsReady d).turnsEnd d).placesDone d).matchDone d

/-- The head of a cycle of a die while its counters run (spec/09 R255-R257): the cause under which it stalls, whether every place has stopped, and
the state in which it goes on: unstalled, its entries have issued. Where a command, one issued in this cycle too, lacks a token or a departure a
credit, the cycle is a stall and nothing of it is done: the entries issue in the cycle that goes on (spec/03 R87). -/
def State.cycleHead (s : State) (d : Nat) : Nat × Bool × State :=
  let c0 := s.stallCause d
  if c0 ≠ 0 ∧ c0 < 4 then (c0, false, s)
  else
    let s1 := s.landTest d
    if s1.stallCause d ≠ 0 then (s1.stallCause d, false, s1)
    else if (s1.die d).allStopped then (0, true, s1)
    else
      let s2 := s1.issueAll d
      if s2.laneHeld d then (5, false, s1) else (0, false, s2)

/-- A cycle of a die while its counters run (spec/09 R255-R257): it stalls, or its entries issue, its descriptors go out, and its commands take
their steps. Places that have all stopped at a yield end the phase (R258, R259). -/
def State.phaseCycle (s : State) (d : Nat) : State :=
  let h := s.cycleHead d
  if h.1 ≠ 0 then h.2.2.stallCycle d h.1
  else if h.2.1 then h.2.2.phaseEnd d
  else ((h.2.2.dmaSends d 4096).runsCycle d).freeCycle d

/-- A cycle of a die whose counters stand: its pipelines run on, but for the pauses and for a token or credit that a command lacks (spec/09
R258, spec/03 R86, R87). -/
def State.idleCycle (s : State) (d : Nat) : State :=
  let c := s.stallCause d
  if c = 0 ∨ c = 4 then (((s.runsCycle d).departs d).modDie d (fun x => { x with cyc := x.cyc + 1 })).shadowsReady d else s

/-- What comes before a fabric cycle of a compute die: arrivals, the start cycle, the stop of the counters once no place goes on. -/
def State.cycleBegins (s : State) (d : Nat) : State :=
  let s1 := (s.arrivals d).stopsEnd d
  (match (s1.die d).startAt with
    | some c => if c ≤ s1.ccountOf d then s1.placeStart d else s1
    | none => s1).phaseEnd d

/-- The end of a fabric cycle at the scratchpad: a class 0 request that still waits has waited in it, and its grants are over (spec/07 R199, R200). -/
def State.spadCycle (s : State) (d : Nat) : State :=
  let x := (s.die d).spad
  let s1 := if x.reqs.any (fun r => decide (r.cls = 0)) then s.bumpPerf d CD_SPAD_DYN_WAIT 1 else s
  if x.grants = [] then s1 else s1.modDie d (fun y => { y with spad := { y.spad with grants := [] } })

/-- A fabric cycle of a compute die. -/
def State.dieCycle (s : State) (d : Nat) : State :=
  if s.coreOn d then
    let s1 := s.cycleBegins d
    (if (s1.die d).inPhase then s1.phaseCycle d else s1.idleCycle d).spadCycle d
  else s

/-- The bank pairs that scheduled accesses of a die use in the cycle to come; none in a stall, which holds every place (spec/07 R199). -/
def State.pairsComing (s : State) (d : Nat) : List Nat :=
  let s1 := s.cycleBegins d
  let accs :=
    if (s1.die d).inPhase then
      let h := s1.cycleHead d
      if h.1 ≠ 0 ∨ h.2.1 = true then [] else h.2.2.cycleAccs d
    else if s1.stallCause d = 0 ∨ s1.stallCause d = 4 then s1.cycleAccs d else []
  accs.map (·.1)

-- A fabric cycle of a partition --------------------------------------------------------------------------------------------------

/-- Cycles in which a transaction of a class waits for a tracker entry (spec/10 R286). -/
def State.trkWaits (s : State) (m : Nat) : State :=
  if s.mdOn m then
    let one := fun (t : State) (c : Nat) => t.bumpPerf (nodeMd m) (MD_TRK_WAIT c) 1
    let s1 := if ((s.md m).nextTx 0).isSome then one s 0 else s
    let s2 := if decide (((List.range 8).map (fun k => 8 * (m / 8) + k)).find? s.mdOn = some m) && !(s.fd (m / 8)).wait.isEmpty then one s1 1 else s1
    if ((s.md m).nextTx 2).isSome then one s2 2 else s2
  else s

/-- Other end of the stream on a channel of a side. -/
def State.sideEnd (s : State) (d side k : Nat) (inbound : Bool) : Option (Nat × Nat × Nat) :=
  (s.sideLane d side k inbound).bind (fun e => s.peer d e.1 e.2)

/-- The stripe that a side's share sends in the frame that begins at a common count (spec/11 R317, R318): the tokens and credits that left in
the five cycles before it, due 52 cycles after they left. -/
def State.stripeOf (s : State) (d side c : Nat) : Stripe :=
  let due := fun (t : Nat) => c - 5 + t / 4 + 52
  let sseq := match sfind (s.die d).sent side with | some x => x.sseq + 1#8 | none => 0#8
  let slot := fun (t : Nat) => match s.sideEnd d side (t % 4) false with
    | some (d', q, m) => (((s.place d' q).lane m).wire.find? (fun e => decide (e.1 = due t))).map (·.2)
    | none => none
  let back := fun (t : Nat) => match s.sideEnd d side (t % 4) true with
    | some (d', q, m) => ((s.place d' q).lane m).retAt.contains (due t)
    | none => false
  { sseq := sseq, slots := (List.range 20).map slot, cret := BitVec.ofNat 20 ((List.range 20).foldl (fun a t => a + b2n (back t) * 2 ^ t) 0),
    corrected := 0, uncorr := 0, relayCorr := 0, relayUncorr := 0, wander := 0 }

/-- A frame begins at every common count that is a multiple of 5: every share of a die sends a stripe, its sequence number one above the last
(spec/11 R314, R317, R318). -/
def State.frameBegins (s : State) (d c : Nat) : State :=
  if s.coreOn d && decide (c % 5 = 0) && decide (5 ≤ c) then
    [0, 1, 2, 3].foldl (fun t side =>
      if (t.sideRoute d side).isSome then t.modDie d (fun x => { x with sent := sput x.sent side (s.stripeOf d side c) }) else t) s
  else s

/-- A fabric cycle of a partition: every die and memory die of it, then the common count. -/
def State.partCycle (s : State) (p : Nat) : State :=
  let s1 := ((s.diesOf p).filter (fun d => (sfind s.dies d).isSome)).foldl (fun t d => t.dieCycle d) s
  let s2 := (s.part p).stackList.foldl (fun t m => t.trkWaits m) s1
  if (s.part p).stopped then s2
  else
    let c := ((s.part p).ccount + 1) % 2 ^ 64
    let s3 := ((s.diesOf p).filter (fun d => (sfind s.dies d).isSome)).foldl (fun t d => t.frameBegins d c) s2
    s3.modPart p (fun x => { x with ccount := c })

/-- So many fabric cycles of a partition. -/
def State.partCycles (s : State) (p : Nat) : Nat → State
  | 0 => s
  | n + 1 => (s.partCycle p).partCycles p n

/-- One ns of a partition at step f: 25 − f tenths of ten cycles (spec/14 R408). -/
def State.partTick (s : State) (p : Nat) : State :=
  if (s.part p).stackList = [] then s
  else
    let ph := (s.part p).phase + (25 - (s.part p).step)
    (s.modPart p (fun x => { x with phase := ph % 10 })).partCycles p (ph / 10)

-- Panel time ---------------------------------------------------------------------------------------------------------------------

/-- The master's time: 1 ns and its rate (spec/14 R418, R421). Every other die adds 1 ns, its rate once a ms, and ±1/16 ns while it slews. -/
def State.timeTick (s : State) : State :=
  let fr := s.pcd.ptcFrac + 16 * signedOf 32 (s.rg nodePc PC_PTP_RATE)
  let gain := fr / 2 ^ 32
  let now := ((s.ptc16 : Int) + 16 + gain).toNat
  let ms := decide (s.ptc16 / 16000000 < now / 16000000)
  let err0 : SMap Int := if gain = 0 then s.pcd.ptcErr else
    ((List.range' 0 738).filter (fun n => decide (n ≠ s.activeNode))).foldl (fun (m : SMap Int) n => nput 0 m n (sget 0 m n + gain)) s.pcd.ptcErr
  let err1 := if ms then s.pcd.ptcRate.foldl (fun (m : SMap Int) (e : Nat × Int) => nput 0 m e.1 (sget 0 m e.1 - e.2)) err0 else err0
  let unit := fun (v : Int) => if 0 < v then (1 : Int) else -1
  let err2 := s.pcd.ptcSlew.foldl (fun (m : SMap Int) (e : Nat × Int) => nput 0 m e.1 (sget 0 m e.1 - unit e.2)) err1
  let slew := s.pcd.ptcSlew.foldl (fun (m : SMap Int) (e : Nat × Int) => nput 0 m e.1 (e.2 - unit e.2)) s.pcd.ptcSlew
  { s with ptc16 := now }.setPcd (fun p => { p with ptcFrac := fr % 2 ^ 32, ptcErr := err2, ptcSlew := slew })

/-- Once a second, a router's corrected and resent codewords against the configured rate (spec/11, code 0x1160). -/
def State.routerRate (s : State) (r o : Nat) : State :=
  let n := rtNode r o
  let cur := s.rg (nodeRs r) (RS_RT_FEC_CORR o) + s.rg (nodeRs r) (RS_RT_REPLAY o)
  let all := sget 0 s.pcd.rtAcc n + cur
  let base := sget 0 s.pcd.rtBase n
  let s1 := s.setPcd (fun p => { p with rtBase := nput 0 p.rtBase n cur, rtAcc := nput 0 p.rtAcc n 0 })
  if base + 10000 < all then s1.raise n 0x1160 (unitDie n) 0 else s1

/-- Once a second, a fabric die's discards against the configured rate (spec/12 R377). -/
def State.fabricRate (s : State) (f : Nat) : State :=
  let x := s.fd f
  let st := s.rg (nodeFd f) FD_STALE_INC
  let po := s.rg (nodeFd f) FD_POLICE_DROP
  let lim := match s.pcd.conf with | some c => c.polRate | none => 1000
  let s1 := if x.staleBase = st ∧ x.polBase = po ∧ x.staleAcc = 0 ∧ x.polAcc = 0 then s
    else s.setFd f { x with staleBase := st, polBase := po, staleAcc := 0, polAcc := 0 }
  if x.staleBase + lim < st + x.staleAcc ∨ x.polBase + lim < po + x.polAcc then s1.raise (nodeFd f) 0x1180 (unitDie (nodeFd f)) 0 else s1

/-- The checks of a second. -/
def State.secondChecks (s : State) : State :=
  (List.range 16).foldl (fun t r =>
    let t1 := if t.regionOn r then (List.range 36).foldl (fun u o => u.routerRate r o) t else t
    if t1.fdOn r then t1.fabricRate r else t1) s

/-- One PTC tick of the panel: nothing passes without its standby supply. -/
def State.tick (s : State) : State :=
  if s.pcd.standby && !s.pcd.nvmIso then
    let s1 := s.timeTick
    let s2 := (List.range 16).foldl (fun t p => t.partTick p) s1
    let s3 := s2.fds.foldl (fun t e =>
      let u := if e.2.txq.isEmpty then t else t.txFlush e.1
      if e.2.rxOff.isEmpty then u else u.rxSync e.1) (if s2.pcd.hostTxq.isEmpty then s2 else s2.hostFlush)
    if s.ptc16 / 16000000000 < s3.ptc16 / 16000000000 then s3.secondChecks else s3
  else s

end Sys2Proof.Machine
end

