-- ==== Sys2Proof/Machine/Arbiter.lean ====
section
/-! DEFINITION. The bank-pair cycles that no scheduled access uses: which waiting request takes one, and the repair of corrected words (spec/07 R190,
R199, R204). A grant is of the fabric cycle to come; the tick ends it. -/

namespace Sys2Proof.Machine

/-- Line accesses that a class makes in a fabric cycle, at most (spec/07 R199). -/
def classLimit (cls : Nat) : Nat := if cls = 0 then 4 else 1

/-- A bank pair of a die is free in the cycle to come: no place uses it, and no grant has taken it (spec/07 R190, R199). -/
def State.pairFree (s : State) (d pair : Nat) : Bool :=
  !(s.die d).spad.grants.any (fun g => decide (g.1 = pair)) && !(s.pairsComing d).contains pair

/-- Grants that a class has had in the cycle to come. -/
def Spad.granted (x : Spad) (cls : Nat) : Nat := (x.grants.filter (fun g => decide (g.2 = cls))).length

/-- The line of a request that lies in a bank pair and comes first. -/
def State.lineIn (s : State) (d pair : Nat) (r : SpadReq) : Option Nat := r.left.find? (fun a => decide (s.pairOf d a = pair))

/-- The request that wins a bank pair: of the classes that may still access in the cycle the lowest, and in it the oldest; its index, itself, and
its line (spec/07 R199). -/
def State.spadWinner (s : State) (d pair : Nat) : Option (Nat × SpadReq × Nat) :=
  let x := (s.die d).spad
  let open' := (x.reqs.zipIdx).filterMap (fun e =>
    if x.granted e.1.cls < classLimit e.1.cls then (s.lineIn d pair e.1).map (fun a => (e.2, e.1, a)) else none)
  open'.foldl (fun (b : Option (Nat × SpadReq × Nat)) e =>
    match b with
    | none => some e
    | some c => if e.2.1.cls < c.2.1.cls then some e else b) none

/-- Records a grant. -/
def State.spadGrant (s : State) (d pair cls : Nat) : State :=
  s.modDie d (fun x => { x with spad := { x.spad with grants := x.spad.grants ++ [(pair, cls)] } })

/-- NONSCHED_ACCESS_GRANT: the winner of a free bank pair makes its access. -/
def State.nonschedGrant (s : State) (d pair : Nat) : State :=
  if s.coreOn d && s.pairFree d pair then
    match s.spadWinner d pair with
    | some (i, r, a) => (s.spadGrant d pair r.cls).spadServe d i r a
    | none => s
  else s

/-- Writes back the corrected word that a bank pair's repair holds (spec/07 R204). -/
def State.repairNow (s : State) (d pair : Nat) : State :=
  match sfind (s.die d).spad.repair pair with
  | some n =>
    (s.bumpPerf d CD_SPAD_ACCESS 1).modDie d (fun x =>
      { x with spad := { x.spad with repair := serase x.spad.repair pair, errs := serase x.spad.errs (n - 1) } })
  | none => s

/-- ECC_REPAIR_WRITEBACK: class 3 wins a free bank pair that no other request wants (spec/07 R199, R204). -/
def State.repairGrant (s : State) (d pair : Nat) : State :=
  if s.coreOn d && s.pairFree d pair && (s.spadWinner d pair).isNone && decide ((s.die d).spad.granted 3 < classLimit 3) &&
      (sfind (s.die d).spad.repair pair).isSome then
    (s.spadGrant d pair 3).repairNow d pair
  else s

/-- NONSCHED_ACCESS_GRANT (spec/07 R199). -/
def execNonschedAccessGrant (die pair : Nat) (s : State) : Host.Outcome State Fault Refusal :=
  guard (Instr.nonschedAccessGrant die pair).wf (s.nonschedGrant die pair)
/-- ECC_REPAIR_WRITEBACK (spec/07 R204). -/
def execEccRepairWriteback (die pair : Nat) (s : State) : Host.Outcome State Fault Refusal :=
  guard (Instr.eccRepairWriteback die pair).wf (s.repairGrant die pair)

end Sys2Proof.Machine
end

