-- ==== Sys2Proof/Machine/Scores.lean ====
section
/-! DEFINITION. The memory of the S-cores: their caches, their accesses to HBM and to site windows, Sv48 translation and the control and status
registers (spec/06 R175-R181, R186-R188). What RISC-V gives and spec/06 only names is PRESUMED as RISC-V has it (log entry 81). -/

namespace Sys2Proof.Machine

-- Caches (spec/06 R176, R180, R187, R188) -----------------------------------------------------------------------------------

/-- How an S-core's access ended: a value (0 for a write), a wait for a tracker entry with nothing done, a read that a scratchpad has queued, or
a failure. -/
inductive ScRes where
  | val (v : Nat)
  | wait
  | queued
  | fail
deriving DecidableEq, Repr, Inhabited

/-- Lines of the shared second-level cache, and of an instruction or data cache (spec/06 R176). -/
def l2Lines : Nat := 32768
def l1Lines : Nat := 1024

/-- A line of a list of lines. -/
def cacheLine (ls : List CLine) (a : Nat) : Option CLine := ls.find? (fun l => decide (l.addr = a))
def cacheSet (ls : List CLine) (l : CLine) : List CLine := ls.map (fun y => if y.addr = l.addr then l else y)

/-- The memory die of a line has a class 2 tracker entry for a refill or a write-back of an S-core cache, or there is no such die (spec/10 R285). -/
def State.refillRoom (s : State) (p a : Nat) : Bool :=
  match s.hbmMap p a with
  | some (m, _) => (s.md m).holdAt.isNone && ((s.md m).freeTx 2).isSome
  | none => true

/-- Makes room for one line in the shared cache; false where the line that leaves must wait. Which line leaves is not stated (log entry 6). -/
def State.l2Room (s : State) (d p : Nat) : State × Bool :=
  let l := (s.die d).l2
  if l.length < l2Lines then (s, true)
  else
    let k := s.freeVal % l.length
    match l[k]? with
    | some x =>
      if x.dirty && !s.refillRoom p x.addr then (s, false)
      else ((s.takeFree.lineBack p d x).modDie d (fun y => { y with l2 := y.l2.eraseIdx k }), true)
    | none => (s, true)

/-- Brings a line into the shared cache, from HBM when absent (spec/10 R280, R301). -/
def State.l2Fill (s : State) (d p a : Nat) : State × ScRes :=
  if (cacheLine (s.die d).l2 a).isSome then (s, .val 0)
  else if !s.refillRoom p a then (s, .wait)
  else
    let q := s.l2Room d p
    if !q.2 then (q.1, .wait)
    else
      let r := q.1.hbmRead p a 64
      if r.2.1 = 0 then (r.1.modDie d (fun x => { x with l2 := x.l2 ++ [({ addr := a, dirty := false, bytes := r.2.2, errs := [] } : CLine)] }), .val 0)
      else if r.2.1 = 2 then
        match s.hbmMap p a with
        | some (m, _) =>
          (r.1.raise (nodeMd m) 0x2200 (unitStack m) (jobMark (match s.running p with | some (_, c) => c.job | none => 65536)), .fail)
        | none => (r.1, .fail)
      else (r.1, .fail)

/-- The instruction cache or the data cache of an S-core. -/
def SCore.l1 (y : SCore) (code : Bool) : List CLine := if code then y.ic else y.dc
def SCore.setL1 (y : SCore) (code : Bool) (l : List CLine) : SCore := if code then { y with ic := l } else { y with dc := l }
/-- Array number of a cache (spec/15 R438): 178-181 the instruction caches, 182-185 the data caches, 186 the shared one (log entry 81). -/
def l1Array (c : Nat) (code : Bool) : Nat := (if code then 178 else 182) + c

/-- Brings a line into a first-level cache through the shared one. -/
def State.l1Fill (s : State) (d c p a : Nat) (code : Bool) : State × ScRes :=
  if (cacheLine ((s.sc d c).l1 code) a).isSome then (s, .val 0)
  else
    let r := s.l2Fill d p a
    match r.2, cacheLine (r.1.die d).l2 a with
    | .val _, some l =>
      let j := r.1.cacheJudge d 186 l 0 64
      if j.2.2 then (j.1, .fail)
      else
        let t := j.1.modDie d (fun x => { x with l2 := cacheSet x.l2 j.2.1 })
        let y := t.sc d c
        let full := decide (l1Lines ≤ (y.l1 code).length)
        let old := if full then (y.l1 code).eraseIdx (t.freeVal % (y.l1 code).length) else y.l1 code
        ((if full then t.takeFree else t).setSc d c (y.setL1 code (old ++ [{ j.2.1 with dirty := false, errs := [] }])), .val 0)
    | .val _, none => (r.1, .fail)
    | o, _ => (r.1, o)

/-- Reads bytes of one line through a first-level cache. -/
def State.l1Line (s : State) (d c p a n : Nat) (code : Bool) : State × ScRes :=
  let ln := a / 64 * 64
  let r := s.l1Fill d c p ln code
  match r.2, cacheLine ((r.1.sc d c).l1 code) ln with
  | .val _, some l =>
    let j := r.1.cacheJudge d (l1Array c code) l (a - ln) n
    let t := j.1.setSc d c ((j.1.sc d c).setL1 code (cacheSet ((j.1.sc d c).l1 code) j.2.1))
    if j.2.2 then (t, .fail) else (t, .val (leVal ((j.2.1.bytes.drop (a - ln)).take n)))
  | .val _, none => (r.1, .fail)
  | o, _ => (r.1, o)

/-- Reads n bytes of HBM through a first-level cache, line by line. -/
def State.cacheRead (s : State) (d c p a n : Nat) (code : Bool) : State × ScRes :=
  (linesOf a n).foldl (fun (st : State × ScRes) ln =>
    match st.2 with
    | .val v =>
      let lo := max a ln
      let r := st.1.l1Line d c p lo (min (a + n) (ln + 64) - lo) code
      (r.1, match r.2 with | .val w => .val (v + w * 2 ^ (8 * (lo - a))) | o => o)
    | _ => st) (s, .val 0)

/-- Bytes a to a + n - 1 and the bytes of a reservation meet in a line. -/
def sameLine (a n : Nat) (q : Nat × Nat) : Bool := (linesOf a n).any (fun l => (linesOf q.1 q.2).contains l)

/-- Writes n bytes of HBM: through the data cache to the shared one, every data cache's copy with it, so that the S-cores of a die stay coherent
(spec/06 R176); reservations of the other S-cores on its lines end. The write waits, whole, for a line that has no tracker entry. -/
def State.cacheWrite (s : State) (d c p a : Nat) (bs : List Byte) : State × ScRes :=
  let n := bs.length
  let r := (linesOf a n).foldl (fun (st : State × ScRes) ln => match st.2 with | .val _ => st.1.l2Fill d p ln | _ => st) (s, .val 0)
  match r.2 with
  | .val _ =>
    let part := fun (ln : Nat) => (bs.take (ln + 64 - a)).drop (ln - a)
    let upd := fun (dirty : Bool) (l : CLine) =>
      if (linesOf a n).contains l.addr then { l.put (a - l.addr) (part l.addr) with dirty := dirty } else l
    (r.1.modDie d (fun x => { x with
      l2 := x.l2.map (upd true),
      scs := x.scs.map (fun e => (e.1, { e.2 with
        dc := e.2.dc.map (upd false),
        lr := if e.1 ≠ c ∧ (match e.2.lr with | some q => sameLine a n q | none => false) = true then none else e.2.lr })) }), .val 0)
  | o => (r.1, o)

/-- Takes a line out of the data caches of a die, and out of the shared cache. -/
def Die.dropLine (x : Die) (a : Nat) : Die :=
  { x with l2 := x.l2.filter (fun y => decide (y.addr ≠ a)),
           scs := x.scs.map (fun e => (e.1, { e.2 with dc := e.2.dc.filter (fun y => decide (y.addr ≠ a)) })) }

/-- A cache-block operation on a line of HBM (spec/06 R175, R180). -/
def State.cboLine (s : State) (d p a : Nat) (kind : ScKind) : State × ScRes :=
  let back := fun (f : State → State) =>
    match cacheLine (s.die d).l2 a with
    | none => (f s, ScRes.val 0)
    | some l => if l.dirty && !s.refillRoom p a then (s, .wait) else (f (s.lineBack p d l), .val 0)
  match kind with
  | .cboClean => back (fun t => t.modDie d (fun x => { x with l2 := x.l2.map (fun y => if y.addr = a then { y with dirty := false } else y) }))
  | .cboFlush => back (fun t => t.modDie d (fun x => x.dropLine a))
  | .cboInval => (s.modDie d (fun x => x.dropLine a), .val 0)
  | _ => (s, .val 0)

-- Accesses at a physical address (spec/06 R178, R179, R181) -----------------------------------------------------------------

/-- Panel address of an S-core physical address (spec/06 R178). -/
def panelAddr (pa : Nat) : Nat := 2 ^ 60 * (pa / 2 ^ 52) + pa % 2 ^ 52

/-- An S-core's read at a panel address: its own data, with the register it goes to, or an instruction or a page table entry, which only HBM
holds (log entry 81). -/
def State.readPanel (s : State) (d c a n : Nat) (code : Bool) (dst : Option (Nat × Bool)) : State × ScRes :=
  match s.target (.score d c) a with
  | .hbm p =>
    if s.hbmSize p < a + n then (s, .fail)
    else if s.keptRange p a n then (s.refuseBy (.score d c), .val 0)
    else s.cacheRead d c p a n code
  | .window t off =>
    match dst with
    | some (rd, sx) =>
      let r := s.winRead (.score d c) t off n (some (d, c, rd, sx))
      (r.1, match r.2 with | .value v => .val v | .wait => .queued | .refused => .val 0 | .bad => .fail)
    | none => (s, .fail)
  | .unbacked => (s.refuseBy (.score d c), .val 0)
  | _ => (s, .fail)

/-- The same at a physical address. -/
def State.physRead (s : State) (d c pa n : Nat) (code : Bool) (dst : Option (Nat × Bool)) : State × ScRes :=
  s.readPanel d c (panelAddr pa) n code dst

/-- An S-core's write at a panel address. -/
def State.writePanel (s : State) (d c a n v : Nat) : State × ScRes :=
  match s.target (.score d c) a with
  | .hbm p =>
    if s.hbmSize p < a + n then (s, .fail)
    else if s.keptRange p a n then (s.refuseBy (.score d c), .val 0)
    else s.cacheWrite d c p a (leBytes n v)
  | .window t off => (s.winWrite (.score d c) t off n v (some (d, c, 0, false)), .val 0)
  | .unbacked => (s.refuseBy (.score d c), .val 0)
  | _ => (s, .fail)

/-- The same at a physical address. -/
def State.physWrite (s : State) (d c pa n v : Nat) : State × ScRes := s.writePanel d c (panelAddr pa) n v

/-- A cache-block operation on the line at a panel address; outside HBM it has nothing to act on. -/
def State.cboPanel (s : State) (d c a : Nat) (kind : ScKind) : State × ScRes :=
  match s.target (.score d c) a with
  | .hbm p =>
    if s.hbmSize p < a + 64 then (s, .fail) else if s.keptRange p a 64 then (s.refuseBy (.score d c), .val 0) else s.cboLine d p a kind
  | .window _ _ => (s, .val 0)
  | .unbacked => (s.refuseBy (.score d c), .val 0)
  | _ => (s, .fail)

/-- The same at a physical address. -/
def State.physCbo (s : State) (d c pa : Nat) (kind : ScKind) : State × ScRes := s.cboPanel d c (64 * (panelAddr pa / 64)) kind

/-- One access of an S-core at a physical address: of an integer register where it is a load or a store (spec/06 R179). Its pc stays: the row
names no instruction. -/
def State.scAccess (s : State) (d c : Nat) (kind : ScKind) (pa : BitVec 56) (width : Nat) (reg : BitVec 5) : State :=
  if !s.scReady d c then s
  else match kind with
    | .load sx =>
      let r := s.physRead d c pa.toNat width false (some (reg.toNat, sx))
      match r.2 with
      | .val v => r.1.setSc d c ((r.1.sc d c).setX reg.toNat (extend sx width v))
      | .wait => r.1
      | .queued => r.1
      | .fail => r.1.scTrapAt d c .loadAccessFault pa.toNat
    | .store =>
      let r := s.physWrite d c pa.toNat width ((s.sc d c).getX reg.toNat).toNat
      if r.2 = .fail then r.1.scTrapAt d c .storeAccessFault pa.toNat else r.1
    | k =>
      let r := s.physCbo d c pa.toNat k
      if r.2 = .fail then r.1.scTrapAt d c .storeAccessFault pa.toNat else r.1

-- Control and status registers (spec/06 R175-R177, R186) --------------------------------------------------------------------

/-- The supervisor external interrupt of an S-core: vgie and a set bit of vgpend (spec/06 R186). -/
def State.vgInterrupt (s : State) (d c : Nat) : Bool := decide ((s.die d).vgpend ≠ 0) && ((s.sc d c).vgieFlip != decide (c = 0))

/-- Bits of mstatus that hold what is written: SIE, MIE, SPIE, MPIE, SPP, MPP, FS, MPRV, SUM, MXR, TVM, TW, TSR; those that sstatus shows. -/
def mstatusMask : Nat := 0x7E79AA
def sstatusMask : Nat := 0xC6122

/-- mstatus as read: UXL and SXL are 2, SD follows FS. -/
def SCore.mstatus (y : SCore) : Nat := y.csr 0x300 ||| 0xA00000000 ||| (b2n (decide (bits (y.csr 0x300) 14 13 = 3)) * 2 ^ 63)

/-- A control and status register as an S-core reads it; none where there is none. The time CSR is the die's panel time in nanoseconds (R177);
cycle and instret do not exist (R175). -/
def State.csrRead (s : State) (d c k : Nat) : Option Nat :=
  let y := s.sc d c
  if k = 0x001 then some (bits (y.csr 3) 4 0)
  else if k = 0x002 then some (bits (y.csr 3) 7 5)
  else if k = 0x100 then some (y.mstatus &&& (sstatusMask + 0x200000000 + 2 ^ 63))
  else if k = 0x300 then some y.mstatus
  else if k = 0x301 then some (0x8000000000000000 + 0x14112D)
  else if k = 0x104 then some (y.csr 0x304 &&& y.csr 0x303)
  else if k = 0x144 ∨ k = 0x344 then
    let v := y.csr 0x344 ||| (b2n (s.vgInterrupt d c) * 2 ^ 9)
    some (if k = 0x144 then v &&& y.csr 0x303 else v)
  else if k = 0xC01 then some (s.localPtc16 d / 16 % 2 ^ 64)
  else if k = 0xF14 then some (4 * (s.nodeSite d).getD 0 + c)
  else if k = 0x5C0 then some (s.die d).vgpend
  else if k = 0x5C1 then some (b2n (y.vgieFlip != decide (c = 0)))
  else if k = 0x5C2 then some y.vgbartmo.toNat
  else if k = 0x5C3 then some (b2n y.vgfx)
  else if k = 0xCC0 then some y.vgsrc.toNat
  else if [0xF11, 0xF12, 0xF13, 0xF15, 0xB00, 0xB02, 0x320].contains k then some 0
  else if [0x003, 0x105, 0x106, 0x10A, 0x140, 0x141, 0x142, 0x143, 0x180, 0x302, 0x303, 0x304, 0x305, 0x306, 0x30A, 0x340, 0x341, 0x342,
    0x343].contains k then some (y.csr k)
  else none

/-- Bits of a control and status register that hold what is written. -/
def csrMask (k : Nat) : Nat :=
  if k = 0x003 then 0xFF
  else if k = 0x105 ∨ k = 0x305 then 2 ^ 64 - 3
  else if k = 0x106 ∨ k = 0x306 then 2
  else if k = 0x10A ∨ k = 0x30A then 0xF1
  else if k = 0x141 ∨ k = 0x341 then 2 ^ 64 - 2
  else if k = 0x302 then 0xB3FF
  else if k = 0x303 then 0x222
  else if k = 0x304 then 0xAAA
  else if k = 0x344 then 0x222
  else 2 ^ 64 - 1

/-- Writes a control and status register. -/
def State.csrWrite (s : State) (d c k v : Nat) : State :=
  let y := s.sc d c
  let put := fun (y : SCore) => s.setSc d c y
  let part := fun (k m : Nat) => y.setCsr k ((y.csr k - (y.csr k &&& m)) ||| (v &&& m))
  if k = 0x001 then put (y.setCsr 3 (setBits (y.csr 3) 4 0 v))
  else if k = 0x002 then put (y.setCsr 3 (setBits (y.csr 3) 7 5 v))
  else if k = 0x100 then put (part 0x300 sstatusMask)
  else if k = 0x300 then
    put (part 0x300 (if bits v 12 11 = 2 then mstatusMask - 0x1800 else mstatusMask))
  else if k = 0x104 then put (part 0x304 (y.csr 0x303))
  else if k = 0x144 then put (part 0x344 (y.csr 0x303 &&& 2))
  else if k = 0x180 then (if bits v 63 60 = 0 ∨ bits v 63 60 = 9 then put (y.setCsr k (v % 2 ^ 64)) else s)
  else if k = 0x5C0 then s.modDie d (fun x => { x with vgpend := v % 2 ^ 25 })
  else if k = 0x5C1 then put { y with vgieFlip := v.testBit 0 != decide (c = 0) }
  else if k = 0x5C2 then put { y with vgbartmo := BitVec.ofNat 32 v }
  else if k = 0x5C3 then put { y with vgfx := v.testBit 0 }
  else if [0x301, 0xB00, 0xB02, 0x320].contains k then s
  else put (part k (csrMask k))

/-- A mode may reach a control and status register: its number names the lowest one, and time is open below machine mode where the counter
enables say so. satp is closed to supervisor mode under TVM, fcsr while FS is off. -/
def SCore.csrOpen (y : SCore) (k : Nat) : Bool :=
  decide (bits k 9 8 ≤ y.mode) &&
  (decide (k ≠ 0xC01) || decide (y.mode = 3) || ((y.csr 0x306).testBit 1 && (decide (y.mode = 1) || (y.csr 0x106).testBit 1))) &&
  !(decide (k = 0x180) && decide (y.mode = 1) && (y.csr 0x300).testBit 20) &&
  !(decide (k ≤ 3) && decide (bits (y.csr 0x300) 14 13 = 0))

-- Sv48 (spec/06 R175) ---------------------------------------------------------------------------------------------------------

/-- What a translation gives: a physical address, a wait, a page fault, or an access fault. -/
inductive VaRes where
  | pa (a : Nat)
  | wait
  | pageFault
  | accessFault
deriving DecidableEq, Repr, Inhabited

/-- Kind of an access that is translated: instruction fetch, read, write. -/
inductive VaKind where
  | fetch
  | read
  | write
deriving DecidableEq, Repr, Inhabited

/-- A leaf page table entry permits an access in a mode. -/
def pteAllows (st mode pte : Nat) (k : VaKind) : Bool :=
  let user := pte.testBit 4
  let modeOk := if mode = 0 then user else !user || (st.testBit 18 && decide (k ≠ .fetch))
  modeOk && pte.testBit 6 && (match k with
    | .fetch => pte.testBit 3
    | .read => pte.testBit 1 || (st.testBit 19 && pte.testBit 3)
    | .write => pte.testBit 2 && pte.testBit 7)

/-- Walks the page tables from a level: an entry whose A, or for a write D, is clear gives a page fault. -/
def State.walk (s : State) (d c st mode va : Nat) (k : VaKind) : Nat → Nat → State × VaRes
  | 0, _ => (s, .pageFault)
  | i + 1, ppn =>
    let r := s.physRead d c (4096 * ppn + 8 * bits va (20 + 9 * i) (12 + 9 * i)) 8 false none
    match r.2 with
    | .wait => (r.1, .wait)
    | .val pte =>
      if !pte.testBit 0 || (!pte.testBit 1 && pte.testBit 2) || decide (bits pte 63 54 ≠ 0) then (r.1, .pageFault)
      else if pte.testBit 1 || pte.testBit 3 then
        let low := 2 ^ (9 * i)
        if bits pte 53 10 % low ≠ 0 ∨ pteAllows st mode pte k = false then (r.1, .pageFault)
        else (r.1, .pa (4096 * bits pte 53 10 + va % (4096 * low)))
      else if bits pte 7 4 ≠ 0 ∧ (pte.testBit 4 || pte.testBit 6 || pte.testBit 7) = true then (r.1, .pageFault)
      else r.1.walk d c st mode va k i (bits pte 53 10)
    | _ => (r.1, .accessFault)

/-- Translates an address: by satp below machine mode, in the mode that MPRV names for data. -/
def State.translate (s : State) (d c : Nat) (k : VaKind) (va : Nat) : State × VaRes :=
  let y := s.sc d c
  let st := y.csr 0x300
  let mode := if k ≠ .fetch ∧ st.testBit 17 = true then bits st 12 11 else y.mode
  if mode = 3 ∨ bits (y.csr 0x180) 63 60 = 0 then (s, if va < 2 ^ 56 then .pa va else .accessFault)
  else if bits va 63 47 ≠ 0 ∧ bits va 63 47 ≠ 2 ^ 17 - 1 then (s, .pageFault)
  else s.walk d c st mode va k 4 (bits (y.csr 0x180) 43 0)

end Sys2Proof.Machine
end

