-- ==== Sys2Proof/Machine/Riscv.lean ====
section
/-! DEFINITION. The instructions of the S-cores: RV64GC, Zicbom and the place-control and fabric instructions (spec/06 R175, R184). spec/06 names
the RISC-V extensions and gives none of their instructions: what they do is PRESUMED as RISC-V has it (log entry 81). -/

namespace Sys2Proof.Machine

-- Compressed instructions ---------------------------------------------------------------------------------------------------

/-- A 32-bit instruction of each format from its fields. -/
def rvR (op f7 rs2 rs1 f3 rd : Nat) : Nat := f7 * 2 ^ 25 + rs2 * 2 ^ 20 + rs1 * 2 ^ 15 + f3 * 2 ^ 12 + rd * 2 ^ 7 + op
def rvI (op imm rs1 f3 rd : Nat) : Nat := imm % 4096 * 2 ^ 20 + rs1 * 2 ^ 15 + f3 * 2 ^ 12 + rd * 2 ^ 7 + op
def rvS (op imm rs2 rs1 f3 : Nat) : Nat := rvR op (bits imm 11 5) rs2 rs1 f3 (bits imm 4 0)
def rvB (imm rs2 rs1 f3 : Nat) : Nat := rvR 0x63 (bits imm 12 12 * 64 + bits imm 10 5) rs2 rs1 f3 (bits imm 4 1 * 2 + bits imm 11 11)
def rvJ (imm rd : Nat) : Nat :=
  bits imm 20 20 * 2 ^ 31 + bits imm 10 1 * 2 ^ 21 + bits imm 11 11 * 2 ^ 20 + bits imm 19 12 * 2 ^ 12 + rd * 2 ^ 7 + 0x6F

/-- A field of `h` from bit `lsb` upward, n bits, put at bit `to`. -/
def rvMove (h lsb n dst : Nat) : Nat := bits h (lsb + n - 1) lsb * 2 ^ dst
/-- The low w bits of a number, sign-extended to 64. -/
def rvSext (w v : Nat) : Nat := toTwos 64 (signedOf w v)

/-- Quadrant 0 of the compressed instructions. -/
def rvc0 (h : Nat) : Option Nat :=
  let rd := 8 + bits h 4 2
  let rs1 := 8 + bits h 9 7
  let wide := rvMove h 10 3 3 + rvMove h 5 2 6
  let word := rvMove h 10 3 3 + rvMove h 6 1 2 + rvMove h 5 1 6
  let sp := rvMove h 11 2 4 + rvMove h 7 4 6 + rvMove h 6 1 2 + rvMove h 5 1 3
  match bits h 15 13 with
  | 0 => if sp = 0 then none else some (rvI 0x13 sp 2 0 rd)
  | 1 => some (rvI 0x07 wide rs1 3 rd)
  | 2 => some (rvI 0x03 word rs1 2 rd)
  | 3 => some (rvI 0x03 wide rs1 3 rd)
  | 5 => some (rvS 0x27 wide rd rs1 3)
  | 6 => some (rvS 0x23 word rd rs1 2)
  | 7 => some (rvS 0x23 wide rd rs1 3)
  | _ => none

/-- Quadrant 1. -/
def rvc1 (h : Nat) : Option Nat :=
  let rd := bits h 11 7
  let q := 8 + bits h 9 7
  let r2 := 8 + bits h 4 2
  let sh := rvMove h 12 1 5 + bits h 6 2
  let imm := rvSext 6 sh
  let sp := rvSext 10 (rvMove h 12 1 9 + rvMove h 6 1 4 + rvMove h 5 1 6 + rvMove h 3 2 7 + rvMove h 2 1 5)
  let jmp := rvSext 12 (rvMove h 12 1 11 + rvMove h 11 1 4 + rvMove h 9 2 8 + rvMove h 8 1 10 + rvMove h 7 1 6 + rvMove h 6 1 7 + rvMove h 3 3 1 +
    rvMove h 2 1 5)
  let br := rvSext 9 (rvMove h 12 1 8 + rvMove h 10 2 3 + rvMove h 5 2 6 + rvMove h 3 2 1 + rvMove h 2 1 5)
  match bits h 15 13 with
  | 0 => some (rvI 0x13 imm rd 0 rd)
  | 1 => if rd = 0 then none else some (rvI 0x1B imm rd 0 rd)
  | 2 => some (rvI 0x13 imm 0 0 rd)
  | 3 =>
    if sh = 0 then none
    else if rd = 2 then some (rvI 0x13 sp 2 0 2)
    else some (imm % 2 ^ 20 * 2 ^ 12 + rd * 2 ^ 7 + 0x37)
  | 4 =>
    match bits h 11 10 with
    | 0 => some (rvI 0x13 sh q 5 q)
    | 1 => some (rvI 0x13 (0x400 + sh) q 5 q)
    | 2 => some (rvI 0x13 imm q 7 q)
    | _ =>
      match h.testBit 12, bits h 6 5 with
      | false, 0 => some (rvR 0x33 0x20 r2 q 0 q)
      | false, 1 => some (rvR 0x33 0 r2 q 4 q)
      | false, 2 => some (rvR 0x33 0 r2 q 6 q)
      | false, _ => some (rvR 0x33 0 r2 q 7 q)
      | true, 0 => some (rvR 0x3B 0x20 r2 q 0 q)
      | true, 1 => some (rvR 0x3B 0 r2 q 0 q)
      | true, _ => none
  | 5 => some (rvJ jmp 0)
  | 6 => some (rvB br 0 q 0)
  | _ => some (rvB br 0 q 1)

/-- Quadrant 2. -/
def rvc2 (h : Nat) : Option Nat :=
  let rd := bits h 11 7
  let r2 := bits h 6 2
  let sh := rvMove h 12 1 5 + bits h 6 2
  let wide := rvMove h 12 1 5 + rvMove h 5 2 3 + rvMove h 2 3 6
  let word := rvMove h 12 1 5 + rvMove h 4 3 2 + rvMove h 2 2 6
  let sWide := rvMove h 10 3 3 + rvMove h 7 3 6
  let sWord := rvMove h 9 4 2 + rvMove h 7 2 6
  match bits h 15 13 with
  | 0 => some (rvI 0x13 sh rd 1 rd)
  | 1 => some (rvI 0x07 wide 2 3 rd)
  | 2 => if rd = 0 then none else some (rvI 0x03 word 2 2 rd)
  | 3 => if rd = 0 then none else some (rvI 0x03 wide 2 3 rd)
  | 4 =>
    if r2 = 0 then
      (if rd = 0 then (if h.testBit 12 then some 0x100073 else none)
       else some (rvI 0x67 0 rd 0 (b2n (h.testBit 12))))
    else some (rvR 0x33 0 r2 (if h.testBit 12 then rd else 0) 0 rd)
  | 5 => some (rvS 0x27 sWide r2 2 3)
  | 6 => some (rvS 0x23 sWord r2 2 2)
  | _ => some (rvS 0x23 sWide r2 2 3)

/-- The instruction that a compressed one stands for; none where it is reserved. -/
def rvExpand (h : Nat) : Option Nat :=
  if h % 2 ^ 16 = 0 then none
  else match h % 4 with
    | 0 => rvc0 h
    | 1 => rvc1 h
    | _ => rvc2 h

-- Integers ------------------------------------------------------------------------------------------------------------------

/-- The base operations by funct3; `alt` picks subtraction and the arithmetic shift. -/
def rvAlu {n : Nat} (f3 : Nat) (alt : Bool) (a b : BitVec n) : BitVec n :=
  let sh := b.toNat % n
  match f3 with
  | 0 => if alt then a - b else a + b
  | 1 => a <<< sh
  | 2 => BitVec.ofNat n (b2n (BitVec.slt a b))
  | 3 => BitVec.ofNat n (b2n (BitVec.ult a b))
  | 4 => a ^^^ b
  | 5 => if alt then a.sshiftRight sh else a >>> sh
  | 6 => a ||| b
  | _ => a &&& b

/-- Multiplication, division and remainder by funct3. -/
def rvMul {n : Nat} (f3 : Nat) (a b : BitVec n) : BitVec n :=
  let high := fun (x y : Int) => BitVec.ofInt n (x * y / (2 ^ n : Nat))
  match f3 with
  | 0 => a * b
  | 1 => high a.toInt b.toInt
  | 2 => high a.toInt b.toNat
  | 3 => high a.toNat b.toNat
  | 4 => if b = 0#n then BitVec.allOnes n else a.sdiv b
  | 5 => if b = 0#n then BitVec.allOnes n else a / b
  | 6 => if b = 0#n then a else a.srem b
  | _ => if b = 0#n then a else a % b

/-- The result of a register-register or register-immediate instruction; none where it is reserved. -/
def rvOp (op f3 f7 : Nat) (a b : W64) : Option W64 :=
  let w := fun (x : BitVec 32) => x.signExtend 64
  let a4 := a.truncate 32
  let b4 := b.truncate 32
  if op = 0x33 then
    if f7 = 1 then some (rvMul f3 a b)
    else if f7 = 0 ∨ (f7 = 0x20 ∧ (f3 = 0 ∨ f3 = 5)) then some (rvAlu f3 (decide (f7 = 0x20)) a b) else none
  else if op = 0x3B then
    if f7 = 1 then (if f3 = 0 ∨ 4 ≤ f3 then some (w (rvMul f3 a4 b4)) else none)
    else if (f7 = 0 ∧ (f3 = 0 ∨ f3 = 1 ∨ f3 = 5)) ∨ (f7 = 0x20 ∧ (f3 = 0 ∨ f3 = 5)) then some (w (rvAlu f3 (decide (f7 = 0x20)) a4 b4)) else none
  else if op = 0x13 then
    if f3 = 1 then (if f7 / 2 = 0 then some (rvAlu 1 false a b) else none)
    else if f3 = 5 then (if f7 / 2 = 0 ∨ f7 / 2 = 0x10 then some (rvAlu 5 (decide (f7 / 2 = 0x10)) a b) else none)
    else some (rvAlu f3 false a b)
  else
    if f3 = 0 then some (w (a4 + b4))
    else if f3 = 1 ∧ f7 = 0 then some (w (rvAlu 1 false a4 b4))
    else if f3 = 5 ∧ (f7 = 0 ∨ f7 = 0x20) then some (w (rvAlu 5 (decide (f7 = 0x20)) a4 b4)) else none

/-- A branch is taken; none where funct3 is reserved. -/
def rvTaken (f3 : Nat) (a b : W64) : Option Bool :=
  match f3 with
  | 0 => some (decide (a = b))
  | 1 => some (decide (a ≠ b))
  | 4 => some (BitVec.slt a b)
  | 5 => some (!BitVec.slt a b)
  | 6 => some (BitVec.ult a b)
  | 7 => some (!BitVec.ult a b)
  | _ => none

-- Floating point (spec/02: scalar floating point follows RISC-V) --------------------------------------------------------------

/-- m · 2^e rounded to a multiple of 2^q: 0 to nearest even, 1 toward zero, 2 down, 3 up, 4 to nearest, ties away. -/
def rvGrid (rm : Nat) (neg : Bool) (m : Nat) (e q : Int) : Nat :=
  if q ≤ e then m <<< (e - q).toNat
  else
    let k := (q - e).toNat
    let t := m >>> k
    let rem := m % 2 ^ k
    let up := match rm with
      | 0 => decide (2 ^ k < 2 * rem) || (decide (2 * rem = 2 ^ k) && decide (t % 2 = 1))
      | 1 => false
      | 2 => neg && decide (rem ≠ 0)
      | 3 => !neg && decide (rem ≠ 0)
      | _ => decide (2 ^ k ≤ 2 * rem)
    if up then t + 1 else t

/-- A value in a format, and the exception flags: 1 inexact, 2 underflow (tininess after rounding), 4 overflow. -/
def rvRound (f : FFmt) (rm : Nat) : Val → Nat × Nat
  | .nan => (f.nanCode, 0)
  | .inf n => (f.signBit n + f.infCode, 0)
  | .fin n m e =>
    if m = 0 then (f.signBit n, 0)
    else
      let emin : Int := 1 - (f.bias : Int)
      let q1 := topExp m e - f.mb
      let q := max q1 (emin - f.mb)
      let mm := rvGrid rm n m e q
      let code := codeOfGrid f mm q
      let inexact := !exactAt m e q
      let m1 := rvGrid rm n m e q1
      let tiny := decide (topExp m1 q1 < emin)
      if f.infCode ≤ code then
        (f.signBit n + (if rm = 0 ∨ rm = 4 ∨ (rm = 2 ∧ n = true) ∨ (rm = 3 ∧ n = false) then f.infCode else f.maxCode), 5)
      else (f.signBit n + code, b2n inexact + 2 * b2n (inexact && tiny))

/-- A code is a signalling NaN. -/
def rvSnan (f : FFmt) (c : Nat) : Bool := (decodeF f c).isNan && !c.testBit (f.mb - 1)

/-- A sum: an exact zero of operands that differ is negative when rounding down. -/
def rvAdd (rm : Nat) (a b : Val) : Val × Bool :=
  let r := addV a b
  let v := if r.1.isZero && decide (rm = 2) && (a.isNeg || b.isNeg) then Val.fin true 0 0 else r.1
  (v, decide (r.2.flags ≠ 0))

/-- a · b + c, and whether it is invalid. -/
def rvFma (rm : Nat) (a b c : Val) : Val × Bool :=
  let p := mulV a b
  let r := rvAdd rm p.1 c
  (if a.isNan || b.isNan || c.isNan then .nan else r.1, decide (p.2.flags ≠ 0) || (r.2 && !c.isNan))

/-- A value as an integer of w bits, saturated, with its flags: 16 invalid, 1 inexact. -/
def rvToInt (rm w : Nat) (signed : Bool) (v : Val) : Nat × Nat :=
  let hi : Int := if signed then (2 ^ (w - 1) : Nat) - 1 else (2 ^ w : Nat) - 1
  let lo : Int := if signed then -((2 ^ (w - 1) : Nat) : Int) else 0
  match v with
  | .nan => (toTwos w hi, 16)
  | .inf n => (toTwos w (if n then lo else hi), 16)
  | .fin n m e =>
    let k := rvGrid rm n m e 0
    let i : Int := if n then -(k : Int) else k
    if i < lo then (toTwos w lo, 16) else if hi < i then (toTwos w hi, 16) else (toTwos w i, b2n (!exactAt m e 0))

/-- Class of a code, as a mask of one bit. -/
def rvClass (f : FFmt) (c : Nat) : Nat :=
  let n := c.testBit (f.eb + f.mb)
  match decodeF f c with
  | .nan => if rvSnan f c then 2 ^ 8 else 2 ^ 9
  | .inf _ => if n then 1 else 2 ^ 7
  | .fin _ m _ =>
    if m = 0 then (if n then 8 else 16)
    else if m < 2 ^ f.mb then (if n then 4 else 32)
    else (if n then 2 else 64)

/-- The format of a scalar: 0 binary32, else binary64; and its width. -/
def rvFmt (k : Nat) : FFmt := if k = 0 then b32 else b64
def rvWidth (k : Nat) : Nat := if k = 0 then 32 else 64

/-- A floating register in a format: a binary32 value is boxed in ones, else it reads as NaN. -/
def SCore.getF (y : SCore) (k r : Nat) : Nat :=
  let v := (sget 0#64 y.f r).toNat
  if k = 0 then (if v / 2 ^ 32 = 2 ^ 32 - 1 then v % 2 ^ 32 else b32.nanCode) else v
/-- Sets FS of mstatus to dirty. -/
def SCore.dirtyF (y : SCore) : SCore := y.setCsr 0x300 (y.csr 0x300 ||| 0x6000)
def SCore.setF (y : SCore) (k r v : Nat) : SCore :=
  ({ y with f := nput 0#64 y.f r (BitVec.ofNat 64 (if k = 0 then (2 ^ 32 - 1) * 2 ^ 32 + v else v)) }).dirtyF
/-- Adds exception flags. -/
def SCore.raiseF (y : SCore) (fl : Nat) : SCore := if fl = 0 then y else (y.setCsr 3 (y.csr 3 ||| fl)).dirtyF

/-- A rounded result into a floating register. -/
def SCore.retF (y : SCore) (k rd rm : Nat) (x : Val × Bool) (snan : Bool) (extra : Nat) : SCore :=
  let r := rvRound (rvFmt k) rm x.1
  (y.setF k rd r.1).raiseF (r.2 ||| extra ||| (16 * b2n (x.2 || snan)))

/-- A floating-point instruction of the OP-FP opcode; none where it is reserved. -/
def SCore.opFp (y : SCore) (w : Nat) : Option SCore :=
  let f7 := bits w 31 25
  let k := f7 % 4
  let f := rvFmt k
  let rd := bits w 11 7
  let rs2 := bits w 24 20
  let f3 := bits w 14 12
  let rm := if f3 = 7 then bits (y.csr 3) 7 5 else f3
  let a := y.getF k (bits w 19 15)
  let b := y.getF k rs2
  let va := decodeF f a
  let vb := decodeF f b
  let xa := (y.getX (bits w 19 15)).toNat
  let sn := rvSnan f a || rvSnan f b
  let top := f.eb + f.mb
  if 2 ≤ k then none
  else if f7 / 4 ≤ 3 ∧ rm ≤ 4 then
    match f7 / 4 with
    | 0 => some (y.retF k rd rm (rvAdd rm va vb) sn 0)
    | 1 => some (y.retF k rd rm (rvAdd rm va vb.neg) sn 0)
    | 2 => some (y.retF k rd rm (let p := mulV va vb; (p.1, decide (p.2.flags ≠ 0))) sn 0)
    | _ => some (y.retF k rd rm (let p := divV va vb; (p.1, decide (p.2.flags ≠ 0))) sn (if va.isFin && !va.isZero && vb.isZero then 8 else 0))
  else if f7 / 4 = 0xB ∧ rs2 = 0 ∧ rm ≤ 4 then
    some (y.retF k rd rm (let p := sqrtV va; (p.1, decide (p.2.flags ≠ 0))) (rvSnan f a) 0)
  else if f7 / 4 = 8 ∧ rs2 = 1 - k ∧ rm ≤ 4 then
    let c := y.getF rs2 (bits w 19 15)
    some (y.retF k rd rm (decodeF (rvFmt rs2) c, false) (rvSnan (rvFmt rs2) c) 0)
  else if f7 / 4 = 4 ∧ f3 ≤ 2 then
    let s := match f3 with | 0 => b.testBit top | 1 => !b.testBit top | _ => b.testBit top != a.testBit top
    some (y.setF k rd (a % 2 ^ top + f.signBit s))
  else if f7 / 4 = 5 ∧ f3 ≤ 1 then
    some (y.retF k rd 0 (if f3 = 0 then minNumV va vb else maxNumV va vb, false) sn 0)
  else if f7 / 4 = 0x14 ∧ f3 ≤ 2 then
    let v := match f3 with | 0 => ltV va vb || eqV va vb | 1 => ltV va vb | _ => eqV va vb
    let nv := if f3 = 2 then sn else va.isNan || vb.isNan
    some ((y.setX rd (BitVec.ofNat 64 (b2n v))).raiseF (16 * b2n nv))
  else if f7 / 4 = 0x18 ∧ rs2 ≤ 3 ∧ rm ≤ 4 then
    let n := if rs2 < 2 then 32 else 64
    let r := rvToInt rm n (decide (rs2 % 2 = 0)) va
    some ((y.setX rd (BitVec.ofNat 64 (rvSext n r.1))).raiseF r.2)
  else if f7 / 4 = 0x1A ∧ rs2 ≤ 3 ∧ rm ≤ 4 then
    let n := if rs2 < 2 then 32 else 64
    some (y.retF k rd rm (valOfInt (if rs2 % 2 = 0 then signedOf n xa else (xa % 2 ^ n : Nat)), false) false 0)
  else if f7 / 4 = 0x1C ∧ rs2 = 0 ∧ f3 = 0 then
    some (y.setX rd (BitVec.ofNat 64 (rvSext (rvWidth k) ((sget 0#64 y.f (bits w 19 15)).toNat))))
  else if f7 / 4 = 0x1C ∧ rs2 = 0 ∧ f3 = 1 then some (y.setX rd (BitVec.ofNat 64 (rvClass f a)))
  else if f7 / 4 = 0x1E ∧ rs2 = 0 ∧ f3 = 0 then some (y.setF k rd (xa % 2 ^ rvWidth k))
  else none

/-- A fused multiply-add; none where it is reserved. -/
def SCore.opFma (y : SCore) (w : Nat) : Option SCore :=
  let k := bits w 26 25
  let f := rvFmt k
  let rm := if bits w 14 12 = 7 then bits (y.csr 3) 7 5 else bits w 14 12
  let a := y.getF k (bits w 19 15)
  let b := y.getF k (bits w 24 20)
  let c := y.getF k (bits w 31 27)
  let op := bits w 3 2
  let va := if op = 2 ∨ op = 3 then (decodeF f a).neg else decodeF f a
  let vc := if op = 1 ∨ op = 3 then (decodeF f c).neg else decodeF f c
  if 2 ≤ k ∨ 5 ≤ rm then none
  else some (y.retF k (bits w 11 7) rm (rvFma rm va (decodeF f b) vc) (rvSnan f a || rvSnan f b || rvSnan f c) 0)

-- Instructions that touch no memory and no other unit -------------------------------------------------------------------------

/-- The floating registers may be used: FS is not off. -/
def SCore.fpOn (y : SCore) : Bool := decide (bits (y.csr 0x300) 14 13 ≠ 0)

/-- An instruction of `len` bytes that acts on its S-core's registers alone; none where it is none of these, or reserved. -/
def SCore.plain (y : SCore) (w len : Nat) : Option SCore :=
  let op := w % 128
  let rd := bits w 11 7
  let f3 := bits w 14 12
  let a := y.getX (bits w 19 15)
  let b := y.getX (bits w 24 20)
  let imm := BitVec.ofNat 64 (rvSext 12 (bits w 31 20))
  let up := BitVec.ofNat 64 (rvSext 32 (4096 * (w / 4096)))
  let next := y.pc + BitVec.ofNat 64 len
  let go := fun (z : SCore) => some { z with pc := next }
  if op = 0x37 then go (y.setX rd up)
  else if op = 0x17 then go (y.setX rd (y.pc + up))
  else if op = 0x6F then
    let off := rvSext 21 (rvMove w 31 1 20 + rvMove w 21 10 1 + rvMove w 20 1 11 + rvMove w 12 8 12)
    some { y.setX rd next with pc := y.pc + BitVec.ofNat 64 off }
  else if op = 0x67 ∧ f3 = 0 then some { y.setX rd next with pc := (a + imm) &&& ~~~1#64 }
  else if op = 0x63 then
    let off := rvSext 13 (rvMove w 31 1 12 + rvMove w 25 6 5 + rvMove w 8 4 1 + rvMove w 7 1 11)
    (rvTaken f3 a b).map (fun t => { y with pc := if t then y.pc + BitVec.ofNat 64 off else next })
  else if op = 0x13 ∨ op = 0x1B then (rvOp op f3 (bits w 31 25) a imm).bind (fun v => go (y.setX rd v))
  else if op = 0x33 ∨ op = 0x3B then (rvOp op f3 (bits w 31 25) a b).bind (fun v => go (y.setX rd v))
  else if op = 0x53 ∧ y.fpOn = true then (y.opFp w).bind go
  else if (op = 0x43 ∨ op = 0x47 ∨ op = 0x4B ∨ op = 0x4F) ∧ y.fpOn = true then (y.opFma w).bind go
  else none

-- Memory --------------------------------------------------------------------------------------------------------------------

/-- Goes on to the next instruction. -/
def State.scNext (s : State) (d c len : Nat) : State :=
  let y := s.sc d c
  s.setSc d c { y with pc := y.pc + BitVec.ofNat 64 len }

/-- Translates the n bytes at an address and acts on their physical address; a misaligned access that leaves its page is not made. -/
def State.atVa (s : State) (d c : Nat) (k : VaKind) (write : Bool) (va n : Nat) (f : State → Nat → State) : State :=
  if va % 4096 + n > 4096 then s.scTrapAt d c (if write then .storeMisaligned else .loadMisaligned) va
  else
    let t := s.translate d c k va
    match t.2 with
    | .pa a => f t.1 a
    | .wait => t.1
    | .pageFault => t.1.scTrapAt d c (if write then .storePageFault else .loadPageFault) va
    | .accessFault => t.1.scTrapAt d c (if write then .storeAccessFault else .loadAccessFault) va

/-- A load of n bytes into register rd (32 and above: a floating one). -/
def State.rvLoad (s : State) (d c len va n rd : Nat) (sx : Bool) : State :=
  s.atVa d c .read false va n (fun t pa =>
    let r := t.physRead d c pa n false (some (rd, sx))
    match r.2 with
    | .val v => (r.1.setSc d c ((r.1.sc d c).setLoaded rd sx n v)).scNext d c len
    | .queued => r.1.scNext d c len
    | .wait => r.1
    | .fail => r.1.scTrapAt d c .loadAccessFault va)

/-- A store of n bytes. -/
def State.rvStore (s : State) (d c len va n v : Nat) : State :=
  s.atVa d c .write true va n (fun t pa =>
    let r := t.physWrite d c pa n v
    match r.2 with
    | .wait => r.1
    | .fail => r.1.scTrapAt d c .storeAccessFault va
    | _ => r.1.scNext d c len)

/-- What an AMO stores, by funct5; none where it is reserved. -/
def rvAmo (f5 n old v : Nat) : Option Nat :=
  let x := signedOf (8 * n) old
  let y := signedOf (8 * n) v
  match f5 with
  | 0 => some (old + v)
  | 1 => some v
  | 4 => some (Nat.xor old v)
  | 8 => some (old ||| v)
  | 12 => some (old &&& v)
  | 16 => some (if x ≤ y then old else v)
  | 20 => some (if x ≤ y then v else old)
  | 24 => some (min old v)
  | 28 => some (max old v)
  | _ => none

/-- A load-reserved, a store-conditional or an AMO: HBM alone holds reservations and takes AMOs (log entry 81). -/
def State.rvAtomic (s : State) (d c len f5 n va rd v : Nat) : State :=
  let bad := fun (t : State) => t.scTrapAt d c (if f5 = 2 then .loadAccessFault else .storeAccessFault) va
  let ret := fun (t : State) (x : Nat) => (t.setSc d c ((t.sc d c).setX rd (BitVec.ofNat 64 (rvSext (8 * n) x)))).scNext d c len
  let m := 2 ^ (8 * n)
  if va % n ≠ 0 then s.scTrapAt d c (if f5 = 2 then .loadMisaligned else .storeMisaligned) va
  else s.atVa d c (if f5 = 2 then .read else .write) (decide (f5 ≠ 2)) va n (fun t pa =>
    match t.target (.score d c) (panelAddr pa) with
    | .hbm _ =>
      if f5 = 3 then
        if (t.sc d c).lr = some (panelAddr pa, n) then
          let r := t.physWrite d c pa n (v % m)
          match r.2 with
          | .wait => r.1
          | .fail => bad r.1
          | _ => let t1 := r.1.setSc d c { r.1.sc d c with lr := none }; ret t1 0
        else ret (t.setSc d c { t.sc d c with lr := none }) 1
      else
        let r := t.physRead d c pa n false none
        match r.2 with
        | .val old =>
          if f5 = 2 then ret (r.1.setSc d c { r.1.sc d c with lr := some (panelAddr pa, n) }) old
          else
            let w := r.1.physWrite d c pa n ((rvAmo f5 n old (v % m)).getD old % m)
            match w.2 with
            | .wait => w.1
            | .fail => bad w.1
            | _ => ret w.1 old
        | .wait => r.1
        | _ => bad r.1
    | _ => bad t)

-- System --------------------------------------------------------------------------------------------------------------------

/-- A read and write of a control and status register; illegal where it does not exist, is not open, or is written though read-only. -/
def State.rvCsr (s : State) (d c len w : Nat) : State :=
  let y := s.sc d c
  let k := bits w 31 20
  let f3 := bits w 14 12
  let rs1 := bits w 19 15
  let v := if f3.testBit 2 then rs1 else (y.getX rs1).toNat
  let writes := decide (f3 % 4 = 1) || decide (rs1 ≠ 0)
  match s.csrRead d c k with
  | some old =>
    if y.csrOpen k = false ∨ (writes = true ∧ bits k 11 10 = 3) then s.scTrap d c .illegalInstruction
    else
      let base := if k = 0x344 then y.csr k else old
      let new := match f3 % 4 with | 1 => v | 2 => base ||| v | _ => base - (base &&& v)
      let t := if writes then s.csrWrite d c k new else s
      let t1 := if writes && decide (k ≤ 3) then t.setSc d c (t.sc d c).dirtyF else t
      (t1.setSc d c ((t1.sc d c).setX (bits w 11 7) (BitVec.ofNat 64 old))).scNext d c len
  | none => s.scTrap d c .illegalInstruction

/-- Return from a handler: the interrupt enable and the mode of mstatus, the pc of sepc or mepc. -/
def SCore.leave (y : SCore) (fromS : Bool) : SCore :=
  let st := y.csr 0x300
  let mode := if fromS then bits st 8 8 else bits st 12 11
  let st1 := if fromS then setBits (setBits (setBits st 1 1 (bits st 5 5)) 5 5 1) 8 8 0
             else setBits (setBits (setBits st 3 3 (bits st 7 7)) 7 7 1) 12 11 0
  { (y.setCsr 0x300 (if mode = 3 then st1 else setBits st1 17 17 0)) with
    mode := mode, pc := BitVec.ofNat 64 (y.csr (if fromS then 0x141 else 0x341)), trap := if fromS then y.trap else none }

/-- Environment calls, breakpoints, returns, WFI, SFENCE.VMA, and the control and status registers. -/
def State.rvSystem (s : State) (d c len w : Nat) : State :=
  let y := s.sc d c
  let st := y.csr 0x300
  let no := s.scTrap d c .illegalInstruction
  if bits w 14 12 = 4 then no
  else if bits w 14 12 ≠ 0 then s.rvCsr d c len w
  else if w = 0x73 then s.scTrap d c .environmentCall
  else if w = 0x100073 then s.scTrapAt d c .breakpoint y.pc.toNat
  else if w = 0x10200073 then (if y.mode = 0 ∨ (y.mode = 1 ∧ st.testBit 22 = true) then no else s.setSc d c (y.leave true))
  else if w = 0x30200073 then (if y.mode = 3 then s.setSc d c (y.leave false) else no)
  else if w = 0x10500073 then
    (if y.mode = 0 ∨ (y.mode = 1 ∧ st.testBit 21 = true) then no else (s.scNext d c len).setSc d c { (s.scNext d c len).sc d c with st := 2 })
  else if bits w 31 25 = 9 ∧ bits w 11 7 = 0 then
    (if y.mode = 0 ∨ (y.mode = 1 ∧ st.testBit 20 = true) then no else s.scNext d c len)
  else no

/-- A fence has nothing to order; FENCE.I empties the instruction cache; a cache-block operation acts where the modes above permit it (R175, R180). -/
def State.rvFence (s : State) (d c len w : Nat) : State :=
  let y := s.sc d c
  let no := s.scTrap d c .illegalInstruction
  let env := fun (b : Nat) => decide (y.mode = 3) || ((y.csr 0x30A).testBit b && (decide (y.mode = 1) || (y.csr 0x10A).testBit b))
  let va := (y.getX (bits w 19 15)).toNat
  let cbo := fun (k : ScKind) => s.atVa d c .read true (va / 64 * 64) 64 (fun t pa =>
    let r := t.physCbo d c pa k
    match r.2 with
    | .wait => r.1
    | .fail => r.1.scTrapAt d c .storeAccessFault va
    | _ => r.1.scNext d c len)
  match bits w 14 12 with
  | 0 => s.scNext d c len
  | 1 => (s.setSc d c { y with ic := [] }).scNext d c len
  | 2 =>
    if bits w 11 7 ≠ 0 then no
    else match bits w 31 20 with
      | 0 => if env 4 then cbo (if y.mode ≠ 3 ∧ !(y.csr 0x30A).testBit 5 then .cboFlush else .cboInval) else no
      | 1 => if env 6 then cbo .cboClean else no
      | 2 => if env 6 then cbo .cboFlush else no
      | _ => no
  | _ => no

/-- The place-control and fabric instructions (spec/06 R184). -/
def State.rvCustom (s : State) (d c w : Nat) : State :=
  let rd := BitVec.ofNat 5 (bits w 11 7)
  let rs1 := BitVec.ofNat 5 (bits w 19 15)
  let rs2 := BitVec.ofNat 5 (bits w 24 20)
  if bits w 31 25 ≠ 0 then s.scTrap d c .illegalInstruction
  else match decide (w % 128 = 0x0B), bits w 14 12 with
    | true, 0 => s.plArm d c rd rs1 rs2
    | true, 1 => s.plStop d c rd rs1
    | true, 2 => s.plStat d c rd rs1
    | false, 0 => s.fxStart d c rd
    | false, 1 => s.fxDma d c rd rs1 rs2
    | false, 2 => s.fxDpoll d c rd rs1
    | false, 3 => s.fxBar d c rd rs1
    | false, 4 => s.fxSpsend d c rd rs1 rs2
    | false, 5 => s.fxSprecv d c rd
    | _, _ => s.scTrap d c .illegalInstruction

-- Execution -----------------------------------------------------------------------------------------------------------------

/-- Executes an instruction of `len` bytes. -/
def State.rvExec (s : State) (d c w len : Nat) : State :=
  let y := s.sc d c
  let op := w % 128
  let f3 := bits w 14 12
  let rd := bits w 11 7
  let a := y.getX (bits w 19 15)
  let no := s.scTrap d c .illegalInstruction
  let va := (a + BitVec.ofNat 64 (rvSext 12 (bits w 31 20))).toNat
  let vs := (a + BitVec.ofNat 64 (rvSext 12 (bits w 31 25 * 32 + bits w 11 7))).toNat
  let r2 := bits w 24 20
  if op = 0x03 ∧ f3 ≤ 6 then s.rvLoad d c len va (2 ^ (f3 % 4)) rd (decide (f3 < 4))
  else if op = 0x07 ∧ (f3 = 2 ∨ f3 = 3) ∧ y.fpOn = true then (s.setSc d c y.dirtyF).rvLoad d c len va (2 ^ f3) (32 + rd) false
  else if op = 0x23 ∧ f3 ≤ 3 then s.rvStore d c len vs (2 ^ f3) ((y.getX r2).toNat % 2 ^ (8 * 2 ^ f3))
  else if op = 0x27 ∧ (f3 = 2 ∨ f3 = 3) ∧ y.fpOn = true then s.rvStore d c len vs (2 ^ f3) ((sget 0#64 y.f r2).toNat % 2 ^ (8 * 2 ^ f3))
  else if op = 0x2F ∧ (f3 = 2 ∨ f3 = 3) then
    let f5 := bits w 31 27
    if (f5 = 2 ∧ r2 = 0) ∨ f5 = 3 ∨ (f5 ≠ 2 ∧ (rvAmo f5 4 0 0).isSome = true) then
      s.rvAtomic d c len f5 (2 ^ f3) a.toNat rd (y.getX r2).toNat
    else no
  else if op = 0x0F then s.rvFence d c len w
  else if op = 0x73 then s.rvSystem d c len w
  else if op = 0x0B ∨ op = 0x2B then s.rvCustom d c w
  else match y.plain w len with
    | some z => s.setSc d c z
    | none => no

/-- The S-core waits for nothing: no read of its own is queued at a scratchpad. -/
def State.scFree (s : State) (d c : Nat) : Bool :=
  s.dies.all (fun e => e.2.spad.reqs.all (fun r => match r.sc with | some (a, b, _) => !(decide (a = d) && decide (b = c)) | none => true))

/-- An enabled interrupt that the S-core takes now: its code and whether supervisor mode takes it. -/
def State.rvInterrupt (s : State) (d c : Nat) : Option (Nat × Bool) :=
  let y := s.sc d c
  let st := y.csr 0x300
  let pend := ((s.csrRead d c 0x344).getD 0) &&& y.csr 0x304
  let pick := fun (m : Nat) => [9, 1, 5].find? (fun b => m.testBit b)
  let m := pend - (pend &&& y.csr 0x303)
  let sup := pend &&& y.csr 0x303
  match (if y.mode < 3 ∨ st.testBit 3 = true then pick m else none), (if y.mode = 0 ∨ (y.mode = 1 ∧ st.testBit 1 = true) then pick sup else none) with
  | some b, _ => some (b, false)
  | none, some b => some (b, true)
  | none, none => none

/-- Fetches two bytes of an instruction. -/
def State.rvFetch2 (s : State) (d c va : Nat) : State × VaRes :=
  let t := s.translate d c .fetch va
  match t.2 with
  | .pa a =>
    let r := t.1.physRead d c a 2 true none
    (r.1, match r.2 with | .val v => .pa v | .wait => .wait | _ => .accessFault)
  | o => (t.1, o)

/-- An S-core takes a pending interrupt, or fetches the instruction at its pc through its instruction cache and executes it. -/
def State.scExecute (s : State) (d c : Nat) : State :=
  let y := s.sc d c
  let woken := decide (((s.csrRead d c 0x344).getD 0) &&& y.csr 0x304 ≠ 0)
  let trap := fun (t : State) (o : VaRes) (va : Nat) => match o with
    | .wait => t
    | .pageFault => t.scTrapAt d c .fetchPageFault va
    | _ => t.scTrapAt d c .fetchAccessFault va
  if !s.scReady d c || !s.scFree d c || (decide (y.st = 2) && !woken) then s
  else match s.rvInterrupt d c with
    | some (b, sup) => s.setSc d c (y.enter sup true b 0)
    | none =>
      let s1 := s.setSc d c { y with st := 1 }
      let pc := y.pc.toNat
      let lo := s1.rvFetch2 d c pc
      match lo.2 with
      | .pa h =>
        if h % 4 = 3 then
          let hi := lo.1.rvFetch2 d c ((pc + 2) % 2 ^ 64)
          match hi.2 with
          | .pa g => hi.1.rvExec d c (h + 2 ^ 16 * g) 4
          | o => trap hi.1 o ((pc + 2) % 2 ^ 64)
        else match rvExpand h with
          | some w => lo.1.rvExec d c w 2
          | none => lo.1.scTrapAt d c .illegalInstruction h
      | o => trap lo.1 o pc

/-- S_CORE_MEMORY_ACCESS (spec/06 R179). -/
def execSCoreMemoryAccess (die sc : Nat) (kind : ScKind) (pa : BitVec 56) (width : Nat) (reg : BitVec 5) (s : State) :
    Host.Outcome State Fault Refusal :=
  guard (Instr.sCoreMemoryAccess die sc kind pa width reg).wf
    (if kind = .execute then s.scExecute die sc else s.scAccess die sc kind pa width reg)

end Sys2Proof.Machine
end

