-- ==== Sys2Proof/Machine/Dispatch.lean ====
section
/-! DEFINITION. Which meaning each command has: one arm for each row of spec/opcode_table.json. -/

namespace Sys2Proof.Machine

def exec (i : Instr) (s : State) : Host.Outcome State Fault Refusal :=
  match i with
  | .registerWrite src addr width val => Sys2Proof.Machine.execRegisterWrite src addr width val s
  | .registerReadClear src addr width coincident => Sys2Proof.Machine.execRegisterReadClear src addr width coincident s
  | .faultRecordRearm src addr val => Sys2Proof.Machine.execFaultRecordRearm src addr val s
  | .badAccessTallyReport node => Sys2Proof.Machine.execBadAccessTallyReport node s
  | .srSeedWrite src site core seed => Sys2Proof.Machine.execSrSeedWrite src site core seed s
  | .mcNop die core rsv => Sys2Proof.Machine.execMcNop die core rsv s
  | .loadw die core c => Sys2Proof.Machine.execLoadw die core c s
  | .loadwShadowReady die core => Sys2Proof.Machine.execLoadwShadowReady die core s
  | .readout die core c => Sys2Proof.Machine.execReadout die core c s
  | .zero die core c => Sys2Proof.Machine.execZero die core c s
  | .reduceSend die core c => Sys2Proof.Machine.execReduceSend die core c s
  | .reduceAdd die core c => Sys2Proof.Machine.execReduceAdd die core c s
  | .reduceAddsend die core c => Sys2Proof.Machine.execReduceAddsend die core c s
  | .mcInjectArm src site val => Sys2Proof.Machine.execMcInjectArm src site val s
  | .scrNop die rsv => Sys2Proof.Machine.execScrNop die rsv s
  | .norm die c => Sys2Proof.Machine.execNorm die c s
  | .softmax die c => Sys2Proof.Machine.execSoftmax die c s
  | .normb die c => Sys2Proof.Machine.execNormb die c s
  | .softmaxb die c => Sys2Proof.Machine.execSoftmaxb die c s
  | .smoveOut die c => Sys2Proof.Machine.execSmoveOut die c s
  | .smoveIn die c => Sys2Proof.Machine.execSmoveIn die c s
  | .smoveClear die c => Sys2Proof.Machine.execSmoveClear die c s
  | .setup die c => Sys2Proof.Machine.execSetup die c s
  | .vnop die v ins => Sys2Proof.Machine.execVnop die v ins s
  | .vld die v ins => Sys2Proof.Machine.execVld die v ins s
  | .vst die v ins => Sys2Proof.Machine.execVst die v ins s
  | .vrecv die v ins => Sys2Proof.Machine.execVrecv die v ins s
  | .vsend die v ins => Sys2Proof.Machine.execVsend die v ins s
  | .aset die v ar base stp => Sys2Proof.Machine.execAset die v ar base stp s
  | .vadd die v ins => Sys2Proof.Machine.execVadd die v ins s
  | .vsub die v ins => Sys2Proof.Machine.execVsub die v ins s
  | .vmul die v ins => Sys2Proof.Machine.execVmul die v ins s
  | .vfma die v ins => Sys2Proof.Machine.execVfma die v ins s
  | .vfnma die v ins => Sys2Proof.Machine.execVfnma die v ins s
  | .vmin die v ins => Sys2Proof.Machine.execVmin die v ins s
  | .vmax die v ins => Sys2Proof.Machine.execVmax die v ins s
  | .vdiv die v ins => Sys2Proof.Machine.execVdiv die v ins s
  | .vsqrt die v ins => Sys2Proof.Machine.execVsqrt die v ins s
  | .vcvt die v ins => Sys2Proof.Machine.execVcvt die v ins s
  | .vcvti die v ins => Sys2Proof.Machine.execVcvti die v ins s
  | .vldi die v ins => Sys2Proof.Machine.execVldi die v ins s
  | .vcmp die v ins => Sys2Proof.Machine.execVcmp die v ins s
  | .vsel die v ins => Sys2Proof.Machine.execVsel die v ins s
  | .viadd die v ins => Sys2Proof.Machine.execViadd die v ins s
  | .visub die v ins => Sys2Proof.Machine.execVisub die v ins s
  | .vand die v ins => Sys2Proof.Machine.execVand die v ins s
  | .vor die v ins => Sys2Proof.Machine.execVor die v ins s
  | .vxor die v ins => Sys2Proof.Machine.execVxor die v ins s
  | .vshl die v ins => Sys2Proof.Machine.execVshl die v ins s
  | .vshr die v ins => Sys2Proof.Machine.execVshr die v ins s
  | .vredsum die v ins => Sys2Proof.Machine.execVredsum die v ins s
  | .vredmax die v ins => Sys2Proof.Machine.execVredmax die v ins s
  | .vbcast die v ins => Sys2Proof.Machine.execVbcast die v ins s
  | .plArm die sc rd rs1 rs2 => Sys2Proof.Machine.execPlArm die sc rd rs1 rs2 s
  | .plStop die sc rd rs1 => Sys2Proof.Machine.execPlStop die sc rd rs1 s
  | .plStat die sc rd rs1 => Sys2Proof.Machine.execPlStat die sc rd rs1 s
  | .fxStart die sc rd => Sys2Proof.Machine.execFxStart die sc rd s
  | .fxDma die sc rd rs1 rs2 => Sys2Proof.Machine.execFxDma die sc rd rs1 rs2 s
  | .fxDpoll die sc rd rs1 => Sys2Proof.Machine.execFxDpoll die sc rd rs1 s
  | .fxBar die sc rd rs1 => Sys2Proof.Machine.execFxBar die sc rd rs1 s
  | .barrierTimeout die sc => Sys2Proof.Machine.execBarrierTimeout die sc s
  | .fxSpsend die sc rd rs1 rs2 => Sys2Proof.Machine.execFxSpsend die sc rd rs1 rs2 s
  | .fxSprecv die sc rd => Sys2Proof.Machine.execFxSprecv die sc rd s
  | .sCoreTrap die sc => Sys2Proof.Machine.execSCoreTrap die sc s
  | .scCtrlWrite src site sc val => Sys2Proof.Machine.execScCtrlWrite src site sc val s
  | .placeDone die place => Sys2Proof.Machine.execPlaceDone die place s
  | .spadLinearWrite src site val => Sys2Proof.Machine.execSpadLinearWrite src site val s
  | .spadPwrWrite src site val => Sys2Proof.Machine.execSpadPwrWrite src site val s
  | .spadGroupReady die group => Sys2Proof.Machine.execSpadGroupReady die group s
  | .spadScrubStart src site val => Sys2Proof.Machine.execSpadScrubStart src site val s
  | .spadScrubDone die badLine => Sys2Proof.Machine.execSpadScrubDone die badLine s
  | .nonschedAccessGrant die pair => Sys2Proof.Machine.execNonschedAccessGrant die pair s
  | .eccRepairWriteback die pair => Sys2Proof.Machine.execEccRepairWriteback die pair s
  | .tokenDepart die place lane => Sys2Proof.Machine.execTokenDepart die place lane s
  | .tokenArrive die place lane tok sideband payload => Sys2Proof.Machine.execTokenArrive die place lane tok sideband payload s
  | .creditReturn die place lane => Sys2Proof.Machine.execCreditReturn die place lane s
  | .tload die place slot addr => Sys2Proof.Machine.execTload die place slot addr s
  | .tloadComplete die place slot => Sys2Proof.Machine.execTloadComplete die place slot s
  | .turnSwitch die place => Sys2Proof.Machine.execTurnSwitch die place s
  | .placeStart die => Sys2Proof.Machine.execPlaceStart die s
  | .drainForced part => Sys2Proof.Machine.execDrainForced part s
  | .watchdogIdle die => Sys2Proof.Machine.execWatchdogIdle die s
  | .quantumExpire part => Sys2Proof.Machine.execQuantumExpire part s
  | .contextSwitch part => Sys2Proof.Machine.execContextSwitch part s
  | .landingCheck die => Sys2Proof.Machine.execLandingCheck die s
  | .schSnapshot src site val => Sys2Proof.Machine.execSchSnapshot src site val s
  | .schMatchArm src site val => Sys2Proof.Machine.execSchMatchArm src site val s
  | .schMatchResolve die => Sys2Proof.Machine.execSchMatchResolve die s
  | .slowDieEval => Sys2Proof.Machine.execSlowDieEval s
  | .dmaIssue die => Sys2Proof.Machine.execDmaIssue die s
  | .desc md o d => Sys2Proof.Machine.execDesc md o d s
  | .trackerEntryGrant md cls => Sys2Proof.Machine.execTrackerEntryGrant md cls s
  | .transactionTimeout md txid => Sys2Proof.Machine.execTransactionTimeout md txid s
  | .dmaItemComplete md item => Sys2Proof.Machine.execDmaItemComplete md item s
  | .read p => Sys2Proof.Machine.execRead p s
  | .write p => Sys2Proof.Machine.execWrite p s
  | .readData p => Sys2Proof.Machine.execReadData p s
  | .writeAck p => Sys2Proof.Machine.execWriteAck p s
  | .land p => Sys2Proof.Machine.execLand p s
  | .done p => Sys2Proof.Machine.execDone p s
  | .hbmEccWriteback md line => Sys2Proof.Machine.execHbmEccWriteback md line s
  | .hbmPatrol md => Sys2Proof.Machine.execHbmPatrol md s
  | .hbmCorrRateCheck md => Sys2Proof.Machine.execHbmCorrRateCheck md s
  | .stackFail md cause => Sys2Proof.Machine.execStackFail md cause s
  | .hbmCapEval => Sys2Proof.Machine.execHbmCapEval s
  | .mdScrubStart src md val => Sys2Proof.Machine.execMdScrubStart src md val s
  | .mdScrubDone md => Sys2Proof.Machine.execMdScrubDone md s
  | .stripeReceive die side st => Sys2Proof.Machine.execStripeReceive die side st s
  | .dynCodewordReceive node port c => Sys2Proof.Machine.execDynCodewordReceive node port c s
  | .packetHop node out => Sys2Proof.Machine.execPacketHop node out s
  | .spindleForward node port cls e => Sys2Proof.Machine.execSpindleForward node port cls e s
  | .spsend die srcSite payload => Sys2Proof.Machine.execSpsend die srcSite payload s
  | .barArrive node barrier child => Sys2Proof.Machine.execBarArrive node barrier child s
  | .barRelease die barrier => Sys2Proof.Machine.execBarRelease die barrier s
  | .start die cycle => Sys2Proof.Machine.execStart die cycle s
  | .yield die epoch => Sys2Proof.Machine.execYield die epoch s
  | .notice site kind => Sys2Proof.Machine.execNotice site kind s
  | .beacon node payload => Sys2Proof.Machine.execBeacon node payload s
  | .alert a => Sys2Proof.Machine.execAlert a s
  | .regRd node off => Sys2Proof.Machine.execRegRd node off s
  | .regWr node off val => Sys2Proof.Machine.execRegWr node off val s
  | .regRsp node serial => Sys2Proof.Machine.execRegRsp node serial s
  | .alertRepeat node => Sys2Proof.Machine.execAlertRepeat node s
  | .eventMergeFlush code unit => Sys2Proof.Machine.execEventMergeFlush code unit s
  | .doorbell fd ctx val => Sys2Proof.Machine.execDoorbell fd ctx val s
  | .transferPut fd ctx d => Sys2Proof.Machine.execTransferPut fd ctx d s
  | .transferGet fd ctx d => Sys2Proof.Machine.execTransferGet fd ctx d s
  | .transferCput fd ctx d => Sys2Proof.Machine.execTransferCput fd ctx d s
  | .cputStart fd ctx => Sys2Proof.Machine.execCputStart fd ctx s
  | .transferMcast fd ctx d => Sys2Proof.Machine.execTransferMcast fd ctx d s
  | .transferNote fd ctx d => Sys2Proof.Machine.execTransferNote fd ctx d s
  | .put fd h data => Sys2Proof.Machine.execPut fd h data s
  | .get fd h => Sys2Proof.Machine.execGet fd h s
  | .cput fd h data => Sys2Proof.Machine.execCput fd h data s
  | .mcast fd h ranks data => Sys2Proof.Machine.execMcast fd h ranks data s
  | .ack fd h delivered failed => Sys2Proof.Machine.execAck fd h delivered failed s
  | .getData fd h data => Sys2Proof.Machine.execGetData fd h data s
  | .credit fd h limit => Sys2Proof.Machine.execCredit fd h limit s
  | .note fd h data => Sys2Proof.Machine.execNote fd h data s
  | .heartbeat onTwin number mirrored => Sys2Proof.Machine.execHeartbeat onTwin number mirrored s
  | .takeover onTwin => Sys2Proof.Machine.execTakeover onTwin s
  | .requestResendTimeout fd slot => Sys2Proof.Machine.execRequestResendTimeout fd slot s
  | .fabricPortDown fd port => Sys2Proof.Machine.execFabricPortDown fd port s
  | .fabricPortUp fd port => Sys2Proof.Machine.execFabricPortUp fd port s
  | .pfcPauseFrame fd port prio quanta => Sys2Proof.Machine.execPfcPauseFrame fd port prio quanta s
  | .arpRequest fd target => Sys2Proof.Machine.execArpRequest fd target s
  | .neighborSolicitation fd target => Sys2Proof.Machine.execNeighborSolicitation fd target s
  | .ringForward rdst rsrc west vc cls frame => Sys2Proof.Machine.execRingForward rdst rsrc west vc cls frame s
  | .heartbeatSend => Sys2Proof.Machine.execHeartbeatSend s
  | .heartbeatWindowMiss number => Sys2Proof.Machine.execHeartbeatWindowMiss number s
  | .mirrorComplete number => Sys2Proof.Machine.execMirrorComplete number s
  | .opn part slot port sigOk => Sys2Proof.Machine.execOpn part slot port sigOk s
  | .submit sess gen h items => Sys2Proof.Machine.execSubmit sess gen h items s
  | .sdata sess gen h sseq off data => Sys2Proof.Machine.execSdata sess gen h sseq off data s
  | .cplAck sess gen h cseq => Sys2Proof.Machine.execCplAck sess gen h cseq s
  | .close sess gen h => Sys2Proof.Machine.execClose sess gen h s
  | .sessionTimeout sess => Sys2Proof.Machine.execSessionTimeout sess s
  | .cplResend sess => Sys2Proof.Machine.execCplResend sess s
  | .workItemStart sess sseq => Sys2Proof.Machine.execWorkItemStart sess sseq s
  | .itemWrite sess sseq => Sys2Proof.Machine.execItemWrite sess sseq s
  | .writeSdataTimeout sess sseq => Sys2Proof.Machine.execWriteSdataTimeout sess sseq s
  | .itemRead sess sseq => Sys2Proof.Machine.execItemRead sess sseq s
  | .copy sess sseq => Sys2Proof.Machine.execCopy sess sseq s
  | .jobLoad sess sseq img => Sys2Proof.Machine.execJobLoad sess sseq img s
  | .jobStart sess sseq => Sys2Proof.Machine.execJobStart sess sseq s
  | .jobKill sess sseq => Sys2Proof.Machine.execJobKill sess sseq s
  | .checkpoint sess sseq => Sys2Proof.Machine.execCheckpoint sess sseq s
  | .release sess sseq => Sys2Proof.Machine.execRelease sess sseq s
  | .hint sess sseq => Sys2Proof.Machine.execHint sess sseq s
  | .itemNop sess sseq => Sys2Proof.Machine.execItemNop sess sseq s
  | .hintExpire sess => Sys2Proof.Machine.execHintExpire sess s
  | .retentionExpire part ctx => Sys2Proof.Machine.execRetentionExpire part ctx s
  | .referenceLoss node refB => Sys2Proof.Machine.execReferenceLoss node refB s
  | .freqStepStop part => Sys2Proof.Machine.execFreqStepStop part s
  | .freqStepCountLoad part => Sys2Proof.Machine.execFreqStepCountLoad part s
  | .freqStepResume part late => Sys2Proof.Machine.execFreqStepResume part late s
  | .localHoldBegin node mon slack => Sys2Proof.Machine.execLocalHoldBegin node mon slack s
  | .localHoldRelease node => Sys2Proof.Machine.execLocalHoldRelease node s
  | .replicaSlackZero die mon => Sys2Proof.Machine.execReplicaSlackZero die mon s
  | .spindleNodeOut node => Sys2Proof.Machine.execSpindleNodeOut node s
  | .beaconSend => Sys2Proof.Machine.execBeaconSend s
  | .ptpSync frm twoStep offset16 => Sys2Proof.Machine.execPtpSync frm twoStep offset16 s
  | .ptpHoldover => Sys2Proof.Machine.execPtpHoldover s
  | .ptcStepToPtp time16 => Sys2Proof.Machine.execPtcStepToPtp time16 s
  | .resetAssert lowNs => Sys2Proof.Machine.execResetAssert lowNs s
  | .mount ins => Sys2Proof.Machine.execMount ins s
  | .roughOut ins => Sys2Proof.Machine.execRoughOut ins s
  | .truing ins => Sys2Proof.Machine.execTruing ins s
  | .shaping ins => Sys2Proof.Machine.execShaping ins s
  | .finishing ins => Sys2Proof.Machine.execFinishing ins s
  | .reTrue region ins => Sys2Proof.Machine.execReTrue region ins s
  | .retrueRequest region => Sys2Proof.Machine.execRetrueRequest region s
  | .hostPortUp portB => Sys2Proof.Machine.execHostPortUp portB s
  | .activePcdFail => Sys2Proof.Machine.execActivePcdFail s
  | .regionOvercurrent region => Sys2Proof.Machine.execRegionOvercurrent region s
  | .inputVoltageWarn va vb => Sys2Proof.Machine.execInputVoltageWarn va vb s
  | .inputUndervoltage => Sys2Proof.Machine.execInputUndervoltage s
  | .inputOvervoltage => Sys2Proof.Machine.execInputOvervoltage s
  | .busPairLost pairB => Sys2Proof.Machine.execBusPairLost pairB s
  | .busPairRestored pairB => Sys2Proof.Machine.execBusPairRestored pairB s
  | .powerLoopUpdate total watts => Sys2Proof.Machine.execPowerLoopUpdate total watts s
  | .powerGuardTrip => Sys2Proof.Machine.execPowerGuardTrip s
  | .guardHoldEnd => Sys2Proof.Machine.execGuardHoldEnd s
  | .stepCeilingUpdate part => Sys2Proof.Machine.execStepCeilingUpdate part s
  | .warmHoldEnter part => Sys2Proof.Machine.execWarmHoldEnter part s
  | .powerWake part => Sys2Proof.Machine.execPowerWake part s
  | .warmHoldLoadAdjust => Sys2Proof.Machine.execWarmHoldLoadAdjust s
  | .sensorSample readings => Sys2Proof.Machine.execSensorSample readings s
  | .thermalThrottleEval => Sys2Proof.Machine.execThermalThrottleEval s
  | .heatRegionRestore region => Sys2Proof.Machine.execHeatRegionRestore region s
  | .coolantEval flow tin tout psw => Sys2Proof.Machine.execCoolantEval flow tin tout psw s
  | .coolantStopDeadline => Sys2Proof.Machine.execCoolantStopDeadline s
  | .coolantSuddenLoss psw => Sys2Proof.Machine.execCoolantSuddenLoss psw s
  | .pcdOvertemp pcdB => Sys2Proof.Machine.execPcdOvertemp pcdB s
  | .requestUpdate => Sys2Proof.Machine.execRequestUpdate s
  | .updateComponent c => Sys2Proof.Machine.execUpdateComponent c s
  | .activateFirmware => Sys2Proof.Machine.execActivateFirmware s
  | .getVersion => Sys2Proof.Machine.execGetVersion s
  | .getCapabilities => Sys2Proof.Machine.execGetCapabilities s
  | .negotiateAlgorithms => Sys2Proof.Machine.execNegotiateAlgorithms s
  | .getDigests => Sys2Proof.Machine.execGetDigests s
  | .getCertificate slot => Sys2Proof.Machine.execGetCertificate slot s
  | .challenge slot => Sys2Proof.Machine.execChallenge slot s
  | .getMeasurements index => Sys2Proof.Machine.execGetMeasurements index s
  | .setEndpointId eid => Sys2Proof.Machine.execSetEndpointId eid s
  | .evtAckWrite val => Sys2Proof.Machine.execEvtAckWrite val s
  | .resetEffecter val => Sys2Proof.Machine.execResetEffecter val s
  | .telemetrySend m => Sys2Proof.Machine.execTelemetrySend m s
  | .nvmDeviceFail dev => Sys2Proof.Machine.execNvmDeviceFail dev s
  | .moduleInsert va vb j1 => Sys2Proof.Machine.execModuleInsert va vb j1 s
  | .inputSwitchClose => Sys2Proof.Machine.execInputSwitchClose s
  | .moduleWithdraw => Sys2Proof.Machine.execModuleWithdraw s
  | .nvmIsolate iso => Sys2Proof.Machine.execNvmIsolate iso s
  | .statusLatchTimeout => Sys2Proof.Machine.execStatusLatchTimeout s
  | .fread p => Sys2Proof.Machine.execFread p s
  | .freadData p => Sys2Proof.Machine.execFreadData p s
  | .fwrite p => Sys2Proof.Machine.execFwrite p s
  | .fwriteAck p => Sys2Proof.Machine.execFwriteAck p s
  | .sCoreMemoryAccess die sc kind pa width reg => Sys2Proof.Machine.execSCoreMemoryAccess die sc kind pa width reg s
  | .drainedReport die => Sys2Proof.Machine.execDrainedReport die s
  | .ringPortDown east => Sys2Proof.Machine.execRingPortDown east s
  | .ringPortUp east => Sys2Proof.Machine.execRingPortUp east s
  | .twinLinkDown => Sys2Proof.Machine.execTwinLinkDown s
  | .twinLinkUp => Sys2Proof.Machine.execTwinLinkUp s
  | .hostPortDown portB => Sys2Proof.Machine.execHostPortDown portB s
  | .referenceRestored node refB => Sys2Proof.Machine.execReferenceRestored node refB s
  | .standbyRailLoss => Sys2Proof.Machine.execStandbyRailLoss s
  | .fabricDieLoss fd => Sys2Proof.Machine.execFabricDieLoss fd s
  | .rsdLoss region => Sys2Proof.Machine.execRsdLoss region s
  | .powerWakeComplete part => Sys2Proof.Machine.execPowerWakeComplete part s
  | .powerEntryComplete part => Sys2Proof.Machine.execPowerEntryComplete part s
  | .ptpFollowUp m => Sys2Proof.Machine.execPtpFollowUp m s
  | .ptpDelayResp m => Sys2Proof.Machine.execPtpDelayResp m s
  | .ptpAnnounce m => Sys2Proof.Machine.execPtpAnnounce m s
  | .arpReply fd mac => Sys2Proof.Machine.execArpReply fd mac s

end Sys2Proof.Machine
end

