-- ==== Sys2Proof/Machine/Step.lean ====
section
/-! DEFINITION. One step of the panel: the command at the front of the queue, or the passing of one panel time tick. -/

namespace Sys2Proof.Machine

/-- A step: the command at the front of the queue is taken and has its effect (the queue is first in, first out). On an empty queue one
nanosecond of panel time passes (DESIGN CHOICE, log entry 8). -/
def step (s : State) : Host.Outcome State Fault Refusal :=
  match s.pending with
  | [] => .next s.tick
  | c :: rest => exec c { s with pending := rest }

/-- The state with the command that the word spells put at the front of the queue. No word spells a command. -/
def State.withFetchWord (s : State) (nbits w : Nat) : State :=
  match decodeTableWord nbits w with
  | some c => { s with pending := c :: s.pending }
  | none => s

end Sys2Proof.Machine
end

