-- ==== Sys2Proof/Safety.lean ====
section
/-! DEFINITION. What stays true of the panel whatever is commanded: every memory that State lists keeps its canonical form, the fuses say what
they said, and the field knot log only grows (spec/15 R437, R438). -/

namespace Sys2Proof.Machine

/-- The memories of a compute die are in canonical form: scratchpad, tables, turn memories. -/
def Die.Canonical (x : Die) : Prop := Memory.wf x.spad.mem = true ∧ Memory.wf x.tabs = true ∧ ∀ p, Memory.wf (x.place p).mem = true

/-- Saved dies are in canonical form. -/
def savedCanonical (l : List SavedDie) : Prop := ∀ v ∈ l, v.die.Canonical
/-- The dies saved with contexts are in canonical form. -/
def ctxsCanonical (l : SMap Ctx) : Prop := ∀ e ∈ l, savedCanonical e.2.saved

/-- The dies that a partition has saved, with their contexts and in Doze, are in canonical form. -/
def Part.Canonical (x : Part) : Prop := ctxsCanonical x.ctxs ∧ savedCanonical x.dozeSaved

/-- Every memory of the panel is in canonical form: equal memories are equal data. -/
structure State.Canonical (s : State) : Prop where
  dies : ∀ d, (s.die d).Canonical
  hbm : ∀ m, Memory.wf (s.md m).mem = true
  parts : ∀ p, (s.part p).Canonical
  att : Memory.wf s.pcd.att = true

/-- A command completes: its meaning answers a next state, and P holds of it. -/
def Completes (i : Instr) (s : State) (P : State → Prop) : Prop := ∃ t, exec i s = .next t ∧ P t

/-- Everything that is not on a compute die, in a register or in the PCD stands as it stood: memory dies, fabric dies, partitions,
sessions, NVM, fuses, panel time, the answer of the last read, what was sent outward, and the commands that wait. -/
structure SameOutside (s t : State) : Prop where
  fuses : t.fuses = s.fuses
  nvm : t.nvm = s.nvm
  mds : t.mds = s.mds
  fds : t.fds = s.fds
  parts : t.parts = s.parts
  sess : t.sess = s.sess
  ptc16 : t.ptc16 = s.ptc16
  rdata : t.rdata = s.rdata
  out : t.out = s.out
  pending : t.pending = s.pending

/-- Registers whose write does more than set and clear their bits: the scratchpad's, the injection, snapshot and match registers, seeds,
S-core control, fault records, scrub control, job entries, PC.EVT_ACK and PC.RETRUE_CTRL. Each has statements of its own. -/
def specialReg (node off : Nat) : Bool :=
  if node < 576 then
    [CD_SPAD_LINEAR, CD_SPAD_PWR, CD_SPAD_SCRUB, CD_MC_INJECT, CD_SCH_CTRL, CD_SCH_MATCH].contains off ||
      (regIdx (CD_SR_SEED 0) 8 25 off).isSome || (regIdx (CD_SC_CTRL 0) 0x20 4 off).isSome || (recordRest node off).isSome
  else if node < 704 then decide (off = MD_SCRUB_CTRL) || (recordRest node off).isSome
  else if node < 720 then (regIdx (FD_JOB_W0 0) 0x20 64 off).isSome
  else decide (node = nodePc) && (decide (off = PC_EVT_ACK) || decide (off = PC_RETRUE_CTRL))

/-- A source reaches the site window of a logical site on powered silicon: the firmware any, a host and an S-core those of their own
partition (spec/06 R179, spec/13 R388). The management path reaches none. -/
def State.reaches (s : State) (src : Source) (site d : Nat) : Prop :=
  s.siteNode site = some d ∧ s.coreOn d = true ∧
    (match src with
     | .score e _ => s.partOfSite site = s.partOfNode e
     | .host p => s.partOfSite site = some p
     | .pcd => True
     | .mgmt => False)

/-- An access of a source goes to the listed register row r at an offset of a node: aligned, of the register's own width, in a site window's
register area or in the block of an edge or service die other than the standby PCD's (spec/00 R19, R20). -/
def State.toRegister (s : State) (src : Source) (addr width node off : Nat) (r : RegRow) : Prop :=
  (s.target src addr = .block node off ∧ 576 ≤ node ∧ node ≠ 737 ∨ s.target src addr = .window node off ∧ node < 576 ∧ 0xF0000000 ≤ off) ∧
    regAligned off width = true ∧ findReg (blkOf node) off width = some r

/-- A bit of the scratchpad, as stored. -/
def State.spadBit (s : State) (d a b : Nat) : Bool := (s.spadByte d a).getLsbD b

/-- Element k, of w bits, of a V-core result on its way. -/
def pendElem (p : VPend) (w k : Nat) : Nat := p.val.toNat >>> (w * k) % 2 ^ w

/-- A trap of S-core c of die d is delegated to its supervisor mode. -/
def State.trapToS (s : State) (d c : Nat) (tr : Trap) : Bool :=
  decide ((s.sc d c).mode ≤ 1) && ((s.sc d c).csr 0x302).testBit (tr.code (s.sc d c).mode)

/-- S-core c of die d has written v to rd and gone on to its next instruction; x0 reads 0, its other integer registers and its mode stand. -/
structure State.ScWent (s t : State) (d c : Nat) (rd : BitVec 5) (v : Nat) : Prop where
  pc : (t.sc d c).pc = (s.sc d c).pc + 4#64
  st : (t.sc d c).st = 1
  mode : (t.sc d c).mode = (s.sc d c).mode
  x : ∀ r, (t.sc d c).getX r = if r = rd.toNat ∧ r ≠ 0 then BitVec.ofNat 64 v else (s.sc d c).getX r

/-- S-core c of die d has entered a trap handler (spec/06 R175, R188): the supervisor's where medeleg delegates the exception, else the
monitor's, whose answer is owed. The pc, the cause and the trap value are saved; its integer registers, and all else, stand. -/
structure State.ScTrapped (s t : State) (d c : Nat) (tr : Trap) (tval : Nat) : Prop where
  only : t = s.setSc d c (t.sc d c)
  mode : (t.sc d c).mode = if s.trapToS d c tr then 1 else 3
  pc : (t.sc d c).pc = BitVec.ofNat 64 ((s.sc d c).csr (if s.trapToS d c tr then 0x105 else 0x305) / 4 * 4)
  epc : (t.sc d c).csr (if s.trapToS d c tr then 0x141 else 0x341) = (s.sc d c).pc.toNat
  cause : (t.sc d c).csr (if s.trapToS d c tr then 0x142 else 0x342) = tr.code (s.sc d c).mode
  tval : (t.sc d c).csr (if s.trapToS d c tr then 0x143 else 0x343) = tval
  owed : (t.sc d c).trap = if s.trapToS d c tr then (s.sc d c).trap else some tr
  x : ∀ r, (t.sc d c).getX r = (s.sc d c).getX r

/-- A record of an event can be written and is its own: the ring has room, and no record of a correctable event of that code is merging. -/
def State.canRecord (s : State) (code : Nat) : Prop := s.evtPending < 1024 ∧ ∀ e ∈ s.pcd.merging, e.code ≠ code

/-- An event's record has been written (spec/16 R452, R454): numbered by PC.EVT_NEXT, its code in its place of the ring, and pending. -/
structure State.Recorded (s t : State) (code : Nat) : Prop where
  next : t.rg nodePc PC_EVT_NEXT = (s.rg nodePc PC_EVT_NEXT + 1) % 2 ^ 32
  pending : t.evtPending = s.evtPending + 1
  ring : bits (t.rg nodePc (PC_EVT_REC (8 * (s.rg nodePc PC_EVT_NEXT % 1024)))) 15 0 = code

/-- Item `sseq` of session k has ended (spec/13 R392, R393): its completion record, under the next CSEQ, has the status and DONE given, and it is an
accepted item no more. -/
structure State.Ended (s t : State) (k sseq status done : Nat) : Prop where
  record : ∃ r, (t.session k).recs = (s.session k).recs ++ [r] ∧ r.sseq = sseq ∧ r.cseq = (s.session k).nextCseq ∧ r.status = status ∧ r.done = done
  gone : t.item k sseq = none
  next : (t.session k).nextCseq = ((s.session k).nextCseq + 1) % 2 ^ 32

/-- No packet to a host waits, and no priority of a host port is paused. -/
def State.hostQuiet (s : State) : Prop := s.pcd.hostTxq = [] ∧ s.pcd.hostPaused = []

end Sys2Proof.Machine
end

