-- ==== Sys2Proof/Certificates/Slice0/Obligations.lean ====
section
/-! DEFINITION. What is claimed of the model, for the provers. -/

open Sys2Proof Sys2Proof.Machine

-- The queue and the step -------------------------------------------------------------------------------------------------

/-- A step takes the command at the front of the queue: it is the meaning of that command on the state with the queue's rest. -/
def Obligations.StepRunsTheFrontCommand : Prop :=
  ∀ (s : State) (c : Instr) (rest : List Instr), step { s with pending := c :: rest } = exec c { s with pending := rest }

/-- On an empty queue a panel without standby power, or with NVM_ISO asserted, idles. A powered one whose partitions have not come up, whose
fabric dies and host ports have nothing to send and whose PTC has rate 0 gains one nanosecond of panel time within a second; nothing else that the spec
names changes (DESIGN CHOICE, log entry 8). -/
def Obligations.EmptyQueueIsOneTick : Prop :=
  ∀ s : State, s.pending = [] →
    ((s.pcd.standby = false ∨ s.pcd.nvmIso = true) → step s = .next s) ∧
    (s.pcd.standby = true → s.pcd.nvmIso = false → (∀ p < 16, (s.part p).stackList = []) → (∀ e ∈ s.fds, e.2.txq = [] ∧ e.2.rxOff = []) →
      s.pcd.hostTxq = [] → s.pcd.ptcFrac = 0 → s.rg nodePc PC_PTP_RATE = 0 → s.ptc16 / 16000000000 = (s.ptc16 + 16) / 16000000000 →
      ∃ t, step s = .next t ∧ t.ptc16 = s.ptc16 + 16 ∧ t.regs = s.regs ∧ t.dies = s.dies ∧ t.mds = s.mds ∧ t.fds = s.fds ∧
        t.parts = s.parts ∧ t.sess = s.sess ∧ t.nvm = s.nvm ∧ t.fuses = s.fuses ∧ t.out = s.out ∧ t.pending = [])

/-- Every command that names only units of the spec's numbering answers a next state in every state; any other stops as `noSuchUnit`. -/
def Obligations.WellFormedCommandsComplete : Prop :=
  ∀ (i : Instr) (s : State), (i.wf = true → ∃ t, exec i s = .next t) ∧ (i.wf = false → exec i s = .fault .noSuchUnit)

-- Invariants -------------------------------------------------------------------------------------------------------------

/-- Every memory of the panel is canonical at reset: strictly rising addresses, no zero byte listed. -/
def Obligations.ResetMemoriesCanonical : Prop := State.reset.Canonical

/-- Every step keeps every memory canonical: HBM, scratchpads, tables, turn memories, saved contexts, event attachments. -/
def Obligations.StepKeepsMemoriesCanonical : Prop :=
  ∀ s t : State, s.Canonical → step s = .next t → t.Canonical

/-- No step changes a fuse, and no step changes or removes an entry of the field knot log: the log after the step begins with the log before
it (spec/15 R438), in every state whose memories are canonical. -/
def Obligations.StepKeepsFusesAndKnots : Prop :=
  ∀ s t : State, s.Canonical → step s = .next t → t.fuses = s.fuses ∧ s.nvm.knots <+: t.nvm.knots

-- Registers (spec/00) ----------------------------------------------------------------------------------------------------

/-- REGISTER_WRITE of a listed register: by a source that may not write it, discarded; otherwise an RW bit takes the written bit, a W1C bit
written as 1 clears, every other bit of the register and everything else stands. A W1C bit that hardware sets in the cycle of the write
remains set. -/
def Obligations.RegisterWriteSetsAndClearsBits : Prop :=
  ∀ (s : State) (src : Source) (addr : W64) (width : Nat) (val : W64) (coincident node off : Nat) (r : RegRow),
    src.ok = true → s.toRegister src addr.toNat width node off r →
    (s.writerOk src r.writer node = false → coincident &&& r.w1c = 0 → exec (.registerWrite src addr width ⟨val, coincident⟩) s = .next s) ∧
    (s.writerOk src r.writer node = true → specialReg node off = false →
      Completes (.registerWrite src addr width ⟨val, coincident⟩) s (fun t =>
        t = s.setRg node off (t.rg node off) ∧
        ∀ k, (t.rg node off).testBit k =
          if coincident.testBit k && r.w1c.testBit k then true
          else if (val.toNat % 2 ^ r.width).testBit k && r.w1c.testBit k then false
          else if r.rw.testBit k then (val.toNat % 2 ^ r.width).testBit k else (s.rg node off).testBit k))

/-- REGISTER_WRITE and REGISTER_READ_CLEAR within reserved locations: the write is discarded, the read is 0, and nothing is refused or
counted. An access to an unbacked window or block reads 0 or is discarded, and adds 1 to the tally of the active PCD, or of the S-core's
die. BAD_ACCESS_TALLY_REPORT: the active PCD adds its own tally to PC.BAD_ACCESS_COUNT; a unit with refusals clears its tally; a unit
without refusals does nothing. -/
def Obligations.UnbackedAccessesAreTallied : Prop :=
  (∀ (s : State) (src : Source) (addr : W64) (width : Nat) (val : W64) (coincident : Nat), src.ok = true →
    (∀ node off, s.target src addr.toNat = .block node off → node ≠ 737 → regAligned off width = true →
      findReg (blkOf node) off width = none → overlapsReg (blkOf node) off width = false →
      (node ≠ nodePc ∨ off < 0x400000 ∨ 0x800000 ≤ off) →
      exec (.registerWrite src addr width ⟨val, coincident⟩) s = .next s ∧
      exec (.registerReadClear src addr width coincident) s = .next { s with rdata := 0 }) ∧
    (s.target src addr.toNat = .unbacked →
      exec (.registerWrite src addr width ⟨val, coincident⟩) s = .next (s.refuseBy src) ∧
      exec (.registerReadClear src addr width coincident) s = .next { s.refuseBy src with rdata := 0 } ∧
      (match src with
       | .score d _ => ((s.refuseBy src).die d).tally = min 0xFFFFFFFF ((s.die d).tally + 1) ∧ (s.refuseBy src).pcd = s.pcd
       | _ => (s.refuseBy src).pcd.tally = min 0xFFFFFFFF (s.pcd.tally + 1) ∧ (s.refuseBy src).dies = s.dies))) ∧
  (∀ (s : State) (node : Nat), node < 738 →
    (s.tallyOf node = 0 → exec (.badAccessTallyReport node) s = .next s) ∧
    (node = s.activeNode → s.tallyOf node ≠ 0 → s.rg nodePc PC_BAD_ACCESS_COUNT + s.tallyOf node < 0xFFFFFFFF →
      Completes (.badAccessTallyReport node) s (fun t =>
        t.pcd.tally = 0 ∧ t.rg nodePc PC_BAD_ACCESS_COUNT = s.rg nodePc PC_BAD_ACCESS_COUNT + s.tallyOf node ∧
        (∀ n o, rkey n o ≠ rkey nodePc PC_BAD_ACCESS_COUNT → t.rg n o = s.rg n o) ∧ t.dies = s.dies ∧ SameOutside s t)) ∧
    (node < 720 → s.tallyOf node ≠ 0 → Completes (.badAccessTallyReport node) s (fun t => t.tallyOf node = 0)))

/-- REGISTER_READ_CLEAR of a listed register answers its value. Where it has no RC field nothing else changes; a counter that clears on read
afterwards counts just the events that coincided with the read; other RC fields take their reset value, or what an event of the cycle of the
read gives them; bits outside the RC fields, and every other register, stand. -/
def Obligations.ReadClearsCountersKeepsCoincident : Prop :=
  ∀ (s : State) (src : Source) (addr : W64) (width coincident node off : Nat) (r : RegRow),
    src.ok = true → s.toRegister src addr.toNat width node off r →
    (r.rc = 0 → ∃ v, exec (.registerReadClear src addr width coincident) s = .next { s with rdata := v } ∧ v = s.regVal node off) ∧
    (r.rc ≠ 0 → Completes (.registerReadClear src addr width coincident) s (fun t =>
      t.rdata = s.regVal node off ∧ (∀ n o, rkey n o ≠ rkey node off → t.rg n o = s.rg n o) ∧
      (r.rc = 0xFFFFFFFF → t.rg node off = min 0xFFFFFFFF coincident) ∧
      (r.rc ≠ 0xFFFFFFFF → ∀ k, (t.rg node off).testBit k =
        if r.rc.testBit k then (if coincident = 0 then r.reset.testBit k else (coincident - 1).testBit (k - lowBit r.rc))
        else (s.rg node off).testBit k)))

/-- FAULT_RECORD_REARM: a write of 1 to VALID clears the whole record, and a write of 0 nothing; no register outside the record changes. -/
def Obligations.FaultRecordRearmClearsTheRecord : Prop :=
  ∀ (s : State) (src : Source) (addr : W64) (val : W64) (node off : Nat) (r : RegRow) (rest : List Nat),
    src.ok = true → s.toRegister src addr.toNat 4 node off r → s.writerOk src r.writer node = true → r.width = 32 →
    recordRest node off = some rest →
    Completes (.faultRecordRearm src addr val) s (fun t =>
      (val.getLsbD 31 = true → ∀ o ∈ off :: rest, t.rg node o = 0) ∧
      (val.getLsbD 31 = false → t = s) ∧
      (∀ n o, (∀ q ∈ off :: rest, rkey n o ≠ rkey node q) → t.rg n o = s.rg n o) ∧
      t.dies = s.dies ∧ t.mds = s.mds ∧ t.pcd = s.pcd ∧ SameOutside s t)

/-- SR_SEED_WRITE: while a place runs on the core the write is discarded and SEED_REJECT is set; otherwise the register holds the seed and
every generator of the core the state that the seed gives it, the other cores' generators standing as they were. -/
def Obligations.SeedWriteWhileRunningIsRejected : Prop :=
  ∀ (s : State) (src : Source) (site core d : Nat) (seed : W64),
    src.ok = true → site < 512 → core < 25 → s.reaches src site d →
    ((s.place d core).st = .running → exec (.srSeedWrite src site core seed) s = .next (s.setRgB d CD_ARITH_STATUS 8 true)) ∧
    ((s.place d core).st ≠ .running → Completes (.srSeedWrite src site core seed) s (fun t =>
      t.rg d (CD_SR_SEED core) = seed.toNat ∧
      (∀ g, g < (if core = 24 then 8 else 16) → (t.die d).gen core g = seedState seed g) ∧
      (∀ c g, c ≠ core → g < 16 → (t.die d).gen c g = (s.die d).gen c g) ∧
      (∀ n o, rkey n o ≠ rkey d (CD_SR_SEED core) → t.rg n o = s.rg n o) ∧
      (∀ e, e ≠ d → t.die e = s.die e) ∧ t.pcd = s.pcd ∧ SameOutside s t))

/-- MC_INJECT_ARM: with fault injection allowed by the configuration, ARM arms one injection on the core named, whatever job the die holds, and
nothing else changes; without it, with ARM = 0 or without a configuration the write has no effect. -/
def Obligations.InjectArmNeedsTheConfiguration : Prop :=
  ∀ (s : State) (src : Source) (site d : Nat) (val : W32), src.ok = true → site < 512 → s.reaches src site d →
    (s.pcd.conf = none → exec (.mcInjectArm src site val) s = .next s) ∧
    (∀ c, s.pcd.conf = some c →
      ((c.faultInj = true ∧ val.getLsbD 31 = true) → Completes (.mcInjectArm src site val) s (fun t =>
        (∀ k, (t.die d).inject.testBit k = (decide (k = bits val.toNat 19 16) || (s.die d).inject.testBit k)) ∧
        t = s.modDie d (fun x => { x with inject := (t.die d).inject }))) ∧
      (¬(c.faultInj = true ∧ val.getLsbD 31 = true) → exec (.mcInjectArm src site val) s = .next s))

-- M-cores (spec/03, spec/04) -----------------------------------------------------------------------------------------------

/-- MC_NOP with every reserved field 0 has no effect; with a reserved field that is not 0, on a core that takes commands, it halts the
place, and the fault record, when free, shows a command fault of cause 12 on this core. ZERO writes +0 to all 64 elements of its rows and
clears their tags; no other element or tag changes, the output unit is busy for one cycle per four rows, and nothing else of the core or
outside it changes. -/
def Obligations.McNopAndZero : Prop :=
  (∀ (s : State) (d k : Nat), d < 576 → k < 16 →
    exec (.mcNop d k false) s = .next s ∧
    (s.canIssue d k = true → s.rgB d CD_MC_FAULT_INFO 31 = false → (s.place d k).slot < 8 → Completes (.mcNop d k true) s (fun t =>
      (t.place d k).st = .halted ∧ (t.rg d CD_MC_FAULT_INFO).testBit 31 = true ∧ bits (t.rg d CD_MC_FAULT_INFO) 27 24 = k ∧
      bits (t.rg d CD_MC_FAULT_INFO) 20 16 = 12 ∧ t.rg d CD_MC_FAULT_PTC = s.ptc))) ∧
  (∀ (s : State) (d k : Nat) (c : ZeroCmd), d < 576 → k < 16 → s.canIssue d k = true →
    c.accRow.toNat + c.nrowsM1.toNat + 1 ≤ 1024 → (s.mc d k).outUntil ≤ (s.die d).cyc → c.rsv = false →
    Completes (.zero d k c) s (fun t =>
      (∀ r n, n < 64 → (t.mc d k).elem r n =
        if c.accRow.toNat ≤ r ∧ r < c.accRow.toNat + c.nrowsM1.toNat + 1 then 0#32 else (s.mc d k).elem r n) ∧
      (∀ r, (t.mc d k).tag r = if c.accRow.toNat ≤ r ∧ r < c.accRow.toNat + c.nrowsM1.toNat + 1 then 0 else (s.mc d k).tag r) ∧
      t.mc d k = { s.mc d k with acc := (t.mc d k).acc, accErr := (t.mc d k).accErr, tags := (t.mc d k).tags,
                                 outUntil := (s.die d).cyc + cdiv (c.nrowsM1.toNat + 1) 4 } ∧
      t = s.setMc d k (t.mc d k)))

/-- LOADW that meets no fault writes the shadow tile and no other register of the core: from the scratchpad, when its line reads meet no bank
conflict and no uncorrectable line; from a lane, when its flits have arrived, which it takes off. The shadow holds the tile of the bytes
addressed, or of the flits; it is not yet ready, and the load unit is busy for L + 10 cycles. LOADW_SHADOW_READY makes a shadow ready and
ends that time, and changes nothing else. -/
def Obligations.LoadwWritesTheShadow : Prop :=
  ∀ (s : State) (d k : Nat) (c : LoadwCmd), d < 576 → k < 16 →
    let loaded := fun (t : State) => (t.mc d k).shadow.isSome = true ∧ t.mc d k =
      { s.mc d k with shadow := (t.mc d k).shadow, shadowReady := false, loadUntil := (s.die d).cyc + loadwL c + 10 }
    (s.canIssue d k = true → s.loadwCause d k c = none → c.src = false →
      (s.schedRead d (loadwAccs c k (s.die d).cyc)).2 = true →
      Completes (.loadw d k c) s (fun t => loaded t ∧ SameOutside s t ∧
        ((s.die d).spad.errs = [] → (t.mc d k).shadow = some (loadwTile c (s.spadByte d) (s.spadByte d)) ∧
          (t.die d).spad.mem = (s.die d).spad.mem ∧ (∀ p, t.place d p = s.place d p) ∧ t.pcd = s.pcd))) ∧
    (s.canIssue d k = true → s.loadwCause d k c = none → c.src = true → loadwL c ≤ ((s.place d k).lane (b2n c.lane)).q.length →
      Completes (.loadw d k c) s (fun t => loaded t ∧ SameOutside s t ∧
        (let q := ((s.place d k).lane (b2n c.lane)).q
         let lines := loadwLines c
         (t.mc d k).shadow = some (loadwTile c (s.byteSrc d (some (q.take (loadwL c))) lines.1)
           (s.byteSrc d (some ((q.take (loadwL c)).drop lines.1.length)) lines.2)) ∧
         ((t.place d k).lane (b2n c.lane)).q = q.drop (loadwL c)) ∧ t.pcd = s.pcd ∧ t.regs = s.regs)) ∧
    ((s.mc d k).shadow.isSome = true → exec (.loadwShadowReady d k) s = .next (s.setMc d k
      { s.mc d k with shadowReady := true, loadUntil := min (s.mc d k).loadUntil (s.die d).cyc })) ∧
    ((s.mc d k).shadow = none → exec (.loadwShadowReady d k) s = .next s)

/-- READOUT that meets no fault and no bank conflict, on a die whose buffer and scratchpad hold no flipped bit: the output unit is busy for W
cycles a row; with CLEAR the elements read become +0 and every other element stands; without it no element changes. To a lane it leaves the
scratchpad as it was; to the scratchpad, the lanes. -/
def Obligations.ReadoutClearsWhatItReads : Prop :=
  ∀ (s : State) (d k : Nat) (c : ReadoutCmd), d < 576 → k < 16 → s.canIssue d k = true → s.readoutCause d k c = none →
    (s.schedule d (readoutAccs c k (s.die d).cyc)).2 = true → (s.mc d k).accErr = [] → (s.die d).spad.errs = [] →
    Completes (.readout d k c) s (fun t =>
      t.mc d k = { s.mc d k with acc := (t.mc d k).acc, outUntil := (s.die d).cyc + readoutW c * (c.nrowsM1.toNat + 1) } ∧
      (c.dst = true → (t.die d).spad.mem = (s.die d).spad.mem) ∧ (c.dst = false → ∀ p, t.place d p = s.place d p) ∧ SameOutside s t ∧
      ∀ r e, e < 64 → (t.mc d k).elem r e =
        if c.clear = true ∧ c.accRow.toNat ≤ r ∧ r < c.accRow.toNat + c.nrowsM1.toNat + 1 ∧ e ≤ c.colsM1.toNat then 0#32
        else (s.mc d k).elem r e)

/-- REDUCE that meets no fault, on a core whose buffer holds no flipped bit and whose array unit writes nothing meanwhile. SEND puts a
header with CONTRIB 1 and its rows' elements on the outbound lane, sixteen a flit. ADD and ADDSEND, their operand at the inbound lane, take
header and flits off it; ADD writes the sums to its rows and marks them with the tag, ADDSEND puts a header with EXPECT + 1 and the sums on
the outbound lane. With CLEAR the elements sent become +0 and their rows' tags 0; no other element or tag changes. The output unit is busy for
one cycle a flit and one for the header. -/
def Obligations.ReduceMovesTaggedRows : Prop :=
  ∀ (s : State) (d k : Nat) (c : ReduceCmd), d < 576 → k < 16 → s.canIssue d k = true →
    (s.mc d k).accErr = [] → s.arrPending d k = [] →
    let r0 := c.accRow.toNat
    let cols := c.colsM1.toNat + 1
    let own := (s.mc d k).elem
    let inside := fun (r n : Nat) => r0 ≤ r ∧ r < r0 + reduceRows c ∧ n < cols
    let sends := fun (contrib delay : Nat) (el : Nat → Nat → W32) (t : State) =>
      ((t.place d k).lane (2 + b2n c.laneOut)).out = ((s.place d k).lane (2 + b2n c.laneOut)).out ++
        (gatherHeader c contrib :: (List.range (reduceRows c)).flatMap (fun i => (List.range (reduceW c)).map (fun f =>
          flitOfElems ((List.range (min 16 (cols - 16 * f))).map (fun e => el i (16 * f + e)))))).zipIdx.map (fun e =>
            ((s.die d).cyc + delay + e.2, ({ payload := e.1, gen := BitVec.ofNat 4 (s.place d k).gen, hdr := e.2 == 0 } : Token))) ∧
      (∀ r n, n < 64 → (t.mc d k).elem r n = if c.clear = true ∧ inside r n then 0#32 else own r n) ∧
      (∀ r, (t.mc d k).tag r = if c.clear = true ∧ r0 ≤ r ∧ r < r0 + reduceRows c then 0 else (s.mc d k).tag r)
    let busy := fun (t : State) => (t.mc d k).outUntil = (s.die d).cyc + reduceW c * reduceRows c + 1 ∧ SameOutside s t
    (s.reduceCause d k 0 c (s.outBusy d k) none = none → Completes (.reduceSend d k c) s (fun t => sends 1 4 (fun i e => own (r0 + i) e) t ∧ busy t)) ∧
    (∀ h q, ((s.place d k).lane (b2n c.laneIn)).q = h :: q → reduceW c * reduceRows c ≤ q.length →
      let sum := fun (i e : Nat) => (reduceSum (own (r0 + i) e) (flitElem ((q[reduceW c * i + e / 16]?).getD default).payload (e % 16))).1
      (s.reduceCause d k 1 c (s.outBusy d k) (some h) = none → Completes (.reduceAdd d k c) s (fun t =>
        ((t.place d k).lane (b2n c.laneIn)).q = q.drop (reduceW c * reduceRows c) ∧
        (∀ r n, n < 64 → (t.mc d k).elem r n = if inside r n then sum (r - r0) n else own r n) ∧
        (∀ r, (t.mc d k).tag r = if r0 ≤ r ∧ r < r0 + reduceRows c then c.gtag.toNat else (s.mc d k).tag r) ∧ busy t)) ∧
      (s.reduceCause d k 2 c (s.outBusy d k) (some h) = none → Completes (.reduceAddsend d k c) s (fun t =>
        ((t.place d k).lane (b2n c.laneIn)).q = q.drop (reduceW c * reduceRows c) ∧ sends (c.expect.toNat + 1) 6 sum t ∧ busy t)))

-- The scraper (spec/05) ----------------------------------------------------------------------------------------------------

/-- SCR_NOP has no effect; SETUP writes its three registers; SMOVE CLEAR empties COUNT slots from SLOT; SMOVE IN gives them KIND and the two
words of the scratchpad, SMOVE OUT stores their two words there. No other slot and no other bit of the scratchpad changes, and the scraper
is busy for one cycle per eight slots, four more for IN. -/
def Obligations.ScraperMovesSlots : Prop :=
  ∀ (s : State) (d : Nat) (c : SmoveCmd) (u : SetupCmd), d < 576 → s.canIssue d 24 = true →
    let x := (s.die d).scr
    let m := c.slot.toNat
    let n := c.countM1.toNat + 1
    exec (.scrNop d false) s = .next s ∧
    (u.rsv = false → exec (.setup d u) s = .next (s.setScr d { x with eps := u.eps, diag := u.diag, gbSlot := u.gbSlot })) ∧
    (s.smoveCause d 2 c = none → Completes (.smoveClear d c) s (fun t =>
      (∀ i, (t.die d).scr.slot i = if m ≤ i ∧ i < m + n then { kind := 0, a := 0, b := 0 } else x.slot i) ∧
      (t.die d).scr.busyUntil = (s.die d).cyc + cdiv n 8 ∧ (t.die d).spad.mem = (s.die d).spad.mem ∧
      (∀ p, t.place d p = s.place d p) ∧ (∀ e, e ≠ d → t.die e = s.die e) ∧ SameOutside s t)) ∧
    (s.smoveCause d 1 c = none → (s.die d).spad.errs = [] → (s.schedule d (smoveAccs c 1 (s.die d).cyc)).2 = true →
      Completes (.smoveIn d c) s (fun t =>
        (∀ i, m ≤ i → i < m + n → ((t.die d).scr.slot i).kind = c.kind.toNat ∧
          ((t.die d).scr.slot i).a.toNat = leVal (s.spadBytes d (c.addr.toNat + 8 * (i - m)) 4) ∧
          ((t.die d).scr.slot i).b.toNat = leVal (s.spadBytes d (c.addr.toNat + 8 * (i - m) + 4) 4)) ∧
        (∀ i, ¬(m ≤ i ∧ i < m + n) → (t.die d).scr.slot i = x.slot i) ∧
        (t.die d).scr.busyUntil = (s.die d).cyc + cdiv n 8 + 4 ∧ (t.die d).spad.mem = (s.die d).spad.mem ∧ SameOutside s t)) ∧
    (s.smoveCause d 0 c = none → (s.die d).spad.errs = [] → x.sideErr = [] → (s.schedule d (smoveAccs c 0 (s.die d).cyc)).2 = true →
      Completes (.smoveOut d c) s (fun t =>
        (∀ a b, a < 0x8000000 → b < 8 → t.spadBit d a b =
          if c.addr.toNat ≤ a ∧ a < c.addr.toNat + 8 * n then
            (let q := x.slot (m + (a - c.addr.toNat) / 8)
             if (a - c.addr.toNat) % 8 < 4 then q.a.getLsbD (8 * ((a - c.addr.toNat) % 8) + b)
             else q.b.getLsbD (8 * ((a - c.addr.toNat) % 8 - 4) + b))
          else s.spadBit d a b) ∧
        (∀ i, (t.die d).scr.slot i = x.slot i) ∧ (t.die d).scr.busyUntil = (s.die d).cyc + cdiv n 8 ∧ SameOutside s t))

/-- NORM, SOFTMAX, NORMB and SOFTMAXB on operands of the scratchpad, with no cause of R161, no flipped bit stored and no bank conflict: the
scraper is busy for the command's length. NORM and SOFTMAX leave a statistic of their kind in the slot of every row, and change no other
slot; so does no backward command that keeps no column gradients. -/
def Obligations.RowCommandsLeaveStatistics : Prop :=
  ∀ (s : State) (d : Nat) (c : RowCmd), d < 576 → s.canIssue d 24 = true → c.src = false →
    (s.die d).spad.errs = [] → (s.die d).scr.sideErr = [] →
    let x := (s.die d).scr
    let t0 := (s.die d).cyc
    let inRows := fun i => c.slot.toNat ≤ i ∧ i < c.slot.toNat + c.nrowsM1.toNat + 1
    (s.rowCause d 1 c = none → (s.schedule d (rowAccs 1 c t0)).2 = true → Completes (.norm d c) s (fun t =>
      (∀ i, inRows i → ((t.die d).scr.slot i).kind = if c.variant then 2 else 1) ∧
      (∀ i, ¬inRows i → (t.die d).scr.slot i = x.slot i) ∧ (t.die d).scr.busyUntil = t0 + rowLength 1 c)) ∧
    (s.rowCause d 2 c = none → (s.schedule d (rowAccs 2 c t0)).2 = true → Completes (.softmax d c) s (fun t =>
      (∀ i, inRows i → ((t.die d).scr.slot i).kind = 3) ∧
      (∀ i, ¬inRows i → (t.die d).scr.slot i = x.slot i) ∧ (t.die d).scr.busyUntil = t0 + rowLength 2 c)) ∧
    (s.rowCause d 3 c = none → c.b21 = false → (s.schedule d (rowAccs 3 c t0)).2 = true →
      (∀ i, inRows i → (x.slot i).kind = if c.variant then 2 else 1) → Completes (.normb d c) s (fun t =>
        (∀ i, (t.die d).scr.slot i = x.slot i) ∧ (t.die d).scr.busyUntil = t0 + rowLength 3 c)) ∧
    (s.rowCause d 4 c = none → (s.schedule d (rowAccs 4 c t0)).2 = true → (∀ i, inRows i → (x.slot i).kind = 3) →
      Completes (.softmaxb d c) s (fun t =>
        (∀ i, (t.die d).scr.slot i = x.slot i) ∧ (t.die d).scr.busyUntil = t0 + rowLength 4 c))

-- The V-cores (spec/06) ----------------------------------------------------------------------------------------------------

/-- An accepted integer instruction, VSEL, VLDI or VBCAST sends its destination a result that lands after its latency: lane by lane the
value the table gives, on the lanes that its mask enables (VSEL: on all). Registers, and results already on their way, stand; nothing
outside the V-core but its two counters changes. -/
def Obligations.VectorIntegersAndMoves : Prop :=
  ∀ (s : State) (d v : Nat) (i : VIns), d < 576 → v < 8 → s.canIssue d (16 + v) = true → (s.vc d v).regErr = [] →
    let y := (s.vc d v).settle (s.die d).cyc
    let m := y.mask i.mask.toNat
    let posts := fun (lat w en : Nat) (P : VPend → Prop) (t : State) =>
      ∃ p, p.dest = .reg i.vd.toNat ∧ p.due = (s.die d).cyc + lat ∧ P p ∧
        (∀ l, l < 64 → p.en.getLsbD l = en.testBit (if w = 64 then l / 2 else l)) ∧
        t.vc d v = { y with pend := insPend p y.pend } ∧
        (∀ n o, rkey n o ≠ rkey d (CD_VC_INSTR v) → rkey n o ≠ rkey d (CD_VC_LANEOPS v) → t.rg n o = s.rg n o) ∧
        t.dies = (s.setVc d v (t.vc d v)).dies ∧ t.pcd = s.pcd ∧ SameOutside s t
    let el := fun (r : BitVec 7) (w k : Nat) => (y.reg r.toNat).toNat >>> (w * k) % 2 ^ w
    let all := 2 ^ 64 - 1
    (∀ e ∈ ([(40, Instr.viadd, fun x z => (x + z) % 2 ^ 32), (41, Instr.visub, fun x z => wrapSub 32 x z),
        (42, Instr.vand, fun x z => x &&& z), (43, Instr.vor, fun x z => x ||| z), (44, Instr.vxor, fun x z => Nat.xor x z),
        (45, Instr.vshl, fun x z => (x * 2 ^ (z % 32)) % 2 ^ 32),
        (46, Instr.vshr, fun x z => toTwos 32 (signedOf 32 x / (2 ^ (z % 32) : Nat)))] :
          List (Nat × (Nat → Nat → VIns → Instr) × (Nat → Nat → Nat))),
      s.vCause d v e.1 i = none → Completes (e.2.1 d v i) s (posts 2 32 m (fun p => ∀ k, k < 64 →
        pendElem p 32 k = e.2.2 (el i.va 32 k) (el i.vb 32 k)))) ∧
    (s.vCause d v 27 i = none → Completes (.vldi d v i) s (posts 1 32 m (fun p => ∀ k, k < 64 → pendElem p 32 k = i.imm.toNat * 2 ^ 15))) ∧
    (s.vCause d v 33 i = none → Completes (.vsel d v i) s (posts 2 i.width all (fun p => ∀ k, k < i.count →
      pendElem p i.width k = if m.testBit k then el i.va i.width k else el i.vb i.width k))) ∧
    (s.vCause d v 50 i = none → Completes (.vbcast d v i) s (posts 2 i.width m (fun p => i.imm.toNat % 64 < i.count → ∀ k, k < i.count →
      pendElem p i.width k = el i.va i.width (i.imm.toNat % 64))))

/-- An accepted arithmetic instruction, conversion, comparison or reduction sends its destination a result that lands after its latency.
Without stochastic rounding a lane of VADD to VSQRT takes the one rounding of its operands' exact result, and so does a conversion's; a
comparison's bit says whether its condition holds, and one into m0 has no result; the lanes of a reduction above lane 0 take +0. Registers
stand, and nothing outside the V-core, its generators, its counters and the die's arithmetic status changes. -/
def Obligations.VectorArithmetic : Prop :=
  ∀ (s : State) (d v : Nat) (i : VIns), d < 576 → v < 8 → s.canIssue d (16 + v) = true → (s.vc d v).regErr = [] →
    let y := (s.vc d v).settle (s.die d).cyc
    let quiet := fun (t : State) =>
      (∀ n o, (∀ q ∈ [CD_VC_INSTR v, CD_VC_LANEOPS v, CD_ARITH_STATUS, CD_SAT_COUNT], rkey n o ≠ rkey d q) → t.rg n o = s.rg n o) ∧
      (∀ p, t.place d p = s.place d p) ∧ (∀ u, u ≠ v → t.vc d u = s.vc d u) ∧ (t.die d).spad = (s.die d).spad ∧
      (∀ e, e ≠ d → t.die e = s.die e) ∧ SameOutside s t
    let posts := fun (lat : Nat) (dest : VDest) (P : VPend → Prop) (t : State) =>
      ∃ p, p.dest = dest ∧ p.due = (s.die d).cyc + lat ∧ P p ∧ (t.vc d v).pend = insPend p y.pend ∧ (t.vc d v).regs = y.regs ∧
        (t.vc d v).masks = y.masks ∧ quiet t
    let raw := fun (w k : Nat) => (y.reg i.va.toNat).toNat >>> (w * k) % 2 ^ w
    let el := fun (r : BitVec 7) (k : Nat) => decodeF i.ffmt ((y.reg r.toNat).toNat >>> (i.width * k) % 2 ^ i.width)
    (∀ e ∈ ([(16, Instr.vadd, 4, fun a b _ => addV a b), (17, Instr.vsub, 4, fun a b _ => addV a b.neg), (18, Instr.vmul, 4, fun a b _ => mulV a b),
        (19, Instr.vfma, 4, fun a b c => fmaV a b c), (20, Instr.vfnma, 4, fun a b c => fmaV a.neg b c),
        (23, Instr.vdiv, 24, fun a b _ => divV a b), (24, Instr.vsqrt, 24, fun a _ _ => sqrtV a)] :
          List (Nat × (Nat → Nat → VIns → Instr) × Nat × (Val → Val → Val → Val × Stat))),
      s.vCause d v e.1 i = none → Completes (e.2.1 d v i) s (posts e.2.2.1 (.reg i.vd.toNat) (fun p => i.rmode.toNat ≠ 2 → ∀ k, k < i.count →
        pendElem p i.width k = (convF i.ffmt i.rmode.toNat i.sat 0 (e.2.2.2 (el i.va k) (el i.vb k) (el i.vc k)).1).1 % 2 ^ i.width))) ∧
    (∀ e ∈ ([(21, Instr.vmin, minNumV), (22, Instr.vmax, maxNumV)] : List (Nat × (Nat → Nat → VIns → Instr) × (Val → Val → Val))),
      s.vCause d v e.1 i = none → Completes (e.2.1 d v i) s (posts 4 (.reg i.vd.toNat) (fun p => ∀ k, k < i.count →
        pendElem p i.width k = (convF i.ffmt 0 i.sat 0 (e.2.2 (el i.va k) (el i.vb k))).1 % 2 ^ i.width))) ∧
    (s.vCause d v 25 i = none → Completes (.vcvt d v i) s (posts 4 (.reg i.vd.toNat) (fun p =>
      (i.imm.getLsbD 0 = true → ∀ k, k < 32 → pendElem p 64 k = (convF b64 0 false 0 (decodeF b32 (raw 32 k))).1 % 2 ^ 64) ∧
      (i.imm.getLsbD 0 = false → i.rmode.toNat ≠ 2 → ∀ k, k < 64 →
        pendElem p 32 k = if k < 32 then (convF b32 i.rmode.toNat i.sat 0 (decodeF b64 (raw 64 k))).1 % 2 ^ 32 else 0)))) ∧
    (s.vCause d v 26 i = none → Completes (.vcvti d v i) s (posts 4 (.reg i.vd.toNat) (fun p => i.rmode.toNat ≠ 2 → ∀ k, k < 64 →
      pendElem p 32 k = (if i.imm.getLsbD 0 then (convN (.int 32) i.rmode.toNat i.sat 0 (decodeF b32 (raw 32 k))).1
        else (convF b32 i.rmode.toNat i.sat 0 (valOfInt (signedOf 32 (raw 32 k)))).1) % 2 ^ 32))) ∧
    (s.vCause d v 32 i = none →
      (i.vd.toNat % 8 = 0 → Completes (.vcmp d v i) s (fun t => t.vc d v = y ∧ quiet t)) ∧
      (i.vd.toNat % 8 ≠ 0 → Completes (.vcmp d v i) s (posts 2 (.mask (i.vd.toNat % 8)) (fun p => ∀ k, k < i.count →
        p.val.getLsbD k = (match i.imm.toNat % 8 with
          | 0 => eqV (el i.va k) (el i.vb k)
          | 1 => ltV (el i.va k) (el i.vb k)
          | 2 => ltV (el i.va k) (el i.vb k) || eqV (el i.va k) (el i.vb k)
          | 3 => !eqV (el i.va k) (el i.vb k)
          | _ => (el i.va k).isNan || (el i.vb k).isNan))))) ∧
    (∀ e ∈ ([(48, Instr.vredsum), (49, Instr.vredmax)] : List (Nat × (Nat → Nat → VIns → Instr))),
      s.vCause d v e.1 i = none → Completes (e.2 d v i) s (posts 14 (.reg i.vd.toNat) (fun p => (∀ k, 0 < k → k < i.count →
        pendElem p i.width k = 0) ∧ (e.1 = 49 → pendElem p i.width 0 =
          (convF i.ffmt 0 false 0 (((List.range i.count).map (el i.va)).foldl maxV (.inf true))).1 % 2 ^ i.width))))

/-- VNOP only counts; ASET writes one address register, and counts. VLD and VST, with no flipped bit in the scratchpad and no bank conflict,
and VRECV, its flits at hand, and VSEND: a load's result, the widened elements of the bytes addressed, lands n + 5 cycles later, a
receive's, those of its flits, n + 2; a store writes the converted lanes to the bytes addressed (with MX, those and the two bytes of scales)
and no other bit of the scratchpad; a send puts the converted lanes on its lane in n flits. INC steps the address register. -/
def Obligations.VectorMemoryAndLanes : Prop :=
  ∀ (s : State) (d v : Nat) (i : VIns), d < 576 → v < 8 → s.canIssue d (16 + v) = true → (s.vc d v).regErr = [] →
    let y := (s.vc d v).settle (s.die d).cyc
    let t0 := (s.die d).cyc
    let n := (y.lines i).length
    let f := i.fmt.toNat
    let mode := if f = 0 ∨ f = 11 then 0 else i.rmode.toNat
    let stepped := fun (t : State) => ∀ k, (t.vc d v).base k =
      if i.inc = true ∧ (k = i.ar ∨ i.mx = true ∧ k = i.sar) then
        (if i.mx = true ∧ k = i.ar ∧ k = i.sar then (y.inc k).inc k else y.inc k).base k else y.base k
    let posts := fun (lat : Nat) (els : List (Nat × Stat)) (t : State) =>
      ∃ p, p.dest = .reg i.vd.toNat ∧ p.due = t0 + lat ∧ p.en = BitVec.allOnes 64 ∧ (t.vc d v).pend = insPend p y.pend ∧
        (∀ k, k < i.count → pendElem p i.width k = ((els[k]?).map (·.1)).getD 0 % 2 ^ i.width) ∧ (t.vc d v).regs = y.regs ∧ SameOutside s t
    let codes := (convRow f mode i.sat false ((List.range i.count).map (fun _ => 0)) (i.vals (y.reg i.stored))).1
    let whole := packElems (fmtW f) codes
    (s.vCause d v 0 i = none → exec (.vnop d v i) s = .next ((s.setVc d v y).bumpPerf d (CD_VC_INSTR v) 1)) ∧
    (∀ ar base stp, Completes (.aset d v ar base stp) s (fun t =>
      (t.vc d v).base ar.toNat = base.toNat ∧ sget 0#14 (t.vc d v).arStep ar.toNat = stp ∧
      (∀ k, k ≠ ar.toNat → (t.vc d v).base k = (s.vc d v).base k ∧ sget 0#14 (t.vc d v).arStep k = sget 0#14 (s.vc d v).arStep k) ∧
      t.vc d v = { s.vc d v with arBase := (t.vc d v).arBase, arStep := (t.vc d v).arStep } ∧
      t = (s.setVc d v (t.vc d v)).bumpPerf d (CD_VC_INSTR v) 1)) ∧
    (s.vCause d v 1 i = none → (s.die d).spad.errs = [] → (s.schedule d (vldAccs v t0 (y.lines i))).2 = true →
      Completes (.vld d v i) s (fun t => (t.die d).spad.mem = (s.die d).spad.mem ∧ stepped t ∧ (t.vc d v).loadUntil = t0 + n ∧
        posts (n + 5) (vLoaded i (fun k => s.spadByte d (y.addr i + k)) (fun b => s.spadByte d (y.base i.sar + b))).els t)) ∧
    (s.vCause d v 2 i = none → (s.die d).spad.errs = [] → (s.schedule d (vstAccs v t0 (y.lines i))).2 = true →
      Completes (.vst d v i) s (fun t => stepped t ∧ (t.vc d v).regs = y.regs ∧ (t.vc d v).pend = y.pend ∧
        (t.vc d v).storeUntil = max y.storeUntil (t0 + 2 + n) ∧ SameOutside s t ∧
        (∀ a b, a < 0x8000000 → b < 8 →
          ¬(y.addr i ≤ a ∧ a < y.addr i + i.bytes) → ¬(i.mx = true ∧ y.base i.sar ≤ a ∧ a < y.base i.sar + 2) →
          t.spadBit d a b = s.spadBit d a b) ∧
        (i.mx = false → mode ≠ 2 → ∀ a b, y.addr i ≤ a → a < y.addr i + i.bytes → b < 8 →
          t.spadBit d a b = whole.testBit (8 * (a - y.addr i) + b)))) ∧
    (s.vCause d v 3 i = none → i.flits ≤ ((s.place d (16 + v)).lane i.lane).q.length → Completes (.vrecv d v i) s (fun t =>
      ((t.place d (16 + v)).lane i.lane).q = ((s.place d (16 + v)).lane i.lane).q.drop i.flits ∧
      posts (i.flits + 2) (i.widen (flitByte (((s.place d (16 + v)).lane i.lane).q.take i.flits)) none) t)) ∧
    (s.vCause d v 4 i = none → Completes (.vsend d v i) s (fun t => SameOutside s t ∧ t.vc d v = y ∧
      ∃ fl : List (BitVec 512), fl.length = i.flits ∧
      (mode ≠ 2 → fl = (List.range i.flits).map (fun k => BitVec.ofNat 512 (whole >>> (512 * k)))) ∧
      ((t.place d (16 + v)).lane (2 + i.lane)).out = ((s.place d (16 + v)).lane (2 + i.lane)).out ++ fl.zipIdx.map (fun e =>
        (t0 + 2 + e.2, ({ payload := e.1, gen := BitVec.ofNat 4 (s.place d (16 + v)).gen, hdr := false } : Token)))))

-- S-cores (spec/06) --------------------------------------------------------------------------------------------------------

/-- PL.ARM, PL.STOP and PL.STAT are illegal in user mode, and so are the FX instructions without vgfx.U: the S-core enters its handler. In a
privileged mode, on a place that no other S-core has had in this cycle: PL.ARM arms an idle or done place of the job with its slot and
generation and reads 0, and reads 1, 2, 3 or 4 where it refuses; PL.STOP halts an armed or running place and reads 0, else 1; PL.STAT reads
the place's state, slot and generation. A higher-numbered S-core that had the place in the cycle reads 4. BARRIER_TIMEOUT ends an FX.BAR with
1 where a timeout is set. A trap that the monitor answers stops its S-core and is reported. A write of CD.SC_CTRL by the active PCD releases
a held S-core at BOOT_ADDR in machine mode, or holds it in reset; from any other source it is discarded. -/
def Obligations.ScoreControl : Prop :=
  (∀ (s : State) (d c : Nat) (rd rs1 rs2 : BitVec 5), d < 576 → c < 4 → s.scReady d c = true →
    let a := ((s.sc d c).getX rs1.toNat).toNat
    let p := a % 32
    let g := ((s.sc d c).getX rs2.toNat).toNat % 16
    let x := s.place d p
    let alone := ∀ c' n v, x.plUse = some (c', n, v) → n ≠ s.ccountOf d
    ((s.sc d c).mode = 0 → ∀ i ∈ [Instr.plArm d c rd rs1 rs2, Instr.plStop d c rd rs1, Instr.plStat d c rd rs1],
      Completes i s (fun t => s.ScTrapped t d c .illegalInstruction 0)) ∧
    ((s.sc d c).mode = 0 → (s.sc d c).vgfx = false → ∀ i ∈ [Instr.fxStart d c rd, .fxDma d c rd rs1 rs2, .fxDpoll d c rd rs1, .fxBar d c rd rs1,
      .fxSpsend d c rd rs1 rs2, .fxSprecv d c rd], Completes i s (fun t => s.ScTrapped t d c .illegalInstruction 0)) ∧
    ((s.sc d c).mode ≠ 0 → 25 ≤ p →
      Completes (.plArm d c rd rs1 rs2) s (fun t => s.ScWent t d c rd 3 ∧ ∀ q, t.place d q = s.place d q) ∧
      ∀ i ∈ [Instr.plStop d c rd rs1, Instr.plStat d c rd rs1], Completes i s (fun t => (∃ v, s.ScWent t d c rd v) ∧ ∀ q, t.place d q = s.place d q)) ∧
    ((s.sc d c).mode ≠ 0 → p < 25 → s.contended d p c = true → ∀ i ∈ [Instr.plArm d c rd rs1 rs2, Instr.plStop d c rd rs1],
      Completes i s (fun t => s.ScWent t d c rd 4 ∧ ∀ q, t.place d q = s.place d q)) ∧
    (∀ c' v u, (s.sc d c).mode ≠ 0 → p < 25 → x.plUse = some (c', s.ccountOf d, v) → c < c' → sfind (s.die d).plUndo p = some u → 0 < u.rd →
      ∀ i ∈ [Instr.plArm d c rd rs1 rs2, Instr.plStop d c rd rs1], Completes i s (fun t => (t.sc d c').getX u.rd = 4#64)) ∧
    ((s.sc d c).mode ≠ 0 → p < 25 → alone →
      (s.jobHas d = true → (x.st = .idle ∨ x.st = .done) → s.rgB d CD_SPAD_STATUS 3 = false → g = s.rg d CD_PL_CTRL % 16 →
        Completes (.plArm d c rd rs1 rs2) s (fun t => s.ScWent t d c rd 0 ∧ (t.place d p).st = .armed ∧ (t.place d p).slot = a / 256 % 8 ∧
          (t.place d p).gen = g ∧ ∀ q, q ≠ p → t.place d q = s.place d q)) ∧
      ((s.jobHas d = false ∨ x.st = .armed ∨ x.st = .running ∨ x.st = .halted ∨ s.rgB d CD_SPAD_STATUS 3 = true ∨ g ≠ s.rg d CD_PL_CTRL % 16) →
        Completes (.plArm d c rd rs1 rs2) s (fun t => (t.place d p).st = x.st ∧ (t.place d p).slot = x.slot ∧
          s.ScWent t d c rd (if s.jobHas d = false then 3
            else if x.st = .armed ∨ x.st = .running ∨ x.st = .halted ∨ s.rgB d CD_SPAD_STATUS 3 = true then 1 else 2))) ∧
      ((x.st = .armed ∨ x.st = .running) → Completes (.plStop d c rd rs1) s (fun t => s.ScWent t d c rd 0 ∧ (t.place d p).st = .halted ∧
        ∀ q, q ≠ p → t.place d q = s.place d q)) ∧
      (x.st ≠ .armed → x.st ≠ .running → Completes (.plStop d c rd rs1) s (fun t => s.ScWent t d c rd 1 ∧ (t.place d p).st = x.st)) ∧
      Completes (.plStat d c rd rs1) s (fun t => t.place d p = x ∧ s.ScWent t d c rd
        ((match x.st with | .idle => 0 | .armed => 1 | .running => 2 | .done => 3 | .halted => 4) + 8 * x.slot + 64 * x.gen)))) ∧
  (∀ (s : State) (d c : Nat), d < 576 → c < 4 → s.coreOn d = true →
    (∀ b rd, rd < 32 → (s.sc d c).bar = some (b, rd) → (s.sc d c).vgbartmo ≠ 0#32 → Completes (.barrierTimeout d c) s (fun t =>
      s.ScWent t d c (BitVec.ofNat 5 rd) 1 ∧ (t.sc d c).bar = none ∧ SameOutside s t)) ∧
    ((s.sc d c).bar = none ∨ (s.sc d c).vgbartmo = 0#32 → exec (.barrierTimeout d c) s = .next s) ∧
    ((s.sc d c).live = true → Completes (.sCoreTrap d c) s (fun t => (t.sc d c).st = 3 ∧ (t.sc d c).trap = none ∧
      (∃ a, t.pcd.alerts = s.pcd.alerts ++ [a] ∧ a.code = 0x2130 ∧ a.node = d) ∧ SameOutside s t)) ∧
    ((s.sc d c).live = false → exec (.sCoreTrap d c) s = .next s) ∧
    (∀ (src : Source) (site : Nat) (v : W64), src.ok = true → site < 512 → s.reaches src site d →
      (src ≠ .pcd → exec (.scCtrlWrite src site c v) s = .next s) ∧
      (src = .pcd → v.getLsbD 0 = true → s.rgB d (CD_SC_CTRL c) 0 = false → Completes (.scCtrlWrite src site c v) s (fun t =>
        t.sc d c = { SCore.reset with st := 1, pc := BitVec.ofNat 64 (v.toNat / 4096 * 4096) } ∧ SameOutside s t)) ∧
      (src = .pcd → v.getLsbD 0 = true → s.rgB d (CD_SC_CTRL c) 0 = true → Completes (.scCtrlWrite src site c v) s (fun t =>
        t.dies = s.dies ∧ SameOutside s t)) ∧
      (src = .pcd → v.getLsbD 0 = false → Completes (.scCtrlWrite src site c v) s (fun t => t.sc d c = SCore.reset ∧ SameOutside s t))))

/-- FX instructions, in a mode that may run them: FX.START reads 0 on the kernel site's S-core 0 and 1 elsewhere; FX.DMA takes the next
ticket, or reads 0xFFFF_FFFF for a memory die outside the partition, and holds its S-core while the ticket would displace a pending one; an
item for a memory die that is off ends with its ticket at 2; FX.DPOLL reads a ticket's state; FX.BAR waits; FX.SPSEND reads 0 for a site of
the partition that has a die, else 1; FX.SPRECV takes the oldest payload, its source to vgsrc. -/
def Obligations.FabricInstructions : Prop :=
  ∀ (s : State) (d c : Nat) (rd rs1 rs2 : BitVec 5), d < 576 → c < 4 → s.scReady d c = true → ((s.sc d c).mode ≠ 0 ∨ (s.sc d c).vgfx = true) →
    let v1 := ((s.sc d c).getX rs1.toNat).toNat
    let v2 := ((s.sc d c).getX rs2.toNat).toNat
    let next := (s.die d).ticketNext
    (∀ p, s.partOfNode d = some p → Completes (.fxStart d c rd) s (fun t => (¬(c = 0 ∧ s.kernelNode p = some d) → t.pcd = s.pcd) ∧
      s.ScWent t d c rd (if c = 0 ∧ s.kernelNode p = some d then 0 else 1))) ∧
    (s.partOfNode d = none → Completes (.fxStart d c rd) s (fun t => t.pcd = s.pcd ∧ s.ScWent t d c rd 1)) ∧
    ((128 ≤ v2 ∨ s.partOfRegion (v2 / 8) ≠ s.partOfNode d) → Completes (.fxDma d c rd rs1 rs2) s (fun t =>
      s.ScWent t d c rd 0xFFFFFFFF ∧ (t.die d).tickets = (s.die d).tickets ∧ t.pcd = s.pcd)) ∧
    (v2 < 128 → s.partOfRegion (v2 / 8) = s.partOfNode d → next < 0xFFFFFFFF → sfind (s.die d).tickets (ticketBack next 1024) ≠ some 0 →
      Completes (.fxDma d c rd rs1 rs2) s (fun t => s.ScWent t d c rd next ∧ (t.die d).ticketNext = (next + 1) % 0xFFFFFFFF ∧
        sfind (t.die d).tickets next = some (if s.mdOn v2 = true then 0 else 2) ∧
        t.pcd.descs = s.pcd.descs ++ (if s.mdOn v2 = true then [(v2, .fxdma d next v1, default)] else []))) ∧
    (v2 < 128 → s.partOfRegion (v2 / 8) = s.partOfNode d → sfind (s.die d).tickets (ticketBack next 1024) = some 0 →
      Completes (.fxDma d c rd rs1 rs2) s (fun t => (t.sc d c).fxHold = some (rd.toNat, v1, v2) ∧ (t.sc d c).pc = (s.sc d c).pc ∧
        t = s.setSc d c (t.sc d c))) ∧
    Completes (.fxDpoll d c rd rs1) s (fun t => t.pcd = s.pcd ∧
      s.ScWent t d c rd (match sfind (s.die d).tickets (v1 % 2 ^ 32) with | some v => v | none => 1)) ∧
    Completes (.fxBar d c rd rs1) s (fun t => (t.sc d c).bar = some (v1 % 256, rd.toNat) ∧ (t.sc d c).pc = (s.sc d c).pc) ∧
    (∀ e, v1 < 512 → s.partOfSite v1 = s.partOfNode d → s.siteNode v1 = some e →
      Completes (.fxSpsend d c rd rs1 rs2) s (fun t => s.ScWent t d c rd 0)) ∧
    ((512 ≤ v1 ∨ s.partOfSite v1 ≠ s.partOfNode d ∨ s.siteNode v1 = none) →
      Completes (.fxSpsend d c rd rs1 rs2) s (fun t => s.ScWent t d c rd 1 ∧ t.pcd = s.pcd)) ∧
    (∀ src v r, (s.die d).spq = (src, v) :: r → Completes (.fxSprecv d c rd) s (fun t =>
      s.ScWent t d c rd v.toNat ∧ (t.sc d c).vgsrc = BitVec.ofNat 32 src ∧ (t.die d).spq = r)) ∧
    ((s.die d).spq = [] → Completes (.fxSprecv d c rd) s (fun t => s.ScWent t d c rd 0 ∧ (t.sc d c).vgsrc = 0xFFFFFFFF#32 ∧ (t.die d).spq = []))

/-- S_CORE_MEMORY_ACCESS to backed HBM of its partition, within one line that its caches hold without error: a load takes its bytes, sign- or
zero-extended, from the S-core's data cache, or through it from the shared one; a store writes them into the shared cache's line, marks it
dirty, and into every data cache's copy; neither changes HBM or another line. CBO.INVAL takes the line out of every data cache and of the
shared one; CBO.CLEAN writes a dirty line back to its stack and keeps it clean, CBO.FLUSH writes it back and takes it out. In machine mode an
instruction that acts on the integer registers alone, in a line of the instruction cache, goes to its next pc with their values, and changes nothing
else of the S-core but its caches. Beyond the backed HBM a load or store traps, and to an unbacked address a load reads 0 and is counted. -/
def Obligations.ScoreMemoryThroughTheCache : Prop :=
  ∀ (s : State) (d c : Nat) (pa : BitVec 56) (width : Nat) (reg : BitVec 5), d < 576 → c < 4 → s.scReady d c = true →
    let a := panelAddr pa.toNat
    let ln := a / 64 * 64
    let val := ((s.sc d c).getX reg.toNat).toNat
    let stored := fun (l l' : CLine) => ∀ k, k < 64 →
      l'.bytes.getD k 0#8 = if a % 64 ≤ k ∧ k < a % 64 + width then (leBytes width val).getD (k - a % 64) 0#8 else l.bytes.getD k 0#8
    (∀ p, s.target (.score d c) a = .hbm p → a + width ≤ s.hbmSize p → s.keptRange p a width = false → 0 < width → a % 64 + width ≤ 64 →
      (∀ l sx, (cacheLine (s.sc d c).dc ln = some l ∨
          cacheLine (s.sc d c).dc ln = none ∧ (s.sc d c).dc.length < l1Lines ∧ cacheLine (s.die d).l2 ln = some l) → l.errs = [] →
        Completes (.sCoreMemoryAccess d c (.load sx) pa width reg) s (fun t =>
          (∀ r, (t.sc d c).getX r =
            if r = reg.toNat ∧ r ≠ 0 then extend sx width (leVal ((l.bytes.drop (a % 64)).take width)) else (s.sc d c).getX r) ∧
          (∀ q, cacheLine (t.die d).l2 q = cacheLine (s.die d).l2 q) ∧ SameOutside s t)) ∧
      (∀ l, cacheLine (s.die d).l2 ln = some l → l.bytes.length = 64 → Completes (.sCoreMemoryAccess d c .store pa width reg) s (fun t =>
        (∃ l', cacheLine (t.die d).l2 ln = some l' ∧ l'.dirty = true ∧ stored l l') ∧
        (∀ q, q ≠ ln → cacheLine (t.die d).l2 q = cacheLine (s.die d).l2 q) ∧
        (∀ c' m, cacheLine (s.sc d c').dc ln = some m → m.bytes.length = 64 → ∃ m', cacheLine (t.sc d c').dc ln = some m' ∧ stored m m') ∧
        (∀ r, (t.sc d c).getX r = (s.sc d c).getX r) ∧ SameOutside s t))) ∧
    (∀ p, s.target (.score d c) ln = .hbm p → ln + 64 ≤ s.hbmSize p → s.keptRange p ln 64 = false →
      Completes (.sCoreMemoryAccess d c .cboInval pa width reg) s (fun t => cacheLine (t.die d).l2 ln = none ∧
        (∀ c', cacheLine (t.sc d c').dc ln = none) ∧ (∀ q, q ≠ ln → cacheLine (t.die d).l2 q = cacheLine (s.die d).l2 q) ∧ SameOutside s t)) ∧
    (∀ p l m loc, s.target (.score d c) ln = .hbm p → ln + 64 ≤ s.hbmSize p → s.keptRange p ln 64 = false → cacheLine (s.die d).l2 ln = some l →
      l.bytes.length = 64 → l.errs = [] →
      (l.dirty = false → Completes (.sCoreMemoryAccess d c .cboClean pa width reg) s (fun t => (∀ q, cacheLine (t.die d).l2 q = cacheLine (s.die d).l2 q) ∧
        t.mds = s.mds ∧ t.pcd = s.pcd)) ∧
      (l.dirty = true → s.refillRoom p ln = true → s.hbmMap p ln = some (m, loc) → s.mdOn m = true → (s.md m).errs = [] →
        let home := fun (t : State) => ∀ b, memRead (t.md m).mem b = if loc ≤ b ∧ b < loc + 64 then l.bytes.getD (b - loc) 0#8 else memRead (s.md m).mem b
        Completes (.sCoreMemoryAccess d c .cboClean pa width reg) s (fun t => home t ∧ cacheLine (t.die d).l2 ln = some { l with dirty := false }) ∧
        Completes (.sCoreMemoryAccess d c .cboFlush pa width reg) s (fun t => home t ∧ cacheLine (t.die d).l2 ln = none ∧
          ∀ c', cacheLine (t.sc d c').dc ln = none))) ∧
    (∀ p l z, let y := s.sc d c
      let pc := y.pc.toNat
      let w := leVal ((l.bytes.drop (pc % 64)).take 4)
      s.scFree d c = true → s.rvInterrupt d c = none → y.st = 1 → y.mode = 3 → pc + 4 ≤ 2 ^ 56 → pc % 64 + 4 ≤ 64 →
      (∀ k ∈ [0, 2], s.target (.score d c) (panelAddr (pc + k)) = .hbm p ∧ panelAddr (pc + k) + 2 ≤ s.hbmSize p ∧ s.keptRange p (panelAddr (pc + k)) 2 = false) →
      cacheLine y.ic (panelAddr pc / 64 * 64) = some l → l.bytes.length = 64 → l.errs = [] → w % 4 = 3 → y.plain w 4 = some z →
      w % 128 ∈ [0x13, 0x17, 0x1B, 0x33, 0x37, 0x3B, 0x63, 0x67, 0x6F] →
      Completes (.sCoreMemoryAccess d c .execute pa width reg) s (fun t => (t.sc d c).pc = z.pc ∧ (∀ r, (t.sc d c).getX r = z.getX r) ∧
        (t.sc d c).csrs = y.csrs ∧ (t.sc d c).mode = 3 ∧ (t.sc d c).st = 1 ∧ (∀ q, cacheLine (t.die d).l2 q = cacheLine (s.die d).l2 q) ∧
        (∀ p, t.place d p = s.place d p) ∧ t.regs = s.regs ∧ t.pcd = s.pcd ∧ SameOutside s t)) ∧
    (∀ p, s.target (.score d c) a = .hbm p → s.hbmSize p < a + width →
      (∀ sx, Completes (.sCoreMemoryAccess d c (.load sx) pa width reg) s (fun t => s.ScTrapped t d c .loadAccessFault pa.toNat)) ∧
      Completes (.sCoreMemoryAccess d c .store pa width reg) s (fun t => s.ScTrapped t d c .storeAccessFault pa.toNat)) ∧
    (s.target (.score d c) a = .unbacked → ∀ sx, Completes (.sCoreMemoryAccess d c (.load sx) pa width reg) s (fun t =>
      (t.die d).tally = min 0xFFFFFFFF ((s.die d).tally + 1) ∧
      ∀ r, (t.sc d c).getX r = if r = reg.toNat then 0#64 else (s.sc d c).getX r))

-- Places, turns, tokens (spec/06 R183, spec/08) -----------------------------------------------------------------------------

/-- A running place that completes is DONE and sets its bit of vgpend; no other place changes, and with the die's last place its phase ends
(where the counters disagree with the report's DIE record, 0x2156 follows and is not claimed here). The start cycle clears the flags, zeroes
the counters of a die that does not resume, and leaves every place that the strobe armed running or halted. TLOAD makes its slot invalid and
loading, and sends the load to the memory die that holds the image; one for the slot in force or a slot being loaded halts the place with cause
6. TLOAD_COMPLETE makes the slot valid. At the end of a turn a place ends with FIN, counts an epoch boundary, waits for a slot that is still
loading, halts with 0x2153 where the next turn has a fault, and otherwise runs it from its first entry. -/
def Obligations.PlacesAndTurns : Prop :=
  (∀ (s : State) (d : Nat), d < 576 → s.coreOn d = true →
    (∀ p, p < 25 → (s.place d p).st = .running →
      let s1 := s.modPlace d p (fun y => { y with st := .done })
      let last := (s.die d).inPhase && (s1.die d).allStopped && !s1.yieldLate d
      (last = true → ∀ q e n, s.partOfNode d = some q → s.endsOf q d = some (e, n) →
        s.rg d CD_SCH_NOMINAL % 2 ^ 48 = e % 2 ^ 48 ∧ s.rg d CD_SCH_ISSUED % 2 ^ 48 = n % 2 ^ 48) →
      Completes (.placeDone d p) s (fun t =>
        t.place d p = { s.place d p with st := .done } ∧ (t.die d).vgpend = (s.die d).vgpend ||| 2 ^ p ∧ (∀ q, q ≠ p → t.place d q = s.place d q) ∧
        (t.die d).inPhase = ((s.die d).inPhase && !last) ∧ (last = true → (t.die d).stopped = true) ∧
        (∀ e, e ≠ d → t.die e = s.die e) ∧ t.regs = s.regs ∧ t.mds = s.mds ∧ t.sess = s.sess)) ∧
    (∀ p, p < 25 → (s.place d p).st ≠ .running → exec (.placeDone d p) s = .next s) ∧
    ((s.die d).startAt = none → exec (.placeStart d) s = .next s) ∧
    ((s.die d).startAt.isSome = true → Completes (.placeStart d) s (fun t =>
      (t.die d).startAt = none ∧ (t.die d).inPhase = true ∧ (t.die d).flags = [] ∧ (t.die d).resumed = false ∧
      ((s.die d).resumed = false → (t.die d).landPtr = 0 ∧ (t.die d).dmaPtr = 0 ∧ ∀ r ∈ schedRegs, t.rg d r = 0) ∧
      (∀ p, p < 25 → (s.die d).strobed.testBit p = true → (s.place d p).st = .armed → (t.place d p).st = .running ∨ (t.place d p).st = .halted) ∧
      (∀ p, (s.die d).strobed.testBit p = false → t.place d p = s.place d p)))) ∧
  (∀ (s : State) (d p : Nat), d < 576 → p < 25 → s.coreOn d = true →
    let x := s.place d p
    let u := x.turn x.slot
    (∀ (slot : BitVec 3) (addr : BitVec 36) (m o : Nat), x.st ≠ .halted → (x.st = .running → x.slot ≠ slot.toNat) → x.loading.testBit slot.toNat = false →
      s.hbmMap ((s.partOfNode d).getD 0) (addr.toNat * 64) = some (m, o) → Completes (.tload d p slot addr) s (fun t =>
        (∀ k, (t.place d p).valid.testBit k = if k = slot.toNat then false else x.valid.testBit k) ∧
        (∀ k, (t.place d p).loading.testBit k = if k = slot.toNat then true else x.loading.testBit k) ∧
        (∀ k, k ≠ p → t.place d k = s.place d k) ∧ t.regs = s.regs ∧
        (∃ dd : DmaDesc, t.pcd.descs = s.pcd.descs ++ [(m, .tload d p slot.toNat, dd)] ∧ dd.length = 0x2000#32 ∧ dd.src.toNat = addr.toNat * 64 ∧
          dd.dst = BitVec.ofNat 64 (0x4000000000000000 + (s.nodeSite d).getD 0 * 2 ^ 32 + 0x20000000 + p * 0x10000 + slot.toNat * 0x2000)))) ∧
    (∀ (slot : BitVec 3) (addr : BitVec 36), x.st ≠ .halted → (x.st = .running ∧ x.slot = slot.toNat ∨ x.loading.testBit slot.toNat = true) →
      Completes (.tload d p slot addr) s (fun t => (t.place d p).st = .halted ∧ (t.place d p).valid = x.valid ∧
        (t.place d p).loading = x.loading ∧ (∃ a, t.pcd.alerts = s.pcd.alerts ++ [a] ∧ a.code = 0x2153 ∧ a.node = d) ∧
        (s.rgB d CD_PL_FAULT_INFO 31 = false → t.rgF d CD_PL_FAULT_INFO 19 16 = 6))) ∧
    (∀ slot : BitVec 3, x.loading.testBit slot.toNat = true → x.waitLoad = false → Completes (.tloadComplete d p slot) s (fun t =>
      (∀ k, (t.place d p).valid.testBit k = if k = slot.toNat then true else x.valid.testBit k) ∧
      (∀ k, (t.place d p).loading.testBit k = if k = slot.toNat then false else x.loading.testBit k) ∧ (t.place d p).st = x.st ∧ SameOutside s t)) ∧
    ((x.st ≠ .running ∨ x.waitLoad = true ∨ x.yielded = true ∨ x.ended = true) → exec (.turnSwitch d p) s = .next s) ∧
    (x.st = .running → x.waitLoad = false → x.yielded = false → x.ended = false → u.epoch = true → u.fin = true →
      Completes (.turnSwitch d p) s (fun t => t.place d p = { x with ended := true } ∧ t.rg d CD_PL_EPOCH =
        if (s.die d).epochAt = x.base + u.rep * u.period + 1 then s.rg d CD_PL_EPOCH else (s.rg d CD_PL_EPOCH + 1) % 2 ^ 32)) ∧
    (x.st = .running → x.waitLoad = false → x.yielded = false → x.ended = false → u.epoch = false →
      (u.fin = true → exec (.turnSwitch d p) s =
        .next (s.setPlace d p { x with ended := true })) ∧
      (u.fin = false → x.loading.testBit u.next = true → exec (.turnSwitch d p) s =
        .next (s.setPlace d p { x with slot := u.next, base := x.base + u.rep * u.period, waitLoad := true })) ∧
      (u.fin = false → x.loading.testBit u.next = false → x.memErr = [] → lowestFault (s.turnFaults d p u.next) = none →
        exec (.turnSwitch d p) s = .next (s.setPlace d p { x with slot := u.next, base := x.base + u.rep * u.period, entry := 0 })) ∧
      (∀ n e, u.fin = false → x.loading.testBit u.next = false → x.memErr = [] → lowestFault (s.turnFaults d p u.next) = some (n, e) →
        Completes (.turnSwitch d p) s (fun t => (t.place d p).st = .halted ∧ (∀ k, k ≠ p → t.place d k = s.place d k) ∧
          ∃ a, t.pcd.alerts = s.pcd.alerts ++ [a] ∧ a.code = 0x2153 ∧ a.node = d))))

/-- A token leaves a lane with a credit and is on its way to its peer; one that arrives without error in its own generation is queued where
there is room, a correction counted; a credit comes back up to the lane's limit. A token of another generation is discarded and counted; one
with an uncorrectable error raises 0x2150, one that overruns its queue 0x2152. -/
def Obligations.TokensAndCredits : Prop :=
  ∀ (s : State) (d p lane : Nat), d < 576 → p < 25 → lane < 4 → s.coreOn d = true →
    let x := s.place d p
    let l := x.lane lane
    (∀ n tok r e q m, 2 ≤ lane → 0 < l.cred → l.out = (n, tok) :: r → s.peer d p lane = some (e, q, m) →
      Completes (.tokenDepart d p lane) s (fun t =>
        ((t.place d p).lane lane).out = r ∧ ((t.place d p).lane lane).cred = l.cred - 1 ∧
        ((t.place e q).lane m).wire = ((s.place e q).lane m).wire ++ [(s.ccountOf d + lambdaOf (s.bindOf d p lane), tok)] ∧
        (t.die d).lastDep = s.ccountOf d ∧ SameOutside s t)) ∧
    ((lane < 2 ∨ l.cred = 0 ∨ l.out = [] ∨ s.peer d p lane = none) → exec (.tokenDepart d p lane) s = .next s) ∧
    (∀ tok, lane < 2 → tok.gen.toNat = s.rg d CD_PL_CTRL % 16 →
      (l.q.length < s.laneRoom d p lane → Completes (.tokenArrive d p lane tok .clean .clean) s (fun t =>
        ((t.place d p).lane lane).q = l.q ++ [tok] ∧ ((t.place d p).lane lane).wire = l.wire.tail ∧ t.regs = s.regs ∧ SameOutside s t)) ∧
      (s.laneRoom d p lane ≤ l.q.length → Completes (.tokenArrive d p lane tok .clean .clean) s (fun t =>
        ((t.place d p).lane lane).q = l.q ∧ (∃ a, t.pcd.alerts = s.pcd.alerts ++ [a] ∧ a.code = 0x2152 ∧ a.node = d) ∧ SameOutside s t)) ∧
      (s.rg d CD_PL_TOK_CORR < 0xFFFFFFFE → l.q.length < s.laneRoom d p lane → Completes (.tokenArrive d p lane tok .clean .corrected) s (fun t =>
        ((t.place d p).lane lane).q = l.q ++ [tok] ∧ t.rg d CD_PL_TOK_CORR = s.rg d CD_PL_TOK_CORR + 1 ∧ SameOutside s t)) ∧
      Completes (.tokenArrive d p lane tok .clean .uncorrectable) s (fun t =>
        ((t.place d p).lane lane).q = l.q ∧ (∃ a, t.pcd.alerts = s.pcd.alerts ++ [a] ∧ a.code = 0x2150 ∧ a.node = d) ∧ SameOutside s t)) ∧
    (∀ tok, lane < 2 → tok.gen.toNat ≠ s.rg d CD_PL_CTRL % 16 → s.rg d CD_PL_STALE < 0xFFFFFFFE →
      Completes (.tokenArrive d p lane tok .clean .clean) s (fun t =>
        ((t.place d p).lane lane).q = l.q ∧ t.rg d CD_PL_STALE = s.rg d CD_PL_STALE + 1 ∧ SameOutside s t)) ∧
    (∀ tok pay, lane < 2 → Completes (.tokenArrive d p lane tok .uncorrectable pay) s (fun t =>
      ((t.place d p).lane lane).q = l.q ∧ (∃ a, t.pcd.alerts = s.pcd.alerts ++ [a] ∧ a.code = 0x2150 ∧ a.node = d) ∧ SameOutside s t)) ∧
    (2 ≤ lane → Completes (.creditReturn d p lane) s (fun t =>
      ((t.place d p).lane lane).cred = min (s.laneRoom d p lane) (l.cred + 1) ∧ ((t.place d p).lane lane).retAt = l.retAt.tail ∧
      ((t.place d p).lane lane).out = l.out ∧ (∀ k, k ≠ lane → (t.place d p).lane k = x.lane k) ∧ SameOutside s t))

-- The scratchpad (spec/07) -----------------------------------------------------------------------------------------------------

/-- A write of CD.SPAD_LINEAR, CD.SPAD_PWR or CD.SPAD_SCRUB: discarded from every source but the active PCD, discarded with CFG_REJECT while
a place of the die is armed or running; else it sets its modes, powers its groups, or begins the scrub. Of a group that stays powered no bit
changes; every other byte reads 0. -/
def Obligations.ScratchpadSettings : Prop :=
  ∀ (s : State) (src : Source) (site d : Nat) (v : W32), src.ok = true → site < 512 → s.reaches src site d →
    let all := [Instr.spadLinearWrite src site v, Instr.spadPwrWrite src site v, Instr.spadScrubStart src site 1#32]
    let mask := if s.enD then v.toNat else v.toNat % 65536
    (src ≠ .pcd → ∀ i ∈ all, exec i s = .next s) ∧
    (src = .pcd → (s.die d).busy = true → ∀ i ∈ all, exec i s = .next (s.setRgB d CD_SPAD_STATUS 4 true)) ∧
    (src = .pcd → (s.die d).busy = false →
      exec (.spadLinearWrite src site v) s = .next (s.setRg d CD_SPAD_LINEAR mask) ∧
      Completes (.spadPwrWrite src site v) s (fun t => t.rg d CD_SPAD_PWR = mask ∧
        (∀ pos, memRead (t.die d).spad.mem pos = if mask.testBit (groupOfPos pos) = true ∧ (s.rg d CD_SPAD_PWR).testBit (groupOfPos pos) = true
          then memRead (s.die d).spad.mem pos else 0#8) ∧
        (∀ g, g < 32 → mask.testBit g = true → (s.rg d CD_SPAD_PWR).testBit g = false → (t.die d).spad.settling.contains g = true) ∧
        (∀ e, e ≠ d → t.die e = s.die e) ∧ SameOutside s t) ∧
      exec (.spadScrubStart src site 1#32) s = .next (s.setRgF d CD_SPAD_STATUS 2 0 1) ∧
      (v.getLsbD 0 = false → exec (.spadScrubStart src site v) s = .next s))

/-- A group that has settled reads 0 and is usable, and no other group changes. A scrub that ends zeroes the whole scratchpad; a line that
fails its verify withholds the site and raises 0x2142, and with a job on the die 0x2140. The waiting request that a grant picks stores or loads
the bytes of one line, and with its last line it is done and its S-core or reader has the value; one whose group is off is dropped unperformed.
A repair removes the flipped bit of its word. Where no request or no pair is free, neither row does anything. -/
def Obligations.ScratchpadServices : Prop :=
  ∀ (s : State) (d : Nat), d < 576 → s.coreOn d = true →
    (∀ g, g < 32 → (s.die d).spad.settling.contains g = false → exec (.spadGroupReady d g) s = .next s) ∧
    (∀ g, g < 32 → (s.die d).spad.settling.contains g = true → (∀ p, s.partOfNode d = some p → (s.part p).loading = false) → Completes (.spadGroupReady d g) s (fun t =>
      (t.die d).spad.settling.contains g = false ∧
      (∀ pos, pos < 0x8000000 → memRead (t.die d).spad.mem pos = if groupOfPos pos = g then 0#8 else memRead (s.die d).spad.mem pos) ∧ SameOutside s t)) ∧
    (s.rgB d CD_SPAD_STATUS 0 = true → (∀ n, n < 2097152 → Completes (.spadScrubDone d (some n)) s (fun t =>
      (t.die d).spad.mem = [] ∧ (t.die d).spad.errs = [] ∧ (t.die d).withheld = true ∧ t.rg d CD_SPAD_STATUS % 8 = 6 ∧
      (∃ a, a.code = 0x2142 ∧ a.node = d ∧ if (s.die d).ctx.isSome then ∃ b, t.pcd.alerts = s.pcd.alerts ++ [a, b] ∧ b.code = 0x2140 ∧ b.node = d
        else t.pcd.alerts = s.pcd.alerts ++ [a]) ∧ SameOutside s t)) ∧
      ((∀ p, s.partOfNode d = some p → (s.part p).scrubQ ≠ [] ∧ (s.part p).ctxs = []) → Completes (.spadScrubDone d none) s (fun t =>
        (t.die d).spad.mem = [] ∧ (t.die d).spad.errs = [] ∧ (t.die d).withheld = (s.die d).withheld ∧ t.rg d CD_SPAD_STATUS % 8 = 2 ∧
        SameOutside s t))) ∧
    (s.rgB d CD_SPAD_STATUS 0 = false → ∀ b, (∀ n, b = some n → n < 2097152) → exec (.spadScrubDone d b) s = .next s) ∧
    (∀ pr, pr < 64 → (s.pairFree d pr = false ∨ s.spadWinner d pr = none) → exec (.nonschedAccessGrant d pr) s = .next s) ∧
    (∀ pr i r a, pr < 64 → s.pairFree d pr = true → s.spadWinner d pr = some (i, r, a) →
      let lo := max a r.addr
      let n := min (a + 64) (r.addr + r.width) - lo
      let left := r.left.filter (fun b => decide (b ≠ a))
      let got := sput r.got a (s.spadBytes d lo n)
      let v := leVal (got.flatMap (·.2))
      (s.spadOpen d lo n = false → r.pkt = none → r.sc = none → Completes (.nonschedAccessGrant d pr) s (fun t =>
        (t.die d).spad.reqs = (s.die d).spad.reqs.eraseIdx i ∧ (t.die d).spad.mem = (s.die d).spad.mem)) ∧
      (s.spadOpen d lo n = true → (s.die d).spad.errs = [] →
        (∀ bs, r.wdata = some bs → bs.length = r.width → 0 < n → Completes (.nonschedAccessGrant d pr) s (fun t =>
          (t.die d).spad.reqs = (if left = [] then (s.die d).spad.reqs.eraseIdx i else (s.die d).spad.reqs.set i { r with left := left }) ∧
          (∀ k, left = [] → r.pkt = some k → t.pcd = (s.inject (k.reply 3 0 [])).pcd) ∧
          ∀ x b, x < 0x8000000 → b < 8 → t.spadBit d x b =
            if lo ≤ x ∧ x < lo + n then (bs.getD (x - r.addr) 0#8).getLsbD b else s.spadBit d x b)) ∧
        (r.wdata = none → Completes (.nonschedAccessGrant d pr) s (fun t => (t.die d).spad.mem = (s.die d).spad.mem ∧
          (left ≠ [] → (t.die d).spad.reqs = (s.die d).spad.reqs.set i { r with left := left, got := got } ∧ SameOutside s t) ∧
          (left = [] → (t.die d).spad.reqs = (s.die d).spad.reqs.eraseIdx i ∧
            (r.pkt = none → r.sc = none → t.rdata = v) ∧
            (∀ k, r.pkt = some k → t.pcd = (s.inject (k.reply 2 0 (got.flatMap (·.2)))).pcd) ∧
            (∀ e c rd sx, r.pkt = none → r.sc = some (e, c, rd, sx) → t.sc e c = (s.sc e c).setLoaded rd sx r.width v)))))) ∧
    (∀ pr, pr < 64 → sfind (s.die d).spad.repair pr = none → exec (.eccRepairWriteback d pr) s = .next s) ∧
    (∀ pr n, pr < 64 → sfind (s.die d).spad.repair pr = some n → s.pairFree d pr = true → s.spadWinner d pr = none →
      (s.die d).spad.granted 3 = 0 → Completes (.eccRepairWriteback d pr) s (fun t =>
        sget 0 (t.die d).spad.errs (n - 1) = 0 ∧ (∀ w, w ≠ n - 1 → sget 0 (t.die d).spad.errs w = sget 0 (s.die d).spad.errs w) ∧
        sfind (t.die d).spad.repair pr = none ∧ (t.die d).spad.mem = (s.die d).spad.mem ∧ SameOutside s t))

-- Contexts and the schedule (spec/08 R244-R253, spec/09, spec/10 R294) -----------------------------------------------------------

/-- A drained die tells the active PCD; a watchdog that fires sets its bit and tells the PCD; a quantum that expires while another context
is ready marks the running one; a switch with no token left and every pipeline complete saves the running context, makes it ready and runs the
next, and does nothing before; a forced drain goes on with the next phase and keeps the generation it cut off. SLOW_DIE_EVAL takes the counters of every powered die of a partition as the base of the next interval, and changes
no register of a compute die, no session and no memory die. -/
def Obligations.ContextsAndSlowDies : Prop :=
  (∀ s : State,
    (∀ d, d < 576 → s.coreOn d = true →
      (s.drainedNow d = true → exec (.drainedReport d) s = .next (s.spNotice d 2)) ∧
      (s.drainedNow d = false → exec (.drainedReport d) s = .next s) ∧
      exec (.watchdogIdle d) s = .next ((s.setRgB d CD_PL_STATUS 0 true).spNotice d 0)) ∧
    (∀ p, p < 16 → (s.running p = none → exec (.quantumExpire p) s = .next s ∧ exec (.contextSwitch p) s = .next (s.tryRun p 63)) ∧
      ((s.part p).drainAt = none → exec (.drainForced p) s = .next s)) ∧
    (∀ p cid c, p < 16 → s.running p = some (cid, c) →
      ((s.part p).ctxs.any (fun e => decide (e.1 ≠ cid) && decide (e.2.st = .ready) && e.2.endAs.isNone) = true →
        Completes (.quantumExpire p) s (fun t => sfind (t.part p).ctxs cid = some { c with expired := true } ∧
          (∀ k, k ≠ cid → sfind (t.part p).ctxs k = sfind (s.part p).ctxs k) ∧ t.dies = s.dies ∧ t.sess = s.sess)) ∧
      ((s.part p).ctxs.any (fun e => decide (e.1 ≠ cid) && decide (e.2.st = .ready) && e.2.endAs.isNone) = false →
        exec (.quantumExpire p) s = .next s) ∧
      (∀ n cn, s.allYielded p = true → c.expired = true → (s.part p).loading = false →
        (∀ d ∈ s.diesOf p, (s.die d).pipesDone = true ∧ (s.die d).tokens = 0) →
        ((s.saveCtx p cid).part p).nextReady cid = some n → sfind ((s.saveCtx p cid).part p).ctxs n = some cn →
        ((cn.img.phases[cn.phase]?).getD default).binds = [] → Completes (.contextSwitch p) s (fun t =>
          (t.part p).run = some n ∧ (sfind (t.part p).ctxs n).map (fun x => (x.st, x.expired)) = some (.running, false) ∧
          (n ≠ cid → (sfind (t.part p).ctxs cid).map (fun x => (x.st, x.phase)) = some (.ready, c.phase)) ∧
          (∀ q, q ≠ p → t.part q = s.part q) ∧ t.sess = s.sess)) ∧
      ((s.allYielded p = false ∨ c.expired = false ∨ (s.part p).loading = true ∨ ∃ d ∈ s.diesOf p, (s.die d).pipesDone = false) →
        exec (.contextSwitch p) s = .next s) ∧
      (∀ n, (s.part p).drainAt = some n → c.phase + 1 < c.img.phases.length → ((c.img.phases[c.phase + 1]?).getD default).binds = [] →
        Completes (.drainForced p) s (fun t => (t.part p).drainAt = none ∧
          (t.part p).forcedGens = (if (s.part p).forcedGens.contains ((c.phase + 1) % 16) then [] else insUniq (c.phase % 16) (s.part p).forcedGens) ∧
          (sfind (t.part p).ctxs cid).map (·.phase) = some (c.phase + 1) ∧ (∀ q, q ≠ p → t.part q = s.part q) ∧ t.sess = s.sess)))) ∧
  (∀ s : State, Completes .slowDieEval s (fun t =>
    (∀ p d, p < 16 → d ∈ s.diesOf p → s.coreOn d = true →
      (t.die d).lastCnt = [CD_STALL_FSTEP, CD_STALL_HOLD, CD_STALL_THERMAL, CD_STALL_MEMLATE, CD_STALL_BP, CD_SCH_ELAPSED].map
        (fun r => s.rg d r % 2 ^ 48)) ∧
    (∀ d o, d < 576 → o < 2 ^ 32 → t.rg d o = s.rg d o) ∧ t.mds = s.mds ∧ t.sess = s.sess))

/-- The landing checks due, with every flag set, clear their flags and advance; with one unset the die is late, and the unset flags are counted
once. A snapshot copies the eight counters; a match is armed with its result cleared, and resolves when its cycle has passed. DMA_ISSUE sends
the descriptor due and advances; one for a memory die outside the partition or fenced is rejected with 0x2202. -/
def Obligations.ScheduleChecksAndSnapshots : Prop :=
  ∀ (s : State) (d : Nat), d < 576 → s.coreOn d = true →
    let x := s.die d
    (s.landDue d = false → exec (.landingCheck d) s = .next s) ∧
    (s.landDue d = true → x.tabErr = [] → (∀ g ∈ x.landGroup, sget false x.flags g = true) → Completes (.landingCheck d) s (fun t =>
      (t.die d).landPtr = x.landPtr + x.landGroup.length ∧ (t.die d).landLate = false ∧
      (∀ g, sget false (t.die d).flags g = if g ∈ x.landGroup then false else sget false x.flags g) ∧ t.regs = s.regs ∧ SameOutside s t)) ∧
    (s.landDue d = true → x.tabErr = [] → x.landLate = false → (∃ g ∈ x.landGroup, sget false x.flags g = false) →
      Completes (.landingCheck d) s (fun t => (t.die d).landLate = true ∧ (t.die d).landPtr = x.landPtr ∧ (t.die d).flags = x.flags ∧
        (s.rg d CD_LAND_LATE + 4096 < 0xFFFFFFFF →
          t.rg d CD_LAND_LATE = s.rg d CD_LAND_LATE + (x.landGroup.filter (fun g => !sget false x.flags g)).length) ∧ SameOutside s t)) ∧
    (s.landDue d = true → x.tabErr = [] → x.landLate = true → (∃ g ∈ x.landGroup, sget false x.flags g = false) →
      exec (.landingCheck d) s = .next s) ∧
    (∀ (src : Source) (site : Nat), src.ok = true → site < 512 → s.reaches src site d →
      (∀ v : W32, v.getLsbD 0 = true → Completes (.schSnapshot src site v) s (fun t =>
        (∀ k, k < 8 → t.rg d (CD_SCH_SNAP k) = s.rg d (schedRegs.getD k 0)) ∧ t.rgB d CD_SCH_STATUS 2 = true ∧
        t.dies = s.dies ∧ t.pcd = s.pcd ∧ SameOutside s t)) ∧
      (∀ v : W32, v.getLsbD 0 = false → exec (.schSnapshot src site v) s = .next s) ∧
      (∀ v : W64, Completes (.schMatchArm src site v) s (fun t => t.rg d CD_SCH_MATCH = v.toNat &&& 0xFC00FFFFFFFFFFFF ∧
        t.rg d CD_SCH_MATCH_RES = 0 ∧ t.rg d CD_SCH_MATCH_ENTRY = 0 ∧ t.dies = s.dies ∧ t.pcd = s.pcd ∧ SameOutside s t))) ∧
    (s.rgB d CD_SCH_MATCH 63 = true → (x.inPhase = false ∨ s.rg d CD_SCH_MATCH % 2 ^ 48 < s.rg d CD_SCH_NOMINAL % 2 ^ 48) →
      exec (.schMatchResolve d) s = .next (s.setRgB d CD_SCH_MATCH_RES 63 true)) ∧
    (s.rgB d CD_SCH_MATCH 63 = false ∨ (x.inPhase = true ∧ s.rg d CD_SCH_NOMINAL % 2 ^ 48 ≤ s.rg d CD_SCH_MATCH % 2 ^ 48) →
      exec (.schMatchResolve d) s = .next s) ∧
    (s.dmaDue d = false → exec (.dmaIssue d) s = .next s) ∧
    (s.dmaDue d = true → x.tabErr = [] →
      let m := (x.dmaEntry x.dmaPtr).2.2.2
      s.partOfRegion (m / 8) = s.partOfNode d → s.mdOn m = true → Completes (.dmaIssue d) s (fun t =>
        (t.die d).dmaPtr = x.dmaPtr + 1 ∧
        t.pcd.descs = s.pcd.descs ++ [(m, .sched d, descOf (readBytes x.tabs (dmaTableBase + 64 * (x.dmaEntry x.dmaPtr).2.2.1) 64))] ∧
        t.regs = s.regs ∧ SameOutside s t)) ∧
    (s.dmaDue d = true → x.tabErr = [] → (s.partOfRegion ((x.dmaEntry x.dmaPtr).2.2.2 / 8) ≠ s.partOfNode d ∨ s.mdOn (x.dmaEntry x.dmaPtr).2.2.2 = false) →
      Completes (.dmaIssue d) s (fun t => (t.die d).dmaPtr = x.dmaPtr + 1 ∧ t.pcd.descs = s.pcd.descs ∧
        (∃ a, t.pcd.alerts = s.pcd.alerts ++ [a] ∧ a.code = 0x2202 ∧ a.node = d) ∧ t.regs = s.regs ∧ SameOutside s t))

-- HBM (spec/10 R299-R310) --------------------------------------------------------------------------------------------------------

/-- HBM_ECC_WRITEBACK writes a corrected line back: its flipped bits are gone, its bytes stand. The patrol of a clean stack only counts its
reads; one whose only line in error is correctable queues the line's write-back and counts it, and one whose line is not counts it and raises
0x2201 with the partition-relative address. The corrected-word check takes the counter as its new base, and above the configured rate raises 0x1200. The scrub of a stack:
started by the active PCD alone; at its end every byte of the stack that maps into the range reads 0 and holds no flipped bit, every other
byte reads as before, and MD.SCRUB_CTRL says DONE. -/
def Obligations.HbmErrorsAndScrub : Prop :=
  (∀ (s : State) (m : Nat), m < 128 → s.mdOn m = true →
    (∀ line, (s.md m).wb.contains line = true → Completes (.hbmEccWriteback m line) s (fun t =>
      sget 0 (t.md m).errs line = 0 ∧ (t.md m).wb.contains line = false ∧ (∀ l, l ≠ line → sget 0 (t.md m).errs l = sget 0 (s.md m).errs l) ∧
      (t.md m).mem = (s.md m).mem ∧ (∀ k, k ≠ m → t.md k = s.md k) ∧ t.dies = s.dies ∧ t.pcd = s.pcd)) ∧
    (∀ line, (s.md m).wb.contains line = false → exec (.hbmEccWriteback m line) s = .next s) ∧
    ((s.md m).errs = [] → exec (.hbmPatrol m) s = .next (s.bumpPerf (nodeMd m) MD_RD_BYTES stackBytes)) ∧
    (∀ l e, (s.md m).errs = [(l, e)] → rsJudge e = .corr → Completes (.hbmPatrol m) s (fun t => (t.md m).wb.contains l = true ∧ (t.md m).errs = [(l, e)] ∧
      (t.md m).mem = (s.md m).mem ∧ (s.rg (nodeMd m) MD_ECC_CORR < 0xFFFFFFFE →
        t.rg (nodeMd m) MD_ECC_CORR = s.rg (nodeMd m) MD_ECC_CORR + 1 ∧ t.pcd = s.pcd))) ∧
    (∀ l e, (s.md m).errs = [(l, e)] → rsJudge e = .bad → s.rg (nodeMd m) MD_ECC_UNCORR < 0xFFFFFFFE → Completes (.hbmPatrol m) s (fun t =>
      t.rg (nodeMd m) MD_ECC_UNCORR = s.rg (nodeMd m) MD_ECC_UNCORR + 1 ∧ t.rgB (nodeMd m) MD_FAULT_INFO 31 = true ∧
      (∃ a, t.pcd.alerts = s.pcd.alerts ++ [a] ∧ a.code = 0x2201 ∧ a.node = nodeMd m ∧ a.unit = unitStack m ∧
        a.data = s.hbmUnmap (s.partOfMd m) m (64 * l)) ∧ (t.md m).mem = (s.md m).mem)) ∧
    (let now := s.rg (nodeMd m) MD_ECC_CORR
      let grown := if (s.md m).corrBase ≤ now then now - (s.md m).corrBase else now
      let s1 := s.setMd m { s.md m with corrBase := now, corrAcc := 0 }
      exec (.hbmCorrRateCheck m) s =
        .next (if (s.pcd.conf.map (·.corrRate)).getD 1000 < (s.md m).corrAcc + grown then s1.pcdEvent 0x1200 (s.partOfMd m) (unitStack m) 0 else s1))) ∧
  (∀ (s : State) (m : Nat), m < 128 → s.mdOn m = true →
    let p := s.partOfMd m
    (∀ (src : Source) (v : W32), src.ok = true → (src ≠ .pcd ∨ v.getLsbD 0 = false) → exec (.mdScrubStart src m v) s = .next s) ∧
    (∀ v : W32, v.getLsbD 0 = true → Completes (.mdScrubStart .pcd m v) s (fun t =>
      t.rgF (nodeMd m) MD_SCRUB_CTRL 2 1 = 1 ∧ t.mds = s.mds ∧ t.dies = s.dies ∧ (t.part p).scrubLeft.contains m = true ∧
      ((s.part p).scrubQ = [] → (t.part p).scrubQ.map (fun r => (r.base, r.len)) =
        [(s.rg (nodeMd m) MD_SCRUB_BASE, 4096 * s.rg (nodeMd m) MD_SCRUB_LEN)]) ∧
      ((s.part p).scrubQ ≠ [] → (t.part p).scrubQ = (s.part p).scrubQ))) ∧
    (s.rgB (nodeMd m) MD_SCRUB_CTRL 1 = false → exec (.mdScrubDone m) s = .next s) ∧
    (s.rgB (nodeMd m) MD_SCRUB_CTRL 1 = true → ((∃ k ∈ (s.part p).scrubLeft, k ≠ m) ∨ (s.part p).scrubQ = []) → Completes (.mdScrubDone m) s (fun t =>
      (∀ a, memRead (t.md m).mem a =
        if s.rg (nodeMd m) MD_SCRUB_BASE / 4096 * 4096 ≤ s.hbmUnmap p m a ∧
            s.hbmUnmap p m a < s.rg (nodeMd m) MD_SCRUB_BASE / 4096 * 4096 + 4096 * s.rg (nodeMd m) MD_SCRUB_LEN then 0#8
        else memRead (s.md m).mem a) ∧
      (∀ l, sget 0 (t.md m).errs l =
        if s.rg (nodeMd m) MD_SCRUB_BASE / 4096 * 4096 ≤ s.hbmUnmap p m (64 * l) ∧
            s.hbmUnmap p m (64 * l) < s.rg (nodeMd m) MD_SCRUB_BASE / 4096 * 4096 + 4096 * s.rg (nodeMd m) MD_SCRUB_LEN then 0
        else sget 0 (s.md m).errs l) ∧
      t.rgF (nodeMd m) MD_SCRUB_CTRL 2 1 = 2 ∧ (t.part p).scrubLeft.contains m = false ∧ (∀ k, k ≠ m → t.md k = s.md k) ∧ t.dies = s.dies)))

/-- STACK_FAIL of cause 2 with fewer than four bad sectors within a second does nothing; any other sets the stack's FAILED bit, keeps the
first fault record and raises 0x3200. HBM_CAP_EVAL names the hottest stack above 85 °C and no other, caps it, and after 100 ms halves again;
a stack at 82 °C or below has no cap. -/
def Obligations.StacksFailAndAreCapped : Prop :=
  ∀ s : State,
    (∀ m cause, m < 128 → s.mdOn m = true → (∀ k, (s.md k).items = [] ∧ (s.md k).trk = []) →
      (∀ e ∈ s.pcd.descs, e.1 ≠ m) → (∀ f, (s.fd f).onp = []) →
      (cause = 2 ∧ ((s.md m).badSectors.filter (fun b => decide (s.ptc < b.1 + 1000000000))).length < 4 → exec (.stackFail m cause) s = .next s) ∧
      (cause < 8 → ¬(cause = 2 ∧ ((s.md m).badSectors.filter (fun b => decide (s.ptc < b.1 + 1000000000))).length < 4) →
        Completes (.stackFail m cause) s (fun t => t.rgB (nodeMd m) MD_STATUS 1 = true ∧
          (s.rgB (nodeMd m) MD_FAULT_INFO 31 = false → t.rg (nodeMd m) MD_FAULT_INFO = 2 ^ 31 + 3 * 2 ^ 28 + cause * 2 ^ 25 ∧
            t.rg (nodeMd m) MD_FAULT_PTC = s.ptc) ∧
          (s.rgB (nodeMd m) MD_FAULT_INFO 31 = true → t.rg (nodeMd m) MD_FAULT_INFO = s.rg (nodeMd m) MD_FAULT_INFO) ∧
          (∃ a, t.pcd.alerts = s.pcd.alerts ++ [a] ∧ a.code = 0x3200 ∧ a.unit = unitStack m) ∧ (∀ k, (t.md k).mem = (s.md k).mem)))) ∧
    Completes .hbmCapEval s (fun t => ∀ m, m < 128 → s.mdOn m = true →
      t.rgB (nodeMd m) MD_THERM 16 = decide (s.hottest = some m) ∧
      (680 < s.mdTemp m → t.rgB (nodeMd m) MD_THERM 17 = true) ∧
      (s.mdTemp m ≤ 656 → t.rgB (nodeMd m) MD_THERM 17 = false ∧ (t.md m).capAt = none) ∧
      (s.hottest = some m → (s.md m).capAt = none → (t.md m).capAt = some s.ptc ∧ t.rgF (nodeMd m) MD_THERM 19 18 = 1) ∧
      (∀ t0, s.hottest = some m → (s.md m).capAt = some t0 → 100000000 ≤ s.ptc - t0 → t.rgF (nodeMd m) MD_THERM 19 18 = 2))

-- DMA items (spec/10 R284-R298) ---------------------------------------------------------------------------------------------------

/-- On an idle memory die: a descriptor that R292 rejects is counted and raises 0x2202, and no item stays. A FILL within one page of the
die's own stack writes the pattern there and nothing else; so does a waiting FILL that obtains a tracker entry. A transaction that times out
frees its entry, is counted, and ends with status 4, or with the status that was decided for it; an item that is over leaves the die, sending the
LAND packet of its tag and the DONE of its source. A descriptor from another partition is discarded and counted. -/
def Obligations.DmaItemsOnTheirOwnStack : Prop :=
  ∀ (s : State) (m d : Nat), m < 128 → d < 576 → s.mdOn m = true → (∀ e ∈ (s.part (s.partOfMd m)).ctxs, e.2.endAs = none) →
    s.pcd.descsOff = [] →
    let p := s.partOfMd m
    let own := s.partOfOrigin (.sched d) = s.partOfRegion (m / 8)
    (∀ dd : DmaDesc, ¬own → let n := s.mdAttach m; let r := nodeRs ((regionOfNode n).getD 0); s.rg r (RS_RT_E2E (coreBit n)) < 0xFFFFFFFE →
      Completes (.desc m (.sched d) dd) s (fun t => t.mds = s.mds ∧ t.dies = s.dies ∧ t.pcd.descs = dropDesc m (.sched d) s.pcd.descs ∧
        t.rg r (RS_RT_E2E (coreBit n)) = s.rg r (RS_RT_E2E (coreBit n)) + 1)) ∧
    (∀ dd : DmaDesc, own → (s.md m).items = [] → s.descOk p (.sched d) dd = false → s.rg (nodeMd m) MD_DESC_REJECT < 0xFFFFFFFE →
      Completes (.desc m (.sched d) dd) s (fun t => t.rg (nodeMd m) MD_DESC_REJECT = s.rg (nodeMd m) MD_DESC_REJECT + 1 ∧
        (t.md m).items = [] ∧ (t.md m).mem = (s.md m).mem ∧ ∃ a, t.pcd.alerts = s.pcd.alerts ++ [a] ∧ a.code = 0x2202 ∧ a.unit = unitStack m)) ∧
    (∀ (dd : DmaDesc) (loc : Nat), own → (s.md m).items = [] → (s.md m).trk = [] → (s.md m).errs = [] → (s.md m).holdAt = none →
      s.descOk p (.sched d) dd = true → dd.op = 1#2 → dd.twoD = false → dd.land = false → isHbm dd.dst.toNat = true →
      dd.dst.toNat % 4096 + dd.length.toNat ≤ 4096 → s.hbmMap p dd.dst.toNat = some (m, loc) →
      s.keptRange p dd.dst.toNat dd.length.toNat = false → s.scrubHits p dd.dst.toNat dd.length.toNat = false →
      Completes (.desc m (.sched d) dd) s (fun t => (t.md m).items = [] ∧ (t.md m).trk = [] ∧
        (∀ a, memRead (t.md m).mem a = if loc ≤ a ∧ a < loc + dd.length.toNat then
            BitVec.ofNat 8 (dd.pattern.toNat >>> (8 * ((dd.dst.toNat + (a - loc)) % 4))) else memRead (s.md m).mem a) ∧
        (∀ k, k ≠ m → t.md k = s.md k) ∧ t.dies = s.dies ∧ t.pcd.alerts = s.pcd.alerts ∧
        ((∀ b ∈ s.bellLines m, loc + dd.length.toNat ≤ b.2.2 ∨ b.2.2 + 4 ≤ loc) →
          t.pcd.net = (s.sendDone m d 0 true dd.tag.toNat dd.length.toNat 0).pcd.net))) ∧
    (∀ cls i k tx txid loc, cls < 3 → cls ≠ 1 → (s.md m).holdAt = none → (s.md m).errs = [] → (s.md m).nextTx cls = some (i, k, tx) →
      (s.md m).freeTx cls = some txid → i.origin = .sched d → (∀ j ∈ (s.md m).items, j.id = i.id → j = i) → tx.src = none → isHbm tx.dst = true → s.hbmMap p tx.dst = some (m, loc) →
      s.keptRange p tx.dst tx.len = false → s.scrubHits p tx.dst tx.len = false →
      Completes (.trackerEntryGrant m cls) s (fun t => sfind (t.md m).trk txid = none ∧
        ∀ a, memRead (t.md m).mem a = if loc ≤ a ∧ a < loc + tx.len then
          BitVec.ofNat 8 (i.desc.pattern.toNat >>> (8 * ((tx.dst + (a - loc)) % 4))) else memRead (s.md m).mem a)) ∧
    (∀ cls, cls < 3 → cls ≠ 1 → (s.md m).nextTx cls = none → exec (.trackerEntryGrant m cls) s = .next s) ∧
    (∀ txid, txid < 2048 → (txid < 1024 ∨ 1536 ≤ txid) → sfind (s.md m).trk txid = none → exec (.transactionTimeout m txid) s = .next s) ∧
    (∀ txid tk i x, txid < 2048 → (txid < 1024 ∨ 1536 ≤ txid) → sfind (s.md m).trk txid = some tk → s.dmaItem m tk.item = some i → i.origin = .sched d →
      i.txs[tk.tx]? = some x → isHbm x.dst = false → (∀ a, x.src = some a → isHbm a = false) → s.rg (nodeMd m) MD_TIMEOUT < 0xFFFFFFFE →
      Completes (.transactionTimeout m txid) s (fun t => sfind (t.md m).trk txid = none ∧
        t.rg (nodeMd m) MD_TIMEOUT = s.rg (nodeMd m) MD_TIMEOUT + 1 ∧ (t.md m).mem = (s.md m).mem ∧ (t.md m).lostTx.contains txid = true ∧
        ∀ j, t.dmaItem m tk.item = some j → (j.txs[tk.tx]?).map (fun y => y.st) = some (.failed (if x.doom = 0 then 4 else x.doom)))) ∧
    (∀ i, (s.md m).items = [i] → i.over = true → i.status = 0 → i.origin = .sched d → i.desc.land = true → i.landed = false →
      Completes (.dmaItemComplete m i.id) s (fun t => (t.md m).items = [] ∧ (t.md m).mem = (s.md m).mem ∧ t.dies = s.dies ∧
        t.pcd = ((s.sendLand m i.desc.tag.toNat i.desc.ldir i.desc.lsite.toNat).sendDone m d 0 true i.desc.tag.toNat (doneBytes i.txs) 0).pcd)) ∧
    (∀ id, (s.dmaItem m id).map Item.over ≠ some true → exec (.dmaItemComplete m id) s = .next s)

-- Packets of the dynamic layer (spec/11 R327-R331, spec/12 R351) -----------------------------------------------------------------

/-- READ and WRITE that arrive intact at a stack within its bytes: the data comes back in a READ_DATA, or travels straight to the scratchpad that
its transaction names, or is stored whole and acknowledged. Beyond the stack's bytes, or on a page being scrubbed, the reply says rejected. At a
scratchpad they join the requests that wait for a bank pair, and beyond it they are rejected; WRITE into turn memory stores there; WRITE at a
fabric die is a doorbell at a context's doorbell offset, and rejected elsewhere; FREAD and
FWRITE read and write partition HBM, here within one page of the memory die's own stack. Nothing else of memory changes. -/
def Obligations.PacketsReadAndWriteMemory : Prop :=
  ∀ (s : State) (p : DynPkt), p.ecrcOk = true → s.epOn p.dst.toNat = true → s.partOfEp p.dst.toNat = some p.part.toNat →
    let e := p.dst.toNat
    let a := p.addr.toNat
    let m := epId e
    let s0 := s.netDrop p
    (epKind e = 1 → (s.md m).errs = [] →
      (p.ptype = 0#4 → s.stackScrubs m a p.len = true → exec (.read p) s = .next ((s0.doomTx p 6).inject (p.reply 2 2 []))) ∧
      (p.ptype = 0#4 → s.stackScrubs m a p.len = false → a + p.len ≤ stackBytes → exec (.read p) s = .next (
        let t := s0.bumpPerf (nodeMd m) MD_RD_BYTES p.len
        match s.straightTo p with
        | none => t.inject (p.reply 2 0 (readBytes (s.md m).mem a p.len))
        | some (d, off) => t.injectAt (s.mdAttach m)
            (mkPkt 1 p.part.toNat (epSite d) p.src.toNat p.txid.toNat 0 off 0 p.len (readBytes (s.md m).mem a p.len)))) ∧
      (p.ptype = 0#4 → s.stackScrubs m a p.len = false → stackBytes < a + p.len → exec (.read p) s = .next (s0.inject (p.reply 2 2 []))) ∧
      (p.ptype = 1#4 → s.stackScrubs m a p.payload.length = true → exec (.write p) s = .next ((s0.doomTx p 6).inject (p.reply 3 2 []))) ∧
      (p.ptype = 1#4 → s.stackScrubs m a p.payload.length = false → a + p.payload.length ≤ stackBytes → Completes (.write p) s (fun t =>
        (∀ b, memRead (t.md m).mem b = if a ≤ b ∧ b < a + p.payload.length then p.payload.getD (b - a) 0#8 else memRead (s.md m).mem b) ∧
        (∀ k, k ≠ m → t.md k = s.md k) ∧ t.dies = s.dies ∧ t.pcd.alerts = s.pcd.alerts)) ∧
      (p.ptype = 1#4 → s.stackScrubs m a p.payload.length = false → stackBytes < a + p.payload.length → exec (.write p) s = .next (s0.inject (p.reply 3 2 []))) ∧
      (∀ loc, isHbm a = true → s.mdOn m = true → s.hbmMap (s.partOfMd m) a = some (m, loc) →
        (let n := bits p.aux.toNat 24 12
         p.ptype = 8#4 → 0 < n → a % 4096 + n ≤ 4096 → s.scrubHits (s.partOfMd m) a n = false → s.keptRange (s.partOfMd m) a n = false →
         exec (.fread p) s = .next ((s0.bumpPerf (nodeMd m) MD_RD_BYTES n).inject (p.reply 9 0 (readBytes (s.md m).mem loc n)))) ∧
        (let n := p.payload.length
         p.ptype = 10#4 → 0 < n → a % 4096 + n ≤ 4096 → s.scrubHits (s.partOfMd m) a n = false → s.keptRange (s.partOfMd m) a n = false →
         Completes (.fwrite p) s (fun t =>
          (∀ b, memRead (t.md m).mem b = if loc ≤ b ∧ b < loc + n then p.payload.getD (b - loc) 0#8 else memRead (s.md m).mem b) ∧
          (∀ k, k ≠ m → t.md k = s.md k) ∧ t.dies = s.dies ∧ t.fds = s.fds)))) ∧
    (epKind e = 2 → (p.ptype = 0#4 → exec (.read p) s = .next (s0.inject (p.reply 2 2 []))) ∧
      (p.ptype = 1#4 → (∀ c, c < 256 → FD_CTX_W2 c ≠ a) → exec (.write p) s = .next (s0.inject (p.reply 3 2 []))) ∧
      (∀ c, c < 256 → FD_CTX_W2 c = a → p.ptype = 1#4 →
        exec (.write p) s = .next (s0.doorbell (epId e) c (BitVec.ofNat 32 (leVal p.payload))))) ∧
    (epKind e ≠ 1 → (p.ptype = 8#4 → exec (.fread p) s = .next s0) ∧ (p.ptype = 10#4 → exec (.fwrite p) s = .next s0)) ∧
    (epKind e = 0 →
      let req := fun (n : Nat) (w : Option (List Byte)) => spadReq 0 a n w none false (some p)
      (p.ptype = 0#4 → a + p.len ≤ s.spadSize → exec (.read p) s = .next (if p.len = 0 then s0.inject (p.reply 2 0 [])
        else s0.modDie (epId e) (fun x => { x with spad := { x.spad with reqs := x.spad.reqs ++ [req p.len none] } }))) ∧
      (p.ptype = 0#4 → s.spadSize < a + p.len → exec (.read p) s = .next (s0.inject (p.reply 2 2 []))) ∧
      (p.ptype = 1#4 → a + p.payload.length ≤ s.spadSize → exec (.write p) s = .next (if p.payload.length = 0 then s0.inject (p.reply 3 0 [])
        else s0.modDie (epId e) (fun x => { x with spad := { x.spad with reqs := x.spad.reqs ++ [req p.payload.length (some p.payload)] } }))) ∧
      (p.ptype = 1#4 → s.spadSize < a + p.payload.length → (a < 0x20000000 ∨ 0x20190000 < a + p.payload.length) →
        exec (.write p) s = .next (s0.inject (p.reply 3 2 []))) ∧
      (p.ptype = 1#4 → 0x20000000 ≤ a → a + p.payload.length ≤ 0x20190000 → a % 0x10000 + p.payload.length ≤ 0x10000 →
        s.spadSize ≤ 0x20000000 → 0 < p.payload.length →
        Completes (.write p) s (fun t =>
          (∀ b, memRead (t.place (epId e) ((a - 0x20000000) / 0x10000)).mem b =
            if a % 0x10000 ≤ b ∧ b < a % 0x10000 + p.payload.length then p.payload.getD (b - a % 0x10000) 0#8
            else memRead (s.place (epId e) ((a - 0x20000000) / 0x10000)).mem b) ∧
          (∀ q, q ≠ (a - 0x20000000) / 0x10000 → t.place (epId e) q = s.place (epId e) q) ∧ t.mds = s.mds)))

/-- READ_DATA and WRITE_ACK that arrive intact at a memory die for an entry it holds: the entry of a transaction that ends is free, a failed
one ends with the item status of the reply, or with the status already decided for it, and a fill's or copy's data goes on to its destination; a
reply to no entry, or to one whose transaction has timed out, is discarded. -/
def Obligations.RepliesEndTransactions : Prop :=
  ∀ (s : State) (p : DynPkt), p.ecrcOk = true → epKind p.dst.toNat = 1 → s.epOn p.dst.toNat = true →
    s.partOfEp p.dst.toNat = some p.part.toNat →
    let m := epId p.dst.toNat
    (∀ e ∈ (s.part (s.partOfMd m)).ctxs, e.2.endAs = none) →
    ((s.md m).lostTx.contains p.txid.toNat = true →
      let P := fun t : State => (t.md m).lostTx.contains p.txid.toNat = false ∧ (t.md m).trk = (s.md m).trk ∧ (t.md m).items = (s.md m).items ∧
        (t.md m).mem = (s.md m).mem ∧ (∀ k, k ≠ m → t.md k = s.md k) ∧ t.dies = s.dies ∧ t.regs = s.regs
      (p.ptype = 2#4 → Completes (.readData p) s P) ∧ (p.ptype = 3#4 → Completes (.writeAck p) s P)) ∧
    ((s.md m).lostTx.contains p.txid.toNat = false → sfind (s.md m).trk p.txid.toNat = none →
      (p.ptype = 2#4 → exec (.readData p) s = .next (s.netDrop p)) ∧ (p.ptype = 3#4 → exec (.writeAck p) s = .next (s.netDrop p))) ∧
    (∀ k i x, (s.md m).lostTx.contains p.txid.toNat = false → sfind (s.md m).trk p.txid.toNat = some k → s.dmaItem m k.item = some i →
      i.txs[k.tx]? = some x → (∃ d, i.origin = .sched d) →
      (p.ptype = 3#4 → Completes (.writeAck p) s (fun t => sfind (t.md m).trk p.txid.toNat = none ∧ (t.md m).mem = (s.md m).mem ∧
        ∀ j, t.dmaItem m k.item = some j → (j.txs[k.tx]?).map (fun y => y.st) = 
          some (if x.doom ≠ 0 then .failed x.doom else if p.status = 0#3 then .ok else .failed (replyFail p)))) ∧
      (p.ptype = 2#4 → (p.status ≠ 0#3 ∨ x.doom ≠ 0) → Completes (.readData p) s (fun t => sfind (t.md m).trk p.txid.toNat = none ∧ (t.md m).mem = (s.md m).mem ∧
        ∀ j, t.dmaItem m k.item = some j → (j.txs[k.tx]?).map (fun y => y.st) =
          some (.failed (if x.doom ≠ 0 then x.doom else replyFail p)))) ∧
      (∀ loc, p.ptype = 2#4 → p.status = 0#3 → x.doom = 0 → (s.md m).errs = [] → isHbm x.dst = true → s.hbmMap (s.partOfMd m) x.dst = some (m, loc) →
        s.keptRange (s.partOfMd m) x.dst p.payload.length = false → Completes (.readData p) s (fun t =>
          sfind (t.md m).trk p.txid.toNat = none ∧
          ∀ b, memRead (t.md m).mem b = if loc ≤ b ∧ b < loc + p.payload.length then p.payload.getD (b - loc) 0#8
            else memRead (s.md m).mem b)))

/-- LAND at a die sets the flag of its tag; a duplicate is discarded and counted. DONE sets the flag of a failed scheduled item, does nothing more
for a completed one, or ends its ticket. A packet that fails its ECRC, comes from another partition or is of another type is discarded and
counted where it ejects; one for an endpoint without power is gone. A hop moves the packet that a router's output serves next to the next
router's input, its flits taking credits there, or delivers it; it waits while the replay buffer has no room. -/
def Obligations.LandingsDonesAndHops : Prop :=
  (∀ (s : State) (p : DynPkt), s.epOn p.dst.toNat = false →
    ∀ e ∈ [Instr.read p, Instr.write p, Instr.readData p, Instr.writeAck p, Instr.land p, Instr.done p, Instr.fread p, Instr.freadData p,
      Instr.fwrite p, Instr.fwriteAck p], exec e s = .next (s.netDrop p)) ∧
  ∀ (s : State) (p : DynPkt), s.epOn p.dst.toNat = true →
    let d := epId p.dst.toNat
    (p.ecrcOk = true → epKind p.dst.toNat = 0 → s.partOfEp p.dst.toNat = some p.part.toNat →
      (p.ptype = 5#4 → sget false (s.die d).flags (bits p.aux.toNat 11 0) = false → Completes (.land p) s (fun t =>
        (∀ g, sget false (t.die d).flags g = if g = bits p.aux.toNat 11 0 then true else sget false (s.die d).flags g) ∧
        (∀ e, e ≠ d → t.die e = s.die e) ∧ t.mds = s.mds ∧ t.regs = s.regs)) ∧
      (p.ptype = 5#4 → sget false (s.die d).flags (bits p.aux.toNat 11 0) = true → s.rg d CD_LAND_DUP < 0xFFFFFFFE →
        Completes (.land p) s (fun t => t.dies = s.dies ∧ t.rg d CD_LAND_DUP = s.rg d CD_LAND_DUP + 1)) ∧
      (p.ptype = 6#4 → (leVal (p.payload.drop 8)).testBit 0 = true → bits (leVal p.payload) 47 40 = 0 → exec (.done p) s = .next (s.netDrop p)) ∧
      (p.ptype = 6#4 → (leVal (p.payload.drop 8)).testBit 0 = true → bits (leVal p.payload) 47 40 ≠ 0 → Completes (.done p) s (fun t =>
        (∀ g, sget false (t.die d).flags g = if g = bits (leVal (p.payload.drop 8)) 12 1 then true else sget false (s.die d).flags g) ∧
        (t.die d).tickets = (s.die d).tickets ∧ t.mds = s.mds)) ∧
      (∀ v, p.ptype = 6#4 → (leVal (p.payload.drop 8)).testBit 0 = false → sfind (s.die d).tickets p.aux.toNat = some v →
        (∀ c, c < 4 → (s.sc d c).fxHold = none) → Completes (.done p) s (fun t =>
          sfind (t.die d).tickets p.aux.toNat = some (if bits (leVal p.payload) 47 40 = 0 then 1 else 2) ∧
          (∀ k, k ≠ p.aux.toNat → sfind (t.die d).tickets k = sfind (s.die d).tickets k) ∧ (t.die d).flags = (s.die d).flags))) ∧
    (∀ e ∈ [(Instr.read p, 0), (Instr.write p, 1), (Instr.readData p, 2), (Instr.writeAck p, 3), (Instr.land p, 5), (Instr.done p, 6),
        (Instr.fread p, 8), (Instr.freadData p, 9), (Instr.fwrite p, 10), (Instr.fwriteAck p, 11)],
      (p.ecrcOk = false ∨ s.partOfEp p.dst.toNat ≠ some p.part.toNat ∨ p.ptype.toNat ≠ e.2) →
      let n := s.epRouter p.dst.toNat p.src.toNat
      exec e.1 s = .next ((s.netDrop p).bumpErr (nodeRs ((regionOfNode n).getD 0)) (RS_RT_E2E (coreBit n)) (RS_RT_STATUS (coreBit n)) 28 1)) ∧
    (∀ node out ch i q r nx far, node < 576 → out < 16 → s.netPick node out = some (ch, i) → s.netQ node i ch = q :: r → s.routerOut node = false →
      s.regionOn ((regionOfNode node).getD 16) = true → (∀ g, s.partOfNode node = some g → (s.part g).stopped = false) →
      (s.partOfNode node).isSome = true → s.nextHop node (s.epRouter q.dst.toNat q.src.toNat) q.ord = some nx → portTo nx node = some far →
      (cdiv (pktFlits q) 7 ≤ s.replayRoom node out → Completes (.packetHop node out) s (fun t => t.netQ node i ch = r ∧
        t.netQ nx far ch = s.netQ nx far ch ++ [q] ∧ sget 0 t.pcd.rrCh (16 * node + out) = (ch + 1) % 4 ∧
        sget 0 t.pcd.netUsed (netKey node out ch) = sget 0 s.pcd.netUsed (netKey node out ch) + pktFlits q ∧ t.dies = s.dies ∧ t.mds = s.mds)) ∧
      (s.replayRoom node out < cdiv (pktFlits q) 7 → exec (.packetHop node out) s = .next s)) ∧
    (∀ node out, node < 576 → out < 16 → (s.netPick node out = none ∨ s.routerOut node = true ∨ s.regionOn ((regionOfNode node).getD 16) = false ∨
      s.partOfNode node = none ∨ ∃ g, s.partOfNode node = some g ∧ (s.part g).stopped = true) → exec (.packetHop node out) s = .next s) ∧
    (∀ node out ch i q r, node < 576 → out < 16 → s.netPick node out = some (ch, i) → s.netQ node i ch = q :: r → s.routerOut node = false →
      s.regionOn ((regionOfNode node).getD 16) = true → (∀ g, s.partOfNode node = some g → (s.part g).stopped = false) →
      (s.partOfNode node).isSome = true → s.nextHop node (s.epRouter q.dst.toNat q.src.toNat) q.ord = none →
      exec (.packetHop node out) s = .next ((s.netServed node out ch i).pktArrive q))

-- Links (spec/11 R314-R326) ---------------------------------------------------------------------------------------------------------

/-- A stripe in sequence without an uncorrectable codeword advances the share's sequence number, and every valid slot that is bound to a
place is on its way to it, due with its own cycle of the frame; the corrections that the relay of a two-hop route made are counted there. One
with an uncorrectable codeword, which is counted, or out of sequence delivers nothing new and raises 0x2160, which names the link whose receiver
failed the codeword. A side without a route, and links
that a frequency step has stopped, deliver nothing. A codeword over a port that is up: without error and in sequence it advances the sequence number expected and ends a NAK; out of sequence or with a
failed CRC it leaves the number and asks for a resend; so does an uncorrectable one, which a router counts. -/
def Obligations.StripesAndCodewords : Prop :=
  (∀ (s : State) (d side : Nat) (x : Stripe), d < 576 → side < 4 →
    ((s.sideRoute d side = none ∨ s.portUp d (s.sidePort d side) = false ∨ (∀ p, s.partOfNode d = some p → (s.part p).stopped = true)) →
      exec (.stripeReceive d side x) s = .next s) ∧
    (∀ p, (s.sideRoute d side).isSome = true → s.portUp d (s.sidePort d side) = true → s.partOfNode d = some p → (s.part p).stopped = false →
      x.wander ≤ 1 → x.relayUncorr = 0 →
      let hops := if (s.sideRelay d side).isSome then 2 else 1
      let cnt := fun (off : Nat → Nat) (v : Nat) (t : State) => t.rg (nodeRs ((regionOfNode v).getD 0)) (off (rtIndex v))
      (x.corrected = 0 → x.uncorr = 0 → (sfind (s.die d).sseq side = none ∨ sfind (s.die d).sseq side = some x.sseq.toNat) →
        Completes (.stripeReceive d side x) s (fun t => sfind (t.die d).sseq side = some ((x.sseq.toNat + 1) % 256) ∧
          (x.relayCorr = 0 → t.pcd = s.pcd ∧ t.regs = s.regs) ∧ SameOutside s t ∧
          (∀ v, s.sideRelay d side = some v → v < 576 → cnt RS_RT_FEC_CORR v s + x.relayCorr < 0xFFFFFFFF →
            cnt RS_RT_FEC_CORR v t = cnt RS_RT_FEC_CORR v s + x.relayCorr) ∧
          ∀ k tok q l, k < 20 → (x.slots[k]?).getD none = some tok → s.sideLane d side (k % 4) true = some (q, l) →
            let due := stripeDue (s.ccountOf d) hops (k / 4)
            (∀ y ∈ ((s.place d q).lane l).wire, y.1 ≠ due) → (due, tok) ∈ ((t.place d q).lane l).wire)) ∧
      (∀ e, 0 < x.uncorr → x.corrected = 0 → x.relayCorr = 0 → sfind (s.die d).sseq side = some e → cnt RS_RT_FEC_UNCORR d s + x.uncorr < 0xFFFFFFFF →
        Completes (.stripeReceive d side x) s (fun t => sfind (t.die d).sseq side = some ((e + 1) % 256) ∧
          cnt RS_RT_FEC_UNCORR d t = cnt RS_RT_FEC_UNCORR d s + x.uncorr ∧
          (∃ a, t.pcd.alerts = s.pcd.alerts ++ [a] ∧ a.code = 0x2160 ∧ a.node = d ∧ a.unit = unitLink d (s.sidePort d side)) ∧
          (∀ q l, l < 4 → ((t.place d q).lane l).q = ((s.place d q).lane l).q) ∧ SameOutside s t)) ∧
      (∀ e, x.corrected = 0 → x.uncorr = 0 → x.relayCorr = 0 → sfind (s.die d).sseq side = some e → x.sseq.toNat ≠ e → Completes (.stripeReceive d side x) s (fun t =>
        sfind (t.die d).sseq side = some ((x.sseq.toNat + 1) % 256) ∧
        (∃ a, t.pcd.alerts = s.pcd.alerts ++ [a] ∧ a.code = 0x2160 ∧ a.node = d ∧ a.unit = unitLink d (s.sidePort d side)) ∧
        (∀ q l, l < 4 → ((t.place d q).lane l).q = ((s.place d q).lane l).q) ∧ SameOutside s t))) ∧
    (∀ p v e, s.sideRoute d side = some [d, v, e] → s.portUp d (s.sidePort d side) = true → s.partOfNode d = some p → (s.part p).stopped = false →
      x.wander ≤ 1 → 0 < x.relayUncorr → Completes (.stripeReceive d side x) s (fun t =>
        (∃ a, t.pcd.alerts = s.pcd.alerts ++ [a] ∧ a.code = 0x2160 ∧ a.node = d ∧ a.unit = unitLink v ((portTo v e).getD 0)) ∧
        (∀ q l, l < 4 → ((t.place d q).lane l).q = ((s.place d q).lane l).q) ∧ SameOutside s t))) ∧
  (∀ (s : State) (n port : Nat) (c : Codeword), n < 738 → port < 9 →
    let k := 16 * n + port
    let up := if n < 576 then s.portUp n port else s.nodeOn n
    let up := up && (match s.partOfNode n with | some p => !(s.part p).stopped | none => false)
    (up = false → exec (.dynCodewordReceive n port c) s = .next s) ∧
    (up = true → c.ecc ≠ .uncorrectable → c.crcOk = true → c.seq.toNat = sget 0 s.pcd.seqExp k → Completes (.dynCodewordReceive n port c) s (fun t =>
      sget 0 t.pcd.seqExp k = (c.seq.toNat + 1) % 4096 ∧ t.pcd.nakSent.contains k = false ∧
      (∀ j, j ≠ k → sget 0 t.pcd.seqExp j = sget 0 s.pcd.seqExp j) ∧ t.dies = s.dies ∧ SameOutside s t)) ∧
    (up = true → c.ecc ≠ .uncorrectable → (c.crcOk = false ∨ c.seq.toNat ≠ sget 0 s.pcd.seqExp k) →
      Completes (.dynCodewordReceive n port c) s (fun t => t.pcd.seqExp = s.pcd.seqExp ∧ t.pcd.nakSent.contains k = true ∧ t.dies = s.dies)) ∧
    (up = true → c.ecc = .uncorrectable → n < 576 → s.rg (nodeRs ((regionOfNode n).getD 0)) (RS_RT_FEC_UNCORR (rtIndex n)) < 0xFFFFFFFE →
      Completes (.dynCodewordReceive n port c) s (fun t => t.pcd.seqExp = s.pcd.seqExp ∧ t.pcd.nakSent.contains k = true ∧
        t.rg (nodeRs ((regionOfNode n).getD 0)) (RS_RT_FEC_UNCORR (rtIndex n)) =
          s.rg (nodeRs ((regionOfNode n).getD 0)) (RS_RT_FEC_UNCORR (rtIndex n)) + 1)))

-- The spindle (spec/11 R334-R340) ---------------------------------------------------------------------------------------------------

/-- A node sends the packet at the head of an output's FIFO: intact, a point-to-point packet joins the FIFO of the far node's output toward
its destination; an uncorrectable one is lost, counted by the far node, and an event where its type is fatal. An empty FIFO, or a node out
of service, sends nothing; the output to the node's own die hands the packet to it. What a die does with a spindle packet of its own: SPSEND joins its queue of 16 or is counted; BAR_RELEASE ends
the FX.BARs of its barrier with 0; START names its start cycle and the places armed by then, or, too late, records sequencer cause 1, and at a frequency step it names W; YIELD
names the epoch at which its places stop. BAR_ARRIVE is kept until the node's die and children have all arrived. -/
def Obligations.SpindlePackets : Prop :=
  (∀ (s : State) (n port : Nat) (cls : Bool) (e : Ecc), n < 738 → port < 8 →
    ((s.spQ n port cls = [] ∨ s.spUp n = false) → exec (.spindleForward n port cls e) s = .next s) ∧
    (∀ k r m, s.spQ n port cls = k :: r → s.spUp n = true → port ≠ 7 → spFar n port = some m → m ≠ n → s.spUp m = true →
      (∀ out, e = .clean → (k.ty = 1#6 ∨ (6 ≤ k.ty.toNat ∧ k.ty.toNat ≤ 11)) → s.spPort m k.dst.toNat = some out →
        Completes (.spindleForward n port cls e) s (fun t => t.spQ n port cls = r ∧ t.spQ m out k.cls = s.spQ m out k.cls ++ [k] ∧
          (∀ j, j ≠ spKey n port cls → j ≠ spKey m out k.cls → sget [] t.pcd.spn j = sget [] s.pcd.spn j) ∧
          t.dies = s.dies ∧ t.regs = s.regs ∧ SameOutside s t)) ∧
      (e = .uncorrectable → m < 576 → s.rg (nodeRs ((regionOfNode m).getD 0)) (RS_RT_SPN_LOST (rtIndex m)) < 0xFFFFFFFE →
        Completes (.spindleForward n port cls e) s (fun t => t.spQ n port cls = r ∧
          t.rg (nodeRs ((regionOfNode m).getD 0)) (RS_RT_SPN_LOST (rtIndex m)) =
            s.rg (nodeRs ((regionOfNode m).getD 0)) (RS_RT_SPN_LOST (rtIndex m)) + 1 ∧
          (spFatal k = false → t.pcd.alerts = s.pcd.alerts) ∧
          (spFatal k = true → ∃ a, t.pcd.alerts = s.pcd.alerts ++ [a] ∧ a.code = 0x2170 ∧ a.part = k.part.toNat) ∧ t.dies = s.dies))) ∧
    (∀ k r, s.spQ n port cls = k :: r → s.spUp n = true → port = 7 →
      exec (.spindleForward n port cls e) s = .next ((s.setSpQ n port cls r).spEject n k))) ∧
  (∀ (s : State) (d : Nat), d < 576 → s.coreOn d = true →
    (∀ src v, src < 512 → (s.die d).spq.length < 16 → Completes (.spsend d src v) s (fun t =>
      (t.die d).spq = (s.die d).spq ++ [(src, v)] ∧ (∀ e, e ≠ d → t.die e = s.die e) ∧ t.regs = s.regs ∧ SameOutside s t)) ∧
    (∀ src v, src < 512 → 16 ≤ (s.die d).spq.length → s.rg d CD_SC_SPDROP < 0xFFFFFFFE → Completes (.spsend d src v) s (fun t =>
      t.dies = s.dies ∧ t.rg d CD_SC_SPDROP = s.rg d CD_SC_SPDROP + 1 ∧ SameOutside s t)) ∧
    (∀ b, b < 256 → (s.die d).barSkip.contains b = false → Completes (.barRelease d b) s (fun t =>
      (t.die d).barAt.contains b = false ∧ ∀ c, c < 4 →
        (∀ rd, rd < 32 → (s.sc d c).bar = some (b, rd) → s.ScWent t d c (BitVec.ofNat 5 rd) 0 ∧ (t.sc d c).bar = none) ∧
        (∀ b' rd, (s.sc d c).bar = some (b', rd) → b' ≠ b → t.sc d c = s.sc d c))) ∧
    (∀ b, b < 256 → (s.die d).barSkip.contains b = true → Completes (.barRelease d b) s (fun t =>
      (t.die d).barSkip.contains b = false ∧ ∀ c, t.sc d c = s.sc d c)) ∧
    (∀ (cycle : W64) p, (s.die d).fstep = true → s.partOfNode d = some p → Completes (.start d cycle) s (fun t =>
      (t.part p).stepW = some cycle.toNat ∧ (∀ q, q ≠ p → t.part q = s.part q) ∧ t.dies = s.dies ∧ t.regs = s.regs)) ∧
    (∀ cycle : W64, (s.die d).fstep = false →
      let late := wrapSub 64 (s.ccountOf d) cycle.toNat
      (¬(0 < late ∧ late < 2 ^ 63) → Completes (.start d cycle) s (fun t => (t.die d).startAt = some cycle.toNat ∧
        (∀ p, p < 25 → (t.die d).strobed.testBit p = s.armedFor d p) ∧ (∀ p, t.place d p = s.place d p) ∧ t.regs = s.regs ∧ SameOutside s t)) ∧
      (0 < late ∧ late < 2 ^ 63 → Completes (.start d cycle) s (fun t => t.dies = s.dies ∧ t.rgB d CD_PL_FAULT_INFO 31 = true ∧
        (s.rgB d CD_PL_FAULT_INFO 31 = false → (s.place d (((List.range 25).filter (s.armedFor d)).head?.getD 0)).slot < 8 →
          t.rgF d CD_PL_FAULT_INFO 19 16 = 1) ∧
        ∃ a, t.pcd.alerts = s.pcd.alerts ++ [a] ∧ a.code = 0x2153 ∧ a.node = d))) ∧
    (∀ e : W32, Completes (.yield d e) s (fun t => (t.die d).yieldAt = some e.toNat ∧ (∀ p, t.place d p = s.place d p) ∧ t.regs = s.regs ∧
      SameOutside s t)) ∧
    (∀ b child p root, b < 256 → s.partOfNode d = some p → s.treeNode p d = true → s.kernelNode p = some root → child ≠ d →
      (s.part p).arrived.contains (d, b, child) = false →
      let s1 := s.setPart p { s.part p with arrived := (s.part p).arrived ++ [(d, b, child)] }
      (s1.barReady p root d b = false → Completes (.barArrive d b child) s (fun t => (t.part p).arrived = (s1.part p).arrived ∧ t.dies = s.dies)) ∧
      (s1.barReady p root d b = true → Completes (.barArrive d b child) s (fun t =>
        (∀ c, (t.part p).arrived.contains (d, b, c) = false) ∧ t.dies = s.dies))))

/-- At the active PCD: NOTICE active ends a site's idle notice, NOTICE drained is kept while a drain runs, and NOTICE step keeps that the site has
reached its boundary; an ALERT seen
before is only acknowledged; REG_RSP ends the ALERT it acknowledges, and at the PCD carries a value. REG_RD answers a register's value;
REG_WR writes one, or adds a unit's tally. A beacon's error is recorded, and far ones reported. A die repeats its NOTICE state and its ALERTs; a merged record is
sent when its second ends, to each report address on every host port that is up and on the management path. -/
def Obligations.NoticesAlertsAndRegisterPackets : Prop :=
  ∀ (s : State) (n : Nat), n < 738 →
    (∀ site p, site < 512 → s.partOfSite site = some p →
      Completes (.notice site 1) s (fun t => (t.part p).idle = (s.part p).idle.filter (fun i => decide (i ≠ site)) ∧ t.dies = s.dies ∧
        t.regs = s.regs ∧ ∀ q, q ≠ p → t.part q = s.part q) ∧
      Completes (.notice site 3) s (fun t => (t.part p).atStep = insUniq site (s.part p).atStep ∧ t.dies = s.dies ∧ t.regs = s.regs) ∧
      ((s.part p).drainAt = none → Completes (.notice site 2) s (fun t => t.parts = s.parts ∧ t.dies = s.dies ∧ t.regs = s.regs)) ∧
      ((s.part p).drainAt.isSome = true → (∃ i ∈ s.sitesOf p, (s.siteNode i).isSome = true ∧ (insUniq site (s.part p).drained).contains i = false) →
        Completes (.notice site 2) s (fun t => (t.part p).drained = insUniq site (s.part p).drained ∧ t.dies = s.dies ∧ t.regs = s.regs)) ∧
      ((∀ d, d < 576 → ∀ q ∈ (s.die d).places, q.2.st ≠ .running) → Completes (.notice site 0) s (fun t =>
        (t.part p).idle = insUniq site (s.part p).idle ∧ t.dies = s.dies ∧ t.regs = s.regs))) ∧
    (∀ a : Alert, s.pcd.seen.contains (a.node, a.serial) = true → Completes (.alert a) s (fun t =>
      t.regs = s.regs ∧ t.dies = s.dies ∧ SameOutside s t ∧ (a.node = s.activeNode →
        t.pcd.alerts = s.pcd.alerts.filter (fun x => !(decide (x.node = a.node) && decide (x.serial = a.serial)))))) ∧
    (∀ serial, n ≠ s.activeNode → Completes (.regRsp n serial) s (fun t =>
      t.pcd.alerts = s.pcd.alerts.filter (fun x => !(decide (x.node = n) && decide (x.serial = serial))) ∧
      t.pcd.seen = s.pcd.seen.filter (fun x => decide (x ≠ (n, serial))) ∧ t.regs = s.regs ∧ t.dies = s.dies ∧ SameOutside s t)) ∧
    (∀ v, n = s.activeNode → Completes (.regRsp n v) s (fun t => t.rdata = v ∧ t.regs = s.regs ∧ t.dies = s.dies)) ∧
    (∀ off r out, n < 736 → s.nodeOn n = true → findReg (blkOf n) off (regBytes n off) = some r → r.rc = 0 → off % 8 = 0 → s.spPort n s.activeNode = some out →
      s.pcd.spn = [] → Completes (.regRd n off) s (fun t => t.regs = s.regs ∧ t.dies = s.dies ∧
        t.spQ n out true = [spPkt 11 n s.activeNode ((s.partOfNode n).getD 0) off (s.regVal n off)])) ∧
    (∀ off r (v : W64), n < 736 → s.nodeOn n = true → findReg (blkOf n) off (regBytes n off) = some r → off % 8 = 0 →
      specialReg n off = false → s.writerOk .pcd r.writer n = true → Completes (.regWr n off v) s (fun t => t.dies = s.dies ∧ ∀ k, (t.rg n off).testBit k =
        if (v.toNat % 2 ^ r.width).testBit k && r.w1c.testBit k then false
        else if r.rw.testBit k then (v.toNat % 2 ^ r.width).testBit k else (s.rg n off).testBit k)) ∧
    (∀ v : W64, n = s.activeNode → s.rg nodePc PC_BAD_ACCESS_COUNT + v.toNat < 0xFFFFFFFF → Completes (.regWr n PC_BAD_ACCESS_COUNT v) s (fun t =>
      t.rg nodePc PC_BAD_ACCESS_COUNT = s.rg nodePc PC_BAD_ACCESS_COUNT + v.toNat ∧ t.dies = s.dies ∧ SameOutside s t)) ∧
    (∀ v : W64, s.nodeOn n = true → Completes (.beacon n v) s (fun t =>
      let e := signedOf 64 (wrapSub 64 v.toNat (s.localPtc16 n))
      t.rg n (clkOff n 0x28) = (e % 2 ^ 32).toNat ∧ t.rgB n (clkOff n 0) 9 = decide (e.natAbs ≤ 1024) ∧
      (e.natAbs ≤ 1024 → t.pcd.alerts = s.pcd.alerts ∧ sget 0 t.pcd.ptcSlew n = e) ∧
      (1024 < e.natAbs → ∃ a, t.pcd.alerts = s.pcd.alerts ++ [a] ∧ a.code = 0x11A2 ∧ a.unit = unitDie n) ∧ t.dies = s.dies)) ∧
    (s.nodeOn n = false → exec (.alertRepeat n) s = .next s) ∧
    (s.nodeOn n = true → exec (.alertRepeat n) s = .next
      ((s.pcd.alerts.filter (fun a => decide (a.node = n))).foldl (fun t a => t.spSend n (spPkt 8 n s.activeNode (a.part % 16) a.code a.serial))
        (match (if n < 576 then s.noticeState n else none) with | some k => s.spNotice n k | none => s))) ∧
    (s.nodeOn n = false → ∀ v : W64, exec (.beacon n v) s = .next s) ∧
    (∀ code unit e, s.pcd.merging.find? (fun e => decide (e.code = code ∧ e.unit = unit)) = some e → Completes (.eventMergeFlush code unit) s (fun t =>
      t.out = (s.sendEvent e).out ∧ (s.mgmtUp = true → Out.mgmt (.event e) ∈ t.out) ∧
      (∀ b c, s.hostPort b = true → s.pcd.conf = some c → ∀ a ∈ c.reports, Out.event b a e ∈ t.out) ∧
      t.pcd.merging = s.pcd.merging.erase e ∧ t.regs = s.regs ∧ t.dies = s.dies)) ∧
    (∀ code unit, s.pcd.merging.find? (fun e => decide (e.code = code ∧ e.unit = unit)) = none → exec (.eventMergeFlush code unit) s = .next s)

-- The scale-out fabric (spec/12) ----------------------------------------------------------------------------------------------------

/-- A descriptor of an enabled context, on a fabric die without transfers: a legal one whose ranks resolve becomes a transfer that has
started, a CPUT or MCAST one only where its credit covers it, and CPUT_START starts what is covered; an illegal one, or one of no job, ends.
The doorbell sets TAIL and fetches the descriptors up to it, here one. A context that is not enabled takes none of them. -/
def Obligations.TransfersArePostedAndStart : Prop :=
  (∀ (s : State) (f ctx : Nat) (d : FabDesc) (v : W32), f < 16 → ctx < 256 →
    (s.fdOn f = false ∨ s.rgB (nodeFd f) (FD_CTX_W0 ctx) 63 = false) →
    ∀ i ∈ [Instr.transferPut f ctx d, Instr.transferGet f ctx d, Instr.transferCput f ctx d, Instr.transferMcast f ctx d,
      Instr.transferNote f ctx d, Instr.doorbell f ctx v], exec i s = .next s) ∧
  ∀ (s : State) (f ctx : Nat) (d : FabDesc), f < 16 → ctx < 256 → s.fdOn f = true → s.rgB (nodeFd f) (FD_CTX_W0 ctx) 63 = true →
    (∀ m, (s.md m).errs = []) →
    let n := nodeFd f
    let x := s.fd f
    let job := s.rgF n (FD_CTX_W0 ctx) 47 32
    let head := s.rgF n (FD_CTX_W3 ctx) 15 0
    let all := [({ d with op := 0#4 }, Instr.transferPut f ctx d), ({ d with op := 1#4 }, Instr.transferGet f ctx d),
      ({ d with op := 2#4 }, Instr.transferCput f ctx d), ({ d with op := 3#4 }, Instr.transferMcast f ctx d),
      ({ d with op := 4#4 }, Instr.transferNote f ctx d)]
    (x.xfers = [] →
      (∀ j, s.jobEntry f job = some j →
        let cached := fun k => ∃ c, x.cache.find? (fun c => decide (c.1 = job) && decide (c.2.1 = s.entryIncarn f j) && decide (c.2.2.1 = k)) = some c ∧
          (rankOf c.2.2.2.1 c.2.2.2.2).valid = true ∧ (d.ring = true → (rankOf c.2.2.2.1 c.2.2.2.2).ring = true)
        let covered := decide (d.raddr.toNat + d.length.toNat ≤ sget 0 x.limits (16 * ctx + d.cslot.toNat))
        let posts := fun (e : FabDesc) (go : Bool) (t : State) => ∃ y, (t.fd f).xfers = [y] ∧ y.ctx = ctx ∧ y.job = job ∧ y.desc = e ∧
          y.posted = true ∧ y.started = go ∧ t.rgF n (FD_CTX_W3 ctx) 15 0 = (head + 1) % 65536 ∧ t.dies = s.dies
        (∀ e ∈ all, s.fabOk f e.1 = false → Completes e.2 s (fun t => (t.fd f).xfers = [] ∧ t.dies = s.dies)) ∧
        (cached d.dstRank.toNat →
          (s.fabOk f { d with op := 0#4 } = true → Completes (.transferPut f ctx d) s (posts { d with op := 0#4 } true)) ∧
          (s.fabOk f { d with op := 1#4 } = true → Completes (.transferGet f ctx d) s (posts { d with op := 1#4 } true)) ∧
          (s.fabOk f { d with op := 4#4 } = true → Completes (.transferNote f ctx d) s (posts { d with op := 4#4 } true)) ∧
          (s.fabOk f { d with op := 2#4 } = true → Completes (.transferCput f ctx d) s (posts { d with op := 2#4 } covered))) ∧
        (let rd := s.memGet (s.partOfFd f) d.list.toNat (4 * d.ndst.toNat)
         isHbm d.list.toNat = true → rd.2.1 = 0 → (∀ i, i < d.ndst.toNat → cached (bits (leVal ((rd.2.2.drop (4 * i)).take 4)) 23 0)) →
         s.fabOk f { d with op := 3#4 } = true → Completes (.transferMcast f ctx d) s (posts { d with op := 3#4 } covered))) ∧
      (s.jobEntry f job = none → ∀ e ∈ all, Completes e.2 s (fun t => (t.fd f).xfers = [] ∧ t.dies = s.dies)) ∧
      (∀ (v : W32) m loc, let a := s.ringDesc f ctx head
        (v.toNat + 65536 - head) % 65536 = 1 → s.hbmMap (s.partOfFd f) a = some (m, loc) → s.mdOn m = true → a % 4096 + 64 ≤ 4096 →
        Completes (.doorbell f ctx v) s (fun t => t.rgF n (FD_CTX_W3 ctx) 31 16 = v.toNat % 65536 ∧ t.rgF n (FD_CTX_W3 ctx) 15 0 = (head + 1) % 65536 ∧
          (t.fd f).xfers.map (fun y => (y.desc, y.addr, y.posted)) = [(fabDescOf (readBytes (s.md m).mem loc 64), a, false)] ∧ t.dies = s.dies))) ∧
    (∀ y, x.xfers = [y] → y.ctx = ctx → y.posted = true → y.started = false → (y.desc.op = 2#4 ∨ y.desc.op = 3#4) → Completes (.cputStart f ctx) s (fun t =>
      (t.fd f).xfers.map (fun z => (z.id, z.started)) = [(y.id, x.covered y)] ∧ t.dies = s.dies))

/-- A request packet that a fabric die receives: one that is malformed, of no job here or of another incarnation is discarded and counted; so is
a control packet beyond what its sender's token bucket holds, which an accepted one draws from.
PUT, GET, CPUT and MCAST within the job's window begin their on-panel transactions, CPUT and MCAST below the granted limit only; outside it
they are answered with status 1. A NOTE for another panel is counted. Replies: an ACK of success completes its packet, and the transfer with
its last; one of failure ends it with 0x2181; GET_DATA begins the write at the GET's own destination; CREDIT keeps the highest limit;
FREAD_DATA and FWRITE_ACK end an on-panel transaction. A request not answered in time is sent again, four times in all, and then fails with
0x2180. -/
def Obligations.FabricRequestsAndReplies : Prop :=
  (∀ (s : State) (f : Nat) (h : JHdr) (data : List Byte) (ranks : List (BitVec 24)), f < 16 → s.fdOn f = true → h.ring = false →
    let n := nodeFd f
    let s1 := fun k => s.bumpPerf n FD_RX_BYTES (jilBytes k)
    let spent := fun (cls k : Nat) => if cls = 3 then (s1 k).setFd f { s.fd f with police := sput (s.fd f).police h.src (s.bucket f h.src - jilBytes k, s.ptc) }
      else s1 k
    let a := h.raddr.toNat
    let len := data.length
    let all := [(1, 0, Instr.put f h data), (3, 2, Instr.cput f h data), (0x11, 1, Instr.getData f h data), (0x21, 3, Instr.note f h data)]
    (∀ e ∈ all, (h.bad = true ∨ h.op.toNat ≠ e.1 ∨ h.cls.toNat ≠ e.2.1 ∨ h.len.toNat ≠ len) →
      exec e.2.2 s = .next ((s1 len).bumpErr n FD_RX_BAD FD_STATUS 28 1)) ∧
    (∀ e ∈ all, h.bad = false → h.op.toNat = e.1 → h.cls.toNat = e.2.1 → h.len.toNat = len → (e.2.1 = 3 → jilBytes len ≤ s.bucket f h.src) →
      (s.jobEntry f h.job.toNat = none → exec e.2.2 s = .next ((spent e.2.1 len).bumpErr n FD_NOJOB FD_STATUS 30 1)) ∧
      (∀ j, s.jobEntry f h.job.toNat = some j → s.entryIncarn f j ≠ h.incarn.toNat →
        exec e.2.2 s = .next ((spent e.2.1 len).bumpErr n FD_STALE_INC FD_STATUS 31 1))) ∧
    (h.bad = false → h.op = 0x21#8 → h.cls = 3#2 → h.len.toNat = len → s.bucket f h.src < jilBytes len →
      exec (.note f h data) s = .next ((s1 len).bumpErr n FD_POLICE_DROP FD_STATUS 29 1)) ∧
    (∀ j c, h.bad = false → s.jobEntry f h.job.toNat = some j → s.entryIncarn f j = h.incarn.toNat →
      (s.fd f).cache.find? (fun c => decide (c.1 = h.job.toNat) && decide (c.2.1 = h.incarn.toNat) && decide (c.2.2.1 = h.dstRank.toNat)) = some c →
      (rankOf c.2.2.2.1 c.2.2.2.2).valid = true → (s.fd f).grps = [] →
      (s.isHere f (rankOf c.2.2.2.1 c.2.2.2.2) = true →
        let begins := fun (k : GrpKind) (m : Nat) (t : State) => ∃ g, (t.fd f).grps = [g] ∧ g.kind = k ∧ g.left = m ∧ g.status = 0 ∧ t.dies = s.dies ∧ t.mds = s.mds
        (h.op = 1#8 → h.cls = 0#2 → h.len.toNat = len → 0 < len →
          (s.inWindow f j a len = true → Completes (.put f h data) s (begins (.put h) (pagePieces a len).length)) ∧
          (s.inWindow f j a len = false → exec (.put f h data) s = .next ((s1 len).replySend f h 0x10 1 []))) ∧
        (h.op = 2#8 → h.cls = 0#2 → h.len.toNat = 0 → 0 < h.aux.toNat → h.aux.toNat ≤ 8192 →
          (s.inWindow f j a h.aux.toNat = true → Completes (.get f h) s (begins (.get h) (pagePieces a h.aux.toNat).length)) ∧
          (s.inWindow f j a h.aux.toNat = false → exec (.get f h) s = .next ((s1 0).replySend f h 0x11 1 []))) ∧
        (h.op = 3#8 → h.cls = 2#2 → h.len.toNat = len → 0 < len → s.inWindow f j a len = true → Completes (.cput f h data) s (fun t =>
          if a + len ≤ s.granted then begins (.put h) (pagePieces a len).length t else t = ((s1 len).takeFree.replySend f h 0x10 1 []))) ∧
        (h.op = 4#8 → h.cls = 2#2 → h.len.toNat = h.aux.toNat + len → 0 < len → ranks = [h.dstRank] → isHbm a = true → s.inWindow f j a len = true →
          Completes (.mcast f h ranks data) s (fun t => if a + len ≤ s.granted then begins (.mcast h 1 0) (pagePieces a len).length t
            else t = ((s1 (h.aux.toNat + len)).takeFree.replySend f h 0x10 1 []))) ∧
        (h.op = 0x21#8 → h.cls = 3#2 → h.len.toNat = len → jilBytes len ≤ s.bucket f h.src → exec (.note f h data) s = .next (spent 3 len))) ∧
      (s.isHere f (rankOf c.2.2.2.1 c.2.2.2.2) = false → h.op = 0x21#8 → h.cls = 3#2 → h.len.toNat = len → jilBytes len ≤ s.bucket f h.src →
        exec (.note f h data) s = .next ((spent 3 len).bumpErr n FD_MISROUTE FD_STATUS 26 1)))) ∧
  (∀ (s : State) (f : Nat) (h : JHdr) (j : Nat), f < 16 → s.fdOn f = true → h.ring = false → h.bad = false →
    s.jobEntry f h.job.toNat = some j → s.entryIncarn f j = h.incarn.toNat →
    let n := nodeFd f
    let st := bits h.aux.toNat 7 0
    (∀ ok bad, h.op = 0x10#8 → h.cls = 1#2 → s.slotOf f h = none → exec (.ack f h ok bad) s = .next (s.bumpPerf n FD_RX_BYTES (jilBytes h.len.toNat))) ∧
    (∀ k o x, s.slotOf f h = some (k, o) → (s.fd f).xfers = [x] → x.id = o.xfer →
      (∀ ok bad, h.op = 0x10#8 → h.cls = 1#2 → (x.desc.op = 0#4 ∨ x.desc.op = 2#4) →
        (st = 0 → Completes (.ack f h ok bad) s (fun t => sfind (t.fd f).slots k = none ∧
          (if ({ x with acked := x.acked ++ [(o.pkt, o.copy)] } : Xfer).complete then (t.fd f).xfers = []
           else (t.fd f).xfers.map (·.acked) = [x.acked ++ [(o.pkt, o.copy)]]))) ∧
        (st ≠ 0 → Completes (.ack f h ok bad) s (fun t => sfind (t.fd f).slots k = none ∧ (t.fd f).xfers = [] ∧
          ∃ a ∈ t.pcd.alerts, a.code = 0x2181 ∧ a.node = n))) ∧
      (∀ data : List Byte, h.op = 0x11#8 → h.cls = 1#2 → h.len.toNat = data.length → x.desc.op = 1#4 → st = 0 → 0 < data.length → (s.fd f).grps = [] →
        Completes (.getData f h data) s (fun t => sfind (t.fd f).slots k = none ∧ (t.fd f).xfers = [x] ∧
          ∃ g, (t.fd f).grps = [g] ∧ g.kind = .back x.id o.pkt ∧ g.left = (pagePieces (x.desc.laddr.toNat + 8192 * o.pkt) data.length).length))) ∧
    (∀ limit : W64, h.op = 0x20#8 → h.cls = 3#2 → h.len = 8#16 → jilBytes 8 ≤ s.bucket f h.src → Completes (.credit f h limit) s (fun t =>
      let key := 16 * h.ctx.toNat + bits h.aux.toNat 3 0
      sget 0 (t.fd f).limits key = max (sget 0 (s.fd f).limits key) limit.toNat ∧
      (∀ k, k ≠ key → sget 0 (t.fd f).limits k = sget 0 (s.fd f).limits k) ∧ t.dies = s.dies ∧ t.mds = s.mds)) ∧
    (∀ slot o, slot < 4096 → sfind (s.fd f).slots slot = some o →
      (o.attempt < 3 → s.rg n FD_RETRY < 0xFFFFFFFE → Completes (.requestResendTimeout f slot) s (fun t =>
        (sfind (t.fd f).slots slot).map (fun q => (q.attempt, q.h.retry, q.data)) = some (o.attempt + 1, true, o.data) ∧
        t.rg n FD_RETRY = s.rg n FD_RETRY + 1 ∧ (t.fd f).xfers = (s.fd f).xfers)) ∧
      (∀ x, 3 ≤ o.attempt → (s.fd f).xfers = [x] → x.id = o.xfer → x.desc.op ≠ 3#4 → Completes (.requestResendTimeout f slot) s (fun t =>
        sfind (t.fd f).slots slot = none ∧ (t.fd f).xfers = [] ∧ ∃ a ∈ t.pcd.alerts, a.code = 0x2180 ∧ a.node = n))) ∧
    (∀ (p : DynPkt) o g, p.ecrcOk = true → p.dst.toNat = epFd f → s.partOfEp (epFd f) = some p.part.toNat →
      sfind (s.fd f).onp (bits p.aux.toNat 11 0) = some o → o.txid = p.txid.toNat → (s.fd f).wait = [] → (s.fd f).grps = [g] → g.id = o.piece.grp →
      1 < g.left → p.status = 0#3 →
      (p.ptype = 9#4 → o.piece.wdata = none → Completes (.freadData p) s (fun t => sfind (t.fd f).onp (bits p.aux.toNat 11 0) = none ∧
        (t.fd f).grps = [{ g with left := g.left - 1, status := g.status,
                                  data := g.data.take o.piece.off ++ p.payload ++ g.data.drop (o.piece.off + p.payload.length) }])) ∧
      (p.ptype = 11#4 → o.piece.wdata ≠ none → Completes (.fwriteAck p) s (fun t => sfind (t.fd f).onp (bits p.aux.toNat 11 0) = none ∧
        (t.fd f).grps = [{ g with left := g.left - 1, status := g.status }]))))

/-- A fabric port that goes down or comes up changes its bit of FD.STATUS and no other, and with none up nothing waits; a pause frame of one
of a priority of the three PFC classes holds that priority of that port, of a fabric die or of the hosts, and no other. The panel answers ARP requests and Neighbor Solicitations for
its own addresses, while it has not yielded; an ARP reply gives the gateway's address. -/
def Obligations.FabricPortsAndAddresses : Prop :=
  ∀ (s : State) (f port : Nat), f < 16 → port < 4 → s.fdOn f = true →
    (∀ up : Bool, Completes (if up then .fabricPortUp f port else .fabricPortDown f port) s (fun t =>
      (∀ k, t.rgB (nodeFd f) FD_STATUS k = if k = port then up else s.rgB (nodeFd f) FD_STATUS k) ∧
      (t.portsUp f = [] → (t.fd f).txq = []) ∧ t.dies = s.dies ∧ t.mds = s.mds)) ∧
    (∀ prio (q : BitVec 16), prio < 8 → (∀ c, c < 3 → s.clsPcp c ≠ prio) → exec (.pfcPauseFrame f port prio q) s = .next s) ∧
    (∀ prio (q : BitVec 16), prio < 8 → (∃ c, c < 3 ∧ s.clsPcp c = prio) → Completes (.pfcPauseFrame f port prio q) s (fun t =>
      sget 0 (t.fd f).paused (8 * port + prio) = (if q = 0#16 then 0 else s.ptc16 + cdiv (q.toNat * 1024) 100) ∧
      (∀ k, k ≠ 8 * port + prio → sget 0 (t.fd f).paused k = sget 0 (s.fd f).paused k) ∧ t.dies = s.dies)) ∧
    (∀ (b : Bool) prio (q : BitVec 16), prio < 8 → (∃ c, c < 3 ∧ s.clsPcp c = prio) → Completes (.pfcPauseFrame (16 + b2n b) port prio q) s (fun t =>
      sget 0 t.pcd.hostPaused (8 * b2n b + prio) = (if q = 0#16 then 0 else s.ptc16 + cdiv (q.toNat * 2048) 100) ∧
      (∀ k, k ≠ 8 * b2n b + prio → sget 0 t.pcd.hostPaused k = sget 0 s.pcd.hostPaused k) ∧ t.fds = s.fds ∧ t.dies = s.dies)) ∧
    (∀ (b : Bool) ip, let mine := decide (ip = (s.netCfg (16 + b2n b)).ip) && s.hostPort b && s.answers
      (exec (.arpRequest (16 + b2n b) ip) s = .next (if mine = true ∧ ip / 2 ^ 32 = 0xFFFF then s.emit (.arp (736 + b2n b)) else s)) ∧
      (exec (.neighborSolicitation (16 + b2n b) ip) s = .next (if mine = true ∧ ip / 2 ^ 32 ≠ 0xFFFF then s.emit (.arp (736 + b2n b)) else s))) ∧
    (∀ ip, let mine := decide (ip = s.ownIp + f) && !(s.portsUp f).isEmpty && s.answers
      (exec (.arpRequest f ip) s = .next (if mine = true ∧ ip / 2 ^ 32 = 0xFFFF then s.emit (.arp (nodeFd f)) else s)) ∧
      (exec (.neighborSolicitation f ip) s = .next (if mine = true ∧ ip / 2 ^ 32 ≠ 0xFFFF then s.emit (.arp (nodeFd f)) else s))) ∧
    (∀ mac : BitVec 48, Completes (.arpReply f mac) s (fun t => (t.fd f).gwMac = some mac.toNat ∧ (t.fd f).xfers = (s.fd f).xfers ∧ t.dies = s.dies))

-- Ring and twin link (spec/12 R368-R378) --------------------------------------------------------------------------------------------

/-- A ring frame for another position goes on, on VC 1 across the dateline; one for this panel stays, one of its own is counted and
discarded; past a panel whose bypass is closed the frame goes on unchanged, where the ring is fitted. A ring port's training sets its bit, and the bypass opens with both; the twin link's
training sets its bit. The twin link's heartbeats: sent on both paths with panel time in milliseconds; one received ends the run of missed
windows; a window without one is counted, and the third makes a tailstock that is matched take over: it takes the role, announces every
address and records 0x1190. A headstock that receives TAKEOVER yields. A mirrored checkpoint keeps its number, never an older one. -/
def Obligations.RingAndTwinLink : Prop :=
  (∀ (s : State) (rdst rsrc : BitVec 5) (west vc : Bool) (cls : BitVec 2) (frame : Nat), s.fdOn 0 = true →
    let n := nodeFd 0
    let i := Instr.ringForward rdst rsrc west vc cls frame
    let past := s.emit (.ring west vc cls.toNat rdst.toNat rsrc.toNat frame)
    ((s.enG = false ∨ s.rgB n FD_RING_STATUS 3 = false) → exec i s = .next (if s.fuses.hasG then past else s)) ∧
    (s.enG = true → s.rgB n FD_RING_STATUS 3 = true → rdst.toNat = s.ringPos → exec i s = .next s) ∧
    (s.enG = true → s.rgB n FD_RING_STATUS 3 = true → rdst.toNat ≠ s.ringPos →
      (rsrc.toNat = s.ringPos → exec i s = .next (s.bumpErr n FD_MISROUTE FD_STATUS 26 1)) ∧
      (rsrc.toNat ≠ s.ringPos → s.rgB n FD_RING_STATUS (if west then 0 else 1) = true → exec i s =
        .next (s.emit (.ring west (vc || (if west then decide (s.ringPos = 0) else decide (s.ringPos + 1 = s.ringSize))) cls.toNat rdst.toNat
          rsrc.toNat frame))) ∧
      (rsrc.toNat ≠ s.ringPos → s.rgB n FD_RING_STATUS (if west then 0 else 1) = false → exec i s = .next s)) ∧
    (s.enG = false → ∀ east : Bool, exec (.ringPortUp east) s = .next s ∧ exec (.ringPortDown east) s = .next s) ∧
    (s.enG = true → ∀ east : Bool,
      Completes (.ringPortUp east) s (fun t => ∀ k, t.rgB n FD_RING_STATUS k =
        if k = b2n east then true else if k = 3 ∧ s.rgB n FD_RING_STATUS (1 - b2n east) = true then true else s.rgB n FD_RING_STATUS k) ∧
      exec (.ringPortDown east) s = .next (s.setRgB n FD_RING_STATUS (b2n east) false)) ∧
    (s.enT = true → exec .twinLinkUp s = .next (s.setRgB n FD_TWIN_STATUS 7 true) ∧ exec .twinLinkDown s = .next (s.setRgB n FD_TWIN_STATUS 7 false)) ∧
    (s.enT = false → exec .twinLinkUp s = .next s ∧ exec .twinLinkDown s = .next s)) ∧
  (∀ s : State, s.fdOn 0 = true →
    let n := nodeFd 0
    let missed := s.rgF n FD_TWIN_STATUS 23 16
    (s.twinRole = 0 → exec .heartbeatSend s = .next s ∧ ∀ tw k m, exec (.heartbeat tw k m) s = .next s ∧ exec (.heartbeatWindowMiss k) s = .next s) ∧
    (s.twinRole ≠ 0 → s.twinUp = true → Completes .heartbeatSend s (fun t =>
      (∃ health, t.out = .heartbeat false (s.ptc / 1000000) (s.rg n FD_MIRROR_SEQ) s.twinRole health ::
        .heartbeat true (s.ptc / 1000000) (s.rg n FD_MIRROR_SEQ) s.twinRole health :: s.out) ∧ t.regs = s.regs ∧ t.dies = s.dies)) ∧
    (∀ tw k m, s.twinRole ≠ 0 → (tw = true → s.twinUp = true) → Completes (.heartbeat tw k m) s (fun t =>
      t.rgF n FD_TWIN_STATUS 23 16 = 0 ∧ (if tw then t.pcd.hbSeen else t.pcd.hbHostSeen).contains k.toNat = true ∧
      t.rgF n FD_TWIN_STATUS 1 0 = s.rgF n FD_TWIN_STATUS 1 0 ∧ t.dies = s.dies ∧ SameOutside s t)) ∧
    (∀ k : W32, s.twinRole ≠ 0 →
      (s.pcd.hbSeen.contains k.toNat = true ∨ s.pcd.hbHostSeen.contains k.toNat = true → exec (.heartbeatWindowMiss k) s = .next s) ∧
      (s.pcd.hbSeen.contains k.toNat = false → s.pcd.hbHostSeen.contains k.toNat = false → s.rg n FD_HB_MISS < 0xFFFFFFFE →
        ((s.twinRole ≠ 2 ∨ s.matched = false ∨ missed < 2) → Completes (.heartbeatWindowMiss k) s (fun t =>
          t.rgF n FD_TWIN_STATUS 23 16 = min 255 (missed + 1) ∧ t.rg n FD_HB_MISS = s.rg n FD_HB_MISS + 1 ∧ t.out = s.out ∧ SameOutside s t)) ∧
        (s.twinRole = 2 → s.matched = true → 2 ≤ missed → s.canRecord 0x1190 → Completes (.heartbeatWindowMiss k) s (fun t =>
          t.rgF n FD_TWIN_STATUS 1 0 = 1 ∧ t.rgB n FD_TWIN_STATUS 4 = true ∧ s.Recorded t 0x1190 ∧
          (∀ f, f < s.cutRegions → .arp (nodeFd f) ∈ t.out) ∧ .arp 736 ∈ t.out ∧ .arp 737 ∈ t.out ∧ t.out.count (.takeoverMsg true) = s.out.count (.takeoverMsg true) + 1 ∧
          ∀ c ∈ s.partCfgs, (t.part c.num).pstate ≠ 2)))) ∧
    (∀ tw : Bool, (s.twinRole ≠ 1 ∨ (tw = true ∧ s.twinUp = false) ∨ s.pcd.twinYielded = true) → exec (.takeover tw) s = .next s) ∧
    (∀ tw : Bool, s.twinRole = 1 → (tw = true → s.twinUp = true) → s.pcd.twinYielded = false → (∀ p, (s.part p).ctxs = []) → s.canRecord 0x4190 →
      Completes (.takeover tw) s (fun t => t.pcd.twinYielded = true ∧ t.answers = false ∧ s.Recorded t 0x4190)) ∧
    (∀ k : W32, (s.matched = false → exec (.mirrorComplete k) s = .next s) ∧
      (s.matched = true → (∀ q, (s.session q).items = []) → exec (.mirrorComplete k) s =
        .next (if wrapSub 32 k.toNat (s.rg n FD_MIRROR_SEQ) < 2 ^ 31 then s.setRg n FD_MIRROR_SEQ k.toNat else s))))

-- Clocks and panel time (spec/14) ----------------------------------------------------------------------------------------------------

/-- A die whose selected reference is lost takes the other one and counts the switch; with both lost it stays, and a die of a region raises
0x31A0; a restored input loses its mark, and the selection stands. A node out of service is kept so; the master's beacon carries its time. A
frequency step: at W the links of the partition stop and the new step is in force; the count is then loaded with W + P - 280 (25 - step) and
every share of a link starts its sequence anew; at the resume every die leaves its hold, and a die that is late raises 0x21A0. -/
def Obligations.ReferencesAndFrequencySteps : Prop :=
  (∀ (s : State) (n : Nat) (b : Bool), n < 738 → s.nodeOn n = false →
    exec (.referenceLoss n b) s = .next s ∧ exec (.referenceRestored n b) s = .next s) ∧
  (∀ (s : State) (n : Nat) (b : Bool), n < 736 → s.nodeOn n = true →
    let r := clkOff n 0
    let sel := s.rgB n r 0
    (s.rgB n r (1 + b2n b) = false → sel = b → s.rgB n r (1 + b2n !b) = false → s.rg n (clkOff n 4) < 0xFFFFFFFE →
      Completes (.referenceLoss n b) s (fun t => t.rgB n r 0 = (!b) ∧ t.rgB n r (1 + b2n b) = true ∧ t.rg n (clkOff n 4) = s.rg n (clkOff n 4) + 1 ∧
        (∃ a, t.pcd.alerts = s.pcd.alerts ++ [a] ∧ a.code = 0x11A0 ∧ a.unit = unitCode 7 n (b2n b)) ∧ t.dies = s.dies)) ∧
    (s.rgB n r (1 + b2n b) = false → sel = b → s.rgB n r (1 + b2n !b) = true → Completes (.referenceLoss n b) s (fun t =>
      t.rgB n r 0 = sel ∧ t.rgB n r 4 = true ∧ (∃ a, t.pcd.alerts = s.pcd.alerts ++ [a] ∧ a.code = 0x31A0) ∧ t.dies = s.dies)) ∧
    ((sel ≠ b ∨ s.rgB n r (1 + b2n b) = true) → exec (.referenceLoss n b) s = .next (s.setRgB n r (1 + b2n b) true)) ∧
    (Completes (.referenceRestored n b) s (fun t => t.rgB n r (1 + b2n b) = false ∧ t.rgB n r 4 = false ∧ t.rgB n r 0 = sel ∧
      t.rgB n r (1 + b2n !b) = s.rgB n r (1 + b2n !b) ∧ t.dies = s.dies)) ∧
    (s.pcd.nodesOut.contains n = true → exec (.spindleNodeOut n) s = .next s) ∧
    ((∀ p, p < 16 → (s.setPcd (fun q => { q with nodesOut := insUniq n q.nodesOut })).cutOff p = none) → s.pcd.nodesOut.contains n = false →
      exec (.spindleNodeOut n) s = .next (s.setPcd (fun q => { q with nodesOut := insUniq n q.nodesOut }))) ∧
    (exec .beaconSend s = .next (if s.pcd.standby = true ∧ 4 ≤ s.pcd.stageDone then s.emit (.beacon s.ptc16) else s))) ∧
  (∀ (s : State) (p : Nat), p < 16 →
    let x := s.part p
    ((s.kernelNode p = none ∨ x.stepW = none ∨ x.stopped = true) → exec (.freqStepStop p) s = .next s) ∧
    (∀ d w, s.kernelNode p = some d → x.stepW = some w → x.stopped = false →
      exec (.freqStepStop p) s = .next (s.setPart p { x with stopped := true, step := s.rgF d CD_CLK_NEXT 51 48 })) ∧
    ((x.stepW = none ∨ x.stopped = false) → exec (.freqStepCountLoad p) s = .next s) ∧
    (∀ w, x.stepW = some w → x.stopped = true → Completes (.freqStepCountLoad p) s (fun t =>
      (t.part p).ccount = (w + 400 * (25 - x.step) - 280 * (25 - x.step)) % 2 ^ 64 ∧ (t.part p).stopped = false ∧ (t.part p).step = x.step ∧
      (∀ d ∈ s.diesOf p, (t.die d).sseq = [] ∧ t.rgB d CD_CLK_STATUS 8 = true) ∧ (∀ q, q ≠ p → t.part q = s.part q) ∧ t.mds = s.mds)) ∧
    ((x.stepW = none ∨ x.stopped = true) → ∀ late, exec (.freqStepResume p late) s = .next s) ∧
    (∀ w late, x.stepW = some w → x.stopped = false → Completes (.freqStepResume p late) s (fun t =>
      (∀ d ∈ s.diesOf p, (t.die d).fstep = false) ∧ (t.part p).stepW = none ∧ (t.part p).atStep = [] ∧
      t.pcd.alerts.map (fun a => (a.node, a.code)) =
        s.pcd.alerts.map (fun a => (a.node, a.code)) ++ (late.filter (s.diesOf p).contains).map (fun d => (d, 0x21A0)))))

/-- A margin monitor below the warning threshold begins a local hold, counts it and keeps the lowest slack; a hold in force only keeps the
slack, and a slack at or above the threshold does nothing. The release ends it. A monitor without slack halts every armed or running place
of the die and raises 0x21A1. A memory die holds and is released in the same way. -/
def Obligations.MarginMonitorsHoldAndHalt : Prop :=
  (∀ (s : State) (m mon slack : Nat), m < 128 → mon < 4 → s.mdOn m = true →
    let n := nodeMd m
    (slack < s.warnTh → s.holding n = false → s.rg n (clkOff n 8) < 0xFFFFFFFE → Completes (.localHoldBegin n mon slack) s (fun t =>
      t.holding n = true ∧ (t.md m).holdAt = some (s.part (s.partOfMd m)).ccount ∧ t.rg n (clkOff n 8) = s.rg n (clkOff n 8) + 1 ∧
      (t.md m).mem = (s.md m).mem ∧ (∀ k, k ≠ m → t.md k = s.md k) ∧ t.dies = s.dies)) ∧
    (s.holding n = true → (s.md m).items = [] → Completes (.localHoldRelease n) s (fun t =>
      t.holding n = false ∧ (t.md m).holdAt = none ∧ (t.md m).mem = (s.md m).mem ∧ (∀ k, k ≠ m → t.md k = s.md k) ∧ t.dies = s.dies))) ∧
  ∀ (s : State) (d mon slack : Nat), d < 576 → mon < 24 → s.coreOn d = true →
    let r := clkOff d 0
    (s.warnTh ≤ slack → exec (.localHoldBegin d mon slack) s = .next s) ∧
    (slack < s.warnTh → s.holding d = true → exec (.localHoldBegin d mon slack) s = .next (s.marginOf d mon slack)) ∧
    (slack < s.warnTh → s.holding d = false → s.rg d (clkOff d 8) < 0xFFFFFFFE → s.rg d CD_HOLD_EVENTS < 0xFFFFFFFE →
      Completes (.localHoldBegin d mon slack) s (fun t => t.holding d = true ∧ (t.die d).holdAt = some (s.ccountOf d) ∧
        t.rg d (clkOff d 8) = s.rg d (clkOff d 8) + 1 ∧ t.rg d CD_HOLD_EVENTS = s.rg d CD_HOLD_EVENTS + 1 ∧
        (slack < 64 → slack < s.rgF d (clkOff d 0x2C) 31 26 → t.rgF d (clkOff d 0x2C) 31 26 = slack ∧ t.rgF d (clkOff d 0x2C) 25 21 = mon) ∧
        (∀ p, t.place d p = s.place d p) ∧ SameOutside s t)) ∧
    (s.holding d = false → exec (.localHoldRelease d) s = .next s) ∧
    (s.holding d = true → exec (.localHoldRelease d) s = .next ((s.setRgB d r 5 false).modDie d (fun x => { x with holdAt := none }))) ∧
    Completes (.replicaSlackZero d mon) s (fun t =>
      (∀ p, p < 25 → (s.place d p).st = .armed ∨ (s.place d p).st = .running → (t.place d p).st = .halted) ∧
      (∃ a ∈ t.pcd.alerts, a.code = 0x21A1 ∧ a.node = d ∧ a.unit = unitDie d) ∧ (∀ e, e ≠ d → t.die e = s.die e) ∧ SameOutside s t)

/-- The PTP servo: a Sync of its domain on its port, or the Follow_Up that a two-step Sync waits for, records the offset and takes a rate within
50 ppm and within 2 ppm of every rate of the last second; which rate is a free value, but where PTP time lies more than 100 ns behind it is the
lowest of these. A message of another domain or port has no effect. Delay_Resp and Announce set the delay and the grandmaster.
Without Sync the rate is held and 0x11A3 recorded. With no job loaded the PTC steps forward to PTP time, never back. A failed active PCD
gives way to a standby that works, and 0x1012 is recorded; without one the panel is held. -/
def Obligations.PanelTimeFollowsPtp : Prop :=
  ∀ (s : State) (b : PtpFrom) (off : Int),
    let st := s.rgF nodePc PC_PTP_STATUS 1 0
    let steered := fun (off : Int) (t : State) => t.rg nodePc PC_PTP_OFFSET = toTwos 64 off ∧
      (s.rateBounds.1 ≤ s.rateBounds.2 → s.rateBounds.1 ≤ signedOf 32 (t.rg nodePc PC_PTP_RATE) ∧
        signedOf 32 (t.rg nodePc PC_PTP_RATE) ≤ s.rateBounds.2 ∧ (1600 < off → signedOf 32 (t.rg nodePc PC_PTP_RATE) = s.rateBounds.1)) ∧ t.dies = s.dies ∧ t.mds = s.mds ∧ t.sess = s.sess
    (s.ptpOn b = (s.hostUp && s.hostPort b.portB && decide (s.rgB nodePc PC_PTP_STATUS 2 = b.portB) && decide (s.pcd.conf.map (·.ptpDomain) = some b.domain))) ∧
    (s.ptpOn b = false → ∀ two : Bool, exec (.ptpSync b two off) s = .next s) ∧
    (s.ptpOn b = true →
      Completes (.ptpSync b false off) s (steered (off - s.pcd.ptpDelay)) ∧
      exec (.ptpSync b true off) s = .next (s.setPcd (fun p => { p with ptpWait := some s.ptc16 }))) ∧
    (∀ w, s.ptpOn b = true → s.pcd.ptpWait = some w → Completes (.ptpFollowUp ⟨b, off⟩) s (steered (w - off - s.pcd.ptpDelay))) ∧
    ((s.pcd.ptpWait = none ∨ s.ptpOn b = false) → exec (.ptpFollowUp ⟨b, off⟩) s = .next s) ∧
    (s.ptpOn b = false → exec (.ptpDelayResp ⟨b, off⟩) s = .next s ∧ ∀ g : W64, exec (.ptpAnnounce ⟨b, g⟩) s = .next s) ∧
    (s.ptpOn b = true → exec (.ptpDelayResp ⟨b, off⟩) s = .next (s.setPcd (fun p => { p with ptpDelay := off })) ∧
      ∀ g : W64, exec (.ptpAnnounce ⟨b, g⟩) s = .next (s.setRg nodePc PC_PTP_GMID g.toNat)) ∧
    (st ≠ 1 → exec .ptpHoldover s = .next s) ∧
    (st = 1 → s.canRecord 0x11A3 → Completes .ptpHoldover s (fun t => t.rgF nodePc PC_PTP_STATUS 1 0 = 2 ∧
      t.rg nodePc PC_PTP_RATE = s.rg nodePc PC_PTP_RATE ∧ s.Recorded t 0x11A3 ∧ t.dies = s.dies)) ∧
    (∀ time, (s.pcd.stageDone ≠ 5 ∨ (∃ p, p < 16 ∧ s.loaded p = true) ∨ time ≤ s.ptc16) → exec (.ptcStepToPtp time) s = .next s) ∧
    (∀ time, s.pcd.stageDone = 5 → (∀ p, p < 16 → s.loaded p = false) → s.ptc16 < time → Completes (.ptcStepToPtp time) s (fun t =>
      t.ptc16 = time ∧ t.dies = s.dies ∧ t.parts = s.parts)) ∧
    (s.pcd.standbyOk = false → exec .activePcdFail s = .next (s.setPcd (fun p => { p with heldOff := true }))) ∧
    (s.pcd.standbyOk = true → (∀ p, p < 16 → (s.part p).run = none) → s.canRecord 0x1012 → Completes .activePcdFail s (fun t =>
      t.pcd.activeB = (!s.pcd.activeB) ∧ t.pcd.standbyOk = false ∧ s.Recorded t 0x1012 ∧ t.sess = s.sess ∧ t.ptc16 = s.ptc16 ∧ t.dies = s.dies))

-- Sessions (spec/13) ----------------------------------------------------------------------------------------------------------------

/-- OPEN under a key of the configuration with a good signature opens its session, superseding one that is open by its next generation; a
bad signature is counted, and an unknown key answered with status 1. A packet with a bad tag or of another generation is counted and has no
effect, and nothing has one while the host service is down. CLOSE and the session timeout end a session, its items going on; CPL_ACK drops the
records up to its CSEQ; records not acknowledged are sent again, over the port of the session's last packet where that is up. A packet arrives only
over a port that is up, and one for a host port whose priority is paused waits. A number that no partition or key slot has names no session (log entry 41). -/
def Obligations.SessionsOpenAndClose : Prop :=
  (∀ (s : State) (k part slot port : Nat) (gen : BitVec 16) (items : List WItem) (sseq cseq : W32) (off : Nat) (data : List Byte) (b : HostHdr) (ok : Bool),
    k < 65536 → part < 256 → slot < 256 → port < 2 →
    let all := [(128 * items.length + 16, Instr.submit k gen b items), (data.length + 16, Instr.sdata k gen b sseq off data),
      (20, Instr.cplAck k gen b cseq), (16, Instr.close k gen b)]
    (∀ e ∈ all, ((s.hostUp = false ∨ s.hostPort b.portB = false) → exec e.2 s = .next s) ∧
      (s.hostUp = true → s.hostPort b.portB = true → (s.session k).known = false →
        exec e.2 s = .next ((s.hostRx e.1).bumpErr nodePc PC_HOST_AUTH_FAIL PC_HOST_STATUS 31 1))) ∧
    ((s.hostUp = false ∨ s.hostPort (decide (port = 1)) = false) → exec (.opn part slot port ok) s = .next s) ∧
    (s.hostUp = true → s.hostPort (decide (port = 1)) = true → (16 ≤ part ∨ 8 ≤ slot) → s.hostQuiet → exec (.opn part slot port ok) s =
      .next (((s.hostRx 148).emit (.openOk { s.hostTo (decide (port = 1)) (8 * part + slot) 3 with gen := 0 } 1 s.pcd.retained 0)).bumpPerf nodePc
        PC_HOST_TX_BYTES 188))) ∧
  ∀ (s : State) (k port : Nat) (gen : BitVec 16) (items : List WItem) (sseq cseq : W32) (off : Nat) (data : List Byte) (pb : Bool),
    k < 128 → port < 2 → s.hostUp = true → s.hostPort pb = true →
    let x := s.session k
    let good : HostHdr := ⟨pb, true⟩
    let dst := fun (b : Bool) (cls gen : Nat) => { s.hostTo b k cls with gen := gen }
    let all := [(128 * items.length + 16, fun b => Instr.submit k gen ⟨pb, b⟩ items), (data.length + 16, fun b => Instr.sdata k gen ⟨pb, b⟩ sseq off data),
      (20, fun b => Instr.cplAck k gen ⟨pb, b⟩ cseq), (16, fun b => Instr.close k gen ⟨pb, b⟩)]
    (s.hostPort (decide (port = 1)) = true →
      (∀ h, s.keyOf k = some h → x.lostItems = [] → Completes (.opn (k / 8) (k % 8) port true) s (fun t =>
        let gen' := if x.isOpen then (x.gen + 1) % 65536 else x.gen
        (t.session k).isOpen = true ∧ (t.session k).known = true ∧ (t.session k).gen = gen' ∧ (t.session k).items = x.items ∧
        (t.session k).recs = x.recs ∧ (t.session k).nextSseq = x.nextSseq ∧ (t.session k).portB = decide (port = 1) ∧
        (s.hostQuiet → .openOk (dst (decide (port = 1)) 3 gen') 0 s.pcd.retained x.nextSseq ∈ t.out) ∧
        (∀ j, j ≠ k → t.session j = s.session j) ∧ t.dies = s.dies)) ∧
      (∀ h, s.keyOf k = some h → exec (.opn (k / 8) (k % 8) port false) s =
        .next ((s.hostRx 148).bumpErr nodePc PC_HOST_AUTH_FAIL PC_HOST_STATUS 31 1)) ∧
      (∀ ok, s.keyOf k = none → Completes (.opn (k / 8) (k % 8) port ok) s (fun t =>
        (s.hostQuiet → t.out = .openOk (dst (decide (port = 1)) 3 0) 1 s.pcd.retained 0 :: s.out) ∧ t.sess = s.sess))) ∧
    (∀ e ∈ all, exec (e.2 false) s = .next ((s.hostRx e.1).bumpErr nodePc PC_HOST_AUTH_FAIL PC_HOST_STATUS 31 1) ∧
      (x.known = true → (x.isOpen = false ∨ x.gen ≠ gen.toNat) →
        exec (e.2 true) s = .next ((s.hostRx e.1).bumpErr nodePc PC_HOST_STALE PC_HOST_STATUS 30 1))) ∧
    (x.known = true → x.isOpen = true → x.gen = gen.toNat →
      Completes (.close k gen good) s (fun t => (t.session k).isOpen = false ∧ (t.session k).hint = none ∧ (t.session k).items = x.items ∧
        (t.session k).recs = x.recs ∧ t.dies = s.dies) ∧
      Completes (.cplAck k gen good cseq) s (fun t => (t.session k).recs = x.recs.filter (fun r => decide (2 ^ 31 ≤ wrapSub 32 cseq.toNat r.cseq)) ∧
        (t.session k).items = x.items ∧ t.dies = s.dies)) ∧
    (x.isOpen = true → Completes (.sessionTimeout k) s (fun t => (t.session k).isOpen = false ∧ (t.session k).hint = none ∧
      (t.session k).items = x.items ∧ t.dies = s.dies)) ∧
    (x.isOpen = false → exec (.sessionTimeout k) s = .next s) ∧
    (x.isOpen = true → 0 < x.recs.length → x.recs.length ≤ 32 →
      let b := s.sessPort k
      (s.hostQuiet → Completes (.cplResend k) s (fun t => t.out = .cpl (dst b 1 x.gen) x.recs :: s.out ∧ t.sess = s.sess)) ∧
      (s.pcd.hostTxq = [] → s.clsPcp 1 ≠ s.clsPcp 3 → s.ptc16 < sget 0 s.pcd.hostPaused (8 * b2n b + s.clsPcp 1) → Completes (.cplResend k) s (fun t =>
        t.out = s.out ∧ t.pcd.hostTxq.map (fun f => (f.portB, f.prio, f.out)) = [(b, s.clsPcp 1, .cpl (dst b 1 x.gen) x.recs)] ∧ t.sess = s.sess))) ∧
    (x.recs = [] → exec (.cplResend k) s = .next s)

/-- SUBMIT of the items expected next: those that follow one another are accepted in order, up to 1,024 in all, and their ACK says how many. Ahead
of what is expected, or beyond 1,024 items, it is refused and counted; a resend of the one accepted last gets the same ACK. WORK_ITEM_START
begins the item that may, ends one that may not, and wakes its partition. -/
def Obligations.ItemsAreAcceptedAndStart : Prop :=
  ∀ (s : State) (k : Nat) (gen : BitVec 16) (pb : Bool), k < 128 → s.hostUp = true → s.hostPort pb = true →
    let x := s.session k
    let good : HostHdr := ⟨pb, true⟩
    let ack := fun (q n st : Nat) (t : State) => s.hostQuiet → t.out = .host (s.hostTo pb k 1) 0x10 q n st [] :: s.out
    (∀ (w0 : WItem) (r : List WItem), x.known = true → x.isOpen = true → x.gen = gen.toNat → (w0 :: r).length ≤ 16 →
      let q := w0.sseq.toNat
      let items := w0 :: r
      let taken := (inRow q items).take (1024 - x.items.length)
      (q = x.nextSseq → x.items.length < 1024 → Completes (.submit k gen good items) s (fun t =>
        (t.session k).items = x.items ++ taken.map SItem.fresh ∧ (t.session k).nextSseq = (q + taken.length) % 2 ^ 32 ∧
        (t.session k).recs = x.recs ∧ ack q taken.length 0 t ∧ (∀ j, j ≠ k → t.session j = s.session j) ∧ t.dies = s.dies)) ∧
      (wrapSub 32 q x.nextSseq < 2 ^ 31 → (q ≠ x.nextSseq ∨ 1024 ≤ x.items.length) → x.nextSseq < 2 ^ 32 → s.rg nodePc PC_HOST_REFUSED < 0xFFFFFFFE →
        Completes (.submit k gen good items) s (fun t => (t.session k).items = x.items ∧ (t.session k).nextSseq = x.nextSseq ∧
          t.rg nodePc PC_HOST_REFUSED = s.rg nodePc PC_HOST_REFUSED + 1 ∧ ack q 0 1 t)) ∧
      (∀ n, 2 ^ 31 ≤ wrapSub 32 q x.nextSseq → x.lastSubmits.find? (fun e => decide (e.1 = q)) = some (q, n) →
        Completes (.submit k gen good items) s (fun t => ack q n 0 t ∧ (t.session k).items = x.items))) ∧
    (∀ (q : W32) (i : SItem), s.item k q.toNat = some i →
      let light := decide (i.w.op = 0x20#8) || decide (i.w.op = 0x21#8)
      let run := decide ((s.part (k / 8)).pstate = 0) || light
      ((i.started = true ∨ s.mayStart k i = false ∨ (run = false ∧ (s.part (k / 8)).waking = true)) → exec (.workItemStart k q) s = .next s) ∧
      (i.started = false → s.mayStart k i = true → run = false → (s.part (k / 8)).waking = false → Completes (.workItemStart k q) s (fun t =>
        (t.part (k / 8)).waking = true ∧ t.sess = s.sess ∧ t.dies = s.dies)) ∧
      (i.started = false → s.mayStart k i = true → run = true →
        (∀ st, s.startStatus k i.w = some st → Completes (.workItemStart k q) s (fun t => s.Ended t k q.toNat st 0 ∧ t.dies = s.dies ∧ t.parts = s.parts)) ∧
        (s.startStatus k i.w = none → Completes (.workItemStart k q) s (fun t =>
          t.item k q.toNat = some { i with started := true, lastData := s.ptc } ∧ t.regs = s.regs ∧ t.dies = s.dies ∧ t.parts = s.parts))))

/-- A started WRITE takes data from its row on, and is complete once every byte is written; SDATA to the own partition's HBM is written
there and acknowledged; data beyond the item, or for which a tracker entry is wanting, is not taken; without data it ends with status 12. READ
sends the bytes read and ends with their count, and waits for its tracker entry. COPY by a die outside the partition ends with status 1, and a
FILL of it within a page completes at once. -/
def Obligations.DataItemsMoveBytes : Prop :=
  ∀ (s : State) (k : Nat) (q : W32) (i : SItem), k < 128 → s.item k q.toNat = some i → i.started = true →
    let p := k / 8
    let a := i.w.addr.toNat
    (∀ e ∈ (s.part p).ctxs, e.2.endAs = none) →
    (i.w.op = 1#8 → i.w.length.toNat ≤ i.done → Completes (.itemWrite k q) s (fun t => s.Ended t k q.toNat 0 i.done)) ∧
    (i.w.op = 1#8 → i.done < i.w.length.toNat → Completes (.itemWrite k q) s (fun t =>
      (t.item k q.toNat).map (fun j => (j.acted, j.done)) = some (true, i.done) ∧ t.regs = s.regs ∧ t.dies = s.dies ∧ t.mds = s.mds)) ∧
    (i.w.op = 1#8 → Completes (.writeSdataTimeout k q) s (fun t => s.Ended t k q.toNat 12 i.done ∧ t.mds = s.mds)) ∧
    (∀ (gen : BitVec 16) (pb : Bool) off (data : List Byte) m loc, s.hostUp = true → s.hostPort pb = true → s.hostQuiet → (s.session k).known = true → (s.session k).isOpen = true →
      (s.session k).gen = gen.toNat → i.w.op = 1#8 → 0 < data.length → data.length ≤ 8064 → off + data.length ≤ i.w.length.toNat →
      isHbm (a + off) = true → (a + off) % 4096 + data.length ≤ 4096 → s.hbmMap p (a + off) = some (m, loc) → s.mdOn m = true → (s.md m).errs = [] →
      s.scrubHits p (a + off) data.length = false → s.keptRange p (a + off) data.length = false →
      (s.md m).holdAt = none → ((s.md m).freeTx 2).isSome = true →
      Completes (.sdata k gen ⟨pb, true⟩ q off data) s (fun t => .host (s.hostTo pb k 1) 0x10 q.toNat 0 0 [] ∈ t.out ∧
        (∀ b, memRead (t.md m).mem b = if loc ≤ b ∧ b < loc + data.length then data.getD (b - loc) 0#8 else memRead (s.md m).mem b) ∧
        (∀ n, n ≠ m → t.md n = s.md n))) ∧
    (∀ (gen : BitVec 16) (pb : Bool) off (data : List Byte), s.hostUp = true → s.hostPort pb = true → (s.session k).known = true → (s.session k).isOpen = true →
      (s.session k).gen = gen.toNat → (i.w.op ≠ 1#8 ∨ i.w.length.toNat < off + data.length ∨ s.hostRoom p (a + off) data.length = false) →
      Completes (.sdata k gen ⟨pb, true⟩ q off data) s (fun t => t.out = s.out ∧ t.item k q.toNat = some i ∧ t.mds = s.mds ∧ t.dies = s.dies)) ∧
    (i.w.op = 2#8 → s.hostRoom p a i.w.length.toNat = false → exec (.itemRead k q) s = .next s) ∧
    (∀ m loc, let n := i.w.length.toNat
      i.w.op = 2#8 → (s.session k).isOpen = true → 0 < n → a % 4096 + n ≤ 4096 → isHbm a = true → s.hbmMap p a = some (m, loc) → s.mdOn m = true →
      (s.md m).errs = [] → s.scrubHits p a n = false → s.keptRange p a n = false → s.hostRoom p a n = true → Completes (.itemRead k q) s (fun t =>
        s.Ended t k q.toNat 0 n ∧
        (s.hostUp = true → s.hostQuiet → .host (s.hostTo (s.sessPort k) k 1) 0x35 q.toNat 0 0 (readBytes (s.md m).mem loc n) ∈ t.out) ∧ (∀ j, (t.md j).mem = (s.md j).mem))) ∧
    let m := if i.w.md = 0xFF#8 then ((s.part p).stackList.find? s.mdOn).getD 128 else i.w.md.toNat
    (i.w.op = 3#8 → i.item = none → (128 ≤ m ∨ s.partOfRegion (m / 8) ≠ some p ∨ s.mdOn m = false) →
      Completes (.copy k q) s (fun t => s.Ended t k q.toNat 1 0 ∧ t.mds = s.mds)) ∧
    (i.w.op = 3#8 → i.item.isSome = true → exec (.copy k q) s = .next s) ∧
    (∀ loc, let dd := i.w.desc
      i.w.op = 3#8 → i.item = none → m < 128 → s.partOfRegion (m / 8) = some p → s.mdOn m = true → (s.md m).items = [] → (s.md m).trk = [] →
      (s.md m).errs = [] → (s.md m).holdAt = none → s.descOk p (.hostItem k q.toNat) dd = true → dd.op = 1#2 → dd.twoD = false → dd.land = false →
      isHbm dd.dst.toNat = true → dd.dst.toNat % 4096 + dd.length.toNat ≤ 4096 → s.hbmMap p dd.dst.toNat = some (m, loc) →
      s.keptRange p dd.dst.toNat dd.length.toNat = false → s.scrubHits p dd.dst.toNat dd.length.toNat = false →
      Completes (.copy k q) s (fun t => s.Ended t k q.toNat 0 dd.length.toNat ∧ (t.md m).items = [] ∧
        ∀ b, memRead (t.md m).mem b = if loc ≤ b ∧ b < loc + dd.length.toNat then
          BitVec.ofNat 8 (dd.pattern.toNat >>> (8 * ((dd.dst.toNat + (b - loc)) % 4))) else memRead (s.md m).mem b))

/-- The job items. JOB_LOAD of an image that fits makes a loaded context; JOB_START readies it, in the phase of
the job's last checkpoint or the first, and writes its job entry on every fabric die of the partition; JOB_KILL of no resident job ends at once, and of one that is resident ends it with status 11. CHECKPOINT holds its range,
and RELEASE lets a job's ranges go. HINT sets the session's hint, NOP does nothing, and a hint or a retention ends when it expires. -/
def Obligations.JobItemsChangeTheirContext : Prop :=
  ∀ (s : State) (k : Nat) (q : W32) (i : SItem), k < 128 → s.item k q.toNat = some i → i.started = true →
    let p := k / 8
    let cid := i.w.ctx.toNat
    let job := i.w.job.toNat
    (∀ img : Image, i.w.op = 0x10#8 → (s.part p).ctxs = [] → ((i.w.addr.toNat, i.w.length.toNat) :: img.ranges).all (fun r => !s.scrubWaits p r.1 r.2) = true →
      let r := s.hbmRead p i.w.addr.toNat i.w.length.toNat
      ((r.2.1 = 0 ∧ r.1.imageOk p img = true) → Completes (.jobLoad k q img) s (fun t => s.Ended t k q.toNat 0 0 ∧
        (t.part p).ctxs.map (fun e => (e.1, e.2.job, e.2.key, e.2.st, e.2.img)) = [(cid, job, k, .loaded, img)] ∧ t.dies = s.dies)) ∧
      (¬(r.2.1 = 0 ∧ r.1.imageOk p img = true) → Completes (.jobLoad k q img) s (fun t => s.Ended t k q.toNat 14 0 ∧ (t.part p).ctxs = []))) ∧
    (∀ img c, i.w.op = 0x10#8 → (s.part p).ctxs = [(cid, c)] → c.st ≠ .retained → Completes (.jobLoad k q img) s (fun t =>
      s.Ended t k q.toNat 13 0 ∧ t.parts = s.parts)) ∧
    (∀ img, i.w.op = 0x10#8 → (∃ e ∈ (s.part p).ctxs, e.2.st = .retained ∧ e.2.key ≠ k) → Completes (.jobLoad k q img) s (fun t =>
      s.Ended t k q.toNat 13 0 ∧ t.parts = s.parts)) ∧
    (∀ img : Image, i.w.op = 0x10#8 → (s.part p).ctxs = [] →
      ((i.w.addr.toNat, i.w.length.toNat) :: img.ranges).any (fun r => s.scrubWaits p r.1 r.2) = true → exec (.jobLoad k q img) s = .next s) ∧
    (i.w.op = 0x11#8 → sfind (s.part p).ctxs cid = none → Completes (.jobStart k q) s (fun t => s.Ended t k q.toNat 13 0 ∧ t.parts = s.parts)) ∧
    (∀ c, i.w.op = 0x11#8 → sfind (s.part p).ctxs cid = some c → c.jsItem ≠ some (k, q.toNat) →
      ((c.job ≠ job ∨ c.key ≠ k ∨ c.st ≠ .loaded ∨ c.endAs.isSome = true) → Completes (.jobStart k q) s (fun t =>
        s.Ended t k q.toNat 13 0 ∧ t.parts = s.parts)) ∧
      (c.job = job → c.key = k → c.st = .loaded → c.endAs = none → i.w.quantum.toNat < 1000 → Completes (.jobStart k q) s (fun t =>
        s.Ended t k q.toNat 9 0 ∧ t.parts = s.parts)) ∧
      (c.job = job → c.key = k → c.st = .loaded → c.endAs = none → 1000 ≤ i.w.quantum.toNat → (s.part p).run.isSome = true →
        Completes (.jobStart k q) s (fun t => (sfind (t.part p).ctxs cid).map (fun x => (x.st, x.jsItem, x.phase)) =
            some (.ready, some (k, q.toNat), (s.part p).startPhase c) ∧
          (sfind (t.part p).ctxs cid).map (fun x => (x.incarn, x.prio, x.quantum)) = some (i.w.incarn.toNat, i.w.prio.toNat, i.w.quantum.toNat) ∧
          (∀ f ∈ s.regionsOf p, t.rg (nodeFd f) (FD_JOB_W0 cid) = 2 ^ 63 + job * 2 ^ 16 + i.w.incarn.toNat) ∧ (t.item k q.toNat).isSome = true))) ∧
    (i.w.op = 0x12#8 → i.acted = false → (∀ e ∈ (s.part p).ctxs, e.2.job ≠ job) → Completes (.jobKill k q) s (fun t =>
      s.Ended t k q.toNat (if (s.part p).endedJobs.contains job then 0 else 13) 0 ∧ t.parts = s.parts)) ∧
    (∀ e, i.w.op = 0x12#8 → i.acted = false → (s.part p).ctxs = [e] → e.2.job = job → e.2.st ≠ .retained → e.2.endAs = none →
      Completes (.jobKill k q) s (fun t => ∀ c, sfind (t.part p).ctxs e.1 = some c → c.endAs = some (11, 0) ∨ c.st = .retained)) ∧
    (i.acted = true → (i.w.op = 0x12#8 → exec (.jobKill k q) s = .next s) ∧ (i.w.op = 0x13#8 → exec (.checkpoint k q) s = .next s)) ∧
    (i.w.op = 0x13#8 → i.acted = false → s.scrubHits p i.w.addr.toNat i.w.length.toNat = true → 0 < i.w.length.toNat → Completes (.checkpoint k q) s
      (fun t => s.Ended t k q.toNat 6 0 ∧ t.parts = s.parts)) ∧
    (let kept : HeldRange := { job := job, key := k, base := i.w.addr.toNat, len := i.w.length.toNat, ckpt := i.w.ckpt.toNat, phase := s.phaseOf p job k }
     let r := (s.modPart p (fun x => { x with held := x.held ++ [kept] })).hbmRead p i.w.addr.toNat i.w.length.toNat
     i.w.op = 0x13#8 → i.acted = false → s.scrubHits p i.w.addr.toNat i.w.length.toNat = false → s.matched = true → s.twinRole = 1 → p = s.part0 →
      s.twinUp = true → r.2.1 = 0 → Completes (.checkpoint k q) s (fun t => t.out = .mirror i.w.ckpt.toNat i.w.addr.toNat r.2.2 :: s.out ∧
        t.item k q.toNat = some { i with acted := true } ∧ (t.part p).held = (s.part p).held ++ [kept])) ∧
    (i.w.op = 0x13#8 → i.acted = false → (s.matched = false ∨ s.twinRole ≠ 1 ∨ p ≠ s.part0 ∨ s.twinUp = false) →
      s.scrubHits p i.w.addr.toNat i.w.length.toNat = false → Completes (.checkpoint k q) s (fun t =>
      s.Ended t k q.toNat 0 0 ∧ (t.part p).held = (s.part p).held ++
        [{ job := job, key := k, base := i.w.addr.toNat, len := i.w.length.toNat, ckpt := i.w.ckpt.toNat, phase := s.phaseOf p job k }] ∧ t.mds = s.mds)) ∧
    (i.w.op = 0x14#8 → i.acted = false → (s.part p).ctxs = [] →
      ((∀ h ∈ (s.part p).held, h.job ≠ job) → Completes (.release k q) s (fun t => s.Ended t k q.toNat 13 0 ∧ t.parts = s.parts)) ∧
      ((∃ h ∈ (s.part p).held, h.job = job) → Completes (.release k q) s (fun t =>
        (t.part p).held = (s.part p).held.filter (fun h => decide (h.job ≠ job))))) ∧
    (i.w.op = 0x20#8 → Completes (.hint k q) s (fun t => s.Ended t k q.toNat 0 0 ∧
      (t.session k).hint = if i.w.nextEvent = 0#64 then none else some i.w.nextEvent.toNat)) ∧
    (i.w.op = 0x21#8 → Completes (.itemNop k q) s (fun t => s.Ended t k q.toNat 0 0 ∧ t.parts = s.parts ∧ t.mds = s.mds ∧ t.dies = s.dies)) ∧
    Completes (.hintExpire k) s (fun t => (t.session k).hint = none ∧ (t.session k).items = (s.session k).items ∧ t.dies = s.dies) ∧
    (∀ c x, c < 64 → sfind (s.part p).ctxs c = some x →
      (x.st = .retained → Completes (.retentionExpire p c) s (fun t => sfind (t.part p).ctxs c = none)) ∧
      (x.st ≠ .retained → exec (.retentionExpire p c) s = .next s))

-- Reset and bring-up (spec/15, spec/19) -----------------------------------------------------------------------------------------------

/-- A reset of 10 µs or more keeps the fuses, the NVM, the contents of HBM and the retained session table, with every session closed; every
compute die and every register but FD.MIRROR_SEQ is as after power-on, and bring-up is at its beginning. A pulse below 1 µs does nothing;
between the two the outcome is a free value. NVM_ISOLATE is such a reset that holds while low; when it goes high, the slots of images and
configurations hold what an external programmer wrote meanwhile. The management path resets with 0x5245 only. -/
def Obligations.ResetKeepsRetainedMemory : Prop :=
  ∀ (s : State) (ns : Nat),
    let kept := fun (t : State) => t.pcd.stageDone = 0 ∧ t.dies = [] ∧ t.fuses = s.fuses ∧ (∀ m, (t.md m).mem = (s.md m).mem) ∧
      (∀ k, (t.session k).isOpen = false ∧ (t.session k).items = [] ∧ (t.session k).nextSseq = (s.session k).nextSseq ∧
        (t.session k).gen = (s.session k).gen ∧ (t.session k).recs = (s.session k).recs) ∧
      (∀ n o, rkey n o ≠ rkey (nodeFd 0) FD_MIRROR_SEQ → t.rg n o = rawReset n o) ∧ t.rg (nodeFd 0) FD_MIRROR_SEQ = s.rg (nodeFd 0) FD_MIRROR_SEQ
    let fresh := fun (t : State) => kept t ∧ t.nvm = s.nvm
    (10000 ≤ ns → s.pcd.standby = true → Completes (.resetAssert ns) s fresh) ∧
    (10000 ≤ ns → s.pcd.standby = false → exec (.resetAssert ns) s = .next s) ∧
    (ns < 1000 → exec (.resetAssert ns) s = .next s) ∧
    (1000 ≤ ns → ns < 10000 → Completes (.resetAssert ns) s (fun t => t = s.takeFree ∨ t = s.takeFree.resetPanel)) ∧
    (s.pcd.standby = true → ∀ i : IsoIn, (i.low = true ∨ s.pcd.nvmIso = false) → Completes (.nvmIsolate i) s (fun t => fresh t ∧ t.pcd.nvmIso = i.low)) ∧
    (s.pcd.standby = true → s.pcd.nvmIso = true → ∀ i : IsoIn, i.low = false → Completes (.nvmIsolate i) s (fun t => kept t ∧ t.pcd.nvmIso = false ∧
      t.nvm.knots = s.nvm.knots ∧ t.nvm.events = s.nvm.events ∧ t.nvm.reports = s.nvm.reports ∧
      t.nvm.owner = (if i.ownerLost then none else s.nvm.owner) ∧ (i.images = [] → t.nvm.images = s.nvm.images) ∧ (i.confs = [] → t.nvm.confs = s.nvm.confs) ∧
      ∀ d x, i.images = [(d, x)] → d < 2 → s.nvm.images.length = 2 → (if d = 0 then s.nvm.ok0 else s.nvm.ok1) = true → t.nvm.images[d]? = some x)) ∧
    (s.mgmtUp = true → Completes (.resetEffecter 0x5245#32) s fresh) ∧
    (∀ v : W32, (s.mgmtUp = false ∨ v ≠ 0x5245#32) → exec (.resetEffecter v) s = .next s)

/-- Bring-up runs its stages in order, each from the one before it and on a panel that is not held, and each ends with its stage report.
MOUNT of a valid configuration and image in slots A, those of slots B being invalid, takes them and advances the bring-up number; with both
self-tests failed, or without a valid configuration, it holds the panel. A region without a region services die puts its partition off at
ROUGH_OUT. FINISHING makes the panel Ready, with panel time from PTP or 10 s beyond the largest in the NVM. -/
def Obligations.BringUpStagesInOrder : Prop :=
  ∀ (s : State) (m : MountIn) (r : RoughIn) (ti : TestIn) (sh : ShapeIn) (fi : FinIn),
    (Instr.roughOut r).wf = true → (Instr.truing ti).wf = true → (Instr.shaping sh).wf = true → (Instr.finishing fi).wf = true →
    let done := fun (n : Nat) (t : State) => t.pcd.stageDone = n ∧ (t.nvm.reports.getLast?).map (fun q => (q.stage, q.region, q.bseq)) = some (n, 255, t.nvm.bseq)
    ((s.pcd.heldOff = true ∨ s.pcd.stageDone ≠ 0) → exec (.mount m) s = .next s) ∧
    ((s.pcd.heldOff = true ∨ s.pcd.stageDone ≠ 1) → exec (.roughOut r) s = .next s) ∧
    ((s.pcd.heldOff = true ∨ s.pcd.stageDone ≠ 2) → exec (.truing ti) s = .next s) ∧
    ((s.pcd.heldOff = true ∨ s.pcd.stageDone ≠ 3) → exec (.shaping sh) s = .next s) ∧
    ((s.pcd.heldOff = true ∨ s.pcd.stageDone ≠ 4) → exec (.finishing fi) s = .next s) ∧
    (s.pcd.heldOff = false →
      (s.pcd.standby = true → s.pcd.nvmIso = false → s.pcd.stageDone = 0 →
        (m.selfA = false → m.selfB = false → Completes (.mount m) s (fun t => t.pcd.heldOff = true ∧ t.pcd.stageDone = 0 ∧
          t.nvm.bseq = (s.nvm.bseq + 1) % 2 ^ 32)) ∧
        (∀ c f, (m.selfA = true ∨ m.selfB = true) → m.flowOk = true → m.bodyStepOk = true → s.slotConf false = some c → s.slotConf true = none → s.confCheck c = true →
          s.slotImage false = some f → s.slotImage true = none → c.minSvn ≤ f.svn → Completes (.mount m) s (fun t =>
            done 1 t ∧ t.pcd.conf = some c ∧ t.pcd.confB = false ∧ t.pcd.imageB = false ∧ t.nvm.bseq = (s.nvm.bseq + 1) % 2 ^ 32 ∧ t.fuses = s.fuses)) ∧
        ((m.selfA = true ∨ m.selfB = true) → s.slotConf false = none → s.slotConf true = none → Completes (.mount m) s (fun t =>
          t.pcd.heldOff = true ∧ t.pcd.stat = 3 ∧ t.pcd.stageDone = 0 ∧ t.rgB nodePc PC_BRINGUP_STATUS 3 = true))) ∧
      (s.pcd.stageDone = 1 → r.noRsd = [] → Completes (.roughOut r) s (fun t => done 2 t ∧ t.pcd.nodesOut = sortUniq r.unlocked ∧ t.dies = s.dies)) ∧
      (∀ g p, s.pcd.stageDone = 1 → r.noRsd = [g] → s.partOfRegion g = some p → (s.part p).ctxs = [] → Completes (.roughOut r) s (fun t =>
        done 2 t ∧ t.pcd.rsdLost = insUniq g s.pcd.rsdLost ∧ (t.part p).off = true)) ∧
      (s.pcd.stageDone = 2 → Completes (.truing ti) s (done 3)) ∧
      (s.pcd.stageDone = 3 → Completes (.shaping sh) s (done 4)) ∧
      (s.pcd.stageDone = 4 → Completes (.finishing fi) s (fun t => done 5 t ∧ t.pcd.stat = 2 ∧ t.pcd.sealed = true ∧
        t.ptc16 = (match fi.ptp with | some p => p | none => 16 * (s.nvm.maxPtc + 10000000000)) ∧
        ∀ p ∈ s.partsOn, p < 16 → t.rgB nodePc PC_BRINGUP_STATUS (48 + p) = true)))

/-- A region's re-true that is not owed does nothing; one that fails, or leaves the partition without a dynamic-layer order or without a die, puts
the partition off; one that passes ends what was owed; all
report stage 6. A request is answered in RETRUE_CTRL: accepted, and owed, only on a Ready panel for a powered region of a partition that
is on and has no job loaded. -/
def Obligations.RetruesAreOwedAndEnd : Prop :=
  ∀ (s : State) (r : Nat) (i : TestIn), r < 16 → (Instr.reTrue r i).wf = true →
    (s.partOfRegion r = none → exec (.reTrue r i) s = .next s) ∧
    (∀ p, s.partOfRegion r = some p →
      ((s.pcd.stageDone < 4 ∨ (s.part p).retrue.testBit r = false ∨ (s.part p).off = true ∨ s.regionOn r = false) → exec (.reTrue r i) s = .next s) ∧
      (4 ≤ s.pcd.stageDone → (s.part p).retrue.testBit r = true → (s.part p).off = false → s.regionOn r = true →
        (i.ok = true → (s.retrueMapped p r i).orderless p = none → (s.retrueMapped p r i).diesOf p ≠ [] → Completes (.reTrue r i) s (fun t =>
          (t.part p).retrue.testBit r = false ∧ (t.nvm.reports.getLast?).map (fun q => (q.stage, q.region)) = some (6, r))) ∧
        ((i.ok = false ∨ (s.retrueMapped p r i).orderless p ≠ none ∨ (s.retrueMapped p r i).diesOf p = []) → Completes (.reTrue r i) s (fun t => (t.part p).off = true ∧ (t.part p).retrue = 0 ∧
          (t.nvm.reports.getLast?).map (fun q => (q.stage, q.region, q.status, q.event)) = some (6, r, 2, 0x31B2))))) ∧
    (s.pcd.standby = true →
      let answered := fun (k : Nat) (t : State) => t.rgF nodePc PC_RETRUE_CTRL 3 0 = r ∧ t.rgF nodePc PC_RETRUE_CTRL 30 28 = k ∧ t.dies = s.dies ∧ t.mds = s.mds
      (∀ p, s.partOfRegion r = some p →
        ((s.regionOn r = false ∨ (s.part p).off = true ∨ s.pcd.stageDone < 5) → Completes (.retrueRequest r) s (fun t => answered 3 t ∧ t.parts = s.parts)) ∧
        (s.regionOn r = true → (s.part p).off = false → 5 ≤ s.pcd.stageDone →
          (s.loaded p = true → Completes (.retrueRequest r) s (fun t => answered 2 t ∧ t.parts = s.parts)) ∧
          (s.loaded p = false → Completes (.retrueRequest r) s (fun t => answered 1 t ∧ (t.part p).retrue = (s.part p).retrue ||| 2 ^ r)))) ∧
      (s.partOfRegion r = none → Completes (.retrueRequest r) s (fun t => answered 3 t ∧ t.parts = s.parts)))

/-- A write of PC.RETRUE_CTRL or PC.EVT_ACK is accepted from effecters 1 and 2 alone: from a host, an S-core or Uttos it is discarded, from its
effecter, once the management endpoint answers, the register takes it. -/
def Obligations.EffectersAloneWriteTheirRegisters : Prop :=
  ∀ (s : State),
    (∀ (src : Source) (addr : W64) (width coin : Nat) (val : W64) (off : Nat) (r : RegRow), src.ok = true → src ≠ .mgmt →
      (off = PC_RETRUE_CTRL ∨ off = PC_EVT_ACK) → s.toRegister src addr.toNat width nodePc off r →
      exec (.registerWrite src addr width ⟨val, coin⟩) s = .next s) ∧
    (∀ v : W32, s.mgmtUp = true → Completes (.evtAckWrite v) s (fun t => t.rg nodePc PC_EVT_ACK = v.toNat)) ∧
    (∀ r, r < 16 → s.pcd.standby = true → Completes (.retrueRequest r) s (fun t => t.rgF nodePc PC_RETRUE_CTRL 3 0 = r))

/-- A host port of a PCD that works comes up with its reports sent, and goes down alone. The loss of a fabric die ends all it holds; the
loss of a region's RSD puts its partition off, and the die answers no more; an overcurrent opens the region's input switch and records the trip; the loss of the standby rail leaves NVM and fuses only. -/
def Obligations.PortsAndUnitsAreLost : Prop :=
  ∀ s : State,
    (∀ b : Bool, (s.pcdWorks b = false → exec (.hostPortUp b) s = .next s) ∧
      (s.pcdWorks b = true → Completes (.hostPortUp b) s (fun t => t.hostPort b = true ∧ t.hostPort (!b) = s.hostPort (!b) ∧
        (if b then t.pcd.repQB else t.pcd.repQA) = [] ∧ t.sess = s.sess ∧ t.dies = s.dies)) ∧
      Completes (.hostPortDown b) s (fun t => t.hostPort b = false ∧ t.hostPort (!b) = s.hostPort (!b) ∧ t.sess = s.sess ∧ t.dies = s.dies)) ∧
    (∀ f, f < 16 → (s.fdOn f = false → exec (.fabricDieLoss f) s = .next s) ∧
      (s.fdOn f = true → Completes (.fabricDieLoss f) s (fun t => t.fdOn f = false ∧ (t.fd f).xfers = []))) ∧
    (∀ r, r < 16 → s.partOfRegion r = none → exec (.rsdLoss r) s = .next (s.setPcd (fun x => { x with rsdLost := insUniq r x.rsdLost }))) ∧
    (∀ r, r < 16 → (s.cutRegions ≤ r ∨ s.pcd.standby = false ∨ s.pcd.stageDone = 0 ∨ s.rgB (nodeRs r) RS_FENCE 63 = true) →
      exec (.regionOvercurrent r) s = .next s) ∧
    (∀ r p, r < 16 → s.partOfRegion r = some p →
      ((s.part p).off = true → exec (.rsdLoss r) s = .next (s.setPcd (fun x => { x with rsdLost := insUniq r x.rsdLost }))) ∧
      ((s.part p).off = false → (s.part p).ctxs = [] → Completes (.rsdLoss r) s (fun t =>
        (t.part p).off = true ∧ t.regionOn r = false ∧ t.nodeOn (nodeRs r) = false ∧ t.pcd.rsdLost = insUniq r s.pcd.rsdLost)) ∧
      (r < s.cutRegions → s.pcd.standby = true → 1 ≤ s.pcd.stageDone → s.rgB (nodeRs r) RS_FENCE 63 = false → (s.part p).ctxs = [] →
        Completes (.regionOvercurrent r) s (fun t => t.rgB (nodeRs r) RS_FENCE 63 = true ∧ t.rgB (nodeRs r) RS_FENCE 62 = true ∧
          t.regionOn r = false ∧ ∀ d, regionOfNode d = some r → t.coreOn d = false))) ∧
    Completes .standbyRailLoss s (fun t => t.nvm = s.nvm ∧ t.fuses = s.fuses ∧ t.dies = [] ∧ t.mds = [] ∧ t.sess = [] ∧ t.pcd.standby = false)

-- Power, heat and coolant (spec/17) ------------------------------------------------------------------------------------------------------

/-- A supply pair outside 44 to 58 V but within 40 to 60 V sets VIN_WARN and is recorded; one pair lost while the other is good is recorded
once and restored in silence; below the range every region's input switch opens and the panel is held; above it the module goes dark with
0x4301 in its NVM. POWER_LOOP_UPDATE records the powers; then the rest ratio of every partition rises by 4, at most to 48, above its limit,
falls by 1 below 0.95 of it, and stands between. The guard forces a rest of at least 32 from its trip to the end of its hold, and the trip
is counted. The step ceiling rises by 1 where its partition rests, falls by 1 where nothing rests and the power is below 0.85 of the limit. -/
def Obligations.SupplyAndPowerLoop : Prop :=
  (∀ s : State,
    (s.pcd.standby = false → (∀ va vb, exec (.inputVoltageWarn va vb) s = .next s) ∧ exec .inputUndervoltage s = .next s ∧
      exec .inputOvervoltage s = .next s ∧ exec .powerGuardTrip s = .next s ∧ ∀ b, exec (.busPairLost b) s = .next s) ∧
    (∀ va vb, s.pcd.standby = true →
      let bad := fun (v : Nat) => decide (4000 ≤ v) && decide (v ≤ 6000) && (decide (v < 4400) || decide (5800 < v))
      Completes (.inputVoltageWarn va vb) s (fun t => t.rgF nodePc PC_PWR_STATUS 63 48 = va % 65536 ∧ t.rgF nodePc PC_PWR_STATUS 47 32 = vb % 65536 ∧
        t.rgB nodePc PC_PWR_STATUS 0 = (bad va || bad vb) ∧ (bad va = true ∨ bad vb = true → s.canRecord 0x5305 → s.Recorded t 0x5305) ∧
        (bad va = false → bad vb = false → t.pcd = s.pcd ∧ t.out = s.out) ∧ t.dies = s.dies)) ∧
    (∀ b, (s.pcd.pairA = true ∨ s.pcd.pairB = true) → exec (.busPairLost b) s = .next s) ∧
    (∀ b, s.pcd.standby = true → s.pcd.pairA = false → s.pcd.pairB = false → Completes (.busPairLost b) s (fun t =>
      t.pcd.pairB = b ∧ t.pcd.pairA = (!b) ∧ (s.canRecord 0x5304 → s.Recorded t 0x5304) ∧ t.dies = s.dies)) ∧
    (∀ b, exec (.busPairRestored b) s = .next (s.setPcd (fun p => if b then { p with pairB := false } else { p with pairA := false }))) ∧
    (s.pcd.standby = true → Completes .inputUndervoltage s (fun t => t.pcd.heldOff = true ∧ t.pcd.stat = 3 ∧
      ∀ r, r < s.cutRegions → t.rgB (nodeRs r) RS_FENCE 63 = true ∧ t.regionOn r = false)) ∧
    (s.pcd.standby = true → Completes .inputOvervoltage s (fun t => t.pcd.standby = false ∧ t.dies = [] ∧ t.fuses = s.fuses ∧
      (t.nvm.events.getLast?).map (·.code) = some 0x4301))) ∧
  (∀ (s : State) (total : Nat) (w : List (Nat × Nat × Nat)), s.pcd.standby = true → w.all (fun e => decide (e.1 < 16)) = true →
    (∀ p, p ∈ s.partsOn → s.partsOn.count p = 1 → Completes (.powerLoopUpdate total w) s (fun t =>
      t.rgF nodePc PC_PWR_STATUS 31 16 = total % 65536 ∧
      (t.part p).prest = (if t.limitW p < t.partWatts p then min 48 ((s.part p).prest + 4)
        else if 100 * t.partWatts p < 95 * t.limitW p then (s.part p).prest - 1 else (s.part p).prest) ∧
      (∀ r, r < 16 → (∀ e ∈ w, e.1 ≠ r) → t.rg (nodeRs r) RS_PWR = s.rg (nodeRs r) RS_PWR) ∧
      (∀ e ∈ w, (w.filter (fun x => decide (x.1 = e.1))).length = 1 → t.rg (nodeRs e.1) RS_PWR = e.2.1 % 65536 * 65536 + e.2.2 % 65536) ∧ t.dies = s.dies ∧ t.mds = s.mds ∧ t.sess = s.sess)) ∧
    (Completes .powerGuardTrip s (fun t => (s.rg nodePc PC_PWR_GUARD < 0xFFFFFFFE → t.rg nodePc PC_PWR_GUARD = s.rg nodePc PC_PWR_GUARD + 1) ∧
      (∀ d, 32 ≤ t.restOf d ∧ s.restOf d ≤ t.restOf d) ∧ t.dies = s.dies ∧ t.parts = s.parts)) ∧
    (Completes .guardHoldEnd s (fun t => t.pcd.guardOn = false ∧ t.dies = s.dies ∧ t.parts = s.parts ∧ t.regs = s.regs)) ∧
    (∀ p, p < 16 →
      (p ∉ s.partsOn → exec (.stepCeilingUpdate p) s = .next s) ∧
      (p ∈ s.partsOn → 0 < (s.part p).prest → Completes (.stepCeilingUpdate p) s (fun t =>
        (t.part p).ceil = min 15 ((s.part p).ceil + 1) ∧ (s.canRecord 0x5302 → s.Recorded t 0x5302) ∧ t.dies = s.dies)) ∧
      (p ∈ s.partsOn → (s.part p).prest = 0 →
        ((∀ d ∈ s.diesOf p, s.restOf d = 0) → 100 * s.partWatts p < 85 * s.limitW p → Completes (.stepCeilingUpdate p) s (fun t =>
          (t.part p).ceil = (s.part p).ceil - 1 ∧ t.dies = s.dies)) ∧
        ((∃ d ∈ s.diesOf p, s.restOf d ≠ 0) ∨ 85 * s.limitW p ≤ 100 * s.partWatts p → exec (.stepCeilingUpdate p) s = .next s))))

/-- Power states. A quiet partition in Hold without a hint enters Warm-hold; a deeper state begins to wake; the end of the entry to Doze
saves the context in force, opens the core switches of its regions, and its dies lose what they hold; the end of the wake leaves it in Run,
and in Hold where nothing waits and no hint stands, and from Doze closes the core switches again. In warm-hold the load of
every die goes by 1 W toward 47 °C. -/
def Obligations.PartitionsEnterAndWake : Prop :=
  ∀ (s : State) (p : Nat), p < 16 →
    let x := s.part p
    (x.pstate = 1 → x.waking = false → x.entering = false → s.hintOf p = none → s.partQuiet p = true →
      exec (.warmHoldEnter p) s = .next (s.setPart p { x with pstate := 2, entering := true })) ∧
    ((x.pstate ≠ 1 ∨ x.waking = true ∨ x.entering = true ∨ (s.hintOf p).isSome = true ∨ s.partQuiet p = false) → exec (.warmHoldEnter p) s = .next s) ∧
    (1 ≤ x.pstate → x.waking = false → Completes (.powerWake p) s (fun t => (t.part p).waking = true ∧ (t.part p).entering = false ∧
      (t.part p).pstate = x.pstate ∧ t.dies = s.dies ∧ t.regs = s.regs)) ∧
    ((x.pstate = 0 ∨ x.waking = true) → exec (.powerWake p) s = .next s) ∧
    (x.entering = false → exec (.powerEntryComplete p) s = .next s) ∧
    (x.entering = true → x.pstate ≠ 3 → exec (.powerEntryComplete p) s = .next (s.setPart p { x with entering := false })) ∧
    (x.entering = true → x.pstate = 3 → Completes (.powerEntryComplete p) s (fun t => (t.part p).dozed = true ∧ (t.part p).entering = false ∧
      (∀ r ∈ s.regionsOf p, t.rgF (nodeRs r) RS_FENCE 35 0 = 2 ^ 36 - 1) ∧ (∀ d, d < 576 → s.partOfNode d = some p → t.die d = Die.reset) ∧
      (∀ d, s.partOfNode d ≠ some p → t.die d = s.die d) ∧ (∀ cid c, s.ctxInForce p = some (cid, c) → (t.part p).dozeSaved = s.saveDies p c))) ∧
    (x.waking = false → exec (.powerWakeComplete p) s = .next s) ∧
    (x.waking = true → x.dozed = false → x.run = none → x.ctxs = [] → (∃ k ∈ sessionsOf p, (s.session k).items ≠ []) →
      Completes (.powerWakeComplete p) s (fun t => (t.part p).pstate = 0 ∧ (t.part p).waking = false ∧ (∀ d ∈ s.diesOf p, (t.die d).synth = 0) ∧
        t.mds = s.mds ∧ t.sess = s.sess)) ∧
    (x.waking = true → x.dozed = false → x.run = none → x.ctxs = [] → (∀ k ∈ sessionsOf p, (s.session k).items = []) → s.hintOf p = none →
      s.partQuiet p = true → x.off = false → Completes (.powerWakeComplete p) s (fun t => (t.part p).pstate = 1 ∧ (t.part p).waking = false ∧
        t.mds = s.mds ∧ t.sess = s.sess)) ∧
    (x.waking = true → x.dozed = true → x.dozeSaved = [] → x.run = none → x.ctxs = [] → (∃ k ∈ sessionsOf p, (s.session k).items ≠ []) →
      s.pcd.fencedSites = [] → Completes (.powerWakeComplete p) s (fun t => (t.part p).pstate = 0 ∧ (t.part p).waking = false ∧
        (t.part p).dozed = false ∧ ∀ r ∈ s.regionsOf p, t.rgF (nodeRs r) RS_FENCE 35 0 = 0)) ∧
    (Completes .warmHoldLoadAdjust s (fun t => ∀ d, d < 576 →
      (s.warmHeld d = false → t.die d = s.die d) ∧
      (s.warmHeld d = true → (t.die d).synth = (if s.dieTemp d < 376 then min 20 ((s.die d).synth + 1)
        else if 376 < s.dieTemp d then (s.die d).synth - 1 else (s.die d).synth) ∧ (t.die d).spad = (s.die d).spad)))

/-- A sensor sample of a compute die keeps the highest of the readings within -20 to 150 °C as its temperature, 95 °C where none is, and the
raw readings; ten samples of it in a row at 105 °C or more switch its region off, with the re-true owed. The throttle gives the hottest die of a partition from 95 °C on a rest of 4 more, at most 48, and takes 2 from every die that
is not named. A region switched off for heat is restored with its mark gone. COOLANT_EVAL keeps the flow, the temperatures and their state;
from the second row on the power limit is scaled by k. At the deadline of a stop every partition that is on enters Doze. A sudden loss opens
every region's input switch and holds the panel, whatever runs. A PCD too hot writes a last record and stops; where it was the active one a
standby that works takes over, and without one the panel is held. -/
def Obligations.HeatAndCoolant : Prop :=
  (∀ s : State,
    (∀ i : SensorIn, i.node < 576 → s.coreOn i.node = true → (s.die i.node).hotCnt < 9 → Completes (.sensorSample [i]) s (fun t =>
      let ok := ([i.t0, i.t1, i.t2].zipIdx.filter (fun e => !(exclNext e.1 ((s.rg i.node CD_THERM).testBit (28 + e.2))
        (sget 0 (s.die i.node).inRange e.2)).1)).map (·.1)
      t.dieTemp i.node = (if ok = [] then 760 else ok.foldl max (-160)) ∧ t.rgB i.node CD_THERM 27 = ok.isEmpty ∧
      t.rg i.node CD_THERM_RAW = toTwos 16 i.t2 * 2 ^ 32 + toTwos 16 i.t1 * 2 ^ 16 + toTwos 16 i.t0 ∧
      (∀ p, t.place i.node p = s.place i.node p) ∧ (∀ e, e ≠ i.node → t.die e = s.die e) ∧ SameOutside s t)) ∧
    (∀ i : SensorIn, 576 ≤ i.node → i.node < 704 → s.mdOn (i.node - 576) = true → (s.md (i.node - 576)).hotCnt < 99 → Completes (.sensorSample [i]) s (fun t =>
      let m := i.node - 576
      let ok := ([i.t0, i.t1].zipIdx.filter (fun e => !(exclNext e.1 ((s.md m).excl.testBit e.2) (sget 0 (s.md m).inRange e.2)).1)).map (·.1)
      t.mdTemp m = (if ok = [] then 688 else ok.foldl max (-160)) ∧ (t.md m).mem = (s.md m).mem ∧ t.dies = s.dies)) ∧
    (∀ (i : SensorIn) (p : Nat), i.node < 576 → s.coreOn i.node = true → 9 ≤ (s.die i.node).hotCnt → s.partOfNode i.node = some p → (s.part p).off = false →
      (s.part p).ctxs = [] → (∀ x ∈ [i.t0, i.t1, i.t2], 840 ≤ x ∧ x ≤ 1200) → (∀ k, k < 3 → (s.rg i.node CD_THERM).testBit (28 + k) = false) →
      Completes (.sensorSample [i]) s (fun t => ∀ r, regionOfNode i.node = some r → t.regionOn r = false ∧ (sfind t.pcd.heatOff r).isSome = true ∧
        (t.part p).retrue.testBit r = true)) ∧
    (Completes .thermalThrottleEval s (fun t =>
      (∀ p d, p ∈ s.partsOn → s.partsOn.count p = 1 → s.hottestDie p = some d → s.partOfNode d = some p → d < 576 →
        (t.die d).trest = min 48 ((s.die d).trest + 4) ∧ t.rgB d CD_THERM 26 = true) ∧
      (∀ d, d < 576 → (∀ p ∈ s.partsOn, s.hottestDie p ≠ some d) → (t.die d).trest = (s.die d).trest - 2 ∧ t.rgB d CD_THERM 26 = false))) ∧
    (∀ r, r < 16 → (sfind s.pcd.heatOff r = none → exec (.heatRegionRestore r) s = .next s) ∧
      ((sfind s.pcd.heatOff r).isSome = true → Completes (.heatRegionRestore r) s (fun t => t.rgB (nodeRs r) RS_FENCE 63 = false ∧
        sfind t.pcd.heatOff r = none ∧ t.dies = s.dies ∧ t.parts = s.parts)))) ∧
  (∀ (s : State) (flow tin tout : Int) (psw : Bool),
    let state := s.rgF nodePc PC_COOLANT 19 16
    ((s.pcd.standby = false ∨ state = 5) → exec (.coolantEval flow tin tout psw) s = .next s) ∧
    (s.pcd.standby = true → state ≠ 5 → Completes (.coolantEval flow tin tout psw) s (fun t =>
      t.rgF nodePc PC_COOLANT 63 48 = toTwos 16 flow ∧ t.rgF nodePc PC_COOLANT 47 36 = toTwos 12 tin ∧ t.rgF nodePc PC_COOLANT 35 24 = toTwos 12 tout ∧
      t.rgB nodePc PC_COOLANT 0 = psw ∧ ((sfind t.pcd.rowOff 2).isSome = true → t.rgF nodePc PC_COOLANT 15 8 = coolScale s.flowFactor flow tin) ∧
      ((sfind t.pcd.rowOff 2).isSome = false → t.rgF nodePc PC_COOLANT 15 8 = 128) ∧ t.dies = s.dies)) ∧
    (s.pcd.deadline = none → exec .coolantStopDeadline s = .next s) ∧
    (s.pcd.deadline.isSome = true → (∀ p, p < 16 → (s.part p).ctxs = []) → Completes .coolantStopDeadline s (fun t =>
      t.rgF nodePc PC_COOLANT 19 16 = 4 ∧ t.pcd.deadline = none ∧
      ∀ p ∈ s.partsOn, p < 16 → (s.part p).dozed = false → (t.part p).pstate = 3 ∧ (t.part p).entering = true)) ∧
    (s.pcd.standby = true → Completes (.coolantSuddenLoss psw) s (fun t => t.rgF nodePc PC_COOLANT 19 16 = 5 ∧ t.pcd.heldOff = true ∧ t.pcd.stat = 3 ∧
      ∀ r, r < s.cutRegions → t.regionOn r = false ∧ (t.fd r).lost = true)) ∧
    (∀ b, s.pcdWorks b = false → exec (.pcdOvertemp b) s = .next s) ∧
    (∀ b, s.pcdWorks b = true → s.pcd.activeB ≠ b → Completes (.pcdOvertemp b) s (fun t => t.pcd.standbyOk = false ∧ t.pcd.activeB = s.pcd.activeB ∧
      t.nvm.events.length = min 4096 (s.nvm.events.length + 1) ∧ t.dies = s.dies)) ∧
    (∀ b, s.pcdWorks b = true → s.pcd.activeB = b → s.pcd.standbyOk = false → Completes (.pcdOvertemp b) s (fun t => t.pcd.heldOff = true ∧
      t.nvm.events.length = min 4096 (s.nvm.events.length + 1) ∧ t.dies = s.dies)) ∧
    (∀ b, s.pcdWorks b = true → s.pcd.activeB = b → s.pcd.standbyOk = true → (∀ p, p < 16 → (s.part p).run = none) →
      Completes (.pcdOvertemp b) s (fun t => t.pcd.activeB = (!b) ∧ t.pcd.standbyOk = false ∧ t.dies = s.dies)))

-- Trust, management, the module (spec/18, spec/19) --------------------------------------------------------------------------------------

/-- Every request of the management path goes unanswered while the endpoint is down. Up, one firmware update session at a time opens and
ends; a component goes into the slot that is not in use, staged where it verifies, else rejected and counted. The SPDM requests answer as
the responder does, GET_MEASUREMENTS busy before sealing. UPDATE_COMPONENT and the loss of an NVM device: an image written into the slot not
in use is staged where it is valid, not below the minimum security version and of a higher sequence, else rejected and counted; a device
that fails serves no slot any more. TELEMETRY_SEND numbers its datagrams. -/
def Obligations.ManagementAndUpdates : Prop :=
  (∀ (s : State) (slot index : Nat) (e : BitVec 8) (v : W32),
    (s.mgmtUp = false → ∀ i ∈ [Instr.requestUpdate, .activateFirmware, .getVersion, .getCapabilities, .negotiateAlgorithms, .getDigests, .getCertificate slot,
        .challenge slot, .getMeasurements index, .setEndpointId e, .evtAckWrite v], exec i s = .next s) ∧
    (s.mgmtUp = true →
      (s.pcd.updating = true → exec .requestUpdate s = .next (s.emit (.mgmt .alreadyInUpdateMode))) ∧
      (s.pcd.updating = false → Completes .requestUpdate s (fun t => t.pcd.updating = true ∧ t.out = .mgmt .updateOpen :: s.out ∧ t.regs = s.regs)) ∧
      Completes .activateFirmware s (fun t => t.pcd.updating = false ∧ t.out = .mgmt .activated :: s.out ∧ t.nvm = s.nvm) ∧
      (∀ x ∈ ([(Instr.getVersion, MgmtOut.version), (.getCapabilities, .capabilities), (.negotiateAlgorithms, .algorithms), (.getDigests, .digests),
          (.getCertificate slot, if slot = 0 then .certificate else .unsupported), (.challenge slot, if slot = 0 then .challengeAuth else .unsupported),
          (.getMeasurements index, if s.pcd.sealed = false ∨ ((index = 5 ∨ index = 6 ∨ index = 255) ∧ s.retrueBusy = true) then .busy
            else if index ≤ 7 ∨ index = 255 then .measurements index
              (if index = 255 then (List.range' 1 7).flatMap s.measBlock else s.measBlock index) else .unsupported)] : List (Instr × MgmtOut)),
        exec x.1 s = .next (s.emit (.mgmt x.2))) ∧
      exec (.setEndpointId e) s = .next (s.setPcd (fun p => { p with eid := e.toNat })) ∧
      (let left := (s.rg nodePc PC_EVT_NEXT + 2 ^ 33 - 1 - v.toNat) % 2 ^ 32
       Completes (.evtAckWrite v) s (fun t => t.rg nodePc PC_EVT_ACK = v.toNat ∧ t.evtPending = (if left < 2 ^ 31 then min s.evtPending left else s.evtPending) ∧
        t.dies = s.dies ∧ t.pcd = s.pcd)))) ∧
  (∀ s : State, s.mgmtUp = true →
    (∀ c : Component, s.pcd.updating = false → exec (.updateComponent c) s = .next s) ∧
    (∀ (f : FwImage) (x : Conf), s.pcd.updating = true → s.pcd.conf = some x → (if s.pcd.imageB then s.nvm.ok0 else s.nvm.ok1) = true →
      s.nvm.images.length = 2 →
      let good := fwImageOk f && decide (x.minSvn ≤ f.svn) && seqHigher f.seq (s.seqInUse false)
      (good = true → Completes (.updateComponent (.image f)) s (fun t => t.pcd.stagedFw = true ∧ (s.canRecord 0x11C1 → s.Recorded t 0x11C1) ∧
        t.nvm.images[b2n !s.pcd.imageB]? = some (some f) ∧ t.nvm.images[b2n s.pcd.imageB]? = s.nvm.images[b2n s.pcd.imageB]? ∧
        .mgmt (.staged false) ∈ t.out ∧ t.nvm.confs = s.nvm.confs)) ∧
      (good = false → Completes (.updateComponent (.image f)) s (fun t => t.pcd.stagedFw = false ∧ (s.canRecord 0x11C2 → s.Recorded t 0x11C2) ∧
        (s.rg nodePc PC_UPDATE_REJECT < 0xFFFFFFFE → t.rg nodePc PC_UPDATE_REJECT = s.rg nodePc PC_UPDATE_REJECT + 1) ∧
        .mgmt (.rejected false) ∈ t.out ∧ t.nvm.images[b2n s.pcd.imageB]? = s.nvm.images[b2n s.pcd.imageB]?))) ∧
    (∀ (f : FwImage), s.pcd.updating = true → (if s.pcd.imageB then s.nvm.ok0 else s.nvm.ok1) = false →
      Completes (.updateComponent (.image f)) s (fun t => t.pcd.stagedFw = false ∧ .mgmt (.rejected false) ∈ t.out ∧ t.nvm.images = s.nvm.images)) ∧
    (∀ (y : Conf), s.pcd.updating = true → s.nvm.confs.length = 2 →
      let on := if s.pcd.confB then s.nvm.ok0 else s.nvm.ok1
      let good := on && confValid s.nvm.owner y && [false, true].any (fun b => match s.slotImage b with | some f => decide (y.minSvn ≤ f.svn) | none => false) &&
        seqHigher y.seq (s.seqInUse true)
      Completes (.updateComponent (.config y)) s (fun t => t.pcd.stagedCfg = good ∧ t.nvm.images = s.nvm.images ∧
        (on = true → t.nvm.confs[b2n !s.pcd.confB]? = some (some y)) ∧ t.nvm.confs[b2n s.pcd.confB]? = s.nvm.confs[b2n s.pcd.confB]? ∧
        .mgmt (if good then .staged true else .rejected true) ∈ t.out)) ∧
    (∀ dev, dev < 2 → (if dev = 0 then s.nvm.ok0 else s.nvm.ok1) = true → Completes (.nvmDeviceFail dev) s (fun t =>
      (if dev = 0 then t.nvm.ok0 else t.nvm.ok1) = false ∧ (if dev = 0 then t.nvm.ok1 = s.nvm.ok1 else t.nvm.ok0 = s.nvm.ok0) ∧ (s.canRecord 0x11C3 → s.Recorded t 0x11C3) ∧
      t.slotImage (decide (dev = 1)) = none ∧ t.nvm.knots = s.nvm.knots)) ∧
    (∀ (dev : Nat), dev < 2 → (if dev = 0 then s.nvm.ok0 else s.nvm.ok1) = false → exec (.nvmDeviceFail dev) s = .next s) ∧
    (∀ (l : List TelemIn), (s.pcd.conf = none ∨ ∃ c, s.pcd.conf = some c ∧ c.telemetry = none) → exec (.telemetrySend l) s = .next s) ∧
    (∀ (l : List TelemIn) (c : Conf), s.pcd.conf = some c → c.telemetry.isSome = true → Completes (.telemetrySend l) s (fun t =>
      let seq := (s.rg nodePc PC_TELEM_SEQ + 1) % 2 ^ 32
      t.rg nodePc PC_TELEM_SEQ = seq ∧ t.dies = s.dies ∧
        ∃ bs, .telemetry seq bs ∈ t.out ∧ bs.length = 32 + 32 * s.cutRegions ∧ (l = [] → t.out = .telemetry seq bs :: s.out))))

/-- The module in its slot: inserted with both pairs at 40 V or more and J1 mated it precharges, and the input switch then closes on standby
supply and the beginning of bring-up; without the precharge nothing closes. Withdrawn it is dark, and only fuses and NVM stay. No self-test
passed in time shows as FAILED. -/
def Obligations.ModuleInItsSlot : Prop :=
  ∀ s : State,
    (∀ va vb j1, s.pcd.inputClosed = true → exec (.moduleInsert va vb j1) s = .next s) ∧
    (∀ va vb j1, s.pcd.inputClosed = false → exec (.moduleInsert va vb j1) s =
      .next (s.setPcd (fun p => { p with seated := true, precharge := decide (4000 ≤ va) && decide (4000 ≤ vb) && j1 }))) ∧
    (s.pcd.precharge = false → exec .inputSwitchClose s = .next s) ∧
    (s.pcd.precharge = true → Completes .inputSwitchClose s (fun t => t.pcd.inputClosed = true ∧ t.pcd.standby = true ∧ t.pcd.stat = 1 ∧
      t.pcd.stageDone = 0 ∧ t.pcd.heldOff = false ∧ t.nvm = s.nvm ∧ t.fuses = s.fuses ∧ t.dies = s.dies)) ∧
    (s.pcd.inputClosed = true → Completes .moduleWithdraw s (fun t => t.pcd.seated = false ∧ t.pcd.inputClosed = false ∧ t.pcd.standby = false ∧
      t.dies = [] ∧ t.mds = [] ∧ t.fuses = s.fuses ∧ t.nvm.knots = s.nvm.knots)) ∧
    (s.pcd.inputClosed = false → exec .moduleWithdraw s = .next (s.setPcd (fun p => { p with seated := false, precharge := false }))) ∧
    (exec .statusLatchTimeout s = .next (if s.pcd.standby = true ∧ s.pcd.stageDone = 0 ∧ s.pcd.stat = 1 then s.setPcd (fun p => { p with stat := 3 }) else s))
end

