-- ==== Sys2Proof/Laws/State.lean ====
section
/-! SUPPORT. What each update of the state leaves: one lemma for each field, then reads after writes of sparse maps, units and registers. -/

namespace Sys2Proof.Machine

variable (s : State)

-- setDie
@[simp] theorem State.setDie_pending (d : Nat) (x : Die) : (s.setDie d x).pending = s.pending := rfl
@[simp] theorem State.setDie_free (d : Nat) (x : Die) : (s.setDie d x).free = s.free := rfl
@[simp] theorem State.setDie_ptc16 (d : Nat) (x : Die) : (s.setDie d x).ptc16 = s.ptc16 := rfl
@[simp] theorem State.setDie_rdata (d : Nat) (x : Die) : (s.setDie d x).rdata = s.rdata := rfl
@[simp] theorem State.setDie_fuses (d : Nat) (x : Die) : (s.setDie d x).fuses = s.fuses := rfl
@[simp] theorem State.setDie_nvm (d : Nat) (x : Die) : (s.setDie d x).nvm = s.nvm := rfl
@[simp] theorem State.setDie_regs (d : Nat) (x : Die) : (s.setDie d x).regs = s.regs := rfl
@[simp] theorem State.setDie_mds (d : Nat) (x : Die) : (s.setDie d x).mds = s.mds := rfl
@[simp] theorem State.setDie_fds (d : Nat) (x : Die) : (s.setDie d x).fds = s.fds := rfl
@[simp] theorem State.setDie_parts (d : Nat) (x : Die) : (s.setDie d x).parts = s.parts := rfl
@[simp] theorem State.setDie_sess (d : Nat) (x : Die) : (s.setDie d x).sess = s.sess := rfl
@[simp] theorem State.setDie_pcd (d : Nat) (x : Die) : (s.setDie d x).pcd = s.pcd := rfl
@[simp] theorem State.setDie_out (d : Nat) (x : Die) : (s.setDie d x).out = s.out := rfl

-- modDie
@[simp] theorem State.modDie_pending (d : Nat) (f : Die → Die) : (s.modDie d f).pending = s.pending := rfl
@[simp] theorem State.modDie_free (d : Nat) (f : Die → Die) : (s.modDie d f).free = s.free := rfl
@[simp] theorem State.modDie_ptc16 (d : Nat) (f : Die → Die) : (s.modDie d f).ptc16 = s.ptc16 := rfl
@[simp] theorem State.modDie_rdata (d : Nat) (f : Die → Die) : (s.modDie d f).rdata = s.rdata := rfl
@[simp] theorem State.modDie_fuses (d : Nat) (f : Die → Die) : (s.modDie d f).fuses = s.fuses := rfl
@[simp] theorem State.modDie_nvm (d : Nat) (f : Die → Die) : (s.modDie d f).nvm = s.nvm := rfl
@[simp] theorem State.modDie_regs (d : Nat) (f : Die → Die) : (s.modDie d f).regs = s.regs := rfl
@[simp] theorem State.modDie_mds (d : Nat) (f : Die → Die) : (s.modDie d f).mds = s.mds := rfl
@[simp] theorem State.modDie_fds (d : Nat) (f : Die → Die) : (s.modDie d f).fds = s.fds := rfl
@[simp] theorem State.modDie_parts (d : Nat) (f : Die → Die) : (s.modDie d f).parts = s.parts := rfl
@[simp] theorem State.modDie_sess (d : Nat) (f : Die → Die) : (s.modDie d f).sess = s.sess := rfl
@[simp] theorem State.modDie_pcd (d : Nat) (f : Die → Die) : (s.modDie d f).pcd = s.pcd := rfl
@[simp] theorem State.modDie_out (d : Nat) (f : Die → Die) : (s.modDie d f).out = s.out := rfl

-- setPlace
@[simp] theorem State.setPlace_pending (d p : Nat) (v : Place) : (s.setPlace d p v).pending = s.pending := rfl
@[simp] theorem State.setPlace_free (d p : Nat) (v : Place) : (s.setPlace d p v).free = s.free := rfl
@[simp] theorem State.setPlace_ptc16 (d p : Nat) (v : Place) : (s.setPlace d p v).ptc16 = s.ptc16 := rfl
@[simp] theorem State.setPlace_rdata (d p : Nat) (v : Place) : (s.setPlace d p v).rdata = s.rdata := rfl
@[simp] theorem State.setPlace_fuses (d p : Nat) (v : Place) : (s.setPlace d p v).fuses = s.fuses := rfl
@[simp] theorem State.setPlace_nvm (d p : Nat) (v : Place) : (s.setPlace d p v).nvm = s.nvm := rfl
@[simp] theorem State.setPlace_regs (d p : Nat) (v : Place) : (s.setPlace d p v).regs = s.regs := rfl
@[simp] theorem State.setPlace_mds (d p : Nat) (v : Place) : (s.setPlace d p v).mds = s.mds := rfl
@[simp] theorem State.setPlace_fds (d p : Nat) (v : Place) : (s.setPlace d p v).fds = s.fds := rfl
@[simp] theorem State.setPlace_parts (d p : Nat) (v : Place) : (s.setPlace d p v).parts = s.parts := rfl
@[simp] theorem State.setPlace_sess (d p : Nat) (v : Place) : (s.setPlace d p v).sess = s.sess := rfl
@[simp] theorem State.setPlace_pcd (d p : Nat) (v : Place) : (s.setPlace d p v).pcd = s.pcd := rfl
@[simp] theorem State.setPlace_out (d p : Nat) (v : Place) : (s.setPlace d p v).out = s.out := rfl

-- modPlace
@[simp] theorem State.modPlace_pending (d p : Nat) (f : Place → Place) : (s.modPlace d p f).pending = s.pending := rfl
@[simp] theorem State.modPlace_free (d p : Nat) (f : Place → Place) : (s.modPlace d p f).free = s.free := rfl
@[simp] theorem State.modPlace_ptc16 (d p : Nat) (f : Place → Place) : (s.modPlace d p f).ptc16 = s.ptc16 := rfl
@[simp] theorem State.modPlace_rdata (d p : Nat) (f : Place → Place) : (s.modPlace d p f).rdata = s.rdata := rfl
@[simp] theorem State.modPlace_fuses (d p : Nat) (f : Place → Place) : (s.modPlace d p f).fuses = s.fuses := rfl
@[simp] theorem State.modPlace_nvm (d p : Nat) (f : Place → Place) : (s.modPlace d p f).nvm = s.nvm := rfl
@[simp] theorem State.modPlace_regs (d p : Nat) (f : Place → Place) : (s.modPlace d p f).regs = s.regs := rfl
@[simp] theorem State.modPlace_mds (d p : Nat) (f : Place → Place) : (s.modPlace d p f).mds = s.mds := rfl
@[simp] theorem State.modPlace_fds (d p : Nat) (f : Place → Place) : (s.modPlace d p f).fds = s.fds := rfl
@[simp] theorem State.modPlace_parts (d p : Nat) (f : Place → Place) : (s.modPlace d p f).parts = s.parts := rfl
@[simp] theorem State.modPlace_sess (d p : Nat) (f : Place → Place) : (s.modPlace d p f).sess = s.sess := rfl
@[simp] theorem State.modPlace_pcd (d p : Nat) (f : Place → Place) : (s.modPlace d p f).pcd = s.pcd := rfl
@[simp] theorem State.modPlace_out (d p : Nat) (f : Place → Place) : (s.modPlace d p f).out = s.out := rfl

-- setMc
@[simp] theorem State.setMc_pending (d c : Nat) (v : Mcore) : (s.setMc d c v).pending = s.pending := rfl
@[simp] theorem State.setMc_free (d c : Nat) (v : Mcore) : (s.setMc d c v).free = s.free := rfl
@[simp] theorem State.setMc_ptc16 (d c : Nat) (v : Mcore) : (s.setMc d c v).ptc16 = s.ptc16 := rfl
@[simp] theorem State.setMc_rdata (d c : Nat) (v : Mcore) : (s.setMc d c v).rdata = s.rdata := rfl
@[simp] theorem State.setMc_fuses (d c : Nat) (v : Mcore) : (s.setMc d c v).fuses = s.fuses := rfl
@[simp] theorem State.setMc_nvm (d c : Nat) (v : Mcore) : (s.setMc d c v).nvm = s.nvm := rfl
@[simp] theorem State.setMc_regs (d c : Nat) (v : Mcore) : (s.setMc d c v).regs = s.regs := rfl
@[simp] theorem State.setMc_mds (d c : Nat) (v : Mcore) : (s.setMc d c v).mds = s.mds := rfl
@[simp] theorem State.setMc_fds (d c : Nat) (v : Mcore) : (s.setMc d c v).fds = s.fds := rfl
@[simp] theorem State.setMc_parts (d c : Nat) (v : Mcore) : (s.setMc d c v).parts = s.parts := rfl
@[simp] theorem State.setMc_sess (d c : Nat) (v : Mcore) : (s.setMc d c v).sess = s.sess := rfl
@[simp] theorem State.setMc_pcd (d c : Nat) (v : Mcore) : (s.setMc d c v).pcd = s.pcd := rfl
@[simp] theorem State.setMc_out (d c : Nat) (v : Mcore) : (s.setMc d c v).out = s.out := rfl

-- setVc
@[simp] theorem State.setVc_pending (d v : Nat) (y : Vcore) : (s.setVc d v y).pending = s.pending := rfl
@[simp] theorem State.setVc_free (d v : Nat) (y : Vcore) : (s.setVc d v y).free = s.free := rfl
@[simp] theorem State.setVc_ptc16 (d v : Nat) (y : Vcore) : (s.setVc d v y).ptc16 = s.ptc16 := rfl
@[simp] theorem State.setVc_rdata (d v : Nat) (y : Vcore) : (s.setVc d v y).rdata = s.rdata := rfl
@[simp] theorem State.setVc_fuses (d v : Nat) (y : Vcore) : (s.setVc d v y).fuses = s.fuses := rfl
@[simp] theorem State.setVc_nvm (d v : Nat) (y : Vcore) : (s.setVc d v y).nvm = s.nvm := rfl
@[simp] theorem State.setVc_regs (d v : Nat) (y : Vcore) : (s.setVc d v y).regs = s.regs := rfl
@[simp] theorem State.setVc_mds (d v : Nat) (y : Vcore) : (s.setVc d v y).mds = s.mds := rfl
@[simp] theorem State.setVc_fds (d v : Nat) (y : Vcore) : (s.setVc d v y).fds = s.fds := rfl
@[simp] theorem State.setVc_parts (d v : Nat) (y : Vcore) : (s.setVc d v y).parts = s.parts := rfl
@[simp] theorem State.setVc_sess (d v : Nat) (y : Vcore) : (s.setVc d v y).sess = s.sess := rfl
@[simp] theorem State.setVc_pcd (d v : Nat) (y : Vcore) : (s.setVc d v y).pcd = s.pcd := rfl
@[simp] theorem State.setVc_out (d v : Nat) (y : Vcore) : (s.setVc d v y).out = s.out := rfl

-- setScr
@[simp] theorem State.setScr_pending (d : Nat) (y : Scraper) : (s.setScr d y).pending = s.pending := rfl
@[simp] theorem State.setScr_free (d : Nat) (y : Scraper) : (s.setScr d y).free = s.free := rfl
@[simp] theorem State.setScr_ptc16 (d : Nat) (y : Scraper) : (s.setScr d y).ptc16 = s.ptc16 := rfl
@[simp] theorem State.setScr_rdata (d : Nat) (y : Scraper) : (s.setScr d y).rdata = s.rdata := rfl
@[simp] theorem State.setScr_fuses (d : Nat) (y : Scraper) : (s.setScr d y).fuses = s.fuses := rfl
@[simp] theorem State.setScr_nvm (d : Nat) (y : Scraper) : (s.setScr d y).nvm = s.nvm := rfl
@[simp] theorem State.setScr_regs (d : Nat) (y : Scraper) : (s.setScr d y).regs = s.regs := rfl
@[simp] theorem State.setScr_mds (d : Nat) (y : Scraper) : (s.setScr d y).mds = s.mds := rfl
@[simp] theorem State.setScr_fds (d : Nat) (y : Scraper) : (s.setScr d y).fds = s.fds := rfl
@[simp] theorem State.setScr_parts (d : Nat) (y : Scraper) : (s.setScr d y).parts = s.parts := rfl
@[simp] theorem State.setScr_sess (d : Nat) (y : Scraper) : (s.setScr d y).sess = s.sess := rfl
@[simp] theorem State.setScr_pcd (d : Nat) (y : Scraper) : (s.setScr d y).pcd = s.pcd := rfl
@[simp] theorem State.setScr_out (d : Nat) (y : Scraper) : (s.setScr d y).out = s.out := rfl

-- setSpad
@[simp] theorem State.setSpad_pending (d : Nat) (y : Spad) : (s.setSpad d y).pending = s.pending := rfl
@[simp] theorem State.setSpad_free (d : Nat) (y : Spad) : (s.setSpad d y).free = s.free := rfl
@[simp] theorem State.setSpad_ptc16 (d : Nat) (y : Spad) : (s.setSpad d y).ptc16 = s.ptc16 := rfl
@[simp] theorem State.setSpad_rdata (d : Nat) (y : Spad) : (s.setSpad d y).rdata = s.rdata := rfl
@[simp] theorem State.setSpad_fuses (d : Nat) (y : Spad) : (s.setSpad d y).fuses = s.fuses := rfl
@[simp] theorem State.setSpad_nvm (d : Nat) (y : Spad) : (s.setSpad d y).nvm = s.nvm := rfl
@[simp] theorem State.setSpad_regs (d : Nat) (y : Spad) : (s.setSpad d y).regs = s.regs := rfl
@[simp] theorem State.setSpad_mds (d : Nat) (y : Spad) : (s.setSpad d y).mds = s.mds := rfl
@[simp] theorem State.setSpad_fds (d : Nat) (y : Spad) : (s.setSpad d y).fds = s.fds := rfl
@[simp] theorem State.setSpad_parts (d : Nat) (y : Spad) : (s.setSpad d y).parts = s.parts := rfl
@[simp] theorem State.setSpad_sess (d : Nat) (y : Spad) : (s.setSpad d y).sess = s.sess := rfl
@[simp] theorem State.setSpad_pcd (d : Nat) (y : Spad) : (s.setSpad d y).pcd = s.pcd := rfl
@[simp] theorem State.setSpad_out (d : Nat) (y : Spad) : (s.setSpad d y).out = s.out := rfl

-- setSc
@[simp] theorem State.setSc_pending (d c : Nat) (y : SCore) : (s.setSc d c y).pending = s.pending := rfl
@[simp] theorem State.setSc_free (d c : Nat) (y : SCore) : (s.setSc d c y).free = s.free := rfl
@[simp] theorem State.setSc_ptc16 (d c : Nat) (y : SCore) : (s.setSc d c y).ptc16 = s.ptc16 := rfl
@[simp] theorem State.setSc_rdata (d c : Nat) (y : SCore) : (s.setSc d c y).rdata = s.rdata := rfl
@[simp] theorem State.setSc_fuses (d c : Nat) (y : SCore) : (s.setSc d c y).fuses = s.fuses := rfl
@[simp] theorem State.setSc_nvm (d c : Nat) (y : SCore) : (s.setSc d c y).nvm = s.nvm := rfl
@[simp] theorem State.setSc_regs (d c : Nat) (y : SCore) : (s.setSc d c y).regs = s.regs := rfl
@[simp] theorem State.setSc_mds (d c : Nat) (y : SCore) : (s.setSc d c y).mds = s.mds := rfl
@[simp] theorem State.setSc_fds (d c : Nat) (y : SCore) : (s.setSc d c y).fds = s.fds := rfl
@[simp] theorem State.setSc_parts (d c : Nat) (y : SCore) : (s.setSc d c y).parts = s.parts := rfl
@[simp] theorem State.setSc_sess (d c : Nat) (y : SCore) : (s.setSc d c y).sess = s.sess := rfl
@[simp] theorem State.setSc_pcd (d c : Nat) (y : SCore) : (s.setSc d c y).pcd = s.pcd := rfl
@[simp] theorem State.setSc_out (d c : Nat) (y : SCore) : (s.setSc d c y).out = s.out := rfl

-- setMd
@[simp] theorem State.setMd_pending (m : Nat) (v : Mdie) : (s.setMd m v).pending = s.pending := rfl
@[simp] theorem State.setMd_free (m : Nat) (v : Mdie) : (s.setMd m v).free = s.free := rfl
@[simp] theorem State.setMd_ptc16 (m : Nat) (v : Mdie) : (s.setMd m v).ptc16 = s.ptc16 := rfl
@[simp] theorem State.setMd_rdata (m : Nat) (v : Mdie) : (s.setMd m v).rdata = s.rdata := rfl
@[simp] theorem State.setMd_fuses (m : Nat) (v : Mdie) : (s.setMd m v).fuses = s.fuses := rfl
@[simp] theorem State.setMd_nvm (m : Nat) (v : Mdie) : (s.setMd m v).nvm = s.nvm := rfl
@[simp] theorem State.setMd_regs (m : Nat) (v : Mdie) : (s.setMd m v).regs = s.regs := rfl
@[simp] theorem State.setMd_dies (m : Nat) (v : Mdie) : (s.setMd m v).dies = s.dies := rfl
@[simp] theorem State.setMd_fds (m : Nat) (v : Mdie) : (s.setMd m v).fds = s.fds := rfl
@[simp] theorem State.setMd_parts (m : Nat) (v : Mdie) : (s.setMd m v).parts = s.parts := rfl
@[simp] theorem State.setMd_sess (m : Nat) (v : Mdie) : (s.setMd m v).sess = s.sess := rfl
@[simp] theorem State.setMd_pcd (m : Nat) (v : Mdie) : (s.setMd m v).pcd = s.pcd := rfl
@[simp] theorem State.setMd_out (m : Nat) (v : Mdie) : (s.setMd m v).out = s.out := rfl

-- setFd
@[simp] theorem State.setFd_pending (f : Nat) (v : Fdie) : (s.setFd f v).pending = s.pending := rfl
@[simp] theorem State.setFd_free (f : Nat) (v : Fdie) : (s.setFd f v).free = s.free := rfl
@[simp] theorem State.setFd_ptc16 (f : Nat) (v : Fdie) : (s.setFd f v).ptc16 = s.ptc16 := rfl
@[simp] theorem State.setFd_rdata (f : Nat) (v : Fdie) : (s.setFd f v).rdata = s.rdata := rfl
@[simp] theorem State.setFd_fuses (f : Nat) (v : Fdie) : (s.setFd f v).fuses = s.fuses := rfl
@[simp] theorem State.setFd_nvm (f : Nat) (v : Fdie) : (s.setFd f v).nvm = s.nvm := rfl
@[simp] theorem State.setFd_regs (f : Nat) (v : Fdie) : (s.setFd f v).regs = s.regs := rfl
@[simp] theorem State.setFd_dies (f : Nat) (v : Fdie) : (s.setFd f v).dies = s.dies := rfl
@[simp] theorem State.setFd_mds (f : Nat) (v : Fdie) : (s.setFd f v).mds = s.mds := rfl
@[simp] theorem State.setFd_parts (f : Nat) (v : Fdie) : (s.setFd f v).parts = s.parts := rfl
@[simp] theorem State.setFd_sess (f : Nat) (v : Fdie) : (s.setFd f v).sess = s.sess := rfl
@[simp] theorem State.setFd_pcd (f : Nat) (v : Fdie) : (s.setFd f v).pcd = s.pcd := rfl
@[simp] theorem State.setFd_out (f : Nat) (v : Fdie) : (s.setFd f v).out = s.out := rfl

-- setPart
@[simp] theorem State.setPart_pending (p : Nat) (v : Part) : (s.setPart p v).pending = s.pending := rfl
@[simp] theorem State.setPart_free (p : Nat) (v : Part) : (s.setPart p v).free = s.free := rfl
@[simp] theorem State.setPart_ptc16 (p : Nat) (v : Part) : (s.setPart p v).ptc16 = s.ptc16 := rfl
@[simp] theorem State.setPart_rdata (p : Nat) (v : Part) : (s.setPart p v).rdata = s.rdata := rfl
@[simp] theorem State.setPart_fuses (p : Nat) (v : Part) : (s.setPart p v).fuses = s.fuses := rfl
@[simp] theorem State.setPart_nvm (p : Nat) (v : Part) : (s.setPart p v).nvm = s.nvm := rfl
@[simp] theorem State.setPart_regs (p : Nat) (v : Part) : (s.setPart p v).regs = s.regs := rfl
@[simp] theorem State.setPart_dies (p : Nat) (v : Part) : (s.setPart p v).dies = s.dies := rfl
@[simp] theorem State.setPart_mds (p : Nat) (v : Part) : (s.setPart p v).mds = s.mds := rfl
@[simp] theorem State.setPart_fds (p : Nat) (v : Part) : (s.setPart p v).fds = s.fds := rfl
@[simp] theorem State.setPart_sess (p : Nat) (v : Part) : (s.setPart p v).sess = s.sess := rfl
@[simp] theorem State.setPart_pcd (p : Nat) (v : Part) : (s.setPart p v).pcd = s.pcd := rfl
@[simp] theorem State.setPart_out (p : Nat) (v : Part) : (s.setPart p v).out = s.out := rfl

-- modPart
@[simp] theorem State.modPart_pending (p : Nat) (f : Part → Part) : (s.modPart p f).pending = s.pending := rfl
@[simp] theorem State.modPart_free (p : Nat) (f : Part → Part) : (s.modPart p f).free = s.free := rfl
@[simp] theorem State.modPart_ptc16 (p : Nat) (f : Part → Part) : (s.modPart p f).ptc16 = s.ptc16 := rfl
@[simp] theorem State.modPart_rdata (p : Nat) (f : Part → Part) : (s.modPart p f).rdata = s.rdata := rfl
@[simp] theorem State.modPart_fuses (p : Nat) (f : Part → Part) : (s.modPart p f).fuses = s.fuses := rfl
@[simp] theorem State.modPart_nvm (p : Nat) (f : Part → Part) : (s.modPart p f).nvm = s.nvm := rfl
@[simp] theorem State.modPart_regs (p : Nat) (f : Part → Part) : (s.modPart p f).regs = s.regs := rfl
@[simp] theorem State.modPart_dies (p : Nat) (f : Part → Part) : (s.modPart p f).dies = s.dies := rfl
@[simp] theorem State.modPart_mds (p : Nat) (f : Part → Part) : (s.modPart p f).mds = s.mds := rfl
@[simp] theorem State.modPart_fds (p : Nat) (f : Part → Part) : (s.modPart p f).fds = s.fds := rfl
@[simp] theorem State.modPart_sess (p : Nat) (f : Part → Part) : (s.modPart p f).sess = s.sess := rfl
@[simp] theorem State.modPart_pcd (p : Nat) (f : Part → Part) : (s.modPart p f).pcd = s.pcd := rfl
@[simp] theorem State.modPart_out (p : Nat) (f : Part → Part) : (s.modPart p f).out = s.out := rfl

-- setSession
@[simp] theorem State.setSession_pending (k : Nat) (v : Session) : (s.setSession k v).pending = s.pending := rfl
@[simp] theorem State.setSession_free (k : Nat) (v : Session) : (s.setSession k v).free = s.free := rfl
@[simp] theorem State.setSession_ptc16 (k : Nat) (v : Session) : (s.setSession k v).ptc16 = s.ptc16 := rfl
@[simp] theorem State.setSession_rdata (k : Nat) (v : Session) : (s.setSession k v).rdata = s.rdata := rfl
@[simp] theorem State.setSession_fuses (k : Nat) (v : Session) : (s.setSession k v).fuses = s.fuses := rfl
@[simp] theorem State.setSession_nvm (k : Nat) (v : Session) : (s.setSession k v).nvm = s.nvm := rfl
@[simp] theorem State.setSession_regs (k : Nat) (v : Session) : (s.setSession k v).regs = s.regs := rfl
@[simp] theorem State.setSession_dies (k : Nat) (v : Session) : (s.setSession k v).dies = s.dies := rfl
@[simp] theorem State.setSession_mds (k : Nat) (v : Session) : (s.setSession k v).mds = s.mds := rfl
@[simp] theorem State.setSession_fds (k : Nat) (v : Session) : (s.setSession k v).fds = s.fds := rfl
@[simp] theorem State.setSession_parts (k : Nat) (v : Session) : (s.setSession k v).parts = s.parts := rfl
@[simp] theorem State.setSession_pcd (k : Nat) (v : Session) : (s.setSession k v).pcd = s.pcd := rfl
@[simp] theorem State.setSession_out (k : Nat) (v : Session) : (s.setSession k v).out = s.out := rfl

-- setPcd
@[simp] theorem State.setPcd_pending (f : Pcd → Pcd) : (s.setPcd f).pending = s.pending := rfl
@[simp] theorem State.setPcd_free (f : Pcd → Pcd) : (s.setPcd f).free = s.free := rfl
@[simp] theorem State.setPcd_ptc16 (f : Pcd → Pcd) : (s.setPcd f).ptc16 = s.ptc16 := rfl
@[simp] theorem State.setPcd_rdata (f : Pcd → Pcd) : (s.setPcd f).rdata = s.rdata := rfl
@[simp] theorem State.setPcd_fuses (f : Pcd → Pcd) : (s.setPcd f).fuses = s.fuses := rfl
@[simp] theorem State.setPcd_nvm (f : Pcd → Pcd) : (s.setPcd f).nvm = s.nvm := rfl
@[simp] theorem State.setPcd_regs (f : Pcd → Pcd) : (s.setPcd f).regs = s.regs := rfl
@[simp] theorem State.setPcd_dies (f : Pcd → Pcd) : (s.setPcd f).dies = s.dies := rfl
@[simp] theorem State.setPcd_mds (f : Pcd → Pcd) : (s.setPcd f).mds = s.mds := rfl
@[simp] theorem State.setPcd_fds (f : Pcd → Pcd) : (s.setPcd f).fds = s.fds := rfl
@[simp] theorem State.setPcd_parts (f : Pcd → Pcd) : (s.setPcd f).parts = s.parts := rfl
@[simp] theorem State.setPcd_sess (f : Pcd → Pcd) : (s.setPcd f).sess = s.sess := rfl
@[simp] theorem State.setPcd_out (f : Pcd → Pcd) : (s.setPcd f).out = s.out := rfl

-- emit
@[simp] theorem State.emit_pending (o : Out) : (s.emit o).pending = s.pending := rfl
@[simp] theorem State.emit_free (o : Out) : (s.emit o).free = s.free := rfl
@[simp] theorem State.emit_ptc16 (o : Out) : (s.emit o).ptc16 = s.ptc16 := rfl
@[simp] theorem State.emit_rdata (o : Out) : (s.emit o).rdata = s.rdata := rfl
@[simp] theorem State.emit_fuses (o : Out) : (s.emit o).fuses = s.fuses := rfl
@[simp] theorem State.emit_nvm (o : Out) : (s.emit o).nvm = s.nvm := rfl
@[simp] theorem State.emit_regs (o : Out) : (s.emit o).regs = s.regs := rfl
@[simp] theorem State.emit_dies (o : Out) : (s.emit o).dies = s.dies := rfl
@[simp] theorem State.emit_mds (o : Out) : (s.emit o).mds = s.mds := rfl
@[simp] theorem State.emit_fds (o : Out) : (s.emit o).fds = s.fds := rfl
@[simp] theorem State.emit_parts (o : Out) : (s.emit o).parts = s.parts := rfl
@[simp] theorem State.emit_sess (o : Out) : (s.emit o).sess = s.sess := rfl
@[simp] theorem State.emit_pcd (o : Out) : (s.emit o).pcd = s.pcd := rfl

-- emitAll
@[simp] theorem State.emitAll_pending (os : List Out) : (s.emitAll os).pending = s.pending := rfl
@[simp] theorem State.emitAll_free (os : List Out) : (s.emitAll os).free = s.free := rfl
@[simp] theorem State.emitAll_ptc16 (os : List Out) : (s.emitAll os).ptc16 = s.ptc16 := rfl
@[simp] theorem State.emitAll_rdata (os : List Out) : (s.emitAll os).rdata = s.rdata := rfl
@[simp] theorem State.emitAll_fuses (os : List Out) : (s.emitAll os).fuses = s.fuses := rfl
@[simp] theorem State.emitAll_nvm (os : List Out) : (s.emitAll os).nvm = s.nvm := rfl
@[simp] theorem State.emitAll_regs (os : List Out) : (s.emitAll os).regs = s.regs := rfl
@[simp] theorem State.emitAll_dies (os : List Out) : (s.emitAll os).dies = s.dies := rfl
@[simp] theorem State.emitAll_mds (os : List Out) : (s.emitAll os).mds = s.mds := rfl
@[simp] theorem State.emitAll_fds (os : List Out) : (s.emitAll os).fds = s.fds := rfl
@[simp] theorem State.emitAll_parts (os : List Out) : (s.emitAll os).parts = s.parts := rfl
@[simp] theorem State.emitAll_sess (os : List Out) : (s.emitAll os).sess = s.sess := rfl
@[simp] theorem State.emitAll_pcd (os : List Out) : (s.emitAll os).pcd = s.pcd := rfl

-- setRg
@[simp] theorem State.setRg_pending (n o v : Nat) : (s.setRg n o v).pending = s.pending := rfl
@[simp] theorem State.setRg_free (n o v : Nat) : (s.setRg n o v).free = s.free := rfl
@[simp] theorem State.setRg_ptc16 (n o v : Nat) : (s.setRg n o v).ptc16 = s.ptc16 := rfl
@[simp] theorem State.setRg_rdata (n o v : Nat) : (s.setRg n o v).rdata = s.rdata := rfl
@[simp] theorem State.setRg_fuses (n o v : Nat) : (s.setRg n o v).fuses = s.fuses := rfl
@[simp] theorem State.setRg_nvm (n o v : Nat) : (s.setRg n o v).nvm = s.nvm := rfl
@[simp] theorem State.setRg_dies (n o v : Nat) : (s.setRg n o v).dies = s.dies := rfl
@[simp] theorem State.setRg_mds (n o v : Nat) : (s.setRg n o v).mds = s.mds := rfl
@[simp] theorem State.setRg_fds (n o v : Nat) : (s.setRg n o v).fds = s.fds := rfl
@[simp] theorem State.setRg_parts (n o v : Nat) : (s.setRg n o v).parts = s.parts := rfl
@[simp] theorem State.setRg_sess (n o v : Nat) : (s.setRg n o v).sess = s.sess := rfl
@[simp] theorem State.setRg_pcd (n o v : Nat) : (s.setRg n o v).pcd = s.pcd := rfl
@[simp] theorem State.setRg_out (n o v : Nat) : (s.setRg n o v).out = s.out := rfl

-- setRgF
@[simp] theorem State.setRgF_pending (n o m l v : Nat) : (s.setRgF n o m l v).pending = s.pending := rfl
@[simp] theorem State.setRgF_free (n o m l v : Nat) : (s.setRgF n o m l v).free = s.free := rfl
@[simp] theorem State.setRgF_ptc16 (n o m l v : Nat) : (s.setRgF n o m l v).ptc16 = s.ptc16 := rfl
@[simp] theorem State.setRgF_rdata (n o m l v : Nat) : (s.setRgF n o m l v).rdata = s.rdata := rfl
@[simp] theorem State.setRgF_fuses (n o m l v : Nat) : (s.setRgF n o m l v).fuses = s.fuses := rfl
@[simp] theorem State.setRgF_nvm (n o m l v : Nat) : (s.setRgF n o m l v).nvm = s.nvm := rfl
@[simp] theorem State.setRgF_dies (n o m l v : Nat) : (s.setRgF n o m l v).dies = s.dies := rfl
@[simp] theorem State.setRgF_mds (n o m l v : Nat) : (s.setRgF n o m l v).mds = s.mds := rfl
@[simp] theorem State.setRgF_fds (n o m l v : Nat) : (s.setRgF n o m l v).fds = s.fds := rfl
@[simp] theorem State.setRgF_parts (n o m l v : Nat) : (s.setRgF n o m l v).parts = s.parts := rfl
@[simp] theorem State.setRgF_sess (n o m l v : Nat) : (s.setRgF n o m l v).sess = s.sess := rfl
@[simp] theorem State.setRgF_pcd (n o m l v : Nat) : (s.setRgF n o m l v).pcd = s.pcd := rfl
@[simp] theorem State.setRgF_out (n o m l v : Nat) : (s.setRgF n o m l v).out = s.out := rfl

-- setRgB
@[simp] theorem State.setRgB_pending (n o k : Nat) (b : Bool) : (s.setRgB n o k b).pending = s.pending := rfl
@[simp] theorem State.setRgB_free (n o k : Nat) (b : Bool) : (s.setRgB n o k b).free = s.free := rfl
@[simp] theorem State.setRgB_ptc16 (n o k : Nat) (b : Bool) : (s.setRgB n o k b).ptc16 = s.ptc16 := rfl
@[simp] theorem State.setRgB_rdata (n o k : Nat) (b : Bool) : (s.setRgB n o k b).rdata = s.rdata := rfl
@[simp] theorem State.setRgB_fuses (n o k : Nat) (b : Bool) : (s.setRgB n o k b).fuses = s.fuses := rfl
@[simp] theorem State.setRgB_nvm (n o k : Nat) (b : Bool) : (s.setRgB n o k b).nvm = s.nvm := rfl
@[simp] theorem State.setRgB_dies (n o k : Nat) (b : Bool) : (s.setRgB n o k b).dies = s.dies := rfl
@[simp] theorem State.setRgB_mds (n o k : Nat) (b : Bool) : (s.setRgB n o k b).mds = s.mds := rfl
@[simp] theorem State.setRgB_fds (n o k : Nat) (b : Bool) : (s.setRgB n o k b).fds = s.fds := rfl
@[simp] theorem State.setRgB_parts (n o k : Nat) (b : Bool) : (s.setRgB n o k b).parts = s.parts := rfl
@[simp] theorem State.setRgB_sess (n o k : Nat) (b : Bool) : (s.setRgB n o k b).sess = s.sess := rfl
@[simp] theorem State.setRgB_pcd (n o k : Nat) (b : Bool) : (s.setRgB n o k b).pcd = s.pcd := rfl
@[simp] theorem State.setRgB_out (n o k : Nat) (b : Bool) : (s.setRgB n o k b).out = s.out := rfl

-- orRg
@[simp] theorem State.orRg_pending (n o m : Nat) : (s.orRg n o m).pending = s.pending := rfl
@[simp] theorem State.orRg_free (n o m : Nat) : (s.orRg n o m).free = s.free := rfl
@[simp] theorem State.orRg_ptc16 (n o m : Nat) : (s.orRg n o m).ptc16 = s.ptc16 := rfl
@[simp] theorem State.orRg_rdata (n o m : Nat) : (s.orRg n o m).rdata = s.rdata := rfl
@[simp] theorem State.orRg_fuses (n o m : Nat) : (s.orRg n o m).fuses = s.fuses := rfl
@[simp] theorem State.orRg_nvm (n o m : Nat) : (s.orRg n o m).nvm = s.nvm := rfl
@[simp] theorem State.orRg_dies (n o m : Nat) : (s.orRg n o m).dies = s.dies := rfl
@[simp] theorem State.orRg_mds (n o m : Nat) : (s.orRg n o m).mds = s.mds := rfl
@[simp] theorem State.orRg_fds (n o m : Nat) : (s.orRg n o m).fds = s.fds := rfl
@[simp] theorem State.orRg_parts (n o m : Nat) : (s.orRg n o m).parts = s.parts := rfl
@[simp] theorem State.orRg_sess (n o m : Nat) : (s.orRg n o m).sess = s.sess := rfl
@[simp] theorem State.orRg_pcd (n o m : Nat) : (s.orRg n o m).pcd = s.pcd := rfl
@[simp] theorem State.orRg_out (n o m : Nat) : (s.orRg n o m).out = s.out := rfl

-- takeFree
@[simp] theorem State.takeFree_pending : (s.takeFree).pending = s.pending := rfl
@[simp] theorem State.takeFree_ptc16 : (s.takeFree).ptc16 = s.ptc16 := rfl
@[simp] theorem State.takeFree_rdata : (s.takeFree).rdata = s.rdata := rfl
@[simp] theorem State.takeFree_fuses : (s.takeFree).fuses = s.fuses := rfl
@[simp] theorem State.takeFree_nvm : (s.takeFree).nvm = s.nvm := rfl
@[simp] theorem State.takeFree_regs : (s.takeFree).regs = s.regs := rfl
@[simp] theorem State.takeFree_dies : (s.takeFree).dies = s.dies := rfl
@[simp] theorem State.takeFree_mds : (s.takeFree).mds = s.mds := rfl
@[simp] theorem State.takeFree_fds : (s.takeFree).fds = s.fds := rfl
@[simp] theorem State.takeFree_parts : (s.takeFree).parts = s.parts := rfl
@[simp] theorem State.takeFree_sess : (s.takeFree).sess = s.sess := rfl
@[simp] theorem State.takeFree_pcd : (s.takeFree).pcd = s.pcd := rfl
@[simp] theorem State.takeFree_out : (s.takeFree).out = s.out := rfl

-- Sparse maps

theorem sget_sput_same {α : Type} (d : α) (m : SMap α) (k : Nat) (v : α) : sget d (sput m k v) k = v := by
  induction m with
  | nil => simp [sput, sget]
  | cons e r ih =>
    obtain ⟨k', w⟩ := e
    simp only [sput]
    split
    · simp [sget]
    · split
      · simp [sget]
      · rename_i h _
        simpa [sget, h] using ih

theorem sget_sput_ne {α : Type} (d : α) (m : SMap α) (k j : Nat) (v : α) (h : j ≠ k) : sget d (sput m k v) j = sget d m j := by
  induction m with
  | nil => simp [sput, sget, Ne.symm h]
  | cons e r ih =>
    obtain ⟨k', w⟩ := e
    simp only [sput]
    split
    · rename_i hk
      subst hk
      simp [sget, Ne.symm h]
    · split
      · simp [sget, Ne.symm h]
      · simp only [sget]
        split
        · rfl
        · exact ih

@[simp] theorem sget_sput {α : Type} (d : α) (m : SMap α) (k j : Nat) (v : α) :
    sget d (sput m k v) j = if j = k then v else sget d m j := by
  split
  · rename_i h; subst h; exact sget_sput_same d m _ v
  · rename_i h; exact sget_sput_ne d m k j v h

@[simp] theorem sget_serase {α : Type} (d : α) (m : SMap α) (k j : Nat) :
    sget d (serase m k) j = if j = k then d else sget d m j := by
  induction m with
  | nil => simp [serase, sget]
  | cons e r ih =>
    obtain ⟨k', w⟩ := e
    simp only [serase, List.filter_cons] at ih ⊢
    by_cases hk : k' = k
    · subst hk
      by_cases hj : j = k'
      · simp [hj] at ih ⊢; exact ih
      · simp [hj, Ne.symm hj, sget] at ih ⊢; exact ih
    · simp only [ne_eq, decide_not] at ih
      simp only [hk, ne_eq, not_false_eq_true, decide_true, if_true, sget, decide_not]
      by_cases hj : k' = j
      · subst hj; simp [hk]
      · simp [hj, ih]

@[simp] theorem sget_nput {α : Type} [DecidableEq α] (d : α) (m : SMap α) (k j : Nat) (v : α) :
    sget d (nput d m k v) j = if j = k then v else sget d m j := by
  unfold nput
  split
  · rename_i h; subst h; simp
  · simp

-- Units after an update

@[simp] theorem State.die_setDie (d e : Nat) (x : Die) : (s.setDie d x).die e = if e = d then x else s.die e := by
  simp [State.die, State.setDie]
@[simp] theorem State.die_modDie (d e : Nat) (f : Die → Die) : (s.modDie d f).die e = if e = d then f (s.die d) else s.die e := by
  simp [State.modDie]
@[simp] theorem State.md_setMd (m e : Nat) (x : Mdie) : (s.setMd m x).md e = if e = m then x else s.md e := by simp [State.md, State.setMd]
@[simp] theorem State.fd_setFd (m e : Nat) (x : Fdie) : (s.setFd m x).fd e = if e = m then x else s.fd e := by simp [State.fd, State.setFd]
@[simp] theorem State.part_setPart (m e : Nat) (x : Part) : (s.setPart m x).part e = if e = m then x else s.part e := by
  simp [State.part, State.setPart]
@[simp] theorem State.part_modPart (m e : Nat) (f : Part → Part) :
    (s.modPart m f).part e = if e = m then f (s.part m) else s.part e := by simp [State.modPart]
@[simp] theorem State.session_setSession (m e : Nat) (x : Session) :
    (s.setSession m x).session e = if e = m then x else s.session e := by simp [State.session, State.setSession]
@[simp] theorem State.pcd_setPcd (f : Pcd → Pcd) : (s.setPcd f).pcd = f s.pcd := rfl
@[simp] theorem Die.place_setPlace (x : Die) (p q : Nat) (v : Place) : (x.setPlace p v).place q = if q = p then v else x.place q := by
  simp [Die.place, Die.setPlace]
@[simp] theorem State.place_setPlace (d p e q : Nat) (v : Place) :
    (s.setPlace d p v).place e q = if e = d ∧ q = p then v else s.place e q := by
  by_cases h : e = d
  · subst h; simp [State.place, State.setPlace]
  · simp [State.place, State.setPlace, h]
@[simp] theorem State.place_modPlace (d p e q : Nat) (f : Place → Place) :
    (s.modPlace d p f).place e q = if e = d ∧ q = p then f (s.place d p) else s.place e q := by simp [State.modPlace]
@[simp] theorem State.mc_setMc (d c e k : Nat) (v : Mcore) :
    (s.setMc d c v).mc e k = if e = d ∧ k = c then v else s.mc e k := by
  by_cases h : e = d
  · subst h; simp [State.mc, State.setMc, Die.mc]
  · simp [State.mc, State.setMc, h]
@[simp] theorem State.vc_setVc (d c e k : Nat) (v : Vcore) :
    (s.setVc d c v).vc e k = if e = d ∧ k = c then v else s.vc e k := by
  by_cases h : e = d
  · subst h; simp [State.vc, State.setVc, Die.vc]
  · simp [State.vc, State.setVc, h]
@[simp] theorem State.sc_setSc (d c e k : Nat) (v : SCore) :
    (s.setSc d c v).sc e k = if e = d ∧ k = c then v else s.sc e k := by
  by_cases h : e = d
  · subst h; simp [State.sc, State.setSc, Die.sc]
  · simp [State.sc, State.setSc, h]

-- Registers after an update: no key of another register of the same block is the same

theorem rkey_off (n a b : Nat) : rkey n a = rkey n b ↔ a = b := by unfold rkey; omega
theorem State.rg_setRg (n o v m p : Nat) : (s.setRg n o v).rg m p = if rkey m p = rkey n o then v else s.rg m p := by
  unfold State.rg State.setRg
  by_cases h : rkey m p = rkey n o
  · simp [h]
  · simp [h]
@[simp] theorem State.rg_setRg_node (n o v p : Nat) : (s.setRg n o v).rg n p = if p = o then v else s.rg n p := by
  simp [State.rg_setRg, rkey_off]
@[simp] theorem State.rg_setRg_same (n o v : Nat) : (s.setRg n o v).rg n o = v := by simp
@[simp] theorem State.rg_setDie (d : Nat) (x : Die) (rn ro : Nat) : (s.setDie d x).rg rn ro = s.rg rn ro := rfl
@[simp] theorem State.rg_modDie (d : Nat) (f : Die → Die) (rn ro : Nat) : (s.modDie d f).rg rn ro = s.rg rn ro := rfl
@[simp] theorem State.rg_setPlace (d p : Nat) (v : Place) (rn ro : Nat) : (s.setPlace d p v).rg rn ro = s.rg rn ro := rfl
@[simp] theorem State.rg_modPlace (d p : Nat) (f : Place → Place) (rn ro : Nat) : (s.modPlace d p f).rg rn ro = s.rg rn ro := rfl
@[simp] theorem State.rg_setMc (d c : Nat) (v : Mcore) (rn ro : Nat) : (s.setMc d c v).rg rn ro = s.rg rn ro := rfl
@[simp] theorem State.rg_setVc (d v : Nat) (y : Vcore) (rn ro : Nat) : (s.setVc d v y).rg rn ro = s.rg rn ro := rfl
@[simp] theorem State.rg_setScr (d : Nat) (y : Scraper) (rn ro : Nat) : (s.setScr d y).rg rn ro = s.rg rn ro := rfl
@[simp] theorem State.rg_setSpad (d : Nat) (y : Spad) (rn ro : Nat) : (s.setSpad d y).rg rn ro = s.rg rn ro := rfl
@[simp] theorem State.rg_setSc (d c : Nat) (y : SCore) (rn ro : Nat) : (s.setSc d c y).rg rn ro = s.rg rn ro := rfl
@[simp] theorem State.rg_setMd (m : Nat) (v : Mdie) (rn ro : Nat) : (s.setMd m v).rg rn ro = s.rg rn ro := rfl
@[simp] theorem State.rg_setFd (f : Nat) (v : Fdie) (rn ro : Nat) : (s.setFd f v).rg rn ro = s.rg rn ro := rfl
@[simp] theorem State.rg_setPart (p : Nat) (v : Part) (rn ro : Nat) : (s.setPart p v).rg rn ro = s.rg rn ro := rfl
@[simp] theorem State.rg_modPart (p : Nat) (f : Part → Part) (rn ro : Nat) : (s.modPart p f).rg rn ro = s.rg rn ro := rfl
@[simp] theorem State.rg_setSession (k : Nat) (v : Session) (rn ro : Nat) : (s.setSession k v).rg rn ro = s.rg rn ro := rfl
@[simp] theorem State.rg_setPcd (f : Pcd → Pcd) (rn ro : Nat) : (s.setPcd f).rg rn ro = s.rg rn ro := rfl
@[simp] theorem State.rg_emit (o : Out) (rn ro : Nat) : (s.emit o).rg rn ro = s.rg rn ro := rfl
@[simp] theorem State.rg_emitAll (os : List Out) (rn ro : Nat) : (s.emitAll os).rg rn ro = s.rg rn ro := rfl
@[simp] theorem State.rg_takeFree  (rn ro : Nat) : (s.takeFree).rg rn ro = s.rg rn ro := rfl
@[simp] theorem State.die_setMd (m : Nat) (v : Mdie) (e : Nat) : (s.setMd m v).die e = s.die e := rfl
@[simp] theorem State.die_setFd (f : Nat) (v : Fdie) (e : Nat) : (s.setFd f v).die e = s.die e := rfl
@[simp] theorem State.md_setFd (f : Nat) (v : Fdie) (e : Nat) : (s.setFd f v).md e = s.md e := rfl
@[simp] theorem State.die_setPart (p : Nat) (v : Part) (e : Nat) : (s.setPart p v).die e = s.die e := rfl
@[simp] theorem State.md_setPart (p : Nat) (v : Part) (e : Nat) : (s.setPart p v).md e = s.md e := rfl
@[simp] theorem State.die_modPart (p : Nat) (f : Part → Part) (e : Nat) : (s.modPart p f).die e = s.die e := rfl
@[simp] theorem State.md_modPart (p : Nat) (f : Part → Part) (e : Nat) : (s.modPart p f).md e = s.md e := rfl
@[simp] theorem State.die_setSession (k : Nat) (v : Session) (e : Nat) : (s.setSession k v).die e = s.die e := rfl
@[simp] theorem State.md_setSession (k : Nat) (v : Session) (e : Nat) : (s.setSession k v).md e = s.md e := rfl
@[simp] theorem State.die_setPcd (f : Pcd → Pcd) (e : Nat) : (s.setPcd f).die e = s.die e := rfl
@[simp] theorem State.md_setPcd (f : Pcd → Pcd) (e : Nat) : (s.setPcd f).md e = s.md e := rfl
@[simp] theorem State.die_emit (o : Out) (e : Nat) : (s.emit o).die e = s.die e := rfl
@[simp] theorem State.md_emit (o : Out) (e : Nat) : (s.emit o).md e = s.md e := rfl
@[simp] theorem State.die_emitAll (os : List Out) (e : Nat) : (s.emitAll os).die e = s.die e := rfl
@[simp] theorem State.md_emitAll (os : List Out) (e : Nat) : (s.emitAll os).md e = s.md e := rfl
@[simp] theorem State.die_setRg (n o v : Nat) (e : Nat) : (s.setRg n o v).die e = s.die e := rfl
@[simp] theorem State.md_setRg (n o v : Nat) (e : Nat) : (s.setRg n o v).md e = s.md e := rfl
@[simp] theorem State.die_setRgF (n o m l v : Nat) (e : Nat) : (s.setRgF n o m l v).die e = s.die e := rfl
@[simp] theorem State.md_setRgF (n o m l v : Nat) (e : Nat) : (s.setRgF n o m l v).md e = s.md e := rfl
@[simp] theorem State.die_setRgB (n o k : Nat) (b : Bool) (e : Nat) : (s.setRgB n o k b).die e = s.die e := rfl
@[simp] theorem State.md_setRgB (n o k : Nat) (b : Bool) (e : Nat) : (s.setRgB n o k b).md e = s.md e := rfl
@[simp] theorem State.die_orRg (n o m : Nat) (e : Nat) : (s.orRg n o m).die e = s.die e := rfl
@[simp] theorem State.md_orRg (n o m : Nat) (e : Nat) : (s.orRg n o m).md e = s.md e := rfl
@[simp] theorem State.die_takeFree  (e : Nat) : (s.takeFree).die e = s.die e := rfl
@[simp] theorem State.md_takeFree  (e : Nat) : (s.takeFree).md e = s.md e := rfl
@[simp] theorem State.md_setDie (d : Nat) (x : Die) (e : Nat) : (s.setDie d x).md e = s.md e := rfl
@[simp] theorem State.fd_setDie (d : Nat) (x : Die) (e : Nat) : (s.setDie d x).fd e = s.fd e := rfl
@[simp] theorem State.part_setDie (d : Nat) (x : Die) (e : Nat) : (s.setDie d x).part e = s.part e := rfl
@[simp] theorem State.session_setDie (d : Nat) (x : Die) (e : Nat) : (s.setDie d x).session e = s.session e := rfl
@[simp] theorem State.md_modDie (d : Nat) (f : Die → Die) (e : Nat) : (s.modDie d f).md e = s.md e := rfl
@[simp] theorem State.fd_modDie (d : Nat) (f : Die → Die) (e : Nat) : (s.modDie d f).fd e = s.fd e := rfl
@[simp] theorem State.part_modDie (d : Nat) (f : Die → Die) (e : Nat) : (s.modDie d f).part e = s.part e := rfl
@[simp] theorem State.session_modDie (d : Nat) (f : Die → Die) (e : Nat) : (s.modDie d f).session e = s.session e := rfl
@[simp] theorem State.md_setPlace (d p : Nat) (v : Place) (e : Nat) : (s.setPlace d p v).md e = s.md e := rfl
@[simp] theorem State.fd_setPlace (d p : Nat) (v : Place) (e : Nat) : (s.setPlace d p v).fd e = s.fd e := rfl
@[simp] theorem State.part_setPlace (d p : Nat) (v : Place) (e : Nat) : (s.setPlace d p v).part e = s.part e := rfl
@[simp] theorem State.session_setPlace (d p : Nat) (v : Place) (e : Nat) : (s.setPlace d p v).session e = s.session e := rfl
@[simp] theorem State.md_modPlace (d p : Nat) (f : Place → Place) (e : Nat) : (s.modPlace d p f).md e = s.md e := rfl
@[simp] theorem State.fd_modPlace (d p : Nat) (f : Place → Place) (e : Nat) : (s.modPlace d p f).fd e = s.fd e := rfl
@[simp] theorem State.part_modPlace (d p : Nat) (f : Place → Place) (e : Nat) : (s.modPlace d p f).part e = s.part e := rfl
@[simp] theorem State.session_modPlace (d p : Nat) (f : Place → Place) (e : Nat) : (s.modPlace d p f).session e = s.session e := rfl
@[simp] theorem State.md_setMc (d c : Nat) (v : Mcore) (e : Nat) : (s.setMc d c v).md e = s.md e := rfl
@[simp] theorem State.fd_setMc (d c : Nat) (v : Mcore) (e : Nat) : (s.setMc d c v).fd e = s.fd e := rfl
@[simp] theorem State.part_setMc (d c : Nat) (v : Mcore) (e : Nat) : (s.setMc d c v).part e = s.part e := rfl
@[simp] theorem State.session_setMc (d c : Nat) (v : Mcore) (e : Nat) : (s.setMc d c v).session e = s.session e := rfl
@[simp] theorem State.md_setVc (d v : Nat) (y : Vcore) (e : Nat) : (s.setVc d v y).md e = s.md e := rfl
@[simp] theorem State.fd_setVc (d v : Nat) (y : Vcore) (e : Nat) : (s.setVc d v y).fd e = s.fd e := rfl
@[simp] theorem State.part_setVc (d v : Nat) (y : Vcore) (e : Nat) : (s.setVc d v y).part e = s.part e := rfl
@[simp] theorem State.session_setVc (d v : Nat) (y : Vcore) (e : Nat) : (s.setVc d v y).session e = s.session e := rfl
@[simp] theorem State.md_setScr (d : Nat) (y : Scraper) (e : Nat) : (s.setScr d y).md e = s.md e := rfl
@[simp] theorem State.fd_setScr (d : Nat) (y : Scraper) (e : Nat) : (s.setScr d y).fd e = s.fd e := rfl
@[simp] theorem State.part_setScr (d : Nat) (y : Scraper) (e : Nat) : (s.setScr d y).part e = s.part e := rfl
@[simp] theorem State.session_setScr (d : Nat) (y : Scraper) (e : Nat) : (s.setScr d y).session e = s.session e := rfl
@[simp] theorem State.md_setSpad (d : Nat) (y : Spad) (e : Nat) : (s.setSpad d y).md e = s.md e := rfl
@[simp] theorem State.fd_setSpad (d : Nat) (y : Spad) (e : Nat) : (s.setSpad d y).fd e = s.fd e := rfl
@[simp] theorem State.part_setSpad (d : Nat) (y : Spad) (e : Nat) : (s.setSpad d y).part e = s.part e := rfl
@[simp] theorem State.session_setSpad (d : Nat) (y : Spad) (e : Nat) : (s.setSpad d y).session e = s.session e := rfl
@[simp] theorem State.md_setSc (d c : Nat) (y : SCore) (e : Nat) : (s.setSc d c y).md e = s.md e := rfl
@[simp] theorem State.fd_setSc (d c : Nat) (y : SCore) (e : Nat) : (s.setSc d c y).fd e = s.fd e := rfl
@[simp] theorem State.part_setSc (d c : Nat) (y : SCore) (e : Nat) : (s.setSc d c y).part e = s.part e := rfl
@[simp] theorem State.session_setSc (d c : Nat) (y : SCore) (e : Nat) : (s.setSc d c y).session e = s.session e := rfl
@[simp] theorem State.fd_setMd (m : Nat) (v : Mdie) (e : Nat) : (s.setMd m v).fd e = s.fd e := rfl
@[simp] theorem State.part_setMd (m : Nat) (v : Mdie) (e : Nat) : (s.setMd m v).part e = s.part e := rfl
@[simp] theorem State.session_setMd (m : Nat) (v : Mdie) (e : Nat) : (s.setMd m v).session e = s.session e := rfl
@[simp] theorem State.part_setFd (f : Nat) (v : Fdie) (e : Nat) : (s.setFd f v).part e = s.part e := rfl
@[simp] theorem State.session_setFd (f : Nat) (v : Fdie) (e : Nat) : (s.setFd f v).session e = s.session e := rfl
@[simp] theorem State.fd_setPart (p : Nat) (v : Part) (e : Nat) : (s.setPart p v).fd e = s.fd e := rfl
@[simp] theorem State.session_setPart (p : Nat) (v : Part) (e : Nat) : (s.setPart p v).session e = s.session e := rfl
@[simp] theorem State.fd_modPart (p : Nat) (f : Part → Part) (e : Nat) : (s.modPart p f).fd e = s.fd e := rfl
@[simp] theorem State.session_modPart (p : Nat) (f : Part → Part) (e : Nat) : (s.modPart p f).session e = s.session e := rfl
@[simp] theorem State.fd_setSession (k : Nat) (v : Session) (e : Nat) : (s.setSession k v).fd e = s.fd e := rfl
@[simp] theorem State.part_setSession (k : Nat) (v : Session) (e : Nat) : (s.setSession k v).part e = s.part e := rfl
@[simp] theorem State.fd_setPcd (f : Pcd → Pcd) (e : Nat) : (s.setPcd f).fd e = s.fd e := rfl
@[simp] theorem State.part_setPcd (f : Pcd → Pcd) (e : Nat) : (s.setPcd f).part e = s.part e := rfl
@[simp] theorem State.session_setPcd (f : Pcd → Pcd) (e : Nat) : (s.setPcd f).session e = s.session e := rfl
@[simp] theorem State.fd_emit (o : Out) (e : Nat) : (s.emit o).fd e = s.fd e := rfl
@[simp] theorem State.part_emit (o : Out) (e : Nat) : (s.emit o).part e = s.part e := rfl
@[simp] theorem State.session_emit (o : Out) (e : Nat) : (s.emit o).session e = s.session e := rfl
@[simp] theorem State.fd_emitAll (os : List Out) (e : Nat) : (s.emitAll os).fd e = s.fd e := rfl
@[simp] theorem State.part_emitAll (os : List Out) (e : Nat) : (s.emitAll os).part e = s.part e := rfl
@[simp] theorem State.session_emitAll (os : List Out) (e : Nat) : (s.emitAll os).session e = s.session e := rfl
@[simp] theorem State.fd_setRg (n o v : Nat) (e : Nat) : (s.setRg n o v).fd e = s.fd e := rfl
@[simp] theorem State.part_setRg (n o v : Nat) (e : Nat) : (s.setRg n o v).part e = s.part e := rfl
@[simp] theorem State.session_setRg (n o v : Nat) (e : Nat) : (s.setRg n o v).session e = s.session e := rfl
@[simp] theorem State.fd_setRgF (n o m l v : Nat) (e : Nat) : (s.setRgF n o m l v).fd e = s.fd e := rfl
@[simp] theorem State.part_setRgF (n o m l v : Nat) (e : Nat) : (s.setRgF n o m l v).part e = s.part e := rfl
@[simp] theorem State.session_setRgF (n o m l v : Nat) (e : Nat) : (s.setRgF n o m l v).session e = s.session e := rfl
@[simp] theorem State.fd_setRgB (n o k : Nat) (b : Bool) (e : Nat) : (s.setRgB n o k b).fd e = s.fd e := rfl
@[simp] theorem State.part_setRgB (n o k : Nat) (b : Bool) (e : Nat) : (s.setRgB n o k b).part e = s.part e := rfl
@[simp] theorem State.session_setRgB (n o k : Nat) (b : Bool) (e : Nat) : (s.setRgB n o k b).session e = s.session e := rfl
@[simp] theorem State.fd_orRg (n o m : Nat) (e : Nat) : (s.orRg n o m).fd e = s.fd e := rfl
@[simp] theorem State.part_orRg (n o m : Nat) (e : Nat) : (s.orRg n o m).part e = s.part e := rfl
@[simp] theorem State.session_orRg (n o m : Nat) (e : Nat) : (s.orRg n o m).session e = s.session e := rfl
@[simp] theorem State.fd_takeFree  (e : Nat) : (s.takeFree).fd e = s.fd e := rfl
@[simp] theorem State.part_takeFree  (e : Nat) : (s.takeFree).part e = s.part e := rfl
@[simp] theorem State.session_takeFree  (e : Nat) : (s.takeFree).session e = s.session e := rfl

end Sys2Proof.Machine
end

