-- ==== Sys2Proof/Laws/Bells.lean ====
section
/-! SUPPORT. Doorbell lines (spec/12 R350): which updates leave them, and what passing one on changes. -/

namespace Sys2Proof.Machine

/-- A map's entries that pass a filter which refuses a key stand when that key is put. -/
theorem filterMap_sput {α β : Type} (g : Nat × α → Option β) (k : Nat) (v : α) (h : ∀ w, g (k, w) = none) (m : SMap α) :
    (sput m k v).filterMap g = m.filterMap g := by
  induction m with
  | nil => simp [sput, h]
  | cons e r ih =>
    obtain ⟨k', w⟩ := e
    simp only [sput]
    split
    · rename_i hk; subst hk; simp [h]
    · split
      · simp [List.filterMap_cons, h]
      · simp only [List.filterMap_cons, ih]

/-- A register of a block that is no fabric die's: the doorbell lines stand. -/
theorem State.bellLines_setRg (s : State) (n o v m : Nat) (hn : n < 704 ∨ 720 ≤ n) (ho : o < 2 ^ 32) :
    (s.setRg n o v).bellLines m = s.bellLines m := by
  have key : rkey n o / 2 ^ 32 = n := by unfold rkey; omega
  unfold State.bellLines
  dsimp only
  refine congrArg (List.take 32) ?_
  have rgs : ∀ f c, f < 16 → c < 256 → (s.setRg n o v).rg (nodeFd f) (FD_CTX_W2 c) = s.rg (nodeFd f) (FD_CTX_W2 c) := by
    intro f c hf hc
    show sget _ (sput s.regs _ _) _ = _
    refine sget_sput_ne _ _ _ _ _ ?_
    unfold rkey nodeFd FD_CTX_W2
    omega
  refine Eq.trans (filterMap_sput _ _ _ ?_ _) (List.filterMap_congr ?_)
  · intro w
    rw [if_neg]
    rintro ⟨h1, h2, -⟩
    simp only [key] at h1 h2
    unfold nodeFd at h1 h2
    omega
  · intro e _
    split
    · rename_i h
      rw [rgs _ _ h.2.1 h.2.2.2.2.1]
      exact (if_pos h).symm
    · rename_i h
      exact (if_neg h).symm

theorem State.bellLines_bumpPerf (s : State) (n o k m : Nat) (hn : n < 704 ∨ 720 ≤ n) (ho : o < 2 ^ 32) :
    (s.bumpPerf n o k).bellLines m = s.bellLines m := by
  unfold State.bumpPerf
  split
  · rfl
  · exact State.bellLines_setRg s n o _ m hn ho
@[simp] theorem State.bellLines_setMd (s : State) (k : Nat) (x : Mdie) (m : Nat) : (s.setMd k x).bellLines m = s.bellLines m := rfl
@[simp] theorem State.bellLines_setDie (s : State) (d : Nat) (x : Die) (m : Nat) : (s.setDie d x).bellLines m = s.bellLines m := rfl

/-- A write that touches no line passes none on. -/
theorem State.bellPass_none (s : State) (lines : List (Nat × Nat × Nat)) (m loc n : Nat)
    (h : ∀ b ∈ lines, loc + n ≤ b.2.2 ∨ b.2.2 + 4 ≤ loc) : s.bellPass lines m loc n = s := by
  unfold State.bellPass
  induction lines generalizing s with
  | nil => rfl
  | cons b r ih =>
    rw [List.foldl_cons, if_neg (by have := h b List.mem_cons_self; omega)]
    exact ih s (fun c hc => h c (List.mem_cons_of_mem _ hc))

/-- Passing lines on changes what is under way on the mesh, and nothing else. -/
theorem State.bellPass_frame (s : State) (lines : List (Nat × Nat × Nat)) (m loc n : Nat) :
    ∃ l, s.bellPass lines m loc n = s.setPcd (fun p => { p with net := l }) := by
  unfold State.bellPass
  have step : ∀ (ls : List (Nat × Nat × Nat)) (t : State), (∃ l, t = s.setPcd (fun p => { p with net := l })) →
      ∃ l, (ls.foldl (fun t b =>
        if loc < b.2.2 + 4 ∧ b.2.2 < loc + n then
          t.inject (mkPkt 1 (s.partOfMd m) (epFd b.1) (epMd m) 0 0 (FD_CTX_W2 b.2.1) 0 4 (readBytes (t.md m).mem b.2.2 4))
        else t) t) = s.setPcd (fun p => { p with net := l }) := by
    intro ls
    induction ls with
    | nil => intro t h; exact h
    | cons b r ih =>
      intro t h
      rw [List.foldl_cons]
      refine ih _ ?_
      split
      · obtain ⟨l, rfl⟩ := h
        exact ⟨_, rfl⟩
      · exact h
  exact step lines s ⟨s.pcd.net, rfl⟩

end Sys2Proof.Machine
end

