-- ==== Sys2Proof/Laws/Memory.lean ====
section
/-! SUPPORT. Memory: reads after writes, and that every operation on memory keeps the canonical form `Memory.wf`. -/

namespace Sys2Proof.Machine

@[simp] theorem memRead_memWrite (m : List Host.Cell) (a b : Nat) (v : Byte) :
    memRead (memWrite m a v) b = if b = a then v else memRead m b := by simp [memRead, memWrite]

theorem memRead_writeBytes (l : List Byte) : ∀ (m : List Host.Cell) (a b : Nat),
    memRead (writeBytes m a l) b = if a ≤ b ∧ b < a + l.length then l.getD (b - a) 0#8 else memRead m b := by
  induction l with
  | nil => intro m a b; simp [writeBytes]
  | cons v r ih =>
    intro m a b
    simp only [writeBytes, ih, memRead_memWrite, List.length_cons]
    by_cases h : b = a
    · subst h; simp
    · by_cases h1 : a ≤ b ∧ b < a + (r.length + 1)
      · have h2 : a + 1 ≤ b ∧ b < a + 1 + r.length := by omega
        have h3 : b - a = (b - (a + 1)) + 1 := by omega
        rw [if_pos h1, if_pos h2, h3]; simp
      · have h2 : ¬(a + 1 ≤ b ∧ b < a + 1 + r.length) := by omega
        rw [if_neg h1, if_neg h2, if_neg h]

/-- Every key of a memory lies above a bound. -/
def keysAbove (n : Nat) (m : List Host.Cell) : Prop := ∀ e ∈ m, n < e.1

/-- The canonical form, one entry at a time. -/
theorem Memory.wf_cons (a : Nat) (b : Byte) (r : List Host.Cell) :
    Memory.wf ((a, b) :: r) = true ↔ b ≠ 0#8 ∧ keysAbove a r ∧ Memory.wf r = true := by
  induction r generalizing a b with
  | nil => simp [Memory.wf, keysAbove]
  | cons e r ih =>
    obtain ⟨a', b'⟩ := e
    simp only [Memory.wf, Bool.and_eq_true, decide_eq_true_eq]
    constructor
    · rintro ⟨⟨h1, h2⟩, h3⟩
      refine ⟨h1, ?_, h3⟩
      intro x hx
      rcases List.mem_cons.1 hx with rfl | hx
      · exact h2
      · have := ((ih a' b').1 h3).2.1 x hx
        omega
    · rintro ⟨h1, h2, h3⟩
      exact ⟨⟨h1, h2 _ (List.mem_cons_self ..)⟩, h3⟩

theorem mem_sput {m : List Host.Cell} {k : Nat} {v : Byte} {e : Host.Cell} (h : e ∈ sput m k v) : e = (k, v) ∨ e ∈ m := by
  induction m with
  | nil => left; simpa [sput] using h
  | cons x r ih =>
    obtain ⟨k', w⟩ := x
    simp only [sput] at h
    split at h
    · rcases List.mem_cons.1 h with h | h
      · left; exact h
      · right; exact List.mem_cons_of_mem _ h
    · split at h
      · rcases List.mem_cons.1 h with h | h
        · left; exact h
        · right; exact h
      · rcases List.mem_cons.1 h with h | h
        · right; subst h; exact List.mem_cons_self ..
        · rcases ih h with h | h
          · left; exact h
          · right; exact List.mem_cons_of_mem _ h

theorem Memory.wf_sput {m : List Host.Cell} {k : Nat} {v : Byte} (hv : v ≠ 0#8) (h : Memory.wf m = true) : Memory.wf (sput m k v) = true := by
  induction m with
  | nil => simp [sput, Memory.wf, hv]
  | cons x r ih =>
    obtain ⟨k', w⟩ := x
    obtain ⟨h1, h2, h3⟩ := (Memory.wf_cons _ _ _).1 h
    simp only [sput]
    split
    · rename_i hk; subst hk
      exact (Memory.wf_cons _ _ _).2 ⟨hv, h2, h3⟩
    · split
      · rename_i hlt
        refine (Memory.wf_cons _ _ _).2 ⟨hv, ?_, h⟩
        intro e he
        rcases List.mem_cons.1 he with rfl | he
        · exact hlt
        · have := h2 e he; omega
      · rename_i hne hlt
        refine (Memory.wf_cons _ _ _).2 ⟨h1, ?_, ih h3⟩
        intro e he
        rcases mem_sput he with rfl | he
        · have : k' ≠ k := hne
          show k' < k
          omega
        · exact h2 e he

theorem Memory.wf_filter {m : List Host.Cell} (f : Host.Cell → Bool) (h : Memory.wf m = true) : Memory.wf (m.filter f) = true := by
  induction m with
  | nil => exact h
  | cons x r ih =>
    obtain ⟨k, w⟩ := x
    obtain ⟨h1, h2, h3⟩ := (Memory.wf_cons _ _ _).1 h
    rw [List.filter_cons]
    split
    · exact (Memory.wf_cons _ _ _).2 ⟨h1, fun e he => h2 e (List.mem_filter.1 he).1, ih h3⟩
    · exact ih h3

/-- A byte write keeps the canonical form. -/
theorem Memory.wf_memWrite {m : List Host.Cell} (a : Nat) (b : Byte) (h : Memory.wf m = true) : Memory.wf (memWrite m a b) = true := by
  unfold memWrite nput
  split
  · exact Memory.wf_filter _ h
  · rename_i hb; exact Memory.wf_sput hb h

/-- A write of bytes keeps the canonical form. -/
theorem Memory.wf_writeBytes (l : List Byte) : ∀ {m : List Host.Cell} (a : Nat), Memory.wf m = true → Memory.wf (writeBytes m a l) = true := by
  induction l with
  | nil => intro m a h; exact h
  | cons b r ih => intro m a h; exact ih (a + 1) (Memory.wf_memWrite a b h)

/-- Clearing a range keeps the canonical form. -/
theorem Memory.wf_clearRange {m : List Host.Cell} (lo hi : Nat) (h : Memory.wf m = true) : Memory.wf (clearRange m lo hi) = true :=
  Memory.wf_filter _ h

@[simp] theorem memRead_clearRange (m : List Host.Cell) (lo hi a : Nat) :
    memRead (clearRange m lo hi) a = if lo ≤ a ∧ a < hi then 0#8 else memRead m a := by
  unfold memRead clearRange
  induction m with
  | nil => simp [sget]
  | cons e r ih =>
    obtain ⟨k, w⟩ := e
    rw [List.filter_cons]
    by_cases hk : k < lo ∨ hi ≤ k
    · have : (decide (k < lo) || decide (hi ≤ k)) = true := by simpa using hk
      simp only [this, if_true, sget, ih]
      by_cases hka : k = a
      · subst hka
        have : ¬(lo ≤ k ∧ k < hi) := by omega
        simp [this]
      · simp [hka]
    · have : (decide (k < lo) || decide (hi ≤ k)) = false := by simpa [not_or] using hk
      simp only [this, Bool.false_eq_true, if_false, sget, ih]
      by_cases hka : k = a
      · subst hka
        have : lo ≤ k ∧ k < hi := by omega
        simp [this]
      · simp [hka]

theorem length_readBytes (m : List Host.Cell) (a n : Nat) : (readBytes m a n).length = n := by simp [readBytes]

end Sys2Proof.Machine
end

