-- ==== Sys2Proof/Laws/Kept.lean ====
section
/-! SUPPORT. What every operation keeps: the fuses, the entries of the field knot log, the canonical form of every memory. One lemma for
each update; the lemmas of the operations follow in the files beside this one. -/

namespace Sys2Proof.Machine

/-- The fuses are F, the knot log begins with L, every memory is canonical. -/
structure Kept (F : Fuses) (L : List Knot) (s : State) : Prop where
  fuses : s.fuses = F
  log : L <+: s.nvm.knots
  mem : s.Canonical

variable {F : Fuses} {L : List Knot} {s : State}

theorem Kept.die (h : Kept F L s) (d : Nat) : (s.die d).Canonical := h.mem.dies d
theorem Kept.plmem (h : Kept F L s) (d p : Nat) : Memory.wf (s.place d p).mem = true := (h.mem.dies d).2.2 p
theorem Kept.mdmem (h : Kept F L s) (m : Nat) : Memory.wf (s.md m).mem = true := h.mem.hbm m
theorem Kept.part (h : Kept F L s) (p : Nat) : (s.part p).Canonical := h.mem.parts p

theorem Part.canonical_of {x y : Part} (h1 : x.ctxs = y.ctxs) (h2 : x.dozeSaved = y.dozeSaved) (h : y.Canonical) : x.Canonical := by
  unfold Part.Canonical
  rw [h1, h2]
  exact h
theorem Part.canonical_mk {x : Part} (h1 : ctxsCanonical x.ctxs) (h2 : savedCanonical x.dozeSaved) : x.Canonical := ⟨h1, h2⟩
theorem Kept.ctxs (h : Kept F L s) (p : Nat) : ctxsCanonical (s.part p).ctxs := (h.part p).1
theorem Kept.doze (h : Kept F L s) (p : Nat) : savedCanonical (s.part p).dozeSaved := (h.part p).2
theorem saved_nil : savedCanonical [] := fun _ h => absurd h (by simp)
theorem ctxs_nil : ctxsCanonical [] := fun _ h => absurd h (by simp)
theorem mem_sput' {α : Type} {m : SMap α} {k : Nat} {v : α} {e : Nat × α} (h : e ∈ sput m k v) : e = (k, v) ∨ e ∈ m := by
  induction m with
  | nil => left; simpa [sput] using h
  | cons x r ih =>
    obtain ⟨k', w⟩ := x
    simp only [sput] at h
    split at h
    · rcases List.mem_cons.1 h with h | h
      · left; exact h
      · right; exact List.mem_cons_of_mem _ h
    · split at h
      · rcases List.mem_cons.1 h with h | h
        · left; exact h
        · right; exact h
      · rcases List.mem_cons.1 h with h | h
        · right; subst h; exact List.mem_cons_self ..
        · rcases ih h with h | h
          · left; exact h
          · right; exact List.mem_cons_of_mem _ h
theorem ctxs_sput {l : SMap Ctx} {k : Nat} {c : Ctx} (h : ctxsCanonical l) (hc : savedCanonical c.saved) : ctxsCanonical (sput l k c) := by
  intro e he
  rcases mem_sput' he with rfl | he
  · exact hc
  · exact h e he
theorem ctxs_filter {l : SMap Ctx} {f : Nat × Ctx → Bool} (h : ctxsCanonical l) : ctxsCanonical (l.filter f) :=
  fun e he => h e (List.mem_filter.1 he).1
theorem ctxs_serase {l : SMap Ctx} {k : Nat} (h : ctxsCanonical l) : ctxsCanonical (serase l k) := ctxs_filter h
theorem ctxs_map {l : SMap Ctx} {f : Nat × Ctx → Nat × Ctx} (h : ctxsCanonical l) (hf : ∀ e, savedCanonical e.2.saved → savedCanonical (f e).2.saved) :
    ctxsCanonical (l.map f) := by
  intro e he
  obtain ⟨x, hx, rfl⟩ := List.mem_map.1 he
  exact hf x (h x hx)
theorem ctxs_ite {c : Prop} [Decidable c] {a b : SMap Ctx} (ha : c → ctxsCanonical a) (hb : ¬c → ctxsCanonical b) : ctxsCanonical (if c then a else b) := by
  split
  · exact ha ‹_›
  · exact hb ‹_›
theorem ctxs_find {l : SMap Ctx} {k : Nat} {c : Ctx} (h : ctxsCanonical l) (hf : sfind l k = some c) : savedCanonical c.saved := by
  unfold sfind at hf
  cases hq : l.find? (fun e => decide (e.1 = k)) with
  | none => rw [hq] at hf; simp at hf
  | some e => rw [hq] at hf; simp at hf; subst hf; exact h e (List.mem_of_find?_eq_some hq)
theorem kept_setDie (h : Kept F L s) {d : Nat} {x : Die} (hx : x.Canonical) : Kept F L (s.setDie d x) := by
  refine ⟨h.fuses, h.log, ⟨?_, h.mem.hbm, h.mem.parts, h.mem.att⟩⟩
  intro e
  rw [State.die_setDie]
  split
  · exact hx
  · exact h.mem.dies e
theorem kept_modDie (h : Kept F L s) {d : Nat} {f : Die → Die} (hf : ∀ x : Die, x.Canonical → (f x).Canonical) : Kept F L (s.modDie d f) :=
  kept_setDie h (hf _ (h.die d))

theorem Die.canonical_mk {x : Die} (h1 : Memory.wf x.spad.mem = true) (h2 : Memory.wf x.tabs = true)
    (h3 : ∀ p, Memory.wf (x.place p).mem = true) : x.Canonical := ⟨h1, h2, h3⟩
theorem Die.canonical_setPlace {x : Die} (hx : x.Canonical) {p : Nat} {v : Place} (hv : Memory.wf v.mem = true) : (x.setPlace p v).Canonical := by
  refine ⟨hx.1, hx.2.1, ?_⟩
  intro q
  rw [Die.place_setPlace]
  split
  · exact hv
  · exact hx.2.2 q
theorem kept_setPlace (h : Kept F L s) {d p : Nat} {v : Place} (hv : Memory.wf v.mem = true) : Kept F L (s.setPlace d p v) :=
  kept_modDie h (fun _ hx => Die.canonical_setPlace hx hv)
theorem kept_modPlace (h : Kept F L s) {d p : Nat} {f : Place → Place} (hf : ∀ v : Place, Memory.wf v.mem = true → Memory.wf (f v).mem = true) :
    Kept F L (s.modPlace d p f) := kept_setPlace h (hf _ (h.plmem d p))
theorem kept_setMc (h : Kept F L s) {d c : Nat} {v : Mcore} : Kept F L (s.setMc d c v) := kept_modDie h (fun _ hx => hx)
theorem kept_setVc (h : Kept F L s) {d c : Nat} {v : Vcore} : Kept F L (s.setVc d c v) := kept_modDie h (fun _ hx => hx)
theorem kept_setScr (h : Kept F L s) {d : Nat} {v : Scraper} : Kept F L (s.setScr d v) := kept_modDie h (fun _ hx => hx)
theorem kept_setSc (h : Kept F L s) {d c : Nat} {v : SCore} : Kept F L (s.setSc d c v) := kept_modDie h (fun _ hx => hx)
theorem kept_setSpad (h : Kept F L s) {d : Nat} {y : Spad} (hy : Memory.wf y.mem = true) : Kept F L (s.setSpad d y) :=
  kept_modDie h (fun _ hx => ⟨hy, hx.2⟩)
theorem kept_setMd (h : Kept F L s) {m : Nat} {v : Mdie} (hv : Memory.wf v.mem = true) : Kept F L (s.setMd m v) := by
  refine ⟨h.fuses, h.log, ⟨h.mem.dies, ?_, h.mem.parts, h.mem.att⟩⟩
  intro e
  rw [State.md_setMd]
  split
  · exact hv
  · exact h.mem.hbm e
theorem kept_setFd (h : Kept F L s) {f : Nat} {v : Fdie} : Kept F L (s.setFd f v) := ⟨h.fuses, h.log, ⟨h.mem.dies, h.mem.hbm, h.mem.parts, h.mem.att⟩⟩
theorem kept_setPart (h : Kept F L s) {p : Nat} {v : Part} (hv : v.Canonical) : Kept F L (s.setPart p v) := by
  refine ⟨h.fuses, h.log, ⟨h.mem.dies, h.mem.hbm, ?_, h.mem.att⟩⟩
  intro e
  rw [State.part_setPart]
  split
  · exact hv
  · exact h.mem.parts e
theorem kept_modPart (h : Kept F L s) {p : Nat} {f : Part → Part} (hf : ∀ x : Part, x.Canonical → (f x).Canonical) : Kept F L (s.modPart p f) :=
  kept_setPart h (hf _ (h.part p))
theorem kept_setSession (h : Kept F L s) {k : Nat} {v : Session} : Kept F L (s.setSession k v) :=
  ⟨h.fuses, h.log, ⟨h.mem.dies, h.mem.hbm, h.mem.parts, h.mem.att⟩⟩
theorem kept_setPcd (h : Kept F L s) {f : Pcd → Pcd} (hf : ∀ p : Pcd, Memory.wf p.att = true → Memory.wf (f p).att = true) : Kept F L (s.setPcd f) :=
  ⟨h.fuses, h.log, ⟨h.mem.dies, h.mem.hbm, h.mem.parts, hf _ h.mem.att⟩⟩
theorem kept_emit (h : Kept F L s) {o : Out} : Kept F L (s.emit o) := ⟨h.fuses, h.log, ⟨h.mem.dies, h.mem.hbm, h.mem.parts, h.mem.att⟩⟩
theorem kept_emitAll (h : Kept F L s) {o : List Out} : Kept F L (s.emitAll o) := ⟨h.fuses, h.log, ⟨h.mem.dies, h.mem.hbm, h.mem.parts, h.mem.att⟩⟩
theorem kept_setRg (h : Kept F L s) {n o v : Nat} : Kept F L (s.setRg n o v) := ⟨h.fuses, h.log, ⟨h.mem.dies, h.mem.hbm, h.mem.parts, h.mem.att⟩⟩
theorem kept_setRgF (h : Kept F L s) {n o m l v : Nat} : Kept F L (s.setRgF n o m l v) := kept_setRg h
theorem kept_setRgB (h : Kept F L s) {n o k : Nat} {b : Bool} : Kept F L (s.setRgB n o k b) := kept_setRg h
theorem kept_orRg (h : Kept F L s) {n o m : Nat} : Kept F L (s.orRg n o m) := kept_setRg h
theorem kept_takeFree (h : Kept F L s) : Kept F L s.takeFree := ⟨h.fuses, h.log, ⟨h.mem.dies, h.mem.hbm, h.mem.parts, h.mem.att⟩⟩

theorem kept_wnvm (h : Kept F L s) {n : Nvm} (hn : L <+: n.knots) : Kept F L { s with nvm := n } :=
  ⟨h.fuses, hn, ⟨h.mem.dies, h.mem.hbm, h.mem.parts, h.mem.att⟩⟩
theorem kept_wpending (h : Kept F L s) {n : List Instr} : Kept F L { s with pending := n } :=
  ⟨h.fuses, h.log, ⟨h.mem.dies, h.mem.hbm, h.mem.parts, h.mem.att⟩⟩
theorem kept_wfree (h : Kept F L s) {n : Nat} : Kept F L { s with free := n } := ⟨h.fuses, h.log, ⟨h.mem.dies, h.mem.hbm, h.mem.parts, h.mem.att⟩⟩
theorem kept_wptc (h : Kept F L s) {n : Nat} : Kept F L { s with ptc16 := n } := ⟨h.fuses, h.log, ⟨h.mem.dies, h.mem.hbm, h.mem.parts, h.mem.att⟩⟩
theorem kept_wrdata (h : Kept F L s) {n : Nat} : Kept F L { s with rdata := n } := ⟨h.fuses, h.log, ⟨h.mem.dies, h.mem.hbm, h.mem.parts, h.mem.att⟩⟩
theorem kept_wregs (h : Kept F L s) {n : SMap Nat} : Kept F L { s with regs := n } := ⟨h.fuses, h.log, ⟨h.mem.dies, h.mem.hbm, h.mem.parts, h.mem.att⟩⟩
theorem kept_wsess (h : Kept F L s) {n : SMap Session} : Kept F L { s with sess := n } := ⟨h.fuses, h.log, ⟨h.mem.dies, h.mem.hbm, h.mem.parts, h.mem.att⟩⟩

/-- A fold keeps what each of its steps keeps. -/
theorem kept_foldl {α : Type} {f : State → α → State} {l : List α} {s0 : State} (h0 : Kept F L s0)
    (hf : ∀ t a, Kept F L t → Kept F L (f t a)) : Kept F L (l.foldl f s0) := by
  induction l generalizing s0 with
  | nil => exact h0
  | cons a r ih => exact ih (hf _ a h0)
theorem kept_foldl_fst {α β : Type} {f : State × β → α → State × β} {l : List α} {s0 : State × β} (h0 : Kept F L s0.1)
    (hf : ∀ t a, Kept F L t.1 → Kept F L (f t a).1) : Kept F L (l.foldl f s0).1 := by
  induction l generalizing s0 with
  | nil => exact h0
  | cons a r ih => exact ih (hf _ a h0)
theorem kept_foldl_ff {α β γ : Type} {f : (State × β) × γ → α → (State × β) × γ} {l : List α} {s0 : (State × β) × γ} (h0 : Kept F L s0.1.1)
    (hf : ∀ t a, Kept F L t.1.1 → Kept F L (f t a).1.1) : Kept F L (l.foldl f s0).1.1 := by
  induction l generalizing s0 with
  | nil => exact h0
  | cons a r ih => exact ih (hf _ a h0)
theorem kept_ite_ff {β γ : Type} {c : Prop} [Decidable c] {a b : (State × β) × γ} (ha : c → Kept F L a.1.1) (hb : ¬c → Kept F L b.1.1) :
    Kept F L (if c then a else b).1.1 := by
  split
  · exact ha ‹_›
  · exact hb ‹_›
theorem kept_ite {c : Prop} [Decidable c] {a b : State} (ha : c → Kept F L a) (hb : ¬c → Kept F L b) : Kept F L (if c then a else b) := by
  split
  · exact ha ‹_›
  · exact hb ‹_›
theorem kept_ite_fst {β : Type} {c : Prop} [Decidable c] {a b : State × β} (ha : c → Kept F L a.1) (hb : ¬c → Kept F L b.1) :
    Kept F L (if c then a else b).1 := by
  split
  · exact ha ‹_›
  · exact hb ‹_›
theorem die_ite {c : Prop} [Decidable c] {a b : Die} (ha : c → a.Canonical) (hb : ¬c → b.Canonical) : (if c then a else b).Canonical := by
  split
  · exact ha ‹_›
  · exact hb ‹_›
theorem part_ite {c : Prop} [Decidable c] {a b : Part} (ha : c → a.Canonical) (hb : ¬c → b.Canonical) : (if c then a else b).Canonical := by
  split
  · exact ha ‹_›
  · exact hb ‹_›
theorem place_ite {c : Prop} [Decidable c] {a b : Place} (ha : c → Memory.wf a.mem = true) (hb : ¬c → Memory.wf b.mem = true) :
    Memory.wf (if c then a else b).mem = true := by
  split
  · exact ha ‹_›
  · exact hb ‹_›
/-- A memory that ends an if. -/
theorem wf_ite {c : Prop} [Decidable c] {a b : List Host.Cell} (ha : c → Memory.wf a = true) (hb : ¬c → Memory.wf b = true) :
    Memory.wf (if c then a else b) = true := by
  split
  · exact ha ‹_›
  · exact hb ‹_›
theorem sget_filter {α : Type} {d : α} {l : SMap α} {f : Nat → Bool} {k : Nat} :
    sget d (l.filter (fun e => f e.1)) k = if f k then sget d l k else d := by
  induction l with
  | nil => simp [sget]
  | cons e r ih =>
    obtain ⟨a, v⟩ := e
    by_cases hk : a = k
    · subst hk
      by_cases he : f a = true
      · simp [he, sget]
      · rw [List.filter_cons_of_neg (by simpa using he), ih]; simp [he]
    · by_cases he : f a = true
      · simp only [List.filter_cons, he, if_true, sget, hk, if_false]; exact ih
      · rw [List.filter_cons_of_neg (by simpa using he), ih]; simp [sget, hk]
theorem Die.canonical_reset : Die.reset.Canonical := ⟨rfl, rfl, fun _ => rfl⟩
/-- Units that lose their state stand as at reset. -/
theorem kept_dark (h : Kept F L s) {f g : Nat → Bool} {n : SMap Nat} :
    Kept F L { s with dies := s.dies.filter (fun e => f e.1), mds := s.mds.filter (fun e => g e.1), regs := n } := by
  refine ⟨h.fuses, h.log, ⟨?_, ?_, h.mem.parts, h.mem.att⟩⟩
  · intro d
    show (sget Die.reset (s.dies.filter (fun e => f e.1)) d).Canonical
    rw [sget_filter]
    split
    · exact h.mem.dies d
    · exact Die.canonical_reset
  · intro m
    show Memory.wf (sget default (s.mds.filter (fun e => g e.1)) m).mem = true
    rw [sget_filter]
    split
    · exact h.mem.hbm m
    · rfl

end Sys2Proof.Machine
end

