-- ==== Sys2Proof/Laws/KeptOps.lean ====
section
/-! SUPPORT. What the operations of Machine/Ops.lean keep. -/

namespace Sys2Proof.Machine

theorem auto_cutRuns {x : Die} {p c : Nat} (h : x.Canonical) : (x.cutRuns p c).Canonical := by
  unfold Die.cutRuns
  dsimp only
  split
  · exact h
  · split <;> exact h
theorem auto_flipBytes {m : List Host.Cell} {a n v : Nat} (h : Memory.wf m = true) : Memory.wf (flipBytes m a n v) = true := Memory.wf_writeBytes _ _ h

theorem kept_raise {F : Fuses} {L : List Knot} {s : State} (h : Kept F L s) (node : Nat) (code : Nat) (unit : Nat) (data : Nat) :
    Kept F L (State.raise s node code unit data) := by
  unfold State.raise
  try dsimp only
  repeat' first
    | with_reducible assumption
    | with_reducible apply kept_setPcd
    | (with_reducible refine fun _ hx => (?_ : Memory.wf _ = true); exact hx)

theorem kept_raisePart {F : Fuses} {L : List Knot} {s : State} (h : Kept F L s) (node : Nat) (part : Nat) (code : Nat) (unit : Nat) (data : Nat) :
    Kept F L (State.raisePart s node part code unit data) := by
  unfold State.raisePart
  try dsimp only
  repeat' first
    | with_reducible assumption
    | with_reducible apply kept_setPcd
    | (with_reducible refine fun _ hx => (?_ : Memory.wf _ = true); exact hx)

theorem kept_bumpErr {F : Fuses} {L : List Knot} {s : State} (h : Kept F L s) (node : Nat) (off : Nat) (st : Nat) (b : Nat) (n : Nat) :
    Kept F L (State.bumpErr s node off st b n) := by
  unfold State.bumpErr
  try dsimp only
  repeat' first
    | with_reducible assumption
    | with_reducible apply kept_setRg
    | with_reducible apply kept_orRg
    | with_reducible apply kept_raise
    | with_reducible apply kept_ite
    | with_reducible intro _

theorem kept_bumpPerf {F : Fuses} {L : List Knot} {s : State} (h : Kept F L s) (node : Nat) (off : Nat) (n : Nat) :
    Kept F L (State.bumpPerf s node off n) := by
  unfold State.bumpPerf
  try dsimp only
  repeat' first
    | with_reducible assumption
    | with_reducible apply kept_setRg
    | with_reducible apply kept_ite
    | with_reducible intro _

theorem kept_arith {F : Fuses} {L : List Knot} {s : State} (h : Kept F L s) (d : Nat) (x : Stat) :
    Kept F L (State.arith s d x) := by
  unfold State.arith
  try dsimp only
  repeat' first
    | with_reducible assumption
    | with_reducible apply kept_orRg
    | with_reducible apply kept_bumpErr
    | with_reducible apply kept_ite
    | with_reducible intro _

theorem kept_setPend {F : Fuses} {L : List Knot} {s : State} (h : Kept F L s) (d : Nat) (p : Nat) :
    Kept F L (State.setPend s d p) := by
  unfold State.setPend
  try dsimp only
  repeat' first
    | with_reducible assumption
    | with_reducible apply kept_modDie
    | with_reducible refine fun x hx => (?_ : Die.Canonical _)
    | exact (hx : Die.Canonical x)

theorem kept_haltPlace {F : Fuses} {L : List Knot} {s : State} (h : Kept F L s) (d : Nat) (p : Nat) :
    Kept F L (State.haltPlace s d p) := by
  unfold State.haltPlace
  try dsimp only
  repeat' first
    | with_reducible assumption
    | with_reducible apply kept_modPlace
    | with_reducible apply kept_modDie
    | with_reducible apply kept_setPend
    | with_reducible apply kept_ite
    | (with_reducible refine fun _ hx => (?_ : Memory.wf _ = true); exact hx)
    | with_reducible refine fun x hx => (?_ : Die.Canonical _)
    | with_reducible apply auto_cutRuns
    | with_reducible intro _

theorem kept_stopFaults {F : Fuses} {L : List Knot} {s : State} (h : Kept F L s) (d : Nat) (p : Nat) (c : Nat) (rd : Nat) :
    Kept F L (State.stopFaults s d p c rd) := by
  unfold State.stopFaults
  try dsimp only
  repeat' first
    | with_reducible assumption
    | with_reducible apply kept_modPlace
    | with_reducible apply kept_modDie
    | with_reducible apply kept_setSc
    | with_reducible apply kept_setPcd
    | (with_reducible refine fun _ hx => (?_ : Memory.wf _ = true); exact hx)
    | with_reducible refine fun x hx => (?_ : Die.Canonical _)
    | with_reducible apply auto_cutRuns

theorem kept_faultHalt {F : Fuses} {L : List Knot} {s : State} (h : Kept F L s) (d : Nat) (p : Nat) :
    Kept F L (State.faultHalt s d p) := by
  unfold State.faultHalt
  try dsimp only
  repeat' first
    | with_reducible assumption
    | with_reducible apply kept_stopFaults
    | with_reducible apply kept_haltPlace
    | with_reducible apply kept_modPlace
    | with_reducible apply kept_ite
    | (with_reducible refine fun _ hx => (?_ : Memory.wf _ = true); exact hx)
    | with_reducible intro _
    | split

theorem kept_haltAll {F : Fuses} {L : List Knot} {s : State} (h : Kept F L s) (d : Nat) :
    Kept F L (State.haltAll s d) := by
  unfold State.haltAll
  try dsimp only
  repeat' first
    | with_reducible assumption
    | with_reducible apply kept_faultHalt
    | with_reducible apply kept_foldl
    | (with_reducible intro _ _ _; try dsimp only)

theorem kept_mcFaultAt {F : Fuses} {L : List Knot} {s : State} (h : Kept F L s) (d : Nat) (c : Nat) (turn : Nat) (cmd : Nat) (kind : Nat) (cause : Nat) (row : Nat) (diff : Nat) (tol : Nat) (code : Nat) (unit : Nat) :
    Kept F L (State.mcFaultAt s d c turn cmd kind cause row diff tol code unit) := by
  unfold State.mcFaultAt
  try dsimp only
  repeat' first
    | with_reducible assumption
    | with_reducible apply kept_faultHalt
    | with_reducible apply kept_setRg
    | with_reducible apply kept_modDie
    | with_reducible apply kept_raise
    | with_reducible apply kept_ite
    | with_reducible refine fun x hx => (?_ : Die.Canonical _)
    | exact (hx : Die.Canonical x)
    | with_reducible intro _

theorem kept_mcFault {F : Fuses} {L : List Knot} {s : State} (h : Kept F L s) (d : Nat) (c : Nat) (kind : Nat) (cause : Nat) (row : Nat) (diff : Nat) (tol : Nat) (code : Nat) (unit : Nat) :
    Kept F L (State.mcFault s d c kind cause row diff tol code unit) := by
  unfold State.mcFault
  try dsimp only
  repeat' first
    | with_reducible assumption
    | with_reducible apply kept_mcFaultAt

theorem kept_mcCmdFault {F : Fuses} {L : List Knot} {s : State} (h : Kept F L s) (d : Nat) (c : Nat) (cause : Nat) (row : Nat) :
    Kept F L (State.mcCmdFault s d c cause row) := by
  unfold State.mcCmdFault
  try dsimp only
  repeat' first
    | with_reducible assumption
    | with_reducible apply kept_mcFault

theorem kept_scrFaultAt {F : Fuses} {L : List Knot} {s : State} (h : Kept F L s) (d : Nat) (turn : Nat) (cmd : Nat) (kind : Nat) (cause : Nat) (index : Nat) (code : Nat) (unit : Nat) :
    Kept F L (State.scrFaultAt s d turn cmd kind cause index code unit) := by
  unfold State.scrFaultAt
  try dsimp only
  repeat' first
    | with_reducible assumption
    | with_reducible apply kept_faultHalt
    | with_reducible apply kept_setRg
    | with_reducible apply kept_raise
    | with_reducible apply kept_ite
    | with_reducible intro _

theorem kept_scrFault {F : Fuses} {L : List Knot} {s : State} (h : Kept F L s) (d : Nat) (kind : Nat) (cause : Nat) (index : Nat) (code : Nat) (unit : Nat) :
    Kept F L (State.scrFault s d kind cause index code unit) := by
  unfold State.scrFault
  try dsimp only
  repeat' first
    | with_reducible assumption
    | with_reducible apply kept_scrFaultAt

theorem kept_scrCmdFault {F : Fuses} {L : List Knot} {s : State} (h : Kept F L s) (d : Nat) (cause : Nat) (index : Nat) :
    Kept F L (State.scrCmdFault s d cause index) := by
  unfold State.scrCmdFault
  try dsimp only
  repeat' first
    | with_reducible assumption
    | with_reducible apply kept_scrFault

theorem kept_vcFault {F : Fuses} {L : List Knot} {s : State} (h : Kept F L s) (d : Nat) (v : Nat) (kind : Nat) (cause : Nat) (reg : Nat) (code : Nat) (unit : Nat) :
    Kept F L (State.vcFault s d v kind cause reg code unit) := by
  unfold State.vcFault
  try dsimp only
  repeat' first
    | with_reducible assumption
    | with_reducible apply kept_faultHalt
    | with_reducible apply kept_setRg
    | with_reducible apply kept_raise
    | with_reducible apply kept_ite
    | with_reducible intro _

theorem kept_vcCmdFault {F : Fuses} {L : List Knot} {s : State} (h : Kept F L s) (d : Nat) (v : Nat) (cause : Nat) :
    Kept F L (State.vcCmdFault s d v cause) := by
  unfold State.vcCmdFault
  try dsimp only
  repeat' first
    | with_reducible assumption
    | with_reducible apply kept_vcFault

theorem kept_spadRecord {F : Fuses} {L : List Knot} {s : State} (h : Kept F L s) (d : Nat) (kind : Nat) (bank : Nat) (a : Nat) (b : Nat) (addr : Nat) :
    Kept F L (State.spadRecord s d kind bank a b addr) := by
  unfold State.spadRecord
  try dsimp only
  repeat' first
    | with_reducible assumption
    | with_reducible apply kept_setRg
    | with_reducible apply kept_ite
    | with_reducible intro _

theorem kept_plRecord {F : Fuses} {L : List Knot} {s : State} (h : Kept F L s) (d : Nat) (kind : Nat) (place : Nat) (slot : Nat) (cause : Nat) (lane : Nat) (entry : Nat) :
    Kept F L (State.plRecord s d kind place slot cause lane entry) := by
  unfold State.plRecord
  try dsimp only
  repeat' first
    | with_reducible assumption
    | with_reducible apply kept_setRg
    | with_reducible apply kept_ite
    | with_reducible intro _

end Sys2Proof.Machine
end

