-- ==== Sys2Proof/Laws/KeptOperands.lean ====
section
/-! SUPPORT. What the operations of Machine/Operands.lean keep. -/

namespace Sys2Proof.Machine

theorem auto_draws {x : Die} (h : x.Canonical) {c : Nat} {lanes : List Nat} : (x.draws c lanes).1.Canonical := by
  unfold Die.draws
  dsimp only
  generalize sortUniq (lanes.map (· / 4)) = gs
  suffices ∀ y : Die, y.Canonical → (gs.foldl (fun d g => { d with gens := sput d.gens (16 * c + g) (xorshift (d.gen c g)) }) y).Canonical from this x h
  induction gs with
  | nil => exact fun y hy => hy
  | cons a r ih => exact fun y hy => ih _ hy

theorem kept_drawsFor {F : Fuses} {L : List Knot} {s : State} (h : Kept F L s) (d : Nat) (c : Nat) (mode : Nat) (lanes : List Nat) :
    Kept F L (State.drawsFor s d c mode lanes).1 := by
  unfold State.drawsFor
  try dsimp only
  repeat' first
    | with_reducible assumption
    | with_reducible apply kept_setDie
    | with_reducible apply kept_ite_fst
    | with_reducible apply auto_draws
    | with_reducible refine Kept.die (F := F) (L := L) ?_ _
    | dsimp only
    | with_reducible intro _

theorem kept_spadBad {F : Fuses} {L : List Knot} {s : State} (h : Kept F L s) (d : Nat) (port : Nat) (addr : Nat) (byPlace : Bool) :
    Kept F L (State.spadBad s d port addr byPlace) := by
  unfold State.spadBad
  try dsimp only
  repeat' first
    | with_reducible assumption
    | with_reducible apply kept_haltAll
    | with_reducible apply kept_spadRecord
    | with_reducible apply kept_raise
    | with_reducible apply kept_ite
    | with_reducible intro _

theorem kept_spadCorr {F : Fuses} {L : List Knot} {s : State} (h : Kept F L s) (d : Nat) (addr : Nat) :
    Kept F L (State.spadCorr s d addr) := by
  unfold State.spadCorr
  try dsimp only
  repeat' first
    | with_reducible assumption
    | with_reducible apply kept_bumpErr
    | with_reducible apply kept_modDie
    | with_reducible apply die_ite
    | with_reducible refine fun x hx => (?_ : Die.Canonical _)
    | exact (hx : Die.Canonical x)
    | with_reducible intro _

theorem kept_spadCheckWord {F : Fuses} {L : List Knot} {s : State} (h : Kept F L s) (d : Nat) (addr : Nat) :
    Kept F L (State.spadCheckWord s d addr).1 := by
  unfold State.spadCheckWord
  try dsimp only
  repeat' first
    | with_reducible assumption
    | with_reducible apply kept_modDie
    | with_reducible apply kept_spadCorr
    | with_reducible apply kept_ite
    | with_reducible refine fun x hx => (?_ : Die.Canonical _)
    | exact (hx : Die.Canonical x).1
    | exact (hx : Die.Canonical x).2.1
    | exact (hx : Die.Canonical x).2.2
    | with_reducible apply auto_flipBytes
    | with_reducible refine Die.canonical_mk ?_ ?_ ?_
    | with_reducible intro _
    | split

theorem kept_spadCheckLines {F : Fuses} {L : List Knot} {s : State} (h : Kept F L s) (d : Nat) (lines : List Nat) :
    Kept F L (State.spadCheckLines s d lines).1 := by
  unfold State.spadCheckLines
  try dsimp only
  repeat' first
    | with_reducible assumption
    | with_reducible apply kept_spadCheckWord
    | with_reducible apply kept_foldl_fst
    | with_reducible apply kept_ite_fst
    | dsimp only
    | (with_reducible intro _ _ _; try dsimp only)
    | with_reducible intro _

theorem kept_schedule {F : Fuses} {L : List Knot} {s : State} (h : Kept F L s) (d : Nat) (accs : List Acc) :
    Kept F L (State.schedule s d accs).1 := by
  unfold State.schedule
  try dsimp only
  repeat' first
    | with_reducible assumption
    | with_reducible apply kept_haltAll
    | with_reducible apply kept_spadRecord
    | with_reducible apply kept_raise
    | with_reducible apply kept_modDie
    | with_reducible apply kept_bumpPerf
    | with_reducible refine fun x hx => (?_ : Die.Canonical _)
    | exact (hx : Die.Canonical x)
    | split

theorem kept_schedRead {F : Fuses} {L : List Knot} {s : State} (h : Kept F L s) (d : Nat) (accs : List Acc) :
    Kept F L (State.schedRead s d accs).1 := by
  unfold State.schedRead
  try dsimp only
  repeat' first
    | with_reducible assumption
    | with_reducible apply kept_schedule
    | with_reducible apply kept_spadCheckLines
    | with_reducible apply kept_spadBad
    | with_reducible apply kept_ite_fst
    | with_reducible intro _
    | split

theorem kept_spadSetWord {F : Fuses} {L : List Knot} {s : State} (h : Kept F L s) (d : Nat) (addr : Nat) (mask : Nat) (v : Nat) :
    Kept F L (State.spadSetWord s d addr mask v) := by
  unfold State.spadSetWord
  try dsimp only
  repeat' first
    | with_reducible assumption
    | with_reducible apply kept_modDie
    | with_reducible refine fun x hx => (?_ : Die.Canonical _)
    | with_reducible apply Memory.wf_writeBytes
    | exact (hx : Die.Canonical x).1
    | exact (hx : Die.Canonical x).2.1
    | exact (hx : Die.Canonical x).2.2
    | with_reducible refine Die.canonical_mk ?_ ?_ ?_

theorem kept_spadMerge {F : Fuses} {L : List Knot} {s : State} (h : Kept F L s) (d : Nat) (ws : List (Nat × Nat × Nat)) :
    Kept F L (State.spadMerge s d ws).1 := by
  unfold State.spadMerge
  try dsimp only
  repeat' first
    | with_reducible assumption
    | with_reducible apply kept_spadCheckWord
    | with_reducible apply kept_foldl_fst
    | with_reducible apply kept_ite_fst
    | dsimp only
    | (with_reducible intro _ _ _; try dsimp only)
    | with_reducible intro _

theorem kept_spadStore {F : Fuses} {L : List Knot} {s : State} (h : Kept F L s) (d : Nat) (port : Nat) (addr : Nat) (nbits : Nat) (v : Nat) (byPlace : Bool) :
    Kept F L (State.spadStore s d port addr nbits v byPlace) := by
  unfold State.spadStore
  try dsimp only
  repeat' first
    | with_reducible assumption
    | with_reducible apply kept_spadMerge
    | with_reducible apply kept_spadBad
    | with_reducible apply kept_spadSetWord
    | with_reducible apply kept_foldl
    | (with_reducible intro _ _ _; try dsimp only)

theorem kept_spadStoreBytes {F : Fuses} {L : List Knot} {s : State} (h : Kept F L s) (d : Nat) (port : Nat) (addr : Nat) (bs : List Byte) (byPlace : Bool) :
    Kept F L (State.spadStoreBytes s d port addr bs byPlace) := by
  unfold State.spadStoreBytes
  try dsimp only
  repeat' first
    | with_reducible assumption
    | with_reducible apply kept_spadStore

theorem kept_laneOut {F : Fuses} {L : List Knot} {s : State} (h : Kept F L s) (d : Nat) (p : Nat) (lane : Nat) (c : Nat) (hdr : Bool) (flits : List (BitVec 512)) :
    Kept F L (State.laneOut s d p lane c hdr flits) := by
  unfold State.laneOut
  try dsimp only
  repeat' first
    | with_reducible assumption
    | with_reducible apply kept_modPlace
    | with_reducible refine fun x hx => (?_ : Memory.wf _ = true)
    | exact (hx : Memory.wf _ = true)

theorem kept_laneRow {F : Fuses} {L : List Knot} {s : State} (h : Kept F L s) (d : Nat) (p : Nat) (lane : Nat) (w : Nat) (addr : Nat) (codes : List Nat) (leave : Nat → Nat) :
    Kept F L (State.laneRow s d p lane w addr codes leave) := by
  unfold State.laneRow
  try dsimp only
  repeat' first
    | with_reducible assumption
    | with_reducible apply kept_laneOut
    | with_reducible apply kept_foldl
    | (with_reducible intro _ _ _; try dsimp only)

theorem kept_putRow {F : Fuses} {L : List Knot} {s : State} (h : Kept F L s) (d : Nat) (p : Nat) (port : Nat) (lane : Nat) (dst : Bool) (w : Nat) (addr : Nat) (codes : List Nat) (saddr : Nat) (scales : List Nat) (leave : Nat → Nat) :
    Kept F L (State.putRow s d p port lane dst w addr codes saddr scales leave) := by
  unfold State.putRow
  try dsimp only
  repeat' first
    | with_reducible assumption
    | with_reducible apply kept_laneRow
    | with_reducible apply kept_spadStore
    | with_reducible apply kept_ite
    | with_reducible intro _

theorem kept_rowOut {F : Fuses} {L : List Knot} {s : State} (h : Kept F L s) (d : Nat) (p : Nat) (port : Nat) (lane : Nat) (dst : Bool) (w : Nat) (addr : Nat) (codes : List Nat) (saddr : Nat) (scales : List Nat) (leave : Nat → Nat) (scLeave : Nat → Nat) :
    Kept F L (State.rowOut s d p port lane dst w addr codes saddr scales leave scLeave).1 := by
  unfold State.rowOut
  try dsimp only
  repeat' first
    | with_reducible assumption
    | with_reducible apply kept_laneRow
    | with_reducible apply kept_ite_fst
    | dsimp only
    | with_reducible intro _

end Sys2Proof.Machine
end

