-- ==== Sys2Proof/Laws/KeptStreams.lean ====
section
/-! SUPPORT. What the operations of Machine/Streams.lean keep. -/

namespace Sys2Proof.Machine

theorem kept_laneTake {F : Fuses} {L : List Knot} {s : State} (h : Kept F L s) (d : Nat) (p : Nat) (lane : Nat) (n : Nat) :
    Kept F L (State.laneTake s d p lane n).1 := by
  unfold State.laneTake
  try dsimp only
  repeat' first
    | with_reducible assumption
    | with_reducible apply kept_modPlace
    | with_reducible refine fun x hx => (?_ : Memory.wf _ = true)
    | exact (hx : Memory.wf _ = true)
    | split

theorem kept_launch {F : Fuses} {L : List Knot} {s : State} (h : Kept F L s) (d : Nat) (p : Nat) (cmd : RunCmd) (late : List (Nat × Late)) :
    Kept F L (State.launch s d p cmd late) := by
  unfold State.launch
  try dsimp only
  repeat' first
    | with_reducible assumption
    | with_reducible apply kept_modDie
    | with_reducible refine fun x hx => (?_ : Die.Canonical _)
    | exact (hx : Die.Canonical x)

theorem kept_lineRead {F : Fuses} {L : List Knot} {s : State} (h : Kept F L s) (d : Nat) (port : Nat) (a : Nat) :
    Kept F L (State.lineRead s d port a).1 := by
  unfold State.lineRead
  try dsimp only
  repeat' first
    | with_reducible assumption
    | with_reducible apply kept_bumpPerf
    | with_reducible apply kept_spadCheckLines
    | with_reducible apply kept_spadBad
    | split

theorem kept_lineTake {F : Fuses} {L : List Knot} {s : State} (h : Kept F L s) (d : Nat) (p : Nat) (src : Bool) (lane : Nat) (port : Nat) (a : Nat) :
    Kept F L (State.lineTake s d p src lane port a).1 := by
  unfold State.lineTake
  try dsimp only
  repeat' first
    | with_reducible assumption
    | with_reducible apply kept_laneTake
    | with_reducible apply kept_lineRead
    | with_reducible apply kept_ite_fst
    | dsimp only
    | with_reducible intro _

end Sys2Proof.Machine
end

