-- ==== Sys2Proof/Laws/KeptMcore.lean ====
section
/-! SUPPORT. What the operations of Machine/Mcore.lean keep. -/

namespace Sys2Proof.Machine

theorem kept_accReadAt {F : Fuses} {L : List Knot} {s : State} (h : Kept F L s) (d : Nat) (c : Nat) (k : Nat) (n : Nat) :
    Kept F L (State.accReadAt s d c k n).1 := by
  unfold State.accReadAt
  try dsimp only
  repeat' first
    | with_reducible assumption
    | with_reducible apply kept_bumpErr
    | with_reducible apply kept_foldl_fst
    | with_reducible apply kept_ite
    | with_reducible apply kept_ite_fst
    | dsimp only
    | (with_reducible intro _ _ _; try dsimp only)
    | with_reducible intro _
    | split

theorem kept_accRead {F : Fuses} {L : List Knot} {s : State} (h : Kept F L s) (d : Nat) (c : Nat) (r : Nat) (n : Nat) :
    Kept F L (State.accRead s d c r n).1 := by
  unfold State.accRead
  try dsimp only
  repeat' first
    | with_reducible assumption
    | with_reducible apply kept_accReadAt

theorem kept_accFault {F : Fuses} {L : List Knot} {s : State} (h : Kept F L s) (d : Nat) (c : Nat) (r : Nat) :
    Kept F L (State.accFault s d c r) := by
  unfold State.accFault
  try dsimp only
  repeat' first
    | with_reducible assumption
    | with_reducible apply kept_mcFault

theorem kept_loadwDo {F : Fuses} {L : List Knot} {s : State} (h : Kept F L s) (d : Nat) (k : Nat) (c : LoadwCmd) (t : Nat) (flits : Option (List Token)) :
    Kept F L (State.loadwDo s d k c t flits) := by
  unfold State.loadwDo
  try dsimp only
  repeat' first
    | with_reducible assumption
    | with_reducible apply kept_schedRead
    | with_reducible apply kept_setMc
    | with_reducible apply kept_ite
    | with_reducible intro _
    | split

theorem kept_loadwGo {F : Fuses} {L : List Knot} {s : State} (h : Kept F L s) (d : Nat) (k : Nat) (c : LoadwCmd) :
    Kept F L (State.loadwGo s d k c) := by
  unfold State.loadwGo
  try dsimp only
  repeat' first
    | with_reducible assumption
    | with_reducible apply kept_setMc
    | with_reducible apply kept_launch

theorem kept_loadw {F : Fuses} {L : List Knot} {s : State} (h : Kept F L s) (d : Nat) (k : Nat) (c : LoadwCmd) (whole : Bool) :
    Kept F L (State.loadw s d k c whole) := by
  unfold State.loadw
  try dsimp only
  repeat' first
    | with_reducible assumption
    | with_reducible apply kept_mcCmdFault
    | with_reducible apply kept_loadwDo
    | with_reducible apply kept_laneTake
    | with_reducible apply kept_loadwGo
    | with_reducible apply kept_ite
    | with_reducible intro _
    | split

theorem kept_loadwStep {F : Fuses} {L : List Knot} {s : State} (h : Kept F L s) (d : Nat) (r : Run) (c : LoadwCmd) (n : Nat) :
    Kept F L (State.loadwStep s d r c n).1 := by
  unfold State.loadwStep
  try dsimp only
  repeat' first
    | with_reducible assumption
    | with_reducible apply kept_lineTake
    | with_reducible apply kept_setMc
    | with_reducible apply kept_ite_fst
    | dsimp only
    | with_reducible intro _
    | split

theorem kept_shadowReadyNow {F : Fuses} {L : List Knot} {s : State} (h : Kept F L s) (d : Nat) (k : Nat) :
    Kept F L (State.shadowReadyNow s d k) := by
  unfold State.shadowReadyNow
  try dsimp only
  repeat' first
    | with_reducible assumption
    | with_reducible apply kept_setMc
    | with_reducible apply kept_ite
    | with_reducible intro _

theorem kept_stream {F : Fuses} {L : List Knot} {s : State} (h : Kept F L s) (d : Nat) (k : Nat) (c : StreamCmd) :
    Kept F L (State.stream s d k c) := by
  unfold State.stream
  try dsimp only
  repeat' first
    | with_reducible assumption
    | with_reducible apply kept_mcCmdFault
    | with_reducible apply kept_setMc
    | with_reducible apply kept_launch
    | with_reducible apply kept_ite
    | with_reducible intro _
    | split

theorem kept_streamStep {F : Fuses} {L : List Knot} {s : State} (h : Kept F L s) (d : Nat) (r : Run) (c : StreamCmd) (t : Tile) (n : Nat) :
    Kept F L (State.streamStep s d r c t n).1 := by
  unfold State.streamStep
  try dsimp only
  repeat' first
    | with_reducible assumption
    | with_reducible apply kept_bumpPerf
    | with_reducible apply kept_lineTake
    | with_reducible apply kept_lineRead
    | with_reducible apply kept_ite_fst
    | dsimp only
    | with_reducible intro _
    | split

theorem kept_resultIn {F : Fuses} {L : List Knot} {s : State} (h : Kept F L s) (d : Nat) (r : Run) (row : Nat) (acc : Bool) (ints : Bool) (bs : List W32) (flags : Nat) (sats : Nat) (last : Bool) :
    Kept F L (State.resultIn s d r row acc ints bs flags sats last) := by
  unfold State.resultIn
  try dsimp only
  repeat' first
    | with_reducible assumption
    | with_reducible apply kept_accRead
    | with_reducible apply kept_mcFaultAt
    | with_reducible apply kept_setMc
    | with_reducible apply kept_arith
    | with_reducible apply kept_bumpPerf
    | with_reducible apply kept_ite
    | with_reducible apply kept_ite_fst
    | dsimp only
    | with_reducible intro _

theorem kept_checkRow {F : Fuses} {L : List Knot} {s : State} (h : Kept F L s) (d : Nat) (r : Run) (m : Nat) (fin : Bool) (dS : W32) (sS : W32) (aS : W32) :
    Kept F L (State.checkRow s d r m fin dS sS aS) := by
  unfold State.checkRow
  try dsimp only
  repeat' first
    | with_reducible assumption
    | with_reducible apply kept_bumpErr
    | with_reducible apply kept_modDie
    | with_reducible apply kept_mcFaultAt
    | with_reducible refine fun x hx => (?_ : Die.Canonical _)
    | exact (hx : Die.Canonical x)
    | split

theorem kept_readoutRow {F : Fuses} {L : List Knot} {s : State} (h : Kept F L s) (d : Nat) (k : Nat) (c : ReadoutCmd) (n : Nat) (turn : Nat) (cmd : Nat) :
    Kept F L (State.readoutRow s d k c n turn cmd).1 := by
  unfold State.readoutRow
  try dsimp only
  repeat' first
    | with_reducible assumption
    | with_reducible apply kept_accRead
    | with_reducible apply kept_mcFaultAt
    | with_reducible apply kept_drawsFor
    | with_reducible apply kept_arith
    | with_reducible apply kept_ite_fst
    | dsimp only
    | with_reducible intro _

theorem kept_readoutDo {F : Fuses} {L : List Knot} {s : State} (h : Kept F L s) (d : Nat) (k : Nat) (c : ReadoutCmd) (t : Nat) :
    Kept F L (State.readoutDo s d k c t) := by
  unfold State.readoutDo
  try dsimp only
  repeat' first
    | with_reducible assumption
    | with_reducible apply kept_schedule
    | with_reducible apply kept_setMc
    | with_reducible apply kept_readoutRow
    | with_reducible apply kept_putRow
    | with_reducible apply kept_foldl_fst
    | with_reducible apply kept_ite
    | with_reducible apply kept_ite_fst
    | (with_reducible intro _ _ _; try dsimp only)
    | with_reducible intro _
    | split

theorem kept_readoutGo {F : Fuses} {L : List Knot} {s : State} (h : Kept F L s) (d : Nat) (k : Nat) (c : ReadoutCmd) :
    Kept F L (State.readoutGo s d k c) := by
  unfold State.readoutGo
  try dsimp only
  repeat' first
    | with_reducible assumption
    | with_reducible apply kept_setMc
    | with_reducible apply kept_launch

theorem kept_readout {F : Fuses} {L : List Knot} {s : State} (h : Kept F L s) (d : Nat) (k : Nat) (c : ReadoutCmd) (whole : Bool) :
    Kept F L (State.readout s d k c whole) := by
  unfold State.readout
  try dsimp only
  repeat' first
    | with_reducible assumption
    | with_reducible apply kept_mcCmdFault
    | with_reducible apply kept_readoutDo
    | with_reducible apply kept_readoutGo
    | with_reducible apply kept_ite
    | with_reducible intro _
    | split

theorem kept_readoutStep {F : Fuses} {L : List Knot} {s : State} (h : Kept F L s) (d : Nat) (r : Run) (c : ReadoutCmd) (n : Nat) :
    Kept F L (State.readoutStep s d r c n).1 := by
  unfold State.readoutStep
  try dsimp only
  repeat' first
    | with_reducible assumption
    | with_reducible apply kept_readoutRow
    | with_reducible apply kept_rowOut
    | with_reducible apply kept_ite_fst
    | dsimp only
    | with_reducible intro _
    | split

theorem kept_zero {F : Fuses} {L : List Knot} {s : State} (h : Kept F L s) (d : Nat) (k : Nat) (c : ZeroCmd) (whole : Bool) :
    Kept F L (State.zero s d k c whole) := by
  unfold State.zero
  try dsimp only
  repeat' first
    | with_reducible assumption
    | with_reducible apply kept_mcCmdFault
    | with_reducible apply kept_setMc
    | with_reducible apply kept_launch
    | with_reducible apply kept_ite
    | with_reducible intro _
    | split

theorem kept_zeroStep {F : Fuses} {L : List Knot} {s : State} (h : Kept F L s) (d : Nat) (r : Run) (c : ZeroCmd) (n : Nat) :
    Kept F L (State.zeroStep s d r c n).1 := by
  unfold State.zeroStep
  try dsimp only
  repeat' first
    | with_reducible assumption

theorem kept_reduceRowsDo {F : Fuses} {L : List Knot} {s : State} (h : Kept F L s) (d : Nat) (k : Nat) (mode : Nat) (c : ReduceCmd) (t : Nat) (inc : List Token) :
    Kept F L (State.reduceRowsDo s d k mode c t inc).1 := by
  unfold State.reduceRowsDo
  try dsimp only
  repeat' first
    | with_reducible assumption
    | with_reducible apply kept_accRead
    | with_reducible apply kept_accFault
    | with_reducible apply kept_arith
    | with_reducible apply kept_setMc
    | with_reducible apply kept_mcCmdFault
    | with_reducible apply kept_foldl_fst
    | with_reducible apply kept_ite_fst
    | dsimp only
    | (with_reducible intro _ _ _; try dsimp only)
    | with_reducible intro _
    | split

theorem kept_reduceDo {F : Fuses} {L : List Knot} {s : State} (h : Kept F L s) (d : Nat) (k : Nat) (mode : Nat) (c : ReduceCmd) (t : Nat) (inc : List Token) :
    Kept F L (State.reduceDo s d k mode c t inc) := by
  unfold State.reduceDo
  try dsimp only
  repeat' first
    | with_reducible assumption
    | with_reducible apply kept_setMc
    | with_reducible apply kept_reduceRowsDo
    | with_reducible apply kept_laneOut
    | with_reducible apply kept_ite
    | with_reducible intro _

theorem kept_reduceGo {F : Fuses} {L : List Knot} {s : State} (h : Kept F L s) (d : Nat) (k : Nat) (mode : Nat) (c : ReduceCmd) :
    Kept F L (State.reduceGo s d k mode c) := by
  unfold State.reduceGo
  try dsimp only
  repeat' first
    | with_reducible assumption
    | with_reducible apply kept_setMc
    | with_reducible apply kept_launch

theorem kept_reduce {F : Fuses} {L : List Knot} {s : State} (h : Kept F L s) (d : Nat) (k : Nat) (mode : Nat) (c : ReduceCmd) (whole : Bool) :
    Kept F L (State.reduce s d k mode c whole) := by
  unfold State.reduce
  try dsimp only
  repeat' first
    | with_reducible assumption
    | with_reducible apply kept_mcCmdFault
    | with_reducible apply kept_reduceGo
    | with_reducible apply kept_reduceDo
    | with_reducible apply kept_laneTake
    | with_reducible apply kept_ite
    | with_reducible intro _
    | split

theorem kept_reduceBegin {F : Fuses} {L : List Knot} {s : State} (h : Kept F L s) (d : Nat) (r : Run) (mode : Nat) (c : ReduceCmd) :
    Kept F L (State.reduceBegin s d r mode c).1 := by
  unfold State.reduceBegin
  try dsimp only
  repeat' first
    | with_reducible assumption
    | with_reducible apply kept_mcFaultAt
    | with_reducible apply kept_laneTake
    | with_reducible apply kept_laneOut
    | with_reducible apply kept_ite
    | with_reducible apply kept_ite_fst
    | dsimp only
    | with_reducible intro _
    | split

theorem kept_reduceFlit {F : Fuses} {L : List Knot} {s : State} (h : Kept F L s) (d : Nat) (r : Run) (mode : Nat) (c : ReduceCmd) (n : Nat) :
    Kept F L (State.reduceFlit s d r mode c n).1 := by
  unfold State.reduceFlit
  try dsimp only
  repeat' first
    | with_reducible assumption
    | with_reducible apply kept_accReadAt
    | with_reducible apply kept_mcFaultAt
    | with_reducible apply kept_laneTake
    | with_reducible apply kept_arith
    | with_reducible apply kept_laneOut
    | with_reducible apply kept_ite_fst
    | dsimp only
    | with_reducible intro _

theorem kept_reduceStep {F : Fuses} {L : List Knot} {s : State} (h : Kept F L s) (d : Nat) (r : Run) (mode : Nat) (c : ReduceCmd) (n : Nat) :
    Kept F L (State.reduceStep s d r mode c n).1 := by
  unfold State.reduceStep
  try dsimp only
  repeat' first
    | with_reducible assumption
    | with_reducible apply kept_reduceBegin
    | with_reducible apply kept_reduceFlit
    | with_reducible apply kept_ite_fst
    | dsimp only
    | with_reducible intro _

theorem kept_mcNop {F : Fuses} {L : List Knot} {s : State} (h : Kept F L s) (d : Nat) (k : Nat) (rsv : Bool) :
    Kept F L (State.mcNop s d k rsv) := by
  unfold State.mcNop
  try dsimp only
  repeat' first
    | with_reducible assumption
    | with_reducible apply kept_mcCmdFault
    | with_reducible apply kept_ite
    | with_reducible intro _

end Sys2Proof.Machine
end

