-- ==== Sys2Proof/Laws/KeptScraper.lean ====
section
/-! SUPPORT. What the operations of Machine/Scraper.lean keep. -/

namespace Sys2Proof.Machine

theorem kept_slotRead {F : Fuses} {L : List Knot} {s : State} (h : Kept F L s) (d : Nat) (i : Nat) :
    Kept F L (State.slotRead s d i).1 := by
  unfold State.slotRead
  try dsimp only
  repeat' first
    | with_reducible assumption
    | with_reducible apply kept_bumpErr
    | with_reducible apply kept_foldl_fst
    | with_reducible apply kept_ite
    | with_reducible apply kept_ite_fst
    | dsimp only
    | (with_reducible intro _ _ _; try dsimp only)
    | with_reducible intro _
    | split

theorem kept_slotFault {F : Fuses} {L : List Knot} {s : State} (h : Kept F L s) (d : Nat) (i : Nat) :
    Kept F L (State.slotFault s d i) := by
  unfold State.slotFault
  try dsimp only
  repeat' first
    | with_reducible assumption
    | with_reducible apply kept_scrFault

theorem kept_slotReads {F : Fuses} {L : List Knot} {s : State} (h : Kept F L s) (d : Nat) (first : Nat) (n : Nat) :
    Kept F L (State.slotReads s d first n).1 := by
  unfold State.slotReads
  try dsimp only
  repeat' first
    | with_reducible assumption
    | with_reducible apply kept_slotRead
    | with_reducible apply kept_foldl_fst
    | dsimp only
    | (with_reducible intro _ _ _; try dsimp only)

theorem kept_rowEval {F : Fuses} {L : List Knot} {s : State} (h : Kept F L s) (d : Nat) (op : Nat) (c : RowCmd) (w : RowSet) (m : Nat) (ri : RowIn) :
    Kept F L (State.rowEval s d op c w m ri).1 := by
  unfold State.rowEval
  try dsimp only
  repeat' first
    | with_reducible assumption
    | with_reducible apply kept_slotRead
    | with_reducible apply kept_slotReads
    | with_reducible apply kept_modDie
    | with_reducible apply kept_arith
    | with_reducible apply kept_ite_fst
    | with_reducible refine fun x hx => (?_ : Die.Canonical _)
    | exact (hx : Die.Canonical x).1
    | exact (hx : Die.Canonical x).2.1
    | exact (hx : Die.Canonical x).2.2 _
    | with_reducible refine Die.canonical_mk ?_ ?_ ?_
    | dsimp only
    | with_reducible intro _
    | split

theorem kept_rowStep {F : Fuses} {L : List Knot} {s : State} (h : Kept F L s) (d : Nat) (op : Nat) (c : RowCmd) (t : Nat) (m : Nat) (start : Nat) (flits : Option (List Token)) :
    Kept F L (State.rowStep s d op c t m start flits).1 := by
  unfold State.rowStep
  try dsimp only
  repeat' first
    | with_reducible assumption
    | with_reducible apply kept_scrCmdFault
    | with_reducible apply kept_rowEval
    | with_reducible apply kept_slotFault
    | with_reducible apply kept_putRow
    | with_reducible apply kept_bumpPerf
    | with_reducible apply kept_ite_fst
    | dsimp only
    | with_reducible intro _
    | split

theorem kept_rowDo {F : Fuses} {L : List Knot} {s : State} (h : Kept F L s) (d : Nat) (op : Nat) (c : RowCmd) (t : Nat) (flits : Option (List Token)) :
    Kept F L (State.rowDo s d op c t flits) := by
  unfold State.rowDo
  try dsimp only
  repeat' first
    | with_reducible assumption
    | with_reducible apply kept_schedRead
    | with_reducible apply kept_setScr
    | with_reducible apply kept_bumpPerf
    | with_reducible apply kept_rowStep
    | with_reducible apply kept_ite
    | with_reducible apply kept_foldl_ff
    | with_reducible apply kept_ite_ff
    | dsimp only
    | (with_reducible intro _ _ _; try dsimp only)
    | with_reducible intro _

theorem kept_rowGo {F : Fuses} {L : List Knot} {s : State} (h : Kept F L s) (d : Nat) (op : Nat) (c : RowCmd) :
    Kept F L (State.rowGo s d op c) := by
  unfold State.rowGo
  try dsimp only
  repeat' first
    | with_reducible assumption
    | with_reducible apply kept_setScr
    | with_reducible apply kept_launch

theorem kept_rowCmd {F : Fuses} {L : List Knot} {s : State} (h : Kept F L s) (d : Nat) (op : Nat) (c : RowCmd) (whole : Bool) :
    Kept F L (State.rowCmd s d op c whole) := by
  unfold State.rowCmd
  try dsimp only
  repeat' first
    | with_reducible assumption
    | with_reducible apply kept_scrCmdFault
    | with_reducible apply kept_rowDo
    | with_reducible apply kept_laneTake
    | with_reducible apply kept_rowGo
    | with_reducible apply kept_ite
    | with_reducible intro _
    | split

theorem kept_bufRead {F : Fuses} {L : List Knot} {s : State} (h : Kept F L s) (d : Nat) (err : Nat → Nat) (val : Nat → W32) (ws : List Nat) :
    Kept F L (State.bufRead s d err val ws).1 := by
  unfold State.bufRead
  try dsimp only
  repeat' first
    | with_reducible assumption
    | with_reducible apply kept_bumpErr
    | with_reducible apply kept_foldl_fst
    | with_reducible apply kept_ite
    | (with_reducible intro _ _ _; try dsimp only)
    | with_reducible intro _
    | split

theorem kept_rowBuf {F : Fuses} {L : List Knot} {s : State} (h : Kept F L s) (d : Nat) (op : Nat) (c : RowCmd) (w : RowSet) (m : Nat) :
    Kept F L (State.rowBuf s d op c w m).1 := by
  unfold State.rowBuf
  try dsimp only
  repeat' first
    | with_reducible assumption
    | with_reducible apply kept_bufRead
    | with_reducible apply kept_ite_fst
    | dsimp only
    | with_reducible intro _

theorem kept_rowFinish {F : Fuses} {L : List Knot} {s : State} (h : Kept F L s) (d : Nat) (r : Run) (op : Nat) (c : RowCmd) (w : RowSet) (m : Nat) (start : Nat) :
    Kept F L (State.rowFinish s d r op c w m start).1 := by
  unfold State.rowFinish
  try dsimp only
  repeat' first
    | with_reducible assumption
    | with_reducible apply kept_rowBuf
    | with_reducible apply kept_scrFaultAt
    | with_reducible apply kept_rowEval
    | with_reducible apply kept_rowOut
    | with_reducible apply kept_ite_fst
    | dsimp only
    | with_reducible intro _
    | split

theorem kept_rowCycle {F : Fuses} {L : List Knot} {s : State} (h : Kept F L s) (d : Nat) (r : Run) (op : Nat) (c : RowCmd) (w : RowSet) (m : Nat) (start : Nat) (o : Nat) :
    Kept F L (State.rowCycle s d r op c w m start o).1 := by
  unfold State.rowCycle
  try dsimp only
  repeat' first
    | with_reducible assumption
    | with_reducible apply kept_scrFaultAt
    | with_reducible apply kept_lineTake
    | with_reducible apply kept_setScr
    | with_reducible apply kept_rowFinish
    | with_reducible apply kept_bumpPerf
    | with_reducible apply kept_foldl
    | with_reducible apply kept_ite
    | with_reducible apply kept_ite_fst
    | dsimp only
    | (with_reducible intro _ _ _; try dsimp only)
    | with_reducible intro _
    | split

theorem kept_rowRun {F : Fuses} {L : List Knot} {s : State} (h : Kept F L s) (d : Nat) (r : Run) (op : Nat) (c : RowCmd) (w : RowSet) (n : Nat) :
    Kept F L (State.rowRun s d r op c w n).1 := by
  unfold State.rowRun
  try dsimp only
  repeat' first
    | with_reducible assumption
    | with_reducible apply kept_bumpPerf
    | with_reducible apply kept_lineRead
    | with_reducible apply kept_setScr
    | with_reducible apply kept_rowCycle
    | with_reducible apply kept_ite
    | with_reducible apply kept_ite_fst
    | with_reducible intro _
    | split

theorem kept_smoveDo {F : Fuses} {L : List Knot} {s : State} (h : Kept F L s) (d : Nat) (dir : Nat) (c : SmoveCmd) (t : Nat) :
    Kept F L (State.smoveDo s d dir c t) := by
  unfold State.smoveDo
  try dsimp only
  repeat' first
    | with_reducible assumption
    | with_reducible apply kept_schedRead
    | with_reducible apply kept_schedule
    | with_reducible apply kept_setScr
    | with_reducible apply kept_bumpPerf
    | with_reducible apply kept_slotReads
    | with_reducible apply kept_slotFault
    | with_reducible apply kept_spadStoreBytes
    | with_reducible apply kept_ite
    | with_reducible apply kept_ite_fst
    | with_reducible intro _
    | split

theorem kept_smove {F : Fuses} {L : List Knot} {s : State} (h : Kept F L s) (d : Nat) (dir : Nat) (c : SmoveCmd) (whole : Bool) :
    Kept F L (State.smove s d dir c whole) := by
  unfold State.smove
  try dsimp only
  repeat' first
    | with_reducible assumption
    | with_reducible apply kept_scrCmdFault
    | with_reducible apply kept_smoveDo
    | with_reducible apply kept_setScr
    | with_reducible apply kept_launch
    | with_reducible apply kept_ite
    | with_reducible intro _
    | split

theorem kept_smoveStep {F : Fuses} {L : List Knot} {s : State} (h : Kept F L s) (d : Nat) (r : Run) (dir : Nat) (c : SmoveCmd) (n : Nat) :
    Kept F L (State.smoveStep s d r dir c n).1 := by
  unfold State.smoveStep
  try dsimp only
  repeat' first
    | with_reducible assumption
    | with_reducible apply kept_bumpPerf
    | with_reducible apply kept_slotReads
    | with_reducible apply kept_scrFaultAt
    | with_reducible apply kept_lineRead
    | with_reducible apply kept_ite
    | with_reducible apply kept_ite_fst
    | dsimp only
    | with_reducible intro _
    | split

theorem kept_setup {F : Fuses} {L : List Knot} {s : State} (h : Kept F L s) (d : Nat) (c : SetupCmd) :
    Kept F L (State.setup s d c) := by
  unfold State.setup
  try dsimp only
  repeat' first
    | with_reducible assumption
    | with_reducible apply kept_scrCmdFault
    | with_reducible apply kept_setScr
    | with_reducible apply kept_ite
    | with_reducible intro _

theorem kept_scrNop {F : Fuses} {L : List Knot} {s : State} (h : Kept F L s) (d : Nat) (rsv : Bool) :
    Kept F L (State.scrNop s d rsv) := by
  unfold State.scrNop
  try dsimp only
  repeat' first
    | with_reducible assumption
    | with_reducible apply kept_scrCmdFault
    | with_reducible apply kept_ite
    | with_reducible intro _

end Sys2Proof.Machine
end

