-- ==== Sys2Proof/Laws/KeptVcore.lean ====
section
/-! SUPPORT. What the operations of Machine/Vcore.lean keep. -/

namespace Sys2Proof.Machine

theorem kept_vCheck {F : Fuses} {L : List Knot} {s : State} (h : Kept F L s) (d : Nat) (v : Nat) (rs : List Nat) :
    Kept F L (State.vCheck s d v rs).1 := by
  unfold State.vCheck
  try dsimp only
  repeat' first
    | with_reducible assumption
    | with_reducible apply kept_bumpErr
    | with_reducible apply kept_setVc
    | with_reducible apply kept_foldl_fst
    | with_reducible apply kept_ite
    | with_reducible apply kept_ite_fst
    | dsimp only
    | (with_reducible intro _ _ _; try dsimp only)
    | with_reducible intro _
    | split

theorem kept_vResult {F : Fuses} {L : List Knot} {s : State} (h : Kept F L s) (d : Nat) (v : Nat) (lat : Nat) (m : Nat) (dest : VDest) (r : VRes) :
    Kept F L (State.vResult s d v lat m dest r) := by
  unfold State.vResult
  try dsimp only
  repeat' first
    | with_reducible assumption
    | with_reducible apply kept_setVc
    | with_reducible apply kept_arith
    | with_reducible apply kept_bumpPerf

theorem kept_vArith {F : Fuses} {L : List Knot} {s : State} (h : Kept F L s) (d : Nat) (v : Nat) (op : Nat) (m : Nat) (i : VIns) :
    Kept F L (State.vArith s d v op m i) := by
  unfold State.vArith
  try dsimp only
  repeat' first
    | with_reducible assumption
    | with_reducible apply kept_drawsFor
    | with_reducible apply kept_vResult

theorem kept_vCvt {F : Fuses} {L : List Knot} {s : State} (h : Kept F L s) (d : Nat) (v : Nat) (m : Nat) (i : VIns) :
    Kept F L (State.vCvt s d v m i) := by
  unfold State.vCvt
  try dsimp only
  repeat' first
    | with_reducible assumption
    | with_reducible apply kept_vResult
    | with_reducible apply kept_drawsFor
    | with_reducible apply kept_ite
    | with_reducible intro _

theorem kept_vCvti {F : Fuses} {L : List Knot} {s : State} (h : Kept F L s) (d : Nat) (v : Nat) (m : Nat) (i : VIns) :
    Kept F L (State.vCvti s d v m i) := by
  unfold State.vCvti
  try dsimp only
  repeat' first
    | with_reducible assumption
    | with_reducible apply kept_drawsFor
    | with_reducible apply kept_vResult

theorem kept_vLdi {F : Fuses} {L : List Knot} {s : State} (h : Kept F L s) (d : Nat) (v : Nat) (m : Nat) (i : VIns) :
    Kept F L (State.vLdi s d v m i) := by
  unfold State.vLdi
  try dsimp only
  repeat' first
    | with_reducible assumption
    | with_reducible apply kept_vResult

theorem kept_vCmp {F : Fuses} {L : List Knot} {s : State} (h : Kept F L s) (d : Nat) (v : Nat) (i : VIns) :
    Kept F L (State.vCmp s d v i) := by
  unfold State.vCmp
  try dsimp only
  repeat' first
    | with_reducible assumption
    | with_reducible apply kept_vResult
    | with_reducible apply kept_arith
    | split

theorem kept_vSel {F : Fuses} {L : List Knot} {s : State} (h : Kept F L s) (d : Nat) (v : Nat) (m : Nat) (i : VIns) :
    Kept F L (State.vSel s d v m i) := by
  unfold State.vSel
  try dsimp only
  repeat' first
    | with_reducible assumption
    | with_reducible apply kept_vResult

theorem kept_vInts {F : Fuses} {L : List Knot} {s : State} (h : Kept F L s) (d : Nat) (v : Nat) (op : Nat) (m : Nat) (i : VIns) :
    Kept F L (State.vInts s d v op m i) := by
  unfold State.vInts
  try dsimp only
  repeat' first
    | with_reducible assumption
    | with_reducible apply kept_vResult

theorem kept_vTree {F : Fuses} {L : List Knot} (n : Nat) : ∀ {s : State}, Kept F L s → ∀ (d v : Nat) (i : VIns) (st : Stat) (xs : List (Val × Nat)),
    Kept F L (State.vTree n s d v i st xs).1 := by
  induction n with
  | zero => intro s h d v i st xs; exact h
  | succ n ih => intro s h d v i st xs; unfold State.vTree; exact ih (kept_drawsFor h ..) ..

theorem kept_vRed {F : Fuses} {L : List Knot} {s : State} (h : Kept F L s) (d : Nat) (v : Nat) (op : Nat) (m : Nat) (i : VIns) :
    Kept F L (State.vRed s d v op m i) := by
  unfold State.vRed
  try dsimp only
  repeat' first
    | with_reducible assumption
    | with_reducible apply kept_vTree
    | with_reducible apply kept_vResult
    | with_reducible apply kept_ite_fst
    | dsimp only
    | with_reducible intro _

theorem kept_vBcast {F : Fuses} {L : List Knot} {s : State} (h : Kept F L s) (d : Nat) (v : Nat) (m : Nat) (i : VIns) :
    Kept F L (State.vBcast s d v m i) := by
  unfold State.vBcast
  try dsimp only
  repeat' first
    | with_reducible assumption
    | with_reducible apply kept_vResult
    | with_reducible apply kept_takeFree
    | split

theorem kept_vLoad {F : Fuses} {L : List Knot} {s : State} (h : Kept F L s) (d : Nat) (v : Nat) (i : VIns) (whole : Bool) :
    Kept F L (State.vLoad s d v i whole) := by
  unfold State.vLoad
  try dsimp only
  repeat' first
    | with_reducible assumption
    | with_reducible apply kept_schedRead
    | with_reducible apply kept_setVc
    | with_reducible apply kept_vResult
    | with_reducible apply kept_launch
    | with_reducible apply kept_ite
    | with_reducible intro _

theorem kept_vLoadStep {F : Fuses} {L : List Knot} {s : State} (h : Kept F L s) (d : Nat) (r : Run) (i : VIns) (ln : List Nat) (addr : Nat) (scale : Nat) (n : Nat) :
    Kept F L (State.vLoadStep s d r i ln addr scale n).1 := by
  unfold State.vLoadStep
  try dsimp only
  repeat' first
    | with_reducible assumption
    | with_reducible apply kept_lineRead
    | with_reducible apply kept_vResult
    | with_reducible apply kept_ite_fst
    | dsimp only
    | with_reducible intro _
    | split

theorem kept_vNarrow {F : Fuses} {L : List Knot} {s : State} (h : Kept F L s) (d : Nat) (v : Nat) (i : VIns) (mx : Bool) :
    Kept F L (State.vNarrow s d v i mx).1 := by
  unfold State.vNarrow
  try dsimp only
  repeat' first
    | with_reducible assumption
    | with_reducible apply kept_drawsFor
    | with_reducible apply kept_arith

theorem kept_vStore {F : Fuses} {L : List Knot} {s : State} (h : Kept F L s) (d : Nat) (v : Nat) (i : VIns) (whole : Bool) :
    Kept F L (State.vStore s d v i whole) := by
  unfold State.vStore
  try dsimp only
  repeat' first
    | with_reducible assumption
    | with_reducible apply kept_schedule
    | with_reducible apply kept_vNarrow
    | with_reducible apply kept_setVc
    | with_reducible apply kept_spadStore
    | with_reducible apply kept_launch
    | with_reducible apply kept_foldl
    | with_reducible apply kept_ite
    | with_reducible apply kept_ite_fst
    | dsimp only
    | (with_reducible intro _ _ _; try dsimp only)
    | with_reducible intro _

theorem kept_vSend {F : Fuses} {L : List Knot} {s : State} (h : Kept F L s) (d : Nat) (v : Nat) (i : VIns) :
    Kept F L (State.vSend s d v i) := by
  unfold State.vSend
  try dsimp only
  repeat' first
    | with_reducible assumption
    | with_reducible apply kept_vNarrow
    | with_reducible apply kept_laneOut

theorem kept_vRecv {F : Fuses} {L : List Knot} {s : State} (h : Kept F L s) (d : Nat) (v : Nat) (i : VIns) (whole : Bool) :
    Kept F L (State.vRecv s d v i whole) := by
  unfold State.vRecv
  try dsimp only
  repeat' first
    | with_reducible assumption
    | with_reducible apply kept_laneTake
    | with_reducible apply kept_vResult
    | with_reducible apply kept_launch
    | with_reducible apply kept_ite
    | with_reducible intro _

theorem kept_vRecvStep {F : Fuses} {L : List Knot} {s : State} (h : Kept F L s) (d : Nat) (r : Run) (i : VIns) (n : Nat) :
    Kept F L (State.vRecvStep s d r i n).1 := by
  unfold State.vRecvStep
  try dsimp only
  repeat' first
    | with_reducible assumption
    | with_reducible apply kept_laneTake
    | with_reducible apply kept_vResult
    | with_reducible apply kept_ite_fst
    | dsimp only
    | with_reducible intro _

theorem kept_vEffect {F : Fuses} {L : List Knot} {s : State} (h : Kept F L s) (d : Nat) (v : Nat) (op : Nat) (i : VIns) (whole : Bool) :
    Kept F L (State.vEffect s d v op i whole) := by
  unfold State.vEffect
  try dsimp only
  repeat' first
    | with_reducible assumption
    | with_reducible apply kept_vLoad
    | with_reducible apply kept_vStore
    | with_reducible apply kept_vRecv
    | with_reducible apply kept_vSend
    | with_reducible apply kept_setVc
    | with_reducible apply kept_vArith
    | with_reducible apply kept_vCvt
    | with_reducible apply kept_vCvti
    | with_reducible apply kept_vLdi
    | with_reducible apply kept_vCmp
    | with_reducible apply kept_vSel
    | with_reducible apply kept_vInts
    | with_reducible apply kept_vRed
    | with_reducible apply kept_vBcast
    | with_reducible apply kept_ite
    | with_reducible intro _

theorem kept_vIssue {F : Fuses} {L : List Knot} {s : State} (h : Kept F L s) (d : Nat) (v : Nat) (op : Nat) (i : VIns) (whole : Bool) :
    Kept F L (State.vIssue s d v op i whole) := by
  unfold State.vIssue
  try dsimp only
  repeat' first
    | with_reducible assumption
    | with_reducible apply kept_vcCmdFault
    | with_reducible apply kept_setVc
    | with_reducible apply kept_vCheck
    | with_reducible apply kept_vcFault
    | with_reducible apply kept_vEffect
    | with_reducible apply kept_bumpPerf
    | with_reducible apply kept_ite
    | with_reducible intro _
    | split

theorem kept_aset {F : Fuses} {L : List Knot} {s : State} (h : Kept F L s) (d : Nat) (v : Nat) (ar : BitVec 3) (base : BitVec 32) (stp : BitVec 14) :
    Kept F L (State.aset s d v ar base stp) := by
  unfold State.aset
  try dsimp only
  repeat' first
    | with_reducible assumption
    | with_reducible apply kept_setVc
    | with_reducible apply kept_bumpPerf
    | with_reducible apply kept_ite
    | with_reducible intro _

end Sys2Proof.Machine
end

