-- ==== Sys2Proof/Laws/KeptRuns.lean ====
section
/-! SUPPORT. What the operations of Machine/Runs.lean keep. -/

namespace Sys2Proof.Machine

theorem kept_bankConflict {F : Fuses} {L : List Knot} {s : State} (h : Kept F L s) (d : Nat) (accs : List (Nat × Nat × Nat)) (bad : List Nat) :
    Kept F L (State.bankConflict s d accs bad) := by
  unfold State.bankConflict
  try dsimp only
  repeat' first
    | with_reducible assumption
    | with_reducible apply kept_haltAll
    | with_reducible apply kept_spadRecord
    | with_reducible apply kept_raise
    | split

theorem kept_runStep {F : Fuses} {L : List Knot} {s : State} (h : Kept F L s) (d : Nat) (r : Run) (n : Nat) :
    Kept F L (State.runStep s d r n).1 := by
  unfold State.runStep
  try dsimp only
  repeat' first
    | with_reducible assumption
    | with_reducible apply kept_loadwStep
    | with_reducible apply kept_streamStep
    | with_reducible apply kept_readoutStep
    | with_reducible apply kept_zeroStep
    | with_reducible apply kept_reduceStep
    | with_reducible apply kept_rowRun
    | with_reducible apply kept_smoveStep
    | with_reducible apply kept_vLoadStep
    | with_reducible apply kept_vRecvStep
    | split

theorem kept_runAt {F : Fuses} {L : List Knot} {s : State} (h : Kept F L s) (d : Nat) (u : Nat) (bad : List Nat) (i : Nat) :
    Kept F L (State.runAt s d u bad i) := by
  unfold State.runAt
  try dsimp only
  repeat' first
    | with_reducible assumption
    | with_reducible apply kept_runStep
    | with_reducible apply kept_modDie
    | with_reducible apply kept_ite
    | with_reducible refine fun x hx => (?_ : Die.Canonical _)
    | exact (hx : Die.Canonical x)
    | with_reducible intro _
    | split

theorem kept_sumsClash {F : Fuses} {L : List Knot} {s : State} (h : Kept F L s) (d : Nat) :
    Kept F L (State.sumsClash s d) := by
  unfold State.sumsClash
  try dsimp only
  repeat' first
    | with_reducible assumption
    | with_reducible apply kept_modDie
    | with_reducible apply kept_mcFaultAt
    | with_reducible apply kept_foldl
    | with_reducible refine fun x hx => (?_ : Die.Canonical _)
    | exact (hx : Die.Canonical x)
    | (with_reducible intro _ _ _; try dsimp only)
    | split

theorem kept_lateDo {F : Fuses} {L : List Knot} {s : State} (h : Kept F L s) (d : Nat) (r : Run) (bad : List Nat) (w0 : Late) :
    Kept F L (State.lateDo s d r bad w0) := by
  cases w0
  all_goals unfold State.lateDo
  try dsimp only
  repeat' first
    | with_reducible assumption
    | with_reducible apply kept_resultIn
    | with_reducible apply kept_checkRow
    | with_reducible apply kept_setMc
    | with_reducible apply kept_bumpPerf
    | with_reducible apply kept_spadStore
    | with_reducible apply kept_setScr
    | with_reducible apply kept_ite
    | with_reducible intro _

theorem kept_latesDue {F : Fuses} {L : List Knot} {s : State} (h : Kept F L s) (d : Nat) (bad : List Nat) :
    Kept F L (State.latesDue s d bad) := by
  unfold State.latesDue
  try dsimp only
  repeat' first
    | with_reducible assumption
    | with_reducible apply kept_lateDo
    | with_reducible apply kept_foldl
    | (with_reducible intro _ _ _; try dsimp only)

theorem kept_runsCycle {F : Fuses} {L : List Knot} {s : State} (h : Kept F L s) (d : Nat) :
    Kept F L (State.runsCycle s d) := by
  unfold State.runsCycle
  try dsimp only
  repeat' first
    | with_reducible assumption
    | with_reducible apply kept_bankConflict
    | with_reducible apply kept_runAt
    | with_reducible apply kept_sumsClash
    | with_reducible apply kept_latesDue
    | with_reducible apply kept_modDie
    | with_reducible apply kept_foldl
    | with_reducible apply kept_ite
    | with_reducible refine fun x hx => (?_ : Die.Canonical _)
    | exact (hx : Die.Canonical x)
    | (with_reducible intro _ _ _; try dsimp only)
    | with_reducible intro _

end Sys2Proof.Machine
end

