-- ==== Sys2Proof/Laws/KeptNet.lean ====
section
/-! SUPPORT. What the operations of Machine/Net.lean keep. -/

namespace Sys2Proof.Machine

theorem kept_setNetQ {F : Fuses} {L : List Knot} {s : State} (h : Kept F L s) (node : Nat) (inp : Nat) (ch : Nat) (l : List DynPkt) :
    Kept F L (State.setNetQ s node inp ch l) := by
  unfold State.setNetQ
  try dsimp only
  repeat' first
    | with_reducible assumption
    | with_reducible apply kept_setPcd
    | (with_reducible refine fun _ hx => (?_ : Memory.wf _ = true); exact hx)

theorem kept_injectAt {F : Fuses} {L : List Knot} {s : State} (h : Kept F L s) (a : Nat) (p : DynPkt) :
    Kept F L (State.injectAt s a p) := by
  unfold State.injectAt
  try dsimp only
  repeat' first
    | with_reducible assumption
    | with_reducible apply kept_setNetQ

theorem kept_inject {F : Fuses} {L : List Knot} {s : State} (h : Kept F L s) (p : DynPkt) :
    Kept F L (State.inject s p) := by
  unfold State.inject
  try dsimp only
  repeat' first
    | with_reducible assumption
    | with_reducible apply kept_injectAt

theorem kept_netServed {F : Fuses} {L : List Knot} {s : State} (h : Kept F L s) (n : Nat) (out : Nat) (ch : Nat) (i : Nat) :
    Kept F L (State.netServed s n out ch i) := by
  unfold State.netServed
  try dsimp only
  repeat' first
    | with_reducible assumption
    | with_reducible apply kept_setPcd
    | (with_reducible refine fun _ hx => (?_ : Memory.wf _ = true); exact hx)

end Sys2Proof.Machine
end

