-- ==== Sys2Proof/Laws/KeptHbm.lean ====
section
/-! SUPPORT. What the operations of Machine/Hbm.lean keep. -/

namespace Sys2Proof.Machine

theorem kept_mdRecord {F : Fuses} {L : List Knot} {s : State} (h : Kept F L s) (m : Nat) (kind : Nat) (cause : Nat) (pch : Nat) (peer : Nat) (addr : Nat) :
    Kept F L (State.mdRecord s m kind cause pch peer addr) := by
  unfold State.mdRecord
  try dsimp only
  repeat' first
    | with_reducible assumption
    | with_reducible apply kept_setRg
    | with_reducible apply kept_ite
    | with_reducible intro _

theorem kept_lineCheck {F : Fuses} {L : List Knot} {s : State} (h : Kept F L s) (m : Nat) (line : Nat) (kind : Nat) :
    Kept F L (State.lineCheck s m line kind).1 := by
  unfold State.lineCheck
  try dsimp only
  repeat' first
    | with_reducible assumption
    | with_reducible apply kept_bumpErr
    | with_reducible apply kept_setMd
    | with_reducible apply kept_mdRecord
    | with_reducible apply kept_ite
    | with_reducible apply auto_flipBytes
    | with_reducible refine Kept.mdmem (F := F) (L := L) ?_ _
    | with_reducible intro _
    | split

theorem kept_linesCheck {F : Fuses} {L : List Knot} {s : State} (h : Kept F L s) (m : Nat) (loc : Nat) (n : Nat) (kind : Nat) :
    Kept F L (State.linesCheck s m loc n kind).1 := by
  unfold State.linesCheck
  try dsimp only
  repeat' first
    | with_reducible assumption
    | with_reducible apply kept_lineCheck
    | with_reducible apply kept_foldl_fst
    | with_reducible apply kept_ite_fst
    | dsimp only
    | (with_reducible intro _ _ _; try dsimp only)
    | with_reducible intro _

theorem kept_bellPass {F : Fuses} {L : List Knot} {s : State} (h : Kept F L s) (lines : List (Nat × Nat × Nat)) (m : Nat) (loc : Nat) (n : Nat) :
    Kept F L (State.bellPass s lines m loc n) := by
  unfold State.bellPass
  try dsimp only
  repeat' first
    | with_reducible assumption
    | with_reducible apply kept_inject
    | with_reducible apply kept_foldl
    | with_reducible apply kept_ite
    | (with_reducible intro _ _ _; try dsimp only)
    | with_reducible intro _

theorem kept_stackRead {F : Fuses} {L : List Knot} {s : State} (h : Kept F L s) (m : Nat) (loc : Nat) (n : Nat) :
    Kept F L (State.stackRead s m loc n).1 := by
  unfold State.stackRead
  try dsimp only
  repeat' first
    | with_reducible assumption
    | with_reducible apply kept_linesCheck
    | with_reducible apply kept_bumpPerf

theorem kept_stackWrite {F : Fuses} {L : List Knot} {s : State} (h : Kept F L s) (m : Nat) (loc : Nat) (bs : List Byte) :
    Kept F L (State.stackWrite s m loc bs).1 := by
  unfold State.stackWrite
  try dsimp only
  repeat' first
    | with_reducible assumption
    | with_reducible apply kept_lineCheck
    | with_reducible apply kept_bumpPerf
    | with_reducible apply kept_setMd
    | with_reducible apply kept_bellPass
    | with_reducible apply kept_foldl_fst
    | with_reducible apply kept_ite_fst
    | with_reducible apply Memory.wf_writeBytes
    | with_reducible refine Kept.mdmem (F := F) (L := L) ?_ _
    | dsimp only
    | (with_reducible intro _ _ _; try dsimp only)
    | with_reducible intro _

theorem kept_keptTally {F : Fuses} {L : List Knot} {s : State} (h : Kept F L s) (p : Nat) (a : Nat) :
    Kept F L (State.keptTally s p a) := by
  unfold State.keptTally
  try dsimp only
  repeat' first
    | with_reducible assumption
    | with_reducible apply kept_setMd
    | with_reducible refine Kept.mdmem (F := F) (L := L) ?_ _
    | split

theorem kept_hbmRead {F : Fuses} {L : List Knot} {s : State} (h : Kept F L s) (p : Nat) (a : Nat) (n : Nat) :
    Kept F L (State.hbmRead s p a n).1 := by
  unfold State.hbmRead
  try dsimp only
  repeat' first
    | with_reducible assumption
    | with_reducible apply kept_stackRead
    | with_reducible apply kept_foldl_fst
    | with_reducible apply kept_ite_fst
    | dsimp only
    | (with_reducible intro _ _ _; try dsimp only)
    | with_reducible intro _
    | split

theorem kept_hbmWrite {F : Fuses} {L : List Knot} {s : State} (h : Kept F L s) (p a : Nat) (bs : List Byte) :
    Kept F L (State.hbmWrite s p a bs).1 := by
  unfold State.hbmWrite
  refine kept_foldl_fst (s0 := (s, 0, bs)) h ?_
  intro t q ht
  dsimp only
  refine kept_ite_fst (fun _ => ht) (fun _ => ?_)
  generalize t.1.hbmMap p q.1 = r
  cases r with
  | none => exact ht
  | some r => exact kept_ite_fst (fun _ => kept_stackWrite ht ..) (fun _ => ht)

end Sys2Proof.Machine
end

