-- ==== Sys2Proof/Laws/KeptEvents.lean ====
section
/-! SUPPORT. What the operations of Machine/Events.lean keep. -/

namespace Sys2Proof.Machine

theorem kept_setWords {F : Fuses} {L : List Knot} (node : Nat) (off : Nat → Nat) (ws : List Nat) : ∀ {s : State}, Kept F L s → ∀ (k : Nat),
    Kept F L (State.setWords s node off k ws) := by
  induction ws with
  | nil => intro s h k; exact h
  | cons w r ih => intro s h k; exact ih (kept_setRg h) (k + 1)

theorem kept_ringPut {F : Fuses} {L : List Knot} {s : State} (h : Kept F L s) (e : Event) :
    Kept F L (State.ringPut s e) := by
  unfold State.ringPut
  try dsimp only
  repeat' first
    | with_reducible assumption
    | with_reducible apply kept_setWords

theorem kept_writeRecord {F : Fuses} {L : List Knot} {s : State} (h : Kept F L s) (e : Event) :
    Kept F L (State.writeRecord s e).1 := by
  unfold State.writeRecord
  try dsimp only
  repeat' first
    | with_reducible assumption
    | with_reducible apply kept_ringPut
    | with_reducible apply kept_setRg
    | with_reducible apply kept_bumpErr
    | with_reducible apply kept_setRgF
    | with_reducible apply kept_ite
    | dsimp only
    | with_reducible intro _
    | split
    | with_reducible apply kept_wnvm
    | with_reducible refine Kept.log (F := F) ?_

theorem kept_sendEvent {F : Fuses} {L : List Knot} {s : State} (h : Kept F L s) (e : Event) :
    Kept F L (State.sendEvent s e) := by
  unfold State.sendEvent
  try dsimp only
  repeat' first
    | with_reducible assumption
    | with_reducible apply kept_emit
    | with_reducible apply kept_foldl
    | with_reducible apply kept_foldl_fst
    | with_reducible apply kept_ite
    | with_reducible apply kept_foldl_ff
    | with_reducible apply kept_ite_fst
    | with_reducible apply kept_ite_ff
    | dsimp only
    | (with_reducible intro _ _ _; try dsimp only)
    | with_reducible intro _
    | split

theorem kept_addRecord {F : Fuses} {L : List Knot} {s : State} (h : Kept F L s) (e : Event) :
    Kept F L (State.addRecord s e) := by
  unfold State.addRecord
  try dsimp only
  repeat' first
    | with_reducible assumption
    | with_reducible apply kept_setPcd
    | with_reducible apply kept_sendEvent
    | with_reducible apply kept_foldl
    | with_reducible apply kept_foldl_fst
    | with_reducible apply kept_ite
    | with_reducible apply kept_foldl_ff
    | with_reducible apply kept_ite_fst
    | with_reducible apply kept_ite_ff
    | (with_reducible refine fun _ hx => (?_ : Memory.wf _ = true); exact hx)
    | with_reducible refine fun x hx => (?_ : Memory.wf _ = true)
    | exact (hx : Memory.wf _ = true)
    | with_reducible apply Memory.wf_writeBytes
    | with_reducible apply Memory.wf_memWrite
    | with_reducible apply Memory.wf_clearRange
    | with_reducible apply Memory.wf_filter
    | with_reducible apply wf_ite
    | dsimp only
    | (with_reducible intro _ _ _; try dsimp only)
    | with_reducible intro _
    | split
    | with_reducible apply kept_writeRecord

theorem kept_mergeRecord {F : Fuses} {L : List Knot} {s : State} (h : Kept F L s) (code : Nat) (unit : Nat) :
    Kept F L (State.mergeRecord s code unit) := by
  unfold State.mergeRecord
  try dsimp only
  repeat' first
    | with_reducible assumption
    | with_reducible apply kept_setPcd
    | with_reducible apply kept_ringPut
    | with_reducible apply kept_ite
    | (with_reducible refine fun _ hx => (?_ : Memory.wf _ = true); exact hx)
    | with_reducible intro _
    | split

theorem kept_putEvent {F : Fuses} {L : List Knot} {s : State} (h : Kept F L s) (code : Nat) (part : Nat) (unit : Nat) (data : Nat) (ptc : Nat) (job : Nat × Nat) (fence : Bool) :
    Kept F L (State.putEvent s code part unit data ptc job fence) := by
  unfold State.putEvent
  try dsimp only
  repeat' first
    | with_reducible assumption
    | with_reducible apply kept_mergeRecord
    | with_reducible apply kept_addRecord
    | with_reducible apply kept_ite
    | with_reducible intro _

theorem kept_notice {F : Fuses} {L : List Knot} {s : State} (h : Kept F L s) (code : Nat) (part : Nat) (unit : Nat) (data : Nat) :
    Kept F L (State.notice s code part unit data) := by
  unfold State.notice
  try dsimp only
  repeat' first
    | with_reducible assumption
    | with_reducible apply kept_putEvent

theorem kept_knot {F : Fuses} {L : List Knot} {s : State} (h : Kept F L s) (unit type : Nat) : Kept F L (State.knot s unit type) := by
  unfold State.knot
  refine kept_ite (fun _ => h) (fun _ => ?_)
  refine kept_ite (fun _ => kept_notice ?_ ..) (fun _ => ?_)
  all_goals exact kept_wnvm h (h.log.trans (List.prefix_append _ _))

theorem kept_modItem {F : Fuses} {L : List Knot} {s : State} (h : Kept F L s) (k : Nat) (sseq : Nat) (f : SItem → SItem) :
    Kept F L (State.modItem s k sseq f) := by
  unfold State.modItem
  try dsimp only
  repeat' first
    | with_reducible assumption
    | with_reducible apply kept_setSession

theorem kept_hostFlush {F : Fuses} {L : List Knot} {s : State} (h : Kept F L s)  :
    Kept F L (State.hostFlush s) := by
  unfold State.hostFlush
  try dsimp only
  repeat' first
    | with_reducible assumption
    | with_reducible apply kept_emit
    | with_reducible apply kept_bumpPerf
    | with_reducible apply kept_setPcd
    | with_reducible apply kept_foldl
    | with_reducible apply kept_ite
    | (with_reducible refine fun _ hx => (?_ : Memory.wf _ = true); exact hx)
    | (with_reducible intro _ _ _; try dsimp only)
    | with_reducible intro _

theorem kept_hostSend {F : Fuses} {L : List Knot} {s : State} (h : Kept F L s) (portB : Bool) (k : Nat) (cls : Nat) (bytes : Nat) (o : HostTo → Out) :
    Kept F L (State.hostSend s portB k cls bytes o) := by
  unfold State.hostSend
  try dsimp only
  repeat' first
    | with_reducible assumption
    | with_reducible apply kept_setPcd
    | with_reducible apply kept_hostFlush
    | (with_reducible refine fun _ hx => (?_ : Memory.wf _ = true); exact hx)

theorem kept_sendCpl {F : Fuses} {L : List Knot} {s : State} (h : Kept F L s) (k : Nat) (rs : List Cpl) :
    Kept F L (State.sendCpl s k rs) := by
  unfold State.sendCpl
  try dsimp only
  repeat' first
    | with_reducible assumption
    | with_reducible apply kept_hostSend
    | with_reducible apply kept_ite
    | with_reducible intro _

theorem kept_complete {F : Fuses} {L : List Knot} {s : State} (h : Kept F L s) (k : Nat) (sseq : Nat) (status : Nat) (event : Nat) (done : Nat) :
    Kept F L (State.complete s k sseq status event done) := by
  unfold State.complete
  try dsimp only
  repeat' first
    | with_reducible assumption
    | with_reducible apply kept_setSession
    | with_reducible apply kept_bumpPerf
    | with_reducible apply kept_sendCpl
    | with_reducible apply kept_ite
    | with_reducible intro _
    | split

end Sys2Proof.Machine
end

