-- ==== Sys2Proof/Laws/KeptJobs.lean ====
section
/-! SUPPORT. What the operations of Machine/Jobs.lean keep. -/

namespace Sys2Proof.Machine

theorem wf_nil : Memory.wf [] = true := rfl
theorem Die.canonical_scrubJob {x : Die} (h : x.Canonical) : x.scrubJob.Canonical := ⟨h.1, rfl, fun _ => rfl⟩
theorem auto_scrubJob : ∀ x : Die, x.Canonical → x.scrubJob.Canonical := fun _ h => Die.canonical_scrubJob h

theorem kept_spadScrub {F : Fuses} {L : List Knot} {s : State} (h : Kept F L s) (d : Nat) :
    Kept F L (State.spadScrub s d) := by
  unfold State.spadScrub
  try dsimp only
  repeat' first
    | with_reducible assumption
    | with_reducible apply kept_setRgF

theorem kept_startScrub {F : Fuses} {L : List Knot} {s : State} (h : Kept F L s) (p : Nat) :
    Kept F L (State.startScrub s p) := by
  unfold State.startScrub
  try dsimp only
  repeat' first
    | with_reducible assumption
    | with_reducible apply kept_setRg
    | with_reducible apply kept_setRgF
    | with_reducible apply kept_setPart
    | with_reducible apply kept_foldl
    | refine Part.canonical_of rfl rfl (Kept.part (F := F) (L := L) ?_ _)
    | (with_reducible intro _ _ _; try dsimp only)
    | split

theorem kept_addScrub {F : Fuses} {L : List Knot} {s : State} (h : Kept F L s) (p : Nat) (rs : List ScrubRange) :
    Kept F L (State.addScrub s p rs) := by
  unfold State.addScrub
  try dsimp only
  repeat' first
    | with_reducible assumption
    | with_reducible apply kept_setPart
    | with_reducible apply kept_startScrub
    | refine Part.canonical_of rfl rfl (Kept.part (F := F) (L := L) ?_ _)

theorem kept_scrubDie {F : Fuses} {L : List Knot} {s : State} (h : Kept F L s) (d : Nat) :
    Kept F L (State.scrubDie s d) := by
  unfold State.scrubDie
  try dsimp only
  repeat' first
    | with_reducible assumption
    | with_reducible apply kept_modDie
    | with_reducible apply kept_setRg
    | with_reducible apply kept_setRgB
    | with_reducible apply kept_spadScrub
    | with_reducible apply kept_foldl
    | with_reducible refine fun x hx => (?_ : Die.Canonical _)
    | with_reducible apply auto_scrubJob
    | (with_reducible intro _ _ _; try dsimp only)

theorem kept_stopPlace {F : Fuses} {L : List Knot} {s : State} (h : Kept F L s) (d : Nat) (p : Nat) :
    Kept F L (State.stopPlace s d p) := by
  unfold State.stopPlace
  try dsimp only
  repeat' first
    | with_reducible assumption
    | with_reducible apply kept_haltPlace
    | with_reducible apply kept_ite
    | with_reducible intro _

theorem kept_stopPart {F : Fuses} {L : List Knot} {s : State} (h : Kept F L s) (p : Nat) :
    Kept F L (State.stopPart s p) := by
  unfold State.stopPart
  try dsimp only
  repeat' first
    | with_reducible assumption
    | with_reducible apply kept_stopPlace
    | with_reducible apply kept_foldl
    | (with_reducible intro _ _ _; try dsimp only)

theorem kept_stepCancel {F : Fuses} {L : List Knot} {s : State} (h : Kept F L s) (p : Nat) :
    Kept F L (State.stepCancel s p) := by
  unfold State.stepCancel
  try dsimp only
  repeat' first
    | with_reducible assumption
    | with_reducible apply kept_setRgB
    | with_reducible apply kept_modDie
    | with_reducible apply kept_modPart
    | with_reducible apply kept_foldl
    | with_reducible apply kept_ite
    | with_reducible refine fun x hx => (?_ : Die.Canonical _)
    | with_reducible refine fun x hx => (?_ : Part.Canonical _)
    | exact (hx : Part.Canonical x)
    | exact (hx : Die.Canonical x)
    | (with_reducible intro _ _ _; try dsimp only)
    | with_reducible intro _

theorem kept_powerSelect {F : Fuses} {L : List Knot} {s : State} (h : Kept F L s) (p : Nat) :
    Kept F L (State.powerSelect s p) := by
  unfold State.powerSelect
  try dsimp only
  repeat' first
    | with_reducible assumption
    | with_reducible apply kept_setPart
    | with_reducible apply kept_ite
    | refine Part.canonical_of rfl rfl (Kept.part (F := F) (L := L) ?_ _)
    | with_reducible intro _

theorem kept_idleChoose {F : Fuses} {L : List Knot} {s : State} (h : Kept F L s) (p : Nat) :
    Kept F L (State.idleChoose s p) := by
  unfold State.idleChoose
  try dsimp only
  repeat' first
    | with_reducible assumption
    | with_reducible apply kept_powerSelect
    | with_reducible apply kept_ite
    | with_reducible intro _

theorem kept_modTx {F : Fuses} {L : List Knot} {s : State} (h : Kept F L s) (m : Nat) (id : Nat) (k : Nat) (f : Tx → Tx) :
    Kept F L (State.modTx s m id k f) := by
  unfold State.modTx
  try dsimp only
  repeat' first
    | with_reducible assumption
    | with_reducible apply kept_setMd
    | with_reducible refine Kept.mdmem (F := F) (L := L) ?_ _

theorem kept_doomTx {F : Fuses} {L : List Knot} {s : State} (h : Kept F L s) (p : DynPkt) (status : Nat) :
    Kept F L (State.doomTx s p status) := by
  unfold State.doomTx
  try dsimp only
  repeat' first
    | with_reducible assumption
    | with_reducible apply kept_modTx
    | with_reducible apply kept_ite
    | with_reducible intro _
    | split

theorem kept_xferEnd {F : Fuses} {L : List Knot} {s : State} (h : Kept F L s) (fd : Nat) (id : Nat) (status : Nat) (done : Nat) :
    Kept F L (State.xferEnd s fd id status done) := by
  unfold State.xferEnd
  try dsimp only
  repeat' first
    | with_reducible assumption
    | with_reducible apply kept_setFd
    | with_reducible apply kept_hbmWrite
    | with_reducible apply kept_inject
    | with_reducible apply kept_ite
    | with_reducible intro _
    | split

theorem kept_fabricOff {F : Fuses} {L : List Knot} {s : State} (h : Kept F L s) (p : Nat) (job : Nat) :
    Kept F L (State.fabricOff s p job) := by
  unfold State.fabricOff
  try dsimp only
  repeat' first
    | with_reducible assumption
    | with_reducible apply kept_setRgB
    | with_reducible apply kept_setFd
    | with_reducible apply kept_xferEnd
    | with_reducible apply kept_foldl
    | with_reducible apply kept_ite
    | (with_reducible intro _ _ _; try dsimp only)
    | with_reducible intro _

theorem kept_sendLand {F : Fuses} {L : List Knot} {s : State} (h : Kept F L s) (m : Nat) (tag : Nat) (dir : Bool) (site : Nat) :
    Kept F L (State.sendLand s m tag dir site) := by
  unfold State.sendLand
  try dsimp only
  repeat' first
    | with_reducible assumption
    | with_reducible apply kept_inject
    | split

theorem kept_sendDone {F : Fuses} {L : List Knot} {s : State} (h : Kept F L s) (m : Nat) (die : Nat) (ticket : Nat) (sched : Bool) (tag : Nat) (done : Nat) (status : Nat) :
    Kept F L (State.sendDone s m die ticket sched tag done status) := by
  unfold State.sendDone
  try dsimp only
  repeat' first
    | with_reducible assumption
    | with_reducible apply kept_inject

theorem kept_itemFinish {F : Fuses} {L : List Knot} {s : State} (h : Kept F L s) (m : Nat) (id : Nat) :
    Kept F L (State.itemFinish s m id) := by
  unfold State.itemFinish
  try dsimp only
  repeat' first
    | with_reducible assumption
    | with_reducible apply kept_setMd
    | with_reducible apply kept_sendLand
    | with_reducible apply kept_sendDone
    | with_reducible apply kept_raise
    | with_reducible apply kept_hbmWrite
    | with_reducible apply kept_complete
    | with_reducible apply kept_idleChoose
    | with_reducible apply kept_ite
    | with_reducible refine Kept.mdmem (F := F) (L := L) ?_ _
    | with_reducible intro _
    | split

theorem kept_descsEnd {F : Fuses} {L : List Knot} {s : State} (h : Kept F L s) (hit : Nat × Origin × DmaDesc → Bool) (status : Nat) (event : Nat) :
    Kept F L (State.descsEnd s hit status event) := by
  unfold State.descsEnd
  try dsimp only
  repeat' first
    | with_reducible assumption
    | with_reducible apply kept_modDie
    | with_reducible apply kept_complete
    | with_reducible apply kept_setPcd
    | with_reducible apply kept_foldl
    | (with_reducible refine fun _ hx => (?_ : Memory.wf _ = true); exact hx)
    | with_reducible apply die_ite
    | with_reducible refine fun x hx => (?_ : Die.Canonical _)
    | exact (hx : Die.Canonical x)
    | (with_reducible intro _ _ _; try dsimp only)
    | with_reducible intro _
    | split

theorem kept_endItems {F : Fuses} {L : List Knot} {s : State} (h : Kept F L s) (p : Nat) (job : Nat) :
    Kept F L (State.endItems s p job) := by
  unfold State.endItems
  try dsimp only
  repeat' first
    | with_reducible assumption
    | with_reducible apply kept_setMd
    | with_reducible apply kept_itemFinish
    | with_reducible apply kept_descsEnd
    | with_reducible apply kept_foldl
    | with_reducible apply kept_ite
    | with_reducible refine Kept.mdmem (F := F) (L := L) ?_ _
    | (with_reducible intro _ _ _; try dsimp only)
    | with_reducible intro _
    | split

theorem kept_endHostItems {F : Fuses} {L : List Knot} {s : State} (h : Kept F L s) (k : Nat) (job : Nat) :
    Kept F L (State.endHostItems s k job) := by
  unfold State.endHostItems
  try dsimp only
  repeat' first
    | with_reducible assumption
    | with_reducible apply kept_complete
    | with_reducible apply kept_foldl
    | (with_reducible intro _ _ _; try dsimp only)

theorem kept_postMortem {F : Fuses} {L : List Knot} {s : State} (h : Kept F L s) (p : Nat) (cid : Nat) (c : Ctx) :
    Kept F L (State.postMortem s p cid c) := by
  unfold State.postMortem
  try dsimp only
  repeat' first
    | with_reducible assumption
    | with_reducible apply kept_hbmWrite
    | with_reducible apply kept_modDie
    | with_reducible apply kept_foldl
    | with_reducible apply kept_ite
    | with_reducible refine fun x hx => (?_ : Die.Canonical _)
    | exact (hx : Die.Canonical x)
    | (with_reducible intro _ _ _; try dsimp only)
    | with_reducible intro _
    | split
    | with_reducible apply kept_wfree

theorem kept_dropCtx {F : Fuses} {L : List Knot} {s : State} (h : Kept F L s) (p : Nat) (cid : Nat) :
    Kept F L (State.dropCtx s p cid) := by
  unfold State.dropCtx
  try dsimp only
  repeat' first
    | with_reducible assumption
    | with_reducible apply kept_setPart
    | with_reducible apply kept_scrubDie
    | with_reducible apply kept_addScrub
    | with_reducible apply kept_foldl
    | with_reducible apply kept_ite
    | with_reducible apply ctxs_serase
    | with_reducible refine Kept.ctxs (F := F) (L := L) ?_ _
    | with_reducible refine Kept.doze (F := F) (L := L) ?_ _
    | with_reducible refine Part.canonical_mk ?_ ?_
    | (with_reducible intro _ _ _; try dsimp only)
    | with_reducible intro _
    | split

theorem kept_settleCtx {F : Fuses} {L : List Knot} {s : State} (h : Kept F L s) (p cid : Nat) : Kept F L (State.settleCtx s p cid) := by
  unfold State.settleCtx
  split
  · exact h
  · rename_i c hc
    split
    · exact h
    · rename_i st ev _
      refine kept_ite (fun _ => h) (fun _ => ?_)
      have hcs : savedCanonical c.saved := ctxs_find (h.ctxs p) hc
      generalize s.ptc = now
      generalize decide ((s.part p).run = some cid) = od
      extract_lets s1 s2 x0 s2' c1 s3 x
      have h1 : Kept F L s1 := by
        show Kept F L (match c.jsItem with | some (k, q) => s.complete k q st ev 0 | none => s)
        split
        · exact kept_complete h ..
        · exact h
      clear_value s1
      have h2 : Kept F L s2 := kept_foldl h1 (fun t k ht => kept_foldl ht (fun u i hu => kept_complete hu ..))
      clear_value s2
      have h2' : Kept F L s2' := kept_ite (fun _ => kept_setPart h2 (Part.canonical_of rfl rfl (h2.part p))) (fun _ => h2)
      clear_value s2'
      refine kept_ite (fun _ => ?_) (fun _ => kept_idleChoose (kept_dropCtx h2' ..) ..)
      have h3 : Kept F L s3 := kept_postMortem h2' ..
      clear_value s3
      refine kept_idleChoose (kept_setPart h3 ?_) ..
      exact ⟨ctxs_sput (h3.ctxs p) hcs, h3.doze p⟩

theorem kept_releaseSettle {F : Fuses} {L : List Knot} {s : State} (h : Kept F L s) (p : Nat) :
    Kept F L (State.releaseSettle s p) := by
  unfold State.releaseSettle
  try dsimp only
  repeat' first
    | with_reducible assumption
    | with_reducible apply kept_complete
    | with_reducible apply kept_foldl
    | with_reducible apply kept_ite
    | (with_reducible intro _ _ _; try dsimp only)
    | with_reducible intro _

theorem kept_settle {F : Fuses} {L : List Knot} {s : State} (h : Kept F L s) (p : Nat) :
    Kept F L (State.settle s p) := by
  unfold State.settle
  try dsimp only
  repeat' first
    | with_reducible assumption
    | with_reducible apply kept_settleCtx
    | with_reducible apply kept_foldl
    | (with_reducible intro _ _ _; try dsimp only)

theorem kept_scRet {F : Fuses} {L : List Knot} {s : State} (h : Kept F L s) (d : Nat) (c : Nat) (rd : BitVec 5) (v : Nat) :
    Kept F L (State.scRet s d c rd v) := by
  unfold State.scRet
  try dsimp only
  repeat' first
    | with_reducible assumption
    | with_reducible apply kept_setSc

theorem kept_barEnd {F : Fuses} {L : List Knot} {s : State} (h : Kept F L s) (d : Nat) (c : Nat) (v : Nat) :
    Kept F L (State.barEnd s d c v) := by
  unfold State.barEnd
  try dsimp only
  repeat' first
    | with_reducible assumption
    | with_reducible apply kept_setSc
    | with_reducible apply kept_scRet
    | split

theorem kept_barsAbort {F : Fuses} {L : List Knot} {s : State} (h : Kept F L s) (p : Nat) :
    Kept F L (State.barsAbort s p) := by
  unfold State.barsAbort
  try dsimp only
  repeat' first
    | with_reducible assumption
    | with_reducible apply kept_barEnd
    | with_reducible apply kept_foldl
    | (with_reducible intro _ _ _; try dsimp only)

theorem kept_endJob {F : Fuses} {L : List Knot} {s : State} (h : Kept F L s) (p cid status event : Nat) :
    Kept F L (State.endJob s p cid status event) := by
  unfold State.endJob
  split
  · exact h
  · rename_i c hc
    have hcs : savedCanonical c.saved := ctxs_find (h.ctxs p) hc
    refine kept_ite (fun _ => h) (fun _ => ?_)
    extract_lets s1 s2 x0
    have h1 : Kept F L s1 := kept_ite (fun _ => kept_barsAbort (kept_stepCancel (kept_stopPart h ..) ..) _) (fun _ => h)
    clear_value s1
    have h2 : Kept F L s2 := kept_endHostItems (kept_endItems (kept_fabricOff h1 ..) ..) ..
    clear_value s2
    refine kept_settleCtx (kept_setPart h2 ?_) ..
    exact ⟨ctxs_sput (h2.ctxs p) hcs, h2.doze p⟩

theorem kept_failRunning {F : Fuses} {L : List Knot} {s : State} (h : Kept F L s) (p : Nat) (code : Nat) :
    Kept F L (State.failRunning s p code) := by
  unfold State.failRunning
  try dsimp only
  repeat' first
    | with_reducible assumption
    | with_reducible apply kept_endJob
    | split

theorem kept_failJobs {F : Fuses} {L : List Knot} {s : State} (h : Kept F L s) (p : Nat) (code : Nat) (data : Nat) :
    Kept F L (State.failJobs s p code data) := by
  unfold State.failJobs
  try dsimp only
  repeat' first
    | with_reducible assumption
    | with_reducible apply kept_endJob
    | with_reducible apply kept_failRunning
    | with_reducible apply kept_foldl
    | (with_reducible intro _ _ _; try dsimp only)
    | split

theorem kept_failAll {F : Fuses} {L : List Knot} {s : State} (h : Kept F L s) (p : Nat) (code : Nat) :
    Kept F L (State.failAll s p code) := by
  unfold State.failAll
  try dsimp only
  repeat' first
    | with_reducible assumption
    | with_reducible apply kept_endJob
    | with_reducible apply kept_foldl
    | (with_reducible intro _ _ _; try dsimp only)

theorem kept_oweRetrue {F : Fuses} {L : List Knot} {s : State} (h : Kept F L s) (r : Nat) :
    Kept F L (State.oweRetrue s r) := by
  unfold State.oweRetrue
  try dsimp only
  repeat' first
    | with_reducible assumption
    | with_reducible apply kept_setPart
    | refine Part.canonical_of rfl rfl (Kept.part (F := F) (L := L) ?_ _)
    | split

theorem kept_fenceSite {F : Fuses} {L : List Knot} {s : State} (h : Kept F L s) (d : Nat) :
    Kept F L (State.fenceSite s d) := by
  unfold State.fenceSite
  try dsimp only
  repeat' first
    | with_reducible assumption
    | with_reducible apply kept_setRgB
    | with_reducible apply kept_setPcd
    | with_reducible apply kept_knot
    | with_reducible apply kept_setRgF
    | with_reducible apply kept_oweRetrue
    | with_reducible apply kept_ite
    | (with_reducible refine fun _ hx => (?_ : Memory.wf _ = true); exact hx)
    | with_reducible intro _

theorem kept_fenceMd {F : Fuses} {L : List Knot} {s : State} (h : Kept F L s) (m : Nat) :
    Kept F L (State.fenceMd s m) := by
  unfold State.fenceMd
  try dsimp only
  repeat' first
    | with_reducible assumption
    | with_reducible apply kept_setRgB
    | with_reducible apply kept_setPcd
    | with_reducible apply kept_setFd
    | with_reducible apply kept_knot
    | with_reducible apply kept_oweRetrue
    | with_reducible apply kept_ite
    | (with_reducible refine fun _ hx => (?_ : Memory.wf _ = true); exact hx)
    | with_reducible intro _

theorem kept_fenceLink {F : Fuses} {L : List Knot} {s : State} (h : Kept F L s) (node : Nat) (port : Nat) :
    Kept F L (State.fenceLink s node port) := by
  unfold State.fenceLink
  try dsimp only
  repeat' first
    | with_reducible assumption
    | with_reducible apply kept_setPcd
    | with_reducible apply kept_knot
    | with_reducible apply kept_oweRetrue
    | with_reducible apply kept_ite
    | (with_reducible refine fun _ hx => (?_ : Memory.wf _ = true); exact hx)
    | with_reducible intro _

theorem kept_fenceSpindle {F : Fuses} {L : List Knot} {s : State} (h : Kept F L s) (n : Nat) :
    Kept F L (State.fenceSpindle s n) := by
  unfold State.fenceSpindle
  try dsimp only
  repeat' first
    | with_reducible assumption
    | with_reducible apply kept_setPcd
    | with_reducible apply kept_knot
    | with_reducible apply kept_oweRetrue
    | (with_reducible refine fun _ hx => (?_ : Memory.wf _ = true); exact hx)

theorem kept_fenceFd {F : Fuses} {L : List Knot} {s : State} (h : Kept F L s) (f : Nat) :
    Kept F L (State.fenceFd s f) := by
  unfold State.fenceFd
  try dsimp only
  repeat' first
    | with_reducible assumption
    | with_reducible apply kept_setFd
    | with_reducible apply kept_knot

theorem kept_fenceUnit {F : Fuses} {L : List Knot} {s : State} (h : Kept F L s) (u : Nat) :
    Kept F L (State.fenceUnit s u) := by
  unfold State.fenceUnit
  try dsimp only
  repeat' first
    | with_reducible assumption
    | with_reducible apply kept_fenceSpindle
    | with_reducible apply kept_fenceLink
    | with_reducible apply kept_fenceMd
    | with_reducible apply kept_fenceSite
    | with_reducible apply kept_fenceFd
    | with_reducible apply kept_ite
    | with_reducible intro _

theorem kept_consequence {F : Fuses} {L : List Knot} {s : State} (h : Kept F L s) (code : Nat) (unit : Nat) :
    Kept F L (State.consequence s code unit) := by
  unfold State.consequence
  try dsimp only
  repeat' first
    | with_reducible assumption
    | with_reducible apply kept_setPcd
    | with_reducible apply kept_fenceUnit
    | with_reducible apply kept_fenceSite
    | with_reducible apply kept_fenceLink
    | with_reducible apply kept_oweRetrue
    | with_reducible apply kept_fenceFd
    | with_reducible apply kept_fenceMd
    | with_reducible apply kept_foldl
    | with_reducible apply kept_ite
    | (with_reducible refine fun _ hx => (?_ : Memory.wf _ = true); exact hx)
    | (with_reducible intro _ _ _; try dsimp only)
    | with_reducible intro _
    | split

theorem kept_copiesEnd {F : Fuses} {L : List Knot} {s : State} (h : Kept F L s) (m : Nat) :
    Kept F L (State.copiesEnd s m) := by
  unfold State.copiesEnd
  try dsimp only
  repeat' first
    | with_reducible assumption
    | with_reducible apply kept_complete
    | with_reducible apply kept_foldl
    | (with_reducible intro _ _ _; try dsimp only)
    | split

theorem kept_regionDark {F : Fuses} {L : List Knot} {s : State} (h : Kept F L s) (r : Nat) : Kept F L (State.regionDark s r) := by
  unfold State.regionDark
  extract_lets mine s1 s2
  have h1 : Kept F L s1 := kept_foldl h (fun t k ht => kept_copiesEnd ht ..)
  clear_value s1
  have h2 : Kept F L s2 := kept_dark h1 (f := fun n => !mine n) (g := fun n => decide (n / 8 ≠ r))
  exact kept_setPcd h2 (fun _ hp => hp)

theorem kept_regionOpen {F : Fuses} {L : List Knot} {s : State} (h : Kept F L s) (r : Nat) :
    Kept F L (State.regionOpen s r) := by
  unfold State.regionOpen
  try dsimp only
  repeat' first
    | with_reducible assumption
    | with_reducible apply kept_setRgB
    | with_reducible apply kept_regionDark

theorem kept_partOff {F : Fuses} {L : List Knot} {s : State} (h : Kept F L s) (p : Nat) :
    Kept F L (State.partOff s p) := by
  unfold State.partOff
  try dsimp only
  repeat' first
    | with_reducible assumption
    | with_reducible apply kept_regionOpen
    | with_reducible apply kept_setPart
    | with_reducible apply kept_settle
    | with_reducible apply kept_setRgB
    | with_reducible apply kept_foldl
    | refine Part.canonical_of rfl rfl (Kept.part (F := F) (L := L) ?_ _)
    | (with_reducible intro _ _ _; try dsimp only)

theorem kept_actOn {F : Fuses} {L : List Knot} {s : State} (h : Kept F L s) (code : Nat) (part : Nat) (unit : Nat) (data : Nat) :
    Kept F L (State.actOn s code part unit data) := by
  unfold State.actOn
  try dsimp only
  repeat' first
    | with_reducible assumption
    | with_reducible apply kept_failJobs
    | with_reducible apply kept_failAll
    | with_reducible apply kept_setPcd
    | with_reducible apply kept_consequence
    | with_reducible apply kept_partOff
    | with_reducible apply kept_foldl
    | with_reducible apply kept_ite
    | (with_reducible refine fun _ hx => (?_ : Memory.wf _ = true); exact hx)
    | (with_reducible intro _ _ _; try dsimp only)
    | with_reducible intro _

theorem kept_event {F : Fuses} {L : List Knot} {s : State} (h : Kept F L s) (code : Nat) (part : Nat) (unit : Nat) (data : Nat) (ptc : Nat) :
    Kept F L (State.event s code part unit data ptc) := by
  unfold State.event
  try dsimp only
  repeat' first
    | with_reducible assumption
    | with_reducible apply kept_putEvent
    | with_reducible apply kept_actOn

theorem kept_pcdEvent {F : Fuses} {L : List Knot} {s : State} (h : Kept F L s) (code : Nat) (part : Nat) (unit : Nat) (data : Nat) :
    Kept F L (State.pcdEvent s code part unit data) := by
  unfold State.pcdEvent
  try dsimp only
  repeat' first
    | with_reducible assumption
    | with_reducible apply kept_event

theorem kept_ctxEvent {F : Fuses} {L : List Knot} {s : State} (h : Kept F L s) (code : Nat) (p : Nat) (cid : Nat) (unit : Nat) (data : Nat) :
    Kept F L (State.ctxEvent s code p cid unit data) := by
  unfold State.ctxEvent
  try dsimp only
  repeat' first
    | with_reducible assumption
    | with_reducible apply kept_putEvent
    | with_reducible apply kept_endJob
    | with_reducible apply kept_consequence
    | split

theorem kept_recordClear {F : Fuses} {L : List Knot} {s : State} (h : Kept F L s) (node : Nat) (off : Nat) :
    Kept F L (State.recordClear s node off) := by
  unfold State.recordClear
  try dsimp only
  repeat' first
    | with_reducible assumption
    | with_reducible apply kept_setRg
    | with_reducible apply kept_foldl
    | (with_reducible intro _ _ _; try dsimp only)
    | split

theorem kept_recordRead {F : Fuses} {L : List Knot} {s : State} (h : Kept F L s) (node : Nat) (code : Nat) :
    Kept F L (State.recordRead s node code) := by
  unfold State.recordRead
  try dsimp only
  repeat' first
    | with_reducible assumption
    | with_reducible apply kept_recordClear
    | with_reducible apply kept_ite
    | with_reducible intro _
    | split

theorem kept_alertIn {F : Fuses} {L : List Knot} {s : State} (h : Kept F L s) (a : Alert) :
    Kept F L (State.alertIn s a) := by
  unfold State.alertIn
  try dsimp only
  repeat' first
    | with_reducible assumption
    | with_reducible apply kept_setPcd
    | with_reducible apply kept_event
    | with_reducible apply kept_recordRead
    | with_reducible apply kept_ite
    | (with_reducible refine fun _ hx => (?_ : Memory.wf _ = true); exact hx)
    | with_reducible intro _

end Sys2Proof.Machine
end

