-- ==== Sys2Proof/Laws/KeptSpindle.lean ====
section
/-! SUPPORT. What the operations of Machine/Spindle.lean keep. -/

namespace Sys2Proof.Machine

theorem kept_setSpQ {F : Fuses} {L : List Knot} {s : State} (h : Kept F L s) (n : Nat) (port : Nat) (cls : Bool) (l : List SpPkt) :
    Kept F L (State.setSpQ s n port cls l) := by
  unfold State.setSpQ
  try dsimp only
  repeat' first
    | with_reducible assumption
    | with_reducible apply kept_setPcd
    | (with_reducible refine fun _ hx => (?_ : Memory.wf _ = true); exact hx)

theorem kept_spPush {F : Fuses} {L : List Knot} {s : State} (h : Kept F L s) (n : Nat) (port : Nat) (p : SpPkt) :
    Kept F L (State.spPush s n port p) := by
  unfold State.spPush
  try dsimp only
  repeat' first
    | with_reducible assumption
    | with_reducible apply kept_setSpQ

theorem kept_spSend {F : Fuses} {L : List Knot} {s : State} (h : Kept F L s) (src : Nat) (p : SpPkt) :
    Kept F L (State.spSend s src p) := by
  unfold State.spSend
  try dsimp only
  repeat' first
    | with_reducible assumption
    | with_reducible apply kept_spPush
    | split

theorem kept_spDown {F : Fuses} {L : List Knot} {s : State} (h : Kept F L s) (p : Nat) (root : Nat) (n : Nat) (k : SpPkt) :
    Kept F L (State.spDown s p root n k) := by
  unfold State.spDown
  try dsimp only
  repeat' first
    | with_reducible assumption
    | with_reducible apply kept_spPush
    | with_reducible apply kept_foldl
    | (with_reducible intro _ _ _; try dsimp only)

theorem kept_spBroadcast {F : Fuses} {L : List Knot} {s : State} (h : Kept F L s) (p : Nat) (ty : Nat) (arg : Nat) (payload : Nat) :
    Kept F L (State.spBroadcast s p ty arg payload) := by
  unfold State.spBroadcast
  try dsimp only
  repeat' first
    | with_reducible assumption
    | with_reducible apply kept_spDown
    | split

theorem kept_barUp {F : Fuses} {L : List Knot} {s : State} (h : Kept F L s) (p : Nat) (n : Nat) (b : Nat) :
    Kept F L (State.barUp s p n b) := by
  unfold State.barUp
  try dsimp only
  repeat' first
    | with_reducible assumption
    | with_reducible apply kept_setPart
    | with_reducible apply kept_spPush
    | with_reducible apply kept_spBroadcast
    | with_reducible apply kept_ite
    | refine Part.canonical_of rfl rfl (Kept.part (F := F) (L := L) ?_ _)
    | with_reducible intro _
    | split

theorem kept_spNotice {F : Fuses} {L : List Knot} {s : State} (h : Kept F L s) (d : Nat) (kind : Nat) :
    Kept F L (State.spNotice s d kind) := by
  unfold State.spNotice
  try dsimp only
  repeat' first
    | with_reducible assumption
    | with_reducible apply kept_spSend
    | split

end Sys2Proof.Machine
end

