-- ==== Sys2Proof/Laws/KeptPhases.lean ====
section
/-! SUPPORT. What the operations of Machine/Phases.lean keep. -/

namespace Sys2Proof.Machine

theorem Spad.wf_keepGroups {y : Spad} (h : Memory.wf y.mem = true) (m : Nat) : Memory.wf (y.keepGroups m).mem = true := Memory.wf_filter _ h
theorem auto_keepGroups {y : Spad} {m : Nat} (h : Memory.wf y.mem = true) : Memory.wf (y.keepGroups m).mem = true := Memory.wf_filter _ h
theorem auto_fillSlot {x : Place} {slot : Nat} {bs : List Byte} (h : Memory.wf x.mem = true) : Memory.wf (x.fillSlot slot bs).mem = true :=
  Memory.wf_writeBytes _ _ (Memory.wf_clearRange _ _ h)
theorem auto_cleared {x : Die} (h : x.Canonical) : x.cleared.Canonical := ⟨rfl, (Die.canonical_scrubJob h).2⟩
theorem auto_restore {x v : Die} (h : x.Canonical) (hv : v.Canonical) : (x.restore v).Canonical := ⟨hv.1, h.2⟩
theorem sget_map {α β : Type} (d : α) (f : α → β) (m : SMap α) (k : Nat) : sget (f d) (m.map (fun e => (e.1, f e.2))) k = f (sget d m k) := by
  induction m with
  | nil => rfl
  | cons e r ih =>
    obtain ⟨a, b⟩ := e
    simp only [List.map_cons, sget]
    split
    · rfl
    · exact ih
theorem auto_toSave {x : Die} {live : Nat} (h : x.Canonical) : (x.toSave live).Canonical := by
  refine ⟨Memory.wf_filter _ h.1, rfl, ?_⟩
  intro p
  unfold Die.toSave Die.place
  dsimp only
  generalize x.places = l
  induction l with
  | nil => rfl
  | cons e r ih =>
    obtain ⟨a, b⟩ := e
    simp only [List.map_cons, sget]
    split
    · rfl
    · exact ih
theorem wf_place_map {x y : Die} {g : Nat × Place → Nat × Place} (hx : x.Canonical) (hy : y.places = x.places.map g) (hg : ∀ e, (g e).1 = e.1)
    (hm : ∀ e, (g e).2.mem = e.2.mem) (p : Nat) : Memory.wf (y.place p).mem = true := by
  have h := hx.2.2 p
  unfold Die.place at h ⊢
  rw [hy]
  revert h
  generalize x.places = l
  induction l with
  | nil => exact id
  | cons e r ih =>
    simp only [List.map_cons, sget, hg]
    split
    · rw [hm]; exact id
    · exact ih
theorem canonical_places {x : Die} {g : Nat × Place → Nat × Place} (hx : x.Canonical) (hg : ∀ e, (g e).1 = e.1)
    (hm : ∀ e, (g e).2.mem = e.2.mem) : ({ x with places := x.places.map g } : Die).Canonical := ⟨hx.1, hx.2.1, wf_place_map hx rfl hg hm⟩
theorem running_saved {F : Fuses} {L : List Knot} {s : State} (h : Kept F L s) {p cid : Nat} {c : Ctx} (hr : s.running p = some (cid, c)) :
    savedCanonical c.saved := by
  unfold State.running at hr
  split at hr
  · obtain ⟨c', hf, hc⟩ := Option.map_eq_some_iff.1 hr
    cases hc
    exact ctxs_find (h.ctxs p) hf
  · cases hr
theorem kept_foldl_mem {F : Fuses} {L : List Knot} {α : Type} {f : State → α → State} {l : List α} {s0 : State} (h0 : Kept F L s0)
    (hf : ∀ t a, a ∈ l → Kept F L t → Kept F L (f t a)) : Kept F L (l.foldl f s0) := by
  induction l generalizing s0 with
  | nil => exact h0
  | cons a r ih => exact ih (hf _ a (List.mem_cons_self ..) h0) (fun t b hb => hf t b (List.mem_cons_of_mem _ hb))
theorem saveDies_saved {F : Fuses} {L : List Knot} {s : State} (h : Kept F L s) (p : Nat) (c : Ctx) : savedCanonical (s.saveDies p c) := by
  intro v hv
  obtain ⟨site, -, hv⟩ := List.mem_filterMap.1 hv
  obtain ⟨d, -, rfl⟩ := Option.map_eq_some_iff.1 hv
  exact auto_toSave (h.die d)

theorem kept_setSpadPwr {F : Fuses} {L : List Knot} {s : State} (h : Kept F L s) (d : Nat) (v : Nat) :
    Kept F L (State.setSpadPwr s d v) := by
  unfold State.setSpadPwr
  try dsimp only
  repeat' first
    | with_reducible assumption
    | with_reducible apply kept_setRg
    | with_reducible apply kept_modDie
    | with_reducible apply kept_setRgB
    | with_reducible refine fun x hx => (?_ : Die.Canonical _)
    | exact (hx : Die.Canonical x).1
    | exact (hx : Die.Canonical x).2.1
    | exact (hx : Die.Canonical x).2.2
    | with_reducible apply auto_keepGroups
    | with_reducible refine Die.canonical_mk ?_ ?_ ?_

theorem kept_armPlace {F : Fuses} {L : List Knot} {s : State} (h : Kept F L s) (d : Nat) (p : Nat) (slot : Nat) (gen : Nat) :
    Kept F L (State.armPlace s d p slot gen) := by
  unfold State.armPlace
  try dsimp only
  repeat' first
    | with_reducible assumption
    | with_reducible apply kept_modPlace
    | with_reducible apply kept_setRgB
    | with_reducible refine fun x hx => (?_ : Memory.wf _ = true)
    | exact (hx : Memory.wf _ = true)

theorem kept_writeBinds {F : Fuses} {L : List Knot} {s : State} (h : Kept F L s) (p : Nat) (ph : Phase) :
    Kept F L (State.writeBinds s p ph) := by
  unfold State.writeBinds
  try dsimp only
  repeat' first
    | with_reducible assumption
    | with_reducible apply kept_setRg
    | with_reducible apply kept_foldl
    | (with_reducible intro _ _ _; try dsimp only)
    | split
    | with_reducible apply kept_wregs

theorem kept_writeTab {F : Fuses} {L : List Knot} {s : State} (h : Kept F L s) (site : Nat) (base : Nat) (bs : List Byte) :
    Kept F L (State.writeTab s site base bs) := by
  unfold State.writeTab
  try dsimp only
  repeat' first
    | with_reducible assumption
    | with_reducible apply kept_modDie
    | with_reducible refine fun x hx => (?_ : Die.Canonical _)
    | with_reducible apply Memory.wf_writeBytes
    | with_reducible apply Memory.wf_clearRange
    | exact (hx : Die.Canonical x).1
    | exact (hx : Die.Canonical x).2.1
    | exact (hx : Die.Canonical x).2.2
    | with_reducible refine Die.canonical_mk ?_ ?_ ?_
    | split

theorem kept_armStep {F : Fuses} {L : List Knot} {s : State} (h : Kept F L s) (p : Nat) :
    Kept F L (State.armStep s p) := by
  unfold State.armStep
  try dsimp only
  repeat' first
    | with_reducible assumption
    | with_reducible apply kept_setRg
    | with_reducible apply kept_setRgB
    | with_reducible apply kept_foldl
    | with_reducible apply kept_ite
    | (with_reducible intro _ _ _; try dsimp only)
    | with_reducible intro _
    | split

theorem kept_loadPhase {F : Fuses} {L : List Knot} {s : State} (h : Kept F L s) (p : Nat) (img : Image) (n : Nat) :
    Kept F L (State.loadPhase s p img n).1 := by
  unfold State.loadPhase
  try dsimp only
  repeat' first
    | with_reducible assumption
    | with_reducible apply kept_setRgF
    | with_reducible apply kept_modPlace
    | with_reducible apply kept_armPlace
    | with_reducible apply kept_armStep
    | with_reducible apply kept_foldl
    | with_reducible apply kept_ite_fst
    | with_reducible refine fun x hx => (?_ : Memory.wf _ = true)
    | with_reducible apply auto_fillSlot
    | dsimp only
    | (with_reducible intro _ _ _; try dsimp only)
    | with_reducible intro _
    | split
    | with_reducible apply kept_writeBinds
    | with_reducible apply kept_writeTab

theorem kept_flushPart {F : Fuses} {L : List Knot} {s : State} (h : Kept F L s) (p : Nat) : Kept F L (State.flushPart s p) := by
  unfold State.flushPart
  refine kept_foldl h (fun t d ht => ?_)
  dsimp only
  apply kept_bumpErr
  apply kept_modDie ht
  exact fun _ hx => canonical_places hx (fun _ => rfl) (fun _ => rfl)

theorem kept_idlePart {F : Fuses} {L : List Knot} {s : State} (h : Kept F L s) (p : Nat) : Kept F L (State.idlePart s p) := by
  unfold State.idlePart
  refine kept_foldl h (fun t d ht => ?_)
  apply kept_modDie ht
  exact fun _ hx => canonical_places hx (fun _ => rfl) (fun _ => rfl)

theorem kept_wiresOff {F : Fuses} {L : List Knot} {s : State} (h : Kept F L s) (p : Nat) : Kept F L (State.wiresOff s p) := by
  unfold State.wiresOff
  exact kept_foldl h (fun _ _ ht => kept_modDie ht (fun _ hx => canonical_places hx (fun _ => rfl) (fun _ => rfl)))

theorem kept_reconfigure {F : Fuses} {L : List Knot} {s : State} (h : Kept F L s) (p : Nat) (forced : Bool) :
    Kept F L (State.reconfigure s p forced) := by
  unfold State.reconfigure
  split
  · exact h
  · rename_i cid c hr
    have hc : savedCanonical c.saved := running_saved h hr
    extract_lets s1 x0 s2 n x again s3 s4 r
    have h1 : Kept F L s1 := kept_idlePart (kept_flushPart h ..) ..
    clear_value s1
    have h2 : Kept F L s2 := kept_setPart h1 (Part.canonical_of rfl rfl (h1.part p))
    clear_value s2
    have h3 : Kept F L s3 := by
      refine kept_setPart h2 ?_
      exact ⟨ctxs_sput (h2.ctxs p) hc, h2.doze p⟩
    clear_value s3
    have h4 : Kept F L s4 := kept_ite (fun _ => kept_wiresOff h3 _) (fun _ => h3)
    clear_value s4
    have h5 : Kept F L r.1 := kept_loadPhase h4 ..
    exact kept_ite (fun _ => kept_ite (fun _ => h5) (fun _ => kept_endJob h5 ..)) (fun _ => kept_endJob h2 ..)

theorem kept_drainBegin {F : Fuses} {L : List Knot} {s : State} (h : Kept F L s) (p : Nat) :
    Kept F L (State.drainBegin s p) := by
  unfold State.drainBegin
  try dsimp only
  repeat' first
    | with_reducible assumption
    | with_reducible apply kept_setPart
    | with_reducible apply kept_ite
    | refine Part.canonical_of rfl rfl (Kept.part (F := F) (L := L) ?_ _)
    | with_reducible intro _
    | split

theorem kept_drainedIn {F : Fuses} {L : List Knot} {s : State} (h : Kept F L s) (p : Nat) (site : Nat) :
    Kept F L (State.drainedIn s p site) := by
  unfold State.drainedIn
  try dsimp only
  repeat' first
    | with_reducible assumption
    | with_reducible apply kept_setPart
    | with_reducible apply kept_reconfigure
    | with_reducible apply kept_ite
    | refine Part.canonical_of rfl rfl (Kept.part (F := F) (L := L) ?_ _)
    | with_reducible intro _

theorem kept_phaseEnd {F : Fuses} {L : List Knot} {s : State} (h : Kept F L s) (d : Nat) :
    Kept F L (State.phaseEnd s d) := by
  unfold State.phaseEnd
  try dsimp only
  repeat' first
    | with_reducible assumption
    | with_reducible apply kept_modDie
    | with_reducible apply kept_pcdEvent
    | with_reducible apply kept_ite
    | with_reducible refine fun x hx => (?_ : Die.Canonical _)
    | exact (hx : Die.Canonical x)
    | with_reducible intro _
    | split

theorem kept_scBoot {F : Fuses} {L : List Knot} {s : State} (h : Kept F L s) (d : Nat) (c : Nat) (v : Nat) :
    Kept F L (State.scBoot s d c v) := by
  unfold State.scBoot
  try dsimp only
  repeat' first
    | with_reducible assumption
    | with_reducible apply kept_setRg
    | with_reducible apply kept_setSc
    | with_reducible apply kept_ite
    | with_reducible intro _

theorem kept_keepDeltas {F : Fuses} {L : List Knot} {t : State} (h : Kept F L t) (s : State) (d : Nat) : Kept F L (State.keepDeltas s t d) := by
  unfold State.keepDeltas
  exact kept_modDie h (fun _ hx => hx)

theorem kept_cacheCorr {F : Fuses} {L : List Knot} {s : State} (h : Kept F L s) (d : Nat) :
    Kept F L (State.cacheCorr s d) := by
  unfold State.cacheCorr
  try dsimp only
  repeat' first
    | with_reducible assumption
    | with_reducible apply kept_bumpErr

theorem kept_cacheJudge {F : Fuses} {L : List Knot} {s : State} (h : Kept F L s) (d : Nat) (array : Nat) (l : CLine) (k : Nat) (n : Nat) :
    Kept F L (State.cacheJudge s d array l k n).1 := by
  unfold State.cacheJudge
  try dsimp only
  repeat' first
    | with_reducible assumption
    | with_reducible apply kept_cacheCorr
    | with_reducible apply kept_takeFree
    | with_reducible apply kept_raise
    | with_reducible apply kept_foldl_fst
    | with_reducible apply kept_ite
    | with_reducible apply kept_ite_fst
    | dsimp only
    | (with_reducible intro _ _ _; try dsimp only)
    | with_reducible intro _
    | split

theorem kept_lineBack {F : Fuses} {L : List Knot} {s : State} (h : Kept F L s) (p : Nat) (d : Nat) (l : CLine) :
    Kept F L (State.lineBack s p d l) := by
  unfold State.lineBack
  try dsimp only
  repeat' first
    | with_reducible assumption
    | with_reducible apply kept_cacheJudge
    | with_reducible apply kept_hbmWrite
    | with_reducible apply kept_ite
    | with_reducible intro _

theorem kept_cleanDie {F : Fuses} {L : List Knot} {s : State} (h : Kept F L s) (p : Nat) (d : Nat) :
    Kept F L (State.cleanDie s p d) := by
  unfold State.cleanDie
  try dsimp only
  repeat' first
    | with_reducible assumption
    | with_reducible apply kept_lineBack
    | with_reducible apply kept_modDie
    | with_reducible apply kept_foldl
    | with_reducible refine fun x hx => (?_ : Die.Canonical _)
    | exact (hx : Die.Canonical x)
    | (with_reducible intro _ _ _; try dsimp only)

theorem kept_saveArea {F : Fuses} {L : List Knot} {s : State} (h : Kept F L s) (p : Nat) (c : Ctx) :
    Kept F L (State.saveArea s p c) := by
  unfold State.saveArea
  try dsimp only
  repeat' first
    | with_reducible assumption
    | with_reducible apply kept_cleanDie
    | with_reducible apply kept_hbmWrite
    | with_reducible apply kept_foldl
    | (with_reducible intro _ _ _; try dsimp only)
    | with_reducible apply kept_wfree

theorem kept_saveCtx {F : Fuses} {L : List Knot} {s : State} (h : Kept F L s) (p cid : Nat) : Kept F L (State.saveCtx s p cid) := by
  unfold State.saveCtx
  split
  · exact h
  · rename_i c hc
    have hs : savedCanonical (s.saveDies p c) := saveDies_saved h _ _
    generalize s.saveDies p c = sv at hs
    have h1 : Kept F L (s.saveArea p c) := kept_saveArea h ..
    generalize s.saveArea p c = s1 at h1
    extract_lets c1
    refine kept_setPart h1 ?_
    exact ⟨ctxs_sput (h1.ctxs p) hs, h1.doze p⟩

theorem kept_imageModes {F : Fuses} {L : List Knot} {s : State} (h : Kept F L s) (d : Nat) (site : Nat) (img : Image) :
    Kept F L (State.imageModes s d site img) := by
  unfold State.imageModes
  try dsimp only
  repeat' first
    | with_reducible assumption
    | with_reducible apply kept_setRg
    | with_reducible apply kept_setSpadPwr

theorem kept_takeDies {F : Fuses} {L : List Knot} {s : State} (h : Kept F L s) (p cid : Nat) (img : Image) :
    Kept F L (State.takeDies s p cid img) := by
  unfold State.takeDies
  refine kept_foldl h (fun t site ht => ?_)
  dsimp only
  split
  · apply kept_imageModes
    refine kept_foldl ?_ (fun _ _ hu => kept_setRg hu)
    apply kept_modDie ht
    intro x hx
    exact (auto_cleared hx : (x.cleared).Canonical)
  · exact ht

theorem kept_refill {F : Fuses} {L : List Knot} {s : State} (h : Kept F L s) (p : Nat) (d : Nat) (e : Nat × Place) :
    Kept F L (State.refill s p d e) := by
  unfold State.refill
  try dsimp only
  repeat' first
    | with_reducible assumption
    | with_reducible apply kept_hbmRead
    | with_reducible apply kept_modPlace
    | with_reducible apply kept_foldl
    | with_reducible apply kept_ite
    | with_reducible refine fun x hx => (?_ : Memory.wf _ = true)
    | with_reducible apply auto_fillSlot
    | (with_reducible intro _ _ _; try dsimp only)
    | with_reducible intro _

theorem kept_restoreDie {F : Fuses} {L : List Knot} {s : State} (h : Kept F L s) (p d : Nat) (v : SavedDie) (hv : v.die.Canonical) :
    Kept F L (State.restoreDie s p d v) := by
  unfold State.restoreDie
  extract_lets t1 t2 t3
  have h1 : Kept F L t1 := kept_modDie h (fun _ hx => auto_restore hx hv)
  clear_value t1
  have h2 : Kept F L t2 := kept_keepDeltas (kept_foldl h1 (fun _ _ hu => kept_setRg hu)) ..
  clear_value t2
  have h3 : Kept F L t3 := kept_foldl h2 (fun _ _ hu => kept_refill hu ..)
  clear_value t3
  refine kept_foldl h3 (fun u e hu => ?_)
  refine kept_ite (fun _ => kept_modPlace (kept_armPlace hu ..) ?_) (fun _ => kept_modPlace hu ?_)
  · exact fun _ hx => hx
  · exact fun _ hx => hx

theorem kept_beginCtx {F : Fuses} {L : List Knot} {s : State} (h : Kept F L s) (p : Nat) : Kept F L (State.beginCtx s p) := by
  unfold State.beginCtx
  split
  · exact h
  · rename_i cid c hr
    have hs : savedCanonical c.saved := running_saved h hr
    extract_lets s1 r
    have h1 : Kept F L s1 := by
      refine kept_modPart h (fun x hx => ?_)
      exact ⟨ctxs_sput hx.1 saved_nil, hx.2⟩
    clear_value s1
    have h3 : Kept F L r.1 := kept_loadPhase h1 ..
    clear_value r
    refine kept_ite (fun _ => kept_endJob h3 ..) (fun _ => kept_ite (fun _ => ?_) (fun _ => ?_))
    · refine kept_foldl h3 (fun t b ht => ?_)
      split
      · exact kept_scBoot ht ..
      · exact ht
    · refine kept_foldl_mem h3 (fun t v hv ht => ?_)
      split
      · exact kept_restoreDie ht _ _ _ (hs v hv)
      · exact ht

theorem kept_runCtx {F : Fuses} {L : List Knot} {s : State} (h : Kept F L s) (p cid : Nat) : Kept F L (State.runCtx s p cid) := by
  unfold State.runCtx
  split
  · exact h
  · rename_i c hc
    have hs : savedCanonical c.saved := ctxs_find (h.ctxs p) hc
    extract_lets s1 s2
    have h1 : Kept F L s1 := kept_takeDies h ..
    clear_value s1
    have h2 : Kept F L s2 := by
      refine kept_modPart h1 (fun x hx => ?_)
      exact ⟨ctxs_sput hx.1 hs, hx.2⟩
    clear_value s2
    exact kept_ite (fun _ => kept_beginCtx h2 _) (fun _ => h2)

theorem kept_tryRun {F : Fuses} {L : List Knot} {s : State} (h : Kept F L s) (p : Nat) (after : Nat) :
    Kept F L (State.tryRun s p after) := by
  unfold State.tryRun
  try dsimp only
  repeat' first
    | with_reducible assumption
    | with_reducible apply kept_runCtx
    | with_reducible apply kept_ite
    | with_reducible intro _
    | split

end Sys2Proof.Machine
end

