-- ==== Sys2Proof/Laws/KeptPlaces.lean ====
section
/-! SUPPORT. What the operations of Machine/Places.lean keep. -/

namespace Sys2Proof.Machine

theorem kept_refuseBy {F : Fuses} {L : List Knot} {s : State} (h : Kept F L s) (src : Source) :
    Kept F L (State.refuseBy s src) := by
  unfold State.refuseBy
  try dsimp only
  repeat' first
    | with_reducible assumption
    | with_reducible apply kept_modDie
    | with_reducible apply kept_setPcd
    | (with_reducible refine fun _ hx => (?_ : Memory.wf _ = true); exact hx)
    | with_reducible refine fun x hx => (?_ : Die.Canonical _)
    | exact (hx : Die.Canonical x)
    | split

theorem kept_scTrapAt {F : Fuses} {L : List Knot} {s : State} (h : Kept F L s) (d : Nat) (c : Nat) (tr : Trap) (tval : Nat) :
    Kept F L (State.scTrapAt s d c tr tval) := by
  unfold State.scTrapAt
  try dsimp only
  repeat' first
    | with_reducible assumption
    | with_reducible apply kept_setSc
    | with_reducible apply kept_ite
    | with_reducible intro _

theorem kept_scTrap {F : Fuses} {L : List Knot} {s : State} (h : Kept F L s) (d : Nat) (c : Nat) (tr : Trap) :
    Kept F L (State.scTrap s d c tr) := by
  unfold State.scTrap
  try dsimp only
  repeat' first
    | with_reducible assumption
    | with_reducible apply kept_scTrapAt

theorem kept_atSite {F : Fuses} {L : List Knot} {s : State} (h : Kept F L s) (src : Source) (site : Nat) (f : State → Nat → State) (hff : ∀ t a1, Kept F L t → Kept F L (f t a1)) :
    Kept F L (State.atSite s src site f) := by
  unfold State.atSite
  try dsimp only
  repeat' first
    | with_reducible assumption
    | with_reducible apply hff
    | with_reducible apply kept_refuseBy
    | with_reducible apply kept_scTrap
    | with_reducible apply kept_ite
    | with_reducible intro _
    | split

theorem kept_plOp {F : Fuses} {L : List Knot} {s : State} (h : Kept F L s) (d : Nat) (c : Nat) (f : State → State) (hff : ∀ t , Kept F L t → Kept F L (f t )) :
    Kept F L (State.plOp s d c f) := by
  unfold State.plOp
  try dsimp only
  repeat' first
    | with_reducible assumption
    | with_reducible apply hff
    | with_reducible apply kept_scTrap
    | with_reducible apply kept_ite
    | with_reducible intro _

theorem kept_fxOp {F : Fuses} {L : List Knot} {s : State} (h : Kept F L s) (d : Nat) (c : Nat) (f : State → State) (hff : ∀ t , Kept F L t → Kept F L (f t )) :
    Kept F L (State.fxOp s d c f) := by
  unfold State.fxOp
  try dsimp only
  repeat' first
    | with_reducible assumption
    | with_reducible apply hff
    | with_reducible apply kept_scTrap
    | with_reducible apply kept_ite
    | with_reducible intro _

theorem kept_plGiveUp {F : Fuses} {L : List Knot} {s : State} (h : Kept F L s) (d : Nat) (p : Nat) (c : Nat) :
    Kept F L (State.plGiveUp s d p c) := by
  unfold State.plGiveUp
  try dsimp only
  repeat' first
    | with_reducible assumption
    | with_reducible apply kept_setPlace
    | with_reducible apply kept_modDie
    | with_reducible apply kept_setRgB
    | with_reducible apply kept_setSc
    | with_reducible apply kept_modPart
    | with_reducible apply kept_setPcd
    | with_reducible apply kept_ite
    | (with_reducible refine fun _ hx => (?_ : Memory.wf _ = true); exact hx)
    | with_reducible refine fun x hx => (?_ : Die.Canonical _)
    | with_reducible refine fun x hx => (?_ : Part.Canonical _)
    | exact (hx : Part.Canonical x)
    | exact (hx : Die.Canonical x)
    | with_reducible refine Kept.plmem (F := F) (L := L) ?_ _ _
    | with_reducible intro _
    | split

theorem kept_takePlace {F : Fuses} {L : List Knot} {s : State} (h : Kept F L s) (d : Nat) (p : Nat) (c : Nat) (rd : Nat) :
    Kept F L (State.takePlace s d p c rd) := by
  unfold State.takePlace
  try dsimp only
  repeat' first
    | with_reducible assumption
    | with_reducible apply kept_plGiveUp
    | with_reducible apply kept_modDie
    | with_reducible apply kept_modPlace
    | (with_reducible refine fun _ hx => (?_ : Memory.wf _ = true); exact hx)
    | with_reducible refine fun x hx => (?_ : Die.Canonical _)
    | exact (hx : Die.Canonical x)

theorem kept_plArm {F : Fuses} {L : List Knot} {s : State} (h : Kept F L s) (d : Nat) (c : Nat) (rd : BitVec 5) (rs1 : BitVec 5) (rs2 : BitVec 5) :
    Kept F L (State.plArm s d c rd rs1 rs2) := by
  unfold State.plArm
  try dsimp only
  repeat' first
    | with_reducible assumption
    | with_reducible apply kept_plOp
    | with_reducible apply kept_scRet
    | with_reducible apply kept_takePlace
    | with_reducible apply kept_armPlace
    | with_reducible apply kept_ite
    | with_reducible intro _

theorem kept_plStop {F : Fuses} {L : List Knot} {s : State} (h : Kept F L s) (d : Nat) (c : Nat) (rd : BitVec 5) (rs1 : BitVec 5) :
    Kept F L (State.plStop s d c rd rs1) := by
  unfold State.plStop
  try dsimp only
  repeat' first
    | with_reducible assumption
    | with_reducible apply kept_plOp
    | with_reducible apply kept_takeFree
    | with_reducible apply kept_scRet
    | with_reducible apply kept_takePlace
    | with_reducible apply kept_modPlace
    | with_reducible apply kept_setPend
    | with_reducible apply kept_raise
    | with_reducible apply kept_drainBegin
    | with_reducible apply kept_ite
    | (with_reducible refine fun _ hx => (?_ : Memory.wf _ = true); exact hx)
    | with_reducible intro _
    | split

theorem kept_plStat {F : Fuses} {L : List Knot} {s : State} (h : Kept F L s) (d : Nat) (c : Nat) (rd : BitVec 5) (rs1 : BitVec 5) :
    Kept F L (State.plStat s d c rd rs1) := by
  unfold State.plStat
  try dsimp only
  repeat' first
    | with_reducible assumption
    | with_reducible apply kept_plOp
    | with_reducible apply kept_takeFree
    | with_reducible apply kept_scRet
    | with_reducible apply kept_ite
    | with_reducible intro _
    | split

theorem kept_fxStart {F : Fuses} {L : List Knot} {s : State} (h : Kept F L s) (d : Nat) (c : Nat) (rd : BitVec 5) :
    Kept F L (State.fxStart s d c rd) := by
  unfold State.fxStart
  try dsimp only
  repeat' first
    | with_reducible assumption
    | with_reducible apply kept_fxOp
    | with_reducible apply kept_spBroadcast
    | with_reducible apply kept_scRet
    | with_reducible apply kept_ite
    | with_reducible intro _
    | split

theorem kept_fxDmaGo {F : Fuses} {L : List Knot} {s : State} (h : Kept F L s) (d : Nat) (c : Nat) (rd : Nat) (addr : Nat) (m : Nat) :
    Kept F L (State.fxDmaGo s d c rd addr m) := by
  unfold State.fxDmaGo
  try dsimp only
  repeat' first
    | with_reducible assumption
    | with_reducible apply kept_modDie
    | with_reducible apply kept_setPcd
    | with_reducible apply kept_setSc
    | with_reducible apply kept_scRet
    | with_reducible apply kept_ite
    | (with_reducible refine fun _ hx => (?_ : Memory.wf _ = true); exact hx)
    | with_reducible refine fun x hx => (?_ : Die.Canonical _)
    | exact (hx : Die.Canonical x)
    | with_reducible intro _

theorem kept_fxDma {F : Fuses} {L : List Knot} {s : State} (h : Kept F L s) (d : Nat) (c : Nat) (rd : BitVec 5) (rs1 : BitVec 5) (rs2 : BitVec 5) :
    Kept F L (State.fxDma s d c rd rs1 rs2) := by
  unfold State.fxDma
  try dsimp only
  repeat' first
    | with_reducible assumption
    | with_reducible apply kept_fxOp
    | with_reducible apply kept_scRet
    | with_reducible apply kept_setSc
    | with_reducible apply kept_fxDmaGo
    | with_reducible apply kept_ite
    | with_reducible intro _

theorem kept_fxDpoll {F : Fuses} {L : List Knot} {s : State} (h : Kept F L s) (d : Nat) (c : Nat) (rd : BitVec 5) (rs1 : BitVec 5) :
    Kept F L (State.fxDpoll s d c rd rs1) := by
  unfold State.fxDpoll
  try dsimp only
  repeat' first
    | with_reducible assumption
    | with_reducible apply kept_fxOp
    | with_reducible apply kept_scRet
    | with_reducible intro _

theorem kept_barCheck {F : Fuses} {L : List Knot} {s : State} (h : Kept F L s) (d : Nat) (b : Nat) :
    Kept F L (State.barCheck s d b) := by
  unfold State.barCheck
  try dsimp only
  repeat' first
    | with_reducible assumption
    | with_reducible apply kept_modDie
    | with_reducible apply kept_barUp
    | with_reducible apply kept_ite
    | with_reducible refine fun x hx => (?_ : Die.Canonical _)
    | exact (hx : Die.Canonical x)
    | with_reducible intro _
    | split

theorem kept_fxBar {F : Fuses} {L : List Knot} {s : State} (h : Kept F L s) (d : Nat) (c : Nat) (rd : BitVec 5) (rs1 : BitVec 5) :
    Kept F L (State.fxBar s d c rd rs1) := by
  unfold State.fxBar
  try dsimp only
  repeat' first
    | with_reducible assumption
    | with_reducible apply kept_fxOp
    | with_reducible apply kept_setSc
    | with_reducible apply kept_barCheck
    | with_reducible intro _

theorem kept_barTimeout {F : Fuses} {L : List Knot} {s : State} (h : Kept F L s) (d : Nat) (c : Nat) :
    Kept F L (State.barTimeout s d c) := by
  unfold State.barTimeout
  try dsimp only
  repeat' first
    | with_reducible assumption
    | with_reducible apply kept_modDie
    | with_reducible apply kept_barEnd
    | with_reducible apply kept_ite
    | with_reducible apply die_ite
    | with_reducible refine fun x hx => (?_ : Die.Canonical _)
    | exact (hx : Die.Canonical x)
    | with_reducible intro _
    | split

theorem kept_fxSpsend {F : Fuses} {L : List Knot} {s : State} (h : Kept F L s) (d : Nat) (c : Nat) (rd : BitVec 5) (rs1 : BitVec 5) (rs2 : BitVec 5) :
    Kept F L (State.fxSpsend s d c rd rs1 rs2) := by
  unfold State.fxSpsend
  try dsimp only
  repeat' first
    | with_reducible assumption
    | with_reducible apply kept_fxOp
    | with_reducible apply kept_spSend
    | with_reducible apply kept_scRet
    | with_reducible intro _
    | split

theorem kept_fxSprecv {F : Fuses} {L : List Knot} {s : State} (h : Kept F L s) (d : Nat) (c : Nat) (rd : BitVec 5) :
    Kept F L (State.fxSprecv s d c rd) := by
  unfold State.fxSprecv
  try dsimp only
  repeat' first
    | with_reducible assumption
    | with_reducible apply kept_fxOp
    | with_reducible apply kept_modDie
    | with_reducible apply kept_setSc
    | with_reducible apply kept_scRet
    | with_reducible refine fun x hx => (?_ : Die.Canonical _)
    | exact (hx : Die.Canonical x)
    | with_reducible intro _
    | split

theorem kept_monitorTrap {F : Fuses} {L : List Knot} {s : State} (h : Kept F L s) (d : Nat) (c : Nat) :
    Kept F L (State.monitorTrap s d c) := by
  unfold State.monitorTrap
  try dsimp only
  repeat' first
    | with_reducible assumption
    | with_reducible apply kept_setSc
    | with_reducible apply kept_raise
    | with_reducible apply kept_ite
    | with_reducible intro _

theorem kept_scCtrl {F : Fuses} {L : List Knot} {s : State} (h : Kept F L s) (src : Source) (site : Nat) (c : Nat) (v : W64) :
    Kept F L (State.scCtrl s src site c v) := by
  unfold State.scCtrl
  try dsimp only
  repeat' first
    | with_reducible assumption
    | with_reducible apply kept_atSite
    | with_reducible apply kept_scBoot
    | with_reducible apply kept_ite
    | (with_reducible intro _ _ _; try dsimp only)
    | with_reducible intro _

theorem kept_stopsEnd {F : Fuses} {L : List Knot} {s : State} (h : Kept F L s) (d : Nat) :
    Kept F L (State.stopsEnd s d) := by
  unfold State.stopsEnd
  try dsimp only
  repeat' first
    | with_reducible assumption
    | with_reducible apply kept_modDie
    | with_reducible apply kept_modPlace
    | with_reducible apply kept_foldl
    | with_reducible apply kept_ite
    | (with_reducible refine fun _ hx => (?_ : Memory.wf _ = true); exact hx)
    | with_reducible refine fun x hx => (?_ : Die.Canonical _)
    | with_reducible apply auto_cutRuns
    | (with_reducible intro _ _ _; try dsimp only)
    | with_reducible intro _
    | split

theorem kept_placeDone {F : Fuses} {L : List Knot} {s : State} (h : Kept F L s) (d : Nat) (p : Nat) :
    Kept F L (State.placeDone s d p) := by
  unfold State.placeDone
  try dsimp only
  repeat' first
    | with_reducible assumption
    | with_reducible apply kept_modPlace
    | with_reducible apply kept_setPend
    | with_reducible apply kept_phaseEnd
    | with_reducible apply kept_drainBegin
    | with_reducible apply kept_powerSelect
    | with_reducible apply kept_ite
    | (with_reducible refine fun _ hx => (?_ : Memory.wf _ = true); exact hx)
    | with_reducible intro _
    | split

end Sys2Proof.Machine
end

