-- ==== Sys2Proof/Laws/KeptSpad.lean ====
section
/-! SUPPORT. What the operations of Machine/Spad.lean keep. -/

namespace Sys2Proof.Machine

theorem kept_spadSetOn {F : Fuses} {L : List Knot} {s : State} (h : Kept F L s) (src : Source) (d : Nat) (f : State → Nat → State) (hff : ∀ t a1, Kept F L t → Kept F L (f t a1)) :
    Kept F L (State.spadSetOn s src d f) := by
  unfold State.spadSetOn
  try dsimp only
  repeat' first
    | with_reducible assumption
    | with_reducible apply hff
    | with_reducible apply kept_setRgB
    | with_reducible apply kept_ite
    | with_reducible intro _

theorem kept_spadSet {F : Fuses} {L : List Knot} {s : State} (h : Kept F L s) (src : Source) (site : Nat) (f : State → Nat → State) (hff : ∀ t a1, Kept F L t → Kept F L (f t a1)) :
    Kept F L (State.spadSet s src site f) := by
  unfold State.spadSet
  try dsimp only
  repeat' first
    | with_reducible assumption
    | with_reducible apply kept_atSite
    | with_reducible apply kept_spadSetOn
    | (with_reducible intro _ _ _; try dsimp only)

theorem kept_spadLinear {F : Fuses} {L : List Knot} {s : State} (h : Kept F L s) (src : Source) (site : Nat) (v : W32) :
    Kept F L (State.spadLinear s src site v) := by
  unfold State.spadLinear
  try dsimp only
  repeat' first
    | with_reducible assumption
    | with_reducible apply kept_spadSet
    | with_reducible apply kept_setRg
    | (with_reducible intro _ _ _; try dsimp only)

theorem kept_spadPwr {F : Fuses} {L : List Knot} {s : State} (h : Kept F L s) (src : Source) (site : Nat) (v : W32) :
    Kept F L (State.spadPwr s src site v) := by
  unfold State.spadPwr
  try dsimp only
  repeat' first
    | with_reducible assumption
    | with_reducible apply kept_spadSet
    | with_reducible apply kept_setSpadPwr
    | (with_reducible intro _ _ _; try dsimp only)

theorem kept_spadScrubWrite {F : Fuses} {L : List Knot} {s : State} (h : Kept F L s) (src : Source) (site : Nat) (v : W32) :
    Kept F L (State.spadScrubWrite s src site v) := by
  unfold State.spadScrubWrite
  try dsimp only
  repeat' first
    | with_reducible assumption
    | with_reducible apply kept_spadSet
    | with_reducible apply kept_spadScrub
    | with_reducible apply kept_ite
    | (with_reducible intro _ _ _; try dsimp only)
    | with_reducible intro _

theorem kept_groupReady {F : Fuses} {L : List Knot} {s : State} (h : Kept F L s) (d : Nat) (g : Nat) :
    Kept F L (State.groupReady s d g) := by
  unfold State.groupReady
  try dsimp only
  repeat' first
    | with_reducible assumption
    | with_reducible apply kept_modDie
    | with_reducible apply kept_setRgB
    | with_reducible apply kept_beginCtx
    | with_reducible apply kept_ite
    | with_reducible refine fun x hx => (?_ : Die.Canonical _)
    | exact (hx : Die.Canonical x).1
    | exact (hx : Die.Canonical x).2.1
    | exact (hx : Die.Canonical x).2.2
    | with_reducible apply auto_keepGroups
    | with_reducible refine Die.canonical_mk ?_ ?_ ?_
    | with_reducible intro _
    | split

theorem kept_spadScrubDone {F : Fuses} {L : List Knot} {s : State} (h : Kept F L s) (d : Nat) (bad : Option Nat) :
    Kept F L (State.spadScrubDone s d bad) := by
  unfold State.spadScrubDone
  try dsimp only
  repeat' first
    | with_reducible assumption
    | with_reducible apply kept_modDie
    | with_reducible apply kept_setRg
    | with_reducible apply kept_setRgB
    | with_reducible apply kept_setRgF
    | with_reducible apply kept_spadRecord
    | with_reducible apply kept_raise
    | with_reducible apply kept_releaseSettle
    | with_reducible apply kept_tryRun
    | with_reducible apply kept_ite
    | with_reducible refine fun x hx => (?_ : Die.Canonical _)
    | exact (hx : Die.Canonical x)
    | exact (hx : Die.Canonical x).2.1
    | exact (hx : Die.Canonical x).2.2
    | with_reducible refine Die.canonical_mk ?_ ?_ ?_
    | with_reducible exact wf_nil
    | with_reducible intro _
    | split

theorem kept_spadFetch {F : Fuses} {L : List Knot} {s : State} (h : Kept F L s) (d : Nat) (port : Nat) (a : Nat) (n : Nat) :
    Kept F L (State.spadFetch s d port a n).1 := by
  unfold State.spadFetch
  try dsimp only
  repeat' first
    | with_reducible assumption
    | with_reducible apply kept_bumpPerf
    | with_reducible apply kept_spadCheckLines
    | with_reducible apply kept_spadBad
    | split

theorem kept_spadPut {F : Fuses} {L : List Knot} {s : State} (h : Kept F L s) (d : Nat) (port : Nat) (a : Nat) (bs : List Byte) :
    Kept F L (State.spadPut s d port a bs) := by
  unfold State.spadPut
  try dsimp only
  repeat' first
    | with_reducible assumption
    | with_reducible apply kept_bumpPerf
    | with_reducible apply kept_spadStoreBytes

theorem kept_spadAsk {F : Fuses} {L : List Knot} {s : State} (h : Kept F L s) (d : Nat) (r : SpadReq) :
    Kept F L (State.spadAsk s d r) := by
  unfold State.spadAsk
  try dsimp only
  repeat' first
    | with_reducible assumption
    | with_reducible apply kept_modDie
    | with_reducible refine fun x hx => (?_ : Die.Canonical _)
    | exact (hx : Die.Canonical x)

theorem kept_dieRefuse {F : Fuses} {L : List Knot} {s : State} (h : Kept F L s) (d : Nat) :
    Kept F L (State.dieRefuse s d) := by
  unfold State.dieRefuse
  try dsimp only
  repeat' first
    | with_reducible assumption
    | with_reducible apply kept_modDie
    | with_reducible refine fun x hx => (?_ : Die.Canonical _)
    | exact (hx : Die.Canonical x)

theorem kept_spadReply {F : Fuses} {L : List Knot} {s : State} (h : Kept F L s) (r : SpadReq) (res : Option (List Byte)) :
    Kept F L (State.spadReply s r res) := by
  unfold State.spadReply
  try dsimp only
  repeat' first
    | with_reducible assumption
    | with_reducible apply kept_inject
    | with_reducible apply kept_doomTx
    | with_reducible apply kept_setSc
    | with_reducible apply kept_scTrap
    | split
    | with_reducible apply kept_wrdata

theorem kept_dynAsk {F : Fuses} {L : List Knot} {s : State} (h : Kept F L s) (d : Nat) (r : SpadReq) :
    Kept F L (State.dynAsk s d r) := by
  unfold State.dynAsk
  try dsimp only
  repeat' first
    | with_reducible assumption
    | with_reducible apply kept_spadReply
    | with_reducible apply kept_spadAsk
    | with_reducible apply kept_ite
    | with_reducible intro _

theorem kept_spadRefuse {F : Fuses} {L : List Knot} {s : State} (h : Kept F L s) (d : Nat) (r : SpadReq) :
    Kept F L (State.spadRefuse s d r) := by
  unfold State.spadRefuse
  try dsimp only
  repeat' first
    | with_reducible assumption
    | with_reducible apply kept_refuseBy
    | with_reducible apply kept_dieRefuse
    | with_reducible apply kept_spadReply
    | with_reducible apply kept_ite
    | with_reducible intro _

theorem kept_spadKeep {F : Fuses} {L : List Knot} {s : State} (h : Kept F L s) (d : Nat) (i : Nat) (r : Option SpadReq) :
    Kept F L (State.spadKeep s d i r) := by
  unfold State.spadKeep
  try dsimp only
  repeat' first
    | with_reducible assumption
    | with_reducible apply kept_modDie
    | with_reducible refine fun x hx => (?_ : Die.Canonical _)
    | exact (hx : Die.Canonical x)

theorem kept_spadServe {F : Fuses} {L : List Knot} {s : State} (h : Kept F L s) (d : Nat) (i : Nat) (r : SpadReq) (line : Nat) :
    Kept F L (State.spadServe s d i r line) := by
  unfold State.spadServe
  try dsimp only
  repeat' first
    | with_reducible assumption
    | with_reducible apply kept_spadPut
    | with_reducible apply kept_spadKeep
    | with_reducible apply kept_spadReply
    | with_reducible apply kept_spadFetch
    | with_reducible apply kept_spadRefuse
    | with_reducible apply kept_ite
    | with_reducible intro _
    | split

end Sys2Proof.Machine
end

