-- ==== Sys2Proof/Laws/KeptSeq.lean ====
section
/-! SUPPORT. What the operations of Machine/Seq.lean keep. -/

namespace Sys2Proof.Machine

theorem kept_issueBody {F : Fuses} {L : List Knot} {s : State} (h : Kept F L s) (d : Nat) (p : Nat) (w0 : Body) :
    Kept F L (State.issueBody s d p w0) := by
  cases w0
  all_goals unfold State.issueBody
  try dsimp only
  repeat' first
    | with_reducible assumption
    | with_reducible apply kept_mcNop
    | with_reducible apply kept_loadw
    | with_reducible apply kept_stream
    | with_reducible apply kept_readout
    | with_reducible apply kept_zero
    | with_reducible apply kept_reduce
    | with_reducible apply kept_mcCmdFault
    | with_reducible apply kept_scrNop
    | with_reducible apply kept_rowCmd
    | with_reducible apply kept_smove
    | with_reducible apply kept_scrCmdFault
    | with_reducible apply kept_setup
    | with_reducible apply kept_vIssue
    | with_reducible apply kept_aset
    | with_reducible apply kept_vcCmdFault
    | with_reducible apply kept_ite
    | with_reducible intro _

theorem kept_seqFault {F : Fuses} {L : List Knot} {s : State} (h : Kept F L s) (d : Nat) (p : Nat) (slot : Nat) (cause : Nat) (entry : Nat) :
    Kept F L (State.seqFault s d p slot cause entry) := by
  unfold State.seqFault
  try dsimp only
  repeat' first
    | with_reducible assumption
    | with_reducible apply kept_faultHalt
    | with_reducible apply kept_plRecord
    | with_reducible apply kept_raise

theorem kept_turnEcc {F : Fuses} {L : List Knot} {s : State} (h : Kept F L s) (d : Nat) (p : Nat) (slot : Nat) :
    Kept F L (State.turnEcc s d p slot).1 := by
  unfold State.turnEcc
  try dsimp only
  repeat' first
    | with_reducible assumption
    | with_reducible apply kept_modPlace
    | with_reducible apply kept_foldl_fst
    | with_reducible refine fun x hx => (?_ : Memory.wf _ = true)
    | with_reducible apply auto_flipBytes
    | (with_reducible intro _ _ _; try dsimp only)
    | split

theorem kept_beginTurn {F : Fuses} {L : List Knot} {s : State} (h : Kept F L s) (d : Nat) (p : Nat) (slot : Nat) (nominal : Nat) :
    Kept F L (State.beginTurn s d p slot nominal) := by
  unfold State.beginTurn
  try dsimp only
  repeat' first
    | with_reducible assumption
    | with_reducible apply kept_setPlace
    | with_reducible apply kept_turnEcc
    | with_reducible apply kept_faultHalt
    | with_reducible apply kept_plRecord
    | with_reducible apply kept_raise
    | with_reducible apply kept_seqFault
    | with_reducible apply kept_modPlace
    | with_reducible apply kept_ite
    | (with_reducible refine fun _ hx => (?_ : Memory.wf _ = true); exact hx)
    | with_reducible refine Kept.plmem (F := F) (L := L) ?_ _ _
    | with_reducible intro _
    | split

theorem kept_stepBoundary {F : Fuses} {L : List Knot} {s : State} (h : Kept F L s) (d : Nat) :
    Kept F L (State.stepBoundary s d) := by
  unfold State.stepBoundary
  try dsimp only
  repeat' first
    | with_reducible assumption
    | with_reducible apply kept_modDie
    | with_reducible apply kept_spNotice
    | with_reducible apply kept_ite
    | with_reducible refine fun x hx => (?_ : Die.Canonical _)
    | exact (hx : Die.Canonical x)
    | with_reducible intro _

theorem kept_endTurn {F : Fuses} {L : List Knot} {s : State} (h : Kept F L s) (d : Nat) (p : Nat) (nominal : Nat) :
    Kept F L (State.endTurn s d p nominal) := by
  unfold State.endTurn
  try dsimp only
  repeat' first
    | with_reducible assumption
    | with_reducible apply kept_setRg
    | with_reducible apply kept_modDie
    | with_reducible apply kept_stepBoundary
    | with_reducible apply kept_modPlace
    | with_reducible apply kept_phaseEnd
    | with_reducible apply kept_beginTurn
    | with_reducible apply kept_ite
    | (with_reducible refine fun _ hx => (?_ : Memory.wf _ = true); exact hx)
    | with_reducible refine fun x hx => (?_ : Die.Canonical _)
    | exact (hx : Die.Canonical x)
    | with_reducible intro _

theorem kept_tload {F : Fuses} {L : List Knot} {s : State} (h : Kept F L s) (d : Nat) (p : Nat) (slot : Nat) (addr : Nat) :
    Kept F L (State.tload s d p slot addr) := by
  unfold State.tload
  try dsimp only
  repeat' first
    | with_reducible assumption
    | with_reducible apply kept_seqFault
    | with_reducible apply kept_setPlace
    | with_reducible apply kept_setPcd
    | with_reducible apply kept_raise
    | with_reducible apply kept_ite
    | (with_reducible refine fun _ hx => (?_ : Memory.wf _ = true); exact hx)
    | with_reducible refine Kept.plmem (F := F) (L := L) ?_ _ _
    | with_reducible intro _
    | split

theorem kept_issueEntry {F : Fuses} {L : List Knot} {s : State} (h : Kept F L s) (d : Nat) (p : Nat) (i : Nat) (e : Entry) :
    Kept F L (State.issueEntry s d p i e) := by
  unfold State.issueEntry
  try dsimp only
  repeat' first
    | with_reducible assumption
    | with_reducible apply kept_modPlace
    | with_reducible apply kept_bumpPerf
    | with_reducible apply kept_tload
    | with_reducible apply kept_issueBody
    | with_reducible apply kept_ite
    | (with_reducible refine fun _ hx => (?_ : Memory.wf _ = true); exact hx)
    | with_reducible intro _

end Sys2Proof.Machine
end

