-- ==== Sys2Proof/Laws/KeptTurns.lean ====
section
/-! SUPPORT. What the operations of Machine/Turns.lean keep. -/

namespace Sys2Proof.Machine

theorem kept_depart {F : Fuses} {L : List Knot} {s : State} (h : Kept F L s) (d : Nat) (p : Nat) (lane : Nat) :
    Kept F L (State.depart s d p lane) := by
  unfold State.depart
  try dsimp only
  repeat' first
    | with_reducible assumption
    | with_reducible apply kept_modPlace
    | with_reducible apply kept_modDie
    | with_reducible apply kept_ite
    | with_reducible refine fun x hx => (?_ : Die.Canonical _)
    | with_reducible refine fun x hx => (?_ : Memory.wf _ = true)
    | exact (hx : Memory.wf _ = true)
    | exact (hx : Die.Canonical x)
    | with_reducible intro _
    | split

theorem kept_tokCorr {F : Fuses} {L : List Knot} {s : State} (h : Kept F L s) (d : Nat) :
    Kept F L (State.tokCorr s d) := by
  unfold State.tokCorr
  try dsimp only
  repeat' first
    | with_reducible assumption
    | with_reducible apply kept_bumpErr

theorem kept_enqueue {F : Fuses} {L : List Knot} {s : State} (h : Kept F L s) (d : Nat) (p : Nat) (lane : Nat) (tok : Token) :
    Kept F L (State.enqueue s d p lane tok) := by
  unfold State.enqueue
  try dsimp only
  repeat' first
    | with_reducible assumption
    | with_reducible apply kept_plRecord
    | with_reducible apply kept_raise
    | with_reducible apply kept_modPlace
    | with_reducible apply kept_ite
    | with_reducible refine fun x hx => (?_ : Memory.wf _ = true)
    | exact (hx : Memory.wf _ = true)
    | with_reducible intro _

theorem kept_arrive {F : Fuses} {L : List Knot} {s : State} (h : Kept F L s) (d : Nat) (p : Nat) (lane : Nat) (tok : Token) (sideband : Ecc) (payload : Ecc) :
    Kept F L (State.arrive s d p lane tok sideband payload) := by
  unfold State.arrive
  try dsimp only
  repeat' first
    | with_reducible assumption
    | with_reducible apply kept_modPlace
    | with_reducible apply kept_plRecord
    | with_reducible apply kept_raise
    | with_reducible apply kept_tokCorr
    | with_reducible apply kept_bumpErr
    | with_reducible apply kept_enqueue
    | with_reducible apply kept_ite
    | with_reducible refine fun x hx => (?_ : Memory.wf _ = true)
    | exact (hx : Memory.wf _ = true)
    | with_reducible intro _

theorem kept_creditBack {F : Fuses} {L : List Knot} {s : State} (h : Kept F L s) (d : Nat) (p : Nat) (lane : Nat) :
    Kept F L (State.creditBack s d p lane) := by
  unfold State.creditBack
  try dsimp only
  repeat' first
    | with_reducible assumption
    | with_reducible apply kept_modPlace
    | with_reducible apply kept_ite
    | with_reducible refine fun x hx => (?_ : Memory.wf _ = true)
    | exact (hx : Memory.wf _ = true)
    | with_reducible intro _

theorem kept_tloadDone {F : Fuses} {L : List Knot} {s : State} (h : Kept F L s) (d : Nat) (p : Nat) (slot : Nat) :
    Kept F L (State.tloadDone s d p slot) := by
  unfold State.tloadDone
  try dsimp only
  repeat' first
    | with_reducible assumption
    | with_reducible apply kept_setPlace
    | with_reducible apply kept_beginTurn
    | with_reducible apply kept_ite
    | with_reducible refine Kept.plmem (F := F) (L := L) ?_ _ _
    | with_reducible intro _

theorem kept_turnSwitch {F : Fuses} {L : List Knot} {s : State} (h : Kept F L s) (d : Nat) (p : Nat) :
    Kept F L (State.turnSwitch s d p) := by
  unfold State.turnSwitch
  try dsimp only
  repeat' first
    | with_reducible assumption
    | with_reducible apply kept_endTurn
    | with_reducible apply kept_ite
    | with_reducible intro _

theorem kept_placeStart {F : Fuses} {L : List Knot} {s : State} (h : Kept F L s) (d : Nat) :
    Kept F L (State.placeStart s d) := by
  unfold State.placeStart
  try dsimp only
  repeat' first
    | with_reducible assumption
    | with_reducible apply kept_keepDeltas
    | with_reducible apply kept_setRg
    | with_reducible apply kept_modDie
    | with_reducible apply kept_beginTurn
    | with_reducible apply kept_foldl
    | with_reducible apply kept_ite
    | with_reducible refine fun x hx => (?_ : Die.Canonical _)
    | exact (hx : Die.Canonical x)
    | (with_reducible intro _ _ _; try dsimp only)
    | with_reducible intro _

theorem kept_drainedReport {F : Fuses} {L : List Knot} {s : State} (h : Kept F L s) (d : Nat) :
    Kept F L (State.drainedReport s d) := by
  unfold State.drainedReport
  try dsimp only
  repeat' first
    | with_reducible assumption
    | with_reducible apply kept_spNotice
    | with_reducible apply kept_ite
    | with_reducible intro _

theorem kept_drainForced {F : Fuses} {L : List Knot} {s : State} (h : Kept F L s) (p : Nat) :
    Kept F L (State.drainForced s p) := by
  unfold State.drainForced
  try dsimp only
  repeat' first
    | with_reducible assumption
    | with_reducible apply kept_reconfigure
    | with_reducible apply kept_ite
    | with_reducible intro _

theorem kept_watchdogIdle {F : Fuses} {L : List Knot} {s : State} (h : Kept F L s) (d : Nat) :
    Kept F L (State.watchdogIdle s d) := by
  unfold State.watchdogIdle
  try dsimp only
  repeat' first
    | with_reducible assumption
    | with_reducible apply kept_setRgB
    | with_reducible apply kept_spNotice
    | with_reducible apply kept_ite
    | with_reducible intro _

theorem kept_quantumExpire {F : Fuses} {L : List Knot} {s : State} (h : Kept F L s) (p : Nat) : Kept F L (State.quantumExpire s p) := by
  unfold State.quantumExpire
  split
  · exact h
  · rename_i cid c hr
    refine kept_ite (fun _ => ?_) (fun _ => h)
    extract_lets x0 s1
    have h1 : Kept F L s1 := by
      refine kept_setPart h ?_
      exact ⟨ctxs_sput (h.ctxs p) (running_saved (c := c) h hr), h.doze p⟩
    clear_value s1
    split
    · exact kept_spBroadcast h1 ..
    · exact h1

theorem kept_contextSwitch {F : Fuses} {L : List Knot} {s : State} (h : Kept F L s) (p : Nat) :
    Kept F L (State.contextSwitch s p) := by
  unfold State.contextSwitch
  try dsimp only
  repeat' first
    | with_reducible assumption
    | with_reducible apply kept_tryRun
    | with_reducible apply kept_saveCtx
    | with_reducible apply kept_setPart
    | with_reducible apply kept_ctxEvent
    | with_reducible apply kept_runCtx
    | with_reducible apply kept_ite
    | refine Part.canonical_of rfl rfl (Kept.part (F := F) (L := L) ?_ _)
    | with_reducible intro _
    | split

end Sys2Proof.Machine
end

