-- ==== Sys2Proof/Laws/KeptSched.lean ====
section
/-! SUPPORT. What the operations of Machine/Sched.lean keep. -/

namespace Sys2Proof.Machine

theorem kept_tabCheck {F : Fuses} {L : List Knot} {s : State} (h : Kept F L s) (d : Nat) (off : Nat) (n : Nat) :
    Kept F L (State.tabCheck s d off n).1 := by
  unfold State.tabCheck
  try dsimp only
  repeat' first
    | with_reducible assumption
    | with_reducible apply kept_modDie
    | with_reducible apply kept_raise
    | with_reducible apply kept_foldl_fst
    | with_reducible apply kept_ite_fst
    | with_reducible refine fun x hx => (?_ : Die.Canonical _)
    | exact (hx : Die.Canonical x).1
    | exact (hx : Die.Canonical x).2.1
    | exact (hx : Die.Canonical x).2.2
    | with_reducible apply auto_flipBytes
    | with_reducible refine Die.canonical_mk ?_ ?_ ?_
    | dsimp only
    | (with_reducible intro _ _ _; try dsimp only)
    | with_reducible intro _
    | split

theorem kept_landTest {F : Fuses} {L : List Knot} {s : State} (h : Kept F L s) (d : Nat) : Kept F L (State.landTest s d) := by
  unfold State.landTest
  refine kept_ite (fun _ => ?_) (fun _ => h)
  extract_lets g c x unmet
  have hc : Kept F L c.1 := kept_tabCheck h ..
  have hx : x.Canonical := hc.die d
  refine kept_ite (fun _ => kept_modDie hc (fun _ hx => hx)) (fun _ => kept_ite (fun _ => kept_setDie hc ?_) (fun _ => kept_ite (fun _ => hc) (fun _ => ?_)))
  · exact hx
  · apply kept_bumpErr
    refine kept_setDie hc ?_
    exact hx

theorem kept_landIn {F : Fuses} {L : List Knot} {s : State} (h : Kept F L s) (d : Nat) (tag : Nat) :
    Kept F L (State.landIn s d tag) := by
  unfold State.landIn
  try dsimp only
  repeat' first
    | with_reducible assumption
    | with_reducible apply kept_bumpErr
    | with_reducible apply kept_modDie
    | with_reducible apply kept_ite
    | with_reducible refine fun x hx => (?_ : Die.Canonical _)
    | exact (hx : Die.Canonical x)
    | with_reducible intro _

theorem kept_dmaSend {F : Fuses} {L : List Knot} {s : State} (h : Kept F L s) (d : Nat) :
    Kept F L (State.dmaSend s d) := by
  unfold State.dmaSend
  try dsimp only
  repeat' first
    | with_reducible assumption
    | with_reducible apply kept_tabCheck
    | with_reducible apply kept_modDie
    | with_reducible apply kept_setPcd
    | with_reducible apply kept_raise
    | with_reducible apply kept_ite
    | with_reducible apply kept_ite_fst
    | (with_reducible refine fun _ hx => (?_ : Memory.wf _ = true); exact hx)
    | with_reducible refine fun x hx => (?_ : Die.Canonical _)
    | exact (hx : Die.Canonical x)
    | with_reducible intro _

theorem kept_snapOn {F : Fuses} {L : List Knot} {s : State} (h : Kept F L s) (src : Source) (v : Nat) (d : Nat) :
    Kept F L (State.snapOn s src v d) := by
  unfold State.snapOn
  try dsimp only
  repeat' first
    | with_reducible assumption
    | with_reducible apply kept_setRg
    | with_reducible apply kept_setRgB
    | with_reducible apply kept_foldl
    | with_reducible apply kept_ite
    | (with_reducible intro _ _ _; try dsimp only)
    | with_reducible intro _

theorem kept_snapshot {F : Fuses} {L : List Knot} {s : State} (h : Kept F L s) (src : Source) (site : Nat) (v : W32) :
    Kept F L (State.snapshot s src site v) := by
  unfold State.snapshot
  try dsimp only
  repeat' first
    | with_reducible assumption
    | with_reducible apply kept_atSite
    | with_reducible apply kept_snapOn
    | (with_reducible intro _ _ _; try dsimp only)

theorem kept_matchOn {F : Fuses} {L : List Knot} {s : State} (h : Kept F L s) (src : Source) (v : Nat) (d : Nat) :
    Kept F L (State.matchOn s src v d) := by
  unfold State.matchOn
  try dsimp only
  repeat' first
    | with_reducible assumption
    | with_reducible apply kept_setRg
    | with_reducible apply kept_ite
    | with_reducible intro _

theorem kept_matchArm {F : Fuses} {L : List Knot} {s : State} (h : Kept F L s) (src : Source) (site : Nat) (v : W64) :
    Kept F L (State.matchArm s src site v) := by
  unfold State.matchArm
  try dsimp only
  repeat' first
    | with_reducible assumption
    | with_reducible apply kept_atSite
    | with_reducible apply kept_matchOn
    | (with_reducible intro _ _ _; try dsimp only)

theorem kept_matchDone {F : Fuses} {L : List Knot} {s : State} (h : Kept F L s) (d : Nat) :
    Kept F L (State.matchDone s d) := by
  unfold State.matchDone
  try dsimp only
  repeat' first
    | with_reducible assumption
    | with_reducible apply kept_setRgB
    | with_reducible apply kept_ite
    | with_reducible intro _

theorem kept_matchHit {F : Fuses} {L : List Knot} {s : State} (h : Kept F L s) (d : Nat) (p : Nat) (idx : Nat) :
    Kept F L (State.matchHit s d p idx) := by
  unfold State.matchHit
  try dsimp only
  repeat' first
    | with_reducible assumption
    | with_reducible apply kept_setRgB
    | with_reducible apply kept_setRgF
    | with_reducible apply kept_setRg
    | with_reducible apply kept_ite
    | with_reducible intro _

theorem kept_slowEval {F : Fuses} {L : List Knot} {s : State} (h : Kept F L s) (p : Nat) (d : Nat) :
    Kept F L (State.slowEval s p d) := by
  unfold State.slowEval
  try dsimp only
  repeat' first
    | with_reducible assumption
    | with_reducible apply kept_modDie
    | with_reducible apply kept_pcdEvent
    | with_reducible apply kept_knot
    | with_reducible apply kept_ite
    | with_reducible refine fun x hx => (?_ : Die.Canonical _)
    | exact (hx : Die.Canonical x)
    | with_reducible intro _

theorem kept_slowAll {F : Fuses} {L : List Knot} {s : State} (h : Kept F L s)  :
    Kept F L (State.slowAll s) := by
  unfold State.slowAll
  try dsimp only
  repeat' first
    | with_reducible assumption
    | with_reducible apply kept_slowEval
    | with_reducible apply kept_foldl
    | with_reducible apply kept_ite
    | (with_reducible intro _ _ _; try dsimp only)
    | with_reducible intro _

end Sys2Proof.Machine
end

