-- ==== Sys2Proof/Laws/KeptMemDie.lean ====
section
/-! SUPPORT. What the operations of Machine/MemDie.lean keep. -/

namespace Sys2Proof.Machine

theorem kept_freeTrk {F : Fuses} {L : List Knot} {s : State} (h : Kept F L s) (m : Nat) (txid : Nat) :
    Kept F L (State.freeTrk s m txid) := by
  unfold State.freeTrk
  try dsimp only
  repeat' first
    | with_reducible assumption
    | with_reducible apply kept_setMd
    | with_reducible refine Kept.mdmem (F := F) (L := L) ?_ _

theorem kept_landRead {F : Fuses} {L : List Knot} {s : State} (h : Kept F L s) (m : Nat) (id : Nat) :
    Kept F L (State.landRead s m id) := by
  unfold State.landRead
  try dsimp only
  repeat' first
    | with_reducible assumption
    | with_reducible apply kept_setMd
    | with_reducible apply kept_sendLand
    | with_reducible apply kept_ite
    | with_reducible refine Kept.mdmem (F := F) (L := L) ?_ _
    | with_reducible intro _
    | split

theorem kept_txEnd {F : Fuses} {L : List Knot} {s : State} (h : Kept F L s) (m : Nat) (id : Nat) (k : Nat) (txid : Nat) (st : TxSt) :
    Kept F L (State.txEnd s m id k txid st) := by
  unfold State.txEnd
  try dsimp only
  repeat' first
    | with_reducible assumption
    | with_reducible apply kept_modTx
    | with_reducible apply kept_freeTrk

theorem kept_txSend {F : Fuses} {L : List Knot} {s : State} (h : Kept F L s) (m : Nat) (ty : Nat) (txid : Nat) (a : Nat) (len : Nat) (bs : List Byte) :
    Kept F L (State.txSend s m ty txid a len bs) := by
  unfold State.txSend
  try dsimp only
  repeat' first
    | with_reducible assumption
    | with_reducible apply kept_inject
    | with_reducible apply kept_ite
    | with_reducible intro _
    | split

theorem kept_txWrite {F : Fuses} {L : List Knot} {s : State} (h : Kept F L s) (m : Nat) (id : Nat) (k : Nat) (txid : Nat) (t : Tx) (bs : List Byte) :
    Kept F L (State.txWrite s m id k txid t bs) := by
  unfold State.txWrite
  try dsimp only
  repeat' first
    | with_reducible assumption
    | with_reducible apply kept_modTx
    | with_reducible apply kept_landRead
    | with_reducible apply kept_txEnd
    | with_reducible apply kept_keptTally
    | with_reducible apply kept_stackWrite
    | with_reducible apply kept_txSend
    | with_reducible apply kept_ite
    | with_reducible intro _
    | split

theorem kept_txIssue {F : Fuses} {L : List Knot} {s : State} (h : Kept F L s) (m : Nat) (i : Item) (k : Nat) (t : Tx) (txid : Nat) :
    Kept F L (State.txIssue s m i k t txid) := by
  unfold State.txIssue
  try dsimp only
  repeat' first
    | with_reducible assumption
    | with_reducible apply kept_modTx
    | with_reducible apply kept_setMd
    | with_reducible apply kept_txWrite
    | with_reducible apply kept_txEnd
    | with_reducible apply kept_keptTally
    | with_reducible apply kept_stackRead
    | with_reducible apply kept_txSend
    | with_reducible apply kept_ite
    | with_reducible refine Kept.mdmem (F := F) (L := L) ?_ _
    | with_reducible intro _
    | split

theorem kept_itemCheck {F : Fuses} {L : List Knot} {s : State} (h : Kept F L s) (m : Nat) (id : Nat) :
    Kept F L (State.itemCheck s m id) := by
  unfold State.itemCheck
  try dsimp only
  repeat' first
    | with_reducible assumption
    | with_reducible apply kept_itemFinish
    | with_reducible apply kept_settle
    | with_reducible apply kept_ite
    | with_reducible intro _
    | split

theorem kept_txGrant {F : Fuses} {L : List Knot} {s : State} (h : Kept F L s) (m : Nat) (cls : Nat) :
    Kept F L (State.txGrant s m cls) := by
  unfold State.txGrant
  try dsimp only
  repeat' first
    | with_reducible assumption
    | with_reducible apply kept_txIssue
    | with_reducible apply kept_ite
    | with_reducible intro _
    | split

theorem kept_txGrants {F : Fuses} {L : List Knot} (m : Nat) (cls : Nat) (w : Nat) : ∀ {s : State}, Kept F L s → Kept F L (State.txGrants s m cls w) := by
  induction w with
  | zero => intro s h; exact h
  | succ n ih =>
  intro s h
  unfold State.txGrants
  try dsimp only
  repeat' first
    | with_reducible assumption
    | with_reducible apply ih
    | with_reducible apply kept_txGrant

theorem kept_trkGrant {F : Fuses} {L : List Knot} {s : State} (h : Kept F L s) (m : Nat) (cls : Nat) :
    Kept F L (State.trkGrant s m cls) := by
  unfold State.trkGrant
  try dsimp only
  repeat' first
    | with_reducible assumption
    | with_reducible apply kept_txGrant
    | with_reducible apply kept_itemCheck
    | with_reducible apply kept_ite
    | with_reducible intro _
    | split

theorem kept_e2eDrop {F : Fuses} {L : List Knot} {s : State} (h : Kept F L s) (n : Nat) :
    Kept F L (State.e2eDrop s n) := by
  unfold State.e2eDrop
  try dsimp only
  repeat' first
    | with_reducible assumption
    | with_reducible apply kept_bumpErr

theorem kept_descTake {F : Fuses} {L : List Knot} {s : State} (h : Kept F L s) (m : Nat) (o : Origin) (d : DmaDesc) :
    Kept F L (State.descTake s m o d) := by
  unfold State.descTake
  try dsimp only
  repeat' first
    | with_reducible assumption
    | with_reducible apply kept_setMd
    | with_reducible apply kept_modItem
    | with_reducible apply kept_txGrants
    | with_reducible apply kept_itemCheck
    | with_reducible apply kept_bumpErr
    | with_reducible apply kept_itemFinish
    | with_reducible apply kept_ite
    | with_reducible refine Kept.mdmem (F := F) (L := L) ?_ _
    | with_reducible intro _
    | split

theorem kept_descIn {F : Fuses} {L : List Knot} {s : State} (h : Kept F L s) (m : Nat) (o : Origin) (d : DmaDesc) :
    Kept F L (State.descIn s m o d) := by
  unfold State.descIn
  try dsimp only
  repeat' first
    | with_reducible assumption
    | with_reducible apply kept_setPcd
    | with_reducible apply kept_e2eDrop
    | with_reducible apply kept_bumpErr
    | with_reducible apply kept_sendDone
    | with_reducible apply kept_hbmRead
    | with_reducible apply kept_descTake
    | with_reducible apply kept_raise
    | with_reducible apply kept_ite
    | (with_reducible refine fun _ hx => (?_ : Memory.wf _ = true); exact hx)
    | with_reducible intro _
    | split

theorem kept_netDrop {F : Fuses} {L : List Knot} {s : State} (h : Kept F L s) (p : DynPkt) :
    Kept F L (State.netDrop s p) := by
  unfold State.netDrop
  try dsimp only
  repeat' first
    | with_reducible assumption
    | with_reducible apply kept_setPcd
    | (with_reducible refine fun _ hx => (?_ : Memory.wf _ = true); exact hx)
    | split

theorem kept_pktIn {F : Fuses} {L : List Knot} {s : State} (h : Kept F L s) (p : DynPkt) (types : List Nat) (f : State → State) (hff : ∀ t , Kept F L t → Kept F L (f t )) :
    Kept F L (State.pktIn s p types f) := by
  unfold State.pktIn
  try dsimp only
  repeat' first
    | with_reducible assumption
    | with_reducible apply hff
    | with_reducible apply kept_netDrop
    | with_reducible apply kept_e2eDrop
    | with_reducible apply kept_ite
    | with_reducible intro _

theorem kept_readIn {F : Fuses} {L : List Knot} {s : State} (h : Kept F L s) (p : DynPkt) :
    Kept F L (State.readIn s p) := by
  unfold State.readIn
  try dsimp only
  repeat' first
    | with_reducible assumption
    | with_reducible apply kept_pktIn
    | with_reducible apply kept_doomTx
    | with_reducible apply kept_inject
    | with_reducible apply kept_stackRead
    | with_reducible apply kept_injectAt
    | with_reducible apply kept_dynAsk
    | with_reducible apply kept_ite
    | with_reducible intro _
    | split

theorem kept_writeIn {F : Fuses} {L : List Knot} {s : State} (h : Kept F L s) (p : DynPkt) :
    Kept F L (State.writeIn s p) := by
  unfold State.writeIn
  try dsimp only
  repeat' first
    | with_reducible assumption
    | with_reducible apply kept_pktIn
    | with_reducible apply kept_doomTx
    | with_reducible apply kept_inject
    | with_reducible apply kept_stackWrite
    | with_reducible apply kept_dynAsk
    | with_reducible apply kept_modPlace
    | with_reducible apply kept_ite
    | with_reducible refine fun x hx => (?_ : Memory.wf _ = true)
    | with_reducible apply Memory.wf_writeBytes
    | with_reducible intro _

theorem kept_lateReply {F : Fuses} {L : List Knot} {s : State} (h : Kept F L s) (p : DynPkt) :
    Kept F L (State.lateReply s p) := by
  unfold State.lateReply
  try dsimp only
  repeat' first
    | with_reducible assumption
    | with_reducible apply kept_setMd
    | with_reducible apply kept_ite
    | with_reducible refine Kept.mdmem (F := F) (L := L) ?_ _
    | with_reducible intro _

theorem kept_readDataIn {F : Fuses} {L : List Knot} {s : State} (h : Kept F L s) (p : DynPkt) :
    Kept F L (State.readDataIn s p) := by
  unfold State.readDataIn
  try dsimp only
  repeat' first
    | with_reducible assumption
    | with_reducible apply kept_pktIn
    | with_reducible apply kept_txWrite
    | with_reducible apply kept_txEnd
    | with_reducible apply kept_itemCheck
    | with_reducible apply kept_lateReply
    | with_reducible apply kept_ite
    | with_reducible intro _
    | split

theorem kept_writeAckIn {F : Fuses} {L : List Knot} {s : State} (h : Kept F L s) (p : DynPkt) :
    Kept F L (State.writeAckIn s p) := by
  unfold State.writeAckIn
  try dsimp only
  repeat' first
    | with_reducible assumption
    | with_reducible apply kept_pktIn
    | with_reducible apply kept_txEnd
    | with_reducible apply kept_itemCheck
    | with_reducible apply kept_lateReply
    | with_reducible intro _
    | split

theorem kept_landPkt {F : Fuses} {L : List Knot} {s : State} (h : Kept F L s) (p : DynPkt) :
    Kept F L (State.landPkt s p) := by
  unfold State.landPkt
  try dsimp only
  repeat' first
    | with_reducible assumption
    | with_reducible apply kept_pktIn
    | with_reducible apply kept_landIn
    | with_reducible apply kept_ite
    | with_reducible intro _

theorem kept_fxRelease {F : Fuses} {L : List Knot} {s : State} (h : Kept F L s) (d : Nat) :
    Kept F L (State.fxRelease s d) := by
  unfold State.fxRelease
  try dsimp only
  repeat' first
    | with_reducible assumption
    | with_reducible apply kept_fxDmaGo
    | with_reducible apply kept_foldl
    | with_reducible apply kept_ite
    | (with_reducible intro _ _ _; try dsimp only)
    | with_reducible intro _
    | split

theorem kept_ticketEnd {F : Fuses} {L : List Knot} {s : State} (h : Kept F L s) (d : Nat) (tk : Nat) (st : Nat) :
    Kept F L (State.ticketEnd s d tk st) := by
  unfold State.ticketEnd
  try dsimp only
  repeat' first
    | with_reducible assumption
    | with_reducible apply kept_modDie
    | with_reducible apply kept_fxRelease
    | with_reducible refine fun x hx => (?_ : Die.Canonical _)
    | exact (hx : Die.Canonical x)
    | split

theorem kept_donePkt {F : Fuses} {L : List Knot} {s : State} (h : Kept F L s) (p : DynPkt) :
    Kept F L (State.donePkt s p) := by
  unfold State.donePkt
  try dsimp only
  repeat' first
    | with_reducible assumption
    | with_reducible apply kept_pktIn
    | with_reducible apply kept_modDie
    | with_reducible apply kept_ticketEnd
    | with_reducible apply kept_ite
    | with_reducible refine fun x hx => (?_ : Die.Canonical _)
    | exact (hx : Die.Canonical x)
    | with_reducible intro _

theorem kept_itemDone {F : Fuses} {L : List Knot} {s : State} (h : Kept F L s) (m : Nat) (id : Nat) :
    Kept F L (State.itemDone s m id) := by
  unfold State.itemDone
  try dsimp only
  repeat' first
    | with_reducible assumption
    | with_reducible apply kept_itemCheck
    | with_reducible apply kept_ite
    | with_reducible intro _

theorem kept_eccBack {F : Fuses} {L : List Knot} {s : State} (h : Kept F L s) (m : Nat) (line : Nat) :
    Kept F L (State.eccBack s m line) := by
  unfold State.eccBack
  try dsimp only
  repeat' first
    | with_reducible assumption
    | with_reducible apply kept_setMd
    | with_reducible apply kept_bumpPerf
    | with_reducible apply kept_ite
    | with_reducible refine Kept.mdmem (F := F) (L := L) ?_ _
    | with_reducible intro _

theorem kept_patrol {F : Fuses} {L : List Knot} {s : State} (h : Kept F L s) (m : Nat) :
    Kept F L (State.patrol s m) := by
  unfold State.patrol
  try dsimp only
  repeat' first
    | with_reducible assumption
    | with_reducible apply kept_lineCheck
    | with_reducible apply kept_raise
    | with_reducible apply kept_bumpPerf
    | with_reducible apply kept_foldl
    | with_reducible apply kept_ite
    | (with_reducible intro _ _ _; try dsimp only)
    | with_reducible intro _

theorem kept_corrRate {F : Fuses} {L : List Knot} {s : State} (h : Kept F L s) (m : Nat) :
    Kept F L (State.corrRate s m) := by
  unfold State.corrRate
  try dsimp only
  repeat' first
    | with_reducible assumption
    | with_reducible apply kept_setMd
    | with_reducible apply kept_pcdEvent
    | with_reducible apply kept_ite
    | with_reducible refine Kept.mdmem (F := F) (L := L) ?_ _
    | with_reducible intro _

theorem kept_capOff {F : Fuses} {L : List Knot} {s : State} (h : Kept F L s) (m : Nat) :
    Kept F L (State.capOff s m) := by
  unfold State.capOff
  try dsimp only
  repeat' first
    | with_reducible assumption
    | with_reducible apply kept_setRgF
    | with_reducible apply kept_setMd
    | with_reducible refine Kept.mdmem (F := F) (L := L) ?_ _

theorem kept_capEval {F : Fuses} {L : List Knot} {s : State} (h : Kept F L s)  :
    Kept F L (State.capEval s) := by
  unfold State.capEval
  try dsimp only
  repeat' first
    | with_reducible assumption
    | with_reducible apply kept_setRgB
    | with_reducible apply kept_setMd
    | with_reducible apply kept_capOff
    | with_reducible apply kept_setRgF
    | with_reducible apply kept_pcdEvent
    | with_reducible apply kept_foldl
    | with_reducible apply kept_ite
    | with_reducible refine Kept.mdmem (F := F) (L := L) ?_ _
    | (with_reducible intro _ _ _; try dsimp only)
    | with_reducible intro _
    | split

theorem kept_scrubStack {F : Fuses} {L : List Knot} {s : State} (h : Kept F L s) (p : Nat) (m : Nat) (base : Nat) (len : Nat) :
    Kept F L (State.scrubStack s p m base len) := by
  unfold State.scrubStack
  try dsimp only
  repeat' first
    | with_reducible assumption
    | with_reducible apply kept_bumpPerf
    | with_reducible apply kept_setMd
    | with_reducible apply Memory.wf_filter
    | with_reducible refine Kept.mdmem (F := F) (L := L) ?_ _

theorem kept_mdScrubGo {F : Fuses} {L : List Knot} {s : State} (h : Kept F L s) (src : Source) (m : Nat) (v : W32) :
    Kept F L (State.mdScrubGo s src m v) := by
  unfold State.mdScrubGo
  try dsimp only
  repeat' first
    | with_reducible assumption
    | with_reducible apply kept_setRgF
    | with_reducible apply kept_setPart
    | with_reducible apply kept_refuseBy
    | with_reducible apply kept_ite
    | with_reducible apply part_ite
    | refine Part.canonical_of rfl rfl (Kept.part (F := F) (L := L) ?_ _)
    | with_reducible intro _

theorem kept_scrubNext {F : Fuses} {L : List Knot} {s : State} (h : Kept F L s) (p : Nat) :
    Kept F L (State.scrubNext s p) := by
  unfold State.scrubNext
  try dsimp only
  repeat' first
    | with_reducible assumption
    | with_reducible apply kept_setPart
    | with_reducible apply kept_startScrub
    | with_reducible apply kept_releaseSettle
    | with_reducible apply kept_tryRun
    | refine Part.canonical_of rfl rfl (Kept.part (F := F) (L := L) ?_ _)
    | split

theorem kept_mdScrubEnd {F : Fuses} {L : List Knot} {s : State} (h : Kept F L s) (m : Nat) :
    Kept F L (State.mdScrubEnd s m) := by
  unfold State.mdScrubEnd
  try dsimp only
  repeat' first
    | with_reducible assumption
    | with_reducible apply kept_scrubStack
    | with_reducible apply kept_setRgF
    | with_reducible apply kept_setPart
    | with_reducible apply kept_scrubNext
    | with_reducible apply kept_ite
    | refine Part.canonical_of rfl rfl (Kept.part (F := F) (L := L) ?_ _)
    | with_reducible intro _

end Sys2Proof.Machine
end

