-- ==== Sys2Proof/Laws/KeptFabric.lean ====
section
/-! SUPPORT. What the operations of Machine/Fabric.lean keep. -/

namespace Sys2Proof.Machine

theorem kept_memGet {F : Fuses} {L : List Knot} {s : State} (h : Kept F L s) (p a n : Nat) : Kept F L (State.memGet s p a n).1 := by
  unfold State.memGet
  refine kept_ite_fst (fun _ => ?_) (fun _ => kept_ite_fst (fun _ => h) (fun _ => ?_))
  · refine kept_ite_fst (fun _ => h) (fun _ => kept_ite_fst (fun _ => h) (fun _ => kept_ite_fst (fun _ => ?_) (fun _ => ?_)))
    · exact kept_keptTally h p a
    · exact kept_hbmRead h p a n
  · generalize s.siteNode (windowOf a).1 = m
    cases m with
    | none => exact h
    | some d =>
      refine kept_ite_fst (fun _ => h) (fun _ => kept_ite_fst (fun _ => kept_dieRefuse h _) (fun _ => ?_))
      have hr := kept_spadFetch h d 96 (windowOf a).2 n
      extract_lets r
      change Kept F L r.1 at hr
      clear_value r
      split
      · exact hr
      · exact hr

theorem kept_memPut {F : Fuses} {L : List Knot} {s : State} (h : Kept F L s) (p a : Nat) (bs : List Byte) : Kept F L (State.memPut s p a bs).1 := by
  unfold State.memPut
  refine kept_ite_fst (fun _ => ?_) (fun _ => kept_ite_fst (fun _ => h) (fun _ => ?_))
  · refine kept_ite_fst (fun _ => h) (fun _ => kept_ite_fst (fun _ => h) (fun _ => kept_ite_fst (fun _ => ?_) (fun _ => ?_)))
    · exact kept_keptTally h p a
    · exact kept_hbmWrite h p a bs
  · generalize s.siteNode (windowOf a).1 = m
    cases m with
    | none => exact h
    | some d =>
      generalize (if s.mergeBad d (windowOf a).2 (8 * bs.length) (leVal bs) = true then 3 else 0) = st
      refine kept_ite_fst (fun _ => h) (fun _ => kept_ite_fst (fun _ => kept_dieRefuse h _) (fun _ => ?_))
      exact kept_spadPut h ..

theorem kept_freadIn {F : Fuses} {L : List Knot} {s : State} (h : Kept F L s) (p : DynPkt) :
    Kept F L (State.freadIn s p) := by
  unfold State.freadIn
  try dsimp only
  repeat' first
    | with_reducible assumption
    | with_reducible apply kept_pktIn
    | with_reducible apply kept_memGet
    | with_reducible apply kept_inject
    | with_reducible apply kept_ite
    | with_reducible intro _

theorem kept_fwriteIn {F : Fuses} {L : List Knot} {s : State} (h : Kept F L s) (p : DynPkt) :
    Kept F L (State.fwriteIn s p) := by
  unfold State.fwriteIn
  try dsimp only
  repeat' first
    | with_reducible assumption
    | with_reducible apply kept_pktIn
    | with_reducible apply kept_memPut
    | with_reducible apply kept_inject
    | with_reducible apply kept_ite
    | with_reducible intro _

theorem kept_fdGrant {F : Fuses} {L : List Knot} {s : State} (h : Kept F L s) (f : Nat) :
    Kept F L (State.fdGrant s f) := by
  unfold State.fdGrant
  try dsimp only
  repeat' first
    | with_reducible assumption
    | with_reducible apply kept_setFd
    | with_reducible apply kept_inject
    | split

theorem kept_fdPump {F : Fuses} {L : List Knot} (f : Nat) (w : Nat) : ∀ {s : State}, Kept F L s → Kept F L (State.fdPump s f w) := by
  induction w with
  | zero => intro s h; exact h
  | succ n ih =>
  intro s h
  unfold State.fdPump
  try dsimp only
  repeat' first
    | with_reducible assumption
    | with_reducible apply ih
    | with_reducible apply kept_fdGrant
    | with_reducible apply kept_ite
    | with_reducible intro _

theorem kept_txFlush {F : Fuses} {L : List Knot} {s : State} (h : Kept F L s) (f : Nat) :
    Kept F L (State.txFlush s f) := by
  unfold State.txFlush
  try dsimp only
  repeat' first
    | with_reducible assumption
    | with_reducible apply kept_setFd
    | with_reducible apply kept_emitAll
    | with_reducible apply kept_bumpPerf

theorem kept_ringSend {F : Fuses} {L : List Knot} {s : State} (h : Kept F L s) (rdst : Nat) (h0 : JHdr) (data : List Byte) :
    Kept F L (State.ringSend s rdst h0 data) := by
  unfold State.ringSend
  try dsimp only
  repeat' first
    | with_reducible assumption
    | with_reducible apply kept_emit
    | with_reducible apply kept_bumpPerf
    | with_reducible apply kept_ite
    | with_reducible intro _

theorem kept_jilSend {F : Fuses} {L : List Knot} {s : State} (h : Kept F L s) (f : Nat) (ctx : Nat) (dest : Nat) (h0 : JHdr) (data : List Byte) :
    Kept F L (State.jilSend s f ctx dest h0 data) := by
  unfold State.jilSend
  try dsimp only
  repeat' first
    | with_reducible assumption
    | with_reducible apply kept_ringSend
    | with_reducible apply kept_setFd
    | with_reducible apply kept_txFlush
    | with_reducible apply kept_ite
    | with_reducible intro _

theorem kept_resolve {F : Fuses} {L : List Knot} {s : State} (h : Kept F L s) (f : Nat) (j : Nat) (rank : Nat) :
    Kept F L (State.resolve s f j rank).1 := by
  unfold State.resolve
  try dsimp only
  repeat' first
    | with_reducible assumption
    | with_reducible apply kept_bumpPerf
    | with_reducible apply kept_hbmRead
    | with_reducible apply kept_raise
    | with_reducible apply kept_setFd
    | with_reducible apply kept_ite_fst
    | dsimp only
    | with_reducible intro _
    | split

theorem kept_modXfer {F : Fuses} {L : List Knot} {s : State} (h : Kept F L s) (f : Nat) (id : Nat) (g : Xfer → Xfer) :
    Kept F L (State.modXfer s f id g) := by
  unfold State.modXfer
  try dsimp only
  repeat' first
    | with_reducible assumption
    | with_reducible apply kept_setFd

theorem kept_xferFail {F : Fuses} {L : List Knot} {s : State} (h : Kept F L s) (f : Nat) (id : Nat) (status : Nat) (code : Nat) :
    Kept F L (State.xferFail s f id status code) := by
  unfold State.xferFail
  try dsimp only
  repeat' first
    | with_reducible assumption
    | with_reducible apply kept_xferEnd
    | with_reducible apply kept_raise
    | with_reducible apply kept_ite
    | with_reducible intro _
    | split

theorem kept_xferCheck {F : Fuses} {L : List Knot} {s : State} (h : Kept F L s) (f : Nat) (id : Nat) :
    Kept F L (State.xferCheck s f id) := by
  unfold State.xferCheck
  try dsimp only
  repeat' first
    | with_reducible assumption
    | with_reducible apply kept_xferEnd
    | with_reducible apply kept_xferFail
    | with_reducible apply kept_ite
    | with_reducible intro _
    | split

theorem kept_reqSend {F : Fuses} {L : List Knot} {s : State} (h : Kept F L s) (f : Nat) (x : Xfer) (k : Nat) (copy : Nat) (op : Nat) (cls : Nat) (dst : Nat) (dest : Nat) (aux : Nat) (data : List Byte) :
    Kept F L (State.reqSend s f x k copy op cls dst dest aux data) := by
  unfold State.reqSend
  try dsimp only
  repeat' first
    | with_reducible assumption
    | with_reducible apply kept_setFd
    | with_reducible apply kept_jilSend
    | split

theorem kept_pktSend {F : Fuses} {L : List Knot} {s : State} (h : Kept F L s) (f : Nat) (x : Xfer) (k : Nat) (data : List Byte) :
    Kept F L (State.pktSend s f x k data) := by
  unfold State.pktSend
  try dsimp only
  repeat' first
    | with_reducible assumption
    | with_reducible apply kept_resolve
    | with_reducible apply kept_reqSend
    | with_reducible apply kept_jilSend
    | with_reducible apply kept_xferEnd
    | with_reducible apply kept_xferFail
    | with_reducible apply kept_foldl
    | with_reducible apply kept_ite
    | (with_reducible intro _ _ _; try dsimp only)
    | with_reducible intro _
    | split

theorem kept_rxSync {F : Fuses} {L : List Knot} {s : State} (h : Kept F L s) (f : Nat) :
    Kept F L (State.rxSync s f) := by
  unfold State.rxSync
  try dsimp only
  repeat' first
    | with_reducible assumption
    | with_reducible apply kept_setFd
    | with_reducible apply kept_emit
    | with_reducible apply kept_foldl
    | with_reducible apply kept_ite
    | (with_reducible intro _ _ _; try dsimp only)
    | with_reducible intro _

theorem kept_addGrp {F : Fuses} {L : List Knot} {s : State} (h : Kept F L s) (f : Nat) (k : GrpKind) (rx : Option (Nat × Nat)) (size : Nat) (ps : Nat → List Piece) :
    Kept F L (State.addGrp s f k rx size ps) := by
  unfold State.addGrp
  try dsimp only
  repeat' first
    | with_reducible assumption
    | with_reducible apply kept_setFd
    | with_reducible apply kept_rxSync
    | with_reducible apply kept_fdPump

theorem kept_feedOne {F : Fuses} {L : List Knot} {s : State} (h : Kept F L s) (f : Nat) :
    Kept F L (State.feedOne s f) := by
  unfold State.feedOne
  try dsimp only
  repeat' first
    | with_reducible assumption
    | with_reducible apply kept_modXfer
    | with_reducible apply kept_pktSend
    | with_reducible apply kept_addGrp
    | with_reducible apply kept_ite
    | with_reducible intro _
    | split

theorem kept_feed {F : Fuses} {L : List Knot} (f : Nat) (w : Nat) : ∀ {s : State}, Kept F L s → Kept F L (State.feed s f w) := by
  induction w with
  | zero => intro s h; exact h
  | succ n ih =>
  intro s h
  unfold State.feed
  try dsimp only
  repeat' first
    | with_reducible assumption
    | with_reducible apply ih
    | with_reducible apply kept_feedOne
    | with_reducible apply kept_ite
    | with_reducible intro _

theorem kept_feedAll {F : Fuses} {L : List Knot} {s : State} (h : Kept F L s) (f : Nat) :
    Kept F L (State.feedAll s f) := by
  unfold State.feedAll
  try dsimp only
  repeat' first
    | with_reducible assumption
    | with_reducible apply kept_feed

theorem kept_kick {F : Fuses} {L : List Knot} {s : State} (h : Kept F L s) (f : Nat) (ctx : Nat) :
    Kept F L (State.kick s f ctx) := by
  unfold State.kick
  try dsimp only
  repeat' first
    | with_reducible assumption
    | with_reducible apply kept_setFd
    | with_reducible apply kept_feedAll

theorem kept_newXfer {F : Fuses} {L : List Knot} {s : State} (h : Kept F L s) (f : Nat) (ctx : Nat) (addr : Nat) (d : FabDesc) (posted : Bool) :
    Kept F L (State.newXfer s f ctx addr d posted).1 := by
  unfold State.newXfer
  try dsimp only
  repeat' first
    | with_reducible assumption
    | with_reducible apply kept_setFd

theorem kept_fetchDesc {F : Fuses} {L : List Knot} {s : State} (h : Kept F L s) (f : Nat) (ctx : Nat) :
    Kept F L (State.fetchDesc s f ctx) := by
  unfold State.fetchDesc
  try dsimp only
  repeat' first
    | with_reducible assumption
    | with_reducible apply kept_hbmRead
    | with_reducible apply kept_setRgF
    | with_reducible apply kept_newXfer
    | with_reducible apply kept_raise
    | with_reducible apply kept_ite
    | with_reducible intro _

theorem kept_doorbell {F : Fuses} {L : List Knot} {s : State} (h : Kept F L s) (f : Nat) (ctx : Nat) (v : W32) :
    Kept F L (State.doorbell s f ctx v) := by
  unfold State.doorbell
  try dsimp only
  repeat' first
    | with_reducible assumption
    | with_reducible apply kept_fetchDesc
    | with_reducible apply kept_setRgF
    | with_reducible apply kept_foldl
    | with_reducible apply kept_ite
    | (with_reducible intro _ _ _; try dsimp only)
    | with_reducible intro _

theorem kept_post {F : Fuses} {L : List Knot} {s : State} (h : Kept F L s) (f : Nat) (ctx : Nat) (d : FabDesc) :
    Kept F L (State.post s f ctx d) := by
  unfold State.post
  try dsimp only
  repeat' first
    | with_reducible assumption
    | with_reducible apply kept_modXfer
    | with_reducible apply kept_newXfer
    | with_reducible apply kept_setRgF
    | with_reducible apply kept_xferFail
    | with_reducible apply kept_takeFree
    | with_reducible apply kept_memGet
    | with_reducible apply kept_resolve
    | with_reducible apply kept_kick
    | with_reducible apply kept_foldl_fst
    | with_reducible apply kept_ite
    | with_reducible apply kept_ite_fst
    | dsimp only
    | (with_reducible intro _ _ _; try dsimp only)
    | with_reducible intro _
    | split

theorem kept_bellIn {F : Fuses} {L : List Knot} {s : State} (h : Kept F L s) (p : DynPkt) :
    Kept F L (State.bellIn s p) := by
  unfold State.bellIn
  try dsimp only
  repeat' first
    | with_reducible assumption
    | with_reducible apply kept_pktIn
    | with_reducible apply kept_doorbell
    | with_reducible apply kept_inject
    | with_reducible intro _
    | split

theorem kept_writeAt {F : Fuses} {L : List Knot} {s : State} (h : Kept F L s) (p : DynPkt) :
    Kept F L (State.writeAt s p) := by
  unfold State.writeAt
  try dsimp only
  repeat' first
    | with_reducible assumption
    | with_reducible apply kept_bellIn
    | with_reducible apply kept_ite
    | with_reducible intro _
    | with_reducible apply kept_writeIn

theorem kept_bellDrop {F : Fuses} {L : List Knot} {s : State} (h : Kept F L s) (f : Nat) (ctx : Nat) (v : W32) :
    Kept F L (State.bellDrop s f ctx v) := by
  unfold State.bellDrop
  try dsimp only
  repeat' first
    | with_reducible assumption
    | with_reducible apply kept_netDrop
    | split

theorem kept_cputGo {F : Fuses} {L : List Knot} {s : State} (h : Kept F L s) (f : Nat) (ctx : Nat) :
    Kept F L (State.cputGo s f ctx) := by
  unfold State.cputGo
  try dsimp only
  repeat' first
    | with_reducible assumption
    | with_reducible apply kept_kick
    | with_reducible apply kept_ite
    | with_reducible intro _

theorem kept_jilIn {F : Fuses} {L : List Knot} {s : State} (h : Kept F L s) (f : Nat) (h0 : JHdr) (op : Nat) (cls : Nat) (onRing : Bool) (len : Nat) (g : State → Nat → State) (hgf : ∀ t a1, Kept F L t → Kept F L (g t a1)) :
    Kept F L (State.jilIn s f h0 op cls onRing len g) := by
  unfold State.jilIn
  try dsimp only
  repeat' first
    | with_reducible assumption
    | with_reducible apply hgf
    | with_reducible apply kept_bumpPerf
    | with_reducible apply kept_bumpErr
    | with_reducible apply kept_setFd
    | with_reducible apply kept_ite
    | with_reducible intro _
    | split

theorem kept_replySend {F : Fuses} {L : List Knot} {s : State} (h : Kept F L s) (f : Nat) (h0 : JHdr) (op : Nat) (status : Nat) (data : List Byte) :
    Kept F L (State.replySend s f h0 op status data) := by
  unfold State.replySend
  try dsimp only
  repeat' first
    | with_reducible assumption
    | with_reducible apply kept_resolve
    | with_reducible apply kept_ringSend
    | with_reducible apply kept_jilSend
    | with_reducible apply kept_ite
    | with_reducible intro _
    | split

theorem kept_reqOk {F : Fuses} {L : List Knot} {s : State} (h : Kept F L s) (f : Nat) (j : Nat) (rank : Nat) (a : Nat) (n : Nat) :
    Kept F L (State.reqOk s f j rank a n).1 := by
  unfold State.reqOk
  try dsimp only
  repeat' first
    | with_reducible assumption
    | with_reducible apply kept_resolve
    | with_reducible apply kept_bumpErr
    | with_reducible apply kept_ite_fst
    | dsimp only
    | with_reducible intro _
    | split

theorem kept_pktDone {F : Fuses} {L : List Knot} {s : State} (h : Kept F L s) (f : Nat) (id : Nat) (k : Nat) (c : Nat) :
    Kept F L (State.pktDone s f id k c) := by
  unfold State.pktDone
  try dsimp only
  repeat' first
    | with_reducible assumption
    | with_reducible apply kept_modXfer
    | with_reducible apply kept_xferCheck
    | with_reducible apply kept_feedAll

theorem kept_grpEnd {F : Fuses} {L : List Knot} {s : State} (h : Kept F L s) (f : Nat) (g : Grp) :
    Kept F L (State.grpEnd s f g) := by
  unfold State.grpEnd
  try dsimp only
  repeat' first
    | with_reducible assumption
    | with_reducible apply kept_pktSend
    | with_reducible apply kept_feedAll
    | with_reducible apply kept_xferFail
    | with_reducible apply kept_replySend
    | with_reducible apply kept_pktDone
    | with_reducible apply kept_ite
    | with_reducible intro _
    | split

theorem kept_grpSweep {F : Fuses} {L : List Knot} {s : State} (h : Kept F L s) (f : Nat) :
    Kept F L (State.grpSweep s f) := by
  unfold State.grpSweep
  try dsimp only
  repeat' first
    | with_reducible assumption
    | with_reducible apply kept_setFd
    | with_reducible apply kept_rxSync
    | with_reducible apply kept_grpEnd
    | split

theorem kept_onPanelEnd {F : Fuses} {L : List Knot} {s : State} (h : Kept F L s) (f : Nat) (slot : Nat) (st : Nat) (bs : List Byte) :
    Kept F L (State.onPanelEnd s f slot st bs) := by
  unfold State.onPanelEnd
  try dsimp only
  repeat' first
    | with_reducible assumption
    | with_reducible apply kept_setFd
    | with_reducible apply kept_grpSweep
    | with_reducible apply kept_fdPump
    | split

theorem kept_onPanelIn {F : Fuses} {L : List Knot} {s : State} (h : Kept F L s) (p : DynPkt) (ty : Nat) :
    Kept F L (State.onPanelIn s p ty) := by
  unfold State.onPanelIn
  try dsimp only
  repeat' first
    | with_reducible assumption
    | with_reducible apply kept_pktIn
    | with_reducible apply kept_onPanelEnd
    | with_reducible apply kept_ite
    | with_reducible intro _
    | split

theorem kept_reqGrp {F : Fuses} {L : List Knot} {s : State} (h : Kept F L s) (f : Nat) (k : GrpKind) (rx : Option (Nat × Nat)) (size : Nat) (ps : Nat → List Piece) :
    Kept F L (State.reqGrp s f k rx size ps) := by
  unfold State.reqGrp
  try dsimp only
  repeat' first
    | with_reducible assumption
    | with_reducible apply kept_addGrp
    | with_reducible apply kept_grpSweep

theorem kept_putIn {F : Fuses} {L : List Knot} {s : State} (h : Kept F L s) (f : Nat) (h0 : JHdr) (data : List Byte) :
    Kept F L (State.putIn s f h0 data) := by
  unfold State.putIn
  try dsimp only
  repeat' first
    | with_reducible assumption
    | with_reducible apply kept_jilIn
    | with_reducible apply kept_reqOk
    | with_reducible apply kept_reqGrp
    | with_reducible apply kept_replySend
    | with_reducible apply kept_ite
    | (with_reducible intro _ _ _; try dsimp only)
    | with_reducible intro _

theorem kept_getIn {F : Fuses} {L : List Knot} {s : State} (h : Kept F L s) (f : Nat) (h0 : JHdr) :
    Kept F L (State.getIn s f h0) := by
  unfold State.getIn
  try dsimp only
  repeat' first
    | with_reducible assumption
    | with_reducible apply kept_jilIn
    | with_reducible apply kept_reqOk
    | with_reducible apply kept_reqGrp
    | with_reducible apply kept_replySend
    | with_reducible apply kept_ite
    | (with_reducible intro _ _ _; try dsimp only)
    | with_reducible intro _

theorem kept_cputIn {F : Fuses} {L : List Knot} {s : State} (h : Kept F L s) (f : Nat) (h0 : JHdr) (data : List Byte) :
    Kept F L (State.cputIn s f h0 data) := by
  unfold State.cputIn
  try dsimp only
  repeat' first
    | with_reducible assumption
    | with_reducible apply kept_jilIn
    | with_reducible apply kept_takeFree
    | with_reducible apply kept_reqOk
    | with_reducible apply kept_reqGrp
    | with_reducible apply kept_replySend
    | with_reducible apply kept_ite
    | (with_reducible intro _ _ _; try dsimp only)
    | with_reducible intro _

theorem kept_mcastIn {F : Fuses} {L : List Knot} {s : State} (h : Kept F L s) (f : Nat) (h0 : JHdr) (ranks : List (BitVec 24)) (data : List Byte) :
    Kept F L (State.mcastIn s f h0 ranks data) := by
  unfold State.mcastIn
  try dsimp only
  repeat' first
    | with_reducible assumption
    | with_reducible apply kept_jilIn
    | with_reducible apply kept_takeFree
    | with_reducible apply kept_replySend
    | with_reducible apply kept_resolve
    | with_reducible apply kept_reqGrp
    | with_reducible apply kept_foldl_fst
    | with_reducible apply kept_ite
    | dsimp only
    | (with_reducible intro _ _ _; try dsimp only)
    | with_reducible intro _

theorem kept_freeSlot {F : Fuses} {L : List Knot} {s : State} (h : Kept F L s) (f : Nat) (n : Nat) :
    Kept F L (State.freeSlot s f n) := by
  unfold State.freeSlot
  try dsimp only
  repeat' first
    | with_reducible assumption
    | with_reducible apply kept_setFd

theorem kept_ackIn {F : Fuses} {L : List Knot} {s : State} (h : Kept F L s) (f : Nat) (h0 : JHdr) (ok : W64) (bad : W64) (len : Nat) :
    Kept F L (State.ackIn s f h0 ok bad len) := by
  unfold State.ackIn
  try dsimp only
  repeat' first
    | with_reducible assumption
    | with_reducible apply kept_jilIn
    | with_reducible apply kept_freeSlot
    | with_reducible apply kept_modXfer
    | with_reducible apply kept_pktDone
    | with_reducible apply kept_xferFail
    | with_reducible apply kept_ite
    | (with_reducible intro _ _ _; try dsimp only)
    | with_reducible intro _
    | split

theorem kept_getDataIn {F : Fuses} {L : List Knot} {s : State} (h : Kept F L s) (f : Nat) (h0 : JHdr) (data : List Byte) :
    Kept F L (State.getDataIn s f h0 data) := by
  unfold State.getDataIn
  try dsimp only
  repeat' first
    | with_reducible assumption
    | with_reducible apply kept_jilIn
    | with_reducible apply kept_freeSlot
    | with_reducible apply kept_reqGrp
    | with_reducible apply kept_xferFail
    | with_reducible apply kept_ite
    | (with_reducible intro _ _ _; try dsimp only)
    | with_reducible intro _
    | split

theorem kept_creditIn {F : Fuses} {L : List Knot} {s : State} (h : Kept F L s) (f : Nat) (h0 : JHdr) (limit : W64) :
    Kept F L (State.creditIn s f h0 limit) := by
  unfold State.creditIn
  try dsimp only
  repeat' first
    | with_reducible assumption
    | with_reducible apply kept_jilIn
    | with_reducible apply kept_setFd
    | (with_reducible intro _ _ _; try dsimp only)

theorem kept_noteIn {F : Fuses} {L : List Knot} {s : State} (h : Kept F L s) (f : Nat) (h0 : JHdr) (data : List Byte) :
    Kept F L (State.noteIn s f h0 data) := by
  unfold State.noteIn
  try dsimp only
  repeat' first
    | with_reducible assumption
    | with_reducible apply kept_jilIn
    | with_reducible apply kept_resolve
    | with_reducible apply kept_bumpErr
    | with_reducible apply kept_ite
    | (with_reducible intro _ _ _; try dsimp only)
    | with_reducible intro _
    | split

theorem kept_resend {F : Fuses} {L : List Knot} {s : State} (h : Kept F L s) (f : Nat) (slot : Nat) :
    Kept F L (State.resend s f slot) := by
  unfold State.resend
  try dsimp only
  repeat' first
    | with_reducible assumption
    | with_reducible apply kept_setFd
    | with_reducible apply kept_bumpErr
    | with_reducible apply kept_jilSend
    | with_reducible apply kept_freeSlot
    | with_reducible apply kept_modXfer
    | with_reducible apply kept_pktDone
    | with_reducible apply kept_xferFail
    | with_reducible apply kept_ite
    | with_reducible intro _
    | split

theorem kept_incarnUpdate {F : Fuses} {L : List Knot} {s : State} (h : Kept F L s) (f : Nat) (job : Nat) (inc : Nat) :
    Kept F L (State.incarnUpdate s f job inc) := by
  unfold State.incarnUpdate
  try dsimp only
  repeat' first
    | with_reducible assumption
    | with_reducible apply kept_xferEnd
    | with_reducible apply kept_foldl
    | (with_reducible intro _ _ _; try dsimp only)

theorem kept_portSet {F : Fuses} {L : List Knot} {s : State} (h : Kept F L s) (f : Nat) (port : Nat) (up : Bool) :
    Kept F L (State.portSet s f port up) := by
  unfold State.portSet
  try dsimp only
  repeat' first
    | with_reducible assumption
    | with_reducible apply kept_setRgB
    | with_reducible apply kept_setFd
    | with_reducible apply kept_txFlush
    | with_reducible apply kept_ite
    | with_reducible intro _

theorem kept_pfcIn {F : Fuses} {L : List Knot} {s : State} (h : Kept F L s) (f : Nat) (port : Nat) (prio : Nat) (quanta : BitVec 16) :
    Kept F L (State.pfcIn s f port prio quanta) := by
  unfold State.pfcIn
  try dsimp only
  repeat' first
    | with_reducible assumption
    | with_reducible apply kept_setPcd
    | with_reducible apply kept_hostFlush
    | with_reducible apply kept_setFd
    | with_reducible apply kept_txFlush
    | with_reducible apply kept_ite
    | (with_reducible refine fun _ hx => (?_ : Memory.wf _ = true); exact hx)
    | with_reducible intro _

theorem kept_arpIn {F : Fuses} {L : List Knot} {s : State} (h : Kept F L s) (f : Nat) (target : Nat) (v4 : Bool) :
    Kept F L (State.arpIn s f target v4) := by
  unfold State.arpIn
  try dsimp only
  repeat' first
    | with_reducible assumption
    | with_reducible apply kept_emit
    | with_reducible apply kept_ite
    | with_reducible intro _

theorem kept_arpReplyIn {F : Fuses} {L : List Knot} {s : State} (h : Kept F L s) (f : Nat) (mac : BitVec 48) :
    Kept F L (State.arpReplyIn s f mac) := by
  unfold State.arpReplyIn
  try dsimp only
  repeat' first
    | with_reducible assumption
    | with_reducible apply kept_setFd
    | with_reducible apply kept_txFlush
    | with_reducible apply kept_ite
    | with_reducible intro _

theorem kept_stackLost {F : Fuses} {L : List Knot} {s : State} (h : Kept F L s) (p : Nat) (q : Nat) :
    Kept F L (State.stackLost s p q) := by
  unfold State.stackLost
  try dsimp only
  repeat' first
    | with_reducible assumption
    | with_reducible apply kept_txEnd
    | with_reducible apply kept_setMd
    | with_reducible apply kept_itemCheck
    | with_reducible apply kept_foldl
    | with_reducible apply kept_ite
    | with_reducible refine Kept.mdmem (F := F) (L := L) ?_ _
    | (with_reducible intro _ _ _; try dsimp only)
    | with_reducible intro _

theorem kept_onPanelLost {F : Fuses} {L : List Knot} {s : State} (h : Kept F L s) (p : Nat) (q : Nat) :
    Kept F L (State.onPanelLost s p q) := by
  unfold State.onPanelLost
  try dsimp only
  repeat' first
    | with_reducible assumption
    | with_reducible apply kept_onPanelEnd
    | with_reducible apply kept_foldl
    | (with_reducible intro _ _ _; try dsimp only)

theorem kept_stackFailed {F : Fuses} {L : List Knot} {s : State} (h : Kept F L s) (q : Nat) (cause : Nat) :
    Kept F L (State.stackFailed s q cause) := by
  unfold State.stackFailed
  try dsimp only
  repeat' first
    | with_reducible assumption
    | with_reducible apply kept_setRgB
    | with_reducible apply kept_mdRecord
    | with_reducible apply kept_raise
    | with_reducible apply kept_descsEnd
    | with_reducible apply kept_stackLost
    | with_reducible apply kept_onPanelLost

theorem kept_tmoSeen {F : Fuses} {L : List Knot} {s : State} (h : Kept F L s) (m : Nat) (peer : Option Nat) :
    Kept F L (State.tmoSeen s m peer) := by
  unfold State.tmoSeen
  try dsimp only
  repeat' first
    | with_reducible assumption
    | with_reducible apply kept_setMd
    | with_reducible apply kept_stackFailed
    | with_reducible apply kept_ite
    | with_reducible refine Kept.mdmem (F := F) (L := L) ?_ _
    | with_reducible intro _
    | split

theorem kept_tmoCount {F : Fuses} {L : List Knot} {s : State} (h : Kept F L s) (m : Nat) (peer : Option Nat) :
    Kept F L (State.tmoCount s m peer) := by
  unfold State.tmoCount
  try dsimp only
  repeat' first
    | with_reducible assumption
    | with_reducible apply kept_bumpErr
    | with_reducible apply kept_mdRecord

theorem kept_txTimeout {F : Fuses} {L : List Knot} {s : State} (h : Kept F L s) (m : Nat) (txid : Nat) :
    Kept F L (State.txTimeout s m txid) := by
  unfold State.txTimeout
  try dsimp only
  repeat' first
    | with_reducible assumption
    | with_reducible apply kept_freeTrk
    | with_reducible apply kept_tmoCount
    | with_reducible apply kept_txEnd
    | with_reducible apply kept_setMd
    | with_reducible apply kept_itemCheck
    | with_reducible apply kept_tmoSeen
    | with_reducible apply kept_ite
    | with_reducible refine Kept.mdmem (F := F) (L := L) ?_ _
    | with_reducible intro _
    | split

theorem kept_stackFail {F : Fuses} {L : List Knot} {s : State} (h : Kept F L s) (m : Nat) (cause : Nat) :
    Kept F L (State.stackFail s m cause) := by
  unfold State.stackFail
  try dsimp only
  repeat' first
    | with_reducible assumption
    | with_reducible apply kept_stackFailed
    | with_reducible apply kept_ite
    | with_reducible intro _

theorem kept_entryGrant {F : Fuses} {L : List Knot} {s : State} (h : Kept F L s) (m : Nat) (cls : Nat) :
    Kept F L (State.entryGrant s m cls) := by
  unfold State.entryGrant
  try dsimp only
  repeat' first
    | with_reducible assumption
    | with_reducible apply kept_fdPump
    | with_reducible apply kept_trkGrant
    | with_reducible apply kept_ite
    | with_reducible intro _

theorem kept_entryTimeout {F : Fuses} {L : List Knot} {s : State} (h : Kept F L s) (m : Nat) (txid : Nat) :
    Kept F L (State.entryTimeout s m txid) := by
  unfold State.entryTimeout
  try dsimp only
  repeat' first
    | with_reducible assumption
    | with_reducible apply kept_tmoCount
    | with_reducible apply kept_onPanelEnd
    | with_reducible apply kept_tmoSeen
    | with_reducible apply kept_txTimeout
    | with_reducible apply kept_ite
    | with_reducible intro _
    | split

end Sys2Proof.Machine
end

