-- ==== Sys2Proof/Laws/KeptTwin.lean ====
section
/-! SUPPORT. What the operations of Machine/Twin.lean keep. -/

namespace Sys2Proof.Machine

theorem kept_ringPass {F : Fuses} {L : List Knot} {s : State} (h : Kept F L s) (rdst : Nat) (rsrc : Nat) (west : Bool) (vc : Bool) (cls : Nat) (frame : Nat) :
    Kept F L (State.ringPass s rdst rsrc west vc cls frame) := by
  unfold State.ringPass
  try dsimp only
  repeat' first
    | with_reducible assumption
    | with_reducible apply kept_bumpErr
    | with_reducible apply kept_emit
    | with_reducible apply kept_ite
    | with_reducible intro _

theorem kept_ringPort {F : Fuses} {L : List Knot} {s : State} (h : Kept F L s) (east : Bool) (up : Bool) :
    Kept F L (State.ringPort s east up) := by
  unfold State.ringPort
  try dsimp only
  repeat' first
    | with_reducible assumption
    | with_reducible apply kept_setRgB
    | with_reducible apply kept_ite
    | with_reducible intro _

theorem kept_twinLink {F : Fuses} {L : List Knot} {s : State} (h : Kept F L s) (up : Bool) :
    Kept F L (State.twinLink s up) := by
  unfold State.twinLink
  try dsimp only
  repeat' first
    | with_reducible assumption
    | with_reducible apply kept_setRgB
    | with_reducible apply kept_ite
    | with_reducible intro _

theorem kept_heartbeatIn {F : Fuses} {L : List Knot} {s : State} (h : Kept F L s) (onTwin : Bool) (k : Nat) (m : Nat) :
    Kept F L (State.heartbeatIn s onTwin k m) := by
  unfold State.heartbeatIn
  try dsimp only
  repeat' first
    | with_reducible assumption
    | with_reducible apply kept_setPcd
    | with_reducible apply kept_setRgF
    | with_reducible apply kept_setRgB
    | with_reducible apply kept_ite
    | (with_reducible refine fun _ hx => (?_ : Memory.wf _ = true); exact hx)
    | with_reducible refine fun x hx => (?_ : Memory.wf _ = true)
    | with_reducible intro _
    | split

theorem kept_heartbeatOut {F : Fuses} {L : List Knot} {s : State} (h : Kept F L s)  :
    Kept F L (State.heartbeatOut s) := by
  unfold State.heartbeatOut
  try dsimp only
  repeat' first
    | with_reducible assumption
    | with_reducible apply kept_takeFree
    | with_reducible apply kept_emit
    | with_reducible apply kept_setPcd
    | with_reducible apply kept_ite
    | (with_reducible refine fun _ hx => (?_ : Memory.wf _ = true); exact hx)
    | with_reducible intro _

theorem kept_takeOver {F : Fuses} {L : List Knot} {s : State} (h : Kept F L s)  :
    Kept F L (State.takeOver s) := by
  unfold State.takeOver
  try dsimp only
  repeat' first
    | with_reducible assumption
    | with_reducible apply kept_setPart
    | with_reducible apply kept_emit
    | with_reducible apply kept_setRgF
    | with_reducible apply kept_setRgB
    | with_reducible apply kept_pcdEvent
    | with_reducible apply kept_foldl
    | with_reducible apply kept_ite
    | refine Part.canonical_of rfl rfl (Kept.part (F := F) (L := L) ?_ _)
    | (with_reducible intro _ _ _; try dsimp only)
    | with_reducible intro _

theorem kept_windowMiss {F : Fuses} {L : List Knot} {s : State} (h : Kept F L s) (k : Nat) :
    Kept F L (State.windowMiss s k) := by
  unfold State.windowMiss
  try dsimp only
  repeat' first
    | with_reducible assumption
    | with_reducible apply kept_bumpErr
    | with_reducible apply kept_setRgF
    | with_reducible apply kept_setRgB
    | with_reducible apply kept_takeOver
    | with_reducible apply kept_ite
    | with_reducible intro _

theorem kept_takeoverIn {F : Fuses} {L : List Knot} {s : State} (h : Kept F L s) (onTwin : Bool) :
    Kept F L (State.takeoverIn s onTwin) := by
  unfold State.takeoverIn
  try dsimp only
  repeat' first
    | with_reducible assumption
    | with_reducible apply kept_setPcd
    | with_reducible apply kept_pcdEvent
    | with_reducible apply kept_ite
    | (with_reducible refine fun _ hx => (?_ : Memory.wf _ = true); exact hx)
    | with_reducible intro _

theorem kept_mirrored {F : Fuses} {L : List Knot} {s : State} (h : Kept F L s) (k : Nat) :
    Kept F L (State.mirrored s k) := by
  unfold State.mirrored
  try dsimp only
  repeat' first
    | with_reducible assumption
    | with_reducible apply kept_setRg
    | with_reducible apply kept_complete
    | with_reducible apply kept_foldl
    | with_reducible apply kept_ite
    | (with_reducible intro _ _ _; try dsimp only)
    | with_reducible intro _

theorem kept_fdLoss {F : Fuses} {L : List Knot} {s : State} (h : Kept F L s) (f : Nat) :
    Kept F L (State.fdLoss s f) := by
  unfold State.fdLoss
  try dsimp only
  repeat' first
    | with_reducible assumption
    | with_reducible apply kept_setFd
    | with_reducible apply kept_putEvent
    | with_reducible apply kept_consequence
    | with_reducible apply kept_ctxEvent
    | with_reducible apply kept_foldl
    | with_reducible apply kept_ite
    | (with_reducible intro _ _ _; try dsimp only)
    | with_reducible intro _

end Sys2Proof.Machine
end

