-- ==== Sys2Proof/Laws/KeptRoutes.lean ====
section
/-! SUPPORT. What the operations of Machine/Routes.lean keep. -/

namespace Sys2Proof.Machine

theorem kept_recordOrigin {F : Fuses} {L : List Knot} {s : State} (h : Kept F L s) (r : Nat) (n : Nat) (j : Nat) :
    Kept F L (State.recordOrigin s r n j) := by
  unfold State.recordOrigin
  try dsimp only
  repeat' first
    | with_reducible assumption
    | with_reducible apply kept_knot

theorem kept_mapRow {F : Fuses} {L : List Knot} {s : State} (h : Kept F L s) (excluded : List Nat) (r : Nat) (n : Nat) :
    Kept F L (State.mapRow s excluded r n) := by
  unfold State.mapRow
  try dsimp only
  repeat' first
    | with_reducible assumption
    | with_reducible apply kept_recordOrigin
    | with_reducible apply kept_setRg
    | split

theorem kept_routePart {F : Fuses} {L : List Knot} {s : State} (h : Kept F L s) (p : Nat) :
    Kept F L (State.routePart s p) := by
  unfold State.routePart
  try dsimp only
  repeat' first
    | with_reducible assumption
    | with_reducible apply kept_setPcd
    | with_reducible apply kept_setRg
    | with_reducible apply kept_foldl
    | (with_reducible refine fun _ hx => (?_ : Memory.wf _ = true); exact hx)
    | (with_reducible intro _ _ _; try dsimp only)

theorem kept_bumpRt {F : Fuses} {L : List Knot} {s : State} (h : Kept F L s) (n : Nat) (off : Nat → Nat) (b : Nat) (k : Nat) :
    Kept F L (State.bumpRt s n off b k) := by
  unfold State.bumpRt
  try dsimp only
  repeat' first
    | with_reducible assumption
    | with_reducible apply kept_bumpErr

end Sys2Proof.Machine
end

