-- ==== Sys2Proof/Laws/KeptRegs.lean ====
section
/-! SUPPORT. What the operations of Machine/Regs.lean keep. -/

namespace Sys2Proof.Machine

theorem auto_turnWrite {x : Place} {off n v : Nat} (h : Memory.wf x.mem = true) : Memory.wf (x.turnWrite off n v).mem = true :=
  Memory.wf_writeBytes _ _ h

theorem kept_tallyAt {F : Fuses} {L : List Knot} {s : State} (h : Kept F L s) (node : Nat) :
    Kept F L (State.tallyAt s node) := by
  unfold State.tallyAt
  try dsimp only
  repeat' first
    | with_reducible assumption
    | with_reducible apply kept_dieRefuse
    | with_reducible apply kept_setMd
    | with_reducible apply kept_setFd
    | with_reducible apply kept_setPcd
    | with_reducible apply kept_ite
    | (with_reducible refine fun _ hx => (?_ : Memory.wf _ = true); exact hx)
    | with_reducible refine Kept.mdmem (F := F) (L := L) ?_ _
    | with_reducible intro _

theorem kept_refuseAt {F : Fuses} {L : List Knot} {s : State} (h : Kept F L s) (src : Source) (node : Nat) :
    Kept F L (State.refuseAt s src node) := by
  unfold State.refuseAt
  try dsimp only
  repeat' first
    | with_reducible assumption
    | with_reducible apply kept_tallyAt
    | split

theorem kept_seedOn {F : Fuses} {L : List Knot} {s : State} (h : Kept F L s) (d : Nat) (c : Nat) (v : W64) :
    Kept F L (State.seedOn s d c v) := by
  unfold State.seedOn
  try dsimp only
  repeat' first
    | with_reducible assumption
    | with_reducible apply kept_setRgB
    | with_reducible apply kept_setRg
    | with_reducible apply kept_modDie
    | with_reducible apply kept_ite
    | with_reducible refine fun x hx => (?_ : Die.Canonical _)
    | exact (hx : Die.Canonical x)
    | with_reducible intro _

theorem kept_injectOn {F : Fuses} {L : List Knot} {s : State} (h : Kept F L s) (d : Nat) (v : Nat) :
    Kept F L (State.injectOn s d v) := by
  unfold State.injectOn
  try dsimp only
  repeat' first
    | with_reducible assumption
    | with_reducible apply kept_modDie
    | with_reducible apply kept_ite
    | with_reducible refine fun x hx => (?_ : Die.Canonical _)
    | exact (hx : Die.Canonical x)
    | with_reducible intro _
    | split

theorem kept_evtAck {F : Fuses} {L : List Knot} {s : State} (h : Kept F L s) (v : Nat) :
    Kept F L (State.evtAck s v) := by
  unfold State.evtAck
  try dsimp only
  repeat' first
    | with_reducible assumption
    | with_reducible apply kept_setRg
    | with_reducible apply kept_setRgF
    | with_reducible apply kept_ite
    | with_reducible intro _

theorem kept_retrueReq {F : Fuses} {L : List Knot} {s : State} (h : Kept F L s) (r : Nat) :
    Kept F L (State.retrueReq s r) := by
  unfold State.retrueReq
  try dsimp only
  repeat' first
    | with_reducible assumption
    | with_reducible apply kept_setRgF
    | with_reducible apply kept_oweRetrue
    | with_reducible apply kept_ite
    | with_reducible intro _
    | split

theorem kept_retrueWrite {F : Fuses} {L : List Knot} {s : State} (h : Kept F L s) (v : Nat) :
    Kept F L (State.retrueWrite s v) := by
  unfold State.retrueWrite
  try dsimp only
  repeat' first
    | with_reducible assumption
    | with_reducible apply kept_setRgF
    | with_reducible apply kept_retrueReq
    | with_reducible apply kept_ite
    | with_reducible intro _

theorem kept_plainWrite {F : Fuses} {L : List Knot} {s : State} (h : Kept F L s) (r : RegRow) (node : Nat) (off : Nat) (v : Nat) :
    Kept F L (State.plainWrite s r node off v) := by
  unfold State.plainWrite
  try dsimp only
  repeat' first
    | with_reducible assumption
    | with_reducible apply kept_recordClear
    | with_reducible apply kept_setRg
    | with_reducible apply kept_ite
    | with_reducible intro _
    | split

theorem kept_jobEntryAfter {F : Fuses} {L : List Knot} {s : State} (h : Kept F L s) (f : Nat) (j : Nat) (oldJob : Nat) :
    Kept F L (State.jobEntryAfter s f j oldJob) := by
  unfold State.jobEntryAfter
  try dsimp only
  repeat' first
    | with_reducible assumption
    | with_reducible apply kept_incarnUpdate

theorem kept_regEffect {F : Fuses} {L : List Knot} {s : State} (h : Kept F L s) (src : Source) (r : RegRow) (node : Nat) (off : Nat) (v : Nat) :
    Kept F L (State.regEffect s src r node off v) := by
  unfold State.regEffect
  try dsimp only
  repeat' first
    | with_reducible assumption
    | with_reducible apply kept_spadSetOn
    | with_reducible apply kept_setRg
    | with_reducible apply kept_setSpadPwr
    | with_reducible apply kept_spadScrub
    | with_reducible apply kept_injectOn
    | with_reducible apply kept_snapOn
    | with_reducible apply kept_matchOn
    | with_reducible apply kept_seedOn
    | with_reducible apply kept_scBoot
    | with_reducible apply kept_plainWrite
    | with_reducible apply kept_mdScrubGo
    | with_reducible apply kept_jobEntryAfter
    | with_reducible apply kept_evtAck
    | with_reducible apply kept_retrueWrite
    | with_reducible apply kept_ite
    | (with_reducible intro _ _ _; try dsimp only)
    | with_reducible intro _
    | split

theorem kept_regWrite {F : Fuses} {L : List Knot} {s : State} (h : Kept F L s) (src : Source) (node : Nat) (off : Nat) (bytes : Nat) (v : Nat) :
    Kept F L (State.regWrite s src node off bytes v) := by
  unfold State.regWrite
  try dsimp only
  repeat' first
    | with_reducible assumption
    | with_reducible apply kept_regEffect
    | with_reducible apply kept_refuseAt
    | with_reducible apply kept_ite
    | with_reducible intro _
    | split

theorem kept_keepGrowth {F : Fuses} {L : List Knot} {s : State} (h : Kept F L s) (node : Nat) (off : Nat) (v : Nat) :
    Kept F L (State.keepGrowth s node off v) := by
  unfold State.keepGrowth
  try dsimp only
  repeat' first
    | with_reducible assumption
    | with_reducible apply kept_setMd
    | with_reducible apply kept_setFd
    | with_reducible apply kept_setPcd
    | with_reducible apply kept_ite
    | (with_reducible refine fun _ hx => (?_ : Memory.wf _ = true); exact hx)
    | with_reducible refine Kept.mdmem (F := F) (L := L) ?_ _
    | with_reducible intro _
    | split

theorem kept_regRead {F : Fuses} {L : List Knot} {s : State} (h : Kept F L s) (src : Source) (node : Nat) (off : Nat) (bytes : Nat) (coincident : Nat) :
    Kept F L (State.regRead s src node off bytes coincident).1 := by
  unfold State.regRead
  try dsimp only
  repeat' first
    | with_reducible assumption
    | with_reducible apply kept_setRg
    | with_reducible apply kept_keepGrowth
    | with_reducible apply kept_refuseAt
    | with_reducible apply kept_ite
    | with_reducible apply kept_ite_fst
    | dsimp only
    | with_reducible intro _
    | split

theorem kept_accWinBad {F : Fuses} {L : List Knot} {s : State} (h : Kept F L s) (d : Nat) (c : Nat) (row : Nat) :
    Kept F L (State.accWinBad s d c row) := by
  unfold State.accWinBad
  try dsimp only
  repeat' first
    | with_reducible assumption
    | with_reducible apply kept_setRg
    | with_reducible apply kept_raise
    | with_reducible apply kept_ite
    | with_reducible intro _

theorem kept_sideWinBad {F : Fuses} {L : List Knot} {s : State} (h : Kept F L s) (d : Nat) (i : Nat) :
    Kept F L (State.sideWinBad s d i) := by
  unfold State.sideWinBad
  try dsimp only
  repeat' first
    | with_reducible assumption
    | with_reducible apply kept_setRg
    | with_reducible apply kept_raise
    | with_reducible apply kept_ite
    | with_reducible intro _

theorem kept_plainWords {F : Fuses} {L : List Knot} {s : State} (h : Kept F L s) (errs : SMap Nat) (m : List Host.Cell) (off : Nat) (n : Nat) :
    Kept F L (State.plainWords s errs m off n).1 := by
  unfold State.plainWords
  try dsimp only
  repeat' first
    | with_reducible assumption
    | with_reducible apply kept_takeFree
    | split

theorem kept_winReadOpen {F : Fuses} {L : List Knot} {s : State} (h : Kept F L s) (src : Source) (d : Nat) (off : Nat) (n : Nat) (sc : Option (Nat × Nat × Nat × Bool)) :
    Kept F L (State.winReadOpen s src d off n sc).1 := by
  unfold State.winReadOpen
  try dsimp only
  repeat' first
    | with_reducible assumption
    | with_reducible apply kept_refuseAt
    | with_reducible apply kept_regRead
    | with_reducible apply kept_spadAsk
    | with_reducible apply kept_accReadAt
    | with_reducible apply kept_accWinBad
    | with_reducible apply kept_slotRead
    | with_reducible apply kept_sideWinBad
    | with_reducible apply kept_plainWords
    | with_reducible apply kept_ite_fst
    | dsimp only
    | with_reducible intro _

theorem kept_winRead {F : Fuses} {L : List Knot} {s : State} (h : Kept F L s) (src : Source) (d : Nat) (off : Nat) (n : Nat) (sc : Option (Nat × Nat × Nat × Bool)) :
    Kept F L (State.winRead s src d off n sc).1 := by
  unfold State.winRead
  try dsimp only
  repeat' first
    | with_reducible assumption
    | with_reducible apply kept_refuseAt
    | with_reducible apply kept_ite_fst
    | dsimp only
    | with_reducible intro _
    | with_reducible apply kept_winReadOpen

theorem kept_winWrite {F : Fuses} {L : List Knot} {s : State} (h : Kept F L s) (src : Source) (d : Nat) (off : Nat) (n : Nat) (v : Nat) (sc : Option (Nat × Nat × Nat × Bool)) :
    Kept F L (State.winWrite s src d off n v sc) := by
  unfold State.winWrite
  try dsimp only
  repeat' first
    | with_reducible assumption
    | with_reducible apply kept_refuseAt
    | with_reducible apply kept_regWrite
    | with_reducible apply kept_spadAsk
    | with_reducible apply kept_setMc
    | with_reducible apply kept_setScr
    | with_reducible apply kept_modPlace
    | with_reducible apply kept_modDie
    | with_reducible apply kept_ite
    | with_reducible refine fun x hx => (?_ : Die.Canonical _)
    | with_reducible refine fun x hx => (?_ : Memory.wf _ = true)
    | with_reducible apply Memory.wf_writeBytes
    | exact (hx : Die.Canonical x).1
    | exact (hx : Die.Canonical x).2.1
    | exact (hx : Die.Canonical x).2.2
    | with_reducible apply auto_turnWrite
    | with_reducible refine Die.canonical_mk ?_ ?_ ?_
    | with_reducible intro _

theorem kept_busRead {F : Fuses} {L : List Knot} {s : State} (h : Kept F L s) (src : Source) (a : Nat) (n : Nat) (coincident : Nat) :
    Kept F L (State.busRead s src a n coincident) := by
  unfold State.busRead
  try dsimp only
  repeat' first
    | with_reducible assumption
    | with_reducible apply kept_memGet
    | with_reducible apply kept_refuseBy
    | with_reducible apply kept_regRead
    | with_reducible apply kept_scTrap
    | with_reducible apply kept_ite
    | dsimp only
    | with_reducible intro _
    | split
    | with_reducible apply kept_winRead
    | with_reducible apply kept_wrdata

theorem kept_busWrite {F : Fuses} {L : List Knot} {s : State} (h : Kept F L s) (src : Source) (a : Nat) (n : Nat) (v : Nat) :
    Kept F L (State.busWrite s src a n v) := by
  unfold State.busWrite
  try dsimp only
  repeat' first
    | with_reducible assumption
    | with_reducible apply kept_memPut
    | with_reducible apply kept_refuseBy
    | with_reducible apply kept_regWrite
    | with_reducible apply kept_scTrap
    | with_reducible apply kept_ite
    | with_reducible apply kept_ite_fst
    | dsimp only
    | with_reducible intro _
    | split
    | with_reducible apply kept_winWrite

theorem kept_clearTally {F : Fuses} {L : List Knot} {s : State} (h : Kept F L s) (node : Nat) :
    Kept F L (State.clearTally s node) := by
  unfold State.clearTally
  try dsimp only
  repeat' first
    | with_reducible assumption
    | with_reducible apply kept_modDie
    | with_reducible apply kept_setMd
    | with_reducible apply kept_setFd
    | with_reducible apply kept_setPcd
    | with_reducible apply kept_ite
    | (with_reducible refine fun _ hx => (?_ : Memory.wf _ = true); exact hx)
    | with_reducible refine fun x hx => (?_ : Die.Canonical _)
    | exact (hx : Die.Canonical x)
    | with_reducible refine Kept.mdmem (F := F) (L := L) ?_ _
    | with_reducible intro _

theorem kept_badAccess {F : Fuses} {L : List Knot} {s : State} (h : Kept F L s) (n : Nat) :
    Kept F L (State.badAccess s n) := by
  unfold State.badAccess
  try dsimp only
  repeat' first
    | with_reducible assumption
    | with_reducible apply kept_bumpErr

theorem kept_tallyReport {F : Fuses} {L : List Knot} {s : State} (h : Kept F L s) (node : Nat) :
    Kept F L (State.tallyReport s node) := by
  unfold State.tallyReport
  try dsimp only
  repeat' first
    | with_reducible assumption
    | with_reducible apply kept_clearTally
    | with_reducible apply kept_badAccess
    | with_reducible apply kept_spSend
    | with_reducible apply kept_ite
    | with_reducible intro _

theorem kept_w1cSet {F : Fuses} {L : List Knot} {s : State} (h : Kept F L s) (node : Nat) (off : Nat) (bytes : Nat) (coincident : Nat) :
    Kept F L (State.w1cSet s node off bytes coincident) := by
  unfold State.w1cSet
  try dsimp only
  repeat' first
    | with_reducible assumption
    | with_reducible apply kept_orRg
    | with_reducible apply kept_ite
    | with_reducible intro _
    | split

theorem kept_busWriteWith {F : Fuses} {L : List Knot} {s : State} (h : Kept F L s) (src : Source) (a : Nat) (n : Nat) (v : Nat) (coincident : Nat) :
    Kept F L (State.busWriteWith s src a n v coincident) := by
  unfold State.busWriteWith
  try dsimp only
  repeat' first
    | with_reducible assumption
    | with_reducible apply kept_busWrite
    | with_reducible apply kept_ite
    | with_reducible intro _
    | split
    | with_reducible apply kept_w1cSet

end Sys2Proof.Machine
end

