-- ==== Sys2Proof/Laws/KeptScores.lean ====
section
/-! SUPPORT. What the operations of Machine/Scores.lean keep. -/

namespace Sys2Proof.Machine

theorem kept_l2Room {F : Fuses} {L : List Knot} {s : State} (h : Kept F L s) (d : Nat) (p : Nat) :
    Kept F L (State.l2Room s d p).1 := by
  unfold State.l2Room
  try dsimp only
  repeat' first
    | with_reducible assumption
    | with_reducible apply kept_takeFree
    | with_reducible apply kept_lineBack
    | with_reducible apply kept_modDie
    | with_reducible apply kept_ite_fst
    | with_reducible refine fun x hx => (?_ : Die.Canonical _)
    | exact (hx : Die.Canonical x)
    | dsimp only
    | with_reducible intro _
    | split

theorem kept_l2Fill {F : Fuses} {L : List Knot} {s : State} (h : Kept F L s) (d : Nat) (p : Nat) (a : Nat) :
    Kept F L (State.l2Fill s d p a).1 := by
  unfold State.l2Fill
  try dsimp only
  repeat' first
    | with_reducible assumption
    | with_reducible apply kept_l2Room
    | with_reducible apply kept_hbmRead
    | with_reducible apply kept_modDie
    | with_reducible apply kept_raise
    | with_reducible apply kept_ite_fst
    | with_reducible refine fun x hx => (?_ : Die.Canonical _)
    | exact (hx : Die.Canonical x)
    | dsimp only
    | with_reducible intro _
    | split

theorem kept_l1Fill {F : Fuses} {L : List Knot} {s : State} (h : Kept F L s) (d : Nat) (c : Nat) (p : Nat) (a : Nat) (code : Bool) :
    Kept F L (State.l1Fill s d c p a code).1 := by
  unfold State.l1Fill
  try dsimp only
  repeat' first
    | with_reducible assumption
    | with_reducible apply kept_l2Fill
    | with_reducible apply kept_cacheJudge
    | with_reducible apply kept_modDie
    | with_reducible apply kept_takeFree
    | with_reducible apply kept_setSc
    | with_reducible apply kept_ite
    | with_reducible apply kept_ite_fst
    | with_reducible refine fun x hx => (?_ : Die.Canonical _)
    | exact (hx : Die.Canonical x)
    | dsimp only
    | with_reducible intro _
    | split

theorem kept_l1Line {F : Fuses} {L : List Knot} {s : State} (h : Kept F L s) (d : Nat) (c : Nat) (p : Nat) (a : Nat) (n : Nat) (code : Bool) :
    Kept F L (State.l1Line s d c p a n code).1 := by
  unfold State.l1Line
  try dsimp only
  repeat' first
    | with_reducible assumption
    | with_reducible apply kept_l1Fill
    | with_reducible apply kept_cacheJudge
    | with_reducible apply kept_setSc
    | with_reducible apply kept_ite_fst
    | dsimp only
    | with_reducible intro _
    | split

theorem kept_cacheRead {F : Fuses} {L : List Knot} {s : State} (h : Kept F L s) (d : Nat) (c : Nat) (p : Nat) (a : Nat) (n : Nat) (code : Bool) :
    Kept F L (State.cacheRead s d c p a n code).1 := by
  unfold State.cacheRead
  try dsimp only
  repeat' first
    | with_reducible assumption
    | with_reducible apply kept_l1Line
    | with_reducible apply kept_foldl_fst
    | (with_reducible intro _ _ _; try dsimp only)
    | split

theorem kept_cacheWrite {F : Fuses} {L : List Knot} {s : State} (h : Kept F L s) (d : Nat) (c : Nat) (p : Nat) (a : Nat) (bs : List Byte) :
    Kept F L (State.cacheWrite s d c p a bs).1 := by
  unfold State.cacheWrite
  try dsimp only
  repeat' first
    | with_reducible assumption
    | with_reducible apply kept_l2Fill
    | with_reducible apply kept_modDie
    | with_reducible apply kept_foldl_fst
    | with_reducible refine fun x hx => (?_ : Die.Canonical _)
    | exact (hx : Die.Canonical x)
    | (with_reducible intro _ _ _; try dsimp only)
    | split

theorem kept_cboLine {F : Fuses} {L : List Knot} {s : State} (h : Kept F L s) (d : Nat) (p : Nat) (a : Nat) (kind : ScKind) :
    Kept F L (State.cboLine s d p a kind).1 := by
  unfold State.cboLine
  try dsimp only
  repeat' first
    | with_reducible assumption
    | with_reducible apply kept_lineBack
    | with_reducible apply kept_modDie
    | with_reducible apply kept_ite_fst
    | with_reducible refine fun x hx => (?_ : Die.Canonical _)
    | exact (hx : Die.Canonical x)
    | dsimp only
    | with_reducible intro _
    | split

theorem kept_readPanel {F : Fuses} {L : List Knot} {s : State} (h : Kept F L s) (d : Nat) (c : Nat) (a : Nat) (n : Nat) (code : Bool) (dst : Option (Nat × Bool)) :
    Kept F L (State.readPanel s d c a n code dst).1 := by
  unfold State.readPanel
  try dsimp only
  repeat' first
    | with_reducible assumption
    | with_reducible apply kept_refuseBy
    | with_reducible apply kept_cacheRead
    | with_reducible apply kept_ite_fst
    | dsimp only
    | with_reducible intro _
    | split
    | with_reducible apply kept_winRead

theorem kept_physRead {F : Fuses} {L : List Knot} {s : State} (h : Kept F L s) (d : Nat) (c : Nat) (pa : Nat) (n : Nat) (code : Bool) (dst : Option (Nat × Bool)) :
    Kept F L (State.physRead s d c pa n code dst).1 := by
  unfold State.physRead
  try dsimp only
  repeat' first
    | with_reducible assumption
    | with_reducible apply kept_readPanel

theorem kept_writePanel {F : Fuses} {L : List Knot} {s : State} (h : Kept F L s) (d : Nat) (c : Nat) (a : Nat) (n : Nat) (v : Nat) :
    Kept F L (State.writePanel s d c a n v).1 := by
  unfold State.writePanel
  try dsimp only
  repeat' first
    | with_reducible assumption
    | with_reducible apply kept_refuseBy
    | with_reducible apply kept_cacheWrite
    | with_reducible apply kept_ite_fst
    | dsimp only
    | with_reducible intro _
    | split
    | with_reducible apply kept_winWrite

theorem kept_physWrite {F : Fuses} {L : List Knot} {s : State} (h : Kept F L s) (d : Nat) (c : Nat) (pa : Nat) (n : Nat) (v : Nat) :
    Kept F L (State.physWrite s d c pa n v).1 := by
  unfold State.physWrite
  try dsimp only
  repeat' first
    | with_reducible assumption
    | with_reducible apply kept_writePanel

theorem kept_cboPanel {F : Fuses} {L : List Knot} {s : State} (h : Kept F L s) (d : Nat) (c : Nat) (a : Nat) (kind : ScKind) :
    Kept F L (State.cboPanel s d c a kind).1 := by
  unfold State.cboPanel
  try dsimp only
  repeat' first
    | with_reducible assumption
    | with_reducible apply kept_refuseBy
    | with_reducible apply kept_cboLine
    | with_reducible apply kept_ite_fst
    | dsimp only
    | with_reducible intro _
    | split

theorem kept_physCbo {F : Fuses} {L : List Knot} {s : State} (h : Kept F L s) (d : Nat) (c : Nat) (pa : Nat) (kind : ScKind) :
    Kept F L (State.physCbo s d c pa kind).1 := by
  unfold State.physCbo
  try dsimp only
  repeat' first
    | with_reducible assumption
    | with_reducible apply kept_cboPanel

theorem kept_scAccess {F : Fuses} {L : List Knot} {s : State} (h : Kept F L s) (d : Nat) (c : Nat) (kind : ScKind) (pa : BitVec 56) (width : Nat) (reg : BitVec 5) :
    Kept F L (State.scAccess s d c kind pa width reg) := by
  unfold State.scAccess
  try dsimp only
  repeat' first
    | with_reducible assumption
    | with_reducible apply kept_physRead
    | with_reducible apply kept_setSc
    | with_reducible apply kept_scTrapAt
    | with_reducible apply kept_physWrite
    | with_reducible apply kept_physCbo
    | with_reducible apply kept_ite
    | with_reducible intro _
    | split

theorem kept_csrWrite {F : Fuses} {L : List Knot} {s : State} (h : Kept F L s) (d : Nat) (c : Nat) (k : Nat) (v : Nat) :
    Kept F L (State.csrWrite s d c k v) := by
  unfold State.csrWrite
  try dsimp only
  repeat' first
    | with_reducible assumption
    | with_reducible apply kept_setSc
    | with_reducible apply kept_modDie
    | with_reducible apply kept_ite
    | with_reducible refine fun x hx => (?_ : Die.Canonical _)
    | exact (hx : Die.Canonical x)
    | with_reducible intro _

theorem kept_walk {F : Fuses} {L : List Knot} (d c st mode va : Nat) (k : VaKind) (i : Nat) :
    ∀ {s : State}, Kept F L s → ∀ ppn, Kept F L (State.walk s d c st mode va k i ppn).1 := by
  induction i with
  | zero => intro s h _; exact h
  | succ i ih =>
    intro s h ppn
    have h1 := kept_physRead h d c (4096 * ppn + 8 * bits va (20 + 9 * i) (12 + 9 * i)) 8 false none
    unfold State.walk
    dsimp only
    generalize s.physRead d c (4096 * ppn + 8 * bits va (20 + 9 * i) (12 + 9 * i)) 8 false none = r at h1
    split
    · exact h1
    · exact kept_ite_fst (fun _ => h1) (fun _ => kept_ite_fst (fun _ => kept_ite_fst (fun _ => h1) (fun _ => h1))
        (fun _ => kept_ite_fst (fun _ => h1) (fun _ => ih h1 _)))
    · exact h1

theorem kept_translate {F : Fuses} {L : List Knot} {s : State} (h : Kept F L s) (d : Nat) (c : Nat) (k : VaKind) (va : Nat) :
    Kept F L (State.translate s d c k va).1 := by
  unfold State.translate
  try dsimp only
  repeat' first
    | with_reducible assumption
    | with_reducible apply kept_ite_fst
    | dsimp only
    | with_reducible intro _
    | split
    | with_reducible apply kept_walk

end Sys2Proof.Machine
end

