-- ==== Sys2Proof/Laws/KeptRiscv.lean ====
section
/-! SUPPORT. What the operations of Machine/Riscv.lean keep. -/

namespace Sys2Proof.Machine

theorem kept_scNext {F : Fuses} {L : List Knot} {s : State} (h : Kept F L s) (d : Nat) (c : Nat) (len : Nat) :
    Kept F L (State.scNext s d c len) := by
  unfold State.scNext
  try dsimp only
  repeat' first
    | with_reducible assumption
    | with_reducible apply kept_setSc

theorem kept_atVa {F : Fuses} {L : List Knot} {s : State} (h : Kept F L s) (d : Nat) (c : Nat) (k : VaKind) (write : Bool) (va : Nat) (n : Nat) (f : State → Nat → State) (hff : ∀ t a1, Kept F L t → Kept F L (f t a1)) :
    Kept F L (State.atVa s d c k write va n f) := by
  unfold State.atVa
  try dsimp only
  repeat' first
    | with_reducible assumption
    | with_reducible apply hff
    | with_reducible apply kept_scTrapAt
    | with_reducible apply kept_translate
    | with_reducible apply kept_ite
    | with_reducible intro _
    | split

theorem kept_rvLoad {F : Fuses} {L : List Knot} {s : State} (h : Kept F L s) (d : Nat) (c : Nat) (len : Nat) (va : Nat) (n : Nat) (rd : Nat) (sx : Bool) :
    Kept F L (State.rvLoad s d c len va n rd sx) := by
  unfold State.rvLoad
  try dsimp only
  repeat' first
    | with_reducible assumption
    | with_reducible apply kept_atVa
    | with_reducible apply kept_physRead
    | with_reducible apply kept_setSc
    | with_reducible apply kept_scNext
    | with_reducible apply kept_scTrapAt
    | (with_reducible intro _ _ _; try dsimp only)
    | split

theorem kept_rvStore {F : Fuses} {L : List Knot} {s : State} (h : Kept F L s) (d : Nat) (c : Nat) (len : Nat) (va : Nat) (n : Nat) (v : Nat) :
    Kept F L (State.rvStore s d c len va n v) := by
  unfold State.rvStore
  try dsimp only
  repeat' first
    | with_reducible assumption
    | with_reducible apply kept_atVa
    | with_reducible apply kept_physWrite
    | with_reducible apply kept_scTrapAt
    | with_reducible apply kept_scNext
    | (with_reducible intro _ _ _; try dsimp only)
    | split

theorem kept_rvAtomic {F : Fuses} {L : List Knot} {s : State} (h : Kept F L s) (d : Nat) (c : Nat) (len : Nat) (f5 : Nat) (n : Nat) (va : Nat) (rd : Nat) (v : Nat) :
    Kept F L (State.rvAtomic s d c len f5 n va rd v) := by
  unfold State.rvAtomic
  try dsimp only
  repeat' first
    | with_reducible assumption
    | with_reducible apply kept_scTrapAt
    | with_reducible apply kept_setSc
    | with_reducible apply kept_scNext
    | with_reducible apply kept_atVa
    | with_reducible apply kept_physWrite
    | with_reducible apply kept_physRead
    | with_reducible apply kept_ite
    | (with_reducible intro _ _ _; try dsimp only)
    | with_reducible intro _
    | split

theorem kept_rvCsr {F : Fuses} {L : List Knot} {s : State} (h : Kept F L s) (d : Nat) (c : Nat) (len : Nat) (w : Nat) :
    Kept F L (State.rvCsr s d c len w) := by
  unfold State.rvCsr
  try dsimp only
  repeat' first
    | with_reducible assumption
    | with_reducible apply kept_scTrap
    | with_reducible apply kept_csrWrite
    | with_reducible apply kept_setSc
    | with_reducible apply kept_scNext
    | with_reducible apply kept_ite
    | with_reducible intro _
    | split

theorem kept_rvSystem {F : Fuses} {L : List Knot} {s : State} (h : Kept F L s) (d : Nat) (c : Nat) (len : Nat) (w : Nat) :
    Kept F L (State.rvSystem s d c len w) := by
  unfold State.rvSystem
  try dsimp only
  repeat' first
    | with_reducible assumption
    | with_reducible apply kept_scTrap
    | with_reducible apply kept_rvCsr
    | with_reducible apply kept_scTrapAt
    | with_reducible apply kept_setSc
    | with_reducible apply kept_scNext
    | with_reducible apply kept_ite
    | with_reducible intro _

theorem kept_rvFence {F : Fuses} {L : List Knot} {s : State} (h : Kept F L s) (d : Nat) (c : Nat) (len : Nat) (w : Nat) :
    Kept F L (State.rvFence s d c len w) := by
  unfold State.rvFence
  try dsimp only
  repeat' first
    | with_reducible assumption
    | with_reducible apply kept_scTrap
    | with_reducible apply kept_atVa
    | with_reducible apply kept_physCbo
    | with_reducible apply kept_scTrapAt
    | with_reducible apply kept_scNext
    | with_reducible apply kept_setSc
    | with_reducible apply kept_ite
    | (with_reducible intro _ _ _; try dsimp only)
    | with_reducible intro _
    | split

theorem kept_rvCustom {F : Fuses} {L : List Knot} {s : State} (h : Kept F L s) (d : Nat) (c : Nat) (w : Nat) :
    Kept F L (State.rvCustom s d c w) := by
  unfold State.rvCustom
  try dsimp only
  repeat' first
    | with_reducible assumption
    | with_reducible apply kept_scTrap
    | with_reducible apply kept_plArm
    | with_reducible apply kept_plStop
    | with_reducible apply kept_plStat
    | with_reducible apply kept_fxStart
    | with_reducible apply kept_fxDma
    | with_reducible apply kept_fxDpoll
    | with_reducible apply kept_fxBar
    | with_reducible apply kept_fxSpsend
    | with_reducible apply kept_fxSprecv
    | with_reducible apply kept_ite
    | with_reducible intro _
    | split

theorem kept_rvExec {F : Fuses} {L : List Knot} {s : State} (h : Kept F L s) (d : Nat) (c : Nat) (w : Nat) (len : Nat) :
    Kept F L (State.rvExec s d c w len) := by
  unfold State.rvExec
  try dsimp only
  repeat' first
    | with_reducible assumption
    | with_reducible apply kept_scTrap
    | with_reducible apply kept_rvLoad
    | with_reducible apply kept_setSc
    | with_reducible apply kept_rvStore
    | with_reducible apply kept_rvAtomic
    | with_reducible apply kept_rvFence
    | with_reducible apply kept_rvSystem
    | with_reducible apply kept_rvCustom
    | with_reducible apply kept_ite
    | with_reducible intro _
    | split

theorem kept_rvFetch2 {F : Fuses} {L : List Knot} {s : State} (h : Kept F L s) (d : Nat) (c : Nat) (va : Nat) :
    Kept F L (State.rvFetch2 s d c va).1 := by
  unfold State.rvFetch2
  try dsimp only
  repeat' first
    | with_reducible assumption
    | with_reducible apply kept_translate
    | with_reducible apply kept_physRead
    | split

theorem kept_scExecute {F : Fuses} {L : List Knot} {s : State} (h : Kept F L s) (d : Nat) (c : Nat) :
    Kept F L (State.scExecute s d c) := by
  unfold State.scExecute
  try dsimp only
  repeat' first
    | with_reducible assumption
    | with_reducible apply kept_scTrapAt
    | with_reducible apply kept_setSc
    | with_reducible apply kept_rvFetch2
    | with_reducible apply kept_rvExec
    | with_reducible apply kept_ite
    | with_reducible intro _
    | split

end Sys2Proof.Machine
end

