-- ==== Sys2Proof/Laws/KeptLinks.lean ====
section
/-! SUPPORT. What the operations of Machine/Links.lean keep. -/

namespace Sys2Proof.Machine

theorem kept_bumpLink {F : Fuses} {L : List Knot} {s : State} (h : Kept F L s) (n : Nat) (off : Nat → Nat) (b : Nat) (k : Nat) :
    Kept F L (State.bumpLink s n off b k) := by
  unfold State.bumpLink
  try dsimp only
  repeat' first
    | with_reducible assumption
    | with_reducible apply kept_bumpRt
    | with_reducible apply kept_ite
    | with_reducible intro _

theorem kept_stripeSlot {F : Fuses} {L : List Knot} {s : State} (h : Kept F L s) (d : Nat) (side : Nat) (hops : Nat) (st : Stripe) (good : Bool) (t : Nat) :
    Kept F L (State.stripeSlot s d side hops st good t) := by
  unfold State.stripeSlot
  try dsimp only
  repeat' first
    | with_reducible assumption
    | with_reducible apply kept_modPlace
    | with_reducible apply place_ite
    | with_reducible refine fun x hx => (?_ : Memory.wf _ = true)
    | exact (hx : Memory.wf _ = true)
    | with_reducible intro _
    | split

theorem kept_stripeIn {F : Fuses} {L : List Knot} {s : State} (h : Kept F L s) (d : Nat) (side : Nat) (st : Stripe) :
    Kept F L (State.stripeIn s d side st) := by
  unfold State.stripeIn
  try dsimp only
  repeat' first
    | with_reducible assumption
    | with_reducible apply kept_bumpLink
    | with_reducible apply kept_bumpErr
    | with_reducible apply kept_raise
    | with_reducible apply kept_modDie
    | with_reducible apply kept_stripeSlot
    | with_reducible apply kept_foldl
    | with_reducible apply kept_ite
    | with_reducible refine fun x hx => (?_ : Die.Canonical _)
    | exact (hx : Die.Canonical x)
    | (with_reducible intro _ _ _; try dsimp only)
    | with_reducible intro _
    | split

theorem kept_linkFail {F : Fuses} {L : List Knot} {s : State} (h : Kept F L s) (n : Nat) (port : Nat) :
    Kept F L (State.linkFail s n port) := by
  unfold State.linkFail
  try dsimp only
  repeat' first
    | with_reducible assumption
    | with_reducible apply kept_setPcd
    | with_reducible apply kept_raise
    | (with_reducible refine fun _ hx => (?_ : Memory.wf _ = true); exact hx)

theorem kept_sendCodewords {F : Fuses} {L : List Knot} {s : State} (h : Kept F L s) (n : Nat) (port : Nat) (count : Nat) :
    Kept F L (State.sendCodewords s n port count) := by
  unfold State.sendCodewords
  try dsimp only
  repeat' first
    | with_reducible assumption
    | with_reducible apply kept_setPcd
    | (with_reducible refine fun _ hx => (?_ : Memory.wf _ = true); exact hx)

theorem kept_takeCredits {F : Fuses} {L : List Knot} {s : State} (h : Kept F L s) (n : Nat) (port : Nat) (ch : Nat) (k : Nat) :
    Kept F L (State.takeCredits s n port ch k) := by
  unfold State.takeCredits
  try dsimp only
  repeat' first
    | with_reducible assumption
    | with_reducible apply kept_setPcd
    | (with_reducible refine fun _ hx => (?_ : Memory.wf _ = true); exact hx)

theorem kept_giveCredits {F : Fuses} {L : List Knot} {s : State} (h : Kept F L s) (n : Nat) (port : Nat) (ch : Nat) (k : Nat) :
    Kept F L (State.giveCredits s n port ch k) := by
  unfold State.giveCredits
  try dsimp only
  repeat' first
    | with_reducible assumption
    | with_reducible apply kept_setPcd
    | (with_reducible refine fun _ hx => (?_ : Memory.wf _ = true); exact hx)

theorem kept_replayAck {F : Fuses} {L : List Knot} {s : State} (h : Kept F L s) (n : Nat) (port : Nat) (c : Codeword) :
    Kept F L (State.replayAck s n port c) := by
  unfold State.replayAck
  try dsimp only
  repeat' first
    | with_reducible assumption
    | with_reducible apply kept_setPcd
    | with_reducible apply kept_bumpLink
    | with_reducible apply kept_linkFail
    | with_reducible apply kept_ite
    | (with_reducible refine fun _ hx => (?_ : Memory.wf _ = true); exact hx)
    | with_reducible intro _

theorem kept_codewordIn {F : Fuses} {L : List Knot} {s : State} (h : Kept F L s) (n : Nat) (port : Nat) (c : Codeword) :
    Kept F L (State.codewordIn s n port c) := by
  unfold State.codewordIn
  try dsimp only
  repeat' first
    | with_reducible assumption
    | with_reducible apply kept_setPcd
    | with_reducible apply kept_bumpLink
    | with_reducible apply kept_linkFail
    | with_reducible apply kept_replayAck
    | with_reducible apply kept_giveCredits
    | with_reducible apply kept_ite
    | (with_reducible refine fun _ hx => (?_ : Memory.wf _ = true); exact hx)
    | with_reducible intro _

theorem kept_pktArrive {F : Fuses} {L : List Knot} {s : State} (h : Kept F L s) (p : DynPkt) : Kept F L (State.pktArrive s p) := by
  unfold State.pktArrive
  extract_lets ty
  clear_value ty
  refine kept_ite (fun _ => kept_readIn h ..) (fun _ => kept_ite (fun _ => kept_writeAt h ..) (fun _ => kept_ite (fun _ => kept_readDataIn h ..) (fun _ =>
    kept_ite (fun _ => kept_writeAckIn h ..) (fun _ => kept_ite (fun _ => kept_landPkt h ..) (fun _ => kept_ite (fun _ => kept_donePkt h ..) (fun _ =>
    kept_ite (fun _ => kept_freadIn h ..) (fun _ => kept_ite (fun _ => kept_onPanelIn h ..) (fun _ => kept_ite (fun _ => kept_fwriteIn h ..) (fun _ =>
    kept_ite (fun _ => kept_onPanelIn h ..) (fun _ => kept_pktIn h _ _ _ (fun _ ht => ht)))))))))))

theorem kept_packetHop {F : Fuses} {L : List Knot} {s : State} (h : Kept F L s) (n : Nat) (out : Nat) :
    Kept F L (State.packetHop s n out) := by
  unfold State.packetHop
  try dsimp only
  repeat' first
    | with_reducible assumption
    | with_reducible apply kept_netServed
    | with_reducible apply kept_pktArrive
    | with_reducible apply kept_setNetQ
    | with_reducible apply kept_bumpPerf
    | with_reducible apply kept_sendCodewords
    | with_reducible apply kept_takeCredits
    | with_reducible apply kept_ite
    | with_reducible intro _
    | split

theorem kept_spDrop {F : Fuses} {L : List Knot} {s : State} (h : Kept F L s) (f : Nat → SpPkt → Bool) :
    Kept F L (State.spDrop s f) := by
  unfold State.spDrop
  try dsimp only
  repeat' first
    | with_reducible assumption
    | with_reducible apply kept_setPcd
    | (with_reducible refine fun _ hx => (?_ : Memory.wf _ = true); exact hx)
    | split

theorem kept_spsendIn {F : Fuses} {L : List Knot} {s : State} (h : Kept F L s) (d : Nat) (src : Nat) (v : W64) :
    Kept F L (State.spsendIn s d src v) := by
  unfold State.spsendIn
  try dsimp only
  repeat' first
    | with_reducible assumption
    | with_reducible apply kept_modDie
    | with_reducible apply kept_bumpErr
    | with_reducible apply kept_ite
    | with_reducible refine fun x hx => (?_ : Die.Canonical _)
    | exact (hx : Die.Canonical x)
    | with_reducible intro _

theorem kept_barArriveIn {F : Fuses} {L : List Knot} {s : State} (h : Kept F L s) (n : Nat) (b : Nat) (child : Nat) :
    Kept F L (State.barArriveIn s n b child) := by
  unfold State.barArriveIn
  try dsimp only
  repeat' first
    | with_reducible assumption
    | with_reducible apply kept_setPart
    | with_reducible apply kept_barUp
    | with_reducible apply kept_ite
    | refine Part.canonical_of rfl rfl (Kept.part (F := F) (L := L) ?_ _)
    | with_reducible intro _
    | split

theorem kept_barReleaseIn {F : Fuses} {L : List Knot} {s : State} (h : Kept F L s) (d : Nat) (b : Nat) :
    Kept F L (State.barReleaseIn s d b) := by
  unfold State.barReleaseIn
  try dsimp only
  repeat' first
    | with_reducible assumption
    | with_reducible apply kept_modDie
    | with_reducible apply kept_barCheck
    | with_reducible apply kept_barEnd
    | with_reducible apply kept_foldl
    | with_reducible apply kept_ite
    | with_reducible refine fun x hx => (?_ : Die.Canonical _)
    | exact (hx : Die.Canonical x)
    | (with_reducible intro _ _ _; try dsimp only)
    | with_reducible intro _
    | split

theorem kept_startIn {F : Fuses} {L : List Knot} {s : State} (h : Kept F L s) (d : Nat) (cycle : Nat) :
    Kept F L (State.startIn s d cycle) := by
  unfold State.startIn
  try dsimp only
  repeat' first
    | with_reducible assumption
    | with_reducible apply kept_modPart
    | with_reducible apply kept_plRecord
    | with_reducible apply kept_raise
    | with_reducible apply kept_modDie
    | with_reducible apply kept_ite
    | with_reducible refine fun x hx => (?_ : Die.Canonical _)
    | with_reducible refine fun x hx => (?_ : Part.Canonical _)
    | exact (hx : Part.Canonical x)
    | exact (hx : Die.Canonical x)
    | with_reducible intro _
    | split

theorem kept_yieldIn {F : Fuses} {L : List Knot} {s : State} (h : Kept F L s) (d : Nat) (e : Nat) :
    Kept F L (State.yieldIn s d e) := by
  unfold State.yieldIn
  try dsimp only
  repeat' first
    | with_reducible assumption
    | with_reducible apply kept_modDie
    | with_reducible apply kept_ite
    | with_reducible refine fun x hx => (?_ : Die.Canonical _)
    | exact (hx : Die.Canonical x)
    | with_reducible intro _

theorem kept_beaconIn {F : Fuses} {L : List Knot} {s : State} (h : Kept F L s) (n : Nat) (payload : Nat) :
    Kept F L (State.beaconIn s n payload) := by
  unfold State.beaconIn
  try dsimp only
  repeat' first
    | with_reducible assumption
    | with_reducible apply kept_setRg
    | with_reducible apply kept_setRgB
    | with_reducible apply kept_raise
    | with_reducible apply kept_setPcd
    | with_reducible apply kept_ite
    | (with_reducible refine fun _ hx => (?_ : Memory.wf _ = true); exact hx)
    | with_reducible intro _

theorem kept_attach {F : Fuses} {L : List Knot} {s : State} (h : Kept F L s) (bs : List Byte) :
    Kept F L (State.attach s bs).1 := by
  unfold State.attach
  try dsimp only
  repeat' first
    | with_reducible assumption
    | with_reducible apply kept_setPcd
    | with_reducible refine fun x hx => (?_ : Memory.wf _ = true)
    | with_reducible apply Memory.wf_writeBytes
    | with_reducible apply Memory.wf_clearRange

theorem kept_deadlock {F : Fuses} {L : List Knot} {s : State} (h : Kept F L s) (p : Nat) :
    Kept F L (State.deadlock s p) := by
  unfold State.deadlock
  try dsimp only
  repeat' first
    | with_reducible assumption
    | with_reducible apply kept_stopPart
    | with_reducible apply kept_attach
    | with_reducible apply kept_addRecord
    | with_reducible apply kept_actOn
    | with_reducible apply kept_ite
    | with_reducible intro _

theorem kept_noticeIn {F : Fuses} {L : List Knot} {s : State} (h : Kept F L s) (site : Nat) (kind : Nat) :
    Kept F L (State.noticeIn s site kind) := by
  unfold State.noticeIn
  try dsimp only
  repeat' first
    | with_reducible assumption
    | with_reducible apply kept_setPart
    | with_reducible apply kept_deadlock
    | with_reducible apply kept_drainedIn
    | with_reducible apply kept_spBroadcast
    | with_reducible apply kept_ite
    | refine Part.canonical_of rfl rfl (Kept.part (F := F) (L := L) ?_ _)
    | with_reducible intro _
    | split

theorem kept_alertTake {F : Fuses} {L : List Knot} {s : State} (h : Kept F L s) (a : Alert) :
    Kept F L (State.alertTake s a) := by
  unfold State.alertTake
  try dsimp only
  repeat' first
    | with_reducible assumption
    | with_reducible apply kept_alertIn
    | with_reducible apply kept_setPcd
    | with_reducible apply kept_spSend
    | with_reducible apply kept_ite
    | (with_reducible refine fun _ hx => (?_ : Memory.wf _ = true); exact hx)
    | with_reducible intro _

theorem kept_regRspIn {F : Fuses} {L : List Knot} {s : State} (h : Kept F L s) (n : Nat) (v : Nat) :
    Kept F L (State.regRspIn s n v) := by
  unfold State.regRspIn
  try dsimp only
  repeat' first
    | with_reducible assumption
    | with_reducible apply kept_setPcd
    | with_reducible apply kept_ite
    | (with_reducible refine fun _ hx => (?_ : Memory.wf _ = true); exact hx)
    | with_reducible intro _
    | with_reducible apply kept_wrdata

theorem kept_regRdIn {F : Fuses} {L : List Knot} {s : State} (h : Kept F L s) (n : Nat) (off : Nat) :
    Kept F L (State.regRdIn s n off) := by
  unfold State.regRdIn
  try dsimp only
  repeat' first
    | with_reducible assumption
    | with_reducible apply kept_regRead
    | with_reducible apply kept_spSend
    | with_reducible apply kept_ite
    | with_reducible intro _

theorem kept_regWrIn {F : Fuses} {L : List Knot} {s : State} (h : Kept F L s) (n : Nat) (off : Nat) (v : Nat) :
    Kept F L (State.regWrIn s n off v) := by
  unfold State.regWrIn
  try dsimp only
  repeat' first
    | with_reducible assumption
    | with_reducible apply kept_badAccess
    | with_reducible apply kept_regWrite
    | with_reducible apply kept_ite
    | with_reducible intro _

theorem kept_mergeFlush {F : Fuses} {L : List Knot} {s : State} (h : Kept F L s) (code : Nat) (unit : Nat) :
    Kept F L (State.mergeFlush s code unit) := by
  unfold State.mergeFlush
  try dsimp only
  repeat' first
    | with_reducible assumption
    | with_reducible apply kept_setPcd
    | with_reducible apply kept_sendEvent
    | with_reducible apply kept_foldl
    | with_reducible apply kept_foldl_fst
    | with_reducible apply kept_ite
    | with_reducible apply kept_foldl_ff
    | with_reducible apply kept_ite_fst
    | with_reducible apply kept_ite_ff
    | (with_reducible refine fun _ hx => (?_ : Memory.wf _ = true); exact hx)
    | with_reducible refine fun x hx => (?_ : Memory.wf _ = true)
    | exact (hx : Memory.wf _ = true)
    | with_reducible apply Memory.wf_writeBytes
    | with_reducible apply Memory.wf_memWrite
    | with_reducible apply Memory.wf_clearRange
    | with_reducible apply Memory.wf_filter
    | with_reducible apply wf_ite
    | dsimp only
    | (with_reducible intro _ _ _; try dsimp only)
    | with_reducible intro _
    | split

theorem kept_alertAgain {F : Fuses} {L : List Knot} {s : State} (h : Kept F L s) (n : Nat) :
    Kept F L (State.alertAgain s n) := by
  unfold State.alertAgain
  try dsimp only
  repeat' first
    | with_reducible assumption
    | with_reducible apply kept_spNotice
    | with_reducible apply kept_spSend
    | with_reducible apply kept_foldl
    | with_reducible apply kept_ite
    | (with_reducible intro _ _ _; try dsimp only)
    | with_reducible intro _
    | split

theorem kept_spEject {F : Fuses} {L : List Knot} {s : State} (h : Kept F L s) (n : Nat) (k : SpPkt) :
    Kept F L (State.spEject s n k) := by
  unfold State.spEject
  try dsimp only
  repeat' first
    | with_reducible assumption
    | with_reducible apply kept_spsendIn
    | with_reducible apply kept_barReleaseIn
    | with_reducible apply kept_startIn
    | with_reducible apply kept_yieldIn
    | with_reducible apply kept_noticeIn
    | with_reducible apply kept_beaconIn
    | with_reducible apply kept_alertTake
    | with_reducible apply kept_regRdIn
    | with_reducible apply kept_regWrIn
    | with_reducible apply kept_regRspIn
    | with_reducible apply kept_ite
    | with_reducible intro _
    | split

theorem kept_spRoute {F : Fuses} {L : List Knot} {s : State} (h : Kept F L s) (n : Nat) (sender : Nat) (k : SpPkt) :
    Kept F L (State.spRoute s n sender k) := by
  unfold State.spRoute
  try dsimp only
  repeat' first
    | with_reducible assumption
    | with_reducible apply kept_bumpLink
    | with_reducible apply kept_barArriveIn
    | with_reducible apply kept_spDown
    | with_reducible apply kept_spPush
    | with_reducible apply kept_ite
    | with_reducible intro _
    | split

theorem kept_spForward {F : Fuses} {L : List Knot} {s : State} (h : Kept F L s) (n : Nat) (port : Nat) (cls : Bool) (e : Ecc) :
    Kept F L (State.spForward s n port cls e) := by
  unfold State.spForward
  try dsimp only
  repeat' first
    | with_reducible assumption
    | with_reducible apply kept_setSpQ
    | with_reducible apply kept_spEject
    | with_reducible apply kept_bumpLink
    | with_reducible apply kept_raisePart
    | with_reducible apply kept_spRoute
    | with_reducible apply kept_ite
    | with_reducible intro _
    | split

end Sys2Proof.Machine
end

