-- ==== Sys2Proof/Laws/KeptHost.lean ====
section
/-! SUPPORT. What the operations of Machine/Host.lean keep. -/

namespace Sys2Proof.Machine

theorem kept_sendStage {F : Fuses} {L : List Knot} {s : State} (h : Kept F L s) (portB : Bool) (r : Report) :
    Kept F L (State.sendStage s portB r) := by
  unfold State.sendStage
  try dsimp only
  repeat' first
    | with_reducible assumption
    | with_reducible apply kept_emit
    | with_reducible apply kept_foldl
    | (with_reducible intro _ _ _; try dsimp only)
    | split

theorem kept_ptpPort {F : Fuses} {L : List Knot} {s : State} (h : Kept F L s)  :
    Kept F L (State.ptpPort s) := by
  unfold State.ptpPort
  try dsimp only
  repeat' first
    | with_reducible assumption
    | with_reducible apply kept_setRgB

theorem kept_portRise {F : Fuses} {L : List Knot} {s : State} (h : Kept F L s) (portB : Bool) :
    Kept F L (State.portRise s portB) := by
  unfold State.portRise
  try dsimp only
  repeat' first
    | with_reducible assumption
    | with_reducible apply kept_setRgB
    | with_reducible apply kept_setPcd
    | with_reducible apply kept_sendStage
    | with_reducible apply kept_ptpPort
    | with_reducible apply kept_foldl
    | with_reducible apply kept_ite
    | with_reducible refine fun x hx => (?_ : Memory.wf _ = true)
    | (with_reducible intro _ _ _; try dsimp only)
    | with_reducible intro _
    | split

theorem kept_portFall {F : Fuses} {L : List Knot} {s : State} (h : Kept F L s) (portB : Bool) :
    Kept F L (State.portFall s portB) := by
  unfold State.portFall
  try dsimp only
  repeat' first
    | with_reducible assumption
    | with_reducible apply kept_setRgB
    | with_reducible apply kept_ptpPort

theorem kept_hostRx {F : Fuses} {L : List Knot} {s : State} (h : Kept F L s) (n : Nat) :
    Kept F L (State.hostRx s n) := by
  unfold State.hostRx
  try dsimp only
  repeat' first
    | with_reducible assumption
    | with_reducible apply kept_bumpPerf

theorem kept_hostTx {F : Fuses} {L : List Knot} {s : State} (h : Kept F L s) (k : Nat) (op : Nat) (sseq : Nat) (aux : Nat) (off : Nat) (data : List Byte) :
    Kept F L (State.hostTx s k op sseq aux off data) := by
  unfold State.hostTx
  try dsimp only
  repeat' first
    | with_reducible assumption
    | with_reducible apply kept_hostSend
    | with_reducible apply kept_ite
    | with_reducible intro _

theorem kept_hostAck {F : Fuses} {L : List Knot} {s : State} (h : Kept F L s) (k : Nat) (sseq : Nat) (aux : Nat) (status : Nat) :
    Kept F L (State.hostAck s k sseq aux status) := by
  unfold State.hostAck
  try dsimp only
  repeat' first
    | with_reducible assumption
    | with_reducible apply kept_hostTx

theorem kept_hostPkt {F : Fuses} {L : List Knot} {s : State} (h : Kept F L s) (k : Nat) (gen : Nat) (h0 : HostHdr) (n : Nat) (f : State → State) (hff : ∀ t , Kept F L t → Kept F L (f t )) :
    Kept F L (State.hostPkt s k gen h0 n f) := by
  unfold State.hostPkt
  try dsimp only
  repeat' first
    | with_reducible assumption
    | with_reducible apply hff
    | with_reducible apply kept_hostRx
    | with_reducible apply kept_bumpErr
    | with_reducible apply kept_setSession
    | with_reducible apply kept_ite
    | with_reducible intro _

theorem kept_cplAll {F : Fuses} {L : List Knot} {s : State} (h : Kept F L s) (k : Nat) (l : List Cpl) :
    Kept F L (State.cplAll s k l) := by
  unfold State.cplAll
  try dsimp only
  repeat' first
    | with_reducible assumption
    | with_reducible apply kept_sendCpl
    | with_reducible apply kept_foldl
    | (with_reducible intro _ _ _; try dsimp only)

theorem kept_lostOut {F : Fuses} {L : List Knot} {s : State} (h : Kept F L s) (k : Nat) :
    Kept F L (State.lostOut s k) := by
  unfold State.lostOut
  try dsimp only
  repeat' first
    | with_reducible assumption
    | with_reducible apply kept_setSession
    | with_reducible apply kept_complete
    | with_reducible apply kept_foldl
    | with_reducible apply kept_ite
    | (with_reducible intro _ _ _; try dsimp only)
    | with_reducible intro _

theorem kept_grantOpen {F : Fuses} {L : List Knot} {s : State} (h : Kept F L s) (k : Nat) (portB : Bool) :
    Kept F L (State.grantOpen s k portB) := by
  unfold State.grantOpen
  try dsimp only
  repeat' first
    | with_reducible assumption
    | with_reducible apply kept_setSession
    | with_reducible apply kept_hostSend
    | with_reducible apply kept_cplAll
    | with_reducible apply kept_lostOut

theorem kept_openIn {F : Fuses} {L : List Knot} {s : State} (h : Kept F L s) (part : Nat) (slot : Nat) (port : Nat) (sigOk : Bool) :
    Kept F L (State.openIn s part slot port sigOk) := by
  unfold State.openIn
  try dsimp only
  repeat' first
    | with_reducible assumption
    | with_reducible apply kept_hostRx
    | with_reducible apply kept_hostSend
    | with_reducible apply kept_grantOpen
    | with_reducible apply kept_bumpErr
    | with_reducible apply kept_ite
    | with_reducible intro _
    | split

theorem kept_endSession {F : Fuses} {L : List Knot} {s : State} (h : Kept F L s) (k : Nat) :
    Kept F L (State.endSession s k) := by
  unfold State.endSession
  try dsimp only
  repeat' first
    | with_reducible assumption
    | with_reducible apply kept_setSession
    | with_reducible apply kept_powerSelect
    | with_reducible apply kept_ite
    | with_reducible intro _

theorem kept_markLedger {F : Fuses} {L : List Knot} {s : State} (h : Kept F L s) (p : Nat) (a : Nat) (n : Nat) :
    Kept F L (State.markLedger s p a n) := by
  unfold State.markLedger
  try dsimp only
  repeat' first
    | with_reducible assumption
    | with_reducible apply kept_modPart
    | with_reducible apply kept_ite
    | with_reducible refine fun x hx => (?_ : Part.Canonical _)
    | exact (hx : Part.Canonical x)
    | with_reducible intro _

theorem kept_markItem {F : Fuses} {L : List Knot} {s : State} (h : Kept F L s) (p : Nat) (w : WItem) :
    Kept F L (State.markItem s p w) := by
  unfold State.markItem
  try dsimp only
  repeat' first
    | with_reducible assumption
    | with_reducible apply kept_markLedger
    | with_reducible apply kept_foldl
    | with_reducible apply kept_ite
    | (with_reducible intro _ _ _; try dsimp only)
    | with_reducible intro _

theorem kept_submitIn {F : Fuses} {L : List Knot} {s : State} (h : Kept F L s) (k : Nat) (items : List WItem) :
    Kept F L (State.submitIn s k items) := by
  unfold State.submitIn
  try dsimp only
  repeat' first
    | with_reducible assumption
    | with_reducible apply kept_hostAck
    | with_reducible apply kept_takeFree
    | with_reducible apply kept_bumpErr
    | with_reducible apply kept_setSession
    | with_reducible apply kept_markItem
    | with_reducible apply kept_bumpPerf
    | with_reducible apply kept_foldl
    | with_reducible apply kept_ite
    | (with_reducible intro _ _ _; try dsimp only)
    | with_reducible intro _
    | split

theorem kept_itemPut {F : Fuses} {L : List Knot} {s : State} (h : Kept F L s) (p : Nat) (a : Nat) (bs : List Byte) :
    Kept F L (State.itemPut s p a bs).1 := by
  unfold State.itemPut
  try dsimp only
  repeat' first
    | with_reducible assumption
    | with_reducible apply kept_refuseBy
    | with_reducible apply kept_hbmWrite
    | with_reducible apply kept_spadPut
    | with_reducible apply kept_foldl
    | with_reducible apply kept_ite
    | with_reducible apply kept_ite_fst
    | dsimp only
    | (with_reducible intro _ _ _; try dsimp only)
    | with_reducible intro _
    | split
    | with_reducible apply kept_winWrite

theorem kept_itemGet {F : Fuses} {L : List Knot} {s : State} (h : Kept F L s) (k : Nat) (p : Nat) (a : Nat) (n : Nat) :
    Kept F L (State.itemGet s k p a n).1 := by
  unfold State.itemGet
  try dsimp only
  repeat' first
    | with_reducible assumption
    | with_reducible apply kept_refuseBy
    | with_reducible apply kept_hbmRead
    | with_reducible apply kept_spadFetch
    | with_reducible apply kept_foldl_fst
    | with_reducible apply kept_ite_fst
    | dsimp only
    | (with_reducible intro _ _ _; try dsimp only)
    | with_reducible intro _
    | split
    | with_reducible apply kept_winReadOpen

theorem kept_itemFails {F : Fuses} {L : List Knot} {s : State} (h : Kept F L s) (k : Nat) (q : Nat) (a : Nat) (status : Nat) (done : Nat) :
    Kept F L (State.itemFails s k q a status done) := by
  unfold State.itemFails
  try dsimp only
  repeat' first
    | with_reducible assumption
    | with_reducible apply kept_complete
    | with_reducible apply kept_raise
    | with_reducible apply kept_ite
    | with_reducible intro _
    | split

theorem kept_writeCheck {F : Fuses} {L : List Knot} {s : State} (h : Kept F L s) (k : Nat) (q : Nat) :
    Kept F L (State.writeCheck s k q) := by
  unfold State.writeCheck
  try dsimp only
  repeat' first
    | with_reducible assumption
    | with_reducible apply kept_complete
    | with_reducible apply kept_settle
    | with_reducible apply kept_idleChoose
    | with_reducible apply kept_ite
    | with_reducible intro _
    | split

theorem kept_writeData {F : Fuses} {L : List Knot} {s : State} (h : Kept F L s) (k : Nat) (q : Nat) (i : SItem) (off : Nat) (bs : List Byte) :
    Kept F L (State.writeData s k q i off bs) := by
  unfold State.writeData
  try dsimp only
  repeat' first
    | with_reducible assumption
    | with_reducible apply kept_itemPut
    | with_reducible apply kept_itemFails
    | with_reducible apply kept_settle
    | with_reducible apply kept_modItem
    | with_reducible apply kept_foldl_fst
    | with_reducible apply kept_ite
    | with_reducible apply kept_ite_fst
    | dsimp only
    | (with_reducible intro _ _ _; try dsimp only)
    | with_reducible intro _

theorem kept_sdataIn {F : Fuses} {L : List Knot} {s : State} (h : Kept F L s) (k : Nat) (q : Nat) (off : Nat) (data : List Byte) :
    Kept F L (State.sdataIn s k q off data) := by
  unfold State.sdataIn
  try dsimp only
  repeat' first
    | with_reducible assumption
    | with_reducible apply kept_hostAck
    | with_reducible apply kept_ite
    | with_reducible intro _
    | split
    | with_reducible apply kept_writeData
    | with_reducible apply kept_writeCheck

theorem kept_cplAckIn {F : Fuses} {L : List Knot} {s : State} (h : Kept F L s) (k : Nat) (c : Nat) :
    Kept F L (State.cplAckIn s k c) := by
  unfold State.cplAckIn
  try dsimp only
  repeat' first
    | with_reducible assumption
    | with_reducible apply kept_setSession

theorem kept_wakeBegin {F : Fuses} {L : List Knot} {s : State} (h : Kept F L s) (p : Nat) :
    Kept F L (State.wakeBegin s p) := by
  unfold State.wakeBegin
  try dsimp only
  repeat' first
    | with_reducible assumption
    | with_reducible apply kept_modPart
    | with_reducible refine fun x hx => (?_ : Part.Canonical _)
    | exact (hx : Part.Canonical x)

theorem kept_itemStart {F : Fuses} {L : List Knot} {s : State} (h : Kept F L s) (k : Nat) (q : Nat) :
    Kept F L (State.itemStart s k q) := by
  unfold State.itemStart
  try dsimp only
  repeat' first
    | with_reducible assumption
    | with_reducible apply kept_complete
    | with_reducible apply kept_modItem
    | with_reducible apply kept_ite
    | with_reducible intro _
    | split
    | with_reducible apply kept_wakeBegin

theorem kept_onItem {F : Fuses} {L : List Knot} {s : State} (h : Kept F L s) (k : Nat) (q : Nat) (op : Nat) (f : State → SItem → State) (hff : ∀ t a1, Kept F L t → Kept F L (f t a1)) :
    Kept F L (State.onItem s k q op f) := by
  unfold State.onItem
  try dsimp only
  repeat' first
    | with_reducible assumption
    | with_reducible apply hff
    | with_reducible apply kept_ite
    | with_reducible intro _
    | split

theorem kept_itemWrite {F : Fuses} {L : List Knot} {s : State} (h : Kept F L s) (k : Nat) (q : Nat) :
    Kept F L (State.itemWrite s k q) := by
  unfold State.itemWrite
  try dsimp only
  repeat' first
    | with_reducible assumption
    | with_reducible apply kept_onItem
    | with_reducible apply kept_modItem
    | (with_reducible intro _ _ _; try dsimp only)
    | split
    | with_reducible apply kept_writeCheck

theorem kept_rdataOut {F : Fuses} {L : List Knot} {s : State} (h : Kept F L s) (k : Nat) (q : Nat) (bs : List Byte) :
    Kept F L (State.rdataOut s k q bs) := by
  unfold State.rdataOut
  try dsimp only
  repeat' first
    | with_reducible assumption
    | with_reducible apply kept_hostTx
    | with_reducible apply kept_foldl
    | (with_reducible intro _ _ _; try dsimp only)

theorem kept_itemRead {F : Fuses} {L : List Knot} {s : State} (h : Kept F L s) (k : Nat) (q : Nat) :
    Kept F L (State.itemRead s k q) := by
  unfold State.itemRead
  try dsimp only
  repeat' first
    | with_reducible assumption
    | with_reducible apply kept_onItem
    | with_reducible apply kept_itemGet
    | with_reducible apply kept_rdataOut
    | with_reducible apply kept_complete
    | with_reducible apply kept_itemFails
    | with_reducible apply kept_settle
    | with_reducible apply kept_idleChoose
    | with_reducible apply kept_foldl_fst
    | with_reducible apply kept_ite
    | with_reducible apply kept_ite_fst
    | dsimp only
    | (with_reducible intro _ _ _; try dsimp only)
    | with_reducible intro _

theorem kept_itemCopy {F : Fuses} {L : List Knot} {s : State} (h : Kept F L s) (k : Nat) (q : Nat) :
    Kept F L (State.itemCopy s k q) := by
  unfold State.itemCopy
  try dsimp only
  repeat' first
    | with_reducible assumption
    | with_reducible apply kept_onItem
    | with_reducible apply kept_descTake
    | with_reducible apply kept_complete
    | with_reducible apply kept_ite
    | (with_reducible intro _ _ _; try dsimp only)
    | with_reducible intro _

theorem kept_itemCheckpoint {F : Fuses} {L : List Knot} {s : State} (h : Kept F L s) (k : Nat) (q : Nat) :
    Kept F L (State.itemCheckpoint s k q) := by
  unfold State.itemCheckpoint
  try dsimp only
  repeat' first
    | with_reducible assumption
    | with_reducible apply kept_onItem
    | with_reducible apply kept_complete
    | with_reducible apply kept_modPart
    | with_reducible apply kept_hbmRead
    | with_reducible apply kept_emit
    | with_reducible apply kept_modItem
    | with_reducible apply kept_itemFails
    | with_reducible apply kept_ite
    | with_reducible refine fun x hx => (?_ : Part.Canonical _)
    | exact (hx : Part.Canonical x)
    | (with_reducible intro _ _ _; try dsimp only)
    | with_reducible intro _

theorem kept_endKept {F : Fuses} {L : List Knot} {s : State} (h : Kept F L s) (p : Nat) (k : Nat) (job : Nat) :
    Kept F L (State.endKept s p k job) := by
  unfold State.endKept
  try dsimp only
  repeat' first
    | with_reducible assumption
    | with_reducible apply kept_setPart
    | with_reducible apply kept_scrubDie
    | with_reducible apply kept_dropCtx
    | with_reducible apply kept_foldl
    | with_reducible apply kept_ite
    | with_reducible apply ctxs_serase
    | with_reducible refine Kept.ctxs (F := F) (L := L) ?_ _
    | with_reducible refine Kept.doze (F := F) (L := L) ?_ _
    | with_reducible refine Part.canonical_mk ?_ ?_
    | (with_reducible intro _ _ _; try dsimp only)
    | with_reducible intro _

theorem kept_itemLoad {F : Fuses} {L : List Knot} {s : State} (h : Kept F L s) (k : Nat) (q : Nat) (img : Image) :
    Kept F L (State.itemLoad s k q img) := by
  unfold State.itemLoad
  try dsimp only
  repeat' first
    | with_reducible assumption
    | with_reducible apply kept_onItem
    | with_reducible apply kept_complete
    | with_reducible apply kept_endKept
    | with_reducible apply kept_hbmRead
    | with_reducible apply kept_markLedger
    | with_reducible apply kept_modPart
    | with_reducible apply kept_foldl
    | with_reducible apply kept_ite
    | with_reducible refine fun x hx => (?_ : Part.Canonical _)
    | exact (hx : Part.Canonical x).1
    | exact (hx : Part.Canonical x).2
    | with_reducible apply ctxs_sput
    | with_reducible apply saved_nil
    | with_reducible refine Part.canonical_mk ?_ ?_
    | (with_reducible intro _ _ _; try dsimp only)
    | with_reducible intro _

theorem kept_setJobEntries {F : Fuses} {L : List Knot} {s : State} (h : Kept F L s) (p : Nat) (cid : Nat) (w : WItem) :
    Kept F L (State.setJobEntries s p cid w) := by
  unfold State.setJobEntries
  try dsimp only
  repeat' first
    | with_reducible assumption
    | with_reducible apply kept_setRg
    | with_reducible apply kept_jobEntryAfter
    | with_reducible apply kept_foldl
    | with_reducible apply kept_ite
    | (with_reducible intro _ _ _; try dsimp only)
    | with_reducible intro _

theorem kept_itemJobStart {F : Fuses} {L : List Knot} {s : State} (h : Kept F L s) (k : Nat) (q : Nat) :
    Kept F L (State.itemJobStart s k q) := by
  unfold State.itemJobStart
  try dsimp only
  repeat' first
    | with_reducible assumption
    | with_reducible apply kept_onItem
    | with_reducible apply kept_complete
    | with_reducible apply kept_setJobEntries
    | with_reducible apply kept_modPart
    | with_reducible apply kept_tryRun
    | with_reducible apply kept_ite
    | with_reducible refine fun x hx => (?_ : Part.Canonical _)
    | exact (hx : Part.Canonical x).1
    | exact (hx : Part.Canonical x).2
    | with_reducible apply ctxs_sput
    | exact ctxs_find (Kept.ctxs ‹_› _) ‹_›
    | with_reducible refine Part.canonical_mk ?_ ?_
    | dsimp only
    | (with_reducible intro _ _ _; try dsimp only)
    | with_reducible intro _
    | split

theorem kept_itemKill {F : Fuses} {L : List Knot} {s : State} (h : Kept F L s) (k : Nat) (q : Nat) :
    Kept F L (State.itemKill s k q) := by
  unfold State.itemKill
  try dsimp only
  repeat' first
    | with_reducible assumption
    | with_reducible apply kept_onItem
    | with_reducible apply kept_complete
    | with_reducible apply kept_modItem
    | with_reducible apply kept_endJob
    | with_reducible apply kept_ite
    | (with_reducible intro _ _ _; try dsimp only)
    | with_reducible intro _
    | split

theorem kept_itemRelease {F : Fuses} {L : List Knot} {s : State} (h : Kept F L s) (k : Nat) (q : Nat) :
    Kept F L (State.itemRelease s k q) := by
  unfold State.itemRelease
  try dsimp only
  repeat' first
    | with_reducible assumption
    | with_reducible apply kept_onItem
    | with_reducible apply kept_releaseSettle
    | with_reducible apply kept_complete
    | with_reducible apply kept_modPart
    | with_reducible apply kept_dropCtx
    | with_reducible apply kept_addScrub
    | with_reducible apply kept_modItem
    | with_reducible apply kept_foldl
    | with_reducible apply kept_ite
    | with_reducible refine fun x hx => (?_ : Part.Canonical _)
    | exact (hx : Part.Canonical x)
    | (with_reducible intro _ _ _; try dsimp only)
    | with_reducible intro _

theorem kept_itemHint {F : Fuses} {L : List Knot} {s : State} (h : Kept F L s) (k : Nat) (q : Nat) :
    Kept F L (State.itemHint s k q) := by
  unfold State.itemHint
  try dsimp only
  repeat' first
    | with_reducible assumption
    | with_reducible apply kept_onItem
    | with_reducible apply kept_setSession
    | with_reducible apply kept_powerSelect
    | with_reducible apply kept_complete
    | (with_reducible intro _ _ _; try dsimp only)

theorem kept_itemNop {F : Fuses} {L : List Knot} {s : State} (h : Kept F L s) (k : Nat) (q : Nat) :
    Kept F L (State.itemNop s k q) := by
  unfold State.itemNop
  try dsimp only
  repeat' first
    | with_reducible assumption
    | with_reducible apply kept_onItem
    | with_reducible apply kept_complete
    | (with_reducible intro _ _ _; try dsimp only)

theorem kept_writeTimeout {F : Fuses} {L : List Knot} {s : State} (h : Kept F L s) (k : Nat) (q : Nat) :
    Kept F L (State.writeTimeout s k q) := by
  unfold State.writeTimeout
  try dsimp only
  repeat' first
    | with_reducible assumption
    | with_reducible apply kept_onItem
    | with_reducible apply kept_complete
    | with_reducible apply kept_settle
    | with_reducible apply kept_idleChoose
    | (with_reducible intro _ _ _; try dsimp only)

theorem kept_hintEnd {F : Fuses} {L : List Knot} {s : State} (h : Kept F L s) (k : Nat) :
    Kept F L (State.hintEnd s k) := by
  unfold State.hintEnd
  try dsimp only
  repeat' first
    | with_reducible assumption
    | with_reducible apply kept_setSession
    | with_reducible apply kept_powerSelect
    | with_reducible apply kept_ite
    | with_reducible intro _

theorem kept_keptEnd {F : Fuses} {L : List Knot} {s : State} (h : Kept F L s) (p : Nat) (cid : Nat) :
    Kept F L (State.keptEnd s p cid) := by
  unfold State.keptEnd
  try dsimp only
  repeat' first
    | with_reducible assumption
    | with_reducible apply kept_dropCtx
    | with_reducible apply kept_ite
    | with_reducible intro _
    | split

end Sys2Proof.Machine
end

