-- ==== Sys2Proof/Laws/KeptClock.lean ====
section
/-! SUPPORT. What the operations of Machine/Clock.lean keep. -/

namespace Sys2Proof.Machine

theorem kept_pcdTakeover {F : Fuses} {L : List Knot} {s : State} (h : Kept F L s)  :
    Kept F L (State.pcdTakeover s) := by
  unfold State.pcdTakeover
  try dsimp only
  repeat' first
    | with_reducible assumption
    | with_reducible apply kept_setRgB
    | with_reducible apply kept_setPcd
    | with_reducible apply kept_setRg
    | with_reducible apply kept_pcdEvent
    | with_reducible apply kept_ctxEvent
    | with_reducible apply kept_ptpPort
    | with_reducible apply kept_foldl
    | with_reducible apply kept_ite
    | (with_reducible refine fun _ hx => (?_ : Memory.wf _ = true); exact hx)
    | (with_reducible intro _ _ _; try dsimp only)
    | with_reducible intro _
    | split

theorem kept_refLost {F : Fuses} {L : List Knot} {s : State} (h : Kept F L s) (n : Nat) (refB : Bool) :
    Kept F L (State.refLost s n refB) := by
  unfold State.refLost
  try dsimp only
  repeat' first
    | with_reducible assumption
    | with_reducible apply kept_setRgB
    | with_reducible apply kept_pcdTakeover
    | with_reducible apply kept_setPcd
    | with_reducible apply kept_raise
    | with_reducible apply kept_bumpErr
    | with_reducible apply kept_ite
    | (with_reducible refine fun _ hx => (?_ : Memory.wf _ = true); exact hx)
    | with_reducible intro _

theorem kept_refBack {F : Fuses} {L : List Knot} {s : State} (h : Kept F L s) (n : Nat) (refB : Bool) :
    Kept F L (State.refBack s n refB) := by
  unfold State.refBack
  try dsimp only
  repeat' first
    | with_reducible assumption
    | with_reducible apply kept_setRgB
    | with_reducible apply kept_ite
    | with_reducible intro _

theorem kept_stepStop {F : Fuses} {L : List Knot} {s : State} (h : Kept F L s) (p : Nat) :
    Kept F L (State.stepStop s p) := by
  unfold State.stepStop
  try dsimp only
  repeat' first
    | with_reducible assumption
    | with_reducible apply kept_setPart
    | with_reducible apply kept_ite
    | refine Part.canonical_of rfl rfl (Kept.part (F := F) (L := L) ?_ _)
    | with_reducible intro _
    | split

theorem kept_stepLoad {F : Fuses} {L : List Knot} {s : State} (h : Kept F L s) (p : Nat) :
    Kept F L (State.stepLoad s p) := by
  unfold State.stepLoad
  try dsimp only
  repeat' first
    | with_reducible assumption
    | with_reducible apply kept_setPart
    | with_reducible apply kept_modDie
    | with_reducible apply kept_setRgB
    | with_reducible apply kept_foldl
    | with_reducible apply kept_ite
    | with_reducible refine fun x hx => (?_ : Die.Canonical _)
    | exact (hx : Die.Canonical x)
    | refine Part.canonical_of rfl rfl (Kept.part (F := F) (L := L) ?_ _)
    | (with_reducible intro _ _ _; try dsimp only)
    | with_reducible intro _
    | split

theorem kept_stepResume {F : Fuses} {L : List Knot} {s : State} (h : Kept F L s) (p : Nat) (late : List Nat) :
    Kept F L (State.stepResume s p late) := by
  unfold State.stepResume
  try dsimp only
  repeat' first
    | with_reducible assumption
    | with_reducible apply kept_modDie
    | with_reducible apply kept_setRgB
    | with_reducible apply kept_modPart
    | with_reducible apply kept_armStep
    | with_reducible apply kept_raise
    | with_reducible apply kept_foldl
    | with_reducible apply kept_ite
    | with_reducible refine fun x hx => (?_ : Die.Canonical _)
    | with_reducible refine fun x hx => (?_ : Part.Canonical _)
    | exact (hx : Part.Canonical x)
    | exact (hx : Die.Canonical x)
    | (with_reducible intro _ _ _; try dsimp only)
    | with_reducible intro _

theorem kept_marginOf {F : Fuses} {L : List Knot} {s : State} (h : Kept F L s) (n : Nat) (mon : Nat) (slack : Nat) :
    Kept F L (State.marginOf s n mon slack) := by
  unfold State.marginOf
  try dsimp only
  repeat' first
    | with_reducible assumption
    | with_reducible apply kept_setRgF
    | with_reducible apply kept_ite
    | with_reducible intro _

theorem kept_holdBegin {F : Fuses} {L : List Knot} {s : State} (h : Kept F L s) (n : Nat) (mon : Nat) (slack : Nat) :
    Kept F L (State.holdBegin s n mon slack) := by
  unfold State.holdBegin
  try dsimp only
  repeat' first
    | with_reducible assumption
    | with_reducible apply kept_marginOf
    | with_reducible apply kept_bumpErr
    | with_reducible apply kept_setRgB
    | with_reducible apply kept_modDie
    | with_reducible apply kept_setMd
    | with_reducible apply kept_ite
    | with_reducible refine fun x hx => (?_ : Die.Canonical _)
    | exact (hx : Die.Canonical x)
    | with_reducible refine Kept.mdmem (F := F) (L := L) ?_ _
    | with_reducible intro _

theorem kept_holdEnd {F : Fuses} {L : List Knot} {s : State} (h : Kept F L s) (n : Nat) :
    Kept F L (State.holdEnd s n) := by
  unfold State.holdEnd
  try dsimp only
  repeat' first
    | with_reducible assumption
    | with_reducible apply kept_setRgB
    | with_reducible apply kept_modDie
    | with_reducible apply kept_setMd
    | with_reducible apply kept_itemCheck
    | with_reducible apply kept_txGrants
    | with_reducible apply kept_foldl
    | with_reducible apply kept_ite
    | with_reducible refine fun x hx => (?_ : Die.Canonical _)
    | exact (hx : Die.Canonical x)
    | with_reducible refine Kept.mdmem (F := F) (L := L) ?_ _
    | (with_reducible intro _ _ _; try dsimp only)
    | with_reducible intro _

theorem kept_slackZero {F : Fuses} {L : List Knot} {s : State} (h : Kept F L s) (d : Nat) (mon : Nat) :
    Kept F L (State.slackZero s d mon) := by
  unfold State.slackZero
  try dsimp only
  repeat' first
    | with_reducible assumption
    | with_reducible apply kept_stopPlace
    | with_reducible apply kept_marginOf
    | with_reducible apply kept_raise
    | with_reducible apply kept_foldl
    | with_reducible apply kept_ite
    | (with_reducible intro _ _ _; try dsimp only)
    | with_reducible intro _

theorem kept_routeCheck {F : Fuses} {L : List Knot} {s : State} (h : Kept F L s)  :
    Kept F L (State.routeCheck s) := by
  unfold State.routeCheck
  try dsimp only
  repeat' first
    | with_reducible assumption
    | with_reducible apply kept_pcdEvent
    | with_reducible apply kept_foldl
    | with_reducible apply kept_ite
    | (with_reducible intro _ _ _; try dsimp only)
    | with_reducible intro _
    | split

theorem kept_nodeOut {F : Fuses} {L : List Knot} {s : State} (h : Kept F L s) (n : Nat) :
    Kept F L (State.nodeOut s n) := by
  unfold State.nodeOut
  try dsimp only
  repeat' first
    | with_reducible assumption
    | with_reducible apply kept_setPcd
    | with_reducible apply kept_routeCheck
    | with_reducible apply kept_ite
    | (with_reducible refine fun _ hx => (?_ : Memory.wf _ = true); exact hx)
    | with_reducible intro _

theorem kept_sendBeacon {F : Fuses} {L : List Knot} {s : State} (h : Kept F L s)  :
    Kept F L (State.sendBeacon s) := by
  unfold State.sendBeacon
  try dsimp only
  repeat' first
    | with_reducible assumption
    | with_reducible apply kept_emit
    | with_reducible apply kept_ite
    | with_reducible intro _

theorem kept_servo {F : Fuses} {L : List Knot} {s : State} (h : Kept F L s) (offset : Int) :
    Kept F L (State.servo s offset) := by
  unfold State.servo
  try dsimp only
  repeat' first
    | with_reducible assumption
    | with_reducible apply kept_takeFree
    | with_reducible apply kept_setRg
    | with_reducible apply kept_setPcd
    | with_reducible apply kept_setRgF
    | with_reducible apply kept_pcdEvent
    | with_reducible apply kept_ite
    | (with_reducible refine fun _ hx => (?_ : Memory.wf _ = true); exact hx)
    | with_reducible intro _

theorem kept_syncIn {F : Fuses} {L : List Knot} {s : State} (h : Kept F L s) (f : PtpFrom) (twoStep : Bool) (offset : Int) :
    Kept F L (State.syncIn s f twoStep offset) := by
  unfold State.syncIn
  try dsimp only
  repeat' first
    | with_reducible assumption
    | with_reducible apply kept_setPcd
    | with_reducible apply kept_servo
    | with_reducible apply kept_ite
    | (with_reducible refine fun _ hx => (?_ : Memory.wf _ = true); exact hx)
    | with_reducible intro _

theorem kept_followIn {F : Fuses} {L : List Knot} {s : State} (h : Kept F L s) (m : PtpMsg) :
    Kept F L (State.followIn s m) := by
  unfold State.followIn
  try dsimp only
  repeat' first
    | with_reducible assumption
    | with_reducible apply kept_setPcd
    | with_reducible apply kept_servo
    | with_reducible apply kept_ite
    | (with_reducible refine fun _ hx => (?_ : Memory.wf _ = true); exact hx)
    | with_reducible intro _
    | split

theorem kept_delayIn {F : Fuses} {L : List Knot} {s : State} (h : Kept F L s) (m : PtpMsg) :
    Kept F L (State.delayIn s m) := by
  unfold State.delayIn
  try dsimp only
  repeat' first
    | with_reducible assumption
    | with_reducible apply kept_setPcd
    | with_reducible apply kept_ite
    | (with_reducible refine fun _ hx => (?_ : Memory.wf _ = true); exact hx)
    | with_reducible intro _

theorem kept_announceIn {F : Fuses} {L : List Knot} {s : State} (h : Kept F L s) (m : PtpGm) :
    Kept F L (State.announceIn s m) := by
  unfold State.announceIn
  try dsimp only
  repeat' first
    | with_reducible assumption
    | with_reducible apply kept_setRg
    | with_reducible apply kept_ite
    | with_reducible intro _

theorem kept_ptpLost {F : Fuses} {L : List Knot} {s : State} (h : Kept F L s)  :
    Kept F L (State.ptpLost s) := by
  unfold State.ptpLost
  try dsimp only
  repeat' first
    | with_reducible assumption
    | with_reducible apply kept_setRgF
    | with_reducible apply kept_setPcd
    | with_reducible apply kept_pcdEvent
    | with_reducible apply kept_ite
    | (with_reducible refine fun _ hx => (?_ : Memory.wf _ = true); exact hx)
    | with_reducible intro _

theorem kept_ptpStep {F : Fuses} {L : List Knot} {s : State} (h : Kept F L s) (time16 : Nat) :
    Kept F L (State.ptpStep s time16) := by
  unfold State.ptpStep
  try dsimp only
  repeat' first
    | with_reducible assumption
    | with_reducible apply kept_pcdEvent
    | with_reducible apply kept_ite
    | with_reducible intro _
    | with_reducible apply kept_wptc

end Sys2Proof.Machine
end

