-- ==== Sys2Proof/Laws/KeptBringup.lean ====
section
/-! SUPPORT. What the operations of Machine/Bringup.lean keep. -/

namespace Sys2Proof.Machine

theorem sget_maps {α : Type} {d : α} {f : α → α} (hd : f d = d) (m : SMap α) (k : Nat) : sget d (m.map (fun e => (e.1, f e.2))) k = f (sget d m k) := by
  have := sget_map d f m k
  rwa [hd] at this
theorem wf_reset_md (m : Nat) : Memory.wf (State.reset.md m).mem = true := rfl
theorem part_reset (p : Nat) : (State.reset.part p).Canonical := ⟨ctxs_nil, saved_nil⟩

theorem kept_resetPanel {F : Fuses} {L : List Knot} {s : State} (h : Kept F L s) : Kept F L (State.resetPanel s) := by
  unfold State.resetPanel
  refine kept_ite (fun _ => ⟨h.fuses, h.log, ⟨fun _ => Die.canonical_reset, fun m => ?_, fun p => ?_, rfl⟩⟩) (fun _ => h)
  · have e := sget_maps (d := (default : Mdie)) (f := fun (v : Mdie) => { (default : Mdie) with mem := v.mem, errs := v.errs }) rfl s.mds m
    have hm := h.mem.hbm m
    refine Eq.trans (congrArg (fun v => Memory.wf (Mdie.mem v)) e) ?_
    exact hm
  · show (sget Part.reset (s.parts.map _) p).Canonical
    rw [sget_maps (f := Part.afterReset) rfl]
    exact ⟨ctxs_map (ctxs_filter (h.ctxs p)) (fun _ _ => saved_nil), saved_nil⟩

theorem kept_resetPin {F : Fuses} {L : List Knot} {s : State} (h : Kept F L s) (ns : Nat) :
    Kept F L (State.resetPin s ns) := by
  unfold State.resetPin
  try dsimp only
  repeat' first
    | with_reducible assumption
    | with_reducible apply kept_resetPanel
    | with_reducible apply kept_takeFree
    | with_reducible apply kept_ite
    | with_reducible intro _

theorem kept_powerLost {F : Fuses} {L : List Knot} {s : State} (h : Kept F L s) : Kept F L (State.powerLost s) :=
  ⟨h.fuses, h.log, ⟨fun _ => Die.canonical_reset, fun _ => rfl, part_reset, rfl⟩⟩

theorem kept_putReport {F : Fuses} {L : List Knot} {s : State} (h : Kept F L s) (n : Nat) (ws : List Nat) :
    Kept F L (State.putReport s n ws) := by
  unfold State.putReport
  try dsimp only
  repeat' first
    | with_reducible assumption
    | with_reducible apply kept_setWords

theorem kept_writeReport {F : Fuses} {L : List Knot} {s : State} (h : Kept F L s) (r : Report) :
    Kept F L (State.writeReport s r) := by
  unfold State.writeReport
  try dsimp only
  repeat' first
    | with_reducible assumption
    | with_reducible apply kept_putReport
    | with_reducible apply kept_sendStage
    | with_reducible apply kept_setPcd
    | with_reducible apply kept_ite
    | (with_reducible refine fun _ hx => (?_ : Memory.wf _ = true); exact hx)
    | with_reducible refine fun x hx => (?_ : Memory.wf _ = true)
    | exact (hx : Memory.wf _ = true)
    | dsimp only
    | with_reducible intro _
    | with_reducible apply kept_wnvm
    | with_reducible refine Kept.log (F := F) ?_

theorem kept_stopUp {F : Fuses} {L : List Knot} {s : State} (h : Kept F L s) (stage : Nat) :
    Kept F L (State.stopUp s stage) := by
  unfold State.stopUp
  try dsimp only
  repeat' first
    | with_reducible assumption
    | with_reducible apply kept_pcdEvent
    | with_reducible apply kept_setRgB
    | with_reducible apply kept_setPcd
    | (with_reducible refine fun _ hx => (?_ : Memory.wf _ = true); exact hx)
    | with_reducible apply kept_writeReport

theorem kept_keepRetained {F : Fuses} {L : List Knot} {s : State} (h : Kept F L s) (kept : Bool) : Kept F L (State.keepRetained s kept) := by
  unfold State.keepRetained
  refine kept_ite (fun _ => kept_setPcd h (fun _ hp => hp)) (fun _ => ⟨h.fuses, h.log, ⟨h.mem.dies, h.mem.hbm, part_reset, h.mem.att⟩⟩)

theorem kept_setConf {F : Fuses} {L : List Knot} {s : State} (h : Kept F L s) (b : Bool) (c : Conf) :
    Kept F L (State.setConf s b c) := by
  unfold State.setConf
  try dsimp only
  repeat' first
    | with_reducible assumption
    | with_reducible apply kept_setPcd
    | with_reducible apply kept_setRgF
    | with_reducible apply kept_setRg
    | with_reducible apply kept_pcdEvent
    | with_reducible apply kept_ite
    | (with_reducible refine fun _ hx => (?_ : Memory.wf _ = true); exact hx)
    | dsimp only
    | with_reducible intro _
    | split
    | with_reducible apply kept_wnvm
    | with_reducible refine Kept.log (F := F) ?_

theorem kept_mountOn {F : Fuses} {L : List Knot} {s : State} (h : Kept F L s) (i : MountIn) :
    Kept F L (State.mountOn s i) := by
  unfold State.mountOn
  try dsimp only
  repeat' first
    | with_reducible assumption
    | with_reducible apply kept_keepRetained
    | with_reducible apply kept_setPcd
    | with_reducible apply kept_stopUp
    | with_reducible apply kept_setConf
    | with_reducible apply kept_pcdEvent
    | with_reducible apply kept_setRgB
    | with_reducible apply kept_setRgF
    | with_reducible apply kept_ite
    | (with_reducible refine fun _ hx => (?_ : Memory.wf _ = true); exact hx)
    | dsimp only
    | with_reducible intro _
    | split
    | with_reducible apply kept_writeReport
    | with_reducible apply kept_wnvm
    | with_reducible refine Kept.log (F := F) ?_

theorem kept_refSelect {F : Fuses} {L : List Knot} {s : State} (h : Kept F L s) (n : Nat) :
    Kept F L (State.refSelect s n) := by
  unfold State.refSelect
  try dsimp only
  repeat' first
    | with_reducible assumption
    | with_reducible apply kept_setRgB
    | with_reducible apply kept_ite
    | with_reducible intro _

theorem kept_partFails {F : Fuses} {L : List Knot} {s : State} (h : Kept F L s) (p : Nat) (unit : Nat) :
    Kept F L (State.partFails s p unit) := by
  unfold State.partFails
  try dsimp only
  repeat' first
    | with_reducible assumption
    | with_reducible apply kept_pcdEvent
    | with_reducible apply kept_ite
    | with_reducible intro _

theorem kept_roughOn {F : Fuses} {L : List Knot} {s : State} (h : Kept F L s) (i : RoughIn) :
    Kept F L (State.roughOn s i) := by
  unfold State.roughOn
  try dsimp only
  repeat' first
    | with_reducible assumption
    | with_reducible apply kept_setRgB
    | with_reducible apply kept_refSelect
    | with_reducible apply kept_setPcd
    | with_reducible apply kept_partFails
    | with_reducible apply kept_foldl
    | with_reducible apply kept_ite
    | (with_reducible refine fun _ hx => (?_ : Memory.wf _ = true); exact hx)
    | (with_reducible intro _ _ _; try dsimp only)
    | with_reducible intro _
    | split
    | with_reducible apply kept_writeReport

theorem kept_mapRegions {F : Fuses} {L : List Knot} {s : State} (h : Kept F L s) (excl : List Nat) (regions : List Nat) :
    Kept F L (State.mapRegions s excl regions) := by
  unfold State.mapRegions
  try dsimp only
  repeat' first
    | with_reducible assumption
    | with_reducible apply kept_mapRow
    | with_reducible apply kept_foldl
    | (with_reducible intro _ _ _; try dsimp only)

theorem kept_dropMd {F : Fuses} {L : List Knot} {s : State} (h : Kept F L s) (m : Nat) :
    Kept F L (State.dropMd s m) := by
  unfold State.dropMd
  try dsimp only
  repeat' first
    | with_reducible assumption
    | with_reducible apply kept_setRgB
    | with_reducible apply kept_setPcd
    | with_reducible apply kept_ite
    | (with_reducible refine fun _ hx => (?_ : Memory.wf _ = true); exact hx)
    | with_reducible intro _

theorem kept_dropFd {F : Fuses} {L : List Knot} {s : State} (h : Kept F L s) (f : Nat) :
    Kept F L (State.dropFd s f) := by
  unfold State.dropFd
  try dsimp only
  repeat' first
    | with_reducible assumption
    | with_reducible apply kept_setFd

theorem kept_takeOut {F : Fuses} {L : List Knot} {s : State} (h : Kept F L s) (us : List Nat) (i : TestIn) :
    Kept F L (State.takeOut s us i) := by
  unfold State.takeOut
  try dsimp only
  repeat' first
    | with_reducible assumption
    | with_reducible apply kept_dropFd
    | with_reducible apply kept_dropMd
    | with_reducible apply kept_setPcd
    | with_reducible apply kept_foldl
    | with_reducible apply kept_ite
    | (with_reducible refine fun _ hx => (?_ : Memory.wf _ = true); exact hx)
    | (with_reducible intro _ _ _; try dsimp only)
    | with_reducible intro _

theorem kept_scrubbed {F : Fuses} {L : List Knot} {s : State} (h : Kept F L s) (l : List Nat) :
    Kept F L (State.scrubbed s l) := by
  unfold State.scrubbed
  try dsimp only
  repeat' first
    | with_reducible assumption
    | with_reducible apply kept_setRg
    | with_reducible apply kept_foldl
    | (with_reducible intro _ _ _; try dsimp only)

theorem kept_writeStacks {F : Fuses} {L : List Knot} {s : State} (h : Kept F L s) (p : Nat) :
    Kept F L (State.writeStacks s p) := by
  unfold State.writeStacks
  try dsimp only
  repeat' first
    | with_reducible assumption
    | with_reducible apply kept_modPart
    | with_reducible refine fun x hx => (?_ : Part.Canonical _)
    | exact (hx : Part.Canonical x)

theorem kept_usableCheck {F : Fuses} {L : List Knot} {s : State} (h : Kept F L s) (p : Nat) :
    Kept F L (State.usableCheck s p) := by
  unfold State.usableCheck
  try dsimp only
  repeat' first
    | with_reducible assumption
    | with_reducible apply kept_partFails
    | with_reducible apply kept_ite
    | with_reducible intro _

theorem kept_degradedEvents {F : Fuses} {L : List Knot} {s : State} (h : Kept F L s) (regions : List Nat) :
    Kept F L (State.degradedEvents s regions) := by
  unfold State.degradedEvents
  try dsimp only
  repeat' first
    | with_reducible assumption
    | with_reducible apply kept_pcdEvent
    | with_reducible apply kept_foldl
    | with_reducible apply kept_ite
    | (with_reducible intro _ _ _; try dsimp only)
    | with_reducible intro _

theorem kept_disagree {F : Fuses} {L : List Knot} {s : State} (h : Kept F L s) (us : List Nat) :
    Kept F L (State.disagree s us) := by
  unfold State.disagree
  try dsimp only
  repeat' first
    | with_reducible assumption
    | with_reducible apply kept_pcdEvent
    | with_reducible apply kept_foldl
    | (with_reducible intro _ _ _; try dsimp only)

theorem kept_truingOn {F : Fuses} {L : List Knot} {s : State} (h : Kept F L s) (i : TestIn) : Kept F L (State.truingOn s i) := by
  unfold State.truingOn
  refine kept_ite (fun _ => h) (fun _ => ?_)
  extract_lets found marked0 all s0 base excl slow marked fresh s1 s2 s3 x1 s4 ps s5 s6 x0
  have h0 : Kept F L s0 := kept_takeOut h ..
  clear_value s0
  have h1 : Kept F L s1 := kept_foldl h0 (fun _ _ ht => kept_knot ht ..)
  clear_value s1
  have h2 : Kept F L s2 := kept_disagree h1 ..
  clear_value s2
  have h3 : Kept F L s3 := kept_mapRegions h2 ..
  clear_value s3
  have h4 : Kept F L s4 := by
    refine kept_scrubbed ?_ _
    exact ⟨h3.fuses, h3.log, ⟨fun _ => Die.canonical_reset, h3.mem.hbm, h3.mem.parts, h3.mem.att⟩⟩
  clear_value s4
  have h5 : Kept F L s5 := kept_foldl h4 (fun _ _ ht => kept_usableCheck (kept_writeStacks (kept_routePart ht ..) ..) ..)
  clear_value s5
  have h6 : Kept F L s6 := kept_degradedEvents h5 ..
  clear_value s6
  exact kept_writeReport h6 ..

theorem kept_shapingOn {F : Fuses} {L : List Knot} {s : State} (h : Kept F L s) (i : ShapeIn) :
    Kept F L (State.shapingOn s i) := by
  unfold State.shapingOn
  try dsimp only
  repeat' first
    | with_reducible assumption
    | with_reducible apply kept_modPart
    | with_reducible apply kept_setPcd
    | with_reducible apply kept_routePart
    | with_reducible apply kept_usableCheck
    | with_reducible apply kept_partFails
    | with_reducible apply kept_pcdEvent
    | with_reducible apply kept_oweRetrue
    | with_reducible apply kept_routeCheck
    | with_reducible apply kept_foldl
    | with_reducible apply kept_ite
    | (with_reducible refine fun _ hx => (?_ : Memory.wf _ = true); exact hx)
    | with_reducible refine fun x hx => (?_ : Part.Canonical _)
    | exact (hx : Part.Canonical x)
    | (with_reducible intro _ _ _; try dsimp only)
    | with_reducible intro _
    | split
    | with_reducible apply kept_writeReport

theorem kept_ledgerScrub {F : Fuses} {L : List Knot} {s : State} (h : Kept F L s) (p : Nat) :
    Kept F L (State.ledgerScrub s p) := by
  unfold State.ledgerScrub
  try dsimp only
  repeat' first
    | with_reducible assumption
    | with_reducible apply kept_setPart
    | with_reducible apply kept_addScrub
    | with_reducible apply ctxs_ite
    | with_reducible apply ctxs_nil
    | with_reducible refine Kept.ctxs (F := F) (L := L) ?_ _
    | with_reducible refine Kept.doze (F := F) (L := L) ?_ _
    | with_reducible refine Part.canonical_mk ?_ ?_
    | with_reducible intro _

theorem kept_measured {F : Fuses} {L : List Knot} {s : State} (h : Kept F L s)  :
    Kept F L (State.measured s) := by
  unfold State.measured
  try dsimp only
  repeat' first
    | with_reducible assumption
    | with_reducible apply kept_setPcd
    | (with_reducible refine fun _ hx => (?_ : Memory.wf _ = true); exact hx)

theorem kept_finishOn {F : Fuses} {L : List Knot} {s : State} (h : Kept F L s) (i : FinIn) :
    Kept F L (State.finishOn s i) := by
  unfold State.finishOn
  try dsimp only
  repeat' first
    | with_reducible assumption
    | with_reducible apply kept_portSet
    | with_reducible apply kept_ringPort
    | with_reducible apply kept_twinLink
    | with_reducible apply kept_setRgB
    | with_reducible apply kept_pcdEvent
    | with_reducible apply kept_setRgF
    | with_reducible apply kept_measured
    | with_reducible apply kept_setPcd
    | with_reducible apply kept_ledgerScrub
    | with_reducible apply kept_powerSelect
    | with_reducible apply kept_foldl
    | with_reducible apply kept_ite
    | (with_reducible refine fun _ hx => (?_ : Memory.wf _ = true); exact hx)
    | (with_reducible intro _ _ _; try dsimp only)
    | with_reducible intro _
    | split
    | with_reducible apply kept_writeReport
    | with_reducible apply kept_wptc

theorem kept_retrueResult {F : Fuses} {L : List Knot} {s : State} (h : Kept F L s) (r : Nat) (res : Nat) :
    Kept F L (State.retrueResult s r res) := by
  unfold State.retrueResult
  try dsimp only
  repeat' first
    | with_reducible assumption
    | with_reducible apply kept_setRgF
    | with_reducible apply kept_ite
    | with_reducible intro _

theorem kept_contextsAfter {F : Fuses} {L : List Knot} {s : State} (h : Kept F L s) (p : Nat) (moved : Bool) :
    Kept F L (State.contextsAfter s p moved) := by
  unfold State.contextsAfter
  try dsimp only
  repeat' first
    | with_reducible assumption
    | with_reducible apply kept_ctxEvent
    | with_reducible apply kept_modPart
    | with_reducible apply kept_foldl
    | with_reducible apply kept_ite
    | with_reducible refine fun x hx => (?_ : Part.Canonical _)
    | exact (hx : Part.Canonical x).1
    | exact (hx : Part.Canonical x).2
    | with_reducible apply ctxs_filter
    | with_reducible refine Part.canonical_mk ?_ ?_
    | (with_reducible intro _ _ _; try dsimp only)
    | with_reducible intro _

theorem kept_emptyStacks {F : Fuses} {L : List Knot} {s : State} (h : Kept F L s) (l : List Nat) :
    Kept F L (State.emptyStacks s l) := by
  unfold State.emptyStacks
  try dsimp only
  repeat' first
    | with_reducible assumption
    | with_reducible apply kept_setMd
    | with_reducible apply kept_foldl
    | with_reducible exact wf_nil
    | (with_reducible intro _ _ _; try dsimp only)

theorem kept_bringIn {F : Fuses} {L : List Knot} {s : State} (h : Kept F L s) (d : Nat) : Kept F L (State.bringIn s d) := by
  unfold State.bringIn
  exact kept_setPcd (kept_scrubbed (kept_foldl (kept_setDie h Die.canonical_reset) (fun _ _ ht => kept_setRg ht)) _) (fun _ hp => hp)

theorem kept_retrueFinds {F : Fuses} {L : List Knot} {s : State} (h : Kept F L s) (r : Nat) (i : TestIn) :
    Kept F L (State.retrueFinds s r i).1 := by
  unfold State.retrueFinds
  try dsimp only
  repeat' first
    | with_reducible assumption
    | with_reducible apply kept_refSelect
    | with_reducible apply kept_setPcd
    | with_reducible apply kept_knot
    | with_reducible apply kept_foldl
    | (with_reducible refine fun _ hx => (?_ : Memory.wf _ = true); exact hx)
    | (with_reducible intro _ _ _; try dsimp only)

theorem kept_retrueMap {F : Fuses} {L : List Knot} {s : State} (h : Kept F L s) (s0 : State) (p : Nat) (r : Nat) (i : TestIn) (marked : List Nat) (found : List Nat) :
    Kept F L (State.retrueMap s s0 p r i marked found) := by
  unfold State.retrueMap
  try dsimp only
  repeat' first
    | with_reducible assumption
    | with_reducible apply kept_takeOut
    | with_reducible apply kept_mapRegions
    | with_reducible apply kept_setPcd
    | with_reducible apply kept_routePart
    | (with_reducible refine fun _ hx => (?_ : Memory.wf _ = true); exact hx)
    | with_reducible apply kept_writeStacks

theorem kept_retrueDies {F : Fuses} {L : List Knot} {s : State} (h : Kept F L s) (p : Nat) (before : List Nat) :
    Kept F L (State.retrueDies s p before) := by
  unfold State.retrueDies
  try dsimp only
  repeat' first
    | with_reducible assumption
    | with_reducible apply kept_bringIn
    | with_reducible apply kept_modDie
    | with_reducible apply kept_foldl
    | with_reducible apply kept_ite
    | with_reducible refine fun x hx => (?_ : Die.Canonical _)
    | exact (hx : Die.Canonical x)
    | (with_reducible intro _ _ _; try dsimp only)
    | with_reducible intro _

theorem kept_retrueCtxs {F : Fuses} {L : List Knot} {s : State} (h : Kept F L s) (p : Nat) (r : Nat) (list0 : List Nat) :
    Kept F L (State.retrueCtxs s p r list0) := by
  unfold State.retrueCtxs
  try dsimp only
  repeat' first
    | with_reducible assumption
    | with_reducible apply kept_degradedEvents
    | with_reducible apply kept_contextsAfter
    | with_reducible apply kept_emptyStacks
    | with_reducible apply kept_ite
    | with_reducible intro _

theorem kept_retrueOver {F : Fuses} {L : List Knot} {s : State} (h : Kept F L s) (p : Nat) (r : Nat) :
    Kept F L (State.retrueOver s p r) := by
  unfold State.retrueOver
  try dsimp only
  repeat' first
    | with_reducible assumption
    | with_reducible apply kept_modPart
    | with_reducible apply kept_bumpErr
    | with_reducible apply kept_retrueResult
    | with_reducible apply kept_setRgB
    | with_reducible apply kept_ite
    | with_reducible refine fun x hx => (?_ : Part.Canonical _)
    | exact (hx : Part.Canonical x)
    | with_reducible intro _

theorem kept_retrueTested {F : Fuses} {L : List Knot} {s : State} (h : Kept F L s) (r : Nat) (i : TestIn) : Kept F L (State.retrueTested s r i) := by
  unfold State.retrueTested
  extract_lets f fresh
  clear_value fresh
  have hf : Kept F L f.1 := kept_retrueFinds h ..
  clear_value f
  exact kept_disagree (kept_foldl hf (fun _ _ ht => kept_knot ht ..)) ..

theorem kept_retrueMapped {F : Fuses} {L : List Knot} {s : State} (h : Kept F L s) (p r : Nat) (i : TestIn) : Kept F L (State.retrueMapped s p r i) := by
  unfold State.retrueMapped
  extract_lets f s1
  clear_value f
  have h1 : Kept F L s1 := kept_retrueTested h ..
  clear_value s1
  exact kept_retrueDies (kept_retrueMap h1 ..) ..

theorem kept_retrueFails {F : Fuses} {L : List Knot} {s : State} (h : Kept F L s) (p : Nat) (r : Nat) (knots0 : Nat) (first : Nat) :
    Kept F L (State.retrueFails s p r knots0 first) := by
  unfold State.retrueFails
  try dsimp only
  repeat' first
    | with_reducible assumption
    | with_reducible apply kept_pcdEvent
    | with_reducible apply kept_bumpErr
    | with_reducible apply kept_retrueResult
    | with_reducible apply kept_measured
    | with_reducible apply kept_writeReport

theorem kept_reTrued {F : Fuses} {L : List Knot} {s : State} (h : Kept F L s) (p r : Nat) (i : TestIn) : Kept F L (State.reTrued s p r i) := by
  unfold State.reTrued
  extract_lets f fresh s1 s2 taken s3 s4 x0
  clear_value x0 taken fresh f s1
  have h2 : Kept F L s2 := kept_retrueMapped h ..
  clear_value s2
  have h3 : Kept F L s3 := kept_foldl h2 (fun _ _ ht => kept_pcdEvent ht ..)
  clear_value s3
  have h4 : Kept F L s4 := kept_measured (kept_retrueOver (kept_routeCheck (kept_retrueCtxs h3 ..)) ..)
  clear_value s4
  exact kept_writeReport h4 ..

theorem kept_reTrueOn {F : Fuses} {L : List Knot} {s : State} (h : Kept F L s) (r : Nat) (i : TestIn) :
    Kept F L (State.reTrueOn s r i) := by
  unfold State.reTrueOn
  try dsimp only
  repeat' first
    | with_reducible assumption
    | with_reducible apply kept_retrueFails
    | with_reducible apply kept_retrueMapped
    | with_reducible apply kept_reTrued
    | with_reducible apply kept_ite
    | with_reducible intro _
    | split

end Sys2Proof.Machine
end

