-- ==== Sys2Proof/Laws/KeptPower.lean ====
section
/-! SUPPORT. What the operations of Machine/Power.lean keep. -/

namespace Sys2Proof.Machine

theorem kept_vin {F : Fuses} {L : List Knot} {s : State} (h : Kept F L s) (va : Nat) (vb : Nat) :
    Kept F L (State.vin s va vb) := by
  unfold State.vin
  try dsimp only
  repeat' first
    | with_reducible assumption
    | with_reducible apply kept_setRgF

theorem kept_inputWarn {F : Fuses} {L : List Knot} {s : State} (h : Kept F L s) (va : Nat) (vb : Nat) :
    Kept F L (State.inputWarn s va vb) := by
  unfold State.inputWarn
  try dsimp only
  repeat' first
    | with_reducible assumption
    | with_reducible apply kept_vin
    | with_reducible apply kept_setRgB
    | with_reducible apply kept_pcdEvent
    | with_reducible apply kept_ite
    | with_reducible intro _

theorem kept_allOpen {F : Fuses} {L : List Knot} {s : State} (h : Kept F L s)  :
    Kept F L (State.allOpen s) := by
  unfold State.allOpen
  try dsimp only
  repeat' first
    | with_reducible assumption
    | with_reducible apply kept_regionOpen
    | with_reducible apply kept_setFd
    | with_reducible apply kept_foldl
    | (with_reducible intro _ _ _; try dsimp only)

theorem kept_panelFatal {F : Fuses} {L : List Knot} {s : State} (h : Kept F L s) (code : Nat) :
    Kept F L (State.panelFatal s code) := by
  unfold State.panelFatal
  try dsimp only
  repeat' first
    | with_reducible assumption
    | with_reducible apply kept_pcdEvent
    | with_reducible apply kept_setPcd
    | (with_reducible refine fun _ hx => (?_ : Memory.wf _ = true); exact hx)

theorem kept_inputLow {F : Fuses} {L : List Knot} {s : State} (h : Kept F L s)  :
    Kept F L (State.inputLow s) := by
  unfold State.inputLow
  try dsimp only
  repeat' first
    | with_reducible assumption
    | with_reducible apply kept_regionOpen
    | with_reducible apply kept_panelFatal
    | with_reducible apply kept_foldl
    | with_reducible apply kept_ite
    | (with_reducible intro _ _ _; try dsimp only)
    | with_reducible intro _

theorem kept_lastRecord {F : Fuses} {L : List Knot} {s : State} (h : Kept F L s) (code : Nat) :
    Kept F L (State.lastRecord s code) := by
  unfold State.lastRecord
  try dsimp only
  repeat' first
    | with_reducible assumption
    | dsimp only
    | with_reducible apply kept_wnvm
    | with_reducible refine Kept.log (F := F) ?_

theorem kept_inputHigh {F : Fuses} {L : List Knot} {s : State} (h : Kept F L s)  :
    Kept F L (State.inputHigh s) := by
  unfold State.inputHigh
  try dsimp only
  repeat' first
    | with_reducible assumption
    | with_reducible apply kept_lastRecord
    | with_reducible apply kept_powerLost
    | with_reducible apply kept_ite
    | with_reducible intro _

theorem kept_pairLost {F : Fuses} {L : List Knot} {s : State} (h : Kept F L s) (b : Bool) :
    Kept F L (State.pairLost s b) := by
  unfold State.pairLost
  try dsimp only
  repeat' first
    | with_reducible assumption
    | with_reducible apply kept_setPcd
    | with_reducible apply kept_pcdEvent
    | with_reducible apply kept_ite
    | with_reducible refine fun x hx => (?_ : Memory.wf _ = true)
    | with_reducible intro _
    | split

theorem kept_pairBack {F : Fuses} {L : List Knot} {s : State} (h : Kept F L s) (b : Bool) :
    Kept F L (State.pairBack s b) := by
  unfold State.pairBack
  try dsimp only
  repeat' first
    | with_reducible assumption
    | with_reducible apply kept_setPcd
    | with_reducible refine fun x hx => (?_ : Memory.wf _ = true)
    | split

theorem kept_powerLoop {F : Fuses} {L : List Knot} {s : State} (h : Kept F L s) (total : Nat) (watts : List (Nat × Nat × Nat)) :
    Kept F L (State.powerLoop s total watts) := by
  unfold State.powerLoop
  try dsimp only
  repeat' first
    | with_reducible assumption
    | with_reducible apply kept_setRg
    | with_reducible apply kept_setRgF
    | with_reducible apply kept_modPart
    | with_reducible apply kept_foldl
    | with_reducible apply kept_ite
    | with_reducible refine fun x hx => (?_ : Part.Canonical _)
    | exact (hx : Part.Canonical x)
    | (with_reducible intro _ _ _; try dsimp only)
    | with_reducible intro _

theorem kept_guardTrip {F : Fuses} {L : List Knot} {s : State} (h : Kept F L s)  :
    Kept F L (State.guardTrip s) := by
  unfold State.guardTrip
  try dsimp only
  repeat' first
    | with_reducible assumption
    | with_reducible apply kept_setPcd
    | with_reducible apply kept_bumpErr
    | with_reducible apply kept_ite
    | (with_reducible refine fun _ hx => (?_ : Memory.wf _ = true); exact hx)
    | with_reducible intro _

theorem kept_guardEnd {F : Fuses} {L : List Knot} {s : State} (h : Kept F L s)  :
    Kept F L (State.guardEnd s) := by
  unfold State.guardEnd
  try dsimp only
  repeat' first
    | with_reducible assumption
    | with_reducible apply kept_setPcd
    | (with_reducible refine fun _ hx => (?_ : Memory.wf _ = true); exact hx)

theorem kept_ceilUp {F : Fuses} {L : List Knot} {s : State} (h : Kept F L s) (p : Nat) :
    Kept F L (State.ceilUp s p) := by
  unfold State.ceilUp
  try dsimp only
  repeat' first
    | with_reducible assumption
    | with_reducible apply kept_modPart
    | with_reducible apply kept_pcdEvent
    | with_reducible apply kept_armStep
    | with_reducible refine fun x hx => (?_ : Part.Canonical _)
    | exact (hx : Part.Canonical x)

theorem kept_ceilStep {F : Fuses} {L : List Knot} {s : State} (h : Kept F L s) (p : Nat) :
    Kept F L (State.ceilStep s p) := by
  unfold State.ceilStep
  try dsimp only
  repeat' first
    | with_reducible assumption
    | with_reducible apply kept_ceilUp
    | with_reducible apply kept_modPart
    | with_reducible apply kept_armStep
    | with_reducible apply kept_ite
    | with_reducible refine fun x hx => (?_ : Part.Canonical _)
    | exact (hx : Part.Canonical x)
    | with_reducible intro _

theorem kept_warmEnter {F : Fuses} {L : List Knot} {s : State} (h : Kept F L s) (p : Nat) :
    Kept F L (State.warmEnter s p) := by
  unfold State.warmEnter
  try dsimp only
  repeat' first
    | with_reducible assumption
    | with_reducible apply kept_setPart
    | with_reducible apply kept_ite
    | refine Part.canonical_of rfl rfl (Kept.part (F := F) (L := L) ?_ _)
    | with_reducible intro _

theorem kept_wakeAt {F : Fuses} {L : List Knot} {s : State} (h : Kept F L s) (p : Nat) :
    Kept F L (State.wakeAt s p) := by
  unfold State.wakeAt
  try dsimp only
  repeat' first
    | with_reducible assumption
    | with_reducible apply kept_ite
    | with_reducible intro _
    | with_reducible apply kept_wakeBegin

theorem kept_coreSwitches {F : Fuses} {L : List Knot} {s : State} (h : Kept F L s) (p : Nat) (opened : Bool) :
    Kept F L (State.coreSwitches s p opened) := by
  unfold State.coreSwitches
  try dsimp only
  repeat' first
    | with_reducible assumption
    | with_reducible apply kept_setRgF
    | with_reducible apply kept_foldl
    | (with_reducible intro _ _ _; try dsimp only)

theorem kept_coresDark {F : Fuses} {L : List Knot} {s : State} (h : Kept F L s) (p : Nat) : Kept F L (State.coresDark s p) := by
  unfold State.coresDark
  extract_lets mine
  refine ⟨h.fuses, h.log, ⟨?_, h.mem.hbm, h.mem.parts, h.mem.att⟩⟩
  exact (kept_dark h (f := fun n => !mine n) (g := fun _ => true) (n := [])).mem.dies

theorem kept_entryDone {F : Fuses} {L : List Knot} {s : State} (h : Kept F L s) (p : Nat) : Kept F L (State.entryDone s p) := by
  unfold State.entryDone
  extract_lets x s1
  refine kept_ite (fun _ => h) (fun _ => kept_ite (fun _ => ?_) (fun _ => kept_setPart h ?_))
  · have h1 : Kept F L s1 := by
      show Kept F L (match s.ctxInForce p with | some (_, c) => _ | none => s)
      split
      · rename_i c _
        have hs : savedCanonical (s.saveDies p c) := saveDies_saved h _ _
        refine kept_modPart (kept_saveArea h ..) ?_
        exact fun _ hx => ⟨hx.1, hs⟩
      · exact h
    clear_value s1
    refine kept_modPart (kept_coresDark (kept_coreSwitches h1 ..) ..) ?_
    exact fun _ hx => hx
  · exact h.part p

theorem kept_dozeRestore {F : Fuses} {L : List Knot} {s : State} (h : Kept F L s) (p : Nat) : Kept F L (State.dozeRestore s p) := by
  unfold State.dozeRestore
  extract_lets saved s1
  have hs : savedCanonical saved := h.doze p
  clear_value saved
  have h1 : Kept F L s1 := by
    refine kept_modPart h ?_
    exact fun _ hx => ⟨hx.1, saved_nil⟩
  clear_value s1
  split
  · generalize s1.progNow p = pn
    refine kept_runCtx (kept_modPart h1 ?_) ..
    exact fun _ hx => ⟨ctxs_sput hx.1 hs, hx.2⟩
  · refine kept_foldl_mem h1 (fun t v hv ht => ?_)
    split
    · refine kept_foldl (kept_modDie ht ?_) (fun _ _ hu => kept_setRg hu)
      exact fun _ hx => auto_restore hx (hs v hv)
    · exact ht

theorem kept_wakeDone {F : Fuses} {L : List Knot} {s : State} (h : Kept F L s) (p : Nat) :
    Kept F L (State.wakeDone s p) := by
  unfold State.wakeDone
  try dsimp only
  repeat' first
    | with_reducible assumption
    | with_reducible apply kept_setPart
    | with_reducible apply kept_modDie
    | with_reducible apply kept_refSelect
    | with_reducible apply kept_coreSwitches
    | with_reducible apply kept_dozeRestore
    | with_reducible apply kept_tryRun
    | with_reducible apply kept_powerSelect
    | with_reducible apply kept_foldl
    | with_reducible apply kept_ite
    | with_reducible refine fun x hx => (?_ : Die.Canonical _)
    | exact (hx : Die.Canonical x)
    | refine Part.canonical_of rfl rfl (Kept.part (F := F) (L := L) ?_ _)
    | (with_reducible intro _ _ _; try dsimp only)
    | with_reducible intro _

theorem kept_loadAdjust {F : Fuses} {L : List Knot} {s : State} (h : Kept F L s) : Kept F L (State.loadAdjust s) := by
  unfold State.loadAdjust
  refine kept_foldl h (fun t d ht => ?_)
  refine kept_ite (fun _ => ?_) (fun _ => ht)
  extract_lets x temp load cold t1
  have h1 : Kept F L t1 := by
    refine kept_setDie ht ?_
    exact ht.die d
  clear_value t1
  exact kept_ite (fun _ => kept_raise h1 ..) (fun _ => h1)

theorem kept_heatOff {F : Fuses} {L : List Knot} {s : State} (h : Kept F L s) (r : Nat) :
    Kept F L (State.heatOff s r) := by
  unfold State.heatOff
  try dsimp only
  repeat' first
    | with_reducible assumption
    | with_reducible apply kept_pcdEvent
    | with_reducible apply kept_regionOpen
    | with_reducible apply kept_oweRetrue
    | with_reducible apply kept_setPcd
    | with_reducible apply kept_settle
    | with_reducible apply kept_routeCheck
    | with_reducible apply kept_ite
    | (with_reducible refine fun _ hx => (?_ : Memory.wf _ = true); exact hx)
    | with_reducible intro _
    | split

theorem kept_heatBack {F : Fuses} {L : List Knot} {s : State} (h : Kept F L s) (r : Nat) :
    Kept F L (State.heatBack s r) := by
  unfold State.heatBack
  try dsimp only
  repeat' first
    | with_reducible assumption
    | with_reducible apply kept_setRgB
    | with_reducible apply kept_setPcd
    | (with_reducible refine fun _ hx => (?_ : Memory.wf _ = true); exact hx)
    | split

theorem kept_sampleDie {F : Fuses} {L : List Knot} {s : State} (h : Kept F L s) (d : Nat) (i : SensorIn) : Kept F L (State.sampleDie s d i) := by
  unfold State.sampleDie
  refine kept_ite (fun _ => ?_) (fun _ => h)
  extract_lets x w ts e ex valid none' gov df hot therm s1 back s2 s3 s4 s5
  have h1 : Kept F L s1 := kept_setRg (kept_setRg h)
  clear_value s1
  have h2 : Kept F L s2 := by
    refine kept_modDie h1 ?_
    exact fun _ hx => hx
  clear_value s2
  have h3 : Kept F L s3 := kept_foldl h2 (fun _ _ ht => kept_raise ht ..)
  clear_value s3
  have h4 : Kept F L s4 := kept_ite (fun _ => kept_raise h3 ..) (fun _ => h3)
  clear_value s4
  have h5 : Kept F L s5 := kept_ite (fun _ => kept_raise h4 ..) (fun _ => h4)
  clear_value s5
  exact kept_ite (fun _ => kept_heatOff h5 ..) (fun _ => h5)

theorem kept_sampleMd {F : Fuses} {L : List Knot} {s : State} (h : Kept F L s) (m : Nat) (i : SensorIn) : Kept F L (State.sampleMd s m i) := by
  unfold State.sampleMd
  refine kept_ite (fun _ => ?_) (fun _ => h)
  extract_lets x n ts e ex valid gov df hot back s1 s2 s3 s4 s5
  have h1 : Kept F L s1 := by
    refine kept_setMd h ?_
    exact h.mdmem m
  clear_value s1
  have h2 : Kept F L s2 := kept_setRgF h1
  clear_value s2
  have h3 : Kept F L s3 := kept_ite (fun _ => kept_setRgB h2) (fun _ => kept_ite (fun _ => kept_setRgB h2) (fun _ => h2))
  clear_value s3
  have h4 : Kept F L s4 := kept_foldl h3 (fun _ _ ht => kept_raise ht ..)
  clear_value s4
  have h5 : Kept F L s5 := kept_ite (fun _ => kept_raise h4 ..) (fun _ => h4)
  clear_value s5
  exact kept_ite (fun _ => kept_heatOff h5 ..) (fun _ => h5)

theorem kept_sensors {F : Fuses} {L : List Knot} {s : State} (h : Kept F L s) (l : List SensorIn) :
    Kept F L (State.sensors s l) := by
  unfold State.sensors
  try dsimp only
  repeat' first
    | with_reducible assumption
    | with_reducible apply kept_sampleDie
    | with_reducible apply kept_sampleMd
    | with_reducible apply kept_foldl
    | with_reducible apply kept_ite
    | (with_reducible intro _ _ _; try dsimp only)
    | with_reducible intro _

theorem kept_nameDie {F : Fuses} {L : List Knot} {s : State} (h : Kept F L s) (p d : Nat) : Kept F L (State.nameDie s p d) := by
  unfold State.nameDie
  extract_lets x ms s1 s2
  have h1 : Kept F L s1 := by
    apply kept_setRgB
    refine kept_setDie h ?_
    exact h.die d
  clear_value s1
  have h2 : Kept F L s2 := kept_ite (fun _ => h1) (fun _ => kept_pcdEvent h1 ..)
  clear_value s2
  exact kept_ite (fun _ => kept_ceilUp h2 ..) (fun _ => h2)

theorem kept_throttle {F : Fuses} {L : List Knot} {s : State} (h : Kept F L s)  :
    Kept F L (State.throttle s) := by
  unfold State.throttle
  try dsimp only
  repeat' first
    | with_reducible assumption
    | with_reducible apply kept_setRgB
    | with_reducible apply kept_modDie
    | with_reducible apply kept_nameDie
    | with_reducible apply kept_foldl
    | with_reducible apply kept_ite
    | with_reducible refine fun x hx => (?_ : Die.Canonical _)
    | exact (hx : Die.Canonical x)
    | (with_reducible intro _ _ _; try dsimp only)
    | with_reducible intro _

theorem kept_coolRow {F : Fuses} {L : List Knot} {s : State} (h : Kept F L s) (row : Nat) (need : Nat) (cond : Bool) :
    Kept F L (State.coolRow s row need cond) := by
  unfold State.coolRow
  try dsimp only
  repeat' first
    | with_reducible assumption
    | with_reducible apply kept_setPcd
    | with_reducible apply kept_ite
    | (with_reducible refine fun _ hx => (?_ : Memory.wf _ = true); exact hx)
    | with_reducible intro _
    | split

theorem kept_coolant {F : Fuses} {L : List Knot} {s : State} (h : Kept F L s) (flow : Int) (tin : Int) (tout : Int) (psw : Bool) :
    Kept F L (State.coolant s flow tin tout psw) := by
  unfold State.coolant
  try dsimp only
  repeat' first
    | with_reducible assumption
    | with_reducible apply kept_coolRow
    | with_reducible apply kept_setRg
    | with_reducible apply kept_pcdEvent
    | with_reducible apply kept_setPcd
    | with_reducible apply kept_setPart
    | with_reducible apply kept_powerSelect
    | with_reducible apply kept_foldl
    | with_reducible apply kept_ite
    | (with_reducible refine fun _ hx => (?_ : Memory.wf _ = true); exact hx)
    | refine Part.canonical_of rfl rfl (Kept.part (F := F) (L := L) ?_ _)
    | (with_reducible intro _ _ _; try dsimp only)
    | with_reducible intro _

theorem kept_coolStop {F : Fuses} {L : List Knot} {s : State} (h : Kept F L s)  :
    Kept F L (State.coolStop s) := by
  unfold State.coolStop
  try dsimp only
  repeat' first
    | with_reducible assumption
    | with_reducible apply kept_ctxEvent
    | with_reducible apply kept_modPart
    | with_reducible apply kept_setRgF
    | with_reducible apply kept_setPcd
    | with_reducible apply kept_foldl
    | with_reducible apply kept_foldl_fst
    | with_reducible apply kept_ite
    | with_reducible apply kept_foldl_ff
    | with_reducible apply kept_ite_fst
    | with_reducible apply kept_ite_ff
    | (with_reducible refine fun _ hx => (?_ : Memory.wf _ = true); exact hx)
    | (with_reducible refine fun _ hx => (?_ : Part.Canonical _); exact hx)
    | with_reducible apply part_ite
    | with_reducible refine fun x hx => (?_ : Part.Canonical _)
    | exact (hx : Part.Canonical x)
    | with_reducible refine fun x hx => (?_ : Memory.wf _ = true)
    | exact (hx : Memory.wf _ = true)
    | with_reducible apply Memory.wf_writeBytes
    | with_reducible apply Memory.wf_memWrite
    | with_reducible apply Memory.wf_clearRange
    | with_reducible apply Memory.wf_filter
    | with_reducible apply wf_ite
    | with_reducible refine Kept.part (F := F) (L := L) ?_ _
    | exact (hx : Part.Canonical x).1
    | exact (hx : Part.Canonical x).2
    | with_reducible apply ctxs_ite
    | with_reducible apply ctxs_sput
    | with_reducible apply ctxs_filter
    | with_reducible apply ctxs_serase
    | with_reducible apply ctxs_nil
    | with_reducible apply saved_nil
    | (with_reducible apply ctxs_map; rotate_left; exact fun _ h => h)
    | with_reducible refine Kept.ctxs (F := F) (L := L) ?_ _
    | with_reducible refine Kept.doze (F := F) (L := L) ?_ _
    | exact ctxs_find (Kept.ctxs ‹_› _) ‹_›
    | refine Part.canonical_of rfl rfl (Kept.part (F := F) (L := L) ?_ _)
    | refine Part.canonical_of rfl rfl (hx : Part.Canonical x)
    | with_reducible refine Part.canonical_mk ?_ ?_
    | dsimp only
    | (with_reducible intro _ _ _; try dsimp only)
    | with_reducible intro _
    | split

theorem kept_itemsEnd {F : Fuses} {L : List Knot} {s : State} (h : Kept F L s)  :
    Kept F L (State.itemsEnd s) := by
  unfold State.itemsEnd
  try dsimp only
  repeat' first
    | with_reducible assumption
    | with_reducible apply kept_complete
    | with_reducible apply kept_foldl
    | (with_reducible intro _ _ _; try dsimp only)

theorem kept_suddenLoss {F : Fuses} {L : List Knot} {s : State} (h : Kept F L s) (psw : Bool) : Kept F L (State.suddenLoss s psw) := by
  unfold State.suddenLoss
  refine kept_ite (fun _ => ?_) (fun _ => h)
  extract_lets s1 calm dark s2
  have h1 : Kept F L s1 := by
    refine kept_setPcd (kept_setRgB (kept_setRgF h)) ?_
    exact fun _ hp => hp
  clear_value s1
  have h2 : Kept F L s2 := by
    refine ⟨h1.fuses, h1.log, ⟨fun d => ?_, h1.mem.hbm, fun p => ?_, h1.mem.att⟩⟩
    · show (sget Die.reset (s1.dies.map _) d).Canonical
      rw [sget_maps (f := dark) rfl]
      exact h1.mem.dies d
    · show (sget Part.reset (s1.parts.map _) p).Canonical
      rw [sget_maps (f := calm) rfl]
      exact h1.mem.parts p
  clear_value s2
  exact kept_allOpen (kept_itemsEnd (kept_panelFatal h2 ..) ..) ..

theorem kept_pcdHot {F : Fuses} {L : List Knot} {s : State} (h : Kept F L s) (b : Bool) :
    Kept F L (State.pcdHot s b) := by
  unfold State.pcdHot
  try dsimp only
  repeat' first
    | with_reducible assumption
    | with_reducible apply kept_lastRecord
    | with_reducible apply kept_pcdTakeover
    | with_reducible apply kept_setPcd
    | with_reducible apply kept_ite
    | (with_reducible refine fun _ hx => (?_ : Memory.wf _ = true); exact hx)
    | with_reducible intro _
    | with_reducible apply kept_wfree

theorem kept_regionTrip {F : Fuses} {L : List Knot} {s : State} (h : Kept F L s) (r : Nat) :
    Kept F L (State.regionTrip s r) := by
  unfold State.regionTrip
  try dsimp only
  repeat' first
    | with_reducible assumption
    | with_reducible apply kept_regionOpen
    | with_reducible apply kept_setRgB
    | with_reducible apply kept_partFails
    | with_reducible apply kept_pcdEvent
    | with_reducible apply kept_routeCheck
    | with_reducible apply kept_ite
    | with_reducible intro _
    | split

theorem kept_rsdGone {F : Fuses} {L : List Knot} {s : State} (h : Kept F L s) (r : Nat) :
    Kept F L (State.rsdGone s r) := by
  unfold State.rsdGone
  try dsimp only
  repeat' first
    | with_reducible assumption
    | with_reducible apply kept_setPcd
    | with_reducible apply kept_partFails
    | with_reducible apply kept_failAll
    | with_reducible apply kept_partOff
    | with_reducible apply kept_routeCheck
    | with_reducible apply kept_ite
    | (with_reducible refine fun _ hx => (?_ : Memory.wf _ = true); exact hx)
    | with_reducible intro _
    | split

end Sys2Proof.Machine
end

