-- ==== Sys2Proof/Laws/KeptManage.lean ====
section
/-! SUPPORT. What the operations of Machine/Manage.lean keep. -/

namespace Sys2Proof.Machine

/-- The external programmer leaves the field knot log as it is. -/
theorem Nvm.programmed_knots (n : Nvm) (i : IsoIn) : (n.programmed i).knots = n.knots := by
  have set : ∀ (l : List (Nat × Option FwImage)) (m : Nvm), (l.foldl (fun m e =>
      if (if e.1 = 0 then m.ok0 else m.ok1) then { m with images := m.images.set e.1 e.2 } else m) m).knots = m.knots := by
    intro l
    induction l with
    | nil => intro m; rfl
    | cons e r ih => intro m; rw [List.foldl_cons, ih]; split <;> split <;> rfl
  have conf : ∀ (l : List (Nat × Option Conf)) (m : Nvm), (l.foldl (fun m e =>
      if (if e.1 = 0 then m.ok0 else m.ok1) then { m with confs := m.confs.set e.1 e.2 } else m) m).knots = m.knots := by
    intro l
    induction l with
    | nil => intro m; rfl
    | cons e r ih => intro m; rw [List.foldl_cons, ih]; split <;> split <;> rfl
  unfold Nvm.programmed
  extract_lets n1 n2
  split <;> (show n2.knots = _; exact (conf _ _).trans (set _ _))

theorem kept_answer {F : Fuses} {L : List Knot} {s : State} (h : Kept F L s) (m : MgmtOut) :
    Kept F L (State.answer s m) := by
  unfold State.answer
  try dsimp only
  repeat' first
    | with_reducible assumption
    | with_reducible apply kept_emit
    | with_reducible apply kept_ite
    | with_reducible intro _

theorem kept_updateOpen {F : Fuses} {L : List Knot} {s : State} (h : Kept F L s)  :
    Kept F L (State.updateOpen s) := by
  unfold State.updateOpen
  try dsimp only
  repeat' first
    | with_reducible assumption
    | with_reducible apply kept_answer
    | with_reducible apply kept_setPcd
    | with_reducible apply kept_ite
    | (with_reducible refine fun _ hx => (?_ : Memory.wf _ = true); exact hx)
    | with_reducible intro _

theorem kept_componentEnd {F : Fuses} {L : List Knot} {s : State} (h : Kept F L s) (config : Bool) (ok : Bool) :
    Kept F L (State.componentEnd s config ok) := by
  unfold State.componentEnd
  try dsimp only
  repeat' first
    | with_reducible assumption
    | with_reducible apply kept_setPcd
    | with_reducible apply kept_pcdEvent
    | with_reducible apply kept_answer
    | with_reducible apply kept_bumpErr
    | with_reducible apply kept_ite
    | with_reducible refine fun x hx => (?_ : Memory.wf _ = true)
    | with_reducible intro _
    | split

theorem kept_updateIn {F : Fuses} {L : List Knot} {s : State} (h : Kept F L s) (c : Component) :
    Kept F L (State.updateIn s c) := by
  unfold State.updateIn
  try dsimp only
  repeat' first
    | with_reducible assumption
    | with_reducible apply kept_componentEnd
    | with_reducible apply kept_ite
    | dsimp only
    | with_reducible intro _
    | split
    | with_reducible apply kept_wnvm
    | with_reducible refine Kept.log (F := F) ?_

theorem kept_activate {F : Fuses} {L : List Knot} {s : State} (h : Kept F L s)  :
    Kept F L (State.activate s) := by
  unfold State.activate
  try dsimp only
  repeat' first
    | with_reducible assumption
    | with_reducible apply kept_setPcd
    | with_reducible apply kept_answer
    | with_reducible apply kept_ite
    | (with_reducible refine fun _ hx => (?_ : Memory.wf _ = true); exact hx)
    | with_reducible intro _

theorem kept_slotAnswer {F : Fuses} {L : List Knot} {s : State} (h : Kept F L s) (slot : Nat) (m : MgmtOut) :
    Kept F L (State.slotAnswer s slot m) := by
  unfold State.slotAnswer
  try dsimp only
  repeat' first
    | with_reducible assumption
    | with_reducible apply kept_answer

theorem kept_measure {F : Fuses} {L : List Knot} {s : State} (h : Kept F L s) (index : Nat) :
    Kept F L (State.measure s index) := by
  unfold State.measure
  try dsimp only
  repeat' first
    | with_reducible assumption
    | with_reducible apply kept_answer

theorem kept_nvmFail {F : Fuses} {L : List Knot} {s : State} (h : Kept F L s) (dev : Nat) :
    Kept F L (State.nvmFail s dev) := by
  unfold State.nvmFail
  try dsimp only
  repeat' first
    | with_reducible assumption
    | with_reducible apply kept_pcdEvent
    | with_reducible apply kept_ite
    | dsimp only
    | with_reducible intro _
    | split
    | with_reducible apply kept_wnvm
    | with_reducible refine Kept.log (F := F) ?_

theorem kept_telemClear {F : Fuses} {L : List Knot} {s : State} (h : Kept F L s) (r : Nat) :
    Kept F L (State.telemClear s r) := by
  unfold State.telemClear
  try dsimp only
  repeat' first
    | with_reducible assumption
    | with_reducible apply kept_setRgF
    | with_reducible apply kept_setRg
    | with_reducible apply kept_keepGrowth
    | with_reducible apply kept_foldl
    | with_reducible apply kept_ite
    | (with_reducible intro _ _ _; try dsimp only)
    | with_reducible intro _

theorem kept_marginWarn {F : Fuses} {L : List Knot} {s : State} (h : Kept F L s) (r : Nat) (kind : Nat) (low : Bool) :
    Kept F L (State.marginWarn s r kind low) := by
  unfold State.marginWarn
  try dsimp only
  repeat' first
    | with_reducible assumption
    | with_reducible apply kept_setPcd
    | with_reducible apply kept_pcdEvent
    | with_reducible apply kept_ite
    | (with_reducible refine fun _ hx => (?_ : Memory.wf _ = true); exact hx)
    | with_reducible intro _

theorem kept_telemetry {F : Fuses} {L : List Knot} {s : State} (h : Kept F L s) (l : List TelemIn) :
    Kept F L (State.telemetry s l) := by
  unfold State.telemetry
  try dsimp only
  repeat' first
    | with_reducible assumption
    | with_reducible apply kept_telemClear
    | with_reducible apply kept_setRg
    | with_reducible apply kept_emit
    | with_reducible apply kept_marginWarn
    | with_reducible apply kept_foldl
    | with_reducible apply kept_ite
    | (with_reducible intro _ _ _; try dsimp only)
    | with_reducible intro _
    | split

theorem kept_insert {F : Fuses} {L : List Knot} {s : State} (h : Kept F L s) (va : Nat) (vb : Nat) (j1 : Bool) :
    Kept F L (State.insert s va vb j1) := by
  unfold State.insert
  try dsimp only
  repeat' first
    | with_reducible assumption
    | with_reducible apply kept_setPcd
    | with_reducible apply kept_ite
    | (with_reducible refine fun _ hx => (?_ : Memory.wf _ = true); exact hx)
    | with_reducible intro _

theorem kept_inputClose {F : Fuses} {L : List Knot} {s : State} (h : Kept F L s)  :
    Kept F L (State.inputClose s) := by
  unfold State.inputClose
  try dsimp only
  repeat' first
    | with_reducible assumption
    | with_reducible apply kept_setPcd
    | with_reducible apply kept_ite
    | (with_reducible refine fun _ hx => (?_ : Memory.wf _ = true); exact hx)
    | with_reducible intro _

theorem kept_withdraw {F : Fuses} {L : List Knot} {s : State} (h : Kept F L s)  :
    Kept F L (State.withdraw s) := by
  unfold State.withdraw
  try dsimp only
  repeat' first
    | with_reducible assumption
    | with_reducible apply kept_takeFree
    | with_reducible apply kept_lastRecord
    | with_reducible apply kept_powerLost
    | with_reducible apply kept_setPcd
    | with_reducible apply kept_ite
    | (with_reducible refine fun _ hx => (?_ : Memory.wf _ = true); exact hx)
    | with_reducible intro _

theorem kept_isolate {F : Fuses} {L : List Knot} {s : State} (h : Kept F L s) (i : IsoIn) : Kept F L (State.isolate s i) := by
  unfold State.isolate
  extract_lets s1
  have h1 : Kept F L s1 := by
    refine kept_ite (fun _ => kept_wnvm h ?_) (fun _ => h)
    rw [Nvm.programmed_knots]
    exact Kept.log h
  clear_value s1
  exact kept_setPcd (kept_resetPanel h1) (fun _ hp => hp)

theorem kept_latchTimeout {F : Fuses} {L : List Knot} {s : State} (h : Kept F L s)  :
    Kept F L (State.latchTimeout s) := by
  unfold State.latchTimeout
  try dsimp only
  repeat' first
    | with_reducible assumption
    | with_reducible apply kept_setPcd
    | with_reducible apply kept_ite
    | (with_reducible refine fun _ hx => (?_ : Memory.wf _ = true); exact hx)
    | with_reducible intro _

end Sys2Proof.Machine
end

