-- ==== Sys2Proof/Laws/KeptTick.lean ====
section
/-! SUPPORT. What the operations of Machine/Tick.lean keep. -/

namespace Sys2Proof.Machine

theorem kept_turnsEnd {F : Fuses} {L : List Knot} {s : State} (h : Kept F L s) (d : Nat) :
    Kept F L (State.turnsEnd s d) := by
  unfold State.turnsEnd
  try dsimp only
  repeat' first
    | with_reducible assumption
    | with_reducible apply kept_turnSwitch
    | with_reducible apply kept_foldl
    | with_reducible apply kept_ite
    | (with_reducible intro _ _ _; try dsimp only)
    | with_reducible intro _

theorem kept_issuePlace {F : Fuses} {L : List Knot} {s : State} (h : Kept F L s) (d : Nat) (p : Nat) :
    Kept F L (State.issuePlace s d p) := by
  unfold State.issuePlace
  try dsimp only
  repeat' first
    | with_reducible assumption
    | with_reducible apply kept_matchHit
    | with_reducible apply kept_issueEntry
    | with_reducible apply kept_foldl
    | with_reducible apply kept_ite
    | (with_reducible intro _ _ _; try dsimp only)
    | with_reducible intro _

theorem kept_issueSeen {F : Fuses} {L : List Knot} {s : State} (h : Kept F L s) (d : Nat) :
    Kept F L (State.issueSeen s d) := by
  unfold State.issueSeen
  try dsimp only
  repeat' first
    | with_reducible assumption
    | with_reducible apply kept_modDie
    | with_reducible apply kept_setRgB
    | with_reducible apply kept_spNotice
    | with_reducible apply kept_ite
    | with_reducible refine fun x hx => (?_ : Die.Canonical _)
    | exact (hx : Die.Canonical x)
    | with_reducible intro _

theorem kept_issueAll {F : Fuses} {L : List Knot} {s : State} (h : Kept F L s) (d : Nat) :
    Kept F L (State.issueAll s d) := by
  unfold State.issueAll
  try dsimp only
  repeat' first
    | with_reducible assumption
    | with_reducible apply kept_issueSeen
    | with_reducible apply kept_issuePlace
    | with_reducible apply kept_modDie
    | with_reducible apply kept_foldl
    | with_reducible apply kept_ite
    | with_reducible refine fun x hx => (?_ : Die.Canonical _)
    | exact (hx : Die.Canonical x)
    | (with_reducible intro _ _ _; try dsimp only)
    | with_reducible intro _

theorem kept_dmaSends {F : Fuses} {L : List Knot} (d : Nat) (w : Nat) : ∀ {s : State}, Kept F L s → Kept F L (State.dmaSends s d w) := by
  induction w with
  | zero => intro s h; exact h
  | succ n ih =>
  intro s h
  unfold State.dmaSends
  try dsimp only
  repeat' first
    | with_reducible assumption
    | with_reducible apply ih
    | with_reducible apply kept_dmaSend
    | with_reducible apply kept_ite
    | with_reducible intro _

theorem kept_shadowsReady {F : Fuses} {L : List Knot} {s : State} (h : Kept F L s) (d : Nat) :
    Kept F L (State.shadowsReady s d) := by
  unfold State.shadowsReady
  try dsimp only
  repeat' first
    | with_reducible assumption
    | with_reducible apply kept_shadowReadyNow
    | with_reducible apply kept_foldl
    | with_reducible apply kept_ite
    | (with_reducible intro _ _ _; try dsimp only)
    | with_reducible intro _

theorem kept_departs {F : Fuses} {L : List Knot} {s : State} (h : Kept F L s) (d : Nat) :
    Kept F L (State.departs s d) := by
  unfold State.departs
  try dsimp only
  repeat' first
    | with_reducible assumption
    | with_reducible apply kept_depart
    | with_reducible apply kept_foldl
    | with_reducible apply kept_ite
    | (with_reducible intro _ _ _; try dsimp only)
    | with_reducible intro _
    | split

theorem kept_arrivals {F : Fuses} {L : List Knot} {s : State} (h : Kept F L s) (d : Nat) :
    Kept F L (State.arrivals s d) := by
  unfold State.arrivals
  try dsimp only
  repeat' first
    | with_reducible assumption
    | with_reducible apply kept_arrive
    | with_reducible apply kept_creditBack
    | with_reducible apply kept_foldl
    | (with_reducible intro _ _ _; try dsimp only)

theorem kept_placesDone {F : Fuses} {L : List Knot} {s : State} (h : Kept F L s) (d : Nat) :
    Kept F L (State.placesDone s d) := by
  unfold State.placesDone
  try dsimp only
  repeat' first
    | with_reducible assumption
    | with_reducible apply kept_placeDone
    | with_reducible apply kept_foldl
    | with_reducible apply kept_ite
    | (with_reducible intro _ _ _; try dsimp only)
    | with_reducible intro _

theorem kept_stallCycle {F : Fuses} {L : List Knot} {s : State} (h : Kept F L s) (d : Nat) (c : Nat) :
    Kept F L (State.stallCycle s d c) := by
  unfold State.stallCycle
  try dsimp only
  repeat' first
    | with_reducible assumption
    | with_reducible apply kept_bumpPerf
    | with_reducible apply kept_modDie
    | with_reducible apply kept_ite
    | with_reducible refine fun x hx => (?_ : Die.Canonical _)
    | exact (hx : Die.Canonical x)
    | with_reducible intro _
    | with_reducible apply kept_watchdogIdle

theorem kept_freeCycle {F : Fuses} {L : List Knot} {s : State} (h : Kept F L s) (d : Nat) :
    Kept F L (State.freeCycle s d) := by
  unfold State.freeCycle
  try dsimp only
  repeat' first
    | with_reducible assumption
    | with_reducible apply kept_departs
    | with_reducible apply kept_bumpPerf
    | with_reducible apply kept_modDie
    | with_reducible apply kept_shadowsReady
    | with_reducible apply kept_turnsEnd
    | with_reducible apply kept_placesDone
    | with_reducible apply kept_matchDone
    | with_reducible refine fun x hx => (?_ : Die.Canonical _)
    | exact (hx : Die.Canonical x)

theorem kept_cycleHead {F : Fuses} {L : List Knot} {s : State} (h : Kept F L s) (d : Nat) : Kept F L (State.cycleHead s d).2.2 := by
  unfold State.cycleHead
  extract_lets c0 s1 s2
  have h1 : Kept F L s1 := kept_landTest h _
  clear_value s1 c0
  split
  · exact h
  · split
    · exact h1
    · split
      · exact h1
      · have h2 : Kept F L s2 := kept_issueAll h1 _
        clear_value s2
        split
        · exact h1
        · exact h2

theorem kept_phaseCycle {F : Fuses} {L : List Knot} {s : State} (h : Kept F L s) (d : Nat) : Kept F L (State.phaseCycle s d) := by
  unfold State.phaseCycle
  have hh := kept_cycleHead h d
  extract_lets g
  change Kept F L g.2.2 at hh
  clear_value g
  exact kept_ite (fun _ => kept_stallCycle hh ..) (fun _ => kept_ite (fun _ => kept_phaseEnd hh ..)
    (fun _ => kept_freeCycle (kept_runsCycle (kept_dmaSends d 4096 hh) ..) ..))

theorem kept_idleCycle {F : Fuses} {L : List Knot} {s : State} (h : Kept F L s) (d : Nat) :
    Kept F L (State.idleCycle s d) := by
  unfold State.idleCycle
  try dsimp only
  repeat' first
    | with_reducible assumption
    | with_reducible apply kept_runsCycle
    | with_reducible apply kept_departs
    | with_reducible apply kept_modDie
    | with_reducible apply kept_shadowsReady
    | with_reducible apply kept_ite
    | with_reducible refine fun x hx => (?_ : Die.Canonical _)
    | exact (hx : Die.Canonical x)
    | with_reducible intro _

theorem kept_cycleBegins {F : Fuses} {L : List Knot} {s : State} (h : Kept F L s) (d : Nat) :
    Kept F L (State.cycleBegins s d) := by
  unfold State.cycleBegins
  try dsimp only
  repeat' first
    | with_reducible assumption
    | with_reducible apply kept_arrivals
    | with_reducible apply kept_stopsEnd
    | with_reducible apply kept_placeStart
    | with_reducible apply kept_phaseEnd
    | with_reducible apply kept_ite
    | with_reducible intro _
    | split

theorem kept_spadCycle {F : Fuses} {L : List Knot} {s : State} (h : Kept F L s) (d : Nat) :
    Kept F L (State.spadCycle s d) := by
  unfold State.spadCycle
  try dsimp only
  repeat' first
    | with_reducible assumption
    | with_reducible apply kept_bumpPerf
    | with_reducible apply kept_modDie
    | with_reducible apply kept_ite
    | with_reducible refine fun x hx => (?_ : Die.Canonical _)
    | exact (hx : Die.Canonical x)
    | with_reducible intro _

theorem kept_dieCycle {F : Fuses} {L : List Knot} {s : State} (h : Kept F L s) (d : Nat) :
    Kept F L (State.dieCycle s d) := by
  unfold State.dieCycle
  try dsimp only
  repeat' first
    | with_reducible assumption
    | with_reducible apply kept_cycleBegins
    | with_reducible apply kept_phaseCycle
    | with_reducible apply kept_idleCycle
    | with_reducible apply kept_spadCycle
    | with_reducible apply kept_ite
    | with_reducible intro _

theorem kept_trkWaits {F : Fuses} {L : List Knot} {s : State} (h : Kept F L s) (m : Nat) :
    Kept F L (State.trkWaits s m) := by
  unfold State.trkWaits
  try dsimp only
  repeat' first
    | with_reducible assumption
    | with_reducible apply kept_bumpPerf
    | with_reducible apply kept_ite
    | with_reducible intro _

theorem kept_frameBegins {F : Fuses} {L : List Knot} {s : State} (h : Kept F L s) (d : Nat) (c : Nat) :
    Kept F L (State.frameBegins s d c) := by
  unfold State.frameBegins
  try dsimp only
  repeat' first
    | with_reducible assumption
    | with_reducible apply kept_modDie
    | with_reducible apply kept_foldl
    | with_reducible apply kept_ite
    | with_reducible refine fun x hx => (?_ : Die.Canonical _)
    | exact (hx : Die.Canonical x)
    | (with_reducible intro _ _ _; try dsimp only)
    | with_reducible intro _

theorem kept_partCycle {F : Fuses} {L : List Knot} {s : State} (h : Kept F L s) (p : Nat) :
    Kept F L (State.partCycle s p) := by
  unfold State.partCycle
  try dsimp only
  repeat' first
    | with_reducible assumption
    | with_reducible apply kept_dieCycle
    | with_reducible apply kept_trkWaits
    | with_reducible apply kept_frameBegins
    | with_reducible apply kept_modPart
    | with_reducible apply kept_foldl
    | with_reducible apply kept_ite
    | with_reducible refine fun x hx => (?_ : Part.Canonical _)
    | exact (hx : Part.Canonical x)
    | (with_reducible intro _ _ _; try dsimp only)
    | with_reducible intro _

theorem kept_partCycles {F : Fuses} {L : List Knot} (p : Nat) (w : Nat) : ∀ {s : State}, Kept F L s → Kept F L (State.partCycles s p w) := by
  induction w with
  | zero => intro s h; exact h
  | succ n ih =>
  intro s h
  unfold State.partCycles
  try dsimp only
  repeat' first
    | with_reducible assumption
    | with_reducible apply ih
    | with_reducible apply kept_partCycle

theorem kept_partTick {F : Fuses} {L : List Knot} {s : State} (h : Kept F L s) (p : Nat) :
    Kept F L (State.partTick s p) := by
  unfold State.partTick
  try dsimp only
  repeat' first
    | with_reducible assumption
    | with_reducible apply kept_modPart
    | with_reducible apply kept_partCycles
    | with_reducible apply kept_ite
    | with_reducible refine fun x hx => (?_ : Part.Canonical _)
    | exact (hx : Part.Canonical x)
    | with_reducible intro _

theorem kept_timeTick {F : Fuses} {L : List Knot} {s : State} (h : Kept F L s)  :
    Kept F L (State.timeTick s) := by
  unfold State.timeTick
  try dsimp only
  repeat' first
    | with_reducible assumption
    | with_reducible apply kept_setPcd
    | (with_reducible refine fun _ hx => (?_ : Memory.wf _ = true); exact hx)
    | with_reducible apply kept_wptc

theorem kept_routerRate {F : Fuses} {L : List Knot} {s : State} (h : Kept F L s) (r : Nat) (o : Nat) :
    Kept F L (State.routerRate s r o) := by
  unfold State.routerRate
  try dsimp only
  repeat' first
    | with_reducible assumption
    | with_reducible apply kept_setPcd
    | with_reducible apply kept_raise
    | with_reducible apply kept_ite
    | (with_reducible refine fun _ hx => (?_ : Memory.wf _ = true); exact hx)
    | with_reducible intro _

theorem kept_fabricRate {F : Fuses} {L : List Knot} {s : State} (h : Kept F L s) (f : Nat) :
    Kept F L (State.fabricRate s f) := by
  unfold State.fabricRate
  try dsimp only
  repeat' first
    | with_reducible assumption
    | with_reducible apply kept_setFd
    | with_reducible apply kept_raise
    | with_reducible apply kept_ite
    | with_reducible intro _

theorem kept_secondChecks {F : Fuses} {L : List Knot} {s : State} (h : Kept F L s)  :
    Kept F L (State.secondChecks s) := by
  unfold State.secondChecks
  try dsimp only
  repeat' first
    | with_reducible assumption
    | with_reducible apply kept_routerRate
    | with_reducible apply kept_fabricRate
    | with_reducible apply kept_foldl
    | with_reducible apply kept_ite
    | (with_reducible intro _ _ _; try dsimp only)
    | with_reducible intro _

theorem kept_tick {F : Fuses} {L : List Knot} {s : State} (h : Kept F L s)  :
    Kept F L (State.tick s) := by
  unfold State.tick
  try dsimp only
  repeat' first
    | with_reducible assumption
    | with_reducible apply kept_timeTick
    | with_reducible apply kept_partTick
    | with_reducible apply kept_txFlush
    | with_reducible apply kept_rxSync
    | with_reducible apply kept_hostFlush
    | with_reducible apply kept_secondChecks
    | with_reducible apply kept_foldl
    | with_reducible apply kept_ite
    | (with_reducible intro _ _ _; try dsimp only)
    | with_reducible intro _

end Sys2Proof.Machine
end

