-- ==== Sys2Proof/Laws/KeptArbiter.lean ====
section
/-! SUPPORT. What the operations of Machine/Arbiter.lean keep. -/

namespace Sys2Proof.Machine

theorem kept_spadGrant {F : Fuses} {L : List Knot} {s : State} (h : Kept F L s) (d : Nat) (pair : Nat) (cls : Nat) :
    Kept F L (State.spadGrant s d pair cls) := by
  unfold State.spadGrant
  try dsimp only
  repeat' first
    | with_reducible assumption
    | with_reducible apply kept_modDie
    | with_reducible refine fun x hx => (?_ : Die.Canonical _)
    | exact (hx : Die.Canonical x)

theorem kept_nonschedGrant {F : Fuses} {L : List Knot} {s : State} (h : Kept F L s) (d : Nat) (pair : Nat) :
    Kept F L (State.nonschedGrant s d pair) := by
  unfold State.nonschedGrant
  try dsimp only
  repeat' first
    | with_reducible assumption
    | with_reducible apply kept_spadGrant
    | with_reducible apply kept_spadServe
    | with_reducible apply kept_ite
    | with_reducible intro _
    | split

theorem kept_repairNow {F : Fuses} {L : List Knot} {s : State} (h : Kept F L s) (d : Nat) (pair : Nat) :
    Kept F L (State.repairNow s d pair) := by
  unfold State.repairNow
  try dsimp only
  repeat' first
    | with_reducible assumption
    | with_reducible apply kept_bumpPerf
    | with_reducible apply kept_modDie
    | with_reducible refine fun x hx => (?_ : Die.Canonical _)
    | exact (hx : Die.Canonical x)
    | split

theorem kept_repairGrant {F : Fuses} {L : List Knot} {s : State} (h : Kept F L s) (d : Nat) (pair : Nat) :
    Kept F L (State.repairGrant s d pair) := by
  unfold State.repairGrant
  try dsimp only
  repeat' first
    | with_reducible assumption
    | with_reducible apply kept_spadGrant
    | with_reducible apply kept_repairNow
    | with_reducible apply kept_ite
    | with_reducible intro _

end Sys2Proof.Machine
end

