-- ==== Sys2Proof/Laws/KeptExec.lean ====
section
/-! SUPPORT. What the meaning of every command keeps. -/

namespace Sys2Proof.Machine
theorem kept_guard {F : Fuses} {L : List Knot} {s t : State} {b : Bool} (h : Kept F L s) (e : guard b s = .next t) : Kept F L t := by
  unfold guard at e
  split at e
  · cases e; exact h
  · cases e

theorem kept_execMcNop {F : Fuses} {L : List Knot} {s t : State} (h : Kept F L s) (die : Nat) (core : Nat) (rsv : Bool) (e : execMcNop die core rsv s = .next t) : Kept F L t := by
  unfold execMcNop at e
  refine kept_guard ?_ e
  clear e
  try dsimp only
  repeat' first
    | with_reducible assumption
    | with_reducible apply kept_mcNop
    | with_reducible apply kept_foldl
    | with_reducible apply kept_foldl_fst
    | with_reducible apply kept_ite
    | with_reducible apply kept_foldl_ff
    | with_reducible apply kept_ite_fst
    | with_reducible apply kept_ite_ff
    | dsimp only
    | (with_reducible intro _ _ _; try dsimp only)
    | with_reducible intro _
    | split

theorem kept_execLoadw {F : Fuses} {L : List Knot} {s t : State} (h : Kept F L s) (die : Nat) (core : Nat) (c : LoadwCmd) (e : execLoadw die core c s = .next t) : Kept F L t := by
  unfold execLoadw at e
  refine kept_guard ?_ e
  clear e
  try dsimp only
  repeat' first
    | with_reducible assumption
    | with_reducible apply kept_loadw
    | with_reducible apply kept_foldl
    | with_reducible apply kept_foldl_fst
    | with_reducible apply kept_ite
    | with_reducible apply kept_foldl_ff
    | with_reducible apply kept_ite_fst
    | with_reducible apply kept_ite_ff
    | dsimp only
    | (with_reducible intro _ _ _; try dsimp only)
    | with_reducible intro _
    | split

theorem kept_execLoadwShadowReady {F : Fuses} {L : List Knot} {s t : State} (h : Kept F L s) (die : Nat) (core : Nat) (e : execLoadwShadowReady die core s = .next t) : Kept F L t := by
  unfold execLoadwShadowReady at e
  refine kept_guard ?_ e
  clear e
  try dsimp only
  repeat' first
    | with_reducible assumption
    | with_reducible apply kept_shadowReadyNow
    | with_reducible apply kept_foldl
    | with_reducible apply kept_foldl_fst
    | with_reducible apply kept_ite
    | with_reducible apply kept_foldl_ff
    | with_reducible apply kept_ite_fst
    | with_reducible apply kept_ite_ff
    | dsimp only
    | (with_reducible intro _ _ _; try dsimp only)
    | with_reducible intro _
    | split

theorem kept_execReadout {F : Fuses} {L : List Knot} {s t : State} (h : Kept F L s) (die : Nat) (core : Nat) (c : ReadoutCmd) (e : execReadout die core c s = .next t) : Kept F L t := by
  unfold execReadout at e
  refine kept_guard ?_ e
  clear e
  try dsimp only
  repeat' first
    | with_reducible assumption
    | with_reducible apply kept_readout
    | with_reducible apply kept_foldl
    | with_reducible apply kept_foldl_fst
    | with_reducible apply kept_ite
    | with_reducible apply kept_foldl_ff
    | with_reducible apply kept_ite_fst
    | with_reducible apply kept_ite_ff
    | dsimp only
    | (with_reducible intro _ _ _; try dsimp only)
    | with_reducible intro _
    | split

theorem kept_execZero {F : Fuses} {L : List Knot} {s t : State} (h : Kept F L s) (die : Nat) (core : Nat) (c : ZeroCmd) (e : execZero die core c s = .next t) : Kept F L t := by
  unfold execZero at e
  refine kept_guard ?_ e
  clear e
  try dsimp only
  repeat' first
    | with_reducible assumption
    | with_reducible apply kept_zero
    | with_reducible apply kept_foldl
    | with_reducible apply kept_foldl_fst
    | with_reducible apply kept_ite
    | with_reducible apply kept_foldl_ff
    | with_reducible apply kept_ite_fst
    | with_reducible apply kept_ite_ff
    | dsimp only
    | (with_reducible intro _ _ _; try dsimp only)
    | with_reducible intro _
    | split

theorem kept_execReduceSend {F : Fuses} {L : List Knot} {s t : State} (h : Kept F L s) (die : Nat) (core : Nat) (c : ReduceCmd) (e : execReduceSend die core c s = .next t) : Kept F L t := by
  unfold execReduceSend at e
  refine kept_guard ?_ e
  clear e
  try dsimp only
  repeat' first
    | with_reducible assumption
    | with_reducible apply kept_reduce
    | with_reducible apply kept_foldl
    | with_reducible apply kept_foldl_fst
    | with_reducible apply kept_ite
    | with_reducible apply kept_foldl_ff
    | with_reducible apply kept_ite_fst
    | with_reducible apply kept_ite_ff
    | dsimp only
    | (with_reducible intro _ _ _; try dsimp only)
    | with_reducible intro _
    | split

theorem kept_execReduceAdd {F : Fuses} {L : List Knot} {s t : State} (h : Kept F L s) (die : Nat) (core : Nat) (c : ReduceCmd) (e : execReduceAdd die core c s = .next t) : Kept F L t := by
  unfold execReduceAdd at e
  refine kept_guard ?_ e
  clear e
  try dsimp only
  repeat' first
    | with_reducible assumption
    | with_reducible apply kept_reduce
    | with_reducible apply kept_foldl
    | with_reducible apply kept_foldl_fst
    | with_reducible apply kept_ite
    | with_reducible apply kept_foldl_ff
    | with_reducible apply kept_ite_fst
    | with_reducible apply kept_ite_ff
    | dsimp only
    | (with_reducible intro _ _ _; try dsimp only)
    | with_reducible intro _
    | split

theorem kept_execReduceAddsend {F : Fuses} {L : List Knot} {s t : State} (h : Kept F L s) (die : Nat) (core : Nat) (c : ReduceCmd) (e : execReduceAddsend die core c s = .next t) : Kept F L t := by
  unfold execReduceAddsend at e
  refine kept_guard ?_ e
  clear e
  try dsimp only
  repeat' first
    | with_reducible assumption
    | with_reducible apply kept_reduce
    | with_reducible apply kept_foldl
    | with_reducible apply kept_foldl_fst
    | with_reducible apply kept_ite
    | with_reducible apply kept_foldl_ff
    | with_reducible apply kept_ite_fst
    | with_reducible apply kept_ite_ff
    | dsimp only
    | (with_reducible intro _ _ _; try dsimp only)
    | with_reducible intro _
    | split

theorem kept_execScrNop {F : Fuses} {L : List Knot} {s t : State} (h : Kept F L s) (die : Nat) (rsv : Bool) (e : execScrNop die rsv s = .next t) : Kept F L t := by
  unfold execScrNop at e
  refine kept_guard ?_ e
  clear e
  try dsimp only
  repeat' first
    | with_reducible assumption
    | with_reducible apply kept_scrNop
    | with_reducible apply kept_foldl
    | with_reducible apply kept_foldl_fst
    | with_reducible apply kept_ite
    | with_reducible apply kept_foldl_ff
    | with_reducible apply kept_ite_fst
    | with_reducible apply kept_ite_ff
    | dsimp only
    | (with_reducible intro _ _ _; try dsimp only)
    | with_reducible intro _
    | split

theorem kept_execNorm {F : Fuses} {L : List Knot} {s t : State} (h : Kept F L s) (die : Nat) (c : RowCmd) (e : execNorm die c s = .next t) : Kept F L t := by
  unfold execNorm at e
  refine kept_guard ?_ e
  clear e
  try dsimp only
  repeat' first
    | with_reducible assumption
    | with_reducible apply kept_rowCmd
    | with_reducible apply kept_foldl
    | with_reducible apply kept_foldl_fst
    | with_reducible apply kept_ite
    | with_reducible apply kept_foldl_ff
    | with_reducible apply kept_ite_fst
    | with_reducible apply kept_ite_ff
    | dsimp only
    | (with_reducible intro _ _ _; try dsimp only)
    | with_reducible intro _
    | split

theorem kept_execSoftmax {F : Fuses} {L : List Knot} {s t : State} (h : Kept F L s) (die : Nat) (c : RowCmd) (e : execSoftmax die c s = .next t) : Kept F L t := by
  unfold execSoftmax at e
  refine kept_guard ?_ e
  clear e
  try dsimp only
  repeat' first
    | with_reducible assumption
    | with_reducible apply kept_rowCmd
    | with_reducible apply kept_foldl
    | with_reducible apply kept_foldl_fst
    | with_reducible apply kept_ite
    | with_reducible apply kept_foldl_ff
    | with_reducible apply kept_ite_fst
    | with_reducible apply kept_ite_ff
    | dsimp only
    | (with_reducible intro _ _ _; try dsimp only)
    | with_reducible intro _
    | split

theorem kept_execNormb {F : Fuses} {L : List Knot} {s t : State} (h : Kept F L s) (die : Nat) (c : RowCmd) (e : execNormb die c s = .next t) : Kept F L t := by
  unfold execNormb at e
  refine kept_guard ?_ e
  clear e
  try dsimp only
  repeat' first
    | with_reducible assumption
    | with_reducible apply kept_rowCmd
    | with_reducible apply kept_foldl
    | with_reducible apply kept_foldl_fst
    | with_reducible apply kept_ite
    | with_reducible apply kept_foldl_ff
    | with_reducible apply kept_ite_fst
    | with_reducible apply kept_ite_ff
    | dsimp only
    | (with_reducible intro _ _ _; try dsimp only)
    | with_reducible intro _
    | split

theorem kept_execSoftmaxb {F : Fuses} {L : List Knot} {s t : State} (h : Kept F L s) (die : Nat) (c : RowCmd) (e : execSoftmaxb die c s = .next t) : Kept F L t := by
  unfold execSoftmaxb at e
  refine kept_guard ?_ e
  clear e
  try dsimp only
  repeat' first
    | with_reducible assumption
    | with_reducible apply kept_rowCmd
    | with_reducible apply kept_foldl
    | with_reducible apply kept_foldl_fst
    | with_reducible apply kept_ite
    | with_reducible apply kept_foldl_ff
    | with_reducible apply kept_ite_fst
    | with_reducible apply kept_ite_ff
    | dsimp only
    | (with_reducible intro _ _ _; try dsimp only)
    | with_reducible intro _
    | split

theorem kept_execSmoveOut {F : Fuses} {L : List Knot} {s t : State} (h : Kept F L s) (die : Nat) (c : SmoveCmd) (e : execSmoveOut die c s = .next t) : Kept F L t := by
  unfold execSmoveOut at e
  refine kept_guard ?_ e
  clear e
  try dsimp only
  repeat' first
    | with_reducible assumption
    | with_reducible apply kept_smove
    | with_reducible apply kept_foldl
    | with_reducible apply kept_foldl_fst
    | with_reducible apply kept_ite
    | with_reducible apply kept_foldl_ff
    | with_reducible apply kept_ite_fst
    | with_reducible apply kept_ite_ff
    | dsimp only
    | (with_reducible intro _ _ _; try dsimp only)
    | with_reducible intro _
    | split

theorem kept_execSmoveIn {F : Fuses} {L : List Knot} {s t : State} (h : Kept F L s) (die : Nat) (c : SmoveCmd) (e : execSmoveIn die c s = .next t) : Kept F L t := by
  unfold execSmoveIn at e
  refine kept_guard ?_ e
  clear e
  try dsimp only
  repeat' first
    | with_reducible assumption
    | with_reducible apply kept_smove
    | with_reducible apply kept_foldl
    | with_reducible apply kept_foldl_fst
    | with_reducible apply kept_ite
    | with_reducible apply kept_foldl_ff
    | with_reducible apply kept_ite_fst
    | with_reducible apply kept_ite_ff
    | dsimp only
    | (with_reducible intro _ _ _; try dsimp only)
    | with_reducible intro _
    | split

theorem kept_execSmoveClear {F : Fuses} {L : List Knot} {s t : State} (h : Kept F L s) (die : Nat) (c : SmoveCmd) (e : execSmoveClear die c s = .next t) : Kept F L t := by
  unfold execSmoveClear at e
  refine kept_guard ?_ e
  clear e
  try dsimp only
  repeat' first
    | with_reducible assumption
    | with_reducible apply kept_smove
    | with_reducible apply kept_foldl
    | with_reducible apply kept_foldl_fst
    | with_reducible apply kept_ite
    | with_reducible apply kept_foldl_ff
    | with_reducible apply kept_ite_fst
    | with_reducible apply kept_ite_ff
    | dsimp only
    | (with_reducible intro _ _ _; try dsimp only)
    | with_reducible intro _
    | split

theorem kept_execSetup {F : Fuses} {L : List Knot} {s t : State} (h : Kept F L s) (die : Nat) (c : SetupCmd) (e : execSetup die c s = .next t) : Kept F L t := by
  unfold execSetup at e
  refine kept_guard ?_ e
  clear e
  try dsimp only
  repeat' first
    | with_reducible assumption
    | with_reducible apply kept_setup
    | with_reducible apply kept_foldl
    | with_reducible apply kept_foldl_fst
    | with_reducible apply kept_ite
    | with_reducible apply kept_foldl_ff
    | with_reducible apply kept_ite_fst
    | with_reducible apply kept_ite_ff
    | dsimp only
    | (with_reducible intro _ _ _; try dsimp only)
    | with_reducible intro _
    | split

theorem kept_execVnop {F : Fuses} {L : List Knot} {s t : State} (h : Kept F L s) (die : Nat) (v : Nat) (i : VIns) (e : execVnop die v i s = .next t) : Kept F L t := by
  unfold execVnop at e
  refine kept_guard ?_ e
  clear e
  try dsimp only
  repeat' first
    | with_reducible assumption
    | with_reducible apply kept_vIssue
    | with_reducible apply kept_foldl
    | with_reducible apply kept_foldl_fst
    | with_reducible apply kept_ite
    | with_reducible apply kept_foldl_ff
    | with_reducible apply kept_ite_fst
    | with_reducible apply kept_ite_ff
    | dsimp only
    | (with_reducible intro _ _ _; try dsimp only)
    | with_reducible intro _
    | split

theorem kept_execVld {F : Fuses} {L : List Knot} {s t : State} (h : Kept F L s) (die : Nat) (v : Nat) (i : VIns) (e : execVld die v i s = .next t) : Kept F L t := by
  unfold execVld at e
  refine kept_guard ?_ e
  clear e
  try dsimp only
  repeat' first
    | with_reducible assumption
    | with_reducible apply kept_vIssue
    | with_reducible apply kept_foldl
    | with_reducible apply kept_foldl_fst
    | with_reducible apply kept_ite
    | with_reducible apply kept_foldl_ff
    | with_reducible apply kept_ite_fst
    | with_reducible apply kept_ite_ff
    | dsimp only
    | (with_reducible intro _ _ _; try dsimp only)
    | with_reducible intro _
    | split

theorem kept_execVst {F : Fuses} {L : List Knot} {s t : State} (h : Kept F L s) (die : Nat) (v : Nat) (i : VIns) (e : execVst die v i s = .next t) : Kept F L t := by
  unfold execVst at e
  refine kept_guard ?_ e
  clear e
  try dsimp only
  repeat' first
    | with_reducible assumption
    | with_reducible apply kept_vIssue
    | with_reducible apply kept_foldl
    | with_reducible apply kept_foldl_fst
    | with_reducible apply kept_ite
    | with_reducible apply kept_foldl_ff
    | with_reducible apply kept_ite_fst
    | with_reducible apply kept_ite_ff
    | dsimp only
    | (with_reducible intro _ _ _; try dsimp only)
    | with_reducible intro _
    | split

theorem kept_execVrecv {F : Fuses} {L : List Knot} {s t : State} (h : Kept F L s) (die : Nat) (v : Nat) (i : VIns) (e : execVrecv die v i s = .next t) : Kept F L t := by
  unfold execVrecv at e
  refine kept_guard ?_ e
  clear e
  try dsimp only
  repeat' first
    | with_reducible assumption
    | with_reducible apply kept_vIssue
    | with_reducible apply kept_foldl
    | with_reducible apply kept_foldl_fst
    | with_reducible apply kept_ite
    | with_reducible apply kept_foldl_ff
    | with_reducible apply kept_ite_fst
    | with_reducible apply kept_ite_ff
    | dsimp only
    | (with_reducible intro _ _ _; try dsimp only)
    | with_reducible intro _
    | split

theorem kept_execVsend {F : Fuses} {L : List Knot} {s t : State} (h : Kept F L s) (die : Nat) (v : Nat) (i : VIns) (e : execVsend die v i s = .next t) : Kept F L t := by
  unfold execVsend at e
  refine kept_guard ?_ e
  clear e
  try dsimp only
  repeat' first
    | with_reducible assumption
    | with_reducible apply kept_vIssue
    | with_reducible apply kept_foldl
    | with_reducible apply kept_foldl_fst
    | with_reducible apply kept_ite
    | with_reducible apply kept_foldl_ff
    | with_reducible apply kept_ite_fst
    | with_reducible apply kept_ite_ff
    | dsimp only
    | (with_reducible intro _ _ _; try dsimp only)
    | with_reducible intro _
    | split

theorem kept_execVadd {F : Fuses} {L : List Knot} {s t : State} (h : Kept F L s) (die : Nat) (v : Nat) (i : VIns) (e : execVadd die v i s = .next t) : Kept F L t := by
  unfold execVadd at e
  refine kept_guard ?_ e
  clear e
  try dsimp only
  repeat' first
    | with_reducible assumption
    | with_reducible apply kept_vIssue
    | with_reducible apply kept_foldl
    | with_reducible apply kept_foldl_fst
    | with_reducible apply kept_ite
    | with_reducible apply kept_foldl_ff
    | with_reducible apply kept_ite_fst
    | with_reducible apply kept_ite_ff
    | dsimp only
    | (with_reducible intro _ _ _; try dsimp only)
    | with_reducible intro _
    | split

theorem kept_execVsub {F : Fuses} {L : List Knot} {s t : State} (h : Kept F L s) (die : Nat) (v : Nat) (i : VIns) (e : execVsub die v i s = .next t) : Kept F L t := by
  unfold execVsub at e
  refine kept_guard ?_ e
  clear e
  try dsimp only
  repeat' first
    | with_reducible assumption
    | with_reducible apply kept_vIssue
    | with_reducible apply kept_foldl
    | with_reducible apply kept_foldl_fst
    | with_reducible apply kept_ite
    | with_reducible apply kept_foldl_ff
    | with_reducible apply kept_ite_fst
    | with_reducible apply kept_ite_ff
    | dsimp only
    | (with_reducible intro _ _ _; try dsimp only)
    | with_reducible intro _
    | split

theorem kept_execVmul {F : Fuses} {L : List Knot} {s t : State} (h : Kept F L s) (die : Nat) (v : Nat) (i : VIns) (e : execVmul die v i s = .next t) : Kept F L t := by
  unfold execVmul at e
  refine kept_guard ?_ e
  clear e
  try dsimp only
  repeat' first
    | with_reducible assumption
    | with_reducible apply kept_vIssue
    | with_reducible apply kept_foldl
    | with_reducible apply kept_foldl_fst
    | with_reducible apply kept_ite
    | with_reducible apply kept_foldl_ff
    | with_reducible apply kept_ite_fst
    | with_reducible apply kept_ite_ff
    | dsimp only
    | (with_reducible intro _ _ _; try dsimp only)
    | with_reducible intro _
    | split

theorem kept_execVfma {F : Fuses} {L : List Knot} {s t : State} (h : Kept F L s) (die : Nat) (v : Nat) (i : VIns) (e : execVfma die v i s = .next t) : Kept F L t := by
  unfold execVfma at e
  refine kept_guard ?_ e
  clear e
  try dsimp only
  repeat' first
    | with_reducible assumption
    | with_reducible apply kept_vIssue
    | with_reducible apply kept_foldl
    | with_reducible apply kept_foldl_fst
    | with_reducible apply kept_ite
    | with_reducible apply kept_foldl_ff
    | with_reducible apply kept_ite_fst
    | with_reducible apply kept_ite_ff
    | dsimp only
    | (with_reducible intro _ _ _; try dsimp only)
    | with_reducible intro _
    | split

theorem kept_execVfnma {F : Fuses} {L : List Knot} {s t : State} (h : Kept F L s) (die : Nat) (v : Nat) (i : VIns) (e : execVfnma die v i s = .next t) : Kept F L t := by
  unfold execVfnma at e
  refine kept_guard ?_ e
  clear e
  try dsimp only
  repeat' first
    | with_reducible assumption
    | with_reducible apply kept_vIssue
    | with_reducible apply kept_foldl
    | with_reducible apply kept_foldl_fst
    | with_reducible apply kept_ite
    | with_reducible apply kept_foldl_ff
    | with_reducible apply kept_ite_fst
    | with_reducible apply kept_ite_ff
    | dsimp only
    | (with_reducible intro _ _ _; try dsimp only)
    | with_reducible intro _
    | split

theorem kept_execVmin {F : Fuses} {L : List Knot} {s t : State} (h : Kept F L s) (die : Nat) (v : Nat) (i : VIns) (e : execVmin die v i s = .next t) : Kept F L t := by
  unfold execVmin at e
  refine kept_guard ?_ e
  clear e
  try dsimp only
  repeat' first
    | with_reducible assumption
    | with_reducible apply kept_vIssue
    | with_reducible apply kept_foldl
    | with_reducible apply kept_foldl_fst
    | with_reducible apply kept_ite
    | with_reducible apply kept_foldl_ff
    | with_reducible apply kept_ite_fst
    | with_reducible apply kept_ite_ff
    | dsimp only
    | (with_reducible intro _ _ _; try dsimp only)
    | with_reducible intro _
    | split

theorem kept_execVmax {F : Fuses} {L : List Knot} {s t : State} (h : Kept F L s) (die : Nat) (v : Nat) (i : VIns) (e : execVmax die v i s = .next t) : Kept F L t := by
  unfold execVmax at e
  refine kept_guard ?_ e
  clear e
  try dsimp only
  repeat' first
    | with_reducible assumption
    | with_reducible apply kept_vIssue
    | with_reducible apply kept_foldl
    | with_reducible apply kept_foldl_fst
    | with_reducible apply kept_ite
    | with_reducible apply kept_foldl_ff
    | with_reducible apply kept_ite_fst
    | with_reducible apply kept_ite_ff
    | dsimp only
    | (with_reducible intro _ _ _; try dsimp only)
    | with_reducible intro _
    | split

theorem kept_execVdiv {F : Fuses} {L : List Knot} {s t : State} (h : Kept F L s) (die : Nat) (v : Nat) (i : VIns) (e : execVdiv die v i s = .next t) : Kept F L t := by
  unfold execVdiv at e
  refine kept_guard ?_ e
  clear e
  try dsimp only
  repeat' first
    | with_reducible assumption
    | with_reducible apply kept_vIssue
    | with_reducible apply kept_foldl
    | with_reducible apply kept_foldl_fst
    | with_reducible apply kept_ite
    | with_reducible apply kept_foldl_ff
    | with_reducible apply kept_ite_fst
    | with_reducible apply kept_ite_ff
    | dsimp only
    | (with_reducible intro _ _ _; try dsimp only)
    | with_reducible intro _
    | split

theorem kept_execVsqrt {F : Fuses} {L : List Knot} {s t : State} (h : Kept F L s) (die : Nat) (v : Nat) (i : VIns) (e : execVsqrt die v i s = .next t) : Kept F L t := by
  unfold execVsqrt at e
  refine kept_guard ?_ e
  clear e
  try dsimp only
  repeat' first
    | with_reducible assumption
    | with_reducible apply kept_vIssue
    | with_reducible apply kept_foldl
    | with_reducible apply kept_foldl_fst
    | with_reducible apply kept_ite
    | with_reducible apply kept_foldl_ff
    | with_reducible apply kept_ite_fst
    | with_reducible apply kept_ite_ff
    | dsimp only
    | (with_reducible intro _ _ _; try dsimp only)
    | with_reducible intro _
    | split

theorem kept_execVcvt {F : Fuses} {L : List Knot} {s t : State} (h : Kept F L s) (die : Nat) (v : Nat) (i : VIns) (e : execVcvt die v i s = .next t) : Kept F L t := by
  unfold execVcvt at e
  refine kept_guard ?_ e
  clear e
  try dsimp only
  repeat' first
    | with_reducible assumption
    | with_reducible apply kept_vIssue
    | with_reducible apply kept_foldl
    | with_reducible apply kept_foldl_fst
    | with_reducible apply kept_ite
    | with_reducible apply kept_foldl_ff
    | with_reducible apply kept_ite_fst
    | with_reducible apply kept_ite_ff
    | dsimp only
    | (with_reducible intro _ _ _; try dsimp only)
    | with_reducible intro _
    | split

theorem kept_execVcvti {F : Fuses} {L : List Knot} {s t : State} (h : Kept F L s) (die : Nat) (v : Nat) (i : VIns) (e : execVcvti die v i s = .next t) : Kept F L t := by
  unfold execVcvti at e
  refine kept_guard ?_ e
  clear e
  try dsimp only
  repeat' first
    | with_reducible assumption
    | with_reducible apply kept_vIssue
    | with_reducible apply kept_foldl
    | with_reducible apply kept_foldl_fst
    | with_reducible apply kept_ite
    | with_reducible apply kept_foldl_ff
    | with_reducible apply kept_ite_fst
    | with_reducible apply kept_ite_ff
    | dsimp only
    | (with_reducible intro _ _ _; try dsimp only)
    | with_reducible intro _
    | split

theorem kept_execVldi {F : Fuses} {L : List Knot} {s t : State} (h : Kept F L s) (die : Nat) (v : Nat) (i : VIns) (e : execVldi die v i s = .next t) : Kept F L t := by
  unfold execVldi at e
  refine kept_guard ?_ e
  clear e
  try dsimp only
  repeat' first
    | with_reducible assumption
    | with_reducible apply kept_vIssue
    | with_reducible apply kept_foldl
    | with_reducible apply kept_foldl_fst
    | with_reducible apply kept_ite
    | with_reducible apply kept_foldl_ff
    | with_reducible apply kept_ite_fst
    | with_reducible apply kept_ite_ff
    | dsimp only
    | (with_reducible intro _ _ _; try dsimp only)
    | with_reducible intro _
    | split

theorem kept_execVcmp {F : Fuses} {L : List Knot} {s t : State} (h : Kept F L s) (die : Nat) (v : Nat) (i : VIns) (e : execVcmp die v i s = .next t) : Kept F L t := by
  unfold execVcmp at e
  refine kept_guard ?_ e
  clear e
  try dsimp only
  repeat' first
    | with_reducible assumption
    | with_reducible apply kept_vIssue
    | with_reducible apply kept_foldl
    | with_reducible apply kept_foldl_fst
    | with_reducible apply kept_ite
    | with_reducible apply kept_foldl_ff
    | with_reducible apply kept_ite_fst
    | with_reducible apply kept_ite_ff
    | dsimp only
    | (with_reducible intro _ _ _; try dsimp only)
    | with_reducible intro _
    | split

theorem kept_execVsel {F : Fuses} {L : List Knot} {s t : State} (h : Kept F L s) (die : Nat) (v : Nat) (i : VIns) (e : execVsel die v i s = .next t) : Kept F L t := by
  unfold execVsel at e
  refine kept_guard ?_ e
  clear e
  try dsimp only
  repeat' first
    | with_reducible assumption
    | with_reducible apply kept_vIssue
    | with_reducible apply kept_foldl
    | with_reducible apply kept_foldl_fst
    | with_reducible apply kept_ite
    | with_reducible apply kept_foldl_ff
    | with_reducible apply kept_ite_fst
    | with_reducible apply kept_ite_ff
    | dsimp only
    | (with_reducible intro _ _ _; try dsimp only)
    | with_reducible intro _
    | split

theorem kept_execViadd {F : Fuses} {L : List Knot} {s t : State} (h : Kept F L s) (die : Nat) (v : Nat) (i : VIns) (e : execViadd die v i s = .next t) : Kept F L t := by
  unfold execViadd at e
  refine kept_guard ?_ e
  clear e
  try dsimp only
  repeat' first
    | with_reducible assumption
    | with_reducible apply kept_vIssue
    | with_reducible apply kept_foldl
    | with_reducible apply kept_foldl_fst
    | with_reducible apply kept_ite
    | with_reducible apply kept_foldl_ff
    | with_reducible apply kept_ite_fst
    | with_reducible apply kept_ite_ff
    | dsimp only
    | (with_reducible intro _ _ _; try dsimp only)
    | with_reducible intro _
    | split

theorem kept_execVisub {F : Fuses} {L : List Knot} {s t : State} (h : Kept F L s) (die : Nat) (v : Nat) (i : VIns) (e : execVisub die v i s = .next t) : Kept F L t := by
  unfold execVisub at e
  refine kept_guard ?_ e
  clear e
  try dsimp only
  repeat' first
    | with_reducible assumption
    | with_reducible apply kept_vIssue
    | with_reducible apply kept_foldl
    | with_reducible apply kept_foldl_fst
    | with_reducible apply kept_ite
    | with_reducible apply kept_foldl_ff
    | with_reducible apply kept_ite_fst
    | with_reducible apply kept_ite_ff
    | dsimp only
    | (with_reducible intro _ _ _; try dsimp only)
    | with_reducible intro _
    | split

theorem kept_execVand {F : Fuses} {L : List Knot} {s t : State} (h : Kept F L s) (die : Nat) (v : Nat) (i : VIns) (e : execVand die v i s = .next t) : Kept F L t := by
  unfold execVand at e
  refine kept_guard ?_ e
  clear e
  try dsimp only
  repeat' first
    | with_reducible assumption
    | with_reducible apply kept_vIssue
    | with_reducible apply kept_foldl
    | with_reducible apply kept_foldl_fst
    | with_reducible apply kept_ite
    | with_reducible apply kept_foldl_ff
    | with_reducible apply kept_ite_fst
    | with_reducible apply kept_ite_ff
    | dsimp only
    | (with_reducible intro _ _ _; try dsimp only)
    | with_reducible intro _
    | split

theorem kept_execVor {F : Fuses} {L : List Knot} {s t : State} (h : Kept F L s) (die : Nat) (v : Nat) (i : VIns) (e : execVor die v i s = .next t) : Kept F L t := by
  unfold execVor at e
  refine kept_guard ?_ e
  clear e
  try dsimp only
  repeat' first
    | with_reducible assumption
    | with_reducible apply kept_vIssue
    | with_reducible apply kept_foldl
    | with_reducible apply kept_foldl_fst
    | with_reducible apply kept_ite
    | with_reducible apply kept_foldl_ff
    | with_reducible apply kept_ite_fst
    | with_reducible apply kept_ite_ff
    | dsimp only
    | (with_reducible intro _ _ _; try dsimp only)
    | with_reducible intro _
    | split

theorem kept_execVxor {F : Fuses} {L : List Knot} {s t : State} (h : Kept F L s) (die : Nat) (v : Nat) (i : VIns) (e : execVxor die v i s = .next t) : Kept F L t := by
  unfold execVxor at e
  refine kept_guard ?_ e
  clear e
  try dsimp only
  repeat' first
    | with_reducible assumption
    | with_reducible apply kept_vIssue
    | with_reducible apply kept_foldl
    | with_reducible apply kept_foldl_fst
    | with_reducible apply kept_ite
    | with_reducible apply kept_foldl_ff
    | with_reducible apply kept_ite_fst
    | with_reducible apply kept_ite_ff
    | dsimp only
    | (with_reducible intro _ _ _; try dsimp only)
    | with_reducible intro _
    | split

theorem kept_execVshl {F : Fuses} {L : List Knot} {s t : State} (h : Kept F L s) (die : Nat) (v : Nat) (i : VIns) (e : execVshl die v i s = .next t) : Kept F L t := by
  unfold execVshl at e
  refine kept_guard ?_ e
  clear e
  try dsimp only
  repeat' first
    | with_reducible assumption
    | with_reducible apply kept_vIssue
    | with_reducible apply kept_foldl
    | with_reducible apply kept_foldl_fst
    | with_reducible apply kept_ite
    | with_reducible apply kept_foldl_ff
    | with_reducible apply kept_ite_fst
    | with_reducible apply kept_ite_ff
    | dsimp only
    | (with_reducible intro _ _ _; try dsimp only)
    | with_reducible intro _
    | split

theorem kept_execVshr {F : Fuses} {L : List Knot} {s t : State} (h : Kept F L s) (die : Nat) (v : Nat) (i : VIns) (e : execVshr die v i s = .next t) : Kept F L t := by
  unfold execVshr at e
  refine kept_guard ?_ e
  clear e
  try dsimp only
  repeat' first
    | with_reducible assumption
    | with_reducible apply kept_vIssue
    | with_reducible apply kept_foldl
    | with_reducible apply kept_foldl_fst
    | with_reducible apply kept_ite
    | with_reducible apply kept_foldl_ff
    | with_reducible apply kept_ite_fst
    | with_reducible apply kept_ite_ff
    | dsimp only
    | (with_reducible intro _ _ _; try dsimp only)
    | with_reducible intro _
    | split

theorem kept_execVredsum {F : Fuses} {L : List Knot} {s t : State} (h : Kept F L s) (die : Nat) (v : Nat) (i : VIns) (e : execVredsum die v i s = .next t) : Kept F L t := by
  unfold execVredsum at e
  refine kept_guard ?_ e
  clear e
  try dsimp only
  repeat' first
    | with_reducible assumption
    | with_reducible apply kept_vIssue
    | with_reducible apply kept_foldl
    | with_reducible apply kept_foldl_fst
    | with_reducible apply kept_ite
    | with_reducible apply kept_foldl_ff
    | with_reducible apply kept_ite_fst
    | with_reducible apply kept_ite_ff
    | dsimp only
    | (with_reducible intro _ _ _; try dsimp only)
    | with_reducible intro _
    | split

theorem kept_execVredmax {F : Fuses} {L : List Knot} {s t : State} (h : Kept F L s) (die : Nat) (v : Nat) (i : VIns) (e : execVredmax die v i s = .next t) : Kept F L t := by
  unfold execVredmax at e
  refine kept_guard ?_ e
  clear e
  try dsimp only
  repeat' first
    | with_reducible assumption
    | with_reducible apply kept_vIssue
    | with_reducible apply kept_foldl
    | with_reducible apply kept_foldl_fst
    | with_reducible apply kept_ite
    | with_reducible apply kept_foldl_ff
    | with_reducible apply kept_ite_fst
    | with_reducible apply kept_ite_ff
    | dsimp only
    | (with_reducible intro _ _ _; try dsimp only)
    | with_reducible intro _
    | split

theorem kept_execVbcast {F : Fuses} {L : List Knot} {s t : State} (h : Kept F L s) (die : Nat) (v : Nat) (i : VIns) (e : execVbcast die v i s = .next t) : Kept F L t := by
  unfold execVbcast at e
  refine kept_guard ?_ e
  clear e
  try dsimp only
  repeat' first
    | with_reducible assumption
    | with_reducible apply kept_vIssue
    | with_reducible apply kept_foldl
    | with_reducible apply kept_foldl_fst
    | with_reducible apply kept_ite
    | with_reducible apply kept_foldl_ff
    | with_reducible apply kept_ite_fst
    | with_reducible apply kept_ite_ff
    | dsimp only
    | (with_reducible intro _ _ _; try dsimp only)
    | with_reducible intro _
    | split

theorem kept_execAset {F : Fuses} {L : List Knot} {s t : State} (h : Kept F L s) (die : Nat) (v : Nat) (ar : BitVec 3) (base : BitVec 32) (stp : BitVec 14) (e : execAset die v ar base stp s = .next t) : Kept F L t := by
  unfold execAset at e
  refine kept_guard ?_ e
  clear e
  try dsimp only
  repeat' first
    | with_reducible assumption
    | with_reducible apply kept_aset
    | with_reducible apply kept_foldl
    | with_reducible apply kept_foldl_fst
    | with_reducible apply kept_ite
    | with_reducible apply kept_foldl_ff
    | with_reducible apply kept_ite_fst
    | with_reducible apply kept_ite_ff
    | dsimp only
    | (with_reducible intro _ _ _; try dsimp only)
    | with_reducible intro _
    | split

theorem kept_execPlArm {F : Fuses} {L : List Knot} {s t : State} (h : Kept F L s) (die : Nat) (sc : Nat) (rd : BitVec 5) (rs1 : BitVec 5) (rs2 : BitVec 5) (e : execPlArm die sc rd rs1 rs2 s = .next t) : Kept F L t := by
  unfold execPlArm at e
  refine kept_guard ?_ e
  clear e
  try dsimp only
  repeat' first
    | with_reducible assumption
    | with_reducible apply kept_plArm
    | with_reducible apply kept_foldl
    | with_reducible apply kept_foldl_fst
    | with_reducible apply kept_ite
    | with_reducible apply kept_foldl_ff
    | with_reducible apply kept_ite_fst
    | with_reducible apply kept_ite_ff
    | dsimp only
    | (with_reducible intro _ _ _; try dsimp only)
    | with_reducible intro _
    | split

theorem kept_execPlStop {F : Fuses} {L : List Knot} {s t : State} (h : Kept F L s) (die : Nat) (sc : Nat) (rd : BitVec 5) (rs1 : BitVec 5) (e : execPlStop die sc rd rs1 s = .next t) : Kept F L t := by
  unfold execPlStop at e
  refine kept_guard ?_ e
  clear e
  try dsimp only
  repeat' first
    | with_reducible assumption
    | with_reducible apply kept_plStop
    | with_reducible apply kept_foldl
    | with_reducible apply kept_foldl_fst
    | with_reducible apply kept_ite
    | with_reducible apply kept_foldl_ff
    | with_reducible apply kept_ite_fst
    | with_reducible apply kept_ite_ff
    | dsimp only
    | (with_reducible intro _ _ _; try dsimp only)
    | with_reducible intro _
    | split

theorem kept_execPlStat {F : Fuses} {L : List Knot} {s t : State} (h : Kept F L s) (die : Nat) (sc : Nat) (rd : BitVec 5) (rs1 : BitVec 5) (e : execPlStat die sc rd rs1 s = .next t) : Kept F L t := by
  unfold execPlStat at e
  refine kept_guard ?_ e
  clear e
  try dsimp only
  repeat' first
    | with_reducible assumption
    | with_reducible apply kept_plStat
    | with_reducible apply kept_foldl
    | with_reducible apply kept_foldl_fst
    | with_reducible apply kept_ite
    | with_reducible apply kept_foldl_ff
    | with_reducible apply kept_ite_fst
    | with_reducible apply kept_ite_ff
    | dsimp only
    | (with_reducible intro _ _ _; try dsimp only)
    | with_reducible intro _
    | split

theorem kept_execFxStart {F : Fuses} {L : List Knot} {s t : State} (h : Kept F L s) (die : Nat) (sc : Nat) (rd : BitVec 5) (e : execFxStart die sc rd s = .next t) : Kept F L t := by
  unfold execFxStart at e
  refine kept_guard ?_ e
  clear e
  try dsimp only
  repeat' first
    | with_reducible assumption
    | with_reducible apply kept_fxStart
    | with_reducible apply kept_foldl
    | with_reducible apply kept_foldl_fst
    | with_reducible apply kept_ite
    | with_reducible apply kept_foldl_ff
    | with_reducible apply kept_ite_fst
    | with_reducible apply kept_ite_ff
    | dsimp only
    | (with_reducible intro _ _ _; try dsimp only)
    | with_reducible intro _
    | split

theorem kept_execFxDma {F : Fuses} {L : List Knot} {s t : State} (h : Kept F L s) (die : Nat) (sc : Nat) (rd : BitVec 5) (rs1 : BitVec 5) (rs2 : BitVec 5) (e : execFxDma die sc rd rs1 rs2 s = .next t) : Kept F L t := by
  unfold execFxDma at e
  refine kept_guard ?_ e
  clear e
  try dsimp only
  repeat' first
    | with_reducible assumption
    | with_reducible apply kept_fxDma
    | with_reducible apply kept_foldl
    | with_reducible apply kept_foldl_fst
    | with_reducible apply kept_ite
    | with_reducible apply kept_foldl_ff
    | with_reducible apply kept_ite_fst
    | with_reducible apply kept_ite_ff
    | dsimp only
    | (with_reducible intro _ _ _; try dsimp only)
    | with_reducible intro _
    | split

theorem kept_execFxDpoll {F : Fuses} {L : List Knot} {s t : State} (h : Kept F L s) (die : Nat) (sc : Nat) (rd : BitVec 5) (rs1 : BitVec 5) (e : execFxDpoll die sc rd rs1 s = .next t) : Kept F L t := by
  unfold execFxDpoll at e
  refine kept_guard ?_ e
  clear e
  try dsimp only
  repeat' first
    | with_reducible assumption
    | with_reducible apply kept_fxDpoll
    | with_reducible apply kept_foldl
    | with_reducible apply kept_foldl_fst
    | with_reducible apply kept_ite
    | with_reducible apply kept_foldl_ff
    | with_reducible apply kept_ite_fst
    | with_reducible apply kept_ite_ff
    | dsimp only
    | (with_reducible intro _ _ _; try dsimp only)
    | with_reducible intro _
    | split

theorem kept_execFxBar {F : Fuses} {L : List Knot} {s t : State} (h : Kept F L s) (die : Nat) (sc : Nat) (rd : BitVec 5) (rs1 : BitVec 5) (e : execFxBar die sc rd rs1 s = .next t) : Kept F L t := by
  unfold execFxBar at e
  refine kept_guard ?_ e
  clear e
  try dsimp only
  repeat' first
    | with_reducible assumption
    | with_reducible apply kept_fxBar
    | with_reducible apply kept_foldl
    | with_reducible apply kept_foldl_fst
    | with_reducible apply kept_ite
    | with_reducible apply kept_foldl_ff
    | with_reducible apply kept_ite_fst
    | with_reducible apply kept_ite_ff
    | dsimp only
    | (with_reducible intro _ _ _; try dsimp only)
    | with_reducible intro _
    | split

theorem kept_execBarrierTimeout {F : Fuses} {L : List Knot} {s t : State} (h : Kept F L s) (die : Nat) (sc : Nat) (e : execBarrierTimeout die sc s = .next t) : Kept F L t := by
  unfold execBarrierTimeout at e
  refine kept_guard ?_ e
  clear e
  try dsimp only
  repeat' first
    | with_reducible assumption
    | with_reducible apply kept_barTimeout
    | with_reducible apply kept_foldl
    | with_reducible apply kept_foldl_fst
    | with_reducible apply kept_ite
    | with_reducible apply kept_foldl_ff
    | with_reducible apply kept_ite_fst
    | with_reducible apply kept_ite_ff
    | dsimp only
    | (with_reducible intro _ _ _; try dsimp only)
    | with_reducible intro _
    | split

theorem kept_execFxSpsend {F : Fuses} {L : List Knot} {s t : State} (h : Kept F L s) (die : Nat) (sc : Nat) (rd : BitVec 5) (rs1 : BitVec 5) (rs2 : BitVec 5) (e : execFxSpsend die sc rd rs1 rs2 s = .next t) : Kept F L t := by
  unfold execFxSpsend at e
  refine kept_guard ?_ e
  clear e
  try dsimp only
  repeat' first
    | with_reducible assumption
    | with_reducible apply kept_fxSpsend
    | with_reducible apply kept_foldl
    | with_reducible apply kept_foldl_fst
    | with_reducible apply kept_ite
    | with_reducible apply kept_foldl_ff
    | with_reducible apply kept_ite_fst
    | with_reducible apply kept_ite_ff
    | dsimp only
    | (with_reducible intro _ _ _; try dsimp only)
    | with_reducible intro _
    | split

theorem kept_execFxSprecv {F : Fuses} {L : List Knot} {s t : State} (h : Kept F L s) (die : Nat) (sc : Nat) (rd : BitVec 5) (e : execFxSprecv die sc rd s = .next t) : Kept F L t := by
  unfold execFxSprecv at e
  refine kept_guard ?_ e
  clear e
  try dsimp only
  repeat' first
    | with_reducible assumption
    | with_reducible apply kept_fxSprecv
    | with_reducible apply kept_foldl
    | with_reducible apply kept_foldl_fst
    | with_reducible apply kept_ite
    | with_reducible apply kept_foldl_ff
    | with_reducible apply kept_ite_fst
    | with_reducible apply kept_ite_ff
    | dsimp only
    | (with_reducible intro _ _ _; try dsimp only)
    | with_reducible intro _
    | split

theorem kept_execSCoreTrap {F : Fuses} {L : List Knot} {s t : State} (h : Kept F L s) (die : Nat) (sc : Nat) (e : execSCoreTrap die sc s = .next t) : Kept F L t := by
  unfold execSCoreTrap at e
  refine kept_guard ?_ e
  clear e
  try dsimp only
  repeat' first
    | with_reducible assumption
    | with_reducible apply kept_monitorTrap
    | with_reducible apply kept_foldl
    | with_reducible apply kept_foldl_fst
    | with_reducible apply kept_ite
    | with_reducible apply kept_foldl_ff
    | with_reducible apply kept_ite_fst
    | with_reducible apply kept_ite_ff
    | dsimp only
    | (with_reducible intro _ _ _; try dsimp only)
    | with_reducible intro _
    | split

theorem kept_execScCtrlWrite {F : Fuses} {L : List Knot} {s t : State} (h : Kept F L s) (src : Source) (site : Nat) (sc : Nat) (val : W64) (e : execScCtrlWrite src site sc val s = .next t) : Kept F L t := by
  unfold execScCtrlWrite at e
  refine kept_guard ?_ e
  clear e
  try dsimp only
  repeat' first
    | with_reducible assumption
    | with_reducible apply kept_scCtrl
    | with_reducible apply kept_foldl
    | with_reducible apply kept_foldl_fst
    | with_reducible apply kept_ite
    | with_reducible apply kept_foldl_ff
    | with_reducible apply kept_ite_fst
    | with_reducible apply kept_ite_ff
    | dsimp only
    | (with_reducible intro _ _ _; try dsimp only)
    | with_reducible intro _
    | split

theorem kept_execPlaceDone {F : Fuses} {L : List Knot} {s t : State} (h : Kept F L s) (die : Nat) (place : Nat) (e : execPlaceDone die place s = .next t) : Kept F L t := by
  unfold execPlaceDone at e
  refine kept_guard ?_ e
  clear e
  try dsimp only
  repeat' first
    | with_reducible assumption
    | with_reducible apply kept_placeDone
    | with_reducible apply kept_foldl
    | with_reducible apply kept_foldl_fst
    | with_reducible apply kept_ite
    | with_reducible apply kept_foldl_ff
    | with_reducible apply kept_ite_fst
    | with_reducible apply kept_ite_ff
    | dsimp only
    | (with_reducible intro _ _ _; try dsimp only)
    | with_reducible intro _
    | split

theorem kept_execSpadLinearWrite {F : Fuses} {L : List Knot} {s t : State} (h : Kept F L s) (src : Source) (site : Nat) (val : W32) (e : execSpadLinearWrite src site val s = .next t) : Kept F L t := by
  unfold execSpadLinearWrite at e
  refine kept_guard ?_ e
  clear e
  try dsimp only
  repeat' first
    | with_reducible assumption
    | with_reducible apply kept_spadLinear
    | with_reducible apply kept_foldl
    | with_reducible apply kept_foldl_fst
    | with_reducible apply kept_ite
    | with_reducible apply kept_foldl_ff
    | with_reducible apply kept_ite_fst
    | with_reducible apply kept_ite_ff
    | dsimp only
    | (with_reducible intro _ _ _; try dsimp only)
    | with_reducible intro _
    | split

theorem kept_execSpadPwrWrite {F : Fuses} {L : List Knot} {s t : State} (h : Kept F L s) (src : Source) (site : Nat) (val : W32) (e : execSpadPwrWrite src site val s = .next t) : Kept F L t := by
  unfold execSpadPwrWrite at e
  refine kept_guard ?_ e
  clear e
  try dsimp only
  repeat' first
    | with_reducible assumption
    | with_reducible apply kept_spadPwr
    | with_reducible apply kept_foldl
    | with_reducible apply kept_foldl_fst
    | with_reducible apply kept_ite
    | with_reducible apply kept_foldl_ff
    | with_reducible apply kept_ite_fst
    | with_reducible apply kept_ite_ff
    | dsimp only
    | (with_reducible intro _ _ _; try dsimp only)
    | with_reducible intro _
    | split

theorem kept_execSpadGroupReady {F : Fuses} {L : List Knot} {s t : State} (h : Kept F L s) (die : Nat) (group : Nat) (e : execSpadGroupReady die group s = .next t) : Kept F L t := by
  unfold execSpadGroupReady at e
  refine kept_guard ?_ e
  clear e
  try dsimp only
  repeat' first
    | with_reducible assumption
    | with_reducible apply kept_groupReady
    | with_reducible apply kept_foldl
    | with_reducible apply kept_foldl_fst
    | with_reducible apply kept_ite
    | with_reducible apply kept_foldl_ff
    | with_reducible apply kept_ite_fst
    | with_reducible apply kept_ite_ff
    | dsimp only
    | (with_reducible intro _ _ _; try dsimp only)
    | with_reducible intro _
    | split

theorem kept_execSpadScrubStart {F : Fuses} {L : List Knot} {s t : State} (h : Kept F L s) (src : Source) (site : Nat) (val : W32) (e : execSpadScrubStart src site val s = .next t) : Kept F L t := by
  unfold execSpadScrubStart at e
  refine kept_guard ?_ e
  clear e
  try dsimp only
  repeat' first
    | with_reducible assumption
    | with_reducible apply kept_spadScrubWrite
    | with_reducible apply kept_foldl
    | with_reducible apply kept_foldl_fst
    | with_reducible apply kept_ite
    | with_reducible apply kept_foldl_ff
    | with_reducible apply kept_ite_fst
    | with_reducible apply kept_ite_ff
    | dsimp only
    | (with_reducible intro _ _ _; try dsimp only)
    | with_reducible intro _
    | split

theorem kept_execSpadScrubDone {F : Fuses} {L : List Knot} {s t : State} (h : Kept F L s) (die : Nat) (badLine : Option Nat) (e : execSpadScrubDone die badLine s = .next t) : Kept F L t := by
  unfold execSpadScrubDone at e
  refine kept_guard ?_ e
  clear e
  try dsimp only
  repeat' first
    | with_reducible assumption
    | with_reducible apply kept_spadScrubDone
    | with_reducible apply kept_foldl
    | with_reducible apply kept_foldl_fst
    | with_reducible apply kept_ite
    | with_reducible apply kept_foldl_ff
    | with_reducible apply kept_ite_fst
    | with_reducible apply kept_ite_ff
    | dsimp only
    | (with_reducible intro _ _ _; try dsimp only)
    | with_reducible intro _
    | split

theorem kept_execTokenDepart {F : Fuses} {L : List Knot} {s t : State} (h : Kept F L s) (die : Nat) (place : Nat) (lane : Nat) (e : execTokenDepart die place lane s = .next t) : Kept F L t := by
  unfold execTokenDepart at e
  refine kept_guard ?_ e
  clear e
  try dsimp only
  repeat' first
    | with_reducible assumption
    | with_reducible apply kept_depart
    | with_reducible apply kept_foldl
    | with_reducible apply kept_foldl_fst
    | with_reducible apply kept_ite
    | with_reducible apply kept_foldl_ff
    | with_reducible apply kept_ite_fst
    | with_reducible apply kept_ite_ff
    | dsimp only
    | (with_reducible intro _ _ _; try dsimp only)
    | with_reducible intro _
    | split

theorem kept_execTokenArrive {F : Fuses} {L : List Knot} {s t : State} (h : Kept F L s) (die : Nat) (place : Nat) (lane : Nat) (tok : Token) (sideband : Ecc) (payload : Ecc) (e : execTokenArrive die place lane tok sideband payload s = .next t) : Kept F L t := by
  unfold execTokenArrive at e
  refine kept_guard ?_ e
  clear e
  try dsimp only
  repeat' first
    | with_reducible assumption
    | with_reducible apply kept_arrive
    | with_reducible apply kept_foldl
    | with_reducible apply kept_foldl_fst
    | with_reducible apply kept_ite
    | with_reducible apply kept_foldl_ff
    | with_reducible apply kept_ite_fst
    | with_reducible apply kept_ite_ff
    | dsimp only
    | (with_reducible intro _ _ _; try dsimp only)
    | with_reducible intro _
    | split

theorem kept_execCreditReturn {F : Fuses} {L : List Knot} {s t : State} (h : Kept F L s) (die : Nat) (place : Nat) (lane : Nat) (e : execCreditReturn die place lane s = .next t) : Kept F L t := by
  unfold execCreditReturn at e
  refine kept_guard ?_ e
  clear e
  try dsimp only
  repeat' first
    | with_reducible assumption
    | with_reducible apply kept_creditBack
    | with_reducible apply kept_foldl
    | with_reducible apply kept_foldl_fst
    | with_reducible apply kept_ite
    | with_reducible apply kept_foldl_ff
    | with_reducible apply kept_ite_fst
    | with_reducible apply kept_ite_ff
    | dsimp only
    | (with_reducible intro _ _ _; try dsimp only)
    | with_reducible intro _
    | split

theorem kept_execTload {F : Fuses} {L : List Knot} {s t : State} (h : Kept F L s) (die : Nat) (place : Nat) (slot : BitVec 3) (addr : BitVec 36) (e : execTload die place slot addr s = .next t) : Kept F L t := by
  unfold execTload at e
  refine kept_guard ?_ e
  clear e
  try dsimp only
  repeat' first
    | with_reducible assumption
    | with_reducible apply kept_tload
    | with_reducible apply kept_foldl
    | with_reducible apply kept_foldl_fst
    | with_reducible apply kept_ite
    | with_reducible apply kept_foldl_ff
    | with_reducible apply kept_ite_fst
    | with_reducible apply kept_ite_ff
    | dsimp only
    | (with_reducible intro _ _ _; try dsimp only)
    | with_reducible intro _
    | split

theorem kept_execTloadComplete {F : Fuses} {L : List Knot} {s t : State} (h : Kept F L s) (die : Nat) (place : Nat) (slot : BitVec 3) (e : execTloadComplete die place slot s = .next t) : Kept F L t := by
  unfold execTloadComplete at e
  refine kept_guard ?_ e
  clear e
  try dsimp only
  repeat' first
    | with_reducible assumption
    | with_reducible apply kept_tloadDone
    | with_reducible apply kept_foldl
    | with_reducible apply kept_foldl_fst
    | with_reducible apply kept_ite
    | with_reducible apply kept_foldl_ff
    | with_reducible apply kept_ite_fst
    | with_reducible apply kept_ite_ff
    | dsimp only
    | (with_reducible intro _ _ _; try dsimp only)
    | with_reducible intro _
    | split

theorem kept_execTurnSwitch {F : Fuses} {L : List Knot} {s t : State} (h : Kept F L s) (die : Nat) (place : Nat) (e : execTurnSwitch die place s = .next t) : Kept F L t := by
  unfold execTurnSwitch at e
  refine kept_guard ?_ e
  clear e
  try dsimp only
  repeat' first
    | with_reducible assumption
    | with_reducible apply kept_turnSwitch
    | with_reducible apply kept_foldl
    | with_reducible apply kept_foldl_fst
    | with_reducible apply kept_ite
    | with_reducible apply kept_foldl_ff
    | with_reducible apply kept_ite_fst
    | with_reducible apply kept_ite_ff
    | dsimp only
    | (with_reducible intro _ _ _; try dsimp only)
    | with_reducible intro _
    | split

theorem kept_execPlaceStart {F : Fuses} {L : List Knot} {s t : State} (h : Kept F L s) (die : Nat) (e : execPlaceStart die s = .next t) : Kept F L t := by
  unfold execPlaceStart at e
  refine kept_guard ?_ e
  clear e
  try dsimp only
  repeat' first
    | with_reducible assumption
    | with_reducible apply kept_placeStart
    | with_reducible apply kept_foldl
    | with_reducible apply kept_foldl_fst
    | with_reducible apply kept_ite
    | with_reducible apply kept_foldl_ff
    | with_reducible apply kept_ite_fst
    | with_reducible apply kept_ite_ff
    | dsimp only
    | (with_reducible intro _ _ _; try dsimp only)
    | with_reducible intro _
    | split

theorem kept_execDrainedReport {F : Fuses} {L : List Knot} {s t : State} (h : Kept F L s) (die : Nat) (e : execDrainedReport die s = .next t) : Kept F L t := by
  unfold execDrainedReport at e
  refine kept_guard ?_ e
  clear e
  try dsimp only
  repeat' first
    | with_reducible assumption
    | with_reducible apply kept_drainedReport
    | with_reducible apply kept_foldl
    | with_reducible apply kept_foldl_fst
    | with_reducible apply kept_ite
    | with_reducible apply kept_foldl_ff
    | with_reducible apply kept_ite_fst
    | with_reducible apply kept_ite_ff
    | dsimp only
    | (with_reducible intro _ _ _; try dsimp only)
    | with_reducible intro _
    | split

theorem kept_execDrainForced {F : Fuses} {L : List Knot} {s t : State} (h : Kept F L s) (part : Nat) (e : execDrainForced part s = .next t) : Kept F L t := by
  unfold execDrainForced at e
  refine kept_guard ?_ e
  clear e
  try dsimp only
  repeat' first
    | with_reducible assumption
    | with_reducible apply kept_drainForced
    | with_reducible apply kept_foldl
    | with_reducible apply kept_foldl_fst
    | with_reducible apply kept_ite
    | with_reducible apply kept_foldl_ff
    | with_reducible apply kept_ite_fst
    | with_reducible apply kept_ite_ff
    | dsimp only
    | (with_reducible intro _ _ _; try dsimp only)
    | with_reducible intro _
    | split

theorem kept_execWatchdogIdle {F : Fuses} {L : List Knot} {s t : State} (h : Kept F L s) (die : Nat) (e : execWatchdogIdle die s = .next t) : Kept F L t := by
  unfold execWatchdogIdle at e
  refine kept_guard ?_ e
  clear e
  try dsimp only
  repeat' first
    | with_reducible assumption
    | with_reducible apply kept_foldl
    | with_reducible apply kept_foldl_fst
    | with_reducible apply kept_ite
    | with_reducible apply kept_foldl_ff
    | with_reducible apply kept_ite_fst
    | with_reducible apply kept_ite_ff
    | dsimp only
    | (with_reducible intro _ _ _; try dsimp only)
    | with_reducible intro _
    | split
    | with_reducible apply kept_watchdogIdle

theorem kept_execQuantumExpire {F : Fuses} {L : List Knot} {s t : State} (h : Kept F L s) (part : Nat) (e : execQuantumExpire part s = .next t) : Kept F L t := by
  unfold execQuantumExpire at e
  refine kept_guard ?_ e
  clear e
  try dsimp only
  repeat' first
    | with_reducible assumption
    | with_reducible apply kept_quantumExpire
    | with_reducible apply kept_foldl
    | with_reducible apply kept_foldl_fst
    | with_reducible apply kept_ite
    | with_reducible apply kept_foldl_ff
    | with_reducible apply kept_ite_fst
    | with_reducible apply kept_ite_ff
    | dsimp only
    | (with_reducible intro _ _ _; try dsimp only)
    | with_reducible intro _
    | split

theorem kept_execContextSwitch {F : Fuses} {L : List Knot} {s t : State} (h : Kept F L s) (part : Nat) (e : execContextSwitch part s = .next t) : Kept F L t := by
  unfold execContextSwitch at e
  refine kept_guard ?_ e
  clear e
  try dsimp only
  repeat' first
    | with_reducible assumption
    | with_reducible apply kept_contextSwitch
    | with_reducible apply kept_foldl
    | with_reducible apply kept_foldl_fst
    | with_reducible apply kept_ite
    | with_reducible apply kept_foldl_ff
    | with_reducible apply kept_ite_fst
    | with_reducible apply kept_ite_ff
    | dsimp only
    | (with_reducible intro _ _ _; try dsimp only)
    | with_reducible intro _
    | split

theorem kept_execLandingCheck {F : Fuses} {L : List Knot} {s t : State} (h : Kept F L s) (die : Nat) (e : execLandingCheck die s = .next t) : Kept F L t := by
  unfold execLandingCheck at e
  refine kept_guard ?_ e
  clear e
  try dsimp only
  repeat' first
    | with_reducible assumption
    | with_reducible apply kept_landTest
    | with_reducible apply kept_foldl
    | with_reducible apply kept_foldl_fst
    | with_reducible apply kept_ite
    | with_reducible apply kept_foldl_ff
    | with_reducible apply kept_ite_fst
    | with_reducible apply kept_ite_ff
    | dsimp only
    | (with_reducible intro _ _ _; try dsimp only)
    | with_reducible intro _
    | split

theorem kept_execSchSnapshot {F : Fuses} {L : List Knot} {s t : State} (h : Kept F L s) (src : Source) (site : Nat) (val : W32) (e : execSchSnapshot src site val s = .next t) : Kept F L t := by
  unfold execSchSnapshot at e
  refine kept_guard ?_ e
  clear e
  try dsimp only
  repeat' first
    | with_reducible assumption
    | with_reducible apply kept_snapshot
    | with_reducible apply kept_foldl
    | with_reducible apply kept_foldl_fst
    | with_reducible apply kept_ite
    | with_reducible apply kept_foldl_ff
    | with_reducible apply kept_ite_fst
    | with_reducible apply kept_ite_ff
    | dsimp only
    | (with_reducible intro _ _ _; try dsimp only)
    | with_reducible intro _
    | split

theorem kept_execSchMatchArm {F : Fuses} {L : List Knot} {s t : State} (h : Kept F L s) (src : Source) (site : Nat) (val : W64) (e : execSchMatchArm src site val s = .next t) : Kept F L t := by
  unfold execSchMatchArm at e
  refine kept_guard ?_ e
  clear e
  try dsimp only
  repeat' first
    | with_reducible assumption
    | with_reducible apply kept_matchArm
    | with_reducible apply kept_foldl
    | with_reducible apply kept_foldl_fst
    | with_reducible apply kept_ite
    | with_reducible apply kept_foldl_ff
    | with_reducible apply kept_ite_fst
    | with_reducible apply kept_ite_ff
    | dsimp only
    | (with_reducible intro _ _ _; try dsimp only)
    | with_reducible intro _
    | split

theorem kept_execSchMatchResolve {F : Fuses} {L : List Knot} {s t : State} (h : Kept F L s) (die : Nat) (e : execSchMatchResolve die s = .next t) : Kept F L t := by
  unfold execSchMatchResolve at e
  refine kept_guard ?_ e
  clear e
  try dsimp only
  repeat' first
    | with_reducible assumption
    | with_reducible apply kept_matchDone
    | with_reducible apply kept_foldl
    | with_reducible apply kept_foldl_fst
    | with_reducible apply kept_ite
    | with_reducible apply kept_foldl_ff
    | with_reducible apply kept_ite_fst
    | with_reducible apply kept_ite_ff
    | dsimp only
    | (with_reducible intro _ _ _; try dsimp only)
    | with_reducible intro _
    | split

theorem kept_execSlowDieEval {F : Fuses} {L : List Knot} {s t : State} (h : Kept F L s)  (e : execSlowDieEval s = .next t) : Kept F L t := by
  unfold execSlowDieEval at e
  refine kept_guard ?_ e
  clear e
  try dsimp only
  repeat' first
    | with_reducible assumption
    | with_reducible apply kept_slowAll
    | with_reducible apply kept_foldl
    | with_reducible apply kept_foldl_fst
    | with_reducible apply kept_ite
    | with_reducible apply kept_foldl_ff
    | with_reducible apply kept_ite_fst
    | with_reducible apply kept_ite_ff
    | dsimp only
    | (with_reducible intro _ _ _; try dsimp only)
    | with_reducible intro _
    | split

theorem kept_execDmaIssue {F : Fuses} {L : List Knot} {s t : State} (h : Kept F L s) (die : Nat) (e : execDmaIssue die s = .next t) : Kept F L t := by
  unfold execDmaIssue at e
  refine kept_guard ?_ e
  clear e
  try dsimp only
  repeat' first
    | with_reducible assumption
    | with_reducible apply kept_dmaSend
    | with_reducible apply kept_foldl
    | with_reducible apply kept_foldl_fst
    | with_reducible apply kept_ite
    | with_reducible apply kept_foldl_ff
    | with_reducible apply kept_ite_fst
    | with_reducible apply kept_ite_ff
    | dsimp only
    | (with_reducible intro _ _ _; try dsimp only)
    | with_reducible intro _
    | split

theorem kept_execDesc {F : Fuses} {L : List Knot} {s t : State} (h : Kept F L s) (md : Nat) (o : Origin) (d : DmaDesc) (e : execDesc md o d s = .next t) : Kept F L t := by
  unfold execDesc at e
  refine kept_guard ?_ e
  clear e
  try dsimp only
  repeat' first
    | with_reducible assumption
    | with_reducible apply kept_descIn
    | with_reducible apply kept_foldl
    | with_reducible apply kept_foldl_fst
    | with_reducible apply kept_ite
    | with_reducible apply kept_foldl_ff
    | with_reducible apply kept_ite_fst
    | with_reducible apply kept_ite_ff
    | dsimp only
    | (with_reducible intro _ _ _; try dsimp only)
    | with_reducible intro _
    | split

theorem kept_execDmaItemComplete {F : Fuses} {L : List Knot} {s t : State} (h : Kept F L s) (md : Nat) (item : Nat) (e : execDmaItemComplete md item s = .next t) : Kept F L t := by
  unfold execDmaItemComplete at e
  refine kept_guard ?_ e
  clear e
  try dsimp only
  repeat' first
    | with_reducible assumption
    | with_reducible apply kept_itemDone
    | with_reducible apply kept_foldl
    | with_reducible apply kept_foldl_fst
    | with_reducible apply kept_ite
    | with_reducible apply kept_foldl_ff
    | with_reducible apply kept_ite_fst
    | with_reducible apply kept_ite_ff
    | dsimp only
    | (with_reducible intro _ _ _; try dsimp only)
    | with_reducible intro _
    | split

theorem kept_execRead {F : Fuses} {L : List Knot} {s t : State} (h : Kept F L s) (p : DynPkt) (e : execRead p s = .next t) : Kept F L t := by
  unfold execRead at e
  refine kept_guard ?_ e
  clear e
  try dsimp only
  repeat' first
    | with_reducible assumption
    | with_reducible apply kept_readIn
    | with_reducible apply kept_foldl
    | with_reducible apply kept_foldl_fst
    | with_reducible apply kept_ite
    | with_reducible apply kept_foldl_ff
    | with_reducible apply kept_ite_fst
    | with_reducible apply kept_ite_ff
    | dsimp only
    | (with_reducible intro _ _ _; try dsimp only)
    | with_reducible intro _
    | split

theorem kept_execReadData {F : Fuses} {L : List Knot} {s t : State} (h : Kept F L s) (p : DynPkt) (e : execReadData p s = .next t) : Kept F L t := by
  unfold execReadData at e
  refine kept_guard ?_ e
  clear e
  try dsimp only
  repeat' first
    | with_reducible assumption
    | with_reducible apply kept_readDataIn
    | with_reducible apply kept_foldl
    | with_reducible apply kept_foldl_fst
    | with_reducible apply kept_ite
    | with_reducible apply kept_foldl_ff
    | with_reducible apply kept_ite_fst
    | with_reducible apply kept_ite_ff
    | dsimp only
    | (with_reducible intro _ _ _; try dsimp only)
    | with_reducible intro _
    | split

theorem kept_execWriteAck {F : Fuses} {L : List Knot} {s t : State} (h : Kept F L s) (p : DynPkt) (e : execWriteAck p s = .next t) : Kept F L t := by
  unfold execWriteAck at e
  refine kept_guard ?_ e
  clear e
  try dsimp only
  repeat' first
    | with_reducible assumption
    | with_reducible apply kept_foldl
    | with_reducible apply kept_foldl_fst
    | with_reducible apply kept_ite
    | with_reducible apply kept_foldl_ff
    | with_reducible apply kept_ite_fst
    | with_reducible apply kept_ite_ff
    | dsimp only
    | (with_reducible intro _ _ _; try dsimp only)
    | with_reducible intro _
    | split
    | with_reducible apply kept_writeAckIn

theorem kept_execLand {F : Fuses} {L : List Knot} {s t : State} (h : Kept F L s) (p : DynPkt) (e : execLand p s = .next t) : Kept F L t := by
  unfold execLand at e
  refine kept_guard ?_ e
  clear e
  try dsimp only
  repeat' first
    | with_reducible assumption
    | with_reducible apply kept_landPkt
    | with_reducible apply kept_foldl
    | with_reducible apply kept_foldl_fst
    | with_reducible apply kept_ite
    | with_reducible apply kept_foldl_ff
    | with_reducible apply kept_ite_fst
    | with_reducible apply kept_ite_ff
    | dsimp only
    | (with_reducible intro _ _ _; try dsimp only)
    | with_reducible intro _
    | split

theorem kept_execDone {F : Fuses} {L : List Knot} {s t : State} (h : Kept F L s) (p : DynPkt) (e : execDone p s = .next t) : Kept F L t := by
  unfold execDone at e
  refine kept_guard ?_ e
  clear e
  try dsimp only
  repeat' first
    | with_reducible assumption
    | with_reducible apply kept_donePkt
    | with_reducible apply kept_foldl
    | with_reducible apply kept_foldl_fst
    | with_reducible apply kept_ite
    | with_reducible apply kept_foldl_ff
    | with_reducible apply kept_ite_fst
    | with_reducible apply kept_ite_ff
    | dsimp only
    | (with_reducible intro _ _ _; try dsimp only)
    | with_reducible intro _
    | split

theorem kept_execHbmEccWriteback {F : Fuses} {L : List Knot} {s t : State} (h : Kept F L s) (md : Nat) (line : Nat) (e : execHbmEccWriteback md line s = .next t) : Kept F L t := by
  unfold execHbmEccWriteback at e
  refine kept_guard ?_ e
  clear e
  try dsimp only
  repeat' first
    | with_reducible assumption
    | with_reducible apply kept_eccBack
    | with_reducible apply kept_foldl
    | with_reducible apply kept_foldl_fst
    | with_reducible apply kept_ite
    | with_reducible apply kept_foldl_ff
    | with_reducible apply kept_ite_fst
    | with_reducible apply kept_ite_ff
    | dsimp only
    | (with_reducible intro _ _ _; try dsimp only)
    | with_reducible intro _
    | split

theorem kept_execHbmPatrol {F : Fuses} {L : List Knot} {s t : State} (h : Kept F L s) (md : Nat) (e : execHbmPatrol md s = .next t) : Kept F L t := by
  unfold execHbmPatrol at e
  refine kept_guard ?_ e
  clear e
  try dsimp only
  repeat' first
    | with_reducible assumption
    | with_reducible apply kept_patrol
    | with_reducible apply kept_foldl
    | with_reducible apply kept_foldl_fst
    | with_reducible apply kept_ite
    | with_reducible apply kept_foldl_ff
    | with_reducible apply kept_ite_fst
    | with_reducible apply kept_ite_ff
    | dsimp only
    | (with_reducible intro _ _ _; try dsimp only)
    | with_reducible intro _
    | split

theorem kept_execHbmCorrRateCheck {F : Fuses} {L : List Knot} {s t : State} (h : Kept F L s) (md : Nat) (e : execHbmCorrRateCheck md s = .next t) : Kept F L t := by
  unfold execHbmCorrRateCheck at e
  refine kept_guard ?_ e
  clear e
  try dsimp only
  repeat' first
    | with_reducible assumption
    | with_reducible apply kept_corrRate
    | with_reducible apply kept_foldl
    | with_reducible apply kept_foldl_fst
    | with_reducible apply kept_ite
    | with_reducible apply kept_foldl_ff
    | with_reducible apply kept_ite_fst
    | with_reducible apply kept_ite_ff
    | dsimp only
    | (with_reducible intro _ _ _; try dsimp only)
    | with_reducible intro _
    | split

theorem kept_execHbmCapEval {F : Fuses} {L : List Knot} {s t : State} (h : Kept F L s)  (e : execHbmCapEval s = .next t) : Kept F L t := by
  unfold execHbmCapEval at e
  refine kept_guard ?_ e
  clear e
  try dsimp only
  repeat' first
    | with_reducible assumption
    | with_reducible apply kept_capEval
    | with_reducible apply kept_foldl
    | with_reducible apply kept_foldl_fst
    | with_reducible apply kept_ite
    | with_reducible apply kept_foldl_ff
    | with_reducible apply kept_ite_fst
    | with_reducible apply kept_ite_ff
    | dsimp only
    | (with_reducible intro _ _ _; try dsimp only)
    | with_reducible intro _
    | split

theorem kept_execMdScrubStart {F : Fuses} {L : List Knot} {s t : State} (h : Kept F L s) (src : Source) (md : Nat) (val : W32) (e : execMdScrubStart src md val s = .next t) : Kept F L t := by
  unfold execMdScrubStart at e
  refine kept_guard ?_ e
  clear e
  try dsimp only
  repeat' first
    | with_reducible assumption
    | with_reducible apply kept_mdScrubGo
    | with_reducible apply kept_foldl
    | with_reducible apply kept_foldl_fst
    | with_reducible apply kept_ite
    | with_reducible apply kept_foldl_ff
    | with_reducible apply kept_ite_fst
    | with_reducible apply kept_ite_ff
    | dsimp only
    | (with_reducible intro _ _ _; try dsimp only)
    | with_reducible intro _
    | split

theorem kept_execMdScrubDone {F : Fuses} {L : List Knot} {s t : State} (h : Kept F L s) (md : Nat) (e : execMdScrubDone md s = .next t) : Kept F L t := by
  unfold execMdScrubDone at e
  refine kept_guard ?_ e
  clear e
  try dsimp only
  repeat' first
    | with_reducible assumption
    | with_reducible apply kept_mdScrubEnd
    | with_reducible apply kept_foldl
    | with_reducible apply kept_foldl_fst
    | with_reducible apply kept_ite
    | with_reducible apply kept_foldl_ff
    | with_reducible apply kept_ite_fst
    | with_reducible apply kept_ite_ff
    | dsimp only
    | (with_reducible intro _ _ _; try dsimp only)
    | with_reducible intro _
    | split

theorem kept_execTrackerEntryGrant {F : Fuses} {L : List Knot} {s t : State} (h : Kept F L s) (md : Nat) (cls : Nat) (e : execTrackerEntryGrant md cls s = .next t) : Kept F L t := by
  unfold execTrackerEntryGrant at e
  refine kept_guard ?_ e
  clear e
  try dsimp only
  repeat' first
    | with_reducible assumption
    | with_reducible apply kept_entryGrant
    | with_reducible apply kept_foldl
    | with_reducible apply kept_foldl_fst
    | with_reducible apply kept_ite
    | with_reducible apply kept_foldl_ff
    | with_reducible apply kept_ite_fst
    | with_reducible apply kept_ite_ff
    | dsimp only
    | (with_reducible intro _ _ _; try dsimp only)
    | with_reducible intro _
    | split

theorem kept_execTransactionTimeout {F : Fuses} {L : List Knot} {s t : State} (h : Kept F L s) (md : Nat) (txid : Nat) (e : execTransactionTimeout md txid s = .next t) : Kept F L t := by
  unfold execTransactionTimeout at e
  refine kept_guard ?_ e
  clear e
  try dsimp only
  repeat' first
    | with_reducible assumption
    | with_reducible apply kept_entryTimeout
    | with_reducible apply kept_foldl
    | with_reducible apply kept_foldl_fst
    | with_reducible apply kept_ite
    | with_reducible apply kept_foldl_ff
    | with_reducible apply kept_ite_fst
    | with_reducible apply kept_ite_ff
    | dsimp only
    | (with_reducible intro _ _ _; try dsimp only)
    | with_reducible intro _
    | split

theorem kept_execStackFail {F : Fuses} {L : List Knot} {s t : State} (h : Kept F L s) (md : Nat) (cause : Nat) (e : execStackFail md cause s = .next t) : Kept F L t := by
  unfold execStackFail at e
  refine kept_guard ?_ e
  clear e
  try dsimp only
  repeat' first
    | with_reducible assumption
    | with_reducible apply kept_stackFail
    | with_reducible apply kept_foldl
    | with_reducible apply kept_foldl_fst
    | with_reducible apply kept_ite
    | with_reducible apply kept_foldl_ff
    | with_reducible apply kept_ite_fst
    | with_reducible apply kept_ite_ff
    | dsimp only
    | (with_reducible intro _ _ _; try dsimp only)
    | with_reducible intro _
    | split

theorem kept_execFread {F : Fuses} {L : List Knot} {s t : State} (h : Kept F L s) (p : DynPkt) (e : execFread p s = .next t) : Kept F L t := by
  unfold execFread at e
  refine kept_guard ?_ e
  clear e
  try dsimp only
  repeat' first
    | with_reducible assumption
    | with_reducible apply kept_freadIn
    | with_reducible apply kept_foldl
    | with_reducible apply kept_foldl_fst
    | with_reducible apply kept_ite
    | with_reducible apply kept_foldl_ff
    | with_reducible apply kept_ite_fst
    | with_reducible apply kept_ite_ff
    | dsimp only
    | (with_reducible intro _ _ _; try dsimp only)
    | with_reducible intro _
    | split

theorem kept_execFreadData {F : Fuses} {L : List Knot} {s t : State} (h : Kept F L s) (p : DynPkt) (e : execFreadData p s = .next t) : Kept F L t := by
  unfold execFreadData at e
  refine kept_guard ?_ e
  clear e
  try dsimp only
  repeat' first
    | with_reducible assumption
    | with_reducible apply kept_onPanelIn
    | with_reducible apply kept_foldl
    | with_reducible apply kept_foldl_fst
    | with_reducible apply kept_ite
    | with_reducible apply kept_foldl_ff
    | with_reducible apply kept_ite_fst
    | with_reducible apply kept_ite_ff
    | dsimp only
    | (with_reducible intro _ _ _; try dsimp only)
    | with_reducible intro _
    | split

theorem kept_execFwrite {F : Fuses} {L : List Knot} {s t : State} (h : Kept F L s) (p : DynPkt) (e : execFwrite p s = .next t) : Kept F L t := by
  unfold execFwrite at e
  refine kept_guard ?_ e
  clear e
  try dsimp only
  repeat' first
    | with_reducible assumption
    | with_reducible apply kept_fwriteIn
    | with_reducible apply kept_foldl
    | with_reducible apply kept_foldl_fst
    | with_reducible apply kept_ite
    | with_reducible apply kept_foldl_ff
    | with_reducible apply kept_ite_fst
    | with_reducible apply kept_ite_ff
    | dsimp only
    | (with_reducible intro _ _ _; try dsimp only)
    | with_reducible intro _
    | split

theorem kept_execFwriteAck {F : Fuses} {L : List Knot} {s t : State} (h : Kept F L s) (p : DynPkt) (e : execFwriteAck p s = .next t) : Kept F L t := by
  unfold execFwriteAck at e
  refine kept_guard ?_ e
  clear e
  try dsimp only
  repeat' first
    | with_reducible assumption
    | with_reducible apply kept_onPanelIn
    | with_reducible apply kept_foldl
    | with_reducible apply kept_foldl_fst
    | with_reducible apply kept_ite
    | with_reducible apply kept_foldl_ff
    | with_reducible apply kept_ite_fst
    | with_reducible apply kept_ite_ff
    | dsimp only
    | (with_reducible intro _ _ _; try dsimp only)
    | with_reducible intro _
    | split

theorem kept_execWrite {F : Fuses} {L : List Knot} {s t : State} (h : Kept F L s) (p : DynPkt) (e : execWrite p s = .next t) : Kept F L t := by
  unfold execWrite at e
  refine kept_guard ?_ e
  clear e
  try dsimp only
  repeat' first
    | with_reducible assumption
    | with_reducible apply kept_foldl
    | with_reducible apply kept_foldl_fst
    | with_reducible apply kept_ite
    | with_reducible apply kept_foldl_ff
    | with_reducible apply kept_ite_fst
    | with_reducible apply kept_ite_ff
    | dsimp only
    | (with_reducible intro _ _ _; try dsimp only)
    | with_reducible intro _
    | split
    | with_reducible apply kept_writeAt

theorem kept_execDoorbell {F : Fuses} {L : List Knot} {s t : State} (h : Kept F L s) (fd : Nat) (ctx : Nat) (val : W32) (e : execDoorbell fd ctx val s = .next t) : Kept F L t := by
  unfold execDoorbell at e
  refine kept_guard ?_ e
  clear e
  try dsimp only
  repeat' first
    | with_reducible assumption
    | with_reducible apply kept_doorbell
    | with_reducible apply kept_bellDrop
    | with_reducible apply kept_foldl
    | with_reducible apply kept_foldl_fst
    | with_reducible apply kept_ite
    | with_reducible apply kept_foldl_ff
    | with_reducible apply kept_ite_fst
    | with_reducible apply kept_ite_ff
    | dsimp only
    | (with_reducible intro _ _ _; try dsimp only)
    | with_reducible intro _
    | split

theorem kept_execTransferPut {F : Fuses} {L : List Knot} {s t : State} (h : Kept F L s) (fd : Nat) (ctx : Nat) (d : FabDesc) (e : execTransferPut fd ctx d s = .next t) : Kept F L t := by
  unfold execTransferPut at e
  refine kept_guard ?_ e
  clear e
  try dsimp only
  repeat' first
    | with_reducible assumption
    | with_reducible apply kept_post
    | with_reducible apply kept_foldl
    | with_reducible apply kept_foldl_fst
    | with_reducible apply kept_ite
    | with_reducible apply kept_foldl_ff
    | with_reducible apply kept_ite_fst
    | with_reducible apply kept_ite_ff
    | dsimp only
    | (with_reducible intro _ _ _; try dsimp only)
    | with_reducible intro _
    | split

theorem kept_execTransferGet {F : Fuses} {L : List Knot} {s t : State} (h : Kept F L s) (fd : Nat) (ctx : Nat) (d : FabDesc) (e : execTransferGet fd ctx d s = .next t) : Kept F L t := by
  unfold execTransferGet at e
  refine kept_guard ?_ e
  clear e
  try dsimp only
  repeat' first
    | with_reducible assumption
    | with_reducible apply kept_post
    | with_reducible apply kept_foldl
    | with_reducible apply kept_foldl_fst
    | with_reducible apply kept_ite
    | with_reducible apply kept_foldl_ff
    | with_reducible apply kept_ite_fst
    | with_reducible apply kept_ite_ff
    | dsimp only
    | (with_reducible intro _ _ _; try dsimp only)
    | with_reducible intro _
    | split

theorem kept_execTransferCput {F : Fuses} {L : List Knot} {s t : State} (h : Kept F L s) (fd : Nat) (ctx : Nat) (d : FabDesc) (e : execTransferCput fd ctx d s = .next t) : Kept F L t := by
  unfold execTransferCput at e
  refine kept_guard ?_ e
  clear e
  try dsimp only
  repeat' first
    | with_reducible assumption
    | with_reducible apply kept_post
    | with_reducible apply kept_foldl
    | with_reducible apply kept_foldl_fst
    | with_reducible apply kept_ite
    | with_reducible apply kept_foldl_ff
    | with_reducible apply kept_ite_fst
    | with_reducible apply kept_ite_ff
    | dsimp only
    | (with_reducible intro _ _ _; try dsimp only)
    | with_reducible intro _
    | split

theorem kept_execCputStart {F : Fuses} {L : List Knot} {s t : State} (h : Kept F L s) (fd : Nat) (ctx : Nat) (e : execCputStart fd ctx s = .next t) : Kept F L t := by
  unfold execCputStart at e
  refine kept_guard ?_ e
  clear e
  try dsimp only
  repeat' first
    | with_reducible assumption
    | with_reducible apply kept_cputGo
    | with_reducible apply kept_foldl
    | with_reducible apply kept_foldl_fst
    | with_reducible apply kept_ite
    | with_reducible apply kept_foldl_ff
    | with_reducible apply kept_ite_fst
    | with_reducible apply kept_ite_ff
    | dsimp only
    | (with_reducible intro _ _ _; try dsimp only)
    | with_reducible intro _
    | split

theorem kept_execTransferMcast {F : Fuses} {L : List Knot} {s t : State} (h : Kept F L s) (fd : Nat) (ctx : Nat) (d : FabDesc) (e : execTransferMcast fd ctx d s = .next t) : Kept F L t := by
  unfold execTransferMcast at e
  refine kept_guard ?_ e
  clear e
  try dsimp only
  repeat' first
    | with_reducible assumption
    | with_reducible apply kept_post
    | with_reducible apply kept_foldl
    | with_reducible apply kept_foldl_fst
    | with_reducible apply kept_ite
    | with_reducible apply kept_foldl_ff
    | with_reducible apply kept_ite_fst
    | with_reducible apply kept_ite_ff
    | dsimp only
    | (with_reducible intro _ _ _; try dsimp only)
    | with_reducible intro _
    | split

theorem kept_execTransferNote {F : Fuses} {L : List Knot} {s t : State} (h : Kept F L s) (fd : Nat) (ctx : Nat) (d : FabDesc) (e : execTransferNote fd ctx d s = .next t) : Kept F L t := by
  unfold execTransferNote at e
  refine kept_guard ?_ e
  clear e
  try dsimp only
  repeat' first
    | with_reducible assumption
    | with_reducible apply kept_post
    | with_reducible apply kept_foldl
    | with_reducible apply kept_foldl_fst
    | with_reducible apply kept_ite
    | with_reducible apply kept_foldl_ff
    | with_reducible apply kept_ite_fst
    | with_reducible apply kept_ite_ff
    | dsimp only
    | (with_reducible intro _ _ _; try dsimp only)
    | with_reducible intro _
    | split

theorem kept_execPut {F : Fuses} {L : List Knot} {s t : State} (h : Kept F L s) (fd : Nat) (h0 : JHdr) (data : List Byte) (e : execPut fd h0 data s = .next t) : Kept F L t := by
  unfold execPut at e
  refine kept_guard ?_ e
  clear e
  try dsimp only
  repeat' first
    | with_reducible assumption
    | with_reducible apply kept_putIn
    | with_reducible apply kept_foldl
    | with_reducible apply kept_foldl_fst
    | with_reducible apply kept_ite
    | with_reducible apply kept_foldl_ff
    | with_reducible apply kept_ite_fst
    | with_reducible apply kept_ite_ff
    | dsimp only
    | (with_reducible intro _ _ _; try dsimp only)
    | with_reducible intro _
    | split

theorem kept_execGet {F : Fuses} {L : List Knot} {s t : State} (h : Kept F L s) (fd : Nat) (h0 : JHdr) (e : execGet fd h0 s = .next t) : Kept F L t := by
  unfold execGet at e
  refine kept_guard ?_ e
  clear e
  try dsimp only
  repeat' first
    | with_reducible assumption
    | with_reducible apply kept_getIn
    | with_reducible apply kept_foldl
    | with_reducible apply kept_foldl_fst
    | with_reducible apply kept_ite
    | with_reducible apply kept_foldl_ff
    | with_reducible apply kept_ite_fst
    | with_reducible apply kept_ite_ff
    | dsimp only
    | (with_reducible intro _ _ _; try dsimp only)
    | with_reducible intro _
    | split

theorem kept_execCput {F : Fuses} {L : List Knot} {s t : State} (h : Kept F L s) (fd : Nat) (h0 : JHdr) (data : List Byte) (e : execCput fd h0 data s = .next t) : Kept F L t := by
  unfold execCput at e
  refine kept_guard ?_ e
  clear e
  try dsimp only
  repeat' first
    | with_reducible assumption
    | with_reducible apply kept_cputIn
    | with_reducible apply kept_foldl
    | with_reducible apply kept_foldl_fst
    | with_reducible apply kept_ite
    | with_reducible apply kept_foldl_ff
    | with_reducible apply kept_ite_fst
    | with_reducible apply kept_ite_ff
    | dsimp only
    | (with_reducible intro _ _ _; try dsimp only)
    | with_reducible intro _
    | split

theorem kept_execMcast {F : Fuses} {L : List Knot} {s t : State} (h : Kept F L s) (fd : Nat) (h0 : JHdr) (ranks : List (BitVec 24)) (data : List Byte) (e : execMcast fd h0 ranks data s = .next t) : Kept F L t := by
  unfold execMcast at e
  refine kept_guard ?_ e
  clear e
  try dsimp only
  repeat' first
    | with_reducible assumption
    | with_reducible apply kept_mcastIn
    | with_reducible apply kept_foldl
    | with_reducible apply kept_foldl_fst
    | with_reducible apply kept_ite
    | with_reducible apply kept_foldl_ff
    | with_reducible apply kept_ite_fst
    | with_reducible apply kept_ite_ff
    | dsimp only
    | (with_reducible intro _ _ _; try dsimp only)
    | with_reducible intro _
    | split

theorem kept_execAck {F : Fuses} {L : List Knot} {s t : State} (h : Kept F L s) (fd : Nat) (h0 : JHdr) (delivered : W64) (failed : W64) (e : execAck fd h0 delivered failed s = .next t) : Kept F L t := by
  unfold execAck at e
  refine kept_guard ?_ e
  clear e
  try dsimp only
  repeat' first
    | with_reducible assumption
    | with_reducible apply kept_ackIn
    | with_reducible apply kept_foldl
    | with_reducible apply kept_foldl_fst
    | with_reducible apply kept_ite
    | with_reducible apply kept_foldl_ff
    | with_reducible apply kept_ite_fst
    | with_reducible apply kept_ite_ff
    | dsimp only
    | (with_reducible intro _ _ _; try dsimp only)
    | with_reducible intro _
    | split

theorem kept_execGetData {F : Fuses} {L : List Knot} {s t : State} (h : Kept F L s) (fd : Nat) (h0 : JHdr) (data : List Byte) (e : execGetData fd h0 data s = .next t) : Kept F L t := by
  unfold execGetData at e
  refine kept_guard ?_ e
  clear e
  try dsimp only
  repeat' first
    | with_reducible assumption
    | with_reducible apply kept_getDataIn
    | with_reducible apply kept_foldl
    | with_reducible apply kept_foldl_fst
    | with_reducible apply kept_ite
    | with_reducible apply kept_foldl_ff
    | with_reducible apply kept_ite_fst
    | with_reducible apply kept_ite_ff
    | dsimp only
    | (with_reducible intro _ _ _; try dsimp only)
    | with_reducible intro _
    | split

theorem kept_execCredit {F : Fuses} {L : List Knot} {s t : State} (h : Kept F L s) (fd : Nat) (h0 : JHdr) (limit : W64) (e : execCredit fd h0 limit s = .next t) : Kept F L t := by
  unfold execCredit at e
  refine kept_guard ?_ e
  clear e
  try dsimp only
  repeat' first
    | with_reducible assumption
    | with_reducible apply kept_creditIn
    | with_reducible apply kept_foldl
    | with_reducible apply kept_foldl_fst
    | with_reducible apply kept_ite
    | with_reducible apply kept_foldl_ff
    | with_reducible apply kept_ite_fst
    | with_reducible apply kept_ite_ff
    | dsimp only
    | (with_reducible intro _ _ _; try dsimp only)
    | with_reducible intro _
    | split

theorem kept_execNote {F : Fuses} {L : List Knot} {s t : State} (h : Kept F L s) (fd : Nat) (h0 : JHdr) (data : List Byte) (e : execNote fd h0 data s = .next t) : Kept F L t := by
  unfold execNote at e
  refine kept_guard ?_ e
  clear e
  try dsimp only
  repeat' first
    | with_reducible assumption
    | with_reducible apply kept_noteIn
    | with_reducible apply kept_foldl
    | with_reducible apply kept_foldl_fst
    | with_reducible apply kept_ite
    | with_reducible apply kept_foldl_ff
    | with_reducible apply kept_ite_fst
    | with_reducible apply kept_ite_ff
    | dsimp only
    | (with_reducible intro _ _ _; try dsimp only)
    | with_reducible intro _
    | split

theorem kept_execRequestResendTimeout {F : Fuses} {L : List Knot} {s t : State} (h : Kept F L s) (fd : Nat) (slot : Nat) (e : execRequestResendTimeout fd slot s = .next t) : Kept F L t := by
  unfold execRequestResendTimeout at e
  refine kept_guard ?_ e
  clear e
  try dsimp only
  repeat' first
    | with_reducible assumption
    | with_reducible apply kept_resend
    | with_reducible apply kept_foldl
    | with_reducible apply kept_foldl_fst
    | with_reducible apply kept_ite
    | with_reducible apply kept_foldl_ff
    | with_reducible apply kept_ite_fst
    | with_reducible apply kept_ite_ff
    | dsimp only
    | (with_reducible intro _ _ _; try dsimp only)
    | with_reducible intro _
    | split

theorem kept_execFabricPortDown {F : Fuses} {L : List Knot} {s t : State} (h : Kept F L s) (fd : Nat) (port : Nat) (e : execFabricPortDown fd port s = .next t) : Kept F L t := by
  unfold execFabricPortDown at e
  refine kept_guard ?_ e
  clear e
  try dsimp only
  repeat' first
    | with_reducible assumption
    | with_reducible apply kept_portSet
    | with_reducible apply kept_foldl
    | with_reducible apply kept_foldl_fst
    | with_reducible apply kept_ite
    | with_reducible apply kept_foldl_ff
    | with_reducible apply kept_ite_fst
    | with_reducible apply kept_ite_ff
    | dsimp only
    | (with_reducible intro _ _ _; try dsimp only)
    | with_reducible intro _
    | split

theorem kept_execFabricPortUp {F : Fuses} {L : List Knot} {s t : State} (h : Kept F L s) (fd : Nat) (port : Nat) (e : execFabricPortUp fd port s = .next t) : Kept F L t := by
  unfold execFabricPortUp at e
  refine kept_guard ?_ e
  clear e
  try dsimp only
  repeat' first
    | with_reducible assumption
    | with_reducible apply kept_portSet
    | with_reducible apply kept_foldl
    | with_reducible apply kept_foldl_fst
    | with_reducible apply kept_ite
    | with_reducible apply kept_foldl_ff
    | with_reducible apply kept_ite_fst
    | with_reducible apply kept_ite_ff
    | dsimp only
    | (with_reducible intro _ _ _; try dsimp only)
    | with_reducible intro _
    | split

theorem kept_execPfcPauseFrame {F : Fuses} {L : List Knot} {s t : State} (h : Kept F L s) (fd : Nat) (port : Nat) (prio : Nat) (quanta : BitVec 16) (e : execPfcPauseFrame fd port prio quanta s = .next t) : Kept F L t := by
  unfold execPfcPauseFrame at e
  refine kept_guard ?_ e
  clear e
  try dsimp only
  repeat' first
    | with_reducible assumption
    | with_reducible apply kept_pfcIn
    | with_reducible apply kept_foldl
    | with_reducible apply kept_foldl_fst
    | with_reducible apply kept_ite
    | with_reducible apply kept_foldl_ff
    | with_reducible apply kept_ite_fst
    | with_reducible apply kept_ite_ff
    | dsimp only
    | (with_reducible intro _ _ _; try dsimp only)
    | with_reducible intro _
    | split

theorem kept_execArpRequest {F : Fuses} {L : List Knot} {s t : State} (h : Kept F L s) (fd : Nat) (target : Nat) (e : execArpRequest fd target s = .next t) : Kept F L t := by
  unfold execArpRequest at e
  refine kept_guard ?_ e
  clear e
  try dsimp only
  repeat' first
    | with_reducible assumption
    | with_reducible apply kept_arpIn
    | with_reducible apply kept_foldl
    | with_reducible apply kept_foldl_fst
    | with_reducible apply kept_ite
    | with_reducible apply kept_foldl_ff
    | with_reducible apply kept_ite_fst
    | with_reducible apply kept_ite_ff
    | dsimp only
    | (with_reducible intro _ _ _; try dsimp only)
    | with_reducible intro _
    | split

theorem kept_execNeighborSolicitation {F : Fuses} {L : List Knot} {s t : State} (h : Kept F L s) (fd : Nat) (target : Nat) (e : execNeighborSolicitation fd target s = .next t) : Kept F L t := by
  unfold execNeighborSolicitation at e
  refine kept_guard ?_ e
  clear e
  try dsimp only
  repeat' first
    | with_reducible assumption
    | with_reducible apply kept_arpIn
    | with_reducible apply kept_foldl
    | with_reducible apply kept_foldl_fst
    | with_reducible apply kept_ite
    | with_reducible apply kept_foldl_ff
    | with_reducible apply kept_ite_fst
    | with_reducible apply kept_ite_ff
    | dsimp only
    | (with_reducible intro _ _ _; try dsimp only)
    | with_reducible intro _
    | split

theorem kept_execArpReply {F : Fuses} {L : List Knot} {s t : State} (h : Kept F L s) (fd : Nat) (mac : BitVec 48) (e : execArpReply fd mac s = .next t) : Kept F L t := by
  unfold execArpReply at e
  refine kept_guard ?_ e
  clear e
  try dsimp only
  repeat' first
    | with_reducible assumption
    | with_reducible apply kept_arpReplyIn
    | with_reducible apply kept_foldl
    | with_reducible apply kept_foldl_fst
    | with_reducible apply kept_ite
    | with_reducible apply kept_foldl_ff
    | with_reducible apply kept_ite_fst
    | with_reducible apply kept_ite_ff
    | dsimp only
    | (with_reducible intro _ _ _; try dsimp only)
    | with_reducible intro _
    | split

theorem kept_execHeartbeat {F : Fuses} {L : List Knot} {s t : State} (h : Kept F L s) (onTwin : Bool) (number : W32) (mirrored : W32) (e : execHeartbeat onTwin number mirrored s = .next t) : Kept F L t := by
  unfold execHeartbeat at e
  refine kept_guard ?_ e
  clear e
  try dsimp only
  repeat' first
    | with_reducible assumption
    | with_reducible apply kept_heartbeatIn
    | with_reducible apply kept_foldl
    | with_reducible apply kept_foldl_fst
    | with_reducible apply kept_ite
    | with_reducible apply kept_foldl_ff
    | with_reducible apply kept_ite_fst
    | with_reducible apply kept_ite_ff
    | dsimp only
    | (with_reducible intro _ _ _; try dsimp only)
    | with_reducible intro _
    | split

theorem kept_execTakeover {F : Fuses} {L : List Knot} {s t : State} (h : Kept F L s) (onTwin : Bool) (e : execTakeover onTwin s = .next t) : Kept F L t := by
  unfold execTakeover at e
  refine kept_guard ?_ e
  clear e
  try dsimp only
  repeat' first
    | with_reducible assumption
    | with_reducible apply kept_takeoverIn
    | with_reducible apply kept_foldl
    | with_reducible apply kept_foldl_fst
    | with_reducible apply kept_ite
    | with_reducible apply kept_foldl_ff
    | with_reducible apply kept_ite_fst
    | with_reducible apply kept_ite_ff
    | dsimp only
    | (with_reducible intro _ _ _; try dsimp only)
    | with_reducible intro _
    | split

theorem kept_execRingForward {F : Fuses} {L : List Knot} {s t : State} (h : Kept F L s) (rdst : BitVec 5) (rsrc : BitVec 5) (west : Bool) (vc : Bool) (cls : BitVec 2) (frame : Nat) (e : execRingForward rdst rsrc west vc cls frame s = .next t) : Kept F L t := by
  unfold execRingForward at e
  refine kept_guard ?_ e
  clear e
  try dsimp only
  repeat' first
    | with_reducible assumption
    | with_reducible apply kept_ringPass
    | with_reducible apply kept_foldl
    | with_reducible apply kept_foldl_fst
    | with_reducible apply kept_ite
    | with_reducible apply kept_foldl_ff
    | with_reducible apply kept_ite_fst
    | with_reducible apply kept_ite_ff
    | dsimp only
    | (with_reducible intro _ _ _; try dsimp only)
    | with_reducible intro _
    | split

theorem kept_execHeartbeatSend {F : Fuses} {L : List Knot} {s t : State} (h : Kept F L s)  (e : execHeartbeatSend s = .next t) : Kept F L t := by
  unfold execHeartbeatSend at e
  refine kept_guard ?_ e
  clear e
  try dsimp only
  repeat' first
    | with_reducible assumption
    | with_reducible apply kept_heartbeatOut
    | with_reducible apply kept_foldl
    | with_reducible apply kept_foldl_fst
    | with_reducible apply kept_ite
    | with_reducible apply kept_foldl_ff
    | with_reducible apply kept_ite_fst
    | with_reducible apply kept_ite_ff
    | dsimp only
    | (with_reducible intro _ _ _; try dsimp only)
    | with_reducible intro _
    | split

theorem kept_execHeartbeatWindowMiss {F : Fuses} {L : List Knot} {s t : State} (h : Kept F L s) (number : W32) (e : execHeartbeatWindowMiss number s = .next t) : Kept F L t := by
  unfold execHeartbeatWindowMiss at e
  refine kept_guard ?_ e
  clear e
  try dsimp only
  repeat' first
    | with_reducible assumption
    | with_reducible apply kept_foldl
    | with_reducible apply kept_foldl_fst
    | with_reducible apply kept_ite
    | with_reducible apply kept_foldl_ff
    | with_reducible apply kept_ite_fst
    | with_reducible apply kept_ite_ff
    | dsimp only
    | (with_reducible intro _ _ _; try dsimp only)
    | with_reducible intro _
    | split
    | with_reducible apply kept_windowMiss

theorem kept_execMirrorComplete {F : Fuses} {L : List Knot} {s t : State} (h : Kept F L s) (number : W32) (e : execMirrorComplete number s = .next t) : Kept F L t := by
  unfold execMirrorComplete at e
  refine kept_guard ?_ e
  clear e
  try dsimp only
  repeat' first
    | with_reducible assumption
    | with_reducible apply kept_mirrored
    | with_reducible apply kept_foldl
    | with_reducible apply kept_foldl_fst
    | with_reducible apply kept_ite
    | with_reducible apply kept_foldl_ff
    | with_reducible apply kept_ite_fst
    | with_reducible apply kept_ite_ff
    | dsimp only
    | (with_reducible intro _ _ _; try dsimp only)
    | with_reducible intro _
    | split

theorem kept_execRingPortDown {F : Fuses} {L : List Knot} {s t : State} (h : Kept F L s) (east : Bool) (e : execRingPortDown east s = .next t) : Kept F L t := by
  unfold execRingPortDown at e
  refine kept_guard ?_ e
  clear e
  try dsimp only
  repeat' first
    | with_reducible assumption
    | with_reducible apply kept_ringPort
    | with_reducible apply kept_foldl
    | with_reducible apply kept_foldl_fst
    | with_reducible apply kept_ite
    | with_reducible apply kept_foldl_ff
    | with_reducible apply kept_ite_fst
    | with_reducible apply kept_ite_ff
    | dsimp only
    | (with_reducible intro _ _ _; try dsimp only)
    | with_reducible intro _
    | split

theorem kept_execRingPortUp {F : Fuses} {L : List Knot} {s t : State} (h : Kept F L s) (east : Bool) (e : execRingPortUp east s = .next t) : Kept F L t := by
  unfold execRingPortUp at e
  refine kept_guard ?_ e
  clear e
  try dsimp only
  repeat' first
    | with_reducible assumption
    | with_reducible apply kept_ringPort
    | with_reducible apply kept_foldl
    | with_reducible apply kept_foldl_fst
    | with_reducible apply kept_ite
    | with_reducible apply kept_foldl_ff
    | with_reducible apply kept_ite_fst
    | with_reducible apply kept_ite_ff
    | dsimp only
    | (with_reducible intro _ _ _; try dsimp only)
    | with_reducible intro _
    | split

theorem kept_execTwinLinkDown {F : Fuses} {L : List Knot} {s t : State} (h : Kept F L s)  (e : execTwinLinkDown s = .next t) : Kept F L t := by
  unfold execTwinLinkDown at e
  refine kept_guard ?_ e
  clear e
  try dsimp only
  repeat' first
    | with_reducible assumption
    | with_reducible apply kept_twinLink
    | with_reducible apply kept_foldl
    | with_reducible apply kept_foldl_fst
    | with_reducible apply kept_ite
    | with_reducible apply kept_foldl_ff
    | with_reducible apply kept_ite_fst
    | with_reducible apply kept_ite_ff
    | dsimp only
    | (with_reducible intro _ _ _; try dsimp only)
    | with_reducible intro _
    | split

theorem kept_execTwinLinkUp {F : Fuses} {L : List Knot} {s t : State} (h : Kept F L s)  (e : execTwinLinkUp s = .next t) : Kept F L t := by
  unfold execTwinLinkUp at e
  refine kept_guard ?_ e
  clear e
  try dsimp only
  repeat' first
    | with_reducible assumption
    | with_reducible apply kept_twinLink
    | with_reducible apply kept_foldl
    | with_reducible apply kept_foldl_fst
    | with_reducible apply kept_ite
    | with_reducible apply kept_foldl_ff
    | with_reducible apply kept_ite_fst
    | with_reducible apply kept_ite_ff
    | dsimp only
    | (with_reducible intro _ _ _; try dsimp only)
    | with_reducible intro _
    | split

theorem kept_execFabricDieLoss {F : Fuses} {L : List Knot} {s t : State} (h : Kept F L s) (fd : Nat) (e : execFabricDieLoss fd s = .next t) : Kept F L t := by
  unfold execFabricDieLoss at e
  refine kept_guard ?_ e
  clear e
  try dsimp only
  repeat' first
    | with_reducible assumption
    | with_reducible apply kept_fdLoss
    | with_reducible apply kept_foldl
    | with_reducible apply kept_foldl_fst
    | with_reducible apply kept_ite
    | with_reducible apply kept_foldl_ff
    | with_reducible apply kept_ite_fst
    | with_reducible apply kept_ite_ff
    | dsimp only
    | (with_reducible intro _ _ _; try dsimp only)
    | with_reducible intro _
    | split

theorem kept_execRegisterWrite {F : Fuses} {L : List Knot} {s t : State} (h : Kept F L s) (src : Source) (addr : W64) (width : Nat) (data : WriteData) (e : execRegisterWrite src addr width data s = .next t) : Kept F L t := by
  unfold execRegisterWrite at e
  refine kept_guard ?_ e
  clear e
  try dsimp only
  repeat' first
    | with_reducible assumption
    | with_reducible apply kept_busWriteWith
    | with_reducible apply kept_foldl
    | with_reducible apply kept_foldl_fst
    | with_reducible apply kept_ite
    | with_reducible apply kept_foldl_ff
    | with_reducible apply kept_ite_fst
    | with_reducible apply kept_ite_ff
    | dsimp only
    | (with_reducible intro _ _ _; try dsimp only)
    | with_reducible intro _
    | split

theorem kept_execRegisterReadClear {F : Fuses} {L : List Knot} {s t : State} (h : Kept F L s) (src : Source) (addr : W64) (width : Nat) (coincident : Nat) (e : execRegisterReadClear src addr width coincident s = .next t) : Kept F L t := by
  unfold execRegisterReadClear at e
  refine kept_guard ?_ e
  clear e
  try dsimp only
  repeat' first
    | with_reducible assumption
    | with_reducible apply kept_busRead
    | with_reducible apply kept_foldl
    | with_reducible apply kept_foldl_fst
    | with_reducible apply kept_ite
    | with_reducible apply kept_foldl_ff
    | with_reducible apply kept_ite_fst
    | with_reducible apply kept_ite_ff
    | dsimp only
    | (with_reducible intro _ _ _; try dsimp only)
    | with_reducible intro _
    | split

theorem kept_execFaultRecordRearm {F : Fuses} {L : List Knot} {s t : State} (h : Kept F L s) (src : Source) (addr : W64) (val : W64) (e : execFaultRecordRearm src addr val s = .next t) : Kept F L t := by
  unfold execFaultRecordRearm at e
  refine kept_guard ?_ e
  clear e
  try dsimp only
  repeat' first
    | with_reducible assumption
    | with_reducible apply kept_busWrite
    | with_reducible apply kept_foldl
    | with_reducible apply kept_foldl_fst
    | with_reducible apply kept_ite
    | with_reducible apply kept_foldl_ff
    | with_reducible apply kept_ite_fst
    | with_reducible apply kept_ite_ff
    | dsimp only
    | (with_reducible intro _ _ _; try dsimp only)
    | with_reducible intro _
    | split

theorem kept_execBadAccessTallyReport {F : Fuses} {L : List Knot} {s t : State} (h : Kept F L s) (node : Nat) (e : execBadAccessTallyReport node s = .next t) : Kept F L t := by
  unfold execBadAccessTallyReport at e
  refine kept_guard ?_ e
  clear e
  try dsimp only
  repeat' first
    | with_reducible assumption
    | with_reducible apply kept_tallyReport
    | with_reducible apply kept_foldl
    | with_reducible apply kept_foldl_fst
    | with_reducible apply kept_ite
    | with_reducible apply kept_foldl_ff
    | with_reducible apply kept_ite_fst
    | with_reducible apply kept_ite_ff
    | dsimp only
    | (with_reducible intro _ _ _; try dsimp only)
    | with_reducible intro _
    | split

theorem kept_execSrSeedWrite {F : Fuses} {L : List Knot} {s t : State} (h : Kept F L s) (src : Source) (site : Nat) (core : Nat) (seed : W64) (e : execSrSeedWrite src site core seed s = .next t) : Kept F L t := by
  unfold execSrSeedWrite at e
  refine kept_guard ?_ e
  clear e
  try dsimp only
  repeat' first
    | with_reducible assumption
    | with_reducible apply kept_atSite
    | with_reducible apply kept_seedOn
    | with_reducible apply kept_foldl
    | with_reducible apply kept_foldl_fst
    | with_reducible apply kept_ite
    | with_reducible apply kept_foldl_ff
    | with_reducible apply kept_ite_fst
    | with_reducible apply kept_ite_ff
    | dsimp only
    | (with_reducible intro _ _ _; try dsimp only)
    | with_reducible intro _
    | split

theorem kept_execMcInjectArm {F : Fuses} {L : List Knot} {s t : State} (h : Kept F L s) (src : Source) (site : Nat) (val : W32) (e : execMcInjectArm src site val s = .next t) : Kept F L t := by
  unfold execMcInjectArm at e
  refine kept_guard ?_ e
  clear e
  try dsimp only
  repeat' first
    | with_reducible assumption
    | with_reducible apply kept_atSite
    | with_reducible apply kept_injectOn
    | with_reducible apply kept_foldl
    | with_reducible apply kept_foldl_fst
    | with_reducible apply kept_ite
    | with_reducible apply kept_foldl_ff
    | with_reducible apply kept_ite_fst
    | with_reducible apply kept_ite_ff
    | dsimp only
    | (with_reducible intro _ _ _; try dsimp only)
    | with_reducible intro _
    | split

theorem kept_execSCoreMemoryAccess {F : Fuses} {L : List Knot} {s t : State} (h : Kept F L s) (die : Nat) (sc : Nat) (kind : ScKind) (pa : BitVec 56) (width : Nat) (reg : BitVec 5) (e : execSCoreMemoryAccess die sc kind pa width reg s = .next t) : Kept F L t := by
  unfold execSCoreMemoryAccess at e
  refine kept_guard ?_ e
  clear e
  try dsimp only
  repeat' first
    | with_reducible assumption
    | with_reducible apply kept_scExecute
    | with_reducible apply kept_scAccess
    | with_reducible apply kept_foldl
    | with_reducible apply kept_foldl_fst
    | with_reducible apply kept_ite
    | with_reducible apply kept_foldl_ff
    | with_reducible apply kept_ite_fst
    | with_reducible apply kept_ite_ff
    | dsimp only
    | (with_reducible intro _ _ _; try dsimp only)
    | with_reducible intro _
    | split

theorem kept_execStripeReceive {F : Fuses} {L : List Knot} {s t : State} (h : Kept F L s) (die : Nat) (side : Nat) (st : Stripe) (e : execStripeReceive die side st s = .next t) : Kept F L t := by
  unfold execStripeReceive at e
  refine kept_guard ?_ e
  clear e
  try dsimp only
  repeat' first
    | with_reducible assumption
    | with_reducible apply kept_stripeIn
    | with_reducible apply kept_foldl
    | with_reducible apply kept_foldl_fst
    | with_reducible apply kept_ite
    | with_reducible apply kept_foldl_ff
    | with_reducible apply kept_ite_fst
    | with_reducible apply kept_ite_ff
    | dsimp only
    | (with_reducible intro _ _ _; try dsimp only)
    | with_reducible intro _
    | split

theorem kept_execDynCodewordReceive {F : Fuses} {L : List Knot} {s t : State} (h : Kept F L s) (node : Nat) (port : Nat) (c : Codeword) (e : execDynCodewordReceive node port c s = .next t) : Kept F L t := by
  unfold execDynCodewordReceive at e
  refine kept_guard ?_ e
  clear e
  try dsimp only
  repeat' first
    | with_reducible assumption
    | with_reducible apply kept_codewordIn
    | with_reducible apply kept_foldl
    | with_reducible apply kept_foldl_fst
    | with_reducible apply kept_ite
    | with_reducible apply kept_foldl_ff
    | with_reducible apply kept_ite_fst
    | with_reducible apply kept_ite_ff
    | dsimp only
    | (with_reducible intro _ _ _; try dsimp only)
    | with_reducible intro _
    | split

theorem kept_execPacketHop {F : Fuses} {L : List Knot} {s t : State} (h : Kept F L s) (node : Nat) (out : Nat) (e : execPacketHop node out s = .next t) : Kept F L t := by
  unfold execPacketHop at e
  refine kept_guard ?_ e
  clear e
  try dsimp only
  repeat' first
    | with_reducible assumption
    | with_reducible apply kept_packetHop
    | with_reducible apply kept_foldl
    | with_reducible apply kept_foldl_fst
    | with_reducible apply kept_ite
    | with_reducible apply kept_foldl_ff
    | with_reducible apply kept_ite_fst
    | with_reducible apply kept_ite_ff
    | dsimp only
    | (with_reducible intro _ _ _; try dsimp only)
    | with_reducible intro _
    | split

theorem kept_execSpindleForward {F : Fuses} {L : List Knot} {s t : State} (h : Kept F L s) (node : Nat) (port : Nat) (cls : Bool) (e0 : Ecc) (e : execSpindleForward node port cls e0 s = .next t) : Kept F L t := by
  unfold execSpindleForward at e
  refine kept_guard ?_ e
  clear e
  try dsimp only
  repeat' first
    | with_reducible assumption
    | with_reducible apply kept_spForward
    | with_reducible apply kept_foldl
    | with_reducible apply kept_foldl_fst
    | with_reducible apply kept_ite
    | with_reducible apply kept_foldl_ff
    | with_reducible apply kept_ite_fst
    | with_reducible apply kept_ite_ff
    | dsimp only
    | (with_reducible intro _ _ _; try dsimp only)
    | with_reducible intro _
    | split

theorem kept_execSpsend {F : Fuses} {L : List Knot} {s t : State} (h : Kept F L s) (die : Nat) (srcSite : Nat) (payload : W64) (e : execSpsend die srcSite payload s = .next t) : Kept F L t := by
  unfold execSpsend at e
  refine kept_guard ?_ e
  clear e
  try dsimp only
  repeat' first
    | with_reducible assumption
    | with_reducible apply kept_spDrop
    | with_reducible apply kept_spsendIn
    | with_reducible apply kept_foldl
    | with_reducible apply kept_foldl_fst
    | with_reducible apply kept_ite
    | with_reducible apply kept_foldl_ff
    | with_reducible apply kept_ite_fst
    | with_reducible apply kept_ite_ff
    | dsimp only
    | (with_reducible intro _ _ _; try dsimp only)
    | with_reducible intro _
    | split

theorem kept_execBarArrive {F : Fuses} {L : List Knot} {s t : State} (h : Kept F L s) (node : Nat) (barrier : Nat) (child : Nat) (e : execBarArrive node barrier child s = .next t) : Kept F L t := by
  unfold execBarArrive at e
  refine kept_guard ?_ e
  clear e
  try dsimp only
  repeat' first
    | with_reducible assumption
    | with_reducible apply kept_spDrop
    | with_reducible apply kept_barArriveIn
    | with_reducible apply kept_foldl
    | with_reducible apply kept_foldl_fst
    | with_reducible apply kept_ite
    | with_reducible apply kept_foldl_ff
    | with_reducible apply kept_ite_fst
    | with_reducible apply kept_ite_ff
    | dsimp only
    | (with_reducible intro _ _ _; try dsimp only)
    | with_reducible intro _
    | split

theorem kept_execBarRelease {F : Fuses} {L : List Knot} {s t : State} (h : Kept F L s) (die : Nat) (barrier : Nat) (e : execBarRelease die barrier s = .next t) : Kept F L t := by
  unfold execBarRelease at e
  refine kept_guard ?_ e
  clear e
  try dsimp only
  repeat' first
    | with_reducible assumption
    | with_reducible apply kept_spDrop
    | with_reducible apply kept_barReleaseIn
    | with_reducible apply kept_foldl
    | with_reducible apply kept_foldl_fst
    | with_reducible apply kept_ite
    | with_reducible apply kept_foldl_ff
    | with_reducible apply kept_ite_fst
    | with_reducible apply kept_ite_ff
    | dsimp only
    | (with_reducible intro _ _ _; try dsimp only)
    | with_reducible intro _
    | split

theorem kept_execStart {F : Fuses} {L : List Knot} {s t : State} (h : Kept F L s) (die : Nat) (cycle : W64) (e : execStart die cycle s = .next t) : Kept F L t := by
  unfold execStart at e
  refine kept_guard ?_ e
  clear e
  try dsimp only
  repeat' first
    | with_reducible assumption
    | with_reducible apply kept_spDrop
    | with_reducible apply kept_startIn
    | with_reducible apply kept_foldl
    | with_reducible apply kept_foldl_fst
    | with_reducible apply kept_ite
    | with_reducible apply kept_foldl_ff
    | with_reducible apply kept_ite_fst
    | with_reducible apply kept_ite_ff
    | dsimp only
    | (with_reducible intro _ _ _; try dsimp only)
    | with_reducible intro _
    | split

theorem kept_execYield {F : Fuses} {L : List Knot} {s t : State} (h : Kept F L s) (die : Nat) (epoch : W32) (e : execYield die epoch s = .next t) : Kept F L t := by
  unfold execYield at e
  refine kept_guard ?_ e
  clear e
  try dsimp only
  repeat' first
    | with_reducible assumption
    | with_reducible apply kept_spDrop
    | with_reducible apply kept_yieldIn
    | with_reducible apply kept_foldl
    | with_reducible apply kept_foldl_fst
    | with_reducible apply kept_ite
    | with_reducible apply kept_foldl_ff
    | with_reducible apply kept_ite_fst
    | with_reducible apply kept_ite_ff
    | dsimp only
    | (with_reducible intro _ _ _; try dsimp only)
    | with_reducible intro _
    | split

theorem kept_execNotice {F : Fuses} {L : List Knot} {s t : State} (h : Kept F L s) (site : Nat) (kind : Nat) (e : execNotice site kind s = .next t) : Kept F L t := by
  unfold execNotice at e
  refine kept_guard ?_ e
  clear e
  try dsimp only
  repeat' first
    | with_reducible assumption
    | with_reducible apply kept_notice
    | with_reducible apply kept_spDrop
    | with_reducible apply kept_noticeIn
    | with_reducible apply kept_foldl
    | with_reducible apply kept_foldl_fst
    | with_reducible apply kept_ite
    | with_reducible apply kept_foldl_ff
    | with_reducible apply kept_ite_fst
    | with_reducible apply kept_ite_ff
    | dsimp only
    | (with_reducible intro _ _ _; try dsimp only)
    | with_reducible intro _
    | split

theorem kept_execBeacon {F : Fuses} {L : List Knot} {s t : State} (h : Kept F L s) (node : Nat) (payload : W64) (e : execBeacon node payload s = .next t) : Kept F L t := by
  unfold execBeacon at e
  refine kept_guard ?_ e
  clear e
  try dsimp only
  repeat' first
    | with_reducible assumption
    | with_reducible apply kept_beaconIn
    | with_reducible apply kept_foldl
    | with_reducible apply kept_foldl_fst
    | with_reducible apply kept_ite
    | with_reducible apply kept_foldl_ff
    | with_reducible apply kept_ite_fst
    | with_reducible apply kept_ite_ff
    | dsimp only
    | (with_reducible intro _ _ _; try dsimp only)
    | with_reducible intro _
    | split

theorem kept_execAlert {F : Fuses} {L : List Knot} {s t : State} (h : Kept F L s) (a : Alert) (e : execAlert a s = .next t) : Kept F L t := by
  unfold execAlert at e
  refine kept_guard ?_ e
  clear e
  try dsimp only
  repeat' first
    | with_reducible assumption
    | with_reducible apply kept_spDrop
    | with_reducible apply kept_alertTake
    | with_reducible apply kept_foldl
    | with_reducible apply kept_foldl_fst
    | with_reducible apply kept_ite
    | with_reducible apply kept_foldl_ff
    | with_reducible apply kept_ite_fst
    | with_reducible apply kept_ite_ff
    | dsimp only
    | (with_reducible intro _ _ _; try dsimp only)
    | with_reducible intro _
    | split

theorem kept_execRegRd {F : Fuses} {L : List Knot} {s t : State} (h : Kept F L s) (node : Nat) (off : Nat) (e : execRegRd node off s = .next t) : Kept F L t := by
  unfold execRegRd at e
  refine kept_guard ?_ e
  clear e
  try dsimp only
  repeat' first
    | with_reducible assumption
    | with_reducible apply kept_spDrop
    | with_reducible apply kept_regRdIn
    | with_reducible apply kept_foldl
    | with_reducible apply kept_foldl_fst
    | with_reducible apply kept_ite
    | with_reducible apply kept_foldl_ff
    | with_reducible apply kept_ite_fst
    | with_reducible apply kept_ite_ff
    | dsimp only
    | (with_reducible intro _ _ _; try dsimp only)
    | with_reducible intro _
    | split

theorem kept_execRegWr {F : Fuses} {L : List Knot} {s t : State} (h : Kept F L s) (node : Nat) (off : Nat) (val : W64) (e : execRegWr node off val s = .next t) : Kept F L t := by
  unfold execRegWr at e
  refine kept_guard ?_ e
  clear e
  try dsimp only
  repeat' first
    | with_reducible assumption
    | with_reducible apply kept_spDrop
    | with_reducible apply kept_regWrIn
    | with_reducible apply kept_foldl
    | with_reducible apply kept_foldl_fst
    | with_reducible apply kept_ite
    | with_reducible apply kept_foldl_ff
    | with_reducible apply kept_ite_fst
    | with_reducible apply kept_ite_ff
    | dsimp only
    | (with_reducible intro _ _ _; try dsimp only)
    | with_reducible intro _
    | split

theorem kept_execRegRsp {F : Fuses} {L : List Knot} {s t : State} (h : Kept F L s) (node : Nat) (serial : Nat) (e : execRegRsp node serial s = .next t) : Kept F L t := by
  unfold execRegRsp at e
  refine kept_guard ?_ e
  clear e
  try dsimp only
  repeat' first
    | with_reducible assumption
    | with_reducible apply kept_spDrop
    | with_reducible apply kept_regRspIn
    | with_reducible apply kept_foldl
    | with_reducible apply kept_foldl_fst
    | with_reducible apply kept_ite
    | with_reducible apply kept_foldl_ff
    | with_reducible apply kept_ite_fst
    | with_reducible apply kept_ite_ff
    | dsimp only
    | (with_reducible intro _ _ _; try dsimp only)
    | with_reducible intro _
    | split

theorem kept_execAlertRepeat {F : Fuses} {L : List Knot} {s t : State} (h : Kept F L s) (node : Nat) (e : execAlertRepeat node s = .next t) : Kept F L t := by
  unfold execAlertRepeat at e
  refine kept_guard ?_ e
  clear e
  try dsimp only
  repeat' first
    | with_reducible assumption
    | with_reducible apply kept_alertAgain
    | with_reducible apply kept_foldl
    | with_reducible apply kept_foldl_fst
    | with_reducible apply kept_ite
    | with_reducible apply kept_foldl_ff
    | with_reducible apply kept_ite_fst
    | with_reducible apply kept_ite_ff
    | dsimp only
    | (with_reducible intro _ _ _; try dsimp only)
    | with_reducible intro _
    | split

theorem kept_execEventMergeFlush {F : Fuses} {L : List Knot} {s t : State} (h : Kept F L s) (code : Nat) (unit : Nat) (e : execEventMergeFlush code unit s = .next t) : Kept F L t := by
  unfold execEventMergeFlush at e
  refine kept_guard ?_ e
  clear e
  try dsimp only
  repeat' first
    | with_reducible assumption
    | with_reducible apply kept_mergeFlush
    | with_reducible apply kept_foldl
    | with_reducible apply kept_foldl_fst
    | with_reducible apply kept_ite
    | with_reducible apply kept_foldl_ff
    | with_reducible apply kept_ite_fst
    | with_reducible apply kept_ite_ff
    | dsimp only
    | (with_reducible intro _ _ _; try dsimp only)
    | with_reducible intro _
    | split

theorem kept_execOpn {F : Fuses} {L : List Knot} {s t : State} (h : Kept F L s) (part : Nat) (slot : Nat) (port : Nat) (sigOk : Bool) (e : execOpn part slot port sigOk s = .next t) : Kept F L t := by
  unfold execOpn at e
  refine kept_guard ?_ e
  clear e
  try dsimp only
  repeat' first
    | with_reducible assumption
    | with_reducible apply kept_openIn
    | with_reducible apply kept_foldl
    | with_reducible apply kept_foldl_fst
    | with_reducible apply kept_ite
    | with_reducible apply kept_foldl_ff
    | with_reducible apply kept_ite_fst
    | with_reducible apply kept_ite_ff
    | dsimp only
    | (with_reducible intro _ _ _; try dsimp only)
    | with_reducible intro _
    | split

theorem kept_execSubmit {F : Fuses} {L : List Knot} {s t : State} (h : Kept F L s) (sess : Nat) (gen : BitVec 16) (h0 : HostHdr) (items : List WItem) (e : execSubmit sess gen h0 items s = .next t) : Kept F L t := by
  unfold execSubmit at e
  refine kept_guard ?_ e
  clear e
  try dsimp only
  repeat' first
    | with_reducible assumption
    | with_reducible apply kept_hostPkt
    | with_reducible apply kept_submitIn
    | with_reducible apply kept_foldl
    | with_reducible apply kept_foldl_fst
    | with_reducible apply kept_ite
    | with_reducible apply kept_foldl_ff
    | with_reducible apply kept_ite_fst
    | with_reducible apply kept_ite_ff
    | dsimp only
    | (with_reducible intro _ _ _; try dsimp only)
    | with_reducible intro _
    | split

theorem kept_execSdata {F : Fuses} {L : List Knot} {s t : State} (h : Kept F L s) (sess : Nat) (gen : BitVec 16) (h0 : HostHdr) (sseq : W32) (off : Nat) (data : List Byte) (e : execSdata sess gen h0 sseq off data s = .next t) : Kept F L t := by
  unfold execSdata at e
  refine kept_guard ?_ e
  clear e
  try dsimp only
  repeat' first
    | with_reducible assumption
    | with_reducible apply kept_hostPkt
    | with_reducible apply kept_sdataIn
    | with_reducible apply kept_foldl
    | with_reducible apply kept_foldl_fst
    | with_reducible apply kept_ite
    | with_reducible apply kept_foldl_ff
    | with_reducible apply kept_ite_fst
    | with_reducible apply kept_ite_ff
    | dsimp only
    | (with_reducible intro _ _ _; try dsimp only)
    | with_reducible intro _
    | split

theorem kept_execCplAck {F : Fuses} {L : List Knot} {s t : State} (h : Kept F L s) (sess : Nat) (gen : BitVec 16) (h0 : HostHdr) (cseq : W32) (e : execCplAck sess gen h0 cseq s = .next t) : Kept F L t := by
  unfold execCplAck at e
  refine kept_guard ?_ e
  clear e
  try dsimp only
  repeat' first
    | with_reducible assumption
    | with_reducible apply kept_hostPkt
    | with_reducible apply kept_cplAckIn
    | with_reducible apply kept_foldl
    | with_reducible apply kept_foldl_fst
    | with_reducible apply kept_ite
    | with_reducible apply kept_foldl_ff
    | with_reducible apply kept_ite_fst
    | with_reducible apply kept_ite_ff
    | dsimp only
    | (with_reducible intro _ _ _; try dsimp only)
    | with_reducible intro _
    | split

theorem kept_execClose {F : Fuses} {L : List Knot} {s t : State} (h : Kept F L s) (sess : Nat) (gen : BitVec 16) (h0 : HostHdr) (e : execClose sess gen h0 s = .next t) : Kept F L t := by
  unfold execClose at e
  refine kept_guard ?_ e
  clear e
  try dsimp only
  repeat' first
    | with_reducible assumption
    | with_reducible apply kept_hostPkt
    | with_reducible apply kept_endSession
    | with_reducible apply kept_foldl
    | with_reducible apply kept_foldl_fst
    | with_reducible apply kept_ite
    | with_reducible apply kept_foldl_ff
    | with_reducible apply kept_ite_fst
    | with_reducible apply kept_ite_ff
    | dsimp only
    | (with_reducible intro _ _ _; try dsimp only)
    | with_reducible intro _
    | split

theorem kept_execSessionTimeout {F : Fuses} {L : List Knot} {s t : State} (h : Kept F L s) (sess : Nat) (e : execSessionTimeout sess s = .next t) : Kept F L t := by
  unfold execSessionTimeout at e
  refine kept_guard ?_ e
  clear e
  try dsimp only
  repeat' first
    | with_reducible assumption
    | with_reducible apply kept_endSession
    | with_reducible apply kept_foldl
    | with_reducible apply kept_foldl_fst
    | with_reducible apply kept_ite
    | with_reducible apply kept_foldl_ff
    | with_reducible apply kept_ite_fst
    | with_reducible apply kept_ite_ff
    | dsimp only
    | (with_reducible intro _ _ _; try dsimp only)
    | with_reducible intro _
    | split

theorem kept_execCplResend {F : Fuses} {L : List Knot} {s t : State} (h : Kept F L s) (sess : Nat) (e : execCplResend sess s = .next t) : Kept F L t := by
  unfold execCplResend at e
  refine kept_guard ?_ e
  clear e
  try dsimp only
  repeat' first
    | with_reducible assumption
    | with_reducible apply kept_cplAll
    | with_reducible apply kept_foldl
    | with_reducible apply kept_foldl_fst
    | with_reducible apply kept_ite
    | with_reducible apply kept_foldl_ff
    | with_reducible apply kept_ite_fst
    | with_reducible apply kept_ite_ff
    | dsimp only
    | (with_reducible intro _ _ _; try dsimp only)
    | with_reducible intro _
    | split

theorem kept_execWorkItemStart {F : Fuses} {L : List Knot} {s t : State} (h : Kept F L s) (sess : Nat) (sseq : W32) (e : execWorkItemStart sess sseq s = .next t) : Kept F L t := by
  unfold execWorkItemStart at e
  refine kept_guard ?_ e
  clear e
  try dsimp only
  repeat' first
    | with_reducible assumption
    | with_reducible apply kept_itemStart
    | with_reducible apply kept_foldl
    | with_reducible apply kept_foldl_fst
    | with_reducible apply kept_ite
    | with_reducible apply kept_foldl_ff
    | with_reducible apply kept_ite_fst
    | with_reducible apply kept_ite_ff
    | dsimp only
    | (with_reducible intro _ _ _; try dsimp only)
    | with_reducible intro _
    | split

theorem kept_execItemWrite {F : Fuses} {L : List Knot} {s t : State} (h : Kept F L s) (sess : Nat) (sseq : W32) (e : execItemWrite sess sseq s = .next t) : Kept F L t := by
  unfold execItemWrite at e
  refine kept_guard ?_ e
  clear e
  try dsimp only
  repeat' first
    | with_reducible assumption
    | with_reducible apply kept_itemWrite
    | with_reducible apply kept_foldl
    | with_reducible apply kept_foldl_fst
    | with_reducible apply kept_ite
    | with_reducible apply kept_foldl_ff
    | with_reducible apply kept_ite_fst
    | with_reducible apply kept_ite_ff
    | dsimp only
    | (with_reducible intro _ _ _; try dsimp only)
    | with_reducible intro _
    | split

theorem kept_execWriteSdataTimeout {F : Fuses} {L : List Knot} {s t : State} (h : Kept F L s) (sess : Nat) (sseq : W32) (e : execWriteSdataTimeout sess sseq s = .next t) : Kept F L t := by
  unfold execWriteSdataTimeout at e
  refine kept_guard ?_ e
  clear e
  try dsimp only
  repeat' first
    | with_reducible assumption
    | with_reducible apply kept_foldl
    | with_reducible apply kept_foldl_fst
    | with_reducible apply kept_ite
    | with_reducible apply kept_foldl_ff
    | with_reducible apply kept_ite_fst
    | with_reducible apply kept_ite_ff
    | dsimp only
    | (with_reducible intro _ _ _; try dsimp only)
    | with_reducible intro _
    | split
    | with_reducible apply kept_writeTimeout

theorem kept_execItemRead {F : Fuses} {L : List Knot} {s t : State} (h : Kept F L s) (sess : Nat) (sseq : W32) (e : execItemRead sess sseq s = .next t) : Kept F L t := by
  unfold execItemRead at e
  refine kept_guard ?_ e
  clear e
  try dsimp only
  repeat' first
    | with_reducible assumption
    | with_reducible apply kept_itemRead
    | with_reducible apply kept_foldl
    | with_reducible apply kept_foldl_fst
    | with_reducible apply kept_ite
    | with_reducible apply kept_foldl_ff
    | with_reducible apply kept_ite_fst
    | with_reducible apply kept_ite_ff
    | dsimp only
    | (with_reducible intro _ _ _; try dsimp only)
    | with_reducible intro _
    | split

theorem kept_execCopy {F : Fuses} {L : List Knot} {s t : State} (h : Kept F L s) (sess : Nat) (sseq : W32) (e : execCopy sess sseq s = .next t) : Kept F L t := by
  unfold execCopy at e
  refine kept_guard ?_ e
  clear e
  try dsimp only
  repeat' first
    | with_reducible assumption
    | with_reducible apply kept_itemCopy
    | with_reducible apply kept_foldl
    | with_reducible apply kept_foldl_fst
    | with_reducible apply kept_ite
    | with_reducible apply kept_foldl_ff
    | with_reducible apply kept_ite_fst
    | with_reducible apply kept_ite_ff
    | dsimp only
    | (with_reducible intro _ _ _; try dsimp only)
    | with_reducible intro _
    | split

theorem kept_execJobLoad {F : Fuses} {L : List Knot} {s t : State} (h : Kept F L s) (sess : Nat) (sseq : W32) (img : Image) (e : execJobLoad sess sseq img s = .next t) : Kept F L t := by
  unfold execJobLoad at e
  refine kept_guard ?_ e
  clear e
  try dsimp only
  repeat' first
    | with_reducible assumption
    | with_reducible apply kept_itemLoad
    | with_reducible apply kept_foldl
    | with_reducible apply kept_foldl_fst
    | with_reducible apply kept_ite
    | with_reducible apply kept_foldl_ff
    | with_reducible apply kept_ite_fst
    | with_reducible apply kept_ite_ff
    | dsimp only
    | (with_reducible intro _ _ _; try dsimp only)
    | with_reducible intro _
    | split

theorem kept_execJobStart {F : Fuses} {L : List Knot} {s t : State} (h : Kept F L s) (sess : Nat) (sseq : W32) (e : execJobStart sess sseq s = .next t) : Kept F L t := by
  unfold execJobStart at e
  refine kept_guard ?_ e
  clear e
  try dsimp only
  repeat' first
    | with_reducible assumption
    | with_reducible apply kept_itemJobStart
    | with_reducible apply kept_foldl
    | with_reducible apply kept_foldl_fst
    | with_reducible apply kept_ite
    | with_reducible apply kept_foldl_ff
    | with_reducible apply kept_ite_fst
    | with_reducible apply kept_ite_ff
    | dsimp only
    | (with_reducible intro _ _ _; try dsimp only)
    | with_reducible intro _
    | split

theorem kept_execJobKill {F : Fuses} {L : List Knot} {s t : State} (h : Kept F L s) (sess : Nat) (sseq : W32) (e : execJobKill sess sseq s = .next t) : Kept F L t := by
  unfold execJobKill at e
  refine kept_guard ?_ e
  clear e
  try dsimp only
  repeat' first
    | with_reducible assumption
    | with_reducible apply kept_itemKill
    | with_reducible apply kept_foldl
    | with_reducible apply kept_foldl_fst
    | with_reducible apply kept_ite
    | with_reducible apply kept_foldl_ff
    | with_reducible apply kept_ite_fst
    | with_reducible apply kept_ite_ff
    | dsimp only
    | (with_reducible intro _ _ _; try dsimp only)
    | with_reducible intro _
    | split

theorem kept_execCheckpoint {F : Fuses} {L : List Knot} {s t : State} (h : Kept F L s) (sess : Nat) (sseq : W32) (e : execCheckpoint sess sseq s = .next t) : Kept F L t := by
  unfold execCheckpoint at e
  refine kept_guard ?_ e
  clear e
  try dsimp only
  repeat' first
    | with_reducible assumption
    | with_reducible apply kept_itemCheckpoint
    | with_reducible apply kept_foldl
    | with_reducible apply kept_foldl_fst
    | with_reducible apply kept_ite
    | with_reducible apply kept_foldl_ff
    | with_reducible apply kept_ite_fst
    | with_reducible apply kept_ite_ff
    | dsimp only
    | (with_reducible intro _ _ _; try dsimp only)
    | with_reducible intro _
    | split

theorem kept_execRelease {F : Fuses} {L : List Knot} {s t : State} (h : Kept F L s) (sess : Nat) (sseq : W32) (e : execRelease sess sseq s = .next t) : Kept F L t := by
  unfold execRelease at e
  refine kept_guard ?_ e
  clear e
  try dsimp only
  repeat' first
    | with_reducible assumption
    | with_reducible apply kept_itemRelease
    | with_reducible apply kept_foldl
    | with_reducible apply kept_foldl_fst
    | with_reducible apply kept_ite
    | with_reducible apply kept_foldl_ff
    | with_reducible apply kept_ite_fst
    | with_reducible apply kept_ite_ff
    | dsimp only
    | (with_reducible intro _ _ _; try dsimp only)
    | with_reducible intro _
    | split

theorem kept_execHint {F : Fuses} {L : List Knot} {s t : State} (h : Kept F L s) (sess : Nat) (sseq : W32) (e : execHint sess sseq s = .next t) : Kept F L t := by
  unfold execHint at e
  refine kept_guard ?_ e
  clear e
  try dsimp only
  repeat' first
    | with_reducible assumption
    | with_reducible apply kept_itemHint
    | with_reducible apply kept_foldl
    | with_reducible apply kept_foldl_fst
    | with_reducible apply kept_ite
    | with_reducible apply kept_foldl_ff
    | with_reducible apply kept_ite_fst
    | with_reducible apply kept_ite_ff
    | dsimp only
    | (with_reducible intro _ _ _; try dsimp only)
    | with_reducible intro _
    | split

theorem kept_execItemNop {F : Fuses} {L : List Knot} {s t : State} (h : Kept F L s) (sess : Nat) (sseq : W32) (e : execItemNop sess sseq s = .next t) : Kept F L t := by
  unfold execItemNop at e
  refine kept_guard ?_ e
  clear e
  try dsimp only
  repeat' first
    | with_reducible assumption
    | with_reducible apply kept_itemNop
    | with_reducible apply kept_foldl
    | with_reducible apply kept_foldl_fst
    | with_reducible apply kept_ite
    | with_reducible apply kept_foldl_ff
    | with_reducible apply kept_ite_fst
    | with_reducible apply kept_ite_ff
    | dsimp only
    | (with_reducible intro _ _ _; try dsimp only)
    | with_reducible intro _
    | split

theorem kept_execHintExpire {F : Fuses} {L : List Knot} {s t : State} (h : Kept F L s) (sess : Nat) (e : execHintExpire sess s = .next t) : Kept F L t := by
  unfold execHintExpire at e
  refine kept_guard ?_ e
  clear e
  try dsimp only
  repeat' first
    | with_reducible assumption
    | with_reducible apply kept_hintEnd
    | with_reducible apply kept_foldl
    | with_reducible apply kept_foldl_fst
    | with_reducible apply kept_ite
    | with_reducible apply kept_foldl_ff
    | with_reducible apply kept_ite_fst
    | with_reducible apply kept_ite_ff
    | dsimp only
    | (with_reducible intro _ _ _; try dsimp only)
    | with_reducible intro _
    | split

theorem kept_execRetentionExpire {F : Fuses} {L : List Knot} {s t : State} (h : Kept F L s) (part : Nat) (ctx : Nat) (e : execRetentionExpire part ctx s = .next t) : Kept F L t := by
  unfold execRetentionExpire at e
  refine kept_guard ?_ e
  clear e
  try dsimp only
  repeat' first
    | with_reducible assumption
    | with_reducible apply kept_keptEnd
    | with_reducible apply kept_foldl
    | with_reducible apply kept_foldl_fst
    | with_reducible apply kept_ite
    | with_reducible apply kept_foldl_ff
    | with_reducible apply kept_ite_fst
    | with_reducible apply kept_ite_ff
    | dsimp only
    | (with_reducible intro _ _ _; try dsimp only)
    | with_reducible intro _
    | split

theorem kept_execHostPortUp {F : Fuses} {L : List Knot} {s t : State} (h : Kept F L s) (portB : Bool) (e : execHostPortUp portB s = .next t) : Kept F L t := by
  unfold execHostPortUp at e
  refine kept_guard ?_ e
  clear e
  try dsimp only
  repeat' first
    | with_reducible assumption
    | with_reducible apply kept_portRise
    | with_reducible apply kept_foldl
    | with_reducible apply kept_foldl_fst
    | with_reducible apply kept_ite
    | with_reducible apply kept_foldl_ff
    | with_reducible apply kept_ite_fst
    | with_reducible apply kept_ite_ff
    | dsimp only
    | (with_reducible intro _ _ _; try dsimp only)
    | with_reducible intro _
    | split

theorem kept_execHostPortDown {F : Fuses} {L : List Knot} {s t : State} (h : Kept F L s) (portB : Bool) (e : execHostPortDown portB s = .next t) : Kept F L t := by
  unfold execHostPortDown at e
  refine kept_guard ?_ e
  clear e
  try dsimp only
  repeat' first
    | with_reducible assumption
    | with_reducible apply kept_portFall
    | with_reducible apply kept_foldl
    | with_reducible apply kept_foldl_fst
    | with_reducible apply kept_ite
    | with_reducible apply kept_foldl_ff
    | with_reducible apply kept_ite_fst
    | with_reducible apply kept_ite_ff
    | dsimp only
    | (with_reducible intro _ _ _; try dsimp only)
    | with_reducible intro _
    | split

theorem kept_execReferenceLoss {F : Fuses} {L : List Knot} {s t : State} (h : Kept F L s) (node : Nat) (refB : Bool) (e : execReferenceLoss node refB s = .next t) : Kept F L t := by
  unfold execReferenceLoss at e
  refine kept_guard ?_ e
  clear e
  try dsimp only
  repeat' first
    | with_reducible assumption
    | with_reducible apply kept_refLost
    | with_reducible apply kept_foldl
    | with_reducible apply kept_foldl_fst
    | with_reducible apply kept_ite
    | with_reducible apply kept_foldl_ff
    | with_reducible apply kept_ite_fst
    | with_reducible apply kept_ite_ff
    | dsimp only
    | (with_reducible intro _ _ _; try dsimp only)
    | with_reducible intro _
    | split

theorem kept_execReferenceRestored {F : Fuses} {L : List Knot} {s t : State} (h : Kept F L s) (node : Nat) (refB : Bool) (e : execReferenceRestored node refB s = .next t) : Kept F L t := by
  unfold execReferenceRestored at e
  refine kept_guard ?_ e
  clear e
  try dsimp only
  repeat' first
    | with_reducible assumption
    | with_reducible apply kept_refBack
    | with_reducible apply kept_foldl
    | with_reducible apply kept_foldl_fst
    | with_reducible apply kept_ite
    | with_reducible apply kept_foldl_ff
    | with_reducible apply kept_ite_fst
    | with_reducible apply kept_ite_ff
    | dsimp only
    | (with_reducible intro _ _ _; try dsimp only)
    | with_reducible intro _
    | split

theorem kept_execFreqStepStop {F : Fuses} {L : List Knot} {s t : State} (h : Kept F L s) (part : Nat) (e : execFreqStepStop part s = .next t) : Kept F L t := by
  unfold execFreqStepStop at e
  refine kept_guard ?_ e
  clear e
  try dsimp only
  repeat' first
    | with_reducible assumption
    | with_reducible apply kept_stepStop
    | with_reducible apply kept_foldl
    | with_reducible apply kept_foldl_fst
    | with_reducible apply kept_ite
    | with_reducible apply kept_foldl_ff
    | with_reducible apply kept_ite_fst
    | with_reducible apply kept_ite_ff
    | dsimp only
    | (with_reducible intro _ _ _; try dsimp only)
    | with_reducible intro _
    | split

theorem kept_execFreqStepCountLoad {F : Fuses} {L : List Knot} {s t : State} (h : Kept F L s) (part : Nat) (e : execFreqStepCountLoad part s = .next t) : Kept F L t := by
  unfold execFreqStepCountLoad at e
  refine kept_guard ?_ e
  clear e
  try dsimp only
  repeat' first
    | with_reducible assumption
    | with_reducible apply kept_stepLoad
    | with_reducible apply kept_foldl
    | with_reducible apply kept_foldl_fst
    | with_reducible apply kept_ite
    | with_reducible apply kept_foldl_ff
    | with_reducible apply kept_ite_fst
    | with_reducible apply kept_ite_ff
    | dsimp only
    | (with_reducible intro _ _ _; try dsimp only)
    | with_reducible intro _
    | split

theorem kept_execFreqStepResume {F : Fuses} {L : List Knot} {s t : State} (h : Kept F L s) (part : Nat) (late : List Nat) (e : execFreqStepResume part late s = .next t) : Kept F L t := by
  unfold execFreqStepResume at e
  refine kept_guard ?_ e
  clear e
  try dsimp only
  repeat' first
    | with_reducible assumption
    | with_reducible apply kept_stepResume
    | with_reducible apply kept_foldl
    | with_reducible apply kept_foldl_fst
    | with_reducible apply kept_ite
    | with_reducible apply kept_foldl_ff
    | with_reducible apply kept_ite_fst
    | with_reducible apply kept_ite_ff
    | dsimp only
    | (with_reducible intro _ _ _; try dsimp only)
    | with_reducible intro _
    | split

theorem kept_execLocalHoldBegin {F : Fuses} {L : List Knot} {s t : State} (h : Kept F L s) (node : Nat) (mon : Nat) (slack : Nat) (e : execLocalHoldBegin node mon slack s = .next t) : Kept F L t := by
  unfold execLocalHoldBegin at e
  refine kept_guard ?_ e
  clear e
  try dsimp only
  repeat' first
    | with_reducible assumption
    | with_reducible apply kept_holdBegin
    | with_reducible apply kept_foldl
    | with_reducible apply kept_foldl_fst
    | with_reducible apply kept_ite
    | with_reducible apply kept_foldl_ff
    | with_reducible apply kept_ite_fst
    | with_reducible apply kept_ite_ff
    | dsimp only
    | (with_reducible intro _ _ _; try dsimp only)
    | with_reducible intro _
    | split

theorem kept_execLocalHoldRelease {F : Fuses} {L : List Knot} {s t : State} (h : Kept F L s) (node : Nat) (e : execLocalHoldRelease node s = .next t) : Kept F L t := by
  unfold execLocalHoldRelease at e
  refine kept_guard ?_ e
  clear e
  try dsimp only
  repeat' first
    | with_reducible assumption
    | with_reducible apply kept_holdEnd
    | with_reducible apply kept_foldl
    | with_reducible apply kept_foldl_fst
    | with_reducible apply kept_ite
    | with_reducible apply kept_foldl_ff
    | with_reducible apply kept_ite_fst
    | with_reducible apply kept_ite_ff
    | dsimp only
    | (with_reducible intro _ _ _; try dsimp only)
    | with_reducible intro _
    | split

theorem kept_execReplicaSlackZero {F : Fuses} {L : List Knot} {s t : State} (h : Kept F L s) (die : Nat) (mon : Nat) (e : execReplicaSlackZero die mon s = .next t) : Kept F L t := by
  unfold execReplicaSlackZero at e
  refine kept_guard ?_ e
  clear e
  try dsimp only
  repeat' first
    | with_reducible assumption
    | with_reducible apply kept_slackZero
    | with_reducible apply kept_foldl
    | with_reducible apply kept_foldl_fst
    | with_reducible apply kept_ite
    | with_reducible apply kept_foldl_ff
    | with_reducible apply kept_ite_fst
    | with_reducible apply kept_ite_ff
    | dsimp only
    | (with_reducible intro _ _ _; try dsimp only)
    | with_reducible intro _
    | split

theorem kept_execSpindleNodeOut {F : Fuses} {L : List Knot} {s t : State} (h : Kept F L s) (node : Nat) (e : execSpindleNodeOut node s = .next t) : Kept F L t := by
  unfold execSpindleNodeOut at e
  refine kept_guard ?_ e
  clear e
  try dsimp only
  repeat' first
    | with_reducible assumption
    | with_reducible apply kept_nodeOut
    | with_reducible apply kept_foldl
    | with_reducible apply kept_foldl_fst
    | with_reducible apply kept_ite
    | with_reducible apply kept_foldl_ff
    | with_reducible apply kept_ite_fst
    | with_reducible apply kept_ite_ff
    | dsimp only
    | (with_reducible intro _ _ _; try dsimp only)
    | with_reducible intro _
    | split

theorem kept_execBeaconSend {F : Fuses} {L : List Knot} {s t : State} (h : Kept F L s)  (e : execBeaconSend s = .next t) : Kept F L t := by
  unfold execBeaconSend at e
  refine kept_guard ?_ e
  clear e
  try dsimp only
  repeat' first
    | with_reducible assumption
    | with_reducible apply kept_sendBeacon
    | with_reducible apply kept_foldl
    | with_reducible apply kept_foldl_fst
    | with_reducible apply kept_ite
    | with_reducible apply kept_foldl_ff
    | with_reducible apply kept_ite_fst
    | with_reducible apply kept_ite_ff
    | dsimp only
    | (with_reducible intro _ _ _; try dsimp only)
    | with_reducible intro _
    | split

theorem kept_execPtpSync {F : Fuses} {L : List Knot} {s t : State} (h : Kept F L s) (frm : PtpFrom) (twoStep : Bool) (offset16 : Int) (e : execPtpSync frm twoStep offset16 s = .next t) : Kept F L t := by
  unfold execPtpSync at e
  refine kept_guard ?_ e
  clear e
  try dsimp only
  repeat' first
    | with_reducible assumption
    | with_reducible apply kept_syncIn
    | with_reducible apply kept_foldl
    | with_reducible apply kept_foldl_fst
    | with_reducible apply kept_ite
    | with_reducible apply kept_foldl_ff
    | with_reducible apply kept_ite_fst
    | with_reducible apply kept_ite_ff
    | dsimp only
    | (with_reducible intro _ _ _; try dsimp only)
    | with_reducible intro _
    | split

theorem kept_execPtpFollowUp {F : Fuses} {L : List Knot} {s t : State} (h : Kept F L s) (m : PtpMsg) (e : execPtpFollowUp m s = .next t) : Kept F L t := by
  unfold execPtpFollowUp at e
  refine kept_guard ?_ e
  clear e
  try dsimp only
  repeat' first
    | with_reducible assumption
    | with_reducible apply kept_followIn
    | with_reducible apply kept_foldl
    | with_reducible apply kept_foldl_fst
    | with_reducible apply kept_ite
    | with_reducible apply kept_foldl_ff
    | with_reducible apply kept_ite_fst
    | with_reducible apply kept_ite_ff
    | dsimp only
    | (with_reducible intro _ _ _; try dsimp only)
    | with_reducible intro _
    | split

theorem kept_execPtpDelayResp {F : Fuses} {L : List Knot} {s t : State} (h : Kept F L s) (m : PtpMsg) (e : execPtpDelayResp m s = .next t) : Kept F L t := by
  unfold execPtpDelayResp at e
  refine kept_guard ?_ e
  clear e
  try dsimp only
  repeat' first
    | with_reducible assumption
    | with_reducible apply kept_delayIn
    | with_reducible apply kept_foldl
    | with_reducible apply kept_foldl_fst
    | with_reducible apply kept_ite
    | with_reducible apply kept_foldl_ff
    | with_reducible apply kept_ite_fst
    | with_reducible apply kept_ite_ff
    | dsimp only
    | (with_reducible intro _ _ _; try dsimp only)
    | with_reducible intro _
    | split

theorem kept_execPtpAnnounce {F : Fuses} {L : List Knot} {s t : State} (h : Kept F L s) (m : PtpGm) (e : execPtpAnnounce m s = .next t) : Kept F L t := by
  unfold execPtpAnnounce at e
  refine kept_guard ?_ e
  clear e
  try dsimp only
  repeat' first
    | with_reducible assumption
    | with_reducible apply kept_announceIn
    | with_reducible apply kept_foldl
    | with_reducible apply kept_foldl_fst
    | with_reducible apply kept_ite
    | with_reducible apply kept_foldl_ff
    | with_reducible apply kept_ite_fst
    | with_reducible apply kept_ite_ff
    | dsimp only
    | (with_reducible intro _ _ _; try dsimp only)
    | with_reducible intro _
    | split

theorem kept_execPtpHoldover {F : Fuses} {L : List Knot} {s t : State} (h : Kept F L s)  (e : execPtpHoldover s = .next t) : Kept F L t := by
  unfold execPtpHoldover at e
  refine kept_guard ?_ e
  clear e
  try dsimp only
  repeat' first
    | with_reducible assumption
    | with_reducible apply kept_ptpLost
    | with_reducible apply kept_foldl
    | with_reducible apply kept_foldl_fst
    | with_reducible apply kept_ite
    | with_reducible apply kept_foldl_ff
    | with_reducible apply kept_ite_fst
    | with_reducible apply kept_ite_ff
    | dsimp only
    | (with_reducible intro _ _ _; try dsimp only)
    | with_reducible intro _
    | split

theorem kept_execPtcStepToPtp {F : Fuses} {L : List Knot} {s t : State} (h : Kept F L s) (time16 : Nat) (e : execPtcStepToPtp time16 s = .next t) : Kept F L t := by
  unfold execPtcStepToPtp at e
  refine kept_guard ?_ e
  clear e
  try dsimp only
  repeat' first
    | with_reducible assumption
    | with_reducible apply kept_ptpStep
    | with_reducible apply kept_foldl
    | with_reducible apply kept_foldl_fst
    | with_reducible apply kept_ite
    | with_reducible apply kept_foldl_ff
    | with_reducible apply kept_ite_fst
    | with_reducible apply kept_ite_ff
    | dsimp only
    | (with_reducible intro _ _ _; try dsimp only)
    | with_reducible intro _
    | split

theorem kept_execActivePcdFail {F : Fuses} {L : List Knot} {s t : State} (h : Kept F L s)  (e : execActivePcdFail s = .next t) : Kept F L t := by
  unfold execActivePcdFail at e
  refine kept_guard ?_ e
  clear e
  try dsimp only
  repeat' first
    | with_reducible assumption
    | with_reducible apply kept_pcdTakeover
    | with_reducible apply kept_foldl
    | with_reducible apply kept_foldl_fst
    | with_reducible apply kept_ite
    | with_reducible apply kept_foldl_ff
    | with_reducible apply kept_ite_fst
    | with_reducible apply kept_ite_ff
    | dsimp only
    | (with_reducible intro _ _ _; try dsimp only)
    | with_reducible intro _
    | split

theorem kept_execResetAssert {F : Fuses} {L : List Knot} {s t : State} (h : Kept F L s) (lowNs : Nat) (e : execResetAssert lowNs s = .next t) : Kept F L t := by
  unfold execResetAssert at e
  refine kept_guard ?_ e
  clear e
  try dsimp only
  repeat' first
    | with_reducible assumption
    | with_reducible apply kept_resetPin
    | with_reducible apply kept_foldl
    | with_reducible apply kept_foldl_fst
    | with_reducible apply kept_ite
    | with_reducible apply kept_foldl_ff
    | with_reducible apply kept_ite_fst
    | with_reducible apply kept_ite_ff
    | dsimp only
    | (with_reducible intro _ _ _; try dsimp only)
    | with_reducible intro _
    | split

theorem kept_execMount {F : Fuses} {L : List Knot} {s t : State} (h : Kept F L s) (i : MountIn) (e : execMount i s = .next t) : Kept F L t := by
  unfold execMount at e
  refine kept_guard ?_ e
  clear e
  try dsimp only
  repeat' first
    | with_reducible assumption
    | with_reducible apply kept_mountOn
    | with_reducible apply kept_foldl
    | with_reducible apply kept_foldl_fst
    | with_reducible apply kept_ite
    | with_reducible apply kept_foldl_ff
    | with_reducible apply kept_ite_fst
    | with_reducible apply kept_ite_ff
    | dsimp only
    | (with_reducible intro _ _ _; try dsimp only)
    | with_reducible intro _
    | split

theorem kept_execRoughOut {F : Fuses} {L : List Knot} {s t : State} (h : Kept F L s) (i : RoughIn) (e : execRoughOut i s = .next t) : Kept F L t := by
  unfold execRoughOut at e
  refine kept_guard ?_ e
  clear e
  try dsimp only
  repeat' first
    | with_reducible assumption
    | with_reducible apply kept_roughOn
    | with_reducible apply kept_foldl
    | with_reducible apply kept_foldl_fst
    | with_reducible apply kept_ite
    | with_reducible apply kept_foldl_ff
    | with_reducible apply kept_ite_fst
    | with_reducible apply kept_ite_ff
    | dsimp only
    | (with_reducible intro _ _ _; try dsimp only)
    | with_reducible intro _
    | split

theorem kept_execTruing {F : Fuses} {L : List Knot} {s t : State} (h : Kept F L s) (i : TestIn) (e : execTruing i s = .next t) : Kept F L t := by
  unfold execTruing at e
  refine kept_guard ?_ e
  clear e
  try dsimp only
  repeat' first
    | with_reducible assumption
    | with_reducible apply kept_truingOn
    | with_reducible apply kept_foldl
    | with_reducible apply kept_foldl_fst
    | with_reducible apply kept_ite
    | with_reducible apply kept_foldl_ff
    | with_reducible apply kept_ite_fst
    | with_reducible apply kept_ite_ff
    | dsimp only
    | (with_reducible intro _ _ _; try dsimp only)
    | with_reducible intro _
    | split

theorem kept_execShaping {F : Fuses} {L : List Knot} {s t : State} (h : Kept F L s) (i : ShapeIn) (e : execShaping i s = .next t) : Kept F L t := by
  unfold execShaping at e
  refine kept_guard ?_ e
  clear e
  try dsimp only
  repeat' first
    | with_reducible assumption
    | with_reducible apply kept_shapingOn
    | with_reducible apply kept_foldl
    | with_reducible apply kept_foldl_fst
    | with_reducible apply kept_ite
    | with_reducible apply kept_foldl_ff
    | with_reducible apply kept_ite_fst
    | with_reducible apply kept_ite_ff
    | dsimp only
    | (with_reducible intro _ _ _; try dsimp only)
    | with_reducible intro _
    | split

theorem kept_execFinishing {F : Fuses} {L : List Knot} {s t : State} (h : Kept F L s) (i : FinIn) (e : execFinishing i s = .next t) : Kept F L t := by
  unfold execFinishing at e
  refine kept_guard ?_ e
  clear e
  try dsimp only
  repeat' first
    | with_reducible assumption
    | with_reducible apply kept_finishOn
    | with_reducible apply kept_foldl
    | with_reducible apply kept_foldl_fst
    | with_reducible apply kept_ite
    | with_reducible apply kept_foldl_ff
    | with_reducible apply kept_ite_fst
    | with_reducible apply kept_ite_ff
    | dsimp only
    | (with_reducible intro _ _ _; try dsimp only)
    | with_reducible intro _
    | split

theorem kept_execReTrue {F : Fuses} {L : List Knot} {s t : State} (h : Kept F L s) (region : Nat) (i : TestIn) (e : execReTrue region i s = .next t) : Kept F L t := by
  unfold execReTrue at e
  refine kept_guard ?_ e
  clear e
  try dsimp only
  repeat' first
    | with_reducible assumption
    | with_reducible apply kept_reTrueOn
    | with_reducible apply kept_foldl
    | with_reducible apply kept_foldl_fst
    | with_reducible apply kept_ite
    | with_reducible apply kept_foldl_ff
    | with_reducible apply kept_ite_fst
    | with_reducible apply kept_ite_ff
    | dsimp only
    | (with_reducible intro _ _ _; try dsimp only)
    | with_reducible intro _
    | split

theorem kept_execRetrueRequest {F : Fuses} {L : List Knot} {s t : State} (h : Kept F L s) (region : Nat) (e : execRetrueRequest region s = .next t) : Kept F L t := by
  unfold execRetrueRequest at e
  refine kept_guard ?_ e
  clear e
  try dsimp only
  repeat' first
    | with_reducible assumption
    | with_reducible apply kept_retrueWrite
    | with_reducible apply kept_foldl
    | with_reducible apply kept_foldl_fst
    | with_reducible apply kept_ite
    | with_reducible apply kept_foldl_ff
    | with_reducible apply kept_ite_fst
    | with_reducible apply kept_ite_ff
    | dsimp only
    | (with_reducible intro _ _ _; try dsimp only)
    | with_reducible intro _
    | split

theorem kept_execRegionOvercurrent {F : Fuses} {L : List Knot} {s t : State} (h : Kept F L s) (region : Nat) (e : execRegionOvercurrent region s = .next t) : Kept F L t := by
  unfold execRegionOvercurrent at e
  refine kept_guard ?_ e
  clear e
  try dsimp only
  repeat' first
    | with_reducible assumption
    | with_reducible apply kept_regionTrip
    | with_reducible apply kept_foldl
    | with_reducible apply kept_foldl_fst
    | with_reducible apply kept_ite
    | with_reducible apply kept_foldl_ff
    | with_reducible apply kept_ite_fst
    | with_reducible apply kept_ite_ff
    | dsimp only
    | (with_reducible intro _ _ _; try dsimp only)
    | with_reducible intro _
    | split

theorem kept_execInputVoltageWarn {F : Fuses} {L : List Knot} {s t : State} (h : Kept F L s) (va : Nat) (vb : Nat) (e : execInputVoltageWarn va vb s = .next t) : Kept F L t := by
  unfold execInputVoltageWarn at e
  refine kept_guard ?_ e
  clear e
  try dsimp only
  repeat' first
    | with_reducible assumption
    | with_reducible apply kept_inputWarn
    | with_reducible apply kept_foldl
    | with_reducible apply kept_foldl_fst
    | with_reducible apply kept_ite
    | with_reducible apply kept_foldl_ff
    | with_reducible apply kept_ite_fst
    | with_reducible apply kept_ite_ff
    | dsimp only
    | (with_reducible intro _ _ _; try dsimp only)
    | with_reducible intro _
    | split

theorem kept_execInputUndervoltage {F : Fuses} {L : List Knot} {s t : State} (h : Kept F L s)  (e : execInputUndervoltage s = .next t) : Kept F L t := by
  unfold execInputUndervoltage at e
  refine kept_guard ?_ e
  clear e
  try dsimp only
  repeat' first
    | with_reducible assumption
    | with_reducible apply kept_inputLow
    | with_reducible apply kept_foldl
    | with_reducible apply kept_foldl_fst
    | with_reducible apply kept_ite
    | with_reducible apply kept_foldl_ff
    | with_reducible apply kept_ite_fst
    | with_reducible apply kept_ite_ff
    | dsimp only
    | (with_reducible intro _ _ _; try dsimp only)
    | with_reducible intro _
    | split

theorem kept_execInputOvervoltage {F : Fuses} {L : List Knot} {s t : State} (h : Kept F L s)  (e : execInputOvervoltage s = .next t) : Kept F L t := by
  unfold execInputOvervoltage at e
  refine kept_guard ?_ e
  clear e
  try dsimp only
  repeat' first
    | with_reducible assumption
    | with_reducible apply kept_inputHigh
    | with_reducible apply kept_foldl
    | with_reducible apply kept_foldl_fst
    | with_reducible apply kept_ite
    | with_reducible apply kept_foldl_ff
    | with_reducible apply kept_ite_fst
    | with_reducible apply kept_ite_ff
    | dsimp only
    | (with_reducible intro _ _ _; try dsimp only)
    | with_reducible intro _
    | split

theorem kept_execBusPairLost {F : Fuses} {L : List Knot} {s t : State} (h : Kept F L s) (pairB : Bool) (e : execBusPairLost pairB s = .next t) : Kept F L t := by
  unfold execBusPairLost at e
  refine kept_guard ?_ e
  clear e
  try dsimp only
  repeat' first
    | with_reducible assumption
    | with_reducible apply kept_pairLost
    | with_reducible apply kept_foldl
    | with_reducible apply kept_foldl_fst
    | with_reducible apply kept_ite
    | with_reducible apply kept_foldl_ff
    | with_reducible apply kept_ite_fst
    | with_reducible apply kept_ite_ff
    | dsimp only
    | (with_reducible intro _ _ _; try dsimp only)
    | with_reducible intro _
    | split

theorem kept_execBusPairRestored {F : Fuses} {L : List Knot} {s t : State} (h : Kept F L s) (pairB : Bool) (e : execBusPairRestored pairB s = .next t) : Kept F L t := by
  unfold execBusPairRestored at e
  refine kept_guard ?_ e
  clear e
  try dsimp only
  repeat' first
    | with_reducible assumption
    | with_reducible apply kept_pairBack
    | with_reducible apply kept_foldl
    | with_reducible apply kept_foldl_fst
    | with_reducible apply kept_ite
    | with_reducible apply kept_foldl_ff
    | with_reducible apply kept_ite_fst
    | with_reducible apply kept_ite_ff
    | dsimp only
    | (with_reducible intro _ _ _; try dsimp only)
    | with_reducible intro _
    | split

theorem kept_execPowerLoopUpdate {F : Fuses} {L : List Knot} {s t : State} (h : Kept F L s) (total : Nat) (watts : List (Nat × Nat × Nat)) (e : execPowerLoopUpdate total watts s = .next t) : Kept F L t := by
  unfold execPowerLoopUpdate at e
  refine kept_guard ?_ e
  clear e
  try dsimp only
  repeat' first
    | with_reducible assumption
    | with_reducible apply kept_powerLoop
    | with_reducible apply kept_foldl
    | with_reducible apply kept_foldl_fst
    | with_reducible apply kept_ite
    | with_reducible apply kept_foldl_ff
    | with_reducible apply kept_ite_fst
    | with_reducible apply kept_ite_ff
    | dsimp only
    | (with_reducible intro _ _ _; try dsimp only)
    | with_reducible intro _
    | split

theorem kept_execPowerGuardTrip {F : Fuses} {L : List Knot} {s t : State} (h : Kept F L s)  (e : execPowerGuardTrip s = .next t) : Kept F L t := by
  unfold execPowerGuardTrip at e
  refine kept_guard ?_ e
  clear e
  try dsimp only
  repeat' first
    | with_reducible assumption
    | with_reducible apply kept_guardTrip
    | with_reducible apply kept_foldl
    | with_reducible apply kept_foldl_fst
    | with_reducible apply kept_ite
    | with_reducible apply kept_foldl_ff
    | with_reducible apply kept_ite_fst
    | with_reducible apply kept_ite_ff
    | dsimp only
    | (with_reducible intro _ _ _; try dsimp only)
    | with_reducible intro _
    | split

theorem kept_execGuardHoldEnd {F : Fuses} {L : List Knot} {s t : State} (h : Kept F L s)  (e : execGuardHoldEnd s = .next t) : Kept F L t := by
  unfold execGuardHoldEnd at e
  refine kept_guard ?_ e
  clear e
  try dsimp only
  repeat' first
    | with_reducible assumption
    | with_reducible apply kept_guardEnd
    | with_reducible apply kept_foldl
    | with_reducible apply kept_foldl_fst
    | with_reducible apply kept_ite
    | with_reducible apply kept_foldl_ff
    | with_reducible apply kept_ite_fst
    | with_reducible apply kept_ite_ff
    | dsimp only
    | (with_reducible intro _ _ _; try dsimp only)
    | with_reducible intro _
    | split

theorem kept_execStepCeilingUpdate {F : Fuses} {L : List Knot} {s t : State} (h : Kept F L s) (part : Nat) (e : execStepCeilingUpdate part s = .next t) : Kept F L t := by
  unfold execStepCeilingUpdate at e
  refine kept_guard ?_ e
  clear e
  try dsimp only
  repeat' first
    | with_reducible assumption
    | with_reducible apply kept_ceilStep
    | with_reducible apply kept_foldl
    | with_reducible apply kept_foldl_fst
    | with_reducible apply kept_ite
    | with_reducible apply kept_foldl_ff
    | with_reducible apply kept_ite_fst
    | with_reducible apply kept_ite_ff
    | dsimp only
    | (with_reducible intro _ _ _; try dsimp only)
    | with_reducible intro _
    | split

theorem kept_execWarmHoldEnter {F : Fuses} {L : List Knot} {s t : State} (h : Kept F L s) (part : Nat) (e : execWarmHoldEnter part s = .next t) : Kept F L t := by
  unfold execWarmHoldEnter at e
  refine kept_guard ?_ e
  clear e
  try dsimp only
  repeat' first
    | with_reducible assumption
    | with_reducible apply kept_foldl
    | with_reducible apply kept_foldl_fst
    | with_reducible apply kept_ite
    | with_reducible apply kept_foldl_ff
    | with_reducible apply kept_ite_fst
    | with_reducible apply kept_ite_ff
    | dsimp only
    | (with_reducible intro _ _ _; try dsimp only)
    | with_reducible intro _
    | split
    | with_reducible apply kept_warmEnter

theorem kept_execPowerWake {F : Fuses} {L : List Knot} {s t : State} (h : Kept F L s) (part : Nat) (e : execPowerWake part s = .next t) : Kept F L t := by
  unfold execPowerWake at e
  refine kept_guard ?_ e
  clear e
  try dsimp only
  repeat' first
    | with_reducible assumption
    | with_reducible apply kept_foldl
    | with_reducible apply kept_foldl_fst
    | with_reducible apply kept_ite
    | with_reducible apply kept_foldl_ff
    | with_reducible apply kept_ite_fst
    | with_reducible apply kept_ite_ff
    | dsimp only
    | (with_reducible intro _ _ _; try dsimp only)
    | with_reducible intro _
    | split
    | with_reducible apply kept_wakeAt

theorem kept_execPowerWakeComplete {F : Fuses} {L : List Knot} {s t : State} (h : Kept F L s) (part : Nat) (e : execPowerWakeComplete part s = .next t) : Kept F L t := by
  unfold execPowerWakeComplete at e
  refine kept_guard ?_ e
  clear e
  try dsimp only
  repeat' first
    | with_reducible assumption
    | with_reducible apply kept_foldl
    | with_reducible apply kept_foldl_fst
    | with_reducible apply kept_ite
    | with_reducible apply kept_foldl_ff
    | with_reducible apply kept_ite_fst
    | with_reducible apply kept_ite_ff
    | dsimp only
    | (with_reducible intro _ _ _; try dsimp only)
    | with_reducible intro _
    | split
    | with_reducible apply kept_wakeDone

theorem kept_execPowerEntryComplete {F : Fuses} {L : List Knot} {s t : State} (h : Kept F L s) (part : Nat) (e : execPowerEntryComplete part s = .next t) : Kept F L t := by
  unfold execPowerEntryComplete at e
  refine kept_guard ?_ e
  clear e
  try dsimp only
  repeat' first
    | with_reducible assumption
    | with_reducible apply kept_entryDone
    | with_reducible apply kept_foldl
    | with_reducible apply kept_foldl_fst
    | with_reducible apply kept_ite
    | with_reducible apply kept_foldl_ff
    | with_reducible apply kept_ite_fst
    | with_reducible apply kept_ite_ff
    | dsimp only
    | (with_reducible intro _ _ _; try dsimp only)
    | with_reducible intro _
    | split

theorem kept_execWarmHoldLoadAdjust {F : Fuses} {L : List Knot} {s t : State} (h : Kept F L s)  (e : execWarmHoldLoadAdjust s = .next t) : Kept F L t := by
  unfold execWarmHoldLoadAdjust at e
  refine kept_guard ?_ e
  clear e
  try dsimp only
  repeat' first
    | with_reducible assumption
    | with_reducible apply kept_loadAdjust
    | with_reducible apply kept_foldl
    | with_reducible apply kept_foldl_fst
    | with_reducible apply kept_ite
    | with_reducible apply kept_foldl_ff
    | with_reducible apply kept_ite_fst
    | with_reducible apply kept_ite_ff
    | dsimp only
    | (with_reducible intro _ _ _; try dsimp only)
    | with_reducible intro _
    | split

theorem kept_execSensorSample {F : Fuses} {L : List Knot} {s t : State} (h : Kept F L s) (readings : List SensorIn) (e : execSensorSample readings s = .next t) : Kept F L t := by
  unfold execSensorSample at e
  refine kept_guard ?_ e
  clear e
  try dsimp only
  repeat' first
    | with_reducible assumption
    | with_reducible apply kept_sensors
    | with_reducible apply kept_foldl
    | with_reducible apply kept_foldl_fst
    | with_reducible apply kept_ite
    | with_reducible apply kept_foldl_ff
    | with_reducible apply kept_ite_fst
    | with_reducible apply kept_ite_ff
    | dsimp only
    | (with_reducible intro _ _ _; try dsimp only)
    | with_reducible intro _
    | split

theorem kept_execThermalThrottleEval {F : Fuses} {L : List Knot} {s t : State} (h : Kept F L s)  (e : execThermalThrottleEval s = .next t) : Kept F L t := by
  unfold execThermalThrottleEval at e
  refine kept_guard ?_ e
  clear e
  try dsimp only
  repeat' first
    | with_reducible assumption
    | with_reducible apply kept_throttle
    | with_reducible apply kept_foldl
    | with_reducible apply kept_foldl_fst
    | with_reducible apply kept_ite
    | with_reducible apply kept_foldl_ff
    | with_reducible apply kept_ite_fst
    | with_reducible apply kept_ite_ff
    | dsimp only
    | (with_reducible intro _ _ _; try dsimp only)
    | with_reducible intro _
    | split

theorem kept_execHeatRegionRestore {F : Fuses} {L : List Knot} {s t : State} (h : Kept F L s) (region : Nat) (e : execHeatRegionRestore region s = .next t) : Kept F L t := by
  unfold execHeatRegionRestore at e
  refine kept_guard ?_ e
  clear e
  try dsimp only
  repeat' first
    | with_reducible assumption
    | with_reducible apply kept_heatBack
    | with_reducible apply kept_foldl
    | with_reducible apply kept_foldl_fst
    | with_reducible apply kept_ite
    | with_reducible apply kept_foldl_ff
    | with_reducible apply kept_ite_fst
    | with_reducible apply kept_ite_ff
    | dsimp only
    | (with_reducible intro _ _ _; try dsimp only)
    | with_reducible intro _
    | split

theorem kept_execCoolantEval {F : Fuses} {L : List Knot} {s t : State} (h : Kept F L s) (flow : Int) (tin : Int) (tout : Int) (psw : Bool) (e : execCoolantEval flow tin tout psw s = .next t) : Kept F L t := by
  unfold execCoolantEval at e
  refine kept_guard ?_ e
  clear e
  try dsimp only
  repeat' first
    | with_reducible assumption
    | with_reducible apply kept_coolant
    | with_reducible apply kept_foldl
    | with_reducible apply kept_foldl_fst
    | with_reducible apply kept_ite
    | with_reducible apply kept_foldl_ff
    | with_reducible apply kept_ite_fst
    | with_reducible apply kept_ite_ff
    | dsimp only
    | (with_reducible intro _ _ _; try dsimp only)
    | with_reducible intro _
    | split

theorem kept_execCoolantStopDeadline {F : Fuses} {L : List Knot} {s t : State} (h : Kept F L s)  (e : execCoolantStopDeadline s = .next t) : Kept F L t := by
  unfold execCoolantStopDeadline at e
  refine kept_guard ?_ e
  clear e
  try dsimp only
  repeat' first
    | with_reducible assumption
    | with_reducible apply kept_coolStop
    | with_reducible apply kept_foldl
    | with_reducible apply kept_foldl_fst
    | with_reducible apply kept_ite
    | with_reducible apply kept_foldl_ff
    | with_reducible apply kept_ite_fst
    | with_reducible apply kept_ite_ff
    | dsimp only
    | (with_reducible intro _ _ _; try dsimp only)
    | with_reducible intro _
    | split

theorem kept_execCoolantSuddenLoss {F : Fuses} {L : List Knot} {s t : State} (h : Kept F L s) (psw : Bool) (e : execCoolantSuddenLoss psw s = .next t) : Kept F L t := by
  unfold execCoolantSuddenLoss at e
  refine kept_guard ?_ e
  clear e
  try dsimp only
  repeat' first
    | with_reducible assumption
    | with_reducible apply kept_suddenLoss
    | with_reducible apply kept_foldl
    | with_reducible apply kept_foldl_fst
    | with_reducible apply kept_ite
    | with_reducible apply kept_foldl_ff
    | with_reducible apply kept_ite_fst
    | with_reducible apply kept_ite_ff
    | dsimp only
    | (with_reducible intro _ _ _; try dsimp only)
    | with_reducible intro _
    | split

theorem kept_execPcdOvertemp {F : Fuses} {L : List Knot} {s t : State} (h : Kept F L s) (pcdB : Bool) (e : execPcdOvertemp pcdB s = .next t) : Kept F L t := by
  unfold execPcdOvertemp at e
  refine kept_guard ?_ e
  clear e
  try dsimp only
  repeat' first
    | with_reducible assumption
    | with_reducible apply kept_pcdHot
    | with_reducible apply kept_foldl
    | with_reducible apply kept_foldl_fst
    | with_reducible apply kept_ite
    | with_reducible apply kept_foldl_ff
    | with_reducible apply kept_ite_fst
    | with_reducible apply kept_ite_ff
    | dsimp only
    | (with_reducible intro _ _ _; try dsimp only)
    | with_reducible intro _
    | split

theorem kept_execRsdLoss {F : Fuses} {L : List Knot} {s t : State} (h : Kept F L s) (region : Nat) (e : execRsdLoss region s = .next t) : Kept F L t := by
  unfold execRsdLoss at e
  refine kept_guard ?_ e
  clear e
  try dsimp only
  repeat' first
    | with_reducible assumption
    | with_reducible apply kept_rsdGone
    | with_reducible apply kept_foldl
    | with_reducible apply kept_foldl_fst
    | with_reducible apply kept_ite
    | with_reducible apply kept_foldl_ff
    | with_reducible apply kept_ite_fst
    | with_reducible apply kept_ite_ff
    | dsimp only
    | (with_reducible intro _ _ _; try dsimp only)
    | with_reducible intro _
    | split

theorem kept_execRequestUpdate {F : Fuses} {L : List Knot} {s t : State} (h : Kept F L s)  (e : execRequestUpdate s = .next t) : Kept F L t := by
  unfold execRequestUpdate at e
  refine kept_guard ?_ e
  clear e
  try dsimp only
  repeat' first
    | with_reducible assumption
    | with_reducible apply kept_updateOpen
    | with_reducible apply kept_foldl
    | with_reducible apply kept_foldl_fst
    | with_reducible apply kept_ite
    | with_reducible apply kept_foldl_ff
    | with_reducible apply kept_ite_fst
    | with_reducible apply kept_ite_ff
    | dsimp only
    | (with_reducible intro _ _ _; try dsimp only)
    | with_reducible intro _
    | split

theorem kept_execUpdateComponent {F : Fuses} {L : List Knot} {s t : State} (h : Kept F L s) (c : Component) (e : execUpdateComponent c s = .next t) : Kept F L t := by
  unfold execUpdateComponent at e
  refine kept_guard ?_ e
  clear e
  try dsimp only
  repeat' first
    | with_reducible assumption
    | with_reducible apply kept_updateIn
    | with_reducible apply kept_foldl
    | with_reducible apply kept_foldl_fst
    | with_reducible apply kept_ite
    | with_reducible apply kept_foldl_ff
    | with_reducible apply kept_ite_fst
    | with_reducible apply kept_ite_ff
    | dsimp only
    | (with_reducible intro _ _ _; try dsimp only)
    | with_reducible intro _
    | split

theorem kept_execActivateFirmware {F : Fuses} {L : List Knot} {s t : State} (h : Kept F L s)  (e : execActivateFirmware s = .next t) : Kept F L t := by
  unfold execActivateFirmware at e
  refine kept_guard ?_ e
  clear e
  try dsimp only
  repeat' first
    | with_reducible assumption
    | with_reducible apply kept_activate
    | with_reducible apply kept_foldl
    | with_reducible apply kept_foldl_fst
    | with_reducible apply kept_ite
    | with_reducible apply kept_foldl_ff
    | with_reducible apply kept_ite_fst
    | with_reducible apply kept_ite_ff
    | dsimp only
    | (with_reducible intro _ _ _; try dsimp only)
    | with_reducible intro _
    | split

theorem kept_execGetVersion {F : Fuses} {L : List Knot} {s t : State} (h : Kept F L s)  (e : execGetVersion s = .next t) : Kept F L t := by
  unfold execGetVersion at e
  refine kept_guard ?_ e
  clear e
  try dsimp only
  repeat' first
    | with_reducible assumption
    | with_reducible apply kept_answer
    | with_reducible apply kept_foldl
    | with_reducible apply kept_foldl_fst
    | with_reducible apply kept_ite
    | with_reducible apply kept_foldl_ff
    | with_reducible apply kept_ite_fst
    | with_reducible apply kept_ite_ff
    | dsimp only
    | (with_reducible intro _ _ _; try dsimp only)
    | with_reducible intro _
    | split

theorem kept_execGetCapabilities {F : Fuses} {L : List Knot} {s t : State} (h : Kept F L s)  (e : execGetCapabilities s = .next t) : Kept F L t := by
  unfold execGetCapabilities at e
  refine kept_guard ?_ e
  clear e
  try dsimp only
  repeat' first
    | with_reducible assumption
    | with_reducible apply kept_answer
    | with_reducible apply kept_foldl
    | with_reducible apply kept_foldl_fst
    | with_reducible apply kept_ite
    | with_reducible apply kept_foldl_ff
    | with_reducible apply kept_ite_fst
    | with_reducible apply kept_ite_ff
    | dsimp only
    | (with_reducible intro _ _ _; try dsimp only)
    | with_reducible intro _
    | split

theorem kept_execNegotiateAlgorithms {F : Fuses} {L : List Knot} {s t : State} (h : Kept F L s)  (e : execNegotiateAlgorithms s = .next t) : Kept F L t := by
  unfold execNegotiateAlgorithms at e
  refine kept_guard ?_ e
  clear e
  try dsimp only
  repeat' first
    | with_reducible assumption
    | with_reducible apply kept_answer
    | with_reducible apply kept_foldl
    | with_reducible apply kept_foldl_fst
    | with_reducible apply kept_ite
    | with_reducible apply kept_foldl_ff
    | with_reducible apply kept_ite_fst
    | with_reducible apply kept_ite_ff
    | dsimp only
    | (with_reducible intro _ _ _; try dsimp only)
    | with_reducible intro _
    | split

theorem kept_execGetDigests {F : Fuses} {L : List Knot} {s t : State} (h : Kept F L s)  (e : execGetDigests s = .next t) : Kept F L t := by
  unfold execGetDigests at e
  refine kept_guard ?_ e
  clear e
  try dsimp only
  repeat' first
    | with_reducible assumption
    | with_reducible apply kept_answer
    | with_reducible apply kept_foldl
    | with_reducible apply kept_foldl_fst
    | with_reducible apply kept_ite
    | with_reducible apply kept_foldl_ff
    | with_reducible apply kept_ite_fst
    | with_reducible apply kept_ite_ff
    | dsimp only
    | (with_reducible intro _ _ _; try dsimp only)
    | with_reducible intro _
    | split

theorem kept_execGetCertificate {F : Fuses} {L : List Knot} {s t : State} (h : Kept F L s) (slot : Nat) (e : execGetCertificate slot s = .next t) : Kept F L t := by
  unfold execGetCertificate at e
  refine kept_guard ?_ e
  clear e
  try dsimp only
  repeat' first
    | with_reducible assumption
    | with_reducible apply kept_slotAnswer
    | with_reducible apply kept_foldl
    | with_reducible apply kept_foldl_fst
    | with_reducible apply kept_ite
    | with_reducible apply kept_foldl_ff
    | with_reducible apply kept_ite_fst
    | with_reducible apply kept_ite_ff
    | dsimp only
    | (with_reducible intro _ _ _; try dsimp only)
    | with_reducible intro _
    | split

theorem kept_execChallenge {F : Fuses} {L : List Knot} {s t : State} (h : Kept F L s) (slot : Nat) (e : execChallenge slot s = .next t) : Kept F L t := by
  unfold execChallenge at e
  refine kept_guard ?_ e
  clear e
  try dsimp only
  repeat' first
    | with_reducible assumption
    | with_reducible apply kept_slotAnswer
    | with_reducible apply kept_foldl
    | with_reducible apply kept_foldl_fst
    | with_reducible apply kept_ite
    | with_reducible apply kept_foldl_ff
    | with_reducible apply kept_ite_fst
    | with_reducible apply kept_ite_ff
    | dsimp only
    | (with_reducible intro _ _ _; try dsimp only)
    | with_reducible intro _
    | split

theorem kept_execGetMeasurements {F : Fuses} {L : List Knot} {s t : State} (h : Kept F L s) (index : Nat) (e : execGetMeasurements index s = .next t) : Kept F L t := by
  unfold execGetMeasurements at e
  refine kept_guard ?_ e
  clear e
  try dsimp only
  repeat' first
    | with_reducible assumption
    | with_reducible apply kept_measure
    | with_reducible apply kept_foldl
    | with_reducible apply kept_foldl_fst
    | with_reducible apply kept_ite
    | with_reducible apply kept_foldl_ff
    | with_reducible apply kept_ite_fst
    | with_reducible apply kept_ite_ff
    | dsimp only
    | (with_reducible intro _ _ _; try dsimp only)
    | with_reducible intro _
    | split

theorem kept_execSetEndpointId {F : Fuses} {L : List Knot} {s t : State} (h : Kept F L s) (eid : BitVec 8) (e : execSetEndpointId eid s = .next t) : Kept F L t := by
  unfold execSetEndpointId at e
  refine kept_guard ?_ e
  clear e
  try dsimp only
  repeat' first
    | with_reducible assumption
    | with_reducible apply kept_setPcd
    | with_reducible apply kept_foldl
    | with_reducible apply kept_foldl_fst
    | with_reducible apply kept_ite
    | with_reducible apply kept_foldl_ff
    | with_reducible apply kept_ite_fst
    | with_reducible apply kept_ite_ff
    | (with_reducible refine fun _ hx => (?_ : Memory.wf _ = true); exact hx)
    | with_reducible refine fun x hx => (?_ : Memory.wf _ = true)
    | exact (hx : Memory.wf _ = true)
    | with_reducible apply Memory.wf_writeBytes
    | with_reducible apply Memory.wf_memWrite
    | with_reducible apply Memory.wf_clearRange
    | with_reducible apply Memory.wf_filter
    | with_reducible apply wf_ite
    | dsimp only
    | (with_reducible intro _ _ _; try dsimp only)
    | with_reducible intro _
    | split

theorem kept_execEvtAckWrite {F : Fuses} {L : List Knot} {s t : State} (h : Kept F L s) (val : W32) (e : execEvtAckWrite val s = .next t) : Kept F L t := by
  unfold execEvtAckWrite at e
  refine kept_guard ?_ e
  clear e
  try dsimp only
  repeat' first
    | with_reducible assumption
    | with_reducible apply kept_evtAck
    | with_reducible apply kept_foldl
    | with_reducible apply kept_foldl_fst
    | with_reducible apply kept_ite
    | with_reducible apply kept_foldl_ff
    | with_reducible apply kept_ite_fst
    | with_reducible apply kept_ite_ff
    | dsimp only
    | (with_reducible intro _ _ _; try dsimp only)
    | with_reducible intro _
    | split

theorem kept_execResetEffecter {F : Fuses} {L : List Knot} {s t : State} (h : Kept F L s) (val : W32) (e : execResetEffecter val s = .next t) : Kept F L t := by
  unfold execResetEffecter at e
  refine kept_guard ?_ e
  clear e
  try dsimp only
  repeat' first
    | with_reducible assumption
    | with_reducible apply kept_resetPanel
    | with_reducible apply kept_foldl
    | with_reducible apply kept_foldl_fst
    | with_reducible apply kept_ite
    | with_reducible apply kept_foldl_ff
    | with_reducible apply kept_ite_fst
    | with_reducible apply kept_ite_ff
    | dsimp only
    | (with_reducible intro _ _ _; try dsimp only)
    | with_reducible intro _
    | split

theorem kept_execTelemetrySend {F : Fuses} {L : List Knot} {s t : State} (h : Kept F L s) (m : List TelemIn) (e : execTelemetrySend m s = .next t) : Kept F L t := by
  unfold execTelemetrySend at e
  refine kept_guard ?_ e
  clear e
  try dsimp only
  repeat' first
    | with_reducible assumption
    | with_reducible apply kept_telemetry
    | with_reducible apply kept_foldl
    | with_reducible apply kept_foldl_fst
    | with_reducible apply kept_ite
    | with_reducible apply kept_foldl_ff
    | with_reducible apply kept_ite_fst
    | with_reducible apply kept_ite_ff
    | dsimp only
    | (with_reducible intro _ _ _; try dsimp only)
    | with_reducible intro _
    | split

theorem kept_execNvmDeviceFail {F : Fuses} {L : List Knot} {s t : State} (h : Kept F L s) (dev : Nat) (e : execNvmDeviceFail dev s = .next t) : Kept F L t := by
  unfold execNvmDeviceFail at e
  refine kept_guard ?_ e
  clear e
  try dsimp only
  repeat' first
    | with_reducible assumption
    | with_reducible apply kept_nvmFail
    | with_reducible apply kept_foldl
    | with_reducible apply kept_foldl_fst
    | with_reducible apply kept_ite
    | with_reducible apply kept_foldl_ff
    | with_reducible apply kept_ite_fst
    | with_reducible apply kept_ite_ff
    | dsimp only
    | (with_reducible intro _ _ _; try dsimp only)
    | with_reducible intro _
    | split

theorem kept_execModuleInsert {F : Fuses} {L : List Knot} {s t : State} (h : Kept F L s) (va : Nat) (vb : Nat) (j1 : Bool) (e : execModuleInsert va vb j1 s = .next t) : Kept F L t := by
  unfold execModuleInsert at e
  refine kept_guard ?_ e
  clear e
  try dsimp only
  repeat' first
    | with_reducible assumption
    | with_reducible apply kept_insert
    | with_reducible apply kept_foldl
    | with_reducible apply kept_foldl_fst
    | with_reducible apply kept_ite
    | with_reducible apply kept_foldl_ff
    | with_reducible apply kept_ite_fst
    | with_reducible apply kept_ite_ff
    | dsimp only
    | (with_reducible intro _ _ _; try dsimp only)
    | with_reducible intro _
    | split

theorem kept_execInputSwitchClose {F : Fuses} {L : List Knot} {s t : State} (h : Kept F L s)  (e : execInputSwitchClose s = .next t) : Kept F L t := by
  unfold execInputSwitchClose at e
  refine kept_guard ?_ e
  clear e
  try dsimp only
  repeat' first
    | with_reducible assumption
    | with_reducible apply kept_inputClose
    | with_reducible apply kept_foldl
    | with_reducible apply kept_foldl_fst
    | with_reducible apply kept_ite
    | with_reducible apply kept_foldl_ff
    | with_reducible apply kept_ite_fst
    | with_reducible apply kept_ite_ff
    | dsimp only
    | (with_reducible intro _ _ _; try dsimp only)
    | with_reducible intro _
    | split

theorem kept_execModuleWithdraw {F : Fuses} {L : List Knot} {s t : State} (h : Kept F L s)  (e : execModuleWithdraw s = .next t) : Kept F L t := by
  unfold execModuleWithdraw at e
  refine kept_guard ?_ e
  clear e
  try dsimp only
  repeat' first
    | with_reducible assumption
    | with_reducible apply kept_foldl
    | with_reducible apply kept_foldl_fst
    | with_reducible apply kept_ite
    | with_reducible apply kept_foldl_ff
    | with_reducible apply kept_ite_fst
    | with_reducible apply kept_ite_ff
    | dsimp only
    | (with_reducible intro _ _ _; try dsimp only)
    | with_reducible intro _
    | split
    | with_reducible apply kept_withdraw

theorem kept_execNvmIsolate {F : Fuses} {L : List Knot} {s t : State} (h : Kept F L s) (i : IsoIn) (e : execNvmIsolate i s = .next t) : Kept F L t := by
  unfold execNvmIsolate at e
  refine kept_guard ?_ e
  clear e
  try dsimp only
  repeat' first
    | with_reducible assumption
    | with_reducible apply kept_isolate
    | with_reducible apply kept_foldl
    | with_reducible apply kept_foldl_fst
    | with_reducible apply kept_ite
    | with_reducible apply kept_foldl_ff
    | with_reducible apply kept_ite_fst
    | with_reducible apply kept_ite_ff
    | dsimp only
    | (with_reducible intro _ _ _; try dsimp only)
    | with_reducible intro _
    | split

theorem kept_execStatusLatchTimeout {F : Fuses} {L : List Knot} {s t : State} (h : Kept F L s)  (e : execStatusLatchTimeout s = .next t) : Kept F L t := by
  unfold execStatusLatchTimeout at e
  refine kept_guard ?_ e
  clear e
  try dsimp only
  repeat' first
    | with_reducible assumption
    | with_reducible apply kept_latchTimeout
    | with_reducible apply kept_foldl
    | with_reducible apply kept_foldl_fst
    | with_reducible apply kept_ite
    | with_reducible apply kept_foldl_ff
    | with_reducible apply kept_ite_fst
    | with_reducible apply kept_ite_ff
    | dsimp only
    | (with_reducible intro _ _ _; try dsimp only)
    | with_reducible intro _
    | split

theorem kept_execStandbyRailLoss {F : Fuses} {L : List Knot} {s t : State} (h : Kept F L s)  (e : execStandbyRailLoss s = .next t) : Kept F L t := by
  unfold execStandbyRailLoss at e
  refine kept_guard ?_ e
  clear e
  try dsimp only
  repeat' first
    | with_reducible assumption
    | with_reducible apply kept_powerLost
    | with_reducible apply kept_foldl
    | with_reducible apply kept_foldl_fst
    | with_reducible apply kept_ite
    | with_reducible apply kept_foldl_ff
    | with_reducible apply kept_ite_fst
    | with_reducible apply kept_ite_ff
    | dsimp only
    | (with_reducible intro _ _ _; try dsimp only)
    | with_reducible intro _
    | split

theorem kept_execNonschedAccessGrant {F : Fuses} {L : List Knot} {s t : State} (h : Kept F L s) (die : Nat) (pair : Nat) (e : execNonschedAccessGrant die pair s = .next t) : Kept F L t := by
  unfold execNonschedAccessGrant at e
  refine kept_guard ?_ e
  clear e
  try dsimp only
  repeat' first
    | with_reducible assumption
    | with_reducible apply kept_nonschedGrant
    | with_reducible apply kept_foldl
    | with_reducible apply kept_foldl_fst
    | with_reducible apply kept_ite
    | with_reducible apply kept_foldl_ff
    | with_reducible apply kept_ite_fst
    | with_reducible apply kept_ite_ff
    | dsimp only
    | (with_reducible intro _ _ _; try dsimp only)
    | with_reducible intro _
    | split

theorem kept_execEccRepairWriteback {F : Fuses} {L : List Knot} {s t : State} (h : Kept F L s) (die : Nat) (pair : Nat) (e : execEccRepairWriteback die pair s = .next t) : Kept F L t := by
  unfold execEccRepairWriteback at e
  refine kept_guard ?_ e
  clear e
  try dsimp only
  repeat' first
    | with_reducible assumption
    | with_reducible apply kept_repairGrant
    | with_reducible apply kept_foldl
    | with_reducible apply kept_foldl_fst
    | with_reducible apply kept_ite
    | with_reducible apply kept_foldl_ff
    | with_reducible apply kept_ite_fst
    | with_reducible apply kept_ite_ff
    | dsimp only
    | (with_reducible intro _ _ _; try dsimp only)
    | with_reducible intro _
    | split

end Sys2Proof.Machine
end

