-- ==== Sys2Proof/Laws/Spad.lean ====
section
/-! SUPPORT. What a store to the scratchpad does to every bit of it: the addressed bits take the value, no other bit changes. -/

namespace Sys2Proof.Machine

-- Bits and bytes ---------------------------------------------------------------------------------------------------------

/-- Bit k of x with the bits of m removed. -/
theorem sub_and_testBit (k : Nat) : ∀ x m : Nat, (x - (x &&& m)).testBit k = (x.testBit k && !m.testBit k) := by
  have hm : ∀ x m : Nat, (x &&& m) % 2 = (x % 2) * (m % 2) := by
    intro x m
    have := Nat.testBit_and x m 0
    simp only [Nat.testBit_zero] at this
    rcases Nat.mod_two_eq_zero_or_one x with h | h <;> rcases Nat.mod_two_eq_zero_or_one m with h' | h' <;>
      rcases Nat.mod_two_eq_zero_or_one (x &&& m) with h'' | h'' <;> simp_all
  have hd : ∀ x m : Nat, (x &&& m) / 2 = x / 2 &&& m / 2 := by
    intro x m
    apply Nat.eq_of_testBit_eq
    intro i
    simp [Nat.testBit_div_two]
  induction k with
  | zero =>
    intro x m
    have h1 := hm x m
    have h2 : x &&& m ≤ x := Nat.and_le_left
    simp only [Nat.testBit_zero]
    rcases Nat.mod_two_eq_zero_or_one x with h | h <;> rcases Nat.mod_two_eq_zero_or_one m with h' | h' <;> rw [h, h'] at h1 <;>
      simp only [h, h'] <;> simp <;> omega
  | succ k ih =>
    intro x m
    rw [Nat.testBit_succ, Nat.testBit_succ, Nat.testBit_succ, ← ih]
    congr 1
    have h1 := hm x m
    have h2 : x &&& m ≤ x := Nat.and_le_left
    have h3 := hd x m
    have h4 : x / 2 &&& m / 2 ≤ x / 2 := Nat.and_le_left
    rcases Nat.mod_two_eq_zero_or_one x with h | h <;> rcases Nat.mod_two_eq_zero_or_one m with h' | h' <;> rw [h, h'] at h1 <;> omega

/-- Bits of a sum of two numbers that share no bit. -/
theorem testBit_add_disjoint (k : Nat) : ∀ x y : Nat, (∀ i, ¬(x.testBit i = true ∧ y.testBit i = true)) →
    (x + y).testBit k = (x.testBit k || y.testBit k) := by
  induction k with
  | zero =>
    intro x y h
    have h0 := h 0
    simp only [Nat.testBit_zero, decide_eq_true_eq] at *
    rcases Nat.mod_two_eq_zero_or_one x with a | a <;> rcases Nat.mod_two_eq_zero_or_one y with b | b <;>
      simp [a, b, Nat.add_mod] at * 
  | succ k ih =>
    intro x y h
    rw [Nat.testBit_succ, Nat.testBit_succ, Nat.testBit_succ]
    have h0 := h 0
    simp only [Nat.testBit_zero, decide_eq_true_eq] at h0
    have e : (x + y) / 2 = x / 2 + y / 2 := by omega
    rw [e, ih]
    intro i
    have := h (i + 1)
    rwa [Nat.testBit_succ, Nat.testBit_succ] at this

/-- A masked merge: the mask's bits from v, every other bit from x. -/
theorem testBit_merge (x m v k : Nat) : (x - (x &&& m) + (v &&& m)).testBit k = if m.testBit k then v.testBit k else x.testBit k := by
  rw [testBit_add_disjoint, sub_and_testBit, Nat.testBit_and]
  · cases m.testBit k <;> simp
  · intro i
    rw [sub_and_testBit, Nat.testBit_and]
    cases m.testBit i <;> simp

theorem length_leBytes (n : Nat) : ∀ v, (leBytes n v).length = n := by
  induction n with
  | zero => intro v; rfl
  | succ n ih => intro v; simp [leBytes, ih]

/-- Byte i of the little-endian bytes of v. -/
theorem getD_leBytes (n : Nat) : ∀ v i, (leBytes n v).getD i 0#8 = if i < n then BitVec.ofNat 8 (v / 256 ^ i) else 0#8 := by
  induction n with
  | zero => intro v i; simp [leBytes]
  | succ n ih =>
    intro v i
    cases i with
    | zero => simp [leBytes]
    | succ i =>
      simp only [leBytes, List.getD_cons_succ, ih, Nat.succ_lt_succ_iff, Nat.div_div_eq_div_mul]
      rw [Nat.pow_succ, Nat.mul_comm 256]

/-- Bit k of the little-endian value of bytes. -/
theorem testBit_leVal (l : List Byte) : ∀ k, (leVal l).testBit k = (l.getD (k / 8) 0#8).getLsbD (k % 8) := by
  induction l with
  | nil => intro k; simp [leVal]
  | cons b r ih =>
    intro k
    unfold leVal
    rw [show b.toNat + 256 * leVal r = 2 ^ 8 * leVal r + b.toNat by omega, Nat.testBit_two_pow_mul_add _ b.isLt]
    split
    · rename_i h
      rw [Nat.div_eq_of_lt h, Nat.mod_eq_of_lt h]
      rfl
    · rename_i h
      rw [ih, show k / 8 = (k - 8) / 8 + 1 by omega, List.getD_cons_succ, show k % 8 = (k - 8) % 8 by omega]

-- Positions --------------------------------------------------------------------------------------------------------------

theorem State.spadPos_mod (s : State) (d e a : Nat) (f : Die → Die) : (s.modDie d f).spadPos e a = s.spadPos e a := rfl

theorem xor_lt64 {a b : Nat} (ha : a < 64) (hb : b < 64) : Nat.xor a b < 64 := Nat.xor_lt_two_pow (n := 6) ha hb

theorem bits_25_12 (x : Nat) : bits x 25 12 = x / 4096 % 16384 := by simp [bits, Nat.shiftRight_eq_div_pow]
theorem bits_26_26 (x : Nat) : bits x 26 26 = x / 67108864 % 2 := by simp [bits, Nat.shiftRight_eq_div_pow]
theorem bits_26_22 (x : Nat) : bits x 26 22 = x / 4194304 % 32 := by simp [bits, Nat.shiftRight_eq_div_pow]
theorem bits_11_6 (x : Nat) : bits x 11 6 = x / 64 % 64 := by simp [bits, Nat.shiftRight_eq_div_pow]
theorem bits_17_12 (x : Nat) : bits x 17 12 = x / 4096 % 64 := by simp [bits, Nat.shiftRight_eq_div_pow]
theorem bits_23_18 (x : Nat) : bits x 23 18 = x / 262144 % 64 := by simp [bits, Nat.shiftRight_eq_div_pow]
theorem bits_25_24 (x : Nat) : bits x 25 24 = x / 16777216 % 4 := by simp [bits, Nat.shiftRight_eq_div_pow]

theorem xor_cancel {x y z w : Nat} (h : Nat.xor (Nat.xor x z) w = Nat.xor (Nat.xor y z) w) : x = y := by
  have h1 : (x ^^^ z) ^^^ w = (y ^^^ z) ^^^ w := h
  have h2 := congrArg (fun q => (q ^^^ w) ^^^ z) h1
  simpa [Nat.xor_assoc] using h2

/-- The bank within its half of the scratchpad. -/
def State.bankLow (s : State) (d a : Nat) : Nat :=
  if s.linearWin d (bits a 26 22) then bits a 11 6
  else Nat.xor (Nat.xor (bits a 11 6) (bits a 17 12)) (Nat.xor (bits a 23 18) (bits a 25 24))

theorem State.bankLow_lt (s : State) (d a : Nat) : s.bankLow d a < 64 := by
  unfold State.bankLow
  split
  · rw [bits_11_6]; omega
  · refine xor_lt64 (xor_lt64 ?_ ?_) (xor_lt64 ?_ ?_)
    · rw [bits_11_6]; omega
    · rw [bits_17_12]; omega
    · rw [bits_23_18]; omega
    · rw [bits_25_24]; omega

theorem State.spadPos_eq (s : State) (d a : Nat) :
    s.spadPos d a = ((64 * (a / 67108864 % 2) + s.bankLow d a) * 16384 + a / 4096 % 16384) * 64 + a % 64 := by
  unfold State.spadPos State.bankOf
  rw [bits_25_12, bits_26_26]
  rfl

/-- Two addresses of the scratchpad with one storage position are one address (spec/07 R192, R194). -/
theorem State.spadPos_inj {s : State} {d a b : Nat} (ha : a < 134217728) (hb : b < 134217728) (h : s.spadPos d a = s.spadPos d b) : a = b := by
  rw [State.spadPos_eq, State.spadPos_eq] at h
  have la := s.bankLow_lt d a
  have lb := s.bankLow_lt d b
  have e1 : a / 4096 % 16384 = b / 4096 % 16384 := by clear ha hb; omega
  have e0 : a % 64 = b % 64 := by clear ha hb; omega
  have e2 : a / 67108864 % 2 = b / 67108864 % 2 := by clear ha hb e0; omega
  have e3 : s.bankLow d a = s.bankLow d b := by clear ha hb e0; omega
  have e6 : a / 64 % 64 = b / 64 % 64 := by
    clear h la lb e0
    unfold State.bankLow at e3
    rw [bits_26_22, bits_26_22, bits_17_12, bits_17_12, bits_23_18, bits_23_18, bits_25_24, bits_25_24, bits_11_6, bits_11_6,
      show a / 4194304 % 32 = b / 4194304 % 32 by clear e3; omega, show a / 4096 % 64 = b / 4096 % 64 by clear e3; omega,
      show a / 262144 % 64 = b / 262144 % 64 by clear e3; omega, show a / 16777216 % 4 = b / 16777216 % 4 by clear e3; omega] at e3
    split at e3
    · exact e3
    · exact xor_cancel e3
  clear h la lb e3
  omega

/-- The position of a byte's word. -/
theorem State.spadPos_align (s : State) (d a : Nat) : s.spadPos d (a / 8 * 8) = s.spadPos d a / 8 * 8 := by
  have hb : s.bankLow d (a / 8 * 8) = s.bankLow d a := by
    unfold State.bankLow
    rw [bits_26_22, bits_26_22, bits_17_12, bits_17_12, bits_23_18, bits_23_18, bits_25_24, bits_25_24, bits_11_6, bits_11_6,
      show a / 8 * 8 / 4194304 = a / 4194304 by omega, show a / 8 * 8 / 64 = a / 64 by omega,
      show a / 8 * 8 / 4096 = a / 4096 by omega, show a / 8 * 8 / 262144 = a / 262144 by omega, show a / 8 * 8 / 16777216 = a / 16777216 by omega]
  rw [State.spadPos_eq, State.spadPos_eq, hb, show a / 8 * 8 / 67108864 = a / 67108864 by omega, show a / 8 * 8 / 4096 = a / 4096 by omega]
  generalize (64 * (a / 67108864 % 2) + s.bankLow d a) * 16384 + a / 4096 % 16384 = q
  omega

/-- The word of a position. -/
theorem State.spadPos_word {s : State} {d a w : Nat} (ha : a < 134217728) (hw : w < 134217728) (h8 : w % 8 = 0) :
    s.spadPos d a / 8 = s.spadPos d w / 8 ↔ a / 8 * 8 = w := by
  have hal := s.spadPos_align d a
  have hw8 : s.spadPos d w / 8 * 8 = s.spadPos d w := by rw [← State.spadPos_align, show w / 8 * 8 = w by omega]
  constructor
  · intro h
    refine State.spadPos_inj (s := s) (d := d) (by omega) hw ?_
    rw [hal]
    omega
  · rintro rfl
    rw [hal]
    omega

/-- One word write: the mask's bits of that word take v, every other bit stands. -/
theorem State.spadSetWord_bit {s : State} {d w mask v a b : Nat}
    (hw : w < 134217728) (h8 : w % 8 = 0) (ha : a < 134217728) (hb : b < 8) :
    (s.spadSetWord d w mask v).spadBit d a b =
      if a / 8 * 8 = w ∧ mask.testBit (8 * (a % 8) + b) = true then v.testBit (8 * (a % 8) + b) else s.spadBit d a b := by
  unfold State.spadSetWord
  unfold State.spadBit State.spadByte
  rw [State.spadPos_mod]
  simp only [State.die_modDie, if_true, memRead_writeBytes, length_leBytes]
  have hp := State.spadPos_word (s := s) (d := d) ha hw h8
  have hal : s.spadPos d a % 8 = a % 8 := by unfold State.spadPos; omega
  by_cases h : a / 8 * 8 = w
  · have h1 := hp.2 h
    rw [if_pos (by omega), getD_leBytes, if_pos (by omega)]
    have h2 : s.spadPos d a - 8 * (s.spadPos d w / 8) = a % 8 := by omega
    rw [h2, BitVec.getLsbD_ofNat]
    simp only [hb, decide_true, Bool.true_and, h, true_and]
    rw [show (256 : Nat) ^ (a % 8) = 2 ^ (8 * (a % 8)) by rw [Nat.pow_mul], Nat.testBit_div_two_pow, Nat.add_comm b, testBit_merge]
    split
    · rfl
    · rw [testBit_leVal]
      unfold readBytes
      rw [show (8 * (a % 8) + b) / 8 = a % 8 by omega, show (8 * (a % 8) + b) % 8 = b by omega]
      rw [List.getD_eq_getElem?_getD, List.getElem?_map, List.getElem?_range (by omega)]
      simp only [Option.map_some, Option.getD_some]
      rw [show 8 * (s.spadPos d w / 8) + a % 8 = s.spadPos d a by omega]
  · rw [if_neg (by intro hc; exact h (hp.1 (by omega))), if_neg (fun hc => h hc.1)]

/-- A store of nbits bits from a byte address upward, with no flipped bit in the scratchpad: those bits take v, no other bit changes. -/
theorem State.spadStore_bit {s : State} {d port addr nbits v a b : Nat} {bp : Bool} (he : (s.die d).spad.errs = [])
    (hw : 8 * addr + nbits ≤ 1073741824) (ha : a < 134217728) (hb : b < 8) :
    (s.spadStore d port addr nbits v bp).spadBit d a b =
      if 8 * addr ≤ 8 * a + b ∧ 8 * a + b < 8 * addr + nbits then v.testBit (8 * a + b - 8 * addr) else s.spadBit d a b := by
  unfold State.spadStore State.spadMerge wordsOf
  simp only [he, if_true, List.any_nil, Bool.not_false, List.filter_true, List.foldl_nil, List.foldl_map]
  generalize hN : cdiv (addr % 8 * 8 + nbits) 64 = N
  have hN' : ∀ k, k < N → 64 * k < addr % 8 * 8 + nbits := by
    intro k hk; unfold cdiv at hN; omega
  have hN2 : addr % 8 * 8 + nbits ≤ 64 * N := by unfold cdiv at hN; omega
  have key : ∀ n, n ≤ N →
      let t := (List.range n).foldl (fun (t : State) k => t.spadSetWord d (addr / 8 * 8 + 8 * k)
        ((2 ^ nbits - 1) <<< (addr % 8 * 8) >>> (64 * k) % 2 ^ 64) ((v % 2 ^ nbits) <<< (addr % 8 * 8) >>> (64 * k) % 2 ^ 64)) s
      t.spadBit d a b =
        if 8 * addr ≤ 8 * a + b ∧ 8 * a + b < 8 * addr + nbits ∧ a / 8 < addr / 8 + n then v.testBit (8 * a + b - 8 * addr) else s.spadBit d a b := by
    intro n
    induction n with
    | zero =>
      intro _
      rw [if_neg (by omega)]
      rfl
    | succ n ih =>
      intro hn
      rw [List.range_succ]
      dsimp only
      rw [List.foldl_append]
      have h2 := ih (by omega)
      have hk := hN' n (by omega)
      simp only [List.foldl_cons, List.foldl_nil]
      rw [State.spadSetWord_bit (by omega) (by omega) ha hb, h2]
      by_cases hq : a / 8 * 8 = addr / 8 * 8 + 8 * n
      · have hbit : 8 * (a % 8) + b < 64 := by omega
        simp only [hq, true_and, Nat.testBit_mod_two_pow, Nat.testBit_shiftRight, Nat.testBit_shiftLeft, hbit, decide_true, Bool.true_and,
          Nat.testBit_two_pow_sub_one, ge_iff_le, Bool.and_eq_true, decide_eq_true_eq]
        by_cases hin : 8 * addr ≤ 8 * a + b ∧ 8 * a + b < 8 * addr + nbits
        · rw [if_pos (by omega), if_pos (by omega)]
          rw [show 64 * n + (8 * (a % 8) + b) - addr % 8 * 8 = 8 * a + b - 8 * addr by omega]
          have e1 : decide (addr % 8 * 8 ≤ 64 * n + (8 * (a % 8) + b)) = true := decide_eq_true (by omega)
          have e2 : decide (8 * a + b - 8 * addr < nbits) = true := decide_eq_true (by omega)
          rw [e1, e2]
          simp
        · rw [if_neg (by omega), if_neg (by omega), if_neg (by omega)]
      · rw [if_neg (fun hc => hq hc.1)]
        by_cases hin : 8 * addr ≤ 8 * a + b ∧ 8 * a + b < 8 * addr + nbits ∧ a / 8 < addr / 8 + n
        · rw [if_pos hin, if_pos (by omega)]
        · rw [if_neg hin, if_neg (by omega)]
  have := key N (Nat.le_refl _)
  rw [this]
  by_cases hin : 8 * addr ≤ 8 * a + b ∧ 8 * a + b < 8 * addr + nbits
  · rw [if_pos hin, if_pos (by omega)]
  · rw [if_neg hin, if_neg (by omega)]

end Sys2Proof.Machine
end

