-- ==== Sys2Proof/Tests/Slice0.lean ====
section
/-! SUPPORT. Tests: the ill-formed terms that WellFormed refuses, single steps with results worked out from the rules of spec/, and, named
wit_<statement>, a concrete state that meets the hypotheses of each clause of each statement, mostly with the step's result beside it. -/

namespace Sys2Proof.Tests

-- One theorem after the other: each waits for the kernel, and a stack for each waiting one is more memory than the check allows.
set_option Elab.async false

open Sys2Proof Sys2Proof.Machine

/-- The command answers a next state of which P holds. -/
def ran (i : Instr) (s : State) (P : State → Bool) : Bool :=
  match exec i s with
  | .next t => P t
  | _ => false

/-- The command changes nothing. -/
def stays (i : Instr) (s : State) : Bool := ran i s (fun t => decide (t = s))

/-- A panel that is Ready, with the shipped configuration; logical site 0 is the die of node 1 (spec/01 R30). -/
def up : State := { State.reset with pcd := { State.reset.pcd with stageDone := 5, conf := some Conf.shipped } }

/-- A register holds a value. -/
def regIs (node off v : Nat) (t : State) : Bool := decide (t.rg node off = v)
/-- A state of place p of die 1. -/
def placed (p : Nat) (x : Place) : State := up.setPlace 1 p x
def running : Place := { Place.reset with st := .running }
def laneTok (g : Nat) (h : Bool) (p : BitVec 512) : Token := { payload := p, gen := BitVec.ofNat 4 g, hdr := h }
/-- Address of a register of PCD A's block, and of a site window. -/
def pcReg (off : Nat) : W64 := BitVec.ofNat 64 (0x7000000000000000 + off)
def winReg (site off : Nat) : W64 := BitVec.ofNat 64 (0x4000000000000000 + site * 2 ^ 32 + off)

theorem up_reaches : up.reaches .pcd 0 1 := ⟨by decide +kernel, by decide +kernel, trivial⟩

-- WellFormed: one ill-formed term for each check ----------------------------------------------------------------------------

def illFormed : List Instr := [
  .registerWrite (.host 16) 0 4 ⟨0, 0⟩, .registerWrite (.score 576 0) 0 4 ⟨0, 0⟩, .registerWrite (.score 0 4) 0 4 ⟨0, 0⟩, .badAccessTallyReport 738,
  .srSeedWrite .pcd 512 0 0, .srSeedWrite .pcd 0 25 0, .mcNop 576 0 false, .mcNop 0 16 false, .vnop 0 8 default, .plStat 0 4 0 0,
  .placeDone 0 25, .spadGroupReady 0 32, .nonschedAccessGrant 0 64, .tokenDepart 0 0 4, .quantumExpire 16] ++ [
  .desc 128 (.sched 0) default, .desc 0 (.sched 576) default, .desc 0 (.fxdma 576 0 0) default, .desc 0 (.hostItem 128 0) default,
  .desc 0 (.tload 0 25 0) default, .desc 0 (.tload 0 0 8) default, .trackerEntryGrant 0 3, .transactionTimeout 0 2048,
  .stripeReceive 0 4 default, .dynCodewordReceive 0 9 default, .packetHop 0 16, .spindleForward 0 8 false .clean, .barArrive 0 256 0,
  .notice 512 0, .doorbell 16 0 0, .doorbell 0 256 0] ++ [
  .requestResendTimeout 0 4096, .fabricPortDown 0 4, .pfcPauseFrame 0 0 8 0, .opn 0 256 0 true, .opn 256 0 0 true, .opn 0 0 2 true, .close 65536 0 ⟨false, true⟩,
  .retentionExpire 0 64, .localHoldBegin 0 32 0, .roughOut { unlocked := [738], refBad := [], noRsd := [] },
  .roughOut { unlocked := [], refBad := [(738, false)], noRsd := [] }, .roughOut { unlocked := [], refBad := [], noRsd := [16] }] ++ [
  .truing { (default : TestIn) with scrubFail := [576] }, .truing { (default : TestIn) with badRouters := [576] },
  .truing { (default : TestIn) with badLinks := [(0, 9)] }, .truing { (default : TestIn) with badModules := [(0, 0, 8)] },
  .truing { (default : TestIn) with long := [(512, true, 0)] }, .shaping { stackFail := [128], badLinks := [], long := [] },
  .shaping { stackFail := [], badLinks := [(576, 0)], long := [] }, .finishing { ports := [(16, 0)], ring := false, twin := false, matched := false, ptp := none },
  .reTrue 16 default, .powerLoopUpdate 0 [(16, 0, 0)], .nvmDeviceFail 2]

theorem test_illFormed_refused : illFormed.all (fun i => !i.wf) = true := by decide +kernel
theorem test_illFormed_stop : illFormed.all (fun i => match exec i up with | .fault .noSuchUnit => true | _ => false) = true := by decide +kernel
theorem test_no_word_decodes : decodeTableWord 32 0x12345678 = none ∧ up.withFetchWord 32 5 = up := by decide +kernel

-- Queue and step ------------------------------------------------------------------------------------------------------------

theorem test_front : step { up with pending := [.spindleNodeOut 3, .beaconSend] } = exec (.spindleNodeOut 3) { up with pending := [.beaconSend] } := rfl
theorem wit_emptyQueue_idle : let s : State := { State.reset with pcd := { State.reset.pcd with standby := false } }
    s.pending = [] ∧ s.pcd.standby = false ∧ (match step s with | .next t => decide (t = s) | _ => false) = true := by decide +kernel
theorem wit_emptyQueue_tick : let s := State.reset
    s.pending = [] ∧ s.pcd.standby = true ∧ s.pcd.nvmIso = false ∧ (∀ p < 16, (s.part p).stackList = []) ∧ (∀ e ∈ s.fds, e.2.txq = []) ∧
      s.pcd.ptcFrac = 0 ∧ s.rg nodePc PC_PTP_RATE = 0 ∧ s.ptc16 / 16000000000 = (s.ptc16 + 16) / 16000000000 ∧
      (match step s with | .next t => decide (t.ptc16 = 16) | _ => false) = true := by decide +kernel
theorem wit_wellFormed : (Instr.beaconSend).wf = true ∧ (Instr.nvmDeviceFail 2).wf = false := by decide
theorem wit_stepKeeps : ∃ t, up.Canonical ∧ step { up with pending := [] } = .next t :=
  ⟨up.tick, ⟨fun _ => Die.canonical_reset, fun _ => rfl, part_reset, rfl⟩, rfl⟩

-- Registers -----------------------------------------------------------------------------------------------------------------

/-- The row of a register. -/
def rowOf (node off bytes : Nat) : RegRow := ((findReg (blkOf node) off bytes).getD ((regRows.head?).getD ⟨.cd, 0, 0, 0, 0, 0, 0, 0, 0, .any⟩))

theorem reg_pc (off bytes : Nat) (h : up.target .pcd (pcReg off).toNat = .block 736 off ∧ regAligned off bytes = true ∧
    (findReg (blkOf 736) off bytes).isSome = true) : up.toRegister .pcd (pcReg off).toNat bytes 736 off (rowOf 736 off bytes) := by
  refine ⟨.inl ⟨h.1, by decide, by decide⟩, h.2.1, ?_⟩
  unfold rowOf
  obtain ⟨x, hx⟩ := Option.isSome_iff_exists.1 h.2.2
  rw [hx]; rfl

theorem reg_cd (src : Source) (off bytes : Nat) (h : up.target src (winReg 0 off).toNat = .window 1 off ∧ 0xF0000000 ≤ off ∧ regAligned off bytes = true ∧
    (findReg (blkOf 1) off bytes).isSome = true) : up.toRegister src (winReg 0 off).toNat bytes 1 off (rowOf 1 off bytes) := by
  refine ⟨.inr ⟨h.1, by decide, h.2.1⟩, h.2.2.1, ?_⟩
  unfold rowOf
  obtain ⟨x, hx⟩ := Option.isSome_iff_exists.1 h.2.2.2
  rw [hx]; rfl

theorem wit_registerWrite_refused : up.toRegister (.host 0) (winReg 0 CD_SPAD_LINEAR).toNat 4 1 CD_SPAD_LINEAR (rowOf 1 CD_SPAD_LINEAR 4) ∧
    up.writerOk (.host 0) (rowOf 1 CD_SPAD_LINEAR 4).writer 1 = false ∧ stays (.registerWrite (.host 0) (winReg 0 CD_SPAD_LINEAR) 4 ⟨1, 0⟩) up = true :=
  ⟨reg_cd _ _ _ (by decide +kernel), by decide +kernel, by decide +kernel⟩
theorem wit_registerWrite : up.toRegister .pcd (winReg 0 CD_ARITH_STATUS).toNat 4 1 CD_ARITH_STATUS (rowOf 1 CD_ARITH_STATUS 4) ∧
    up.writerOk .pcd (rowOf 1 CD_ARITH_STATUS 4).writer 1 = true ∧ specialReg 1 CD_ARITH_STATUS = false ∧
    ran (.registerWrite .pcd (winReg 0 CD_ARITH_STATUS) 4 ⟨0x81, 0⟩) (up.setRg 1 CD_ARITH_STATUS 0xF1) (fun t => decide (t.rg 1 CD_ARITH_STATUS = 0x70)) = true ∧
    ran (.registerWrite .pcd (winReg 0 CD_ARITH_STATUS) 4 ⟨0x81, 1⟩) (up.setRg 1 CD_ARITH_STATUS 0xF1) (fun t => decide (t.rg 1 CD_ARITH_STATUS = 0x71)) = true :=
  ⟨reg_cd _ _ _ (by decide +kernel), by decide +kernel, by decide +kernel, by decide +kernel, by decide +kernel⟩
theorem wit_reserved : up.target .pcd (pcReg 0x40).toNat = .block 736 0x40 ∧ regAligned 0x40 4 = true ∧
    findReg (blkOf 736) 0x40 4 = none ∧ overlapsReg (blkOf 736) 0x40 4 = false ∧ stays (.registerWrite .pcd (pcReg 0x40) 4 ⟨7, 0⟩) up = true := by
  decide +kernel
theorem wit_unbacked : up.target (.host 0) (pcReg 0).toNat = .unbacked ∧
    ran (.registerWrite (.host 0) (pcReg 0) 4 ⟨7, 0⟩) up (fun t => decide (t.pcd.tally = 1)) = true := by decide +kernel
theorem wit_unbacked_score : up.target (.score 1 0) 0x4000000000000000 ≠ .unbacked ∧ up.target (.score 1 0) (winReg 0 0xE0000000).toNat = .window 1 0xE0000000 := by
  decide +kernel

theorem wit_readClear_plain : up.toRegister .pcd (pcReg PC_BSEQ).toNat 4 736 PC_BSEQ (rowOf 736 PC_BSEQ 4) ∧ (rowOf 736 PC_BSEQ 4).rc = 0 ∧
    ran (.registerReadClear .pcd (pcReg PC_BSEQ) 4 0) up (fun t => decide (t.rdata = 0)) = true :=
  ⟨reg_pc _ _ (by decide +kernel), by decide +kernel, by decide +kernel⟩
theorem wit_readClear_counter : up.toRegister .pcd (pcReg PC_BAD_ACCESS_COUNT).toNat 4 736 PC_BAD_ACCESS_COUNT (rowOf 736 PC_BAD_ACCESS_COUNT 4) ∧
    (rowOf 736 PC_BAD_ACCESS_COUNT 4).rc = 0xFFFFFFFF ∧ up.target .pcd (pcReg PC_BAD_ACCESS_COUNT).toNat = .block 736 PC_BAD_ACCESS_COUNT ∧
    ran (.registerReadClear .pcd (pcReg PC_BAD_ACCESS_COUNT) 4 5) (up.setRg 736 PC_BAD_ACCESS_COUNT 9)
      (fun t => decide (t.rdata = 9) && regIs 736 PC_BAD_ACCESS_COUNT 5 t) = true :=
  ⟨reg_pc _ _ (by decide +kernel), by decide +kernel, by decide +kernel, by decide +kernel⟩
/-- The field that clears takes its reset value, or what an event of the cycle gives it. -/
theorem wit_readClear_field : up.toRegister .pcd (winReg 0 CD_CLK_MARGIN).toNat 4 1 CD_CLK_MARGIN (rowOf 1 CD_CLK_MARGIN 4) ∧
    (rowOf 1 CD_CLK_MARGIN 4).rc = 0xFFE00000 ∧
    ran (.registerReadClear .pcd (winReg 0 CD_CLK_MARGIN) 4 0) (up.setRg 1 CD_CLK_MARGIN 0x00200003) (fun t => regIs 1 CD_CLK_MARGIN 0xFC000003 t) = true ∧
    ran (.registerReadClear .pcd (winReg 0 CD_CLK_MARGIN) 4 6) (up.setRg 1 CD_CLK_MARGIN 0x00200003) (fun t => regIs 1 CD_CLK_MARGIN 0x00A00003 t) = true :=
  ⟨reg_cd _ _ _ (by decide +kernel), by decide +kernel, by decide +kernel, by decide +kernel⟩
theorem wit_rearm : up.toRegister .pcd (winReg 0 CD_MC_FAULT_INFO).toNat 4 1 CD_MC_FAULT_INFO (rowOf 1 CD_MC_FAULT_INFO 4) ∧
    up.writerOk .pcd (rowOf 1 CD_MC_FAULT_INFO 4).writer 1 = true ∧ (rowOf 1 CD_MC_FAULT_INFO 4).width = 32 ∧ (recordRest 1 CD_MC_FAULT_INFO).isSome = true ∧
    (0x80000000#64).getLsbD 31 = true ∧ (0#64).getLsbD 31 = false ∧
    ran (.faultRecordRearm .pcd (winReg 0 CD_MC_FAULT_INFO) 0x80000000) ((up.setRg 1 CD_MC_FAULT_INFO 0x80001234).setRg 1 CD_MC_FAULT_PTC 77)
      (fun t => regIs 1 CD_MC_FAULT_INFO 0 t && regIs 1 CD_MC_FAULT_PTC 0 t) = true :=
  ⟨reg_cd _ _ _ (by decide +kernel), by decide +kernel, by decide +kernel, by decide +kernel, by decide, by decide, by decide +kernel⟩

def tallied : State := (up.setPcd (fun p => { p with tally := 3 })).modDie 1 (fun x => { x with tally := 4 })
theorem wit_tally : up.tallyOf 1 = 0 ∧ 736 = tallied.activeNode ∧ tallied.tallyOf 736 ≠ 0 ∧ tallied.rg nodePc PC_BAD_ACCESS_COUNT + tallied.tallyOf 736 < 0xFFFFFFFF ∧
    tallied.tallyOf 1 ≠ 0 ∧ stays (.badAccessTallyReport 1) up = true ∧
    ran (.badAccessTallyReport 736) tallied (fun t => decide (t.pcd.tally = 0) && regIs 736 PC_BAD_ACCESS_COUNT 3 t) = true ∧
    ran (.badAccessTallyReport 1) tallied (fun t => decide ((t.die 1).tally = 0)) = true := by decide +kernel

theorem placed_reaches (p : Nat) (x : Place) : (placed p x).reaches .pcd 0 1 := ⟨by show up.siteNode 0 = some 1; decide +kernel, by show up.coreOn 1 = true; decide +kernel, trivial⟩

theorem wit_seed : ((placed 0 running).place 1 0).st = .running ∧ (up.place 1 0).st ≠ .running ∧
    ran (.srSeedWrite .pcd 0 0 5) (placed 0 running) (fun t => t.rgB 1 CD_ARITH_STATUS 8 && regIs 1 (CD_SR_SEED 0) 0 t) = true ∧
    ran (.srSeedWrite .pcd 0 0 5) up (fun t => regIs 1 (CD_SR_SEED 0) 5 t &&
      decide ((t.die 1).gen 0 0 = 0x9E3779B97F4A7C10#64)) = true := by decide +kernel

def inj : State := up.setPcd (fun p => { p with conf := some { Conf.shipped with faultInj := true } })
theorem wit_inject : inj.reaches .pcd 0 1 ∧ inj.pcd.conf.map (·.faultInj) = some true ∧ (0x80010000#32).getLsbD 31 = true ∧
    ran (.mcInjectArm .pcd 0 0x80010000) inj (fun t => decide ((t.die 1).inject = 2)) = true ∧ stays (.mcInjectArm .pcd 0 0x80010000) up = true ∧ stays (.mcInjectArm .pcd 0 0x00010000) inj = true :=
  ⟨⟨by decide +kernel, by decide +kernel, trivial⟩, by decide +kernel, by decide, by decide +kernel, by decide +kernel, by decide +kernel⟩

-- M-cores -------------------------------------------------------------------------------------------------------------------

theorem wit_mcNop : up.canIssue 1 0 = true ∧ up.rgB 1 CD_MC_FAULT_INFO 31 = false ∧ (up.place 1 0).slot < 8 ∧
    ran (.mcNop 1 0 true) up (fun t => decide ((t.place 1 0).st = .halted) && decide (bits (t.rg 1 CD_MC_FAULT_INFO) 20 16 = 12)) = true := by decide +kernel

def zc : ZeroCmd := { nrowsM1 := 3, accRow := 1020, rsv := false }
def accS : State := up.setMc 1 0 { (default : Mcore) with acc := [(64 * 1019, 7), (64 * 1023 + 63, 9)], tags := [(1019, 3), (1020, 4)] }
theorem wit_zero : accS.canIssue 1 0 = true ∧ zc.accRow.toNat + zc.nrowsM1.toNat + 1 ≤ 1024 ∧ (accS.mc 1 0).outUntil ≤ (accS.die 1).cyc ∧ zc.rsv = false ∧
    ran (.zero 1 0 zc) accS (fun t => decide ((t.mc 1 0).acc = [(64 * 1019, 7)]) && decide ((t.mc 1 0).tags = [(1019, 3)]) &&
      decide ((t.mc 1 0).outUntil = (accS.die 1).cyc + 1)) = true := by decide +kernel

/-- LOADW of a 1 × 1 tile of binary32. -/
def lw : LoadwCmd := { (default : LoadwCmd) with fmt := 0 }
def fed : State := placed 0 { Place.reset with lanes := [(0, { (default : Lane) with q := [laneTok 0 false 1, laneTok 0 false 2] })] }
theorem wit_loadw : up.canIssue 1 0 = true ∧ up.loadwCause 1 0 lw = none ∧ lw.src = false ∧ (up.schedRead 1 (loadwAccs lw 0 (up.die 1).cyc)).2 = true ∧
    ran (.loadw 1 0 lw) up (fun t => (t.mc 1 0).shadow.isSome && !(t.mc 1 0).shadowReady && decide ((t.mc 1 0).loadUntil = (up.die 1).cyc + 11)) = true := by
  decide +kernel
theorem wit_loadw_lane : fed.canIssue 1 0 = true ∧ fed.loadwCause 1 0 { lw with src := true } = none ∧
    loadwL { lw with src := true } ≤ ((fed.place 1 0).lane 0).q.length ∧
    ran (.loadw 1 0 { lw with src := true }) fed (fun t => (t.mc 1 0).shadow.isSome && decide (((t.place 1 0).lane 0).q = [laneTok 0 false 2])) = true := by
  decide +kernel
def shad : State := up.setMc 1 0 { (default : Mcore) with shadow := some default }
theorem wit_shadowReady : (shad.mc 1 0).shadow.isSome = true ∧ ran (.loadwShadowReady 1 0) shad (fun t => (t.mc 1 0).shadowReady) = true ∧ stays (.loadwShadowReady 1 0) up = true := by decide +kernel

def ro : ReadoutCmd := { (default : ReadoutCmd) with clear := true, accRow := 1023, colsM1 := 63 }
def roS : State := up.setMc 1 0 { (default : Mcore) with acc := [(64 * 1022, 7), (64 * 1023 + 63, 0x3F800000)] }
theorem wit_readout : roS.canIssue 1 0 = true ∧ roS.readoutCause 1 0 ro = none ∧ (roS.schedule 1 (readoutAccs ro 0 (roS.die 1).cyc)).2 = true ∧
    (roS.mc 1 0).accErr = [] ∧ (roS.die 1).spad.errs = [] ∧
    ran (.readout 1 0 ro) roS (fun t => decide ((t.mc 1 0).acc = [(64 * 1022, 7)]) && decide ((t.mc 1 0).outUntil = (roS.die 1).cyc + 4) &&
      decide (leVal (t.spadBytes 1 252 4) = 0x3F800000)) = true := by decide +kernel

def rc (expect : Nat) : ReduceCmd := { (default : ReduceCmd) with accRow := 1023, gtag := 5, expect := BitVec.ofNat 8 expect }
def redS (tag : Nat) : State := (placed 0 { Place.reset with lanes := [(0, { (default : Lane) with q := [laneTok 0 true (gatherHeader (rc 1) 1), laneTok 0 false 0x40000000] })] }).setMc 1 0
  { (default : Mcore) with acc := [(64 * 1023, 0x3F800000)], tags := nput 0 [] 1023 tag }
/-- With CLEAR the element sent becomes +0 and its tag 0. -/
theorem test_reduceSend_clears : ran (.reduceSend 1 0 { rc 0 with clear := true }) (redS 5)
    (fun t => decide ((t.mc 1 0).tag 1023 = 0) && decide ((t.mc 1 0).elem 1023 0 = 0#32)) = true := by decide +kernel
theorem wit_reduceSend : (redS 5).canIssue 1 0 = true ∧ ((redS 5).mc 1 0).accErr = [] ∧ (redS 5).arrPending 1 0 = [] ∧ (redS 5).reduceCause 1 0 0 (rc 0) ((redS 5).outBusy 1 0) none = none ∧
    ran (.reduceSend 1 0 (rc 0)) (redS 5) (fun t => decide ((((t.place 1 0).lane 2).out.map (fun e => e.2.payload)) = [gatherHeader (rc 0) 1, 0x3F800000])) = true := by
  decide +kernel
theorem wit_reduceAdd : (((redS 0).place 1 0).lane 0).q = laneTok 0 true (gatherHeader (rc 1) 1) :: [laneTok 0 false 0x40000000] ∧
    reduceW (rc 1) * reduceRows (rc 1) ≤ 1 ∧ (redS 0).reduceCause 1 0 1 (rc 1) ((redS 0).outBusy 1 0) (some (laneTok 0 true (gatherHeader (rc 1) 1))) = none ∧
    ran (.reduceAdd 1 0 (rc 1)) (redS 0) (fun t => decide ((t.mc 1 0).tag 1023 = 5) && decide (((t.place 1 0).lane 0).q = []) &&
      decide ((t.mc 1 0).elem 1023 0 = 0x40400000)) = true := by decide +kernel
theorem wit_reduceAddsend : (redS 5).reduceCause 1 0 2 (rc 1) ((redS 5).outBusy 1 0) (some (laneTok 0 true (gatherHeader (rc 1) 1))) = none ∧
    ran (.reduceAddsend 1 0 (rc 1)) (redS 5) (fun t => decide ((((t.place 1 0).lane 2).out.map (fun e => e.2.payload)) = [gatherHeader (rc 1) 2, 0x40400000])) = true := by
  decide +kernel

-- The scraper ---------------------------------------------------------------------------------------------------------------

def sm (kind : Nat) : SmoveCmd := { kind := BitVec.ofNat 3 kind, addr := 64, slot := 262143, countM1 := 0, rsv := false }
def scrS : State := (up.modDie 1 (fun x => { x with scr := { x.scr with side := [(262142, { kind := 3, a := 1, b := 2 }), (262143, { kind := 2, a := 5, b := 6 })] } })).spadStoreBytes 1 81 64
  (leBytes 8 0x0000000800000007) false
theorem wit_setup : let u : SetupCmd := { eps := 1, diag := 2, gbSlot := 3, rsv := false }
    scrS.canIssue 1 24 = true ∧ u.rsv = false ∧ stays (.scrNop 1 false) scrS = true ∧
    ran (.setup 1 u) scrS (fun t => decide ((t.die 1).scr.eps = 1 ∧ (t.die 1).scr.diag = 2 ∧ (t.die 1).scr.gbSlot = 3)) = true := by decide +kernel
theorem wit_smoveClear : scrS.smoveCause 1 2 (sm 0) = none ∧
    ran (.smoveClear 1 (sm 0)) scrS (fun t => decide ((t.die 1).scr.side = [(262142, { kind := 3, a := 1, b := 2 })] ∧ (t.die 1).scr.busyUntil = (scrS.die 1).cyc + 1)) = true := by
  decide +kernel
theorem wit_smoveIn : scrS.smoveCause 1 1 (sm 4) = none ∧ (scrS.die 1).spad.errs = [] ∧ (scrS.schedule 1 (smoveAccs (sm 4) 1 (scrS.die 1).cyc)).2 = true ∧
    ran (.smoveIn 1 (sm 4)) scrS (fun t => decide ((t.die 1).scr.slot 262143 = { kind := 4, a := 7, b := 8 } ∧ (t.die 1).scr.busyUntil = (scrS.die 1).cyc + 5)) = true := by
  decide +kernel
theorem wit_smoveOut : scrS.smoveCause 1 0 (sm 0) = none ∧ (scrS.die 1).spad.errs = [] ∧ (scrS.die 1).scr.sideErr = [] ∧
    (scrS.schedule 1 (smoveAccs (sm 0) 0 (scrS.die 1).cyc)).2 = true ∧
    ran (.smoveOut 1 (sm 0)) scrS (fun t => decide (leVal (t.spadBytes 1 64 8) = 0x0000000600000005)) = true := by decide +kernel

/-- A row of one element at address 0, its output at 64, parameters at 128, statistics in the last slot. -/
def rw : RowCmd := { (default : RowCmd) with addrOut := 64, param := 128, slot := 262143 }
def statS (kind : Nat) : State := up.modDie 1 (fun x => { x with scr := { x.scr with side := [(262143, { kind := kind, a := 0x3F800000, b := 0x3F800000 })] } })
theorem wit_norm : up.canIssue 1 24 = true ∧ rw.src = false ∧ up.rowCause 1 1 rw = none ∧ (up.schedule 1 (rowAccs 1 rw (up.die 1).cyc)).2 = true := by decide +kernel
theorem wit_softmax : up.rowCause 1 2 { rw with param := 0 } = none ∧ (up.schedule 1 (rowAccs 2 { rw with param := 0 } (up.die 1).cyc)).2 = true := by decide +kernel
theorem wit_normb : let c := { rw with addrAux := 192 }
    (statS 1).rowCause 1 3 c = none ∧ c.b21 = false ∧ ((statS 1).schedule 1 (rowAccs 3 c ((statS 1).die 1).cyc)).2 = true ∧ c.variant = false ∧
    (∀ i, c.slot.toNat ≤ i ∧ i < c.slot.toNat + c.nrowsM1.toNat + 1 → (((statS 1).die 1).scr.slot i).kind = 1) := by
  refine ⟨by decide +kernel, by decide +kernel, by decide +kernel, by decide +kernel, fun i h => ?_⟩
  have : i = 262143 := by
    have h1 : rw.slot.toNat = 262143 := by decide +kernel
    have h2 : rw.nrowsM1.toNat = 0 := by decide +kernel
    change rw.slot.toNat ≤ i ∧ i < rw.slot.toNat + rw.nrowsM1.toNat + 1 at h
    omega
  subst this; decide +kernel
theorem wit_softmaxb : let c := { rw with addrAux := 192, param := 0 }
    (statS 3).rowCause 1 4 c = none ∧ ((statS 3).schedule 1 (rowAccs 4 c ((statS 3).die 1).cyc)).2 = true ∧ (((statS 3).die 1).scr.slot 262143).kind = 3 := by
  decide +kernel

-- V-cores -------------------------------------------------------------------------------------------------------------------

/-- v1 holds x in element 63 and y in element 0, v2 the same of z and w; the result goes to v127. -/
def vi : VIns := { (default : VIns) with vd := 127, va := 1, vb := 2, vc := 3 }
def vS (a b c : Nat) : State := up.setVc 1 7 { (default : Vcore) with regs := [(1, BitVec.ofNat 2048 (a * 2 ^ 2016 + a)), (2, BitVec.ofNat 2048 (b * 2 ^ 2016 + b)), (3, BitVec.ofNat 2048 (c * 2 ^ 2016 + c))] }
/-- The pending result is for v127, due after lat cycles, with the value e in element 63. -/
def vRes (lat e : Nat) (t : State) : Bool :=
  match (t.vc 1 7).pend with
  | [p] => decide (p.dest = .reg 127) && decide (p.due = (up.die 1).cyc + lat) && decide (pendElem p 32 63 = e)
  | _ => false

theorem wit_viadd : (vS 5 7 0).canIssue 1 23 = true ∧ ((vS 5 7 0).vc 1 7).regErr = [] ∧
    (∀ op ∈ [40, 41, 42, 43, 44, 45, 46, 27, 33, 50], (vS 5 7 0).vCause 1 7 op vi = none) ∧ vi.f64 = false := by decide +kernel
theorem test_vInt : ran (.viadd 1 7 vi) (vS 0xFFFFFFFF 7 0) (vRes 2 6) = true ∧ ran (.visub 1 7 vi) (vS 5 7 0) (vRes 2 0xFFFFFFFE) = true ∧
    ran (.vand 1 7 vi) (vS 5 7 0) (vRes 2 5) = true ∧ ran (.vor 1 7 vi) (vS 5 8 0) (vRes 2 13) = true ∧ ran (.vxor 1 7 vi) (vS 5 7 0) (vRes 2 2) = true ∧
    ran (.vshl 1 7 vi) (vS 3 33 0) (vRes 2 6) = true ∧ ran (.vshr 1 7 vi) (vS 0x80000000 4 0) (vRes 2 0xF8000000) = true := by decide +kernel
theorem test_vMove : ran (.vldi 1 7 { vi with imm := 0x7F00 }) (vS 5 7 0) (vRes 1 0x3F800000) = true ∧ ran (.vsel 1 7 vi) (vS 5 7 0) (vRes 2 5) = true ∧
    ran (.vbcast 1 7 { vi with imm := 63 }) (vS 5 7 0) (vRes 2 5) = true := by decide +kernel
theorem wit_vArith : (∀ op ∈ [16, 17, 18, 19, 20, 21, 22, 23, 24, 25, 26, 32, 48, 49], (vS 0 0 0).vCause 1 7 op { vi with imm := 0 } = none) ∧ vi.vd.toNat % 8 ≠ 0 ∧
    (vS 0 0 0).vCause 1 7 25 { vi with imm := 1 } = none ∧ vi.rmode.toNat ≠ 2 := by decide +kernel
theorem test_vArith : ran (.vadd 1 7 vi) (vS 0x3F800000 0x40000000 0) (vRes 4 0x40400000) = true ∧ ran (.vsub 1 7 vi) (vS 0x3F800000 0x40000000 0) (vRes 4 0xBF800000) = true ∧
    ran (.vmul 1 7 vi) (vS 0x40400000 0x40000000 0) (vRes 4 0x40C00000) = true ∧ ran (.vfma 1 7 vi) (vS 0x40400000 0x40000000 0x3F800000) (vRes 4 0x40E00000) = true ∧
    ran (.vfnma 1 7 vi) (vS 0x40400000 0x40000000 0x3F800000) (vRes 4 0xC0A00000) = true ∧ ran (.vdiv 1 7 vi) (vS 0x40C00000 0x40000000 0) (vRes 24 0x40400000) = true ∧
    ran (.vsqrt 1 7 vi) (vS 0x40800000 0 0) (vRes 24 0x40000000) = true := by decide +kernel
theorem test_vMinMax : ran (.vmin 1 7 vi) (vS 0x3F800000 0x40000000 0) (vRes 4 0x3F800000) = true ∧ ran (.vmax 1 7 vi) (vS 0x3F800000 0x40000000 0) (vRes 4 0x40000000) = true ∧
    ran (.vcvti 1 7 { vi with imm := 0 }) (vS 0xFFFFFFFE 0 0) (vRes 4 0xC0000000) = true := by decide +kernel
theorem test_vRed : ran (.vredsum 1 7 vi) (vS 0x3F800000 0 0) (vRes 14 0) = true ∧ ran (.vredmax 1 7 vi) (vS 0x3F800000 0 0) (vRes 14 0) = true ∧
    ran (.vcmp 1 7 { vi with imm := 1 }) (vS 0x3F800000 0x40000000 0) (fun t => decide ((t.vc 1 7).pend.map (fun p => (p.dest, p.val.getLsbD 63, p.val.getLsbD 1)) = [(.mask 7, true, false)])) = true := by
  decide +kernel
theorem wit_vMem : let i := { vi with va := 8, imm := 0 }
    (vS 1 2 3).vCause 1 7 0 { vi with imm := 0 } = none ∧ (vS 1 2 3).vCause 1 7 1 i = none ∧ ((vS 1 2 3).die 1).spad.errs = [] ∧
    ((vS 1 2 3).schedule 1 (vldAccs 7 ((vS 1 2 3).die 1).cyc (((vS 1 2 3).vc 1 7).lines i))).2 = true ∧ (vS 1 2 3).vCause 1 7 2 i = none ∧
    ((vS 1 2 3).schedule 1 (vstAccs 7 ((vS 1 2 3).die 1).cyc (((vS 1 2 3).vc 1 7).lines i))).2 = true ∧ (vS 1 2 3).vCause 1 7 4 i = none := by decide +kernel
def vq : State := (vS 1 2 3).setPlace 1 23 { Place.reset with lanes := [(0, { (default : Lane) with q := [laneTok 0 false 9, laneTok 0 false 1, laneTok 0 false 1, laneTok 0 false 1] })] }
theorem wit_vrecv : let i := { vi with va := 0, imm := 0 }
    vq.vCause 1 7 3 i = none ∧ i.flits ≤ ((vq.place 1 23).lane i.lane).q.length ∧
    ran (.vrecv 1 7 i) vq (fun t => decide (((t.place 1 23).lane 0).q = []) && vRes 6 0 t) = true := by decide +kernel
theorem test_aset : ran (.aset 1 7 5 64 3) up (fun t => decide ((t.vc 1 7).base 5 = 64)) = true ∧ ran (.vnop 1 7 { vi with imm := 0 }) up (fun t => decide ((t.vc 1 7).pend = [])) = true := by decide +kernel
theorem test_vld : ran (.vld 1 7 { vi with va := 8, imm := 0 }) ((vS 1 2 3).spadStoreBytes 1 81 252 [1, 2, 3, 4] false) (fun t => vRes 9 0x04030201 t) = true := by decide +kernel

-- S-cores -------------------------------------------------------------------------------------------------------------------

/-- S-core 0 of die 1 runs in a mode, x1 and x2 given. -/
def scS (mode : Nat) (x1 x2 : W64) (s : State := up) : State := s.setSc 1 0 { SCore.reset with st := 1, mode := mode, x := [(1, x1), (2, x2)] }
/-- S-core 0 went on, x31 reads v. -/
def went (v : Nat) (t : State) : Bool := decide (((t.sc 1 0).getX 31).toNat = v) && decide ((t.sc 1 0).pc = 4) && decide ((t.sc 1 0).st = 1)
/-- The place and slot 24, 7. -/
def a247 : W64 := 7 * 256 + 24
theorem wit_plUser : (scS 0 a247 0).scReady 1 0 = true ∧ ((scS 0 a247 0).sc 1 0).mode = 0 ∧
    ran (.plStat 1 0 31 1) (scS 0 a247 0) (fun t => decide ((t.sc 1 0).trap = some .illegalInstruction)) = true := by decide +kernel
theorem wit_plOut : ((scS 3 25 0).sc 1 0).mode ≠ 0 ∧ 25 ≤ (((scS 3 25 0).sc 1 0).getX 1).toNat % 32 ∧ ran (.plArm 1 0 31 1 2) (scS 3 25 0) (went 3) = true := by decide +kernel
theorem wit_plArm : let s := scS 3 a247 0
    24 < 25 ∧ s.contended 1 24 0 = false ∧ s.jobHas 1 = true ∧ (s.place 1 24).st = .idle ∧ s.rgB 1 CD_SPAD_STATUS 3 = false ∧ 0 = s.rg 1 CD_PL_CTRL % 16 ∧
      ran (.plArm 1 0 31 1 2) s (fun t => went 0 t && decide ((t.place 1 24).st = .armed ∧ (t.place 1 24).slot = 7)) = true := by decide +kernel
theorem wit_plArm_refused : let s := scS 3 a247 0 (placed 24 running)
    s.contended 1 24 0 = false ∧ (s.place 1 24).st = .running ∧ ran (.plArm 1 0 31 1 2) s (went 1) = true ∧
      ran (.plArm 1 0 31 1 2) (scS 3 a247 9) (went 2) = true := by decide +kernel
theorem wit_plContended : let s := (scS 3 0 0 (placed 24 { running with plUse := some (0, 0, 0) })).setSc 1 1 { SCore.reset with st := 1, x := [(1, a247)] }
    s.scReady 1 1 = true ∧ (s.sc 1 1).mode ≠ 0 ∧ s.contended 1 24 1 = true ∧ [Instr.plArm 1 1 31 1 2, .plStop 1 1 31 1].all (fun i =>
      ran i s (fun t => decide ((t.sc 1 1).getX 31 = 4 ∧ (t.place 1 24).st = .running))) = true := by decide +kernel
/-- A lower-numbered S-core takes the place of the same cycle from a higher one, which reads 4. -/
theorem wit_plTaken : let u : PlUndo := { rd := 31, place := running, pend := 0, scrubDone := false, drain := none }
    let s := scS 3 a247 0 ((placed 24 { running with st := .halted, plUse := some (3, 0, 2) }).modDie 1 (fun x => { x with plUndo := [(24, u)] }))
    (s.place 1 24).plUse = some (3, s.ccountOf 1, 2) ∧ sfind (s.die 1).plUndo 24 = some u ∧ 0 < u.rd ∧
      ran (.plStop 1 0 31 1) s (fun t => went 0 t && decide ((t.sc 1 3).getX 31 = 4 ∧ (t.place 1 24).st = .halted)) = true := by decide +kernel
theorem wit_plStop : let s := scS 3 a247 0 (placed 24 running)
    (s.place 1 24).st = .running ∧ ran (.plStop 1 0 31 1) s (fun t => went 0 t && decide ((t.place 1 24).st = .halted)) = true ∧
      ran (.plStop 1 0 31 1) (scS 3 a247 0) (went 1) = true := by decide +kernel
theorem wit_plStat : let s := scS 3 a247 0 (placed 24 { running with slot := 7, gen := 9 })
    (s.place 1 24).plUse = none ∧ ran (.plStat 1 0 31 1) s (went (2 + 56 + 576)) = true := by decide +kernel

def barS : State := up.setSc 1 3 { SCore.reset with st := 1, bar := some (255, 31), vgbartmo := 1 }
theorem wit_barrierTimeout : barS.coreOn 1 = true ∧ (barS.sc 1 3).bar = some (255, 31) ∧ (barS.sc 1 3).vgbartmo ≠ 0#32 ∧
    ran (.barrierTimeout 1 3) barS (fun t => decide ((t.sc 1 3).bar = none ∧ (t.sc 1 3).getX 31 = 1)) = true := by decide +kernel
theorem wit_trap : (barS.sc 1 3).live = true ∧ ran (.sCoreTrap 1 3) barS (fun t => decide ((t.sc 1 3).st = 3 ∧ t.pcd.alerts.map (·.code) = [0x2130])) = true := by decide +kernel
theorem wit_scCtrl : Source.pcd ≠ .host 0 ∧ (0x1001#64).getLsbD 0 = true ∧ up.rgB 1 (CD_SC_CTRL 3) 0 = false ∧
    ran (.scCtrlWrite .pcd 0 3 0x1001) up (fun t => decide ((t.sc 1 3).st = 1 ∧ (t.sc 1 3).pc = 0x1000 ∧ (t.sc 1 3).mode = 3)) = true ∧
    ran (.scCtrlWrite .pcd 0 3 0) barS (fun t => decide (t.sc 1 3 = SCore.reset)) = true ∧
    ran (.scCtrlWrite .pcd 0 3 0x2001) (barS.setRgB 1 (CD_SC_CTRL 3) 0 true) (fun t => decide (t.dies = barS.dies)) = true ∧ stays (.scCtrlWrite (.host 0) 0 3 1) up = true := by decide +kernel

theorem wit_fxUser : ((scS 0 0 0).sc 1 0).mode = 0 ∧ ((scS 3 0 0).sc 1 0).mode ≠ 0 ∧ (scS 3 0 0).partOfNode 1 = some 0 := by decide +kernel
theorem wit_fxStart : ran (.fxStart 1 0 31) (scS 3 0 0) (went 0) = true ∧ (scS 3 0 0).kernelNode 0 = some 1 ∧
    ran (.fxStart 2 0 31) (up.setSc 2 0 { SCore.reset with st := 1 }) (fun t => decide ((t.sc 2 0).getX 31 = 1)) = true := by decide +kernel
/-- Of a region in no partition; for a memory die that is off; while the ticket would displace a pending one. -/
theorem wit_fx_held : let s := scS 3 64 127 (up.modDie 1 (fun x => { x with ticketNext := 1024, tickets := [(0, 0)] }))
    sfind (s.die 1).tickets (ticketBack (s.die 1).ticketNext 1024) = some 0 ∧
    ran (.fxDma 1 0 31 1 2) s (fun t => decide ((t.sc 1 0).fxHold = some (31, 64, 127) ∧ (t.sc 1 0).pc = 0)) = true ∧
    (scS 3 64 127 (up.setRgB (nodeRs 15) RS_FENCE 57 true)).mdOn 127 = false ∧
    ran (.fxDma 1 0 31 1 2) (scS 3 64 127 (up.setRgB (nodeRs 15) RS_FENCE 57 true)) (fun t => went 0 t && decide (sfind (t.die 1).tickets 0 = some 2)) = true ∧
    (scS 3 0 0 (up.setPcd (fun p => { p with conf := some { Conf.shipped with parts := [] } }))).partOfNode 1 = none := by decide +kernel
theorem wit_fxDma : let s := scS 3 64 127
    127 < 128 ∧ s.partOfRegion (127 / 8) = s.partOfNode 1 ∧ s.mdOn 127 = true ∧ (s.die 1).ticketNext < 0xFFFFFFFF ∧
      sfind (s.die 1).tickets (ticketBack (s.die 1).ticketNext 1024) ≠ some 0 ∧
      ran (.fxDma 1 0 31 1 2) s (fun t => went 0 t && decide (t.pcd.descs.map (fun e => (e.1, e.2.1)) = [(127, .fxdma 1 0 64)] ∧ (t.die 1).ticketNext = 1)) = true ∧
      ran (.fxDma 1 0 31 1 2) (scS 3 64 128) (went 0xFFFFFFFF) = true := by decide +kernel
theorem wit_fxDpoll : ran (.fxDpoll 1 0 31 1) (scS 3 5 0 (up.modDie 1 (fun x => { x with tickets := [(5, 2)] }))) (went 2) = true ∧
    ran (.fxDpoll 1 0 31 1) (scS 3 5 0) (went 1) = true ∧ ran (.fxBar 1 0 31 1) (scS 3 255 0) (fun t => decide ((t.sc 1 0).bar = some (255, 31))) = true := by decide +kernel
theorem wit_fxSpsend : let s := scS 3 511 9
    s.partOfSite 511 = s.partOfNode 1 ∧ (s.siteNode 511).isSome = true ∧ ran (.fxSpsend 1 0 31 1 2) s (went 0) = true ∧
      ran (.fxSpsend 1 0 31 1 2) (scS 3 512 9) (went 1) = true := by decide +kernel
theorem wit_fxSprecv : let s := scS 3 0 0 (up.modDie 1 (fun x => { x with spq := [(511, 77), (2, 3)] }))
    (s.die 1).spq = (511, 77) :: [(2, 3)] ∧ ran (.fxSprecv 1 0 31) s (fun t => went 77 t && decide ((t.sc 1 0).vgsrc = 511 ∧ (t.die 1).spq = [(2, 3)])) = true ∧
      ran (.fxSprecv 1 0 31) (scS 3 0 0) (fun t => went 0 t && decide ((t.sc 1 0).vgsrc = 0xFFFFFFFF)) = true := by decide +kernel

/-- Partition 0 has stack 0. -/
def hb : State := up.setPart 0 { up.part 0 with stackList := [0] }
def cacheS : State := scS 3 0 0x11223344 (hb.modDie 1 (fun x => { x with l2 := [{ addr := 0, dirty := false, bytes := (List.replicate 62 0#8) ++ [0x80, 0x81], errs := [] }] }))
theorem wit_scMem : let s := cacheS
    s.target (.score 1 0) (panelAddr 62) = .hbm 0 ∧ panelAddr 62 + 2 ≤ s.hbmSize 0 ∧ s.keptRange 0 (panelAddr 62) 2 = false ∧ panelAddr 62 % 64 + 2 ≤ 64 ∧
      cacheLine (s.sc 1 0).dc (panelAddr 62 / 64 * 64) = none ∧ (s.sc 1 0).dc.length < l1Lines ∧
      (cacheLine (s.die 1).l2 (panelAddr 62 / 64 * 64)).map (fun l => (l.bytes.length, l.errs)) = some (64, []) ∧
      ran (.sCoreMemoryAccess 1 0 (.load true) 62 2 31) s (fun t => decide ((t.sc 1 0).getX 31 = 0xFFFFFFFFFFFF8180)) = true ∧
      ran (.sCoreMemoryAccess 1 0 .store 62 2 2) s (fun t => decide ((t.die 1).l2.map (fun l => (l.dirty, l.bytes.drop 61)) = [(true, [0, 0x44, 0x33])])) = true := by
  decide +kernel
/-- A store reaches the copy of another S-core's data cache; CBO.INVAL takes the line out of all. -/
theorem wit_scMem_copies : let s := cacheS.setSc 1 3 { SCore.reset with dc := [{ addr := 0, dirty := false, bytes := List.replicate 64 1#8, errs := [] }] }
    s.target (.score 1 0) 0 = .hbm 0 ∧ 64 ≤ s.hbmSize 0 ∧ s.keptRange 0 0 64 = false ∧
      ran (.sCoreMemoryAccess 1 0 .store 62 2 2) s (fun t => decide ((t.sc 1 3).dc.map (fun l => l.bytes.drop 61) = [[1, 0x44, 0x33]])) = true ∧
      ran (.sCoreMemoryAccess 1 0 .cboInval 63 1 0) s (fun t => decide ((t.sc 1 3).dc = [] ∧ (t.die 1).l2 = [])) = true := by decide +kernel
/-- A dirty line goes home; a clean one has nowhere to go. -/
theorem wit_scMem_home : let l : CLine := { addr := 64, dirty := true, bytes := List.replicate 63 0#8 ++ [7], errs := [] }
    let s := scS 3 0 0 (hb.modDie 1 (fun x => { x with l2 := [l, { l with addr := 0, dirty := false }] }))
    s.target (.score 1 0) 64 = .hbm 0 ∧ 128 ≤ s.hbmSize 0 ∧ s.keptRange 0 64 64 = false ∧ cacheLine (s.die 1).l2 64 = some l ∧ l.bytes.length = 64 ∧ s.refillRoom 0 64 = true ∧
      s.hbmMap 0 64 = some (0, 64) ∧ s.mdOn 0 = true ∧ (s.md 0).errs = [] ∧
      ran (.sCoreMemoryAccess 1 0 .cboClean 127 1 0) s (fun t => decide ((t.md 0).mem = [(127, 7)] ∧ (t.die 1).l2.map (fun e => e.dirty) = [false, false])) = true ∧
      ran (.sCoreMemoryAccess 1 0 .cboFlush 127 1 0) s (fun t => decide ((t.md 0).mem = [(127, 7)] ∧ (t.die 1).l2.map (fun e => e.addr) = [0])) = true ∧
      ran (.sCoreMemoryAccess 1 0 .cboClean 0 1 0) s (fun t => decide ((t.md 0).mem = [] ∧ (t.die 1).l2.map (fun e => e.dirty) = [true, false])) = true := by decide +kernel
/-- ADDI x31, x2, −1, the last word of a line of the instruction cache. -/
theorem wit_scExecute : let l : CLine := { addr := 0, dirty := false, bytes := List.replicate 60 0#8 ++ [0x93, 0x0F, 0xF1, 0xFF], errs := [] }
    let s := (scS 3 0 7 hb).setSc 1 0 { ((scS 3 0 7 hb).sc 1 0) with pc := 60, ic := [l] }
    s.scReady 1 0 = true ∧ s.scFree 1 0 = true ∧ s.rvInterrupt 1 0 = none ∧ (s.sc 1 0).st = 1 ∧ (s.sc 1 0).mode = 3 ∧
      (∀ k ∈ [0, 2], s.target (.score 1 0) (panelAddr (60 + k)) = .hbm 0 ∧ panelAddr (60 + k) + 2 ≤ s.hbmSize 0 ∧ s.keptRange 0 (panelAddr (60 + k)) 2 = false) ∧
      cacheLine (s.sc 1 0).ic (panelAddr 60 / 64 * 64) = some l ∧ l.bytes.length = 64 ∧ leVal ((l.bytes.drop 60).take 4) = 0xFFF10F93 ∧ ((s.sc 1 0).plain 0xFFF10F93 4).isSome = true ∧
      0xFFF10F93 % 128 = 0x13 ∧ 0xFFF10F93 % 4 = 3 ∧
      ran (.sCoreMemoryAccess 1 0 .execute 0 0 0) s (fun t => decide ((t.sc 1 0).pc = 64 ∧ (t.sc 1 0).getX 31 = 6 ∧ (t.sc 1 0).getX 2 = 7)) = true := by decide +kernel
theorem wit_scMem_beyond : let s := scS 3 0 0
    s.target (.score 1 0) (panelAddr 0) = .hbm 0 ∧ s.hbmSize 0 < panelAddr 0 + 8 ∧
      ran (.sCoreMemoryAccess 1 0 .store 0 8 2) s (fun t => decide ((t.sc 1 0).trap = some .storeAccessFault)) = true := by decide +kernel

/-- A panel whose logical site 0 stands excluded: its window is unbacked. -/
def noSite : State := (scS 3 0 0).setRg (nodeRs 0) (RS_ROW_MAP 0) 1
theorem wit_scMem_unbacked : ∃ pa : BitVec 56, noSite.target (.score 1 0) (panelAddr pa.toNat) = .unbacked ∧ noSite.scReady 1 0 = true := ⟨0x40000000000000, by decide +kernel⟩

-- Places, turns, tokens -----------------------------------------------------------------------------------------------------

theorem wit_placeDone : (placed 24 running).coreOn 1 = true ∧ ((placed 24 running).place 1 24).st = .running ∧
    ran (.placeDone 1 24) (placed 24 running) (fun t => decide ((t.place 1 24).st = .done) && (t.die 1).vgpend.testBit 24) = true := by decide +kernel
/-- The die's last place: its phase ends. -/
theorem wit_placeDone_last : let s := (placed 24 running).modDie 1 (fun x => { x with inPhase := true })
    let s1 := s.modPlace 1 24 (fun y => { y with st := .done })
    ((s.die 1).inPhase && (s1.die 1).allStopped && !s1.yieldLate 1) = true ∧ s.partOfNode 1 = some 0 ∧ s.endsOf 0 1 = none ∧
    ran (.placeDone 1 24) s (fun t => !(t.die 1).inPhase && (t.die 1).stopped) = true ∧ stays (.placeDone 1 0) s = true := by decide +kernel
def armedS : State := ((placed 24 { Place.reset with st := .armed }).modDie 1 (fun x => { x with startAt := some 0, strobed := 2 ^ 24 })).setRg 1 CD_SCH_NOMINAL 9
theorem wit_placeStart : (armedS.die 1).startAt.isSome = true ∧ (armedS.die 1).resumed = false ∧ (armedS.die 1).strobed.testBit 24 = true ∧ (armedS.place 1 24).st = .armed ∧
    ran (.placeStart 1) armedS (fun t => decide ((t.die 1).startAt = none ∧ t.rg 1 CD_SCH_NOMINAL = 0 ∧ (t.place 1 24).st = .halted)) = true := by decide +kernel
theorem wit_tload : let s := hb
    (s.place 1 24).st ≠ .halted ∧ (s.place 1 24).loading.testBit 7 = false ∧ s.hbmMap ((s.partOfNode 1).getD 0) (128 * 64) = some (0, 8192) ∧
      ran (.tload 1 24 7 128) s (fun t => decide ((t.place 1 24).loading = 128 ∧ t.pcd.descs.map (fun e => (e.1, e.2.1)) = [(0, .tload 1 24 7)])) = true := by decide +kernel
/-- TLOAD for a slot being loaded: cause 6. -/
theorem wit_tload_refused : let s := placed 24 { running with loading := 128 }
    (s.place 1 24).st ≠ .halted ∧ (s.place 1 24).loading.testBit 7 = true ∧ s.rgB 1 CD_PL_FAULT_INFO 31 = false ∧
    ran (.tload 1 24 7 128) s (fun t => decide ((t.place 1 24).st = .halted ∧ t.rgF 1 CD_PL_FAULT_INFO 19 16 = 6 ∧ t.pcd.alerts.map (·.code) = [0x2153])) = true := by
  decide +kernel
def loadingS : State := placed 24 { running with loading := 128 }
theorem wit_tloadComplete : (loadingS.place 1 24).loading.testBit 7 = true ∧ (loadingS.place 1 24).waitLoad = false ∧
    ran (.tloadComplete 1 24 7) loadingS (fun t => decide ((t.place 1 24).loading = 0 ∧ (t.place 1 24).valid = 128)) = true := by decide +kernel
/-- Turn header words of slot 0 of a scraper place: kind 2, NEXT and FIN as given, PERIOD 4, REPEAT 2. -/
def turnMem (fin next : Nat) : List Host.Cell := writeBytes (writeBytes [] 0 (leBytes 16 (2 * 2 ^ 20 + next * 2 ^ 24 + fin * 2 ^ 27 + 4 * 2 ^ 32 + 2 * 2 ^ 64)))
  (8192 * next) (leBytes 16 (2 * 2 ^ 20 + next * 2 ^ 24 + fin * 2 ^ 27 + 4 * 2 ^ 32 + 2 * 2 ^ 64))
def turnS (fin loading : Nat) : State := placed 24 { running with mem := turnMem fin 7, valid := 129, loading := loading, base := 100 }
theorem wit_turnSwitch_fin : ((turnS 1 0).place 1 24).yielded = false ∧ ((turnS 1 0).place 1 24).ended = false ∧ (((turnS 1 0).place 1 24).turn 0).epoch = false ∧
    (((turnS 1 0).place 1 24).turn 0).fin = true ∧ ran (.turnSwitch 1 24) (turnS 1 0) (fun t => (t.place 1 24).ended) = true := by decide +kernel
theorem wit_turnSwitch_wait : (((turnS 0 128).place 1 24).turn 0).fin = false ∧ ((turnS 0 128).place 1 24).loading.testBit (((turnS 0 128).place 1 24).turn 0).next = true ∧
    ran (.turnSwitch 1 24) (turnS 0 128) (fun t => decide ((t.place 1 24).waitLoad = true ∧ (t.place 1 24).slot = 7 ∧ (t.place 1 24).base = 108)) = true := by decide +kernel
theorem wit_turnSwitch : (((turnS 0 0).place 1 24).turn 0).fin = false ∧ ((turnS 0 0).place 1 24).memErr = [] ∧
    lowestFault ((turnS 0 0).turnFaults 1 24 7) = none ∧
    ran (.turnSwitch 1 24) (turnS 0 0) (fun t => decide ((t.place 1 24).slot = 7 ∧ (t.place 1 24).base = 108 ∧ (t.place 1 24).st = .running)) = true := by decide +kernel

/-- A turn whose last entry ends an epoch; a next slot that is not valid; a place that runs no turn. -/
theorem wit_turnSwitch_epoch : let s := placed 24 { running with mem := writeBytes [] 0 (leBytes 16 (2 * 2 ^ 20 + 2 ^ 27 + 2 ^ 28 + 4 * 2 ^ 32 + 2 * 2 ^ 64)), valid := 1, base := 100 }
    ((s.place 1 24).turn 0).epoch = true ∧ ((s.place 1 24).turn 0).fin = true ∧ stays (.turnSwitch 1 24) (placed 24 Place.reset) = true ∧
    ran (.turnSwitch 1 24) s (fun t => (t.place 1 24).ended && regIs 1 CD_PL_EPOCH 1 t) = true := by decide +kernel
theorem wit_turnSwitch_fault : let s := (turnS 0 0).modPlace 1 24 (fun x => { x with valid := 1 })
    (lowestFault (s.turnFaults 1 24 ((s.place 1 24).turn 0).next)).isSome = true ∧
    ran (.turnSwitch 1 24) s (fun t => decide ((t.place 1 24).st = .halted ∧ t.pcd.alerts.map (·.code) = [0x2153])) = true := by decide +kernel

/-- Lane 2 of place 0 is bound east to lane 0 of the place it faces, 8 credits. -/
def laneS (q : List Token) (out : List (Nat × Token)) (cred : Nat) : State :=
  ((up.setRg 1 (CD_PL_BIND 0) ((2 ^ 15 + 1 * 2 ^ 12 + 8) * 2 ^ 32)).setRg 1 (CD_PL_BIND 1) (2 ^ 15 + 3 * 2 ^ 12 + 8)).setPlace 1 0
    { Place.reset with lanes := [(2, { (default : Lane) with q := q, out := out, cred := cred })] }
theorem wit_tokenDepart : (laneS [] [(0, laneTok 0 false 7)] 1).peer 1 0 2 = some (1, 1, 0) ∧
    0 < (((laneS [] [(0, laneTok 0 false 7)] 1).place 1 0).lane 2).cred ∧
    ran (.tokenDepart 1 0 2) (laneS [] [(0, laneTok 0 false 7)] 1) (fun t => decide (((t.place 1 0).lane 2).out = [] ∧ ((t.place 1 0).lane 2).cred = 0 ∧
      ((t.place 1 1).lane 0).wire.map (·.2) = [laneTok 0 false 7])) = true := by decide +kernel
def sinkS (n gen : Nat) : State := ((up.setRg 1 (CD_PL_BIND 24) (2 ^ 15 + 8)).setRg 1 CD_PL_CTRL gen).setPlace 1 24
  { Place.reset with lanes := [(0, { (default : Lane) with q := List.replicate n (laneTok 0 false 7), wire := [(0, laneTok 0 false 1)] })] }
theorem wit_tokenArrive : (15#4).toNat = (sinkS 7 15).rg 1 CD_PL_CTRL % 16 ∧
    (((sinkS 7 15).place 1 24).lane 0).q.length < (sinkS 7 15).laneRoom 1 24 0 ∧
    ran (.tokenArrive 1 24 0 (laneTok 15 false 5) .clean .clean) (sinkS 7 15) (fun t => decide (((t.place 1 24).lane 0).q.length = 8 ∧ ((t.place 1 24).lane 0).wire = [])) = true := by
  decide +kernel
theorem wit_tokenStale : (laneTok 1 false 5).gen.toNat ≠ (sinkS 7 15).rg 1 CD_PL_CTRL % 16 ∧ (sinkS 7 15).rg 1 CD_PL_STALE < 0xFFFFFFFE ∧
    ran (.tokenArrive 1 24 0 (laneTok 1 false 5) .clean .clean) (sinkS 7 15) (fun t => decide (((t.place 1 24).lane 0).q.length = 7) && regIs 1 CD_PL_STALE 1 t) = true ∧
    ran (.tokenArrive 1 24 0 (laneTok 15 false 5) .uncorrectable .clean) (sinkS 7 15) (fun t => decide (((t.place 1 24).lane 0).q.length = 7 ∧ t.pcd.alerts.map (·.code) = [0x2150])) = true := by
  decide +kernel
/-- Without a credit nothing leaves; a correction is counted; a payload or a queue that fails raises its code. -/
theorem wit_token_rest : stays (.tokenDepart 1 0 2) (laneS [] [(0, laneTok 0 false 7)] 0) = true ∧
    ran (.tokenArrive 1 24 0 (laneTok 15 false 5) .clean .corrected) (sinkS 7 15) (fun t => decide (((t.place 1 24).lane 0).q.length = 8) && regIs 1 CD_PL_TOK_CORR 1 t) = true ∧
    ran (.tokenArrive 1 24 0 (laneTok 15 false 5) .clean .uncorrectable) (sinkS 7 15) (fun t => decide (t.pcd.alerts.map (·.code) = [0x2150])) = true ∧
    (sinkS 8 15).laneRoom 1 24 0 ≤ (((sinkS 8 15).place 1 24).lane 0).q.length ∧
    ran (.tokenArrive 1 24 0 (laneTok 15 false 5) .clean .clean) (sinkS 8 15) (fun t => decide (((t.place 1 24).lane 0).q.length = 8 ∧ t.pcd.alerts.map (·.code) = [0x2152])) = true := by
  decide +kernel
theorem wit_creditReturn : ran (.creditReturn 1 0 2) (laneS [] [] 8) (fun t => decide (((t.place 1 0).lane 2).cred = 8)) = true ∧
    ran (.creditReturn 1 0 2) (laneS [] [] 7) (fun t => decide (((t.place 1 0).lane 2).cred = 8)) = true := by decide +kernel

-- The scratchpad ------------------------------------------------------------------------------------------------------------

theorem wit_spadSettings : (up.die 1).busy = false ∧ ((placed 0 running).die 1).busy = true ∧ up.enD = true ∧
    ran (.spadLinearWrite .pcd 0 0x80000001) up (regIs 1 CD_SPAD_LINEAR 0x80000001) = true ∧ stays (.spadLinearWrite (.host 0) 0 1) up = true ∧
    ran (.spadLinearWrite .pcd 0 1) (placed 0 running) (fun t => t.rgB 1 CD_SPAD_STATUS 4) = true := by decide +kernel
theorem test_spadPwr : ran (.spadPwrWrite .pcd 0 0xFFFFFFFE) (up.spadStoreBytes 1 81 0 [1, 2] false) (fun t => decide ((t.die 1).spad.mem = []) && regIs 1 CD_SPAD_PWR 0xFFFFFFFE t) = true ∧
    ran (.spadPwrWrite .pcd 0 1) (up.setRg 1 CD_SPAD_PWR 0) (fun t => decide ((t.die 1).spad.settling = [0])) = true ∧
    ran (.spadScrubStart .pcd 0 1) up (fun t => t.rgB 1 CD_SPAD_STATUS 0) = true ∧ stays (.spadScrubStart .pcd 0 0) up = true := by decide +kernel
def settleS : State := up.modDie 1 (fun x => { x with spad := { x.spad with settling := [0, 31] } })
theorem wit_groupReady : settleS.partOfNode 1 = some 0 ∧ (settleS.part 0).loading = false ∧ stays (.spadGroupReady 1 30) settleS = true ∧ (settleS.die 1).spad.settling.contains 31 = true ∧ ran (.spadGroupReady 1 31) settleS (fun t => decide ((t.die 1).spad.settling = [0])) = true := by decide +kernel
def scrubS : State := (up.setPart 0 { up.part 0 with scrubQ := [{ base := 0, len := 4096, granule := none }] }).setRg 1 CD_SPAD_STATUS 1
theorem wit_scrubDone : scrubS.rgB 1 CD_SPAD_STATUS 0 = true ∧ (scrubS.part 0).scrubQ ≠ [] ∧ (scrubS.part 0).ctxs = [] ∧ scrubS.partOfNode 1 = some 0 ∧
    ran (.spadScrubDone 1 none) scrubS (fun t => decide (t.rg 1 CD_SPAD_STATUS % 8 = 2)) = true ∧
    ran (.spadScrubDone 1 (some 2097151)) scrubS (fun t => decide (t.rg 1 CD_SPAD_STATUS % 8 = 6 ∧ (t.die 1).withheld = true ∧ t.pcd.alerts.map (·.code) = [0x2142])) = true ∧
    ran (.spadScrubDone 1 (some 0)) (scrubS.modDie 1 (fun x => { x with ctx := some 0 })) (fun t => decide (t.pcd.alerts.map (·.code) = [0x2142, 0x2140])) = true ∧
    stays (.spadScrubDone 1 none) up = true := by
  decide +kernel
def reqS (w : Option (List Byte)) : State := (up.spadStoreBytes 1 81 0 [9, 8, 7, 6] false).modDie 1 (fun x => { x with spad := { x.spad with reqs := [{ cls := 1, addr := 0, width := 4, wdata := w, sc := none, host := false, pkt := none, left := [0], got := [] }] } })
theorem wit_grant : (reqS none).pairFree 1 0 = true ∧ ((reqS none).spadWinner 1 0).map (fun e => (e.1, e.2.2)) = some (0, 0) ∧ (reqS none).spadOpen 1 0 4 = true ∧
    ((reqS none).die 1).spad.errs = [] ∧ stays (.nonschedAccessGrant 1 1) (reqS none) = true ∧
    ran (.nonschedAccessGrant 1 0) (reqS none) (fun t => decide (t.rdata = 0x06070809 ∧ (t.die 1).spad.reqs = [])) = true ∧
    ran (.nonschedAccessGrant 1 0) (reqS (some [1, 2, 3, 4])) (fun t => decide (leVal (t.spadBytes 1 0 4) = 0x04030201)) = true := by decide +kernel
/-- A request of two lines keeps the second; one whose group is off is dropped. -/
theorem wit_grant_lines : let s := (reqS none).modDie 1 (fun x => { x with spad := { x.spad with reqs := [{ (default : SpadReq) with cls := 1, addr := 60, width := 8, left := [0, 64] }] } })
    ran (.nonschedAccessGrant 1 0) s (fun t => decide ((t.die 1).spad.reqs.map (fun r => (r.left, r.got.map (·.1))) = [([64], [0])])) = true ∧
    (s.setRg 1 CD_SPAD_PWR 0).spadOpen 1 60 4 = false ∧
    ran (.nonschedAccessGrant 1 0) (s.setRg 1 CD_SPAD_PWR 0) (fun t => decide ((t.die 1).spad.reqs = [])) = true := by decide +kernel
def repairS : State := up.modDie 1 (fun x => { x with spad := { x.spad with errs := [(0, 1)], repair := [(63, 1)] } })
theorem wit_repair : sfind (repairS.die 1).spad.repair 63 = some 1 ∧ repairS.pairFree 1 63 = true ∧ (repairS.die 1).spad.granted 3 = 0 ∧ stays (.eccRepairWriteback 1 0) repairS = true ∧ repairS.spadWinner 1 63 = none ∧
    ran (.eccRepairWriteback 1 63) repairS (fun t => decide ((t.die 1).spad.errs = [] ∧ (t.die 1).spad.repair = [])) = true := by decide +kernel

-- Contexts and the schedule -------------------------------------------------------------------------------------------------

/-- A panel whose partition 0 has region 0 alone, with logical site 0 alone. -/
def up1 : State := ((({ up with pcd := { up.pcd with conf := some { Conf.shipped with parts := [{ num := 0, regions := 1, kernel := 0, step := 0, plW := 34880 }] } } } : State).setRg
  (nodeRs 0) (RS_ROW_MAP 0) 0xFE).setRg (nodeRs 0) (RS_ROW_MAP 1) 0xFF).setRg (nodeRs 0) (RS_ROW_MAP 2) 0xFF |>.setRg (nodeRs 0) (RS_ROW_MAP 3) 0xFF
theorem test_up1 : up1.diesOf 0 = [1] ∧ up1.regionsOf 0 = [0] := by decide +kernel
def img2 : Image := { (default : Image) with phases := [default, default] }
def ctxOf (st : CtxSt) : Ctx :=
  { job := 5, incarn := 1, key := 0, st := st, img := img2, phase := 0, prio := 0, quantum := 1000, retain := false, jsItem := none, saved := [],
    retainedAt := 0, expired := false, endAs := none, step := none, onDie := false }
/-- Contexts 0 (running, its quantum as given) and 63 (ready). -/
def ctxS (x : Bool) (two : Bool) : State := up1.setPart 0 { up1.part 0 with run := some 0, ctxs := (0, { ctxOf .running with expired := x }) :: (if two then [(63, ctxOf .ready)] else []) }
theorem wit_drained : up.coreOn 1 = true ∧ up.drainedNow 1 = true ∧ (placed 0 running).drainedNow 1 = false ∧ stays (.drainedReport 1) (placed 0 running) = true ∧
    ran (.watchdogIdle 1) up (fun t => t.rgB 1 CD_PL_STATUS 0) = true := by decide +kernel
theorem wit_quantum : ((ctxS false true).running 0).map (·.1) = some 0 ∧
    ((ctxS false true).part 0).ctxs.any (fun e => decide (e.1 ≠ 0) && decide (e.2.st = .ready) && e.2.endAs.isNone) = true ∧
    ((ctxS false false).part 0).ctxs.any (fun e => decide (e.1 ≠ 0) && decide (e.2.st = .ready) && e.2.endAs.isNone) = false ∧
    ran (.quantumExpire 0) (ctxS false true) (fun t => decide ((sfind (t.part 0).ctxs 0).map (·.expired) = some true)) = true ∧
    stays (.quantumExpire 0) (ctxS false false) = true := by decide +kernel
theorem wit_contextSwitch : let s := ctxS true true
    s.allYielded 0 = true ∧ (∀ d ∈ s.diesOf 0, (s.die d).tokens = 0) ∧ ((s.saveCtx 0 0).part 0).nextReady 0 = some 63 ∧ (s.part 0).loading = false ∧ (∀ d ∈ s.diesOf 0, (s.die d).pipesDone = true) ∧
      (sfind ((s.saveCtx 0 0).part 0).ctxs 63).map (fun c => ((c.img.phases[c.phase]?).getD default).binds) = some [] := by decide +kernel
theorem test_contextSwitch : ran (.contextSwitch 0) (ctxS true true) (fun t => decide ((t.part 0).run = some 63 ∧ (sfind (t.part 0).ctxs 63).map (·.st) = some .running ∧
    (sfind (t.part 0).ctxs 0).map (·.st) = some .ready)) = true ∧ stays (.contextSwitch 0) (ctxS false true) = true ∧ up1.running 0 = none ∧ (up1.part 0).drainAt = none ∧
    stays (.quantumExpire 0) up1 = true ∧ stays (.drainForced 0) up1 = true := by decide +kernel
def drainS : State := (ctxS false true).setPart 0 { (ctxS false true).part 0 with drainAt := some 0 }
theorem wit_drainForced : (drainS.part 0).drainAt = some 0 ∧ (drainS.running 0).map (fun e => decide (e.2.phase + 1 < e.2.img.phases.length) && ((e.2.img.phases[e.2.phase + 1]?).getD default).binds.isEmpty) = some true ∧
    ran (.drainForced 0) drainS (fun t => decide ((t.part 0).drainAt = none ∧ (t.part 0).forcedGens = [0] ∧ (sfind (t.part 0).ctxs 0).map (·.phase) = some 1)) = true := by decide +kernel
theorem test_slowDie : ran .slowDieEval up1 (fun t => decide ((t.die 1).lastCnt = [0, 0, 0, 0, 0, 0])) = true := by decide +kernel

/-- Checks 0 and 1 of the landing table, tags 0 and 4095 at cycle 3; entry 0 of the issue list at cycle 3, descriptor 0 to memory die 127. -/
def tabS (f0 : Bool) : State := (up.modDie 1 (fun x => { x with
    tabs := writeBytes (writeBytes (writeBytes [] 0x20400000 (leBytes 8 3 ++ leBytes 8 (2 ^ 13) ++ leBytes 8 3 ++ leBytes 8 (2 ^ 13 + 4095))) dmaListBase (leBytes 8 3 ++ leBytes 8 (2 ^ 19 + 127 * 2 ^ 12)))
      dmaTableBase (leBytes 8 (0x200 * 2 ^ 32)),
    flags := if f0 then [(0, true), (4095, true)] else [(0, true)] })).setRg 1 CD_SCH_NOMINAL 3
theorem wit_landing : (tabS true).landDue 1 = true ∧ ((tabS true).die 1).tabErr = [] ∧ (∀ g ∈ ((tabS true).die 1).landGroup, sget false ((tabS true).die 1).flags g = true) ∧
    up.landDue 1 = false ∧ ran (.landingCheck 1) (tabS true) (fun t => decide ((t.die 1).landPtr = 2 ∧ (t.die 1).flags = [])) = true := by decide +kernel
theorem wit_landing_late : ((tabS false).die 1).landLate = false ∧ (tabS false).rg 1 CD_LAND_LATE + 4096 < 0xFFFFFFFF ∧ 4095 ∈ ((tabS false).die 1).landGroup ∧ sget false ((tabS false).die 1).flags 4095 = false ∧
    ran (.landingCheck 1) (tabS false) (fun t => decide ((t.die 1).landLate = true ∧ (t.die 1).landPtr = 0) && regIs 1 CD_LAND_LATE 1 t) = true ∧
    stays (.landingCheck 1) ((tabS false).modDie 1 (fun x => { x with landLate := true })) = true := by decide +kernel
theorem wit_snapshot : (1#32).getLsbD 0 = true ∧ ran (.schSnapshot .pcd 0 1) (tabS true) (fun t => regIs 1 (CD_SCH_SNAP 0) 3 t && t.rgB 1 CD_SCH_STATUS 2) = true ∧
    ran (.schMatchArm .pcd 0 0x8000000000000003) up (regIs 1 CD_SCH_MATCH 0x8000000000000003) = true ∧ stays (.schSnapshot .pcd 0 0) up = true := by decide +kernel
def matchS (c : Nat) : State := ((up.modDie 1 (fun x => { x with inPhase := true })).setRg 1 CD_SCH_MATCH (2 ^ 63 + c)).setRg 1 CD_SCH_NOMINAL 3
theorem wit_match : (matchS 2).rgB 1 CD_SCH_MATCH 63 = true ∧ (matchS 2).rg 1 CD_SCH_MATCH % 2 ^ 48 < (matchS 2).rg 1 CD_SCH_NOMINAL % 2 ^ 48 ∧
    ran (.schMatchResolve 1) (matchS 2) (fun t => t.rgB 1 CD_SCH_MATCH_RES 63) = true ∧ (matchS 3).rg 1 CD_SCH_NOMINAL % 2 ^ 48 ≤ (matchS 3).rg 1 CD_SCH_MATCH % 2 ^ 48 ∧
    stays (.schMatchResolve 1) (matchS 3) = true ∧ stays (.schMatchResolve 1) up = true := by decide +kernel
theorem wit_dmaIssue : (tabS true).dmaDue 1 = true ∧ (((tabS true).die 1).dmaEntry ((tabS true).die 1).dmaPtr).2.2.2 = 127 ∧ (tabS true).partOfRegion (127 / 8) = (tabS true).partOfNode 1 ∧
    (tabS true).mdOn 127 = true ∧ up.dmaDue 1 = false ∧
    ran (.dmaIssue 1) (tabS true) (fun t => decide ((t.die 1).dmaPtr = 1 ∧ t.pcd.descs.map (fun e => (e.1, e.2.1, e.2.2.length)) = [(127, .sched 1, 0x200)])) = true ∧
    ((tabS true).setRgB (nodeRs 15) RS_FENCE 57 true).mdOn 127 = false ∧
    ran (.dmaIssue 1) ((tabS true).setRgB (nodeRs 15) RS_FENCE 57 true) (fun t => decide ((t.die 1).dmaPtr = 1 ∧ t.pcd.descs = [] ∧ t.pcd.alerts.map (·.code) = [0x2202])) = true := by decide +kernel

-- HBM -----------------------------------------------------------------------------------------------------------------------

def mdS (x : Mdie) : State := hb.setMd 0 x
theorem wit_writeback : (mdS { (default : Mdie) with wb := [5], errs := [(5, 1), (6, 2)] }).mdOn 0 = true ∧ hb.mdOn 127 = true ∧
    ran (.hbmEccWriteback 0 5) (mdS { (default : Mdie) with wb := [5], errs := [(5, 1), (6, 2)] }) (fun t => decide ((t.md 0).errs = [(6, 2)] ∧ (t.md 0).wb = [])) = true ∧
    stays (.hbmEccWriteback 0 5) hb = true := by decide +kernel
theorem wit_patrol : rsJudge 1 = .corr ∧ rsJudge 0x101 = .bad ∧ ran (.hbmPatrol 0) (mdS { (default : Mdie) with errs := [(5, 1)] }) (fun t => decide ((t.md 0).wb = [5]) && regIs 576 MD_ECC_CORR 1 t) = true ∧
    hb.rg (nodeMd 0) MD_ECC_UNCORR < 0xFFFFFFFE ∧
    ran (.hbmPatrol 0) (mdS { (default : Mdie) with errs := [(5, 0x101)] }) (fun t => regIs 576 MD_ECC_UNCORR 1 t && t.rgB 576 MD_FAULT_INFO 31 &&
      decide (t.pcd.alerts.map (fun a => (a.code, a.node, a.unit, a.data)) = [(0x2201, 576, unitStack 0, 320)])) = true ∧
    ran (.hbmPatrol 0) hb (fun t => decide (t = hb.bumpPerf (nodeMd 0) MD_RD_BYTES stackBytes)) = true := by decide +kernel
theorem wit_corrRate : hb.pcd.conf = some Conf.shipped ∧
    ran (.hbmCorrRateCheck 0) (hb.setRg 576 MD_ECC_CORR 1001) (fun t => decide ((t.md 0).corrBase = 1001) && decide (bits (t.rg nodePc (PC_EVT_REC 0)) 15 0 = 0x1200)) = true ∧
    ran (.hbmCorrRateCheck 0) (hb.setRg 576 MD_ECC_CORR 1000) (fun t => decide ((t.md 0).corrBase = 1000) && decide (t.evtPending = 0)) = true := by decide +kernel
theorem wit_stackFail : (∀ k, (hb.md k).items = [] ∧ (hb.md k).trk = []) ∧ (∀ e ∈ hb.pcd.descs, e.1 ≠ 0) ∧ (∀ f, (hb.fd f).onp = []) ∧ ((hb.md 0).badSectors.filter (fun b => decide (hb.ptc < b.1 + 1000000000))).length < 4 ∧
    stays (.stackFail 0 2) hb = true := ⟨fun _ => ⟨rfl, rfl⟩, by decide +kernel, fun _ => rfl, by decide +kernel, by decide +kernel⟩
theorem wit_stackFail_other : hb.rgB (nodeMd 0) MD_FAULT_INFO 31 = false ∧
    ran (.stackFail 0 7) hb (fun t => t.rgB 576 MD_STATUS 1 && regIs 576 MD_FAULT_INFO (2 ^ 31 + 3 * 2 ^ 28 + 7 * 2 ^ 25) t && decide (t.pcd.alerts.map (·.code) = [0x3200])) = true := by decide +kernel
def hotS (at0 : Option Nat) : State := ((mdS { (default : Mdie) with capAt := at0 }).setRg 576 MD_THERM 681).setRg 577 MD_THERM 656
theorem wit_hbmCap : (hotS none).hottest = some 0 ∧ 680 < (hotS none).mdTemp 0 ∧ (hotS none).mdTemp 1 ≤ 656 ∧
    ran .hbmCapEval (hotS none) (fun t => t.rgB 576 MD_THERM 16 && t.rgB 576 MD_THERM 17 && !t.rgB 577 MD_THERM 17 && decide (t.rgF 576 MD_THERM 19 18 = 1 ∧ (t.md 0).capAt = some 0)) = true ∧
    ran .hbmCapEval { hotS (some 0) with ptc16 := 1600000000 } (fun t => decide (t.rgF 576 MD_THERM 19 18 = 2)) = true := by decide +kernel
def mdScrub : State := (((mdS { (default : Mdie) with mem := [(0, 1), (4096, 2)] }).setPart 0 { hb.part 0 with scrubLeft := [0, 1] }).setRg 576 MD_SCRUB_CTRL 2).setRg 576 MD_SCRUB_LEN 1
theorem wit_mdScrub : mdScrub.rgF (nodeMd 0) MD_SCRUB_CTRL 2 1 = 1 ∧ (1 ∈ (mdScrub.part (mdScrub.partOfMd 0)).scrubLeft) ∧ mdScrub.rgB (nodeMd 0) MD_SCRUB_CTRL 1 = true ∧ stays (.mdScrubDone 0) hb = true ∧ (hb.part 0).scrubQ = [] ∧
    ran (.mdScrubDone 0) mdScrub (fun t => decide ((t.md 0).mem = [(4096, 2)] ∧ t.rgF 576 MD_SCRUB_CTRL 2 1 = 2 ∧ (t.part 0).scrubLeft = [1])) = true ∧
    ran (.mdScrubStart .pcd 0 1) (hb.setRg 576 MD_SCRUB_LEN 1) (fun t => decide (t.rgF 576 MD_SCRUB_CTRL 2 1 = 1 ∧ (t.part 0).scrubLeft = [0] ∧ (t.part 0).scrubQ.map (fun r => (r.base, r.len)) = [(0, 4096)])) = true ∧
    stays (.mdScrubStart (.host 0) 0 1) hb = true := by decide +kernel

-- DMA items and packets -------------------------------------------------------------------------------------------------------

/-- FILL of 4 bytes at HBM address 4092 with a pattern. -/
def fillD : DmaDesc := { (default : DmaDesc) with op := 1, length := 4, dst := 4092, pattern := 0x44332211 }
def fillTx : Tx := { off := 0, len := 4, src := none, dst := 4092, st := .waiting, rd := false, doom := 0 }
def fillI (st : TxSt) (land : Bool) : Item :=
  { id := 7, origin := .sched 1, desc := { fillD with land := land }, cls := 0, job := 0, txs := [{ fillTx with st := st }], ended := false, landed := false }
theorem wit_desc_reject : let d : DmaDesc := { fillD with length := 0 }
    (∀ e ∈ (hb.part (hb.partOfMd 0)).ctxs, e.2.endAs = none) ∧ (hb.md 0).items = [] ∧ hb.descOk 0 (.sched 1) d = false ∧ hb.rg (nodeMd 0) MD_DESC_REJECT < 0xFFFFFFFE ∧
      ran (.desc 0 (.sched 1) d) hb (fun t => regIs 576 MD_DESC_REJECT 1 t && decide ((t.md 0).items = [] ∧ t.pcd.alerts.map (·.code) = [0x2202])) = true := by decide +kernel
/-- A descriptor of a die of no partition is dropped and counted. -/
def foreignS : State := hb.setPcd (fun p => { p with conf := some { Conf.shipped with parts := [{ num := 0, regions := 0xFFFE, kernel := 8, step := 0, plW := 34880 }] }, descs := [(8, .sched 1, fillD)] })
theorem wit_desc_foreign : foreignS.mdOn 8 = true ∧ foreignS.partOfOrigin (.sched 1) ≠ foreignS.partOfRegion (8 / 8) ∧ hb.partOfOrigin (.sched 1) = hb.partOfRegion 0 ∧
    (let n := foreignS.mdAttach 8
     ran (.desc 8 (.sched 1) fillD) foreignS (fun t => regIs (nodeRs ((regionOfNode n).getD 0)) (RS_RT_E2E (coreBit n)) 1 t && decide ((t.md 8).items = [] ∧ t.pcd.descs = [])) = true) := by
  decide +kernel
theorem wit_desc_fill : (hb.md 0).trk = [] ∧ (hb.md 0).errs = [] ∧ (hb.md 0).holdAt = none ∧ hb.descOk 0 (.sched 1) fillD = true ∧ isHbm fillD.dst.toNat = true ∧
    fillD.dst.toNat % 4096 + fillD.length.toNat ≤ 4096 ∧ hb.hbmMap 0 fillD.dst.toNat = some (0, 4092) ∧ hb.keptRange 0 4092 4 = false ∧ hb.scrubHits 0 4092 4 = false ∧
    ran (.desc 0 (.sched 1) fillD) hb (fun t => decide ((t.md 0).mem = [(4092, 0x11), (4093, 0x22), (4094, 0x33), (4095, 0x44)] ∧ (t.md 0).items = [] ∧ (t.md 0).trk = [])) = true := by
  decide +kernel
def grantS : State := mdS { (default : Mdie) with items := [fillI .waiting false], trk := [] }
theorem wit_trkGrant : ((grantS.md 0).nextTx 0).isSome = true ∧ (grantS.md 0).freeTx 0 = some 0 ∧ (∀ j ∈ (grantS.md 0).items, j.id = 7 → j = fillI .waiting false) ∧
    (hb.md 0).nextTx 2 = none ∧ stays (.trackerEntryGrant 0 2) hb = true ∧
    ran (.trackerEntryGrant 0 0) grantS (fun t => decide ((t.md 0).mem = [(4092, 0x11), (4093, 0x22), (4094, 0x33), (4095, 0x44)] ∧ sfind (t.md 0).trk 0 = none)) = true := by decide +kernel
/-- An item to a scratchpad with its transaction issued, in entry 2047. -/
def outI : Item := { fillI .issued false with txs := [{ fillTx with st := .issued, dst := 0x4000000000000000 }] }
def outS : State := mdS { (default : Mdie) with items := [outI], trk := [(2047, { item := 7, tx := 0, cls := 2 })] }
theorem wit_txTimeout : sfind (outS.md 0).trk 2047 = some { item := 7, tx := 0, cls := 2 } ∧ outS.dmaItem 0 7 = some outI ∧ isHbm 0x4000000000000000 = false ∧
    outS.rg (nodeMd 0) MD_TIMEOUT < 0xFFFFFFFE ∧ stays (.transactionTimeout 0 2047) hb = true ∧
    ran (.transactionTimeout 0 2047) outS (fun t => regIs 576 MD_TIMEOUT 1 t && decide (sfind (t.md 0).trk 2047 = none ∧ (t.md 0).lostTx = [2047])) = true := by decide +kernel
theorem wit_itemComplete : (fillI .ok true).over = true ∧ (fillI .ok true).status = 0 ∧ ((mdS { (default : Mdie) with items := [fillI .ok true] }).md 0).items = [fillI .ok true] ∧
    (hb.dmaItem 0 7).map Item.over ≠ some true ∧ stays (.dmaItemComplete 0 7) hb = true ∧
    ran (.dmaItemComplete 0 7) (mdS { (default : Mdie) with items := [fillI .ok true] }) (fun t => decide ((t.md 0).items = [] ∧ t.pcd.net ≠ [])) = true := by decide +kernel

def pktTo (ty : Nat) (dst : Nat) (addr : Nat) (len : Nat) (bs : List Byte) (aux : Nat := 0) : DynPkt :=
  { ptype := BitVec.ofNat 4 ty, ord := false, part := 0, dst := BitVec.ofNat 16 dst, src := BitVec.ofNat 16 (epMd 1), txid := 5, status := 0, addr := BitVec.ofNat 64 addr,
    aux := BitVec.ofNat 32 aux, len := len, payload := bs, ecrcOk := true }
def memS : State := mdS { (default : Mdie) with mem := [(stackBytes - 1, 0xAA)] }
theorem wit_packet_md : memS.epOn (epMd 0) = true ∧ memS.partOfEp (epMd 0) = some 0 ∧ epKind (epMd 0) = 1 ∧ (memS.md 0).errs = [] ∧ stackBytes - 2 + 2 ≤ stackBytes ∧
    ran (.read (pktTo 0 (epMd 0) (stackBytes - 2) 2 [])) memS (fun t => decide (t = (((memS.netDrop (pktTo 0 (epMd 0) (stackBytes - 2) 2 [])).bumpPerf (nodeMd 0) MD_RD_BYTES 2).inject
      ((pktTo 0 (epMd 0) (stackBytes - 2) 2 []).reply 2 0 [0, 0xAA])))) = true ∧
    ran (.read (pktTo 0 (epMd 0) (stackBytes - 1) 2 [])) memS (fun t => decide (t = ((memS.netDrop (pktTo 0 (epMd 0) (stackBytes - 1) 2 [])).inject
      ((pktTo 0 (epMd 0) (stackBytes - 1) 2 []).reply 2 2 [])))) = true := by decide +kernel
theorem test_packet_write : ran (.write (pktTo 1 (epMd 0) (stackBytes - 2) 2 [7, 0])) memS (fun t => decide ((t.md 0).mem = [(stackBytes - 2, 7)])) = true ∧
    ran (.write (pktTo 1 (epMd 0) (stackBytes - 1) 2 [7, 0])) memS (fun t => decide (t = ((memS.netDrop (pktTo 1 (epMd 0) (stackBytes - 1) 2 [7, 0])).inject
      ((pktTo 1 (epMd 0) (stackBytes - 1) 2 [7, 0]).reply 3 2 [])))) = true := by decide +kernel
theorem wit_packet_fread : let p := pktTo 8 (epMd 0) 4092 0 [] (4 * 2 ^ 12)
    isHbm 4092 = true ∧ hb.mdOn 0 = true ∧ hb.hbmMap (hb.partOfMd 0) 4092 = some (0, 4092) ∧ bits p.aux.toNat 24 12 = 4 ∧ hb.scrubHits 0 4092 4 = false ∧ hb.keptRange 0 4092 4 = false ∧
      ran (.fread p) hb (fun t => decide (t = ((hb.netDrop p).bumpPerf (nodeMd 0) MD_RD_BYTES 4).inject (p.reply 9 0 [0, 0, 0, 0]))) = true ∧
      ran (.fwrite (pktTo 10 (epMd 0) 4092 0 [1, 2, 3, 4])) hb (fun t => decide ((t.md 0).mem = [(4092, 1), (4093, 2), (4094, 3), (4095, 4)])) = true := by decide +kernel
theorem wit_packet_spad : up.epOn (epSite 1) = true ∧ up.partOfEp (epSite 1) = some 0 ∧ epKind (epSite 1) = 0 ∧ epId (epSite 1) = 1 ∧ (up.die 1).spad.errs = [] ∧
    60 + 8 ≤ up.spadSize ∧ up.spadSize < 0x8000000 + 1 ∧ up.spadSize ≤ 0x20000000 ∧
    ran (.read (pktTo 0 (epSite 1) 60 8 [])) up (fun t => decide ((t.die 1).spad.reqs.map (fun r => (r.cls, r.addr, r.width, r.left)) = [(0, 60, 8, [0, 64])])) = true ∧
    ran (.write (pktTo 1 (epSite 1) 60 4 [1, 2, 3, 4])) up (fun t => decide ((t.die 1).spad.reqs.map (fun r => (r.cls, r.wdata)) = [(0, some [1, 2, 3, 4])])) = true ∧
    ran (.read (pktTo 0 (epSite 1) 0x8000000 1 [])) up (fun t => decide (t = ((up.netDrop (pktTo 0 (epSite 1) 0x8000000 1 [])).inject ((pktTo 0 (epSite 1) 0x8000000 1 []).reply 2 2 [])))) = true ∧
    ran (.write (pktTo 1 (epSite 1) 0x2018FFFC 4 [1, 2, 3, 4])) up (fun t => decide ((t.place 1 24).mem = [(0xFFFC, 1), (0xFFFD, 2), (0xFFFE, 3), (0xFFFF, 4)])) = true := by decide +kernel

def backI : Item := { fillI .issued false with desc := { fillD with op := 0 }, txs := [{ fillTx with st := .issued, src := some 0x4000000000000000 }] }
def backS : State := mdS { (default : Mdie) with items := [backI], trk := [(5, { item := 7, tx := 0, cls := 0 })] }
/-- Pages being scrubbed; what is no FREAD of a stack. -/
theorem wit_packet_rest : mdScrub.stackScrubs 0 0 4 = true ∧ memS.stackScrubs 0 (stackBytes - 2) 2 = false ∧
    ran (.read (pktTo 0 (epMd 0) 0 4 [])) mdScrub (fun t => decide (t = (((mdScrub.netDrop (pktTo 0 (epMd 0) 0 4 [])).doomTx (pktTo 0 (epMd 0) 0 4 []) 6).inject
      ((pktTo 0 (epMd 0) 0 4 []).reply 2 2 [])))) = true ∧
    ran (.fread (pktTo 8 (epSite 1) 0 0 [] (4 * 2 ^ 12))) up (fun t => decide (t = up.netDrop (pktTo 8 (epSite 1) 0 0 [] (4 * 2 ^ 12)))) = true ∧
    epKind (epFd 0) = 2 ∧ up.epOn (epFd 0) = true ∧ up.partOfEp (epFd 0) = some 0 ∧
    ran (.read (pktTo 0 (epFd 0) 0 4 [])) up (fun t => decide (t = (up.netDrop (pktTo 0 (epFd 0) 0 4 [])).inject ((pktTo 0 (epFd 0) 0 4 []).reply 2 2 []))) = true := by
  decide +kernel
theorem wit_replies : (hb.md 0).lostTx.contains 5 = false ∧ (mdS { (default : Mdie) with lostTx := [5] }).md 0 = { (default : Mdie) with lostTx := [5] } ∧
    ran (.writeAck (pktTo 3 (epMd 0) 0 0 [])) (mdS { (default : Mdie) with lostTx := [5] }) (fun t => decide ((t.md 0).lostTx = [])) = true ∧ sfind (hb.md 0).trk 5 = none ∧ sfind (backS.md 0).trk 5 = some { item := 7, tx := 0, cls := 0 } ∧ backS.dmaItem 0 7 = some backI ∧ backI.txs[0]?.isSome = true ∧
    stays (.writeAck (pktTo 3 (epMd 0) 0 0 [])) hb = true ∧ stays (.readData (pktTo 2 (epMd 0) 0 4 [1, 2, 3, 4])) hb = true ∧
    ran (.writeAck (pktTo 3 (epMd 0) 0 0 [])) backS (fun t => decide (sfind (t.md 0).trk 5 = none)) = true ∧
    ran (.readData { pktTo 2 (epMd 0) 0 0 [] with status := 2 }) backS (fun t => decide (sfind (t.md 0).trk 5 = none ∧ (t.md 0).mem = [])) = true ∧
    ran (.readData (pktTo 2 (epMd 0) 0 4 [1, 2, 3, 4])) backS (fun t => decide (sfind (t.md 0).trk 5 = none ∧ (t.md 0).mem = [(4092, 1), (4093, 2), (4094, 3), (4095, 4)])) = true := by
  decide +kernel

def landS : State := up.modDie 1 (fun x => { x with flags := [(4095, true)], tickets := [(9, 0)] })
theorem wit_land : sget false (landS.die 1).flags 0 = false ∧ sget false (landS.die 1).flags 4095 = true ∧ landS.rg 1 CD_LAND_DUP < 0xFFFFFFFE ∧
    ran (.land (pktTo 5 (epSite 1) 0 0 [] 0)) landS (fun t => decide ((t.die 1).flags = [(0, true), (4095, true)])) = true ∧
    ran (.land (pktTo 5 (epSite 1) 0 0 [] 4095)) landS (fun t => regIs 1 CD_LAND_DUP 1 t && decide ((t.die 1).flags = [(4095, true)])) = true := by decide +kernel
theorem wit_done : sfind (landS.die 1).tickets 9 = some 0 ∧ (∀ c, c < 4 → (landS.sc 1 c).fxHold = none) ∧
    (leVal ((leBytes 8 0 ++ leBytes 8 (1 + 2 * 4095)).drop 8)).testBit 0 = true ∧ (leVal ((leBytes 8 0 ++ leBytes 8 0).drop 8)).testBit 0 = false ∧
    ran (.done (pktTo 6 (epSite 1) 0 16 (leBytes 8 0 ++ leBytes 8 1) 0)) landS (fun t => decide (t = landS)) = true ∧
    ran (.done (pktTo 6 (epSite 1) 0 16 (leBytes 8 (2 ^ 40) ++ leBytes 8 1) 0)) landS (fun t => decide ((t.die 1).flags = [(0, true), (4095, true)] ∧ (t.die 1).tickets = [(9, 0)])) = true ∧
    ran (.done (pktTo 6 (epSite 1) 0 16 (leBytes 8 (2 ^ 40) ++ leBytes 8 0) 9)) landS (fun t => decide ((t.die 1).tickets = [(9, 2)])) = true := by decide +kernel
theorem wit_ecrc : let p := { pktTo 0 (epSite 1) 0 0 [] with ecrcOk := false }
    p.ecrcOk = false ∧ up.epOn p.dst.toNat = true ∧ ran (.fwriteAck p) up (regIs 720 (RS_RT_E2E (coreBit 1)) 1) = true ∧
    ran (.fwriteAck (pktTo 0 (epSite 1) 0 0 [])) up (regIs 720 (RS_RT_E2E (coreBit 1)) 1) = true ∧
    ((up.setRgB (nodeRs 0) RS_FENCE 1 true).epOn (epSite 1)) = false := by decide +kernel
def hopS : State := up.setPcd (fun p => { p with net := [(netKey 1 15 0, [pktTo 0 (epSite 3) 0 0 []])] })
theorem wit_hop : hopS.netPick 1 5 = some (0, 15) ∧ hopS.netQ 1 15 0 = [pktTo 0 (epSite 3) 0 0 []] ∧ cdiv (pktFlits (pktTo 0 (epSite 3) 0 0 [])) 7 ≤ hopS.replayRoom 1 5 ∧ hopS.routerOut 1 = false ∧ hopS.regionOn ((regionOfNode 1).getD 16) = true ∧ (hopS.part 0).stopped = false ∧
    (hopS.partOfNode 1).isSome = true ∧ hopS.nextHop 1 (hopS.epRouter (epSite 3) (epMd 1)) false = some 3 ∧
    ran (.packetHop 1 5) hopS (fun t => decide (t.netQ 1 15 0 = [] ∧ t.netQ 3 7 0 = [pktTo 0 (epSite 3) 0 0 []])) = true := by decide +kernel
/-- At its destination the packet leaves by output 15; with 128 codewords unacknowledged an output waits. -/
theorem wit_hopArrive : let q := pktTo 6 (epSite 1) 0 16 (leBytes 8 1 ++ leBytes 8 0)
    let s := up.setPcd (fun p => { p with net := [(netKey 1 3 0, [q])] })
    s.netPick 1 15 = some (0, 3) ∧ s.netQ 1 3 0 = [q] ∧ s.nextHop 1 (s.epRouter q.dst.toNat q.src.toNat) q.ord = none ∧ up.netPick 1 15 = none ∧
    ran (.packetHop 1 15) s (fun t => decide (t.netQ 1 3 0 = [])) = true ∧ stays (.packetHop 1 15) up = true := by decide +kernel
theorem wit_hopFull : let s := hopS.setPcd (fun p => { p with sentNext := [(16 * 1 + 5, 127)], sentBase := [(16 * 1 + 5, 4095)] })
    s.replayRoom 1 5 = 0 ∧ s.netPick 1 5 = some (0, 15) ∧ stays (.packetHop 1 5) s = true := by decide +kernel

-- Links and the spindle -------------------------------------------------------------------------------------------------------

/-- The east link of site 0 has its route; place 3 of die 1 takes channel 0 of that side on lane 0. -/
def linkS : State := ((up.setPcd (fun p => { p with routes := [{ lo := 0, east := true, via := none, skipFirst := false }] })).setRg 1 (CD_PL_BIND 3) (2 ^ 15 + 5 * 2 ^ 12 + 8)).modDie 1
  (fun x => { x with sseq := [(1, 255)] })
def stripe (n : Nat) : Stripe := { sseq := BitVec.ofNat 8 n, slots := List.replicate 16 none ++ [some (laneTok 0 false 9)], cret := 0, corrected := 0, uncorr := 0, relayCorr := 0, relayUncorr := 0, wander := 1 }
theorem wit_stripe : (linkS.sideRoute 1 1).isSome = true ∧ linkS.portUp 1 (linkS.sidePort 1 1) = true ∧ linkS.partOfNode 1 = some 0 ∧ (linkS.part 0).stopped = false ∧
    sfind (linkS.die 1).sseq 1 = some 255 ∧ ((stripe 255).slots[16]?).getD none = some (laneTok 0 false 9) ∧ linkS.sideLane 1 1 (16 % 4) true = some (3, 0) ∧
    ran (.stripeReceive 1 1 (stripe 255)) linkS (fun t => decide (sfind (t.die 1).sseq 1 = some 0 ∧ ((t.place 1 3).lane 0).wire = [(stripeDue (linkS.ccountOf 1) 1 4, laneTok 0 false 9)])) = true := by decide +kernel
theorem wit_stripe_uncorr : ran (.stripeReceive 1 1 { stripe 255 with uncorr := 2 }) linkS (fun t => regIs 720 (RS_RT_FEC_UNCORR (rtIndex 1)) 2 t &&
      decide (sfind (t.die 1).sseq 1 = some 0 ∧ ((t.place 1 3).lane 0).q = [] ∧ t.pcd.alerts.map (·.code) = [0x2160])) = true ∧
    stays (.stripeReceive 1 1 (stripe 255)) (linkS.setPart 0 { linkS.part 0 with stopped := true }) = true := by decide +kernel
/-- Two hops: the relay's corrections are counted at the relay. -/
theorem wit_stripe_relay : let s := linkS.setPcd (fun p => { p with routes := [{ lo := 0, east := true, via := some 2, skipFirst := false }] })
    (s.sideRelay 1 1).isSome = true ∧ (s.sideRoute 1 1).isSome = true ∧ s.portUp 1 (s.sidePort 1 1) = true ∧
    (match s.sideRelay 1 1 with
     | some v => decide (v < 576) && ran (.stripeReceive 1 1 { stripe 255 with relayCorr := 3 }) s (regIs (nodeRs ((regionOfNode v).getD 0)) (RS_RT_FEC_CORR (rtIndex v)) 3)
     | none => false) = true := by decide +kernel
/-- What a relay could not correct names the link into the relay. -/
theorem wit_stripe_relayUncorr : let s := linkS.setPcd (fun p => { p with routes := [{ lo := 0, east := true, via := some 2, skipFirst := false }] })
    (match s.sideRoute 1 1 with
     | some [d, v, e] => decide (d = 1) && ran (.stripeReceive 1 1 { stripe 255 with relayUncorr := 1 }) s (fun t => decide (((t.place 1 3).lane 0).wire = [] ∧
         t.pcd.alerts.map (fun a => (a.code, a.node, a.unit)) = [(0x2160, 1, unitLink v ((portTo v e).getD 0))]))
     | _ => false) = true := by decide +kernel
theorem wit_stripe_other : up.sideRoute 1 1 = none ∧ stays (.stripeReceive 1 1 (stripe 255)) up = true ∧ (stripe 254).sseq.toNat ≠ 255 ∧
    ran (.stripeReceive 1 1 (stripe 254)) linkS (fun t => decide (sfind (t.die 1).sseq 1 = some 255 ∧ ((t.place 1 3).lane 0).q = [] ∧
      t.pcd.alerts.map (fun a => (a.code, a.node, a.unit)) = [(0x2160, 1, unitLink 1 1)])) = true := by decide +kernel
def cw (e : Ecc) (n : Nat) : Codeword := { ecc := e, crcOk := true, seq := BitVec.ofNat 12 n, ack := 0, ackv := false, nak := false, flits := 1, crch := 0, crn := 0 }
def cwS : State := linkS.setPcd (fun p => { p with seqExp := [(17, 4095)], nakSent := [17] })
theorem wit_codeword : cwS.portUp 1 1 = true ∧ sget 0 cwS.pcd.seqExp 17 = 4095 ∧ cwS.portUp 0 8 = false ∧ stays (.dynCodewordReceive 0 8 (cw .clean 0)) cwS = true ∧
    ran (.dynCodewordReceive 1 1 (cw .clean 4095)) cwS (fun t => decide (sget 0 t.pcd.seqExp 17 = 0 ∧ t.pcd.nakSent = [])) = true ∧
    ran (.dynCodewordReceive 1 1 (cw .clean 4094)) (linkS) (fun t => decide (t.pcd.nakSent = [17] ∧ t.pcd.seqExp = [])) = true ∧
    ran (.dynCodewordReceive 1 1 (cw .uncorrectable 0)) linkS (fun t => regIs 720 (RS_RT_FEC_UNCORR (rtIndex 1)) 1 t && decide (t.pcd.nakSent = [17])) = true := by decide +kernel

def spS (k : SpPkt) : State := up.setPcd (fun p => { p with spn := [(spKey 1 1 false, [k])] })
theorem wit_spForward : let k := spPkt 1 1 3 0 0 7
    (spS k).spQ 1 1 false = [k] ∧ (spS k).spUp 1 = true ∧ spFar 1 1 = some 2 ∧ (spS k).spUp 2 = true ∧ k.ty = 1#6 ∧ (spS k).spPort 2 k.dst.toNat = some 1 ∧
      up.spQ 1 1 false = [] ∧ stays (.spindleForward 1 1 false .clean) up = true ∧
      ran (.spindleForward 1 1 false .clean) (spS k) (fun t => decide (t.spQ 1 1 false = [] ∧ t.spQ 2 1 k.cls = [k])) = true ∧
      ran (.spindleForward 1 1 false .uncorrectable) (spS k) (fun t => decide (t.spQ 1 1 false = []) && regIs 720 (RS_RT_SPN_LOST (rtIndex 2)) 1 t &&
        decide (spFatal k = false ∧ t.pcd.alerts = [])) = true := by decide +kernel
theorem wit_spFatal : spFatal (spPkt 2 1 3 0 0 7) = true ∧
    ran (.spindleForward 1 1 false .uncorrectable) (spS (spPkt 2 1 3 0 0 7)) (fun t => decide (t.pcd.alerts.map (fun a : Alert => a.code) = [0x2170])) = true := by decide +kernel
/-- Port 7 hands the packet to the node's die. -/
theorem wit_spEject : let s := up.setPcd (fun p => { p with spn := [(spKey 1 7 false, [spPkt 1 3 1 0 511 7])] })
    s.spQ 1 7 false = [spPkt 1 3 1 0 511 7] ∧ ran (.spindleForward 1 7 false .clean) s (fun t => decide (t.spQ 1 7 false = [] ∧ (t.die 1).spq = [(511, 7)])) = true := by
  decide +kernel
theorem wit_spNotFatal : spFatal (spPkt 8 1 3 0 0 7) = false ∧
    ran (.spindleForward 1 1 false .uncorrectable) (spS (spPkt 8 1 3 0 0 7)) (fun t => decide (t.pcd.alerts = [])) = true := by decide +kernel
def spqS (n : Nat) : State := up.modDie 1 (fun x => { x with spq := List.replicate n (0, 0) })
theorem wit_spsend : ((spqS 15).die 1).spq.length < 16 ∧ 16 ≤ ((spqS 16).die 1).spq.length ∧ (spqS 16).rg 1 CD_SC_SPDROP < 0xFFFFFFFE ∧
    ran (.spsend 1 511 7) (spqS 15) (fun t => decide ((t.die 1).spq = List.replicate 15 (0, 0) ++ [(511, 7)])) = true ∧
    ran (.spsend 1 511 7) (spqS 16) (regIs 1 CD_SC_SPDROP 1) = true := by decide +kernel
def relS : State := (barS.modDie 1 (fun x => { x with barAt := [255], barSkip := [254] })).setSc 1 2 { SCore.reset with st := 1, bar := some (1, 4) }
theorem wit_barRelease : (relS.die 1).barSkip.contains 255 = false ∧ (relS.die 1).barSkip.contains 254 = true ∧ (relS.sc 1 3).bar = some (255, 31) ∧ (relS.sc 1 2).bar = some (1, 4) ∧
    ran (.barRelease 1 255) relS (fun t => decide ((t.die 1).barAt = [] ∧ (t.sc 1 3).bar = none ∧ (t.sc 1 3).pc = 4 ∧ (t.sc 1 2).bar = some (1, 4))) = true ∧
    ran (.barRelease 1 254) relS (fun t => decide ((t.die 1).barSkip = [] ∧ (t.sc 1 3).bar = some (255, 31))) = true := by decide +kernel
def startS : State := (placed 24 { Place.reset with st := .armed }).setPart 0 { up.part 0 with ccount := 5 }
theorem wit_start : (startS.die 1).fstep = false ∧ ¬(0 < wrapSub 64 (startS.ccountOf 1) 5 ∧ wrapSub 64 (startS.ccountOf 1) 5 < 2 ^ 63) ∧
    (0 < wrapSub 64 (startS.ccountOf 1) 4 ∧ wrapSub 64 (startS.ccountOf 1) 4 < 2 ^ 63) ∧ startS.rgB 1 CD_PL_FAULT_INFO 31 = false ∧
    ran (.start 1 5) startS (fun t => decide ((t.die 1).startAt = some 5 ∧ (t.die 1).strobed = 2 ^ 24)) = true ∧
    ran (.start 1 4) startS (fun t => t.rgB 1 CD_PL_FAULT_INFO 31 && decide (t.rgF 1 CD_PL_FAULT_INFO 19 16 = 1 ∧ t.pcd.alerts.map (fun a : Alert => a.code) = [0x2153])) = true ∧
    (startS.modDie 1 (fun x => { x with fstep := true })).partOfNode 1 = some 0 ∧
    ran (.start 1 7) (startS.modDie 1 (fun x => { x with fstep := true })) (fun t => decide ((t.part 0).stepW = some 7)) = true ∧
    ran (.yield 1 9) startS (fun t => decide ((t.die 1).yieldAt = some 9)) = true := by decide +kernel
theorem wit_barArrive : up1.partOfNode 1 = some 0 ∧ up1.treeNode 0 1 = true ∧ up1.kernelNode 0 = some 1 ∧ (up1.part 0).arrived.contains (1, 255, 37) = false ∧
    (up1.setPart 0 { up1.part 0 with arrived := [(1, 255, 37)] }).barReady 0 1 1 255 = true ∧
    ran (.barArrive 1 255 37) up1 (fun t => decide ((t.part 0).arrived = [])) = true := by decide +kernel
def liveS : State := up1.setSc 1 0 { SCore.reset with st := 1 }
theorem wit_barArrive_waits : (liveS.setPart 0 { liveS.part 0 with arrived := [(1, 255, 37)] }).barReady 0 1 1 255 = false ∧
    ran (.barArrive 1 255 37) liveS (fun t => decide ((t.part 0).arrived = [(1, 255, 37)])) = true := by decide +kernel

theorem wit_notice_drained : let s := up1.setPart 0 { up1.part 0 with drainAt := some 0, stackList := [0] }
    (up1.part 0).drainAt = none ∧ stays (.notice 0 2) up1 = true ∧ (s.part 0).drainAt.isSome = true := by decide +kernel
theorem wit_notice : up.partOfSite 511 = some 0 ∧ (∀ d, d < 576 → ∀ q ∈ (up.die d).places, q.2.st ≠ .running) ∧
    ran (.notice 511 0) up (fun t => decide ((t.part 0).idle = [511])) = true ∧ ran (.notice 511 3) up (fun t => decide ((t.part 0).atStep = [511])) = true ∧
    ran (.notice 511 1) (up.setPart 0 { up.part 0 with idle := [3, 511] }) (fun t => decide ((t.part 0).idle = [3])) = true :=
  ⟨by decide +kernel, fun d _ q h => absurd h (by show ¬ (q ∈ (sget Die.reset [] d).places); exact List.not_mem_nil), by decide +kernel, by decide +kernel, by decide +kernel⟩
def al : Alert := { node := 3, serial := 4, code := 0x2150, part := 0, unit := 0, data := 0, ptc := 0 }
def alS : State := up.setPcd (fun p => { p with alerts := [al], seen := [(3, 4), (736, 4)] })
theorem wit_alert : alS.pcd.seen.contains (al.node, al.serial) = true ∧ ran (.alert al) alS (fun t => decide (t.evtPending = 0)) = true ∧
    3 ≠ alS.activeNode ∧ 736 = alS.activeNode ∧ ran (.regRsp 3 4) alS (fun t => decide (t.pcd.alerts = [] ∧ t.pcd.seen = [(736, 4)])) = true ∧
    ran (.regRsp 736 77) alS (fun t => decide (t.rdata = 77)) = true := by decide +kernel
theorem wit_regRd : up.nodeOn 1 = true ∧ (findReg (blkOf 1) CD_ARITH_STATUS (regBytes 1 CD_ARITH_STATUS)).map (fun r => decide (r.rc = 0) && up.writerOk .pcd r.writer 1) = some true ∧
    CD_ARITH_STATUS % 8 = 0 ∧ up.spPort 1 up.activeNode = some 1 ∧ up.pcd.spn = [] ∧ specialReg 1 CD_ARITH_STATUS = false ∧
    ran (.regRd 1 CD_ARITH_STATUS) (up.setRg 1 CD_ARITH_STATUS 3) (fun t => decide ((t.spQ 1 1 true) = [spPkt 11 1 736 0 CD_ARITH_STATUS 3])) = true ∧
    ran (.regWr 1 CD_ARITH_STATUS 1) (up.setRg 1 CD_ARITH_STATUS 3) (regIs 1 CD_ARITH_STATUS 2) = true ∧
    ran (.regWr 736 PC_BAD_ACCESS_COUNT 5) up (regIs 736 PC_BAD_ACCESS_COUNT 5) = true := by decide +kernel
theorem wit_beacon : ran (.beacon 1 1024) up (fun t => regIs 1 (clkOff 1 0x28) 1024 t && t.rgB 1 (clkOff 1 0) 9 && decide (t.pcd.alerts = [])) = true ∧
    ran (.beacon 1 1025) up (fun t => !t.rgB 1 (clkOff 1 0) 9 && decide (t.pcd.alerts.map (fun a => (a.code, a.unit)) = [(0x11A2, unitDie 1)])) = true ∧ stays (.beacon 576 5) (up.setRgB (nodeRs 0) RS_FENCE 50 true) = true := by decide +kernel
def offS : State := { up with pcd := { up.pcd with stageDone := 1 } }
def ev : Event := { code := 0x1150, part := 0, fence := false, lost := false, att := false, eseq := 0, ptc := 0, unit := 9, job := 0, incarn := 0, rept := 2, attId := 0, data := 0 }
def evS : State := up.setPcd (fun p => { p with merging := [ev] })
/-- Host port A is up, and one report address is configured. -/
def evA : State := (evS.setPcd (fun p => { p with conf := some { Conf.shipped with reports := [7] } })).setRgB nodePc PC_HOST_STATUS 0 true
theorem wit_repeat : offS.nodeOn 1 = false ∧ stays (.alertRepeat 1) offS = true ∧ up.noticeState 3 = none ∧
    ran (.alertRepeat 3) alS (fun t => decide (t = alS.spSend 3 (spPkt 8 3 736 0 0x2150 4))) = true ∧
    evS.pcd.merging.find? (fun e => decide (e.code = 0x1150 ∧ e.unit = 9)) = some ev ∧ stays (.eventMergeFlush 0x1150 8) evS = true ∧
    ran (.eventMergeFlush 0x1150 9) evS (fun t => decide (t.out = [.mgmt (.event ev)] ∧ t.pcd.merging = [])) = true := by decide +kernel
theorem wit_sendEvent : evA.hostPort false = true ∧ evA.mgmtUp = true ∧ (evA.pcd.conf.map (·.reports)) = some [7] ∧
    ran (.eventMergeFlush 0x1150 9) evA (fun t => decide (t.out = [.mgmt (.event ev), .event false 7 ev])) = true := by decide +kernel

-- The fabric ----------------------------------------------------------------------------------------------------------------------

/-- A cached rank of job 9, incarnation 2: of this panel, or of another one. -/
def rk (rank : Nat) (here : Bool) : Nat × Nat × Nat × Nat × Nat := (9, 2, rank, 2 ^ 63, 2 ^ 139 + 2 ^ 128 + (if here then 0 else 1))
/-- Fabric die 0: context 255 of job 9, its HEAD at 65535; job 9 is entry 63, its window the first two pages. -/
def fabS (x : Fdie) : State := ((((hb.setRg (nodeFd 0) (FD_CTX_W0 255) (2 ^ 63 + 9 * 2 ^ 32)).setRg (nodeFd 0) (FD_CTX_W3 255) 65535).setRg (nodeFd 0)
  (FD_JOB_W0 63) (2 ^ 63 + 9 * 2 ^ 16 + 2)).setRg (nodeFd 0) (FD_JOB_W2 63) 2).setFd 0 x
def ranked : Fdie := { (default : Fdie) with cache := [rk 0 true, rk 1 false] }
def fds (lim : Nat) : State := fabS { ranked with limits := [(16 * 255, lim)] }
def fdesc (op : Nat) : FabDesc := { (default : FabDesc) with op := BitVec.ofNat 4 op, length := 16, laddr := 4096, raddr := 8192, ndst := if op = 3 then 1 else 0 }
def posted1 (op : Nat) (go : Bool) (t : State) : Bool :=
  decide ((t.fd 0).xfers.map (fun y => (y.ctx, y.job, y.posted, y.started)) = [(255, 9, true, go)] ∧ (t.fd 0).xfers.map (fun y => y.desc) = [fdesc op] ∧
    t.rgF (nodeFd 0) (FD_CTX_W3 255) 15 0 = 0)
theorem wit_posts : (fds 8208).fdOn 0 = true ∧ (fds 8208).rgB (nodeFd 0) (FD_CTX_W0 255) 63 = true ∧ ((fds 8208).fd 0).xfers = [] ∧
    (fds 8208).jobEntry 0 9 = some 63 ∧ (fds 8208).entryIncarn 0 63 = 2 ∧ (∀ op < 5, (fds 8208).fabOk 0 (fdesc op) = true) ∧
    ran (.transferPut 0 255 (fdesc 7)) (fds 0) (posted1 0 true) = true ∧ ran (.transferGet 0 255 (fdesc 7)) (fds 0) (posted1 1 true) = true ∧
    ran (.transferNote 0 255 (fdesc 7)) (fds 0) (posted1 4 true) = true := by decide +kernel
theorem wit_posts_disabled : (fds 0).rgB (nodeFd 0) (FD_CTX_W0 254) 63 = false ∧
    [Instr.transferPut 0 254 (fdesc 0), .transferMcast 0 254 (fdesc 3), .doorbell 0 254 5].all (fun i => stays i (fds 0)) = true := by decide +kernel
theorem wit_posts_errs : ∀ m, ((fds 8208).md m).errs = [] := fun _ => rfl
theorem wit_posts_credit : ran (.transferCput 0 255 (fdesc 7)) (fds 8208) (posted1 2 true) = true ∧
    ran (.transferCput 0 255 (fdesc 7)) (fds 8207) (posted1 2 false) = true := by decide +kernel
theorem wit_posts_mcast : let r := (fds 8208).memGet 0 0 4
    isHbm 0 = true ∧ r.2.1 = 0 ∧ bits (leVal ((r.2.2.drop 0).take 4)) 23 0 = 0 ∧ ran (.transferMcast 0 255 (fdesc 3)) (fds 8208) (posted1 3 true) = true ∧
      ran (.transferMcast 0 255 (fdesc 3)) (fds 8207) (posted1 3 false) = true := by decide +kernel
theorem wit_posts_ended : (fds 0).fabOk 0 { fdesc 0 with length := 0 } = false ∧
    ran (.transferPut 0 255 { fdesc 0 with length := 0 }) (fds 0) (fun t => decide ((t.fd 0).xfers = [])) = true ∧
    ((fds 0).setRg (nodeFd 0) (FD_JOB_W0 63) 0).jobEntry 0 9 = none ∧
    ran (.transferCput 0 255 (fdesc 2)) ((fds 8208).setRg (nodeFd 0) (FD_JOB_W0 63) 0) (fun t => decide ((t.fd 0).xfers = [])) = true := by decide +kernel
theorem wit_doorbell : (fds 0).ringDesc 0 255 65535 = 0 ∧ (fds 0).hbmMap 0 0 = some (0, 0) ∧ (fds 0).mdOn 0 = true ∧
    ran (.doorbell 0 255 0x50000) (fds 0) (fun t => decide (t.rg (nodeFd 0) (FD_CTX_W3 255) % 2 ^ 32 = 0 ∧
      (t.fd 0).xfers.map (fun y => (y.desc, y.addr, y.posted)) = [(fabDescOf (List.replicate 64 0#8), 0, false)])) = true := by decide +kernel
def xf (op : Nat) (st : Bool) : Xfer := { (default : Xfer) with id := 3, ctx := 255, job := 9, incarn := 2, desc := fdesc op, posted := true, started := st, copies := [[]], next := 1 }
theorem wit_cputStart : let s := fun (n : Nat) => fabS { ranked with limits := [(16 * 255, n)], xfers := [{ xf 2 false with next := 0 }] }
    ran (.cputStart 0 255) (s 8208) (fun t => decide ((t.fd 0).xfers.map (fun z => (z.id, z.started)) = [(3, true)])) = true ∧
      ran (.cputStart 0 255) (s 8207) (fun t => decide ((t.fd 0).xfers.map (fun z => (z.id, z.started)) = [(3, false)])) = true := by decide +kernel

def jh (op cls len aux : Nat) (dst : Nat := 0) (a : Nat := 8184) : JHdr :=
  { (default : JHdr) with op := BitVec.ofNat 8 op, cls := BitVec.ofNat 2 cls, len := BitVec.ofNat 16 len, aux := BitVec.ofNat 32 aux, incarn := 2, job := 9,
                          dstRank := BitVec.ofNat 24 dst, raddr := BitVec.ofNat 64 a }
def eight : List Byte := [1, 2, 3, 4, 5, 6, 7, 8]
def grp1 (n : Nat) (t : State) : Bool := decide ((t.fd 0).grps.map (fun g => (g.left, g.status)) = [(n, 0)])
def rx : State := fabS ranked
theorem wit_jilDiscarded : ran (.put 0 { jh 1 0 8 0 with bad := true } eight) rx (regIs 704 FD_RX_BAD 1) = true ∧
    ran (.cput 0 (jh 3 2 7 0) eight) rx (regIs 704 FD_RX_BAD 1) = true ∧
    hb.jobEntry 0 9 = none ∧ ran (.put 0 (jh 1 0 8 0) eight) hb (regIs 704 FD_NOJOB 1) = true ∧
    ran (.note 0 { jh 0x21 3 8 0 with incarn := 3 } eight) rx (regIs 704 FD_STALE_INC 1) = true ∧
    ran (.getData 0 { jh 0x11 1 8 0 with incarn := 1 } eight) rx (regIs 704 FD_STALE_INC 1) = true := by decide +kernel
theorem wit_putGet : rx.fdOn 0 = true ∧ rx.isHere 0 (rankOf (2 ^ 63) (2 ^ 139 + 2 ^ 128)) = true ∧ rx.inWindow 0 63 8184 8 = true ∧ rx.inWindow 0 63 8185 8 = false ∧
    ran (.put 0 (jh 1 0 8 0) eight) rx (grp1 1) = true ∧ ran (.put 0 (jh 1 0 8 0 0 4092) eight) rx (grp1 2) = true ∧
    ran (.put 0 (jh 1 0 8 0 0 8185) eight) rx (fun t => decide ((t.fd 0).grps = [])) = true ∧
    ran (.get 0 (jh 2 0 0 8192 0 0)) rx (grp1 2) = true ∧ ran (.get 0 (jh 2 0 0 8192 0 1)) rx (fun t => decide ((t.fd 0).grps = [])) = true := by decide +kernel
theorem wit_cputMcast : (jh 3 2 8 0).op = 3#8 ∧ (jh 3 2 8 0).cls = 2#2 ∧ (jh 3 2 8 0).len.toNat = eight.length ∧ rx.inWindow 0 63 8184 8 = true ∧
    (jh 4 2 16 8).len.toNat = (jh 4 2 16 8).aux.toNat + eight.length ∧ isHbm 8184 = true := by decide +kernel
theorem wit_note : rx.isHere 0 (rankOf (2 ^ 63) (2 ^ 139 + 2 ^ 128 + 1)) = false ∧ ran (.note 0 (jh 0x21 3 8 0) eight) rx (regIs 704 FD_MISROUTE 0) = true ∧
    ran (.note 0 (jh 0x21 3 8 0 1) eight) rx (regIs 704 FD_MISROUTE 1) = true := by decide +kernel

/-- Source slot 4095 holds the only packet of a transfer. -/
def outP (attempt : Nat) : OutPkt := { (default : OutPkt) with xfer := 3, attempt := attempt, gen := 262143, data := eight }
def sent (op attempt : Nat) : State := fabS { ranked with xfers := [xf op true], slots := [(4095, outP attempt)] }
def ah (op : Nat) (aux : Nat) (len : Nat) : JHdr := { jh op 1 len aux with txid := BitVec.ofNat 32 (4095 + 262143 * 2 ^ 14) }
theorem wit_ack : (sent 0 0).slotOf 0 (ah 0x10 0 0) = some (4095, outP 0) ∧ rx.slotOf 0 (ah 0x10 0 0) = none ∧
    ran (.ack 0 (ah 0x10 0 0) 0 0) (sent 0 0) (fun t => decide (sfind (t.fd 0).slots 4095 = none ∧ (t.fd 0).xfers = [])) = true ∧
    ran (.ack 0 (ah 0x10 1 0) 0 0) (sent 2 0) (fun t => decide (sfind (t.fd 0).slots 4095 = none ∧ (t.fd 0).xfers = [] ∧
      t.pcd.alerts.map (fun a => (a.code, a.node)) = [(0x2181, 704)])) = true := by decide +kernel
theorem wit_getData : ran (.getData 0 (ah 0x11 0 8) eight) (sent 1 0) (fun t => decide (sfind (t.fd 0).slots 4095 = none ∧ (t.fd 0).xfers = [xf 1 true]) && grp1 1 t) = true := by
  decide +kernel
theorem wit_credit : ran (.credit 0 { jh 0x20 3 8 15 with ctx := 255 } 5) (fds 0) (fun t => decide ((t.fd 0).limits = [(16 * 255 + 15, 5)] ∨ (t.fd 0).limits = [(16 * 255, 0), (16 * 255 + 15, 5)])) = true ∧
    ran (.credit 0 { jh 0x20 3 8 0 with ctx := 255 } 5) (fds 8) (fun t => decide ((t.fd 0).limits = [(16 * 255, 8)])) = true := by decide +kernel
theorem wit_resend : sfind ((sent 0 2).fd 0).slots 4095 = some (outP 2) ∧
    ran (.requestResendTimeout 0 4095) (sent 0 2) (fun t => regIs 704 FD_RETRY 1 t &&
      decide ((sfind (t.fd 0).slots 4095).map (fun q => (q.attempt, q.h.retry, q.data)) = some (3, true, eight))) = true ∧
    ran (.requestResendTimeout 0 4095) (sent 0 3) (fun t => decide (sfind (t.fd 0).slots 4095 = none ∧ (t.fd 0).xfers = [] ∧
      t.pcd.alerts.map (fun a => (a.code, a.node)) = [(0x2180, 704)])) = true := by decide +kernel
def onpS (w : Option (List Byte)) : State := fabS { ranked with grps := [{ id := 1, kind := .put (jh 1 0 8 0), left := 2, status := 0, data := [0, 0, 0], rx := none }], onp := [(4095, { piece := { grp := 1, off := 1, addr := 0, len := 1, wdata := w }, md := 0, txid := 5 })] }
def backP (ty : Nat) (bs : List Byte) : DynPkt := { pktTo ty (epFd 0) 0 bs.length bs with aux := 4095 }
theorem wit_onPanel : (backP 9 [7]).ecrcOk = true ∧ (onpS none).partOfEp (epFd 0) = some 0 ∧
    ran (.freadData (backP 9 [7])) (onpS none) (fun t => decide ((t.fd 0).onp.length = 0 ∧ (t.fd 0).grps.map (fun g => (g.left, g.status, g.data)) = [(1, 0, [0, 7, 0])])) = true ∧
    ran (.fwriteAck (backP 11 [])) (onpS (some [7])) (fun t => decide ((t.fd 0).onp.length = 0 ∧ (t.fd 0).grps.map (fun g => (g.left, g.data)) = [(1, [0, 0, 0])])) = true := by decide +kernel

def portS : State := rx.setRg (nodeFd 0) FD_STATUS 8
theorem wit_ports : ran (.fabricPortUp 0 0) portS (fun t => t.rgB 704 FD_STATUS 0 && t.rgB 704 FD_STATUS 3) = true ∧
    ran (.fabricPortDown 0 3) (portS.setFd 0 { ranked with txq := [default] }) (fun t => decide ((t.fd 0).txq = []) && !t.rgB 704 FD_STATUS 3) = true ∧
    stays (.pfcPauseFrame 0 3 6 5) portS = true ∧ stays (.pfcPauseFrame 0 3 2 5) portS = true ∧
    ran (.pfcPauseFrame 0 3 5 0xFFFF) portS (fun t => decide ((t.fd 0).paused = [(29, 671079)])) = true := by decide +kernel
def named (ip : Nat) : State := portS.setPcd (fun p => { p with conf := some { Conf.shipped with netIp := ip } })
theorem wit_arp : ran (.arpRequest 0 0xFFFF00000005) (named 0xFFFF00000005) (fun t => decide (t.out = [.arp 704])) = true ∧
    stays (.arpRequest 0 0xFFFF00000006) (named 0xFFFF00000005) = true ∧ stays (.arpRequest 0 5) (named 5) = true ∧
    ran (.neighborSolicitation 0 5) (named 5) (fun t => decide (t.out = [.arp 704])) = true ∧
    ran (.arpReply 0 0x112233445566) (named 5) (fun t => decide ((t.fd 0).gwMac = some 0x112233445566)) = true := by decide +kernel
/-- The sender's bucket is empty: a control packet is dropped and counted. -/
theorem wit_police : let s := fabS { ranked with police := [((jh 0x21 3 8 0 1).src, (0, 0))] }
    (jh 0x21 3 8 0 1).bad = false ∧ (jh 0x21 3 8 0 1).op = 0x21#8 ∧ (jh 0x21 3 8 0 1).cls = 3#2 ∧ (jh 0x21 3 8 0 1).len.toNat = 8 ∧
    s.bucket 0 (jh 0x21 3 8 0 1).src < jilBytes 8 ∧ jilBytes 8 ≤ rx.bucket 0 (jh 0x21 3 8 0 1).src ∧
    ran (.note 0 (jh 0x21 3 8 0 1) eight) s (fun t => regIs 704 FD_POLICE_DROP 1 t && regIs 704 FD_MISROUTE 0 t) = true := by decide +kernel
/-- Host port B: a pause and its end, and the panel's own address there. -/
theorem wit_hostPort : let s := ((named 5).setRg nodePc PC_HOST_STATUS 3).setPcd (fun p => { p with conf := some { Conf.shipped with nets := [{ (default : NetCfg) with unit := 17, ip := 77 }] } })
    (s.netCfg 17).ip = 77 ∧ s.hostPort true = true ∧ s.answers = true ∧ (17 : Nat) = 16 + b2n true ∧ s.clsPcp 0 = 3 ∧
    ran (.pfcPauseFrame 17 0 3 0xFFFF) s (fun t => decide (t.pcd.hostPaused = [(11, 1342157)])) = true ∧
    ran (.pfcPauseFrame 17 0 3 0) (s.setPcd (fun p => { p with hostPaused := [(11, 1342157)] })) (fun t => decide (t.pcd.hostPaused = [])) = true ∧
    ran (.neighborSolicitation 17 77) s (fun t => decide (t.out = [.arp 737])) = true ∧ stays (.arpRequest 17 77) s = true := by decide +kernel

-- Ring, twin link, clocks, panel time ---------------------------------------------------------------------------------------------

theorem canRec {s : State} (h1 : s.evtPending < 1024) (h2 : s.pcd.merging = []) (code : Nat) : s.canRecord code :=
  ⟨h1, fun e h => by rw [h2] at h; exact absurd h List.not_mem_nil⟩

/-- The panel is position pos of a ring of four, both ports up. -/
def ringS (pos : Nat) (st : Nat := 11) : State := up.setRg 704 FD_RING_STATUS (pos * 2 ^ 16 + 3 * 2 ^ 11 + st)
theorem wit_ring : (ringS 3).fdOn 0 = true ∧ (ringS 3).enG = true ∧ (ringS 3).ringPos = 3 ∧ (ringS 3).ringSize = 4 ∧ stays (.ringForward 3 1 false false 2 77) (ringS 3) = true ∧
    (ringS 3 3).rgB 704 FD_RING_STATUS 3 = false ∧ (ringS 3 3).fuses.hasG = true ∧
    ran (.ringForward 1 2 false false 2 77) (ringS 3 3) (fun t => decide (t.out = [.ring false false 2 1 2 77])) = true ∧
    ran (.ringForward 1 3 false false 2 77) (ringS 3) (regIs 704 FD_MISROUTE 1) = true ∧
    ran (.ringForward 1 2 false false 2 77) (ringS 3) (fun t => decide (t.out = [.ring false true 2 1 2 77])) = true ∧
    ran (.ringForward 1 2 true false 2 77) (ringS 3) (fun t => decide (t.out = [.ring true false 2 1 2 77])) = true ∧
    ran (.ringForward 1 2 true false 2 77) (ringS 0) (fun t => decide (t.out = [.ring true true 2 1 2 77])) = true ∧
    stays (.ringForward 1 2 false false 2 77) (ringS 3 9) = true := by decide +kernel
theorem wit_ringPorts : ran (.ringPortUp true) (ringS 3 1) (fun t => decide (t.rgF 704 FD_RING_STATUS 3 0 = 11)) = true ∧
    ran (.ringPortUp false) (ringS 3 0) (fun t => decide (t.rgF 704 FD_RING_STATUS 3 0 = 1)) = true ∧
    ran (.ringPortDown true) (ringS 3) (fun t => decide (t.rgF 704 FD_RING_STATUS 3 0 = 9)) = true := by decide +kernel
/-- The twin link's role, the run of missed windows, link trained, matched. -/
def twinS (role missed : Nat) : State := up.setRg 704 FD_TWIN_STATUS (missed * 2 ^ 16 + 2 ^ 7 + 2 ^ 5 + role)
def noG : State := up.setPcd (fun p => { p with conf := some { Conf.shipped with enG := some false } })
theorem wit_ringOff : noG.enG = false ∧ stays (.ringPortUp true) noG = true ∧ stays (.ringPortDown true) noG = true := by decide +kernel
def noT : State := up.setPcd (fun p => { p with conf := some { Conf.shipped with enT := some false } })
theorem wit_twinLink : up.enT = true ∧ noT.enT = false ∧ ran .twinLinkUp up (fun t => t.rgB 704 FD_TWIN_STATUS 7) = true ∧
    ran .twinLinkDown (twinS 1 0) (fun t => !t.rgB 704 FD_TWIN_STATUS 7) = true ∧ stays .twinLinkUp noT = true ∧ stays .twinLinkDown noT = true := by decide +kernel
/-- A heartbeat that went out, but for the health summary, whose content no rule states. -/
def hbOf : Out → Option (Bool × Nat × Nat × Nat)
  | .heartbeat onTwin k m role _ => some (onTwin, k, m, role)
  | _ => none
theorem wit_heartbeat : up.twinRole = 0 ∧ stays .heartbeatSend up = true ∧ (twinS 1 2).twinRole = 1 ∧ (twinS 1 2).twinUp = true ∧
    ran .heartbeatSend { twinS 1 2 with ptc16 := 16 * 5000000 } (fun t => decide (t.out.map hbOf = [some (false, 5, 0, 1), some (true, 5, 0, 1)])) = true ∧
    ran (.heartbeat true 9 1) (twinS 1 2) (fun t => decide (t.rgF 704 FD_TWIN_STATUS 23 16 = 0 ∧ t.pcd.hbSeen = [9])) = true ∧
    ran (.heartbeat false 9 1) (twinS 2 255) (fun t => decide (t.rgF 704 FD_TWIN_STATUS 23 16 = 0 ∧ t.pcd.hbHostSeen = [9])) = true := by decide +kernel
def missS (role missed : Nat) (seen : List Nat) : State := (twinS role missed).setPcd (fun p => { p with hbHostSeen := seen })
theorem wit_windowMiss : (twinS 2 1).matched = true ∧ (missS 2 2 [9]).pcd.hbHostSeen.contains 9 = true ∧ stays (.heartbeatWindowMiss 9) (missS 2 2 [9]) = true ∧
    (twinS 2 1).rgF 704 FD_TWIN_STATUS 23 16 = 1 ∧
    ran (.heartbeatWindowMiss 9) (twinS 2 1) (fun t => regIs 704 FD_HB_MISS 1 t && decide (t.rgF 704 FD_TWIN_STATUS 23 16 = 2 ∧ t.out = [])) = true ∧
    ran (.heartbeatWindowMiss 9) (twinS 1 255) (fun t => decide (t.rgF 704 FD_TWIN_STATUS 23 16 = 255 ∧ t.out = [])) = true ∧
    ran (.heartbeatWindowMiss 9) (twinS 2 2) (fun t => decide (t.rgF 704 FD_TWIN_STATUS 1 0 = 1 ∧ t.out.count (.takeoverMsg true) = 1)) = true := by decide +kernel
theorem wit_windowMiss_record : (twinS 2 2).canRecord 0x1190 ∧ (twinS 1 0).canRecord 0x4190 := ⟨canRec (by decide +kernel) rfl _, canRec (by decide +kernel) rfl _⟩
theorem wit_takeover : stays (.takeover true) (twinS 2 0) = true ∧ ran (.takeover true) (twinS 1 0) (fun t => t.pcd.twinYielded && !t.answers) = true := by decide +kernel
theorem wit_takeover_idle : ∀ p, ((twinS 1 0).part p).ctxs = [] := fun _ => rfl
theorem wit_mirror : up.matched = false ∧ stays (.mirrorComplete 5) up = true ∧
    ran (.mirrorComplete 5) ((twinS 1 0).setRg 704 FD_MIRROR_SEQ 4) (regIs 704 FD_MIRROR_SEQ 5) = true ∧
    ran (.mirrorComplete 5) ((twinS 1 0).setRg 704 FD_MIRROR_SEQ 6) (regIs 704 FD_MIRROR_SEQ 6) = true := by decide +kernel
theorem wit_mirror_idle : ∀ q, ((twinS 1 0).session q).items = [] := fun _ => rfl

theorem wit_refLoss : let r := clkOff 1 0
    up.nodeOn 1 = true ∧ up.rgB 1 r 0 = false ∧ up.rgB 1 r 1 = false ∧ up.rgB 1 r 2 = false ∧
      ran (.referenceLoss 1 false) up (fun t => t.rgB 1 r 0 && t.rgB 1 r 1 && regIs 1 (clkOff 1 4) 1 t &&
        decide (t.pcd.alerts.map (fun a => (a.code, a.unit)) = [(0x11A0, unitCode 7 1 0)])) = true ∧
      ran (.referenceLoss 1 false) (up.setRgB 1 r 2 true) (fun t => !t.rgB 1 r 0 && t.rgB 1 r 4 && decide (t.pcd.alerts.map (fun a : Alert => a.code) = [0x31A0])) = true ∧
      ran (.referenceLoss 1 true) up (fun t => !t.rgB 1 r 0 && t.rgB 1 r 2 && decide (t.pcd.alerts = [])) = true ∧
      ran (.referenceRestored 1 true) ((up.setRgB 1 r 2 true).setRgB 1 r 4 true) (fun t => !t.rgB 1 r 2 && !t.rgB 1 r 4) = true := by decide +kernel
theorem wit_refOff : (up.setRgB (nodeRs 15) RS_FENCE 57 true).nodeOn 703 = false ∧ stays (.referenceLoss 703 true) (up.setRgB (nodeRs 15) RS_FENCE 57 true) = true ∧
    stays (.referenceRestored 703 true) (up.setRgB (nodeRs 15) RS_FENCE 57 true) = true := by decide +kernel
def dark : State := { State.reset with pcd := { State.reset.pcd with nodesOut := [735] } }
theorem wit_nodeOut : dark.nodeOn 735 = true ∧ stays (.spindleNodeOut 735) dark = true ∧ State.reset.nodeOn 720 = true ∧
    ran (.spindleNodeOut 720) dark (fun t => decide (t.pcd.nodesOut = [720, 735])) = true := by decide +kernel
theorem wit_nodeOut_joined : ∀ p, p < 16 → (dark.setPcd (fun q => { q with nodesOut := insUniq 720 q.nodesOut })).cutOff p = none := by decide +kernel
theorem wit_beaconSend : ran .beaconSend { up with ptc16 := 9 } (fun t => decide (t.out = [.beacon 9])) = true ∧ stays .beaconSend dark = true := by decide +kernel
def stepS (stopped : Bool) (step : Nat) : State := up1.setPart 0 { up1.part 0 with stepW := some (2 ^ 64 - 1), stopped := stopped, step := step }
theorem wit_freqStep : up1.kernelNode 0 = some 1 ∧ stays (.freqStepStop 0) up1 = true ∧ stays (.freqStepStop 0) (stepS true 3) = true ∧
    ran (.freqStepStop 0) ((stepS false 0).setRg 1 CD_CLK_NEXT (15 * 2 ^ 48)) (fun t => decide ((t.part 0).stopped = true ∧ (t.part 0).step = 15)) = true ∧
    stays (.freqStepCountLoad 0) (stepS false 3) = true ∧
    ran (.freqStepCountLoad 0) (stepS true 15) (fun t => t.rgB 1 CD_CLK_STATUS 8 && decide ((t.part 0).ccount = 1199 ∧ (t.part 0).stopped = false)) = true ∧
    stays (.freqStepResume 0 [1]) (stepS true 3) = true ∧
    ran (.freqStepResume 0 [1, 2]) ((stepS false 3).modDie 1 (fun x => { x with fstep := true })) (fun t => decide ((t.die 1).fstep = false ∧ (t.part 0).stepW = none ∧
      t.pcd.alerts.map (fun a => (a.node, a.code)) = [(1, 0x21A0)])) = true := by decide +kernel

theorem wit_margin : let r := clkOff 1 0x2C
    up.warnTh = 6 ∧ stays (.localHoldBegin 1 23 6) up = true ∧ up.holding 1 = false ∧ up.rgF 1 r 31 26 = 63 ∧
      ran (.localHoldBegin 1 23 5) up (fun t => t.holding 1 && regIs 1 (clkOff 1 8) 1 t && regIs 1 CD_HOLD_EVENTS 1 t && decide (t.rgF 1 r 31 26 = 5 ∧ t.rgF 1 r 25 21 = 23 ∧
        (t.die 1).holdAt = some 0)) = true ∧
      ran (.localHoldBegin 1 0 5) (up.setRgB 1 (clkOff 1 0) 5 true) (fun t => regIs 1 CD_HOLD_EVENTS 0 t && decide (t.rgF 1 r 31 26 = 5)) = true ∧
      stays (.localHoldRelease 1) up = true ∧ ran (.localHoldRelease 1) (up.setRgB 1 (clkOff 1 0) 5 true) (fun t => !t.holding 1) = true ∧
      ran (.replicaSlackZero 1 23) (placed 24 running) (fun t => decide ((t.place 1 24).st = .halted ∧ t.pcd.alerts.map (fun a => (a.code, a.unit)) = [(0x21A1, unitDie 1)])) = true := by
  decide +kernel

/-- A memory die holds, and its hold ends. -/
theorem wit_margin_md : hb.mdOn 127 = true ∧ hb.holding 703 = false ∧ (hb.md 127).items = [] ∧
    ran (.localHoldBegin 703 3 5) hb (fun t => t.holding 703 && regIs 703 (clkOff 703 8) 1 t && decide ((t.md 127).holdAt = some 0)) = true ∧
    ran (.localHoldRelease 703) (hb.setRgB 703 (clkOff 703 0) 5 true) (fun t => !t.holding 703) = true := by decide +kernel

/-- Host port A is up; the servo listens there. -/
def hostS : State := up.setRg nodePc PC_HOST_STATUS 1
def onA (d : Nat := Conf.shipped.ptpDomain) : PtpFrom := ⟨false, d⟩
theorem wit_ptp : up.ptpOn (onA) = false ∧ stays (.ptpDelayResp ⟨onA, 4⟩) up = true ∧ stays (.ptpAnnounce ⟨onA, 4⟩) up = true ∧ stays (.ptpSync (onA) false 5) up = true ∧
    hostS.ptpOn (onA) = true ∧ hostS.ptpOn (onA (Conf.shipped.ptpDomain + 1)) = false ∧ hostS.rgB nodePc PC_PTP_STATUS 2 = false ∧ hostS.ptpOn ⟨true, Conf.shipped.ptpDomain⟩ = false ∧
    stays (.ptpSync ⟨true, Conf.shipped.ptpDomain⟩ false 5) hostS = true ∧
    hostS.rateBounds.1 ≤ hostS.rateBounds.2 ∧ ran (.ptpSync (onA) true 5) { hostS with ptc16 := 7 } (fun t => decide (t.pcd.ptpWait = some 7)) = true ∧
    (hostS.setPcd (fun p => { p with ptpWait := some 7 })).ptpOn (onA) = true ∧ stays (.ptpFollowUp ⟨onA, 3⟩) hostS = true ∧
    ran (.ptpDelayResp ⟨onA, -3⟩) hostS (fun t => decide (t.pcd.ptpDelay = -3)) = true ∧ ran (.ptpAnnounce ⟨onA, 0xFFFFFFFFFFFFFFFF⟩) hostS (regIs nodePc PC_PTP_GMID (2 ^ 64 - 1)) = true := by decide +kernel
theorem wit_holdover : stays .ptpHoldover hostS = true ∧
    ran .ptpHoldover ((hostS.setRgF nodePc PC_PTP_STATUS 1 0 1).setRg nodePc PC_PTP_RATE 77) (fun t => regIs nodePc PC_PTP_RATE 77 t && decide (t.rgF nodePc PC_PTP_STATUS 1 0 = 2)) = true := by
  decide +kernel
theorem wit_holdover_record : (hostS.setRgF nodePc PC_PTP_STATUS 1 0 1).canRecord 0x11A3 ∧ (up.setPcd (fun p => { p with standbyOk := true })).canRecord 0x1012 :=
  ⟨canRec (by decide +kernel) rfl _, canRec (by decide +kernel) rfl _⟩
theorem wit_ptcStep : stays (.ptcStepToPtp 9) { up with ptc16 := 9 } = true ∧ (∀ p < 16, up.loaded p = false) ∧ ran (.ptcStepToPtp 10) { up with ptc16 := 9 } (fun t => decide (t.ptc16 = 10)) = true ∧
    stays (.ptcStepToPtp 9) dark = true := by decide +kernel
theorem wit_pcdFail : up.pcd.standbyOk = false ∧ ran .activePcdFail up (fun t => t.pcd.heldOff) = true ∧ (∀ p < 16, (up.part p).run = none) ∧
    ran .activePcdFail (up.setPcd (fun p => { p with standbyOk := true })) (fun t => t.pcd.activeB && !t.pcd.standbyOk) = true := by decide +kernel

-- Sessions and their items ------------------------------------------------------------------------------------------------------------

/-- Partition 0 small, its stack list die 0, host port A up, session 0 as given. -/
def ses (x : Session) (s : State := up1) : State := ((s.setPart 0 { s.part 0 with stackList := [0] }).setRg nodePc PC_HOST_STATUS 1).setSession 0 x
def open0 (items : List SItem) : Session :=
  { (default : Session) with isOpen := true, known := true, gen := 65535, nextSseq := 2 ^ 32 - 1, nextCseq := 2 ^ 32 - 1, items := items }
def rec (n : Nat) : Cpl := { (default : Cpl) with cseq := n }
/-- A packet on host port A with a good tag; the marks of a reply (class 1) and of an OPEN's answer (class 3), spec/12 R347. -/
def ok : HostHdr := ⟨false, true⟩
def rep : HostTo := { portB := false, sess := 0, gen := 65535, vid := 0, pcp := 4, dscp := 34 }
def opened (k : Nat) : HostTo := { portB := false, sess := k, gen := 0, vid := 0, pcp := 6, dscp := 48 }
theorem wit_quiet : up1.hostQuiet := ⟨rfl, rfl⟩
theorem wit_open : let s := ses (open0 [])
    s.hostUp = true ∧ s.hostPort false = true ∧ (s.keyOf 0).isSome = true ∧ s.keyOf 127 = none ∧ (s.session 0).lostItems = [] ∧
      ran (.opn 0 0 0 true) s (fun t => decide ((t.session 0).isOpen = true ∧ (t.session 0).gen = 0 ∧ .openOk (opened 0) 0 false (2 ^ 32 - 1) ∈ t.out)) = true ∧
      ran (.opn 0 0 0 false) s (regIs nodePc PC_HOST_AUTH_FAIL 1) = true ∧
      ran (.opn 15 7 0 false) s (fun t => decide (t.out = [.openOk (opened 127) 1 false 0])) = true ∧
      ran (.opn 16 7 0 true) s (fun t => decide (t.out = [.openOk (opened 135) 1 false 0] ∧ t.sess = s.sess)) = true ∧
      ran (.opn 0 8 0 true) s (fun t => decide (t.out = [.openOk (opened 8) 1 false 0])) = true ∧ stays (.opn 0 0 1 true) s = true := by decide +kernel
/-- The port of the session is paused for the replies' priority: its records wait. -/
theorem wit_paused : let s := (ses { open0 [] with recs := [rec 4] }).setPcd (fun p => { p with hostPaused := [(4, 99)] })
    s.pcd.hostTxq = [] ∧ s.clsPcp 1 = 4 ∧ s.clsPcp 3 = 6 ∧ s.sessPort 0 = false ∧ s.ptc16 < sget 0 s.pcd.hostPaused (8 * b2n false + s.clsPcp 1) ∧
    ran (.cplResend 0) s (fun t => decide (t.out = [] ∧ t.pcd.hostTxq.map (fun f => (f.portB, f.prio, f.out)) = [(false, 4, .cpl rep [rec 4])])) = true := by decide +kernel
/-- Nothing arrives over a port that is down. -/
theorem wit_portDown : (ses (open0 [])).hostPort true = false ∧ stays (.close 0 65535 ⟨true, true⟩) (ses (open0 [])) = true ∧ stays (.opn 0 0 1 true) (ses (open0 [])) = true := by
  decide +kernel
theorem wit_hostPkt : let s := ses (open0 [])
    (s.session 0).known = true ∧ (s.session 1).known = false ∧ ran (.close 1 0 ok) s (regIs nodePc PC_HOST_AUTH_FAIL 1) = true ∧
      ran (.submit 1 0 ok []) s (regIs nodePc PC_HOST_AUTH_FAIL 1) = true ∧ ran (.close 65535 0 ok) s (regIs nodePc PC_HOST_AUTH_FAIL 1) = true ∧
      up.hostUp = false ∧ stays (.close 0 0 ok) up = true ∧ ran (.cplAck 0 65535 { ok with tagOk := false } 0) s (regIs nodePc PC_HOST_AUTH_FAIL 1) = true ∧
      ran (.sdata 0 65534 ok 0 0 [1]) s (regIs nodePc PC_HOST_STALE 1) = true := by decide +kernel
theorem wit_close : let s := ses { open0 [] with hint := some 9, recs := [rec 4, rec 5, rec 6] }
    ran (.close 0 65535 ok) s (fun t => decide ((t.session 0).isOpen = false ∧ (t.session 0).hint = none ∧ (t.session 0).recs = [rec 4, rec 5, rec 6])) = true ∧
      ran (.cplAck 0 65535 ok 5) s (fun t => decide ((t.session 0).recs = [rec 6])) = true ∧
      ran (.sessionTimeout 0) s (fun t => decide ((t.session 0).isOpen = false ∧ (t.session 0).hint = none)) = true ∧
      stays (.sessionTimeout 1) s = true ∧ ran (.cplResend 0) s (fun t => decide (t.out = [.cpl rep [rec 4, rec 5, rec 6]])) = true ∧ stays (.cplResend 1) s = true := by decide +kernel

def wi (op sseq : Nat) : WItem := { (default : WItem) with op := BitVec.ofNat 8 op, sseq := BitVec.ofNat 32 sseq }
def itm (w : WItem) : SItem := { SItem.fresh w with started := true }
theorem wit_submit : let s := ses (open0 [])
    let l := [wi 0x21 (2 ^ 32 - 1), wi 0x21 0]
    inRow (2 ^ 32 - 1) l = l ∧ ran (.submit 0 65535 ok l) s (fun t => decide ((t.session 0).items = l.map SItem.fresh ∧ (t.session 0).nextSseq = 1 ∧
      t.out = [.host rep 0x10 (2 ^ 32 - 1) 2 0 []])) = true := by decide +kernel
/-- Items beyond those that follow one another are not taken. -/
theorem wit_submit_part : let l := [wi 0x21 (2 ^ 32 - 1), wi 0x21 5]
    ran (.submit 0 65535 ok l) (ses (open0 [])) (fun t => decide ((t.session 0).items.length = 1 ∧ (t.session 0).nextSseq = 0)) = true := by decide +kernel
theorem wit_submit_refused : let s := ses (open0 [])
    wrapSub 32 5 (2 ^ 32 - 1) < 2 ^ 31 ∧ ran (.submit 0 65535 ok [wi 0x21 5]) s (fun t => regIs nodePc PC_HOST_REFUSED 1 t && decide (t.out = [.host rep 0x10 5 0 1 []])) = true := by
  decide +kernel
theorem wit_submit_again : 2 ^ 31 ≤ wrapSub 32 (2 ^ 32 - 2) (2 ^ 32 - 1) ∧
    ran (.submit 0 65535 ok [wi 0x21 (2 ^ 32 - 2)]) (ses { open0 [] with lastSubmits := [(2 ^ 32 - 2, 1)] }) (fun t => decide (t.out = [.host rep 0x10 (2 ^ 32 - 2) 1 0 []])) = true := by
  decide +kernel
/-- The panel is Ready, and so is partition 0. -/
def rdy (x : Session) : State := (ses x).setRgB nodePc PC_BRINGUP_STATUS 48 true
theorem wit_itemStart : let f := SItem.fresh (wi 0x21 7)
    (rdy (open0 [f])).item 0 7 = some f ∧ (rdy (open0 [f])).mayStart 0 f = true ∧ (ses (open0 [f])).mayStart 0 f = false ∧ stays (.workItemStart 0 7) (ses (open0 [f])) = true ∧
      (rdy (open0 [f])).startStatus 0 f.w = none ∧ (rdy (open0 [f])).startStatus 0 { f.w with op := 4 } = some 9 ∧
      ran (.workItemStart 0 7) (rdy (open0 [f])) (fun t => decide ((t.session 0).items.map (fun i => i.started) = [true])) = true ∧
      ran (.workItemStart 0 7) (rdy (open0 [SItem.fresh { f.w with op := 4 }])) (fun t => decide ((t.session 0).items = [] ∧
        (t.session 0).recs.map (fun r => (r.sseq, r.cseq, r.status)) = [(7, 2 ^ 32 - 1, 9)] ∧ (t.session 0).nextCseq = 0)) = true := by decide +kernel
theorem wit_itemStart_wakes : let s := (rdy (open0 [SItem.fresh (wi 0x12 7)])).modPart 0 (fun p => { p with pstate := 1 })
    s.mayStart 0 (SItem.fresh (wi 0x12 7)) = true ∧ (s.part 0).waking = false ∧ ran (.workItemStart 0 7) s (fun t => (t.part 0).waking) = true ∧
      stays (.workItemStart 0 7) (s.modPart 0 (fun p => { p with waking := true })) = true := by decide +kernel

/-- Item 7 of session 0 is started. -/
def one (w : WItem) (done : Nat := 0) (x : Mdie := default) : State := (ses (open0 [{ itm w with done := done }])).setMd 0 x
def ended (status done : Nat) (t : State) : Bool :=
  decide ((t.session 0).items = [] ∧ (t.session 0).recs.map (fun r => (r.sseq, r.status, r.done)) = [(7, status, done)] ∧ (t.session 0).nextCseq = 0)
def wr : WItem := { wi 1 7 with addr := 4092, length := 4 }
theorem wit_itemWrite : (∀ e ∈ ((one wr).part 0).ctxs, e.2.endAs = none) ∧ ran (.itemWrite 0 7) (one wr 4) (ended 0 4) = true ∧
    ran (.itemWrite 0 7) (one wr 3) (fun t => decide ((t.session 0).items.map (fun i => (i.acted, i.done)) = [(true, 3)])) = true ∧
    ran (.writeSdataTimeout 0 7) (one wr 3) (ended 12 3) = true := by decide +kernel
theorem wit_sdata : (one wr).hbmMap 0 4095 = some (0, 4095) ∧ (one wr).mdOn 0 = true ∧ ((one wr).md 0).errs = [] ∧ (one wr).scrubHits 0 4095 1 = false ∧
    (one wr).keptRange 0 4095 1 = false ∧ ((one wr).md 0).holdAt = none ∧ (((one wr).md 0).freeTx 2).isSome = true ∧
    ran (.sdata 0 65535 ok 7 4 [9]) (one wr) (fun t => decide (t.out = [] ∧ (t.md 0).mem = [])) = true ∧ (4092 + 3) % 4096 + 1 ≤ 4096 ∧
    ran (.sdata 0 65535 ok 7 3 [9]) (one wr) (fun t => decide ((t.md 0).mem = [(4095, 9)] ∧ .host rep 0x10 7 0 0 [] ∈ t.out)) = true := by decide +kernel
theorem wit_itemRead : let s := one { wi 2 7 with addr := 4092, length := 4 } 0 { (default : Mdie) with mem := [(4093, 5)] }
    s.hbmMap 0 4092 = some (0, 4092) ∧ s.mdOn 0 = true ∧ s.scrubHits 0 4092 4 = false ∧ s.keptRange 0 4092 4 = false ∧ s.hostRoom 0 4092 4 = true ∧
      ran (.itemRead 0 7) s (fun t => ended 0 4 t && decide (.host rep 0x35 7 0 0 [0, 5, 0, 0] ∈ t.out)) = true := by decide +kernel
theorem wit_copy : let d := { fillD with land := false }
    (one { wi 3 7 with md := 127 }).partOfRegion (127 / 8) ≠ some 0 ∧ ran (.copy 0 7) (one { wi 3 7 with md := 127 }) (ended 1 0) = true ∧
      (one { wi 3 7 with desc := d }).descOk 0 (.hostItem 0 7) d = true ∧ (one { wi 3 7 with desc := d }).partOfRegion 0 = some 0 ∧
      ran (.copy 0 7) (one { wi 3 7 with desc := d }) (fun t => ended 0 4 t && decide ((t.md 0).mem = [(4092, 0x11), (4093, 0x22), (4094, 0x33), (4095, 0x44)])) = true ∧
      ((one (wi 3 7)).part 0).stackList.find? (one (wi 3 7)).mdOn = some 0 ∧
      ran (.copy 0 7) (one { wi 3 7 with md := 0xFF, desc := d }) (ended 0 4) = true := by decide +kernel

/-- Item 7 with partition 0 as given. -/
def oneP (w : WItem) (f : Part → Part) : State := (one w).modPart 0 f
def ctx1 (st : CtxSt) (key : Nat := 0) : Ctx := { ctxOf st with key := key }
def okImg : Image := { img2 with digestOk := true, phases := [default] }
theorem wit_jobLoad : let w := { wi 0x10 7 with ctx := 63, job := 9 }
    let s := one w
    let r := s.hbmRead 0 0 0
    (s.part 0).ctxs = [] ∧ r.2.1 = 0 ∧ r.1.imageOk 0 okImg = true ∧ r.1.imageOk 0 { okImg with phases := [] } = false ∧
      ran (.jobLoad 0 7 okImg) s (fun t => ended 0 0 t && decide ((t.part 0).ctxs.map (fun e => (e.1, e.2.job, e.2.key, e.2.st)) = [(63, 9, 0, .loaded)])) = true ∧
      ran (.jobLoad 0 7 { okImg with phases := [] }) s (fun t => ended 14 0 t && decide ((t.part 0).ctxs = [])) = true ∧
      ran (.jobLoad 0 7 okImg) (oneP w (fun p => { p with ctxs := [(63, ctx1 .loaded)] })) (ended 13 0) = true ∧
      ((0, 0) :: okImg.ranges).all (fun r => !s.scrubWaits 0 r.1 r.2) = true ∧
      ran (.jobLoad 0 7 okImg) (oneP w (fun p => { p with ctxs := [(1, ctx1 .retained 3)] })) (ended 13 0) = true ∧
      (let u := oneP { w with length := 8 } (fun p => { p with scrubQ := [{ base := 0, len := 4096, granule := none }] })
       u.scrubWaits 0 0 8 = true ∧ stays (.jobLoad 0 7 okImg) u = true) := by decide +kernel
theorem wit_jobStart : let w := { wi 0x11 7 with ctx := 63, job := 5, incarn := 3, prio := 7, quantum := 1000 }
    let s := fun (st : CtxSt) => oneP w (fun p => { p with ctxs := [(0, ctx1 .running), (63, ctx1 st)], run := some 0 })
    sfind ((s .loaded).part 0).ctxs 63 = some (ctx1 .loaded) ∧ ran (.jobStart 0 7) (s .retained) (ended 13 0) = true ∧
      ran (.jobStart 0 7) (s .loaded) (fun t => regIs 704 (FD_JOB_W0 63) (2 ^ 63 + 5 * 2 ^ 16 + 3) t && decide ((sfind (t.part 0).ctxs 63).map (fun x => (x.st, x.jsItem, x.incarn, x.prio, x.quantum)) =
        some (.ready, some (0, 7), 3, 7, 1000))) = true ∧
      ((s .loaded).part 0).startPhase (ctx1 .loaded) = 0 ∧ sfind ((one w).part 0).ctxs 63 = none ∧ ran (.jobStart 0 7) (one w) (ended 13 0) = true ∧
      ran (.jobStart 0 7) (oneP { w with quantum := 999 } (fun p => { p with ctxs := [(63, ctx1 .loaded)] })) (ended 9 0) = true := by decide +kernel
theorem wit_jobKill : let w := { wi 0x12 7 with job := 5 }
    ran (.jobKill 0 7) (oneP w (fun p => { p with endedJobs := [5] })) (ended 0 0) = true ∧ ran (.jobKill 0 7) (one w) (ended 13 0) = true ∧
      ran (.jobKill 0 7) (oneP w (fun p => { p with ctxs := [(63, ctx1 .loaded)] })) (fun t => decide ((sfind (t.part 0).ctxs 63).all (fun c => decide (c.endAs = some (11, 0) ∨ c.st = .retained)))) = true := by
  decide +kernel
theorem wit_checkpoint : let w := { wi 0x13 7 with job := 5, addr := 4096, length := 8, ckpt := 6 }
    (one w).matched = false ∧ (one w).scrubHits 0 4096 8 = false ∧ ran (.checkpoint 0 7) (one w) (fun t => ended 0 0 t && decide ((t.part 0).held = [⟨5, 0, 4096, 8, 6, 0⟩])) = true ∧
    stays (.checkpoint 0 7) ((one w).modItem 0 7 (fun i => { i with acted := true })) = true := by decide +kernel
/-- Mirrored to the twin: the item waits for it; and a range whose page is being scrubbed. -/
theorem wit_checkpoint_mirror : let w := { wi 0x13 7 with job := 5, addr := 4096, length := 8, ckpt := 6 }
    let s := (one w).setRg 704 FD_TWIN_STATUS (2 ^ 7 + 2 ^ 5 + 1)
    s.matched = true ∧ s.twinRole = 1 ∧ s.part0 = 0 ∧ s.twinUp = true ∧
    ran (.checkpoint 0 7) s (fun t => decide (t.out = [.mirror 6 4096 (List.replicate 8 0)] ∧ (t.session 0).items.map (·.acted) = [true])) = true ∧
    (let u := ((one w).setRg 576 MD_SCRUB_CTRL 2).setRg 576 MD_SCRUB_LEN 2
     u.scrubHits 0 4096 8 = true ∧ ran (.checkpoint 0 7) u (ended 6 0) = true) := by decide +kernel
theorem wit_release : let w := { wi 0x14 7 with job := 5 }
    ran (.release 0 7) (oneP w (fun p => { p with held := [⟨6, 0, 4096, 8, 6, 0⟩] })) (ended 13 0) = true ∧
      ran (.release 0 7) (oneP w (fun p => { p with held := [⟨5, 0, 0, 8, 6, 0⟩, ⟨6, 0, 4096, 8, 6, 0⟩] })) (fun t => decide ((t.part 0).held = [⟨6, 0, 4096, 8, 6, 0⟩])) = true := by decide +kernel
theorem wit_hintItem : ran (.hint 0 7) (one { wi 0x20 7 with nextEvent := 5 }) (fun t => ended 0 0 t && decide ((t.session 0).hint = some 5)) = true ∧
    ran (.hint 0 7) (one (wi 0x20 7)) (fun t => ended 0 0 t && decide ((t.session 0).hint = none)) = true ∧ ran (.itemNop 0 7) (one (wi 0x21 7)) (ended 0 0) = true ∧
    ran (.hintExpire 0) (ses { open0 [] with hint := some 9 }) (fun t => decide ((t.session 0).hint = none)) = true := by decide +kernel
theorem wit_retention : let s := fun st => oneP (wi 0x21 7) (fun p => { p with ctxs := [(63, ctx1 st)] })
    ran (.retentionExpire 0 63) (s .retained) (fun t => decide (sfind (t.part 0).ctxs 63 = none)) = true ∧ stays (.retentionExpire 0 63) (s .loaded) = true := by decide +kernel

-- Reset, bring-up, losses ------------------------------------------------------------------------------------------------------------

def usedS : State := (up.setMd 0 { (default : Mdie) with mem := [(5, 6)] }).setSession 3 { open0 [itm (wi 0x21 7)] with gen := 4 }
def cleared (t : State) : Bool := decide (t.pcd.stageDone = 0 ∧ t.dies = [] ∧ (t.md 0).mem = [(5, 6)] ∧ (t.session 3).isOpen = false ∧ (t.session 3).gen = 4 ∧
  (t.session 3).items = [])
theorem wit_reset : usedS.pcd.standby = true ∧ ran (.resetAssert 10000) usedS cleared = true ∧ stays (.resetAssert 999) usedS = true ∧
    stays (.resetAssert 10000) { State.reset with pcd := { State.reset.pcd with standby := false } } = true ∧
    ran (.nvmIsolate ⟨true, [], [], false⟩) usedS (fun t => cleared t && t.pcd.nvmIso) = true := by decide +kernel
/-- Released, with slot A of the images written by a programmer and the owner record written over. -/
theorem wit_programmed : let s := usedS.setPcd (fun p => { p with nvmIso := true })
    s.pcd.standby = true ∧ s.nvm.images.length = 2 ∧ s.nvm.ok0 = true ∧
    ran (.nvmIsolate ⟨false, [(0, none)], [], true⟩) s (fun t => cleared t && !t.pcd.nvmIso && decide (t.nvm.images[0]? = some none ∧ t.nvm.owner = none ∧ t.nvm.confs = usedS.nvm.confs)) = true ∧
    ran (.nvmIsolate ⟨false, [(0, none)], [], true⟩) usedS (fun t => cleared t && !t.pcd.nvmIso && decide (t.nvm = usedS.nvm)) = true := by decide +kernel
theorem wit_resetEffecter : usedS.mgmtUp = true ∧ ran (.resetEffecter 0x5245) usedS cleared = true ∧ stays (.resetEffecter 0x5246) usedS = true := by decide +kernel
def mi (a f : Bool) : MountIn := { (default : MountIn) with selfA := a, flowOk := f, bodyStepOk := true }
def noConf : State := { State.reset with nvm := { State.reset.nvm with confs := [none, none] } }
theorem wit_mount : State.reset.pcd.heldOff = false ∧ State.reset.pcd.standby = true ∧ State.reset.pcd.nvmIso = false ∧ State.reset.pcd.stageDone = 0 ∧
    State.reset.slotConf false = some Conf.shipped ∧ State.reset.slotConf true = none ∧ State.reset.slotImage false = some FwImage.shipped ∧ State.reset.slotImage true = none ∧
    Conf.shipped.minSvn ≤ FwImage.shipped.svn ∧ noConf.slotConf false = none ∧ noConf.slotConf true = none ∧ stays (.mount (mi true true)) up = true ∧
    ran (.mount (mi false true)) State.reset (fun t => t.pcd.heldOff && decide (t.nvm.bseq = 1)) = true ∧
    ran (.mount (mi true true)) noConf (fun t => t.pcd.heldOff && t.rgB nodePc PC_BRINGUP_STATUS 3) = true := by decide +kernel
theorem wit_mount_conf : State.reset.confCheck Conf.shipped = true := by decide +kernel
theorem wit_mount_done : ran (.mount (mi true true)) State.reset (fun t => decide (t.pcd.stageDone = 1 ∧ t.pcd.conf = some Conf.shipped ∧ t.nvm.bseq = 1)) = true := by decide +kernel
theorem wit_stages : (Instr.roughOut default).wf = true ∧ (Instr.truing default).wf = true ∧ (Instr.shaping default).wf = true ∧ (Instr.finishing default).wf = true ∧
    up.pcd.heldOff = false ∧ stays (.roughOut default) up = true ∧ stays (.truing default) up = true ∧ stays (.shaping default) up = true ∧ stays (.finishing default) up = true ∧
    (default : RoughIn).noRsd = [] ∧ State.reset.pcd.stageDone ≠ 1 := by decide +kernel
theorem wit_finishing : ran (.finishing { (default : FinIn) with ptp := some 99 }) { up1 with pcd := { up1.pcd with stageDone := 4 } } (fun t =>
    decide (t.pcd.stageDone = 5 ∧ t.pcd.stat = 2 ∧ t.pcd.sealed = true ∧ t.ptc16 = 99) && t.rgB nodePc PC_BRINGUP_STATUS 48) = true := by decide +kernel

def oweS (off : Bool) : State := up1.setPart 0 { up1.part 0 with retrue := 1, off := off }
theorem wit_reTrue : up1.partOfRegion 1 = none ∧ up1.partOfRegion 0 = some 0 ∧ up1.regionOn 0 = true ∧ (Instr.reTrue 0 default).wf = true ∧ ((oweS false).part 0).retrue.testBit 0 = true ∧
    stays (.reTrue 1 default) up1 = true ∧ stays (.reTrue 0 default) up1 = true ∧ stays (.reTrue 0 default) (oweS true) = true := by decide +kernel
theorem wit_reTrue_fails : (default : TestIn).ok = false ∧ ran (.reTrue 0 default) (oweS false) (fun t => (t.part 0).off && decide ((t.part 0).retrue = 0)) = true := by decide +kernel
/-- A re-true that leaves one die of the partition, the other routers of its region being out. -/
def okT : TestIn := { (default : TestIn) with ok := true, badRouters := (regionNodes 0).filter (fun n => decide (n < 576 ∧ n ≠ 1)) }
theorem wit_reTrue_passes : okT.ok = true ∧ (Instr.reTrue 0 okT).wf = true ∧ ((oweS false).retrueMapped 0 0 okT).orderless 0 = none := by decide +kernel
theorem wit_reTrue_dies : ((oweS false).retrueMapped 0 0 okT).diesOf 0 ≠ [] := by decide +kernel
theorem wit_retrueRequest : let res := fun (k : Nat) (t : State) => decide (t.rgF nodePc PC_RETRUE_CTRL 3 0 = 0 ∧ t.rgF nodePc PC_RETRUE_CTRL 30 28 = k)
    up1.loaded 0 = false ∧ (ctxS false false).loaded 0 = true ∧ ran (.retrueRequest 0) up1 (fun t => res 1 t && decide ((t.part 0).retrue = 1)) = true ∧
      ran (.retrueRequest 0) (ctxS false false) (res 2) = true ∧ ran (.retrueRequest 0) (oweS true) (res 3) = true ∧
      ran (.retrueRequest 1) up1 (fun t => decide (t.rgF nodePc PC_RETRUE_CTRL 30 28 = 3)) = true := by decide +kernel
theorem wit_effecter : Source.pcd ≠ .mgmt ∧ up.toRegister .pcd (pcReg PC_EVT_ACK).toNat 4 736 PC_EVT_ACK (rowOf 736 PC_EVT_ACK 4) ∧
    up.toRegister .pcd (pcReg PC_RETRUE_CTRL).toNat 4 736 PC_RETRUE_CTRL (rowOf 736 PC_RETRUE_CTRL 4) ∧ stays (.registerWrite .pcd (pcReg PC_EVT_ACK) 4 ⟨5, 0⟩) up = true :=
  ⟨by decide, reg_pc _ _ (by decide +kernel), reg_pc _ _ (by decide +kernel), by decide +kernel⟩
theorem wit_evtAck : up.mgmtUp = true ∧ ran (.evtAckWrite 0xFFFFFFFF) up (regIs nodePc PC_EVT_ACK (2 ^ 32 - 1)) = true := by decide +kernel

theorem wit_hostPorts : up.pcdWorks false = true ∧ up.pcdWorks true = false ∧ stays (.hostPortUp true) up = true ∧
    ran (.hostPortUp false) (up.setPcd (fun p => { p with repQA := [default] })) (fun t => t.hostPort false && !t.hostPort true && decide (t.pcd.repQA = [])) = true ∧
    ran (.hostPortDown false) (up.setRg nodePc PC_HOST_STATUS 3) (fun t => !t.hostPort false && t.hostPort true) = true := by decide +kernel
theorem wit_fabricDieLoss : (up1.setFd 0 { (default : Fdie) with lost := true }).fdOn 0 = false ∧ stays (.fabricDieLoss 0) (up1.setFd 0 { (default : Fdie) with lost := true }) = true ∧
    up1.fdOn 0 = true ∧ ran (.fabricDieLoss 0) up1 (fun t => !t.fdOn 0 && decide ((t.fd 0).xfers = [])) = true := by decide +kernel
theorem wit_roughOut_noRsd : let s := { up1 with pcd := { up1.pcd with stageDone := 1 } }
    s.pcd.heldOff = false ∧ s.partOfRegion 0 = some 0 ∧ (s.part 0).ctxs = [] ∧ ran (.roughOut { (default : RoughIn) with noRsd := [0] }) s (fun t =>
      (t.part 0).off && decide (t.pcd.stageDone = 2 ∧ t.pcd.rsdLost = [0])) = true := by decide +kernel
theorem wit_mount_selfB : ran (.mount { mi false true with selfB := true }) State.reset (fun t => decide (t.pcd.stageDone = 1 ∧ t.nvm.bseq = 1)) = true := by decide +kernel
def tripped : State := (up1.setRgB (nodeRs 0) RS_FENCE 63 true)
theorem wit_rsdLoss : ran (.rsdLoss 0) (oweS true) (fun t => decide (t = (oweS true).setPcd (fun x => { x with rsdLost := insUniq 0 x.rsdLost }))) = true ∧
    ran (.rsdLoss 1) up1 (fun t => decide (t.pcd.rsdLost = [1])) = true ∧ stays (.regionOvercurrent 0) tripped = true ∧ (up1.part 0).off = false ∧ 0 < up1.cutRegions ∧ up1.rgB (nodeRs 0) RS_FENCE 63 = false ∧ (up1.part 0).ctxs = [] ∧
    ran (.rsdLoss 0) up1 (fun t => (t.part 0).off && !t.regionOn 0 && !t.nodeOn (nodeRs 0) && decide (t.pcd.rsdLost = [0])) = true := by decide +kernel
theorem wit_overcurrent : ran (.regionOvercurrent 0) up1 (fun t => t.rgB (nodeRs 0) RS_FENCE 63 && t.rgB (nodeRs 0) RS_FENCE 62 && !t.regionOn 0 && !t.coreOn 1) = true := by decide +kernel
theorem wit_railLoss : ran .standbyRailLoss usedS (fun t => decide (t.mds = [] ∧ t.sess = [] ∧ t.pcd.standby = false ∧ t.nvm.bseq = 0)) = true := by decide +kernel

-- Supply, power, heat, coolant ----------------------------------------------------------------------------------------------------------

def deadS : State := { State.reset with pcd := { State.reset.pcd with standby := false } }
theorem wit_supply_dark : deadS.pcd.standby = false ∧ stays (.inputVoltageWarn 4300 4800) deadS = true ∧ stays .inputUndervoltage deadS = true ∧ stays .inputOvervoltage deadS = true ∧
    stays (.busPairLost true) deadS = true ∧ stays .powerGuardTrip deadS = true := by decide +kernel
theorem wit_supply_record : up.canRecord 0x5305 ∧ up.canRecord 0x5304 ∧ up1.canRecord 0x5302 ∧ up.canRecord 0x11C1 :=
  ⟨canRec (by decide +kernel) rfl _, canRec (by decide +kernel) rfl _, canRec (by decide +kernel) rfl _, canRec (by decide +kernel) rfl _⟩
theorem wit_voltage_low : ran (.inputVoltageWarn 70000 3999) up1 (fun t => !t.rgB nodePc PC_PWR_STATUS 0 && decide (t.rgF nodePc PC_PWR_STATUS 63 48 = 4464)) = true := by
  decide +kernel
theorem wit_voltage : ran (.inputVoltageWarn 4399 4800) up1 (fun t => t.rgB nodePc PC_PWR_STATUS 0 && decide (t.rgF nodePc PC_PWR_STATUS 63 48 = 4399 ∧ t.rgF nodePc PC_PWR_STATUS 47 32 = 4800 ∧
      t.evtPending = 1)) = true ∧
    ran (.inputVoltageWarn 4400 5800) up1 (fun t => !t.rgB nodePc PC_PWR_STATUS 0 && decide (t.evtPending = 0)) = true ∧
    ran (.inputVoltageWarn 5801 4800) up1 (fun t => t.rgB nodePc PC_PWR_STATUS 0) = true := by decide +kernel
theorem wit_pairs : ran (.busPairLost true) up1 (fun t => t.pcd.pairB && !t.pcd.pairA && decide (t.evtPending = 1)) = true ∧
    stays (.busPairLost true) (up1.setPcd (fun p => { p with pairA := true })) = true ∧ ran (.busPairRestored true) (up1.setPcd (fun p => { p with pairB := true })) (fun t => !t.pcd.pairB) = true := by
  decide +kernel
theorem wit_undervoltage : ran .inputUndervoltage up1 (fun t => t.pcd.heldOff && decide (t.pcd.stat = 3) && t.rgB (nodeRs 15) RS_FENCE 63 && !t.regionOn 0) = true := by decide +kernel
theorem wit_overvoltage : ran .inputOvervoltage up1 (fun t => !t.pcd.standby && decide ((t.nvm.events.getLast?).map (fun e : Event => e.code) = some 0x4301)) = true := by decide +kernel
def restS (n : Nat) : State := up1.setPart 0 { up1.part 0 with prest := n, ceil := 15 }
theorem wit_powerLoop : up1.partsOn = [0] ∧ up1.limitW 0 = 34880 ∧
    ran (.powerLoopUpdate 65535 [(0, 34881, 1)]) (restS 45) (fun t => decide ((t.part 0).prest = 48 ∧ t.rgF nodePc PC_PWR_STATUS 31 16 = 65535 ∧ t.rg (nodeRs 0) RS_PWR = 34881 * 65536 + 1 ∧ t.rg (nodeRs 1) RS_PWR = 0)) = true ∧
    ran (.powerLoopUpdate 5 [(0, 34880, 1)]) (restS 45) (fun t => decide ((t.part 0).prest = 45)) = true ∧ ran (.powerLoopUpdate 5 [(0, 33136, 1)]) (restS 45) (fun t => decide ((t.part 0).prest = 45)) = true ∧
    ran (.powerLoopUpdate 5 [(0, 33135, 1)]) (restS 45) (fun t => decide ((t.part 0).prest = 44)) = true := by decide +kernel
theorem wit_guard : ran .powerGuardTrip up1 (fun t => regIs nodePc PC_PWR_GUARD 1 t && decide (32 ≤ t.restOf 1)) = true ∧
    ran .guardHoldEnd (up1.setPcd (fun p => { p with guardOn := true })) (fun t => !t.pcd.guardOn && decide (t.restOf 1 = 0)) = true := by decide +kernel
theorem wit_ceiling : stays (.stepCeilingUpdate 15) up1 = true ∧ ran (.stepCeilingUpdate 0) (restS 1) (fun t => decide ((t.part 0).ceil = 15 ∧ t.evtPending = 1)) = true ∧
    up1.diesOf 0 = [1] ∧ (restS 0).restOf 1 = 0 ∧ ran (.stepCeilingUpdate 0) (restS 0) (fun t => decide ((t.part 0).ceil = 14)) = true ∧
    stays (.stepCeilingUpdate 0) ((restS 0).setRg (nodeRs 0) RS_PWR (29648 * 65536)) = true := by decide +kernel

def pw (f : Part → Part) : State := up1.setPart 0 (f (up1.part 0))
theorem wit_warmHold : (pw (fun p => { p with pstate := 1 })).hintOf 0 = none ∧ (pw (fun p => { p with pstate := 1 })).partQuiet 0 = true ∧
    ran (.warmHoldEnter 0) (pw (fun p => { p with pstate := 1 })) (fun t => decide ((t.part 0).pstate = 2 ∧ (t.part 0).entering = true)) = true ∧
    stays (.warmHoldEnter 0) up1 = true ∧ ran (.powerWake 0) (pw (fun p => { p with pstate := 3, entering := true })) (fun t => (t.part 0).waking && !(t.part 0).entering) = true ∧
    stays (.powerWake 0) up1 = true ∧ stays (.powerEntryComplete 0) up1 = true ∧
    ran (.powerEntryComplete 0) (pw (fun p => { p with pstate := 2, entering := true })) (fun t => !(t.part 0).entering && !(t.part 0).dozed) = true := by decide +kernel
theorem wit_doze : ran (.powerEntryComplete 0) ((pw (fun p => { p with pstate := 3, entering := true })).modDie 1 (fun x => { x with synth := 9 })) (fun t =>
    (t.part 0).dozed && decide (t.rgF (nodeRs 0) RS_FENCE 35 0 = 2 ^ 36 - 1 ∧ (t.die 1).synth = 0)) = true := by decide +kernel
theorem wit_wakeComplete : let s := ((pw (fun p => { p with pstate := 2, waking := true })).modDie 1 (fun x => { x with synth := 9 })).setSession 0 (open0 [SItem.fresh (wi 0x21 7)])
    (s.part 0).run = none ∧ (s.part 0).ctxs = [] ∧ 0 ∈ sessionsOf 0 ∧ (s.session 0).items ≠ [] ∧ stays (.powerWakeComplete 0) up1 = true ∧
      ran (.powerWakeComplete 0) s (fun t => decide ((t.part 0).pstate = 0 ∧ (t.part 0).waking = false ∧ (t.die 1).synth = 0)) = true := by decide +kernel
theorem wit_wakeHold : let s := pw (fun p => { p with pstate := 2, waking := true })
    (s.part 0).off = false ∧ s.hintOf 0 = none ∧ s.partQuiet 0 = true ∧ (∀ k ∈ sessionsOf 0, (s.session k).items = []) ∧
      ran (.powerWakeComplete 0) s (fun t => decide ((t.part 0).pstate = 1 ∧ (t.part 0).waking = false)) = true := by decide +kernel
theorem wit_wakeDoze : let d := (pw (fun p => { p with pstate := 3, waking := true, dozed := true })).setRgF (nodeRs 0) RS_FENCE 35 0 (2 ^ 36 - 1)
    let s := d.setSession 0 (open0 [SItem.fresh (wi 0x21 7)])
    s.pcd.fencedSites = [] ∧ (s.part 0).dozeSaved = [] ∧ (s.session 0).items ≠ [] ∧ ran (.powerWakeComplete 0) s (fun t =>
      decide ((t.part 0).pstate = 0 ∧ (t.part 0).dozed = false ∧ t.rgF (nodeRs 0) RS_FENCE 35 0 = 0)) = true := by decide +kernel
theorem wit_dozeSaved : let s := (ctxS false false).setPart 0 { (ctxS false false).part 0 with pstate := 3, entering := true }
    (s.ctxInForce 0).isSome = true ∧ ran (.powerEntryComplete 0) s (fun t => decide (((t.part 0).dozeSaved.map (·.1)) = ((s.ctxInForce 0).map (fun x => (s.saveDies 0 x.2).map (·.1))).getD [])) = true := by
  decide +kernel
theorem wit_warmLoad : let s := fun (n : Nat) => ((pw (fun p => { p with pstate := 2 })).setRg 1 CD_THERM n).modDie 1 (fun x => { x with synth := 20 })
    (s 375).warmHeld 1 = true ∧ up1.warmHeld 1 = false ∧ (s 375).dieTemp 1 = 375 ∧ ((s 375).die 1).synth = 20 := by decide +kernel

theorem wit_sensor : up1.coreOn 1 = true ∧ up1.mdOn 127 = true ∧
    ran (.sensorSample [{ node := 1, t0 := 800, t1 := 1201, t2 := -160 }]) up1 (fun t => regIs 1 CD_THERM_RAW (0xFF60 * 2 ^ 32 + 1201 * 2 ^ 16 + 800) t && decide (t.dieTemp 1 = 800)) = true ∧
    ran (.sensorSample [{ node := 1, t0 := 1201, t1 := 1201, t2 := -161 }]) up1 (fun t => t.rgB 1 CD_THERM 27 && decide (t.dieTemp 1 = 760)) = true ∧
    ran (.sensorSample [{ node := 703, t0 := -161, t1 := 600, t2 := 0 }]) up1 (fun t => decide (t.mdTemp 127 = 600)) = true := by decide +kernel
theorem wit_tooHot : let s := up1.modDie 1 (fun x => { x with hotCnt := 9 })
    up1.partOfNode 1 = some 0 ∧ regionOfNode 1 = some 0 ∧ (∀ k, k < 3 → (s.rg 1 CD_THERM).testBit (28 + k) = false) ∧
      ran (.sensorSample [{ node := 1, t0 := 840, t1 := 1200, t2 := 840 }]) s (fun t => !t.regionOn 0 && (sfind t.pcd.heatOff 0).isSome && (t.part 0).retrue.testBit 0) = true := by
  decide +kernel
def hotDie (n : Nat) : State := (up1.setRg 1 CD_THERM n).modDie 1 (fun x => { x with trest := 45, namedEver := true })
theorem wit_throttle : (hotDie 760).hottestDie 0 = some 1 ∧ (hotDie 759).hottestDie 0 = none ∧ up1.partOfNode 1 = some 0 := by decide +kernel
theorem wit_heatBack : stays (.heatRegionRestore 15) up1 = true ∧
    ran (.heatRegionRestore 15) ((up1.setRgB (nodeRs 15) RS_FENCE 63 true).setPcd (fun p => { p with heatOff := [(15, 0)] })) (fun t => !t.rgB (nodeRs 15) RS_FENCE 63 && decide (t.pcd.heatOff = [])) = true := by
  decide +kernel
theorem wit_coolant : stays (.coolantEval 1 1 1 true) deadS = true ∧ up1.rgF nodePc PC_COOLANT 19 16 ≠ 5 ∧ stays (.coolantEval 1 1 1 true) (up1.setRgF nodePc PC_COOLANT 19 16 5) = true ∧
    ran (.coolantEval 5000 200 (-1) true) up1 (fun t => decide (t.rgF nodePc PC_COOLANT 63 48 = 5000 ∧ t.rgF nodePc PC_COOLANT 47 36 = 200 ∧ t.rgF nodePc PC_COOLANT 35 24 = 4095 ∧
      t.rgF nodePc PC_COOLANT 15 8 = 128) && t.rgB nodePc PC_COOLANT 0) = true ∧
    ran (.coolantEval 2999 200 200 true) up1 (fun t => decide ((sfind t.pcd.rowOff 2).isSome = true ∧ t.rgF nodePc PC_COOLANT 15 8 = 127)) = true := by decide +kernel
theorem wit_coolStop : stays .coolantStopDeadline up1 = true ∧ (∀ p < 16, (up1.part p).ctxs = []) ∧
    ran .coolantStopDeadline (up1.setPcd (fun p => { p with deadline := some 9 })) (fun t => decide (t.rgF nodePc PC_COOLANT 19 16 = 4 ∧ t.pcd.deadline = none ∧ (t.part 0).pstate = 3 ∧
      (t.part 0).entering = true)) = true := by decide +kernel
theorem test_coolStopJobs : ran .coolantStopDeadline ((ctxS false true).setPcd (fun p => { p with deadline := some 9 })) (fun t =>
    decide ((t.part 0).run = none) && (t.part 0).ctxs.all (fun e => decide (e.2.st ≠ .ready) && decide (e.2.st ≠ .running))) = true := by decide +kernel
theorem wit_suddenLoss : ran (.coolantSuddenLoss false) up1 (fun t => t.pcd.heldOff && decide (t.rgF nodePc PC_COOLANT 19 16 = 5) && !t.regionOn 0 && (t.fd 15).lost) = true := by decide +kernel
theorem wit_overtemp : let s := up1.setPcd (fun p => { p with standbyOk := true })
    up1.pcdWorks true = false ∧ stays (.pcdOvertemp true) up1 = true ∧ s.pcdWorks true = true ∧ s.pcd.activeB ≠ true ∧ (∀ p < 16, (s.part p).run = none) ∧
      ran (.pcdOvertemp true) s (fun t => !t.pcd.standbyOk && !t.pcd.activeB && decide (t.nvm.events.length = 1)) = true := by decide +kernel
theorem wit_overtemp_alone : up1.pcdWorks false = true ∧ up1.pcd.standbyOk = false ∧ ran (.pcdOvertemp false) up1 (fun t => t.pcd.heldOff && decide (t.nvm.events.length = 1)) = true := by
  decide +kernel
theorem wit_overtemp_active : ran (.pcdOvertemp false) (up1.setPcd (fun p => { p with standbyOk := true })) (fun t => !t.pcd.standbyOk && t.pcd.activeB) = true := by decide +kernel

-- Management, the module -----------------------------------------------------------------------------------------------------------------

def answersM (i : Instr) (s : State) (m : MgmtOut) : Bool := ran i s (fun t => decide (t.out = [.mgmt m]))
def upd : State := up1.setPcd (fun p => { p with updating := true })
theorem wit_mgmt : State.reset.mgmtUp = false ∧ stays .requestUpdate State.reset = true ∧ stays (.setEndpointId 5) State.reset = true ∧ up1.mgmtUp = true ∧
    answersM .requestUpdate up1 .updateOpen = true ∧ answersM .requestUpdate upd .alreadyInUpdateMode = true ∧ answersM .activateFirmware upd .activated = true ∧
    answersM .getVersion up1 .version = true ∧ answersM (.getCertificate 1) up1 .unsupported = true ∧ answersM (.challenge 0) up1 .challengeAuth = true ∧
    answersM (.getMeasurements 7) up1 .busy = true ∧ answersM (.getMeasurements 7) (up1.setPcd (fun p => { p with sealed := true })) (.measurements 7 [.ids (up1.regVal nodePc PC_PART_ID) 0]) = true ∧
    answersM (.getMeasurements 8) (up1.setPcd (fun p => { p with sealed := true })) .unsupported = true ∧ ran (.setEndpointId 255) up1 (fun t => decide (t.pcd.eid = 255)) = true := by decide +kernel
theorem wit_evtAck_frees : ran (.evtAckWrite 4) ((up1.setRg nodePc PC_EVT_NEXT 6).setRgF nodePc PC_EVT_STATUS 10 0 3) (fun t => decide (t.evtPending = 1)) = true := by decide +kernel
def fw2 : FwImage := { FwImage.shipped with seq := 2 }
theorem wit_update : stays (.updateComponent (.image fw2)) up1 = true ∧ upd.pcd.conf.isSome = true ∧ upd.pcd.imageB = false ∧ upd.nvm.ok1 = true ∧ upd.nvm.images.length = 2 ∧
    (fwImageOk fw2 && decide (0 ≤ fw2.svn) && seqHigher fw2.seq (upd.seqInUse false)) = true ∧
    ran (.updateComponent (.image fw2)) upd (fun t => t.pcd.stagedFw && decide (t.nvm.images = [some FwImage.shipped, some fw2] ∧ .mgmt (.staged false) ∈ t.out ∧ t.evtPending = 1)) = true ∧
    ran (.updateComponent (.image FwImage.shipped)) upd (fun t => !t.pcd.stagedFw && regIs nodePc PC_UPDATE_REJECT 1 t && decide (.mgmt (.rejected false) ∈ t.out ∧ t.evtPending = 1)) = true := by
  decide +kernel
theorem wit_update_noDevice : let s := { upd with nvm := { upd.nvm with ok1 := false } }
    ran (.updateComponent (.image fw2)) s (fun t => !t.pcd.stagedFw && decide (.mgmt (.rejected false) ∈ t.out ∧ t.nvm.images = upd.nvm.images)) = true := by decide +kernel
def conf2 : Conf := { Conf.shipped with seq := 2 }
theorem wit_update_config : upd.nvm.confs.length = 2 ∧ upd.pcd.confB = false ∧ confValid upd.nvm.owner conf2 = true ∧ seqHigher conf2.seq (upd.seqInUse true) = true ∧
    ran (.updateComponent (.config conf2)) upd (fun t => t.pcd.stagedCfg && decide (t.nvm.confs[1]? = some (some conf2) ∧ .mgmt (.staged true) ∈ t.out)) = true ∧
    ran (.updateComponent (.config Conf.shipped)) upd (fun t => !t.pcd.stagedCfg && decide (.mgmt (.rejected true) ∈ t.out)) = true := by decide +kernel
theorem wit_nvmFail_again : stays (.nvmDeviceFail 0) { up1 with nvm := { up1.nvm with ok0 := false } } = true := by decide +kernel
theorem wit_nvmFail : ran (.nvmDeviceFail 0) up1 (fun t => !t.nvm.ok0 && t.nvm.ok1 && decide (t.slotImage false = none ∧ t.evtPending = 1)) = true := by decide +kernel
theorem wit_telemetry : let s := up1.setPcd (fun p => { p with conf := some { Conf.shipped with telemetry := some 5 } })
    s.mgmtUp = true ∧ stays (.telemetrySend []) { up1 with pcd := { up1.pcd with conf := none } } = true ∧
    s.pcd.conf = some { Conf.shipped with telemetry := some 5 } ∧ ({ Conf.shipped with telemetry := some 5 } : Conf).telemetry.isSome = true := by decide +kernel
def outS' : State := { State.reset with pcd := { State.reset.pcd with inputClosed := false, standby := false, seated := false } }
theorem wit_module : stays (.moduleInsert 4800 4800 true) up1 = true ∧ ran (.moduleInsert 4000 4000 true) outS' (fun t => t.pcd.seated && t.pcd.precharge) = true ∧
    ran (.moduleInsert 4000 3999 true) outS' (fun t => t.pcd.seated && !t.pcd.precharge) = true ∧ stays .inputSwitchClose outS' = true ∧
    ran .inputSwitchClose (outS'.setPcd (fun p => { p with precharge := true })) (fun t => t.pcd.inputClosed && t.pcd.standby && decide (t.pcd.stat = 1 ∧ t.pcd.stageDone = 0)) = true ∧
    ran .moduleWithdraw usedS (fun t => !t.pcd.seated && !t.pcd.standby && decide (t.mds = [])) = true ∧
    ran .moduleWithdraw (outS'.setPcd (fun p => { p with precharge := true })) (fun t => !t.pcd.precharge) = true ∧
    ran .statusLatchTimeout State.reset (fun t => decide (t.pcd.stat = 3)) = true ∧ stays .statusLatchTimeout up1 = true := by decide +kernel

end Sys2Proof.Tests
end

section
/-! Every step keeps the fuses, the entries of the field knot log and the canonical form of every memory (spec/15 R437, R438). -/

namespace Sys2Proof.Machine

/-- The meaning of every command keeps the fuses, the entries of the knot log and the canonical form of the memories. -/
theorem kept_exec {F : Fuses} {L : List Knot} {s t : State} (hk : Kept F L s) (i : Instr) (he : exec i s = .next t) : Kept F L t := by
  cases i with
  | registerWrite src addr width val => exact kept_execRegisterWrite hk src addr width val he
  | registerReadClear src addr width coincident => exact kept_execRegisterReadClear hk src addr width coincident he
  | faultRecordRearm src addr val => exact kept_execFaultRecordRearm hk src addr val he
  | badAccessTallyReport node => exact kept_execBadAccessTallyReport hk node he
  | srSeedWrite src site core seed => exact kept_execSrSeedWrite hk src site core seed he
  | mcNop die core rsv => exact kept_execMcNop hk die core rsv he
  | loadw die core c => exact kept_execLoadw hk die core c he
  | loadwShadowReady die core => exact kept_execLoadwShadowReady hk die core he
  | readout die core c => exact kept_execReadout hk die core c he
  | zero die core c => exact kept_execZero hk die core c he
  | reduceSend die core c => exact kept_execReduceSend hk die core c he
  | reduceAdd die core c => exact kept_execReduceAdd hk die core c he
  | reduceAddsend die core c => exact kept_execReduceAddsend hk die core c he
  | mcInjectArm src site val => exact kept_execMcInjectArm hk src site val he
  | scrNop die rsv => exact kept_execScrNop hk die rsv he
  | norm die c => exact kept_execNorm hk die c he
  | softmax die c => exact kept_execSoftmax hk die c he
  | normb die c => exact kept_execNormb hk die c he
  | softmaxb die c => exact kept_execSoftmaxb hk die c he
  | smoveOut die c => exact kept_execSmoveOut hk die c he
  | smoveIn die c => exact kept_execSmoveIn hk die c he
  | smoveClear die c => exact kept_execSmoveClear hk die c he
  | setup die c => exact kept_execSetup hk die c he
  | vnop die v ins => exact kept_execVnop hk die v ins he
  | vld die v ins => exact kept_execVld hk die v ins he
  | vst die v ins => exact kept_execVst hk die v ins he
  | vrecv die v ins => exact kept_execVrecv hk die v ins he
  | vsend die v ins => exact kept_execVsend hk die v ins he
  | aset die v ar base stp => exact kept_execAset hk die v ar base stp he
  | vadd die v ins => exact kept_execVadd hk die v ins he
  | vsub die v ins => exact kept_execVsub hk die v ins he
  | vmul die v ins => exact kept_execVmul hk die v ins he
  | vfma die v ins => exact kept_execVfma hk die v ins he
  | vfnma die v ins => exact kept_execVfnma hk die v ins he
  | vmin die v ins => exact kept_execVmin hk die v ins he
  | vmax die v ins => exact kept_execVmax hk die v ins he
  | vdiv die v ins => exact kept_execVdiv hk die v ins he
  | vsqrt die v ins => exact kept_execVsqrt hk die v ins he
  | vcvt die v ins => exact kept_execVcvt hk die v ins he
  | vcvti die v ins => exact kept_execVcvti hk die v ins he
  | vldi die v ins => exact kept_execVldi hk die v ins he
  | vcmp die v ins => exact kept_execVcmp hk die v ins he
  | vsel die v ins => exact kept_execVsel hk die v ins he
  | viadd die v ins => exact kept_execViadd hk die v ins he
  | visub die v ins => exact kept_execVisub hk die v ins he
  | vand die v ins => exact kept_execVand hk die v ins he
  | vor die v ins => exact kept_execVor hk die v ins he
  | vxor die v ins => exact kept_execVxor hk die v ins he
  | vshl die v ins => exact kept_execVshl hk die v ins he
  | vshr die v ins => exact kept_execVshr hk die v ins he
  | vredsum die v ins => exact kept_execVredsum hk die v ins he
  | vredmax die v ins => exact kept_execVredmax hk die v ins he
  | vbcast die v ins => exact kept_execVbcast hk die v ins he
  | plArm die sc rd rs1 rs2 => exact kept_execPlArm hk die sc rd rs1 rs2 he
  | plStop die sc rd rs1 => exact kept_execPlStop hk die sc rd rs1 he
  | plStat die sc rd rs1 => exact kept_execPlStat hk die sc rd rs1 he
  | fxStart die sc rd => exact kept_execFxStart hk die sc rd he
  | fxDma die sc rd rs1 rs2 => exact kept_execFxDma hk die sc rd rs1 rs2 he
  | fxDpoll die sc rd rs1 => exact kept_execFxDpoll hk die sc rd rs1 he
  | fxBar die sc rd rs1 => exact kept_execFxBar hk die sc rd rs1 he
  | barrierTimeout die sc => exact kept_execBarrierTimeout hk die sc he
  | fxSpsend die sc rd rs1 rs2 => exact kept_execFxSpsend hk die sc rd rs1 rs2 he
  | fxSprecv die sc rd => exact kept_execFxSprecv hk die sc rd he
  | sCoreTrap die sc => exact kept_execSCoreTrap hk die sc he
  | scCtrlWrite src site sc val => exact kept_execScCtrlWrite hk src site sc val he
  | placeDone die place => exact kept_execPlaceDone hk die place he
  | spadLinearWrite src site val => exact kept_execSpadLinearWrite hk src site val he
  | spadPwrWrite src site val => exact kept_execSpadPwrWrite hk src site val he
  | spadGroupReady die group => exact kept_execSpadGroupReady hk die group he
  | spadScrubStart src site val => exact kept_execSpadScrubStart hk src site val he
  | spadScrubDone die badLine => exact kept_execSpadScrubDone hk die badLine he
  | nonschedAccessGrant die pair => exact kept_execNonschedAccessGrant hk die pair he
  | eccRepairWriteback die pair => exact kept_execEccRepairWriteback hk die pair he
  | tokenDepart die place lane => exact kept_execTokenDepart hk die place lane he
  | tokenArrive die place lane tok sideband payload => exact kept_execTokenArrive hk die place lane tok sideband payload he
  | creditReturn die place lane => exact kept_execCreditReturn hk die place lane he
  | tload die place slot addr => exact kept_execTload hk die place slot addr he
  | tloadComplete die place slot => exact kept_execTloadComplete hk die place slot he
  | turnSwitch die place => exact kept_execTurnSwitch hk die place he
  | placeStart die => exact kept_execPlaceStart hk die he
  | drainForced part => exact kept_execDrainForced hk part he
  | watchdogIdle die => exact kept_execWatchdogIdle hk die he
  | quantumExpire part => exact kept_execQuantumExpire hk part he
  | contextSwitch part => exact kept_execContextSwitch hk part he
  | landingCheck die => exact kept_execLandingCheck hk die he
  | schSnapshot src site val => exact kept_execSchSnapshot hk src site val he
  | schMatchArm src site val => exact kept_execSchMatchArm hk src site val he
  | schMatchResolve die => exact kept_execSchMatchResolve hk die he
  | slowDieEval => exact kept_execSlowDieEval hk he
  | dmaIssue die => exact kept_execDmaIssue hk die he
  | desc md o d => exact kept_execDesc hk md o d he
  | trackerEntryGrant md cls => exact kept_execTrackerEntryGrant hk md cls he
  | transactionTimeout md txid => exact kept_execTransactionTimeout hk md txid he
  | dmaItemComplete md item => exact kept_execDmaItemComplete hk md item he
  | read p => exact kept_execRead hk p he
  | write p => exact kept_execWrite hk p he
  | readData p => exact kept_execReadData hk p he
  | writeAck p => exact kept_execWriteAck hk p he
  | land p => exact kept_execLand hk p he
  | done p => exact kept_execDone hk p he
  | hbmEccWriteback md line => exact kept_execHbmEccWriteback hk md line he
  | hbmPatrol md => exact kept_execHbmPatrol hk md he
  | hbmCorrRateCheck md => exact kept_execHbmCorrRateCheck hk md he
  | stackFail md cause => exact kept_execStackFail hk md cause he
  | hbmCapEval => exact kept_execHbmCapEval hk he
  | mdScrubStart src md val => exact kept_execMdScrubStart hk src md val he
  | mdScrubDone md => exact kept_execMdScrubDone hk md he
  | stripeReceive die side st => exact kept_execStripeReceive hk die side st he
  | dynCodewordReceive node port c => exact kept_execDynCodewordReceive hk node port c he
  | packetHop node out => exact kept_execPacketHop hk node out he
  | spindleForward node port cls e => exact kept_execSpindleForward hk node port cls e he
  | spsend die srcSite payload => exact kept_execSpsend hk die srcSite payload he
  | barArrive node barrier child => exact kept_execBarArrive hk node barrier child he
  | barRelease die barrier => exact kept_execBarRelease hk die barrier he
  | start die cycle => exact kept_execStart hk die cycle he
  | yield die epoch => exact kept_execYield hk die epoch he
  | notice site kind => exact kept_execNotice hk site kind he
  | beacon node payload => exact kept_execBeacon hk node payload he
  | alert a => exact kept_execAlert hk a he
  | regRd node off => exact kept_execRegRd hk node off he
  | regWr node off val => exact kept_execRegWr hk node off val he
  | regRsp node serial => exact kept_execRegRsp hk node serial he
  | alertRepeat node => exact kept_execAlertRepeat hk node he
  | eventMergeFlush code unit => exact kept_execEventMergeFlush hk code unit he
  | doorbell fd ctx val => exact kept_execDoorbell hk fd ctx val he
  | transferPut fd ctx d => exact kept_execTransferPut hk fd ctx d he
  | transferGet fd ctx d => exact kept_execTransferGet hk fd ctx d he
  | transferCput fd ctx d => exact kept_execTransferCput hk fd ctx d he
  | cputStart fd ctx => exact kept_execCputStart hk fd ctx he
  | transferMcast fd ctx d => exact kept_execTransferMcast hk fd ctx d he
  | transferNote fd ctx d => exact kept_execTransferNote hk fd ctx d he
  | put fd h data => exact kept_execPut hk fd h data he
  | get fd h => exact kept_execGet hk fd h he
  | cput fd h data => exact kept_execCput hk fd h data he
  | mcast fd h ranks data => exact kept_execMcast hk fd h ranks data he
  | ack fd h delivered failed => exact kept_execAck hk fd h delivered failed he
  | getData fd h data => exact kept_execGetData hk fd h data he
  | credit fd h limit => exact kept_execCredit hk fd h limit he
  | note fd h data => exact kept_execNote hk fd h data he
  | heartbeat onTwin number mirrored => exact kept_execHeartbeat hk onTwin number mirrored he
  | takeover onTwin => exact kept_execTakeover hk onTwin he
  | requestResendTimeout fd slot => exact kept_execRequestResendTimeout hk fd slot he
  | fabricPortDown fd port => exact kept_execFabricPortDown hk fd port he
  | fabricPortUp fd port => exact kept_execFabricPortUp hk fd port he
  | pfcPauseFrame fd port prio quanta => exact kept_execPfcPauseFrame hk fd port prio quanta he
  | arpRequest fd target => exact kept_execArpRequest hk fd target he
  | neighborSolicitation fd target => exact kept_execNeighborSolicitation hk fd target he
  | ringForward rdst rsrc west vc cls frame => exact kept_execRingForward hk rdst rsrc west vc cls frame he
  | heartbeatSend => exact kept_execHeartbeatSend hk he
  | heartbeatWindowMiss number => exact kept_execHeartbeatWindowMiss hk number he
  | mirrorComplete number => exact kept_execMirrorComplete hk number he
  | opn part slot port sigOk => exact kept_execOpn hk part slot port sigOk he
  | submit sess gen h items => exact kept_execSubmit hk sess gen h items he
  | sdata sess gen h sseq off data => exact kept_execSdata hk sess gen h sseq off data he
  | cplAck sess gen h cseq => exact kept_execCplAck hk sess gen h cseq he
  | close sess gen h => exact kept_execClose hk sess gen h he
  | sessionTimeout sess => exact kept_execSessionTimeout hk sess he
  | cplResend sess => exact kept_execCplResend hk sess he
  | workItemStart sess sseq => exact kept_execWorkItemStart hk sess sseq he
  | itemWrite sess sseq => exact kept_execItemWrite hk sess sseq he
  | writeSdataTimeout sess sseq => exact kept_execWriteSdataTimeout hk sess sseq he
  | itemRead sess sseq => exact kept_execItemRead hk sess sseq he
  | copy sess sseq => exact kept_execCopy hk sess sseq he
  | jobLoad sess sseq img => exact kept_execJobLoad hk sess sseq img he
  | jobStart sess sseq => exact kept_execJobStart hk sess sseq he
  | jobKill sess sseq => exact kept_execJobKill hk sess sseq he
  | checkpoint sess sseq => exact kept_execCheckpoint hk sess sseq he
  | release sess sseq => exact kept_execRelease hk sess sseq he
  | hint sess sseq => exact kept_execHint hk sess sseq he
  | itemNop sess sseq => exact kept_execItemNop hk sess sseq he
  | hintExpire sess => exact kept_execHintExpire hk sess he
  | retentionExpire part ctx => exact kept_execRetentionExpire hk part ctx he
  | referenceLoss node refB => exact kept_execReferenceLoss hk node refB he
  | freqStepStop part => exact kept_execFreqStepStop hk part he
  | freqStepCountLoad part => exact kept_execFreqStepCountLoad hk part he
  | freqStepResume part late => exact kept_execFreqStepResume hk part late he
  | localHoldBegin node mon slack => exact kept_execLocalHoldBegin hk node mon slack he
  | localHoldRelease node => exact kept_execLocalHoldRelease hk node he
  | replicaSlackZero die mon => exact kept_execReplicaSlackZero hk die mon he
  | spindleNodeOut node => exact kept_execSpindleNodeOut hk node he
  | beaconSend => exact kept_execBeaconSend hk he
  | ptpSync frm twoStep offset16 => exact kept_execPtpSync hk frm twoStep offset16 he
  | ptpHoldover => exact kept_execPtpHoldover hk he
  | ptcStepToPtp time16 => exact kept_execPtcStepToPtp hk time16 he
  | resetAssert lowNs => exact kept_execResetAssert hk lowNs he
  | mount ins => exact kept_execMount hk ins he
  | roughOut ins => exact kept_execRoughOut hk ins he
  | truing ins => exact kept_execTruing hk ins he
  | shaping ins => exact kept_execShaping hk ins he
  | finishing ins => exact kept_execFinishing hk ins he
  | reTrue region ins => exact kept_execReTrue hk region ins he
  | retrueRequest region => exact kept_execRetrueRequest hk region he
  | hostPortUp portB => exact kept_execHostPortUp hk portB he
  | activePcdFail => exact kept_execActivePcdFail hk he
  | regionOvercurrent region => exact kept_execRegionOvercurrent hk region he
  | inputVoltageWarn va vb => exact kept_execInputVoltageWarn hk va vb he
  | inputUndervoltage => exact kept_execInputUndervoltage hk he
  | inputOvervoltage => exact kept_execInputOvervoltage hk he
  | busPairLost pairB => exact kept_execBusPairLost hk pairB he
  | busPairRestored pairB => exact kept_execBusPairRestored hk pairB he
  | powerLoopUpdate total watts => exact kept_execPowerLoopUpdate hk total watts he
  | powerGuardTrip => exact kept_execPowerGuardTrip hk he
  | guardHoldEnd => exact kept_execGuardHoldEnd hk he
  | stepCeilingUpdate part => exact kept_execStepCeilingUpdate hk part he
  | warmHoldEnter part => exact kept_execWarmHoldEnter hk part he
  | powerWake part => exact kept_execPowerWake hk part he
  | warmHoldLoadAdjust => exact kept_execWarmHoldLoadAdjust hk he
  | sensorSample readings => exact kept_execSensorSample hk readings he
  | thermalThrottleEval => exact kept_execThermalThrottleEval hk he
  | heatRegionRestore region => exact kept_execHeatRegionRestore hk region he
  | coolantEval flow tin tout psw => exact kept_execCoolantEval hk flow tin tout psw he
  | coolantStopDeadline => exact kept_execCoolantStopDeadline hk he
  | coolantSuddenLoss psw => exact kept_execCoolantSuddenLoss hk psw he
  | pcdOvertemp pcdB => exact kept_execPcdOvertemp hk pcdB he
  | requestUpdate => exact kept_execRequestUpdate hk he
  | updateComponent c => exact kept_execUpdateComponent hk c he
  | activateFirmware => exact kept_execActivateFirmware hk he
  | getVersion => exact kept_execGetVersion hk he
  | getCapabilities => exact kept_execGetCapabilities hk he
  | negotiateAlgorithms => exact kept_execNegotiateAlgorithms hk he
  | getDigests => exact kept_execGetDigests hk he
  | getCertificate slot => exact kept_execGetCertificate hk slot he
  | challenge slot => exact kept_execChallenge hk slot he
  | getMeasurements index => exact kept_execGetMeasurements hk index he
  | setEndpointId eid => exact kept_execSetEndpointId hk eid he
  | evtAckWrite val => exact kept_execEvtAckWrite hk val he
  | resetEffecter val => exact kept_execResetEffecter hk val he
  | telemetrySend m => exact kept_execTelemetrySend hk m he
  | nvmDeviceFail dev => exact kept_execNvmDeviceFail hk dev he
  | moduleInsert va vb j1 => exact kept_execModuleInsert hk va vb j1 he
  | inputSwitchClose => exact kept_execInputSwitchClose hk he
  | moduleWithdraw => exact kept_execModuleWithdraw hk he
  | nvmIsolate iso => exact kept_execNvmIsolate hk iso he
  | statusLatchTimeout => exact kept_execStatusLatchTimeout hk he
  | fread p => exact kept_execFread hk p he
  | freadData p => exact kept_execFreadData hk p he
  | fwrite p => exact kept_execFwrite hk p he
  | fwriteAck p => exact kept_execFwriteAck hk p he
  | sCoreMemoryAccess die sc kind pa width reg => exact kept_execSCoreMemoryAccess hk die sc kind pa width reg he
  | drainedReport die => exact kept_execDrainedReport hk die he
  | ringPortDown east => exact kept_execRingPortDown hk east he
  | ringPortUp east => exact kept_execRingPortUp hk east he
  | twinLinkDown => exact kept_execTwinLinkDown hk he
  | twinLinkUp => exact kept_execTwinLinkUp hk he
  | hostPortDown portB => exact kept_execHostPortDown hk portB he
  | referenceRestored node refB => exact kept_execReferenceRestored hk node refB he
  | standbyRailLoss => exact kept_execStandbyRailLoss hk he
  | fabricDieLoss fd => exact kept_execFabricDieLoss hk fd he
  | rsdLoss region => exact kept_execRsdLoss hk region he
  | powerWakeComplete part => exact kept_execPowerWakeComplete hk part he
  | powerEntryComplete part => exact kept_execPowerEntryComplete hk part he
  | ptpFollowUp m => exact kept_execPtpFollowUp hk m he
  | ptpDelayResp m => exact kept_execPtpDelayResp hk m he
  | ptpAnnounce m => exact kept_execPtpAnnounce hk m he
  | arpReply fd mac => exact kept_execArpReply hk fd mac he

/-- One step, of a command or of panel time, keeps what Kept names. -/
theorem kept_step {F : Fuses} {L : List Knot} {s t : State} (h : Kept F L s) (e : step s = .next t) : Kept F L t := by
  unfold step at e
  split at e
  · cases e
    exact kept_tick h
  · exact kept_exec (kept_wpending h) _ e

/-- Settles O6: `Kept` with the fuses and the log of the state before the step holds of that state, and the step keeps it. -/
theorem stepKeepsFusesAndKnots : Obligations.StepKeepsFusesAndKnots := by
  intro s t hs e
  have h : Kept s.fuses s.nvm.knots s := ⟨rfl, List.prefix_rfl, hs⟩
  obtain ⟨fuses, log, -⟩ := kept_step h e
  exact ⟨fuses, log⟩

end Sys2Proof.Machine
end

section
/-! A step on an empty queue (spec/14 R405, R418; log entry 8). -/

namespace Sys2Proof.Machine

/-- A fold whose every step leaves the state it starts from ends there. -/
theorem foldl_eq_self {α : Type} {f : State → α → State} {l : List α} {s : State} (h : ∀ a ∈ l, f s a = s) : l.foldl f s = s :=
  List.foldlRecOn (motive := (· = s)) l f rfl (fun b hb a ha => by rw [hb]; exact h a ha)

/-- A panel time of rate 0, with no fraction pending, gains one nanosecond; beside it only the PCD changes. -/
theorem State.timeTick_of_rate_zero {s : State} (hf : s.pcd.ptcFrac = 0) (hr : s.rg nodePc PC_PTP_RATE = 0) :
    ∃ err slew, s.timeTick = { s with ptc16 := s.ptc16 + 16 }.setPcd (fun p => { p with ptcFrac := 0, ptcErr := err, ptcSlew := slew }) := by
  have rate : signedOf 32 0 = 0 := by decide
  have now : ((s.ptc16 : Int) + 16).toNat = s.ptc16 + 16 := by omega
  unfold State.timeTick
  simp only [hf, hr, rate, Int.mul_zero, Int.add_zero, Int.zero_ediv, Int.zero_emod, now]
  exact ⟨_, _, rfl⟩

/-- A partition that has not come up has no fabric cycle. -/
theorem State.partTick_of_no_stacks {s : State} {p : Nat} (h : (s.part p).stackList = []) : s.partTick p = s := by
  unfold State.partTick
  rw [if_pos h]

/-- A tick in which no partition has a cycle, no fabric die or host port has anything to send and no second ends is the tick of
panel time alone. -/
theorem State.tick_of_quiet {s : State} (hs : s.pcd.standby = true) (hi : s.pcd.nvmIso = false)
    (hp : ∀ p < 16, (s.timeTick.part p).stackList = []) (hd : ∀ e ∈ s.timeTick.fds, e.2.txq = [] ∧ e.2.rxOff = [])
    (hh : s.timeTick.pcd.hostTxq = []) (hc : s.ptc16 / 16000000000 = s.timeTick.ptc16 / 16000000000) : s.tick = s.timeTick := by
  have parts : (List.range 16).foldl (fun t p => t.partTick p) s.timeTick = s.timeTick :=
    foldl_eq_self (fun p h => State.partTick_of_no_stacks (hp p (List.mem_range.1 h)))
  have dies : s.timeTick.fds.foldl (fun (t : State) e =>
      let u := if e.2.txq.isEmpty then t else t.txFlush e.1
      if e.2.rxOff.isEmpty then u else u.rxSync e.1) s.timeTick = s.timeTick :=
    foldl_eq_self (fun e he => by simp [hd e he])
  unfold State.tick
  simp only [hs, hi, Bool.not_false, Bool.and_self, if_true, parts, hh, List.isEmpty_nil, dies, hc, Nat.lt_irrefl, if_false]

/-- Without standby supply, or with NVM_ISO asserted, no time passes. -/
theorem State.tick_of_unpowered {s : State} (h : s.pcd.standby = false ∨ s.pcd.nvmIso = true) : s.tick = s := by
  unfold State.tick
  rcases h with h | h <;> simp [h]

/-- A step on an empty queue is one tick. -/
theorem step_of_empty_queue {s : State} (h : s.pending = []) : step s = .next s.tick := by
  unfold step
  rw [h]

/-- Settles O2: with no rate, no partition up and nothing to send, a tick is its panel time alone. -/
theorem emptyQueueIsOneTick : Obligations.EmptyQueueIsOneTick := by
  intro s hq
  rw [step_of_empty_queue hq]
  refine ⟨fun h => by rw [State.tick_of_unpowered h], fun hs hi hp hd hh hf hr hc => ?_⟩
  obtain ⟨err, slew, time⟩ := State.timeTick_of_rate_zero hf hr
  have tick : s.tick = s.timeTick := by
    apply State.tick_of_quiet hs hi <;> rw [time]
    · exact hp
    · exact hd
    · exact hh
    · exact hc
  refine ⟨_, rfl, ?_⟩
  rw [tick, time]
  exact ⟨rfl, rfl, rfl, rfl, rfl, rfl, rfl, rfl, rfl, rfl, hq⟩

end Sys2Proof.Machine
end

section
/-! Register accesses that reach a listed register, a fault record, a reserved location or nothing, and the tally of refusals
(spec/00 R18-R22). -/

namespace Sys2Proof.Machine

/-- The reading of a fault record's registers: none outside the compute and memory dies. -/
theorem recordRest_of_le {node off : Nat} (h : 704 ≤ node) : recordRest node off = none := by
  unfold recordRest
  rw [if_neg (by omega), if_neg (by omega)]

/-- A register without statements of its own heads no fault record. -/
theorem recordRest_of_not_special {node off : Nat} (h : specialReg node off = false) : recordRest node off = none := by
  rcases Nat.lt_or_ge node 704 with hn | hn
  · unfold specialReg at h
    by_cases hd : node < 576
    · simp only [hd, if_true, Bool.or_eq_false_iff, Option.isSome_eq_false_iff, Option.isNone_iff_eq_none] at h
      exact h.2
    · simp only [hd, if_false, hn, if_true, Bool.or_eq_false_iff, Option.isSome_eq_false_iff, Option.isNone_iff_eq_none] at h
      exact h.2
  · exact recordRest_of_le hn

/-- A plain register after a write of v: RW bits take the value, W1C bits written as 1 clear. -/
def RegRow.written (r : RegRow) (raw v : Nat) : Nat := dropBits (dropBits raw r.rw ||| (v &&& r.rw)) (v &&& r.w1c)

theorem testBit_dropBits (x m k : Nat) : (dropBits x m).testBit k = (x.testBit k && !m.testBit k) := sub_and_testBit k x m

/-- Each bit of a plain register after a write. -/
theorem RegRow.testBit_written (r : RegRow) (raw v k : Nat) :
    (r.written raw v).testBit k =
      if v.testBit k && r.w1c.testBit k then false else if r.rw.testBit k then v.testBit k else raw.testBit k := by
  unfold RegRow.written
  simp only [testBit_dropBits, Nat.testBit_or, Nat.testBit_and]
  cases v.testBit k <;> cases r.w1c.testBit k <;> cases r.rw.testBit k <;> simp

theorem State.plainWrite_of_no_record {s : State} {r : RegRow} {node off v : Nat} (h : recordRest node off = none) :
    s.plainWrite r node off v = s.setRg node off (r.written (s.rg node off) v) := by
  unfold State.plainWrite
  rw [h]
  rfl

/-- A write to a register without statements of its own has the plain effect, in every block. -/
theorem State.regEffect_of_not_special {s : State} {src : Source} {r : RegRow} {node off v : Nat} (h : specialReg node off = false) :
    s.regEffect src r node off v = s.setRg node off (r.written (s.rg node off) v) := by
  rw [← State.plainWrite_of_no_record (recordRest_of_not_special h)]
  unfold specialReg at h
  unfold State.regEffect
  split at h
  · simp only [List.contains_cons, List.contains_nil, Bool.or_eq_false_iff, beq_eq_false_iff_ne, Option.isSome_eq_false_iff,
      Option.isNone_iff_eq_none] at h
    simp [*]
  · split at h
    · simp only [Bool.or_eq_false_iff, decide_eq_false_iff_not] at h
      simp [*]
    · split at h
      · simp only [Option.isSome_eq_false_iff, Option.isNone_iff_eq_none] at h
        simp [*]
      · simp only [Bool.and_eq_false_iff, Bool.or_eq_false_iff, decide_eq_false_iff_not] at h
        simp only [*, if_false]
        rw [if_neg (by tauto), if_neg (by tauto)]

section
variable {s : State} {src : Source} {node off width : Nat} {r : RegRow}

/-- A register write that has reached a listed register. -/
theorem State.regWrite_listed (hn : node ≠ 737) (ha : regAligned off width = true) (hr : findReg (blkOf node) off width = some r) (v : Nat) :
    s.regWrite src node off width v = if s.writerOk src r.writer node then s.regEffect src r node off (v % 2 ^ r.width) else s := by
  unfold State.regWrite
  rw [if_neg hn, if_pos ha, hr]

/-- Bits that hardware sets in the cycle of a write to a listed register. -/
theorem State.w1cSet_listed (ha : regAligned off width = true) (hr : findReg (blkOf node) off width = some r) (c : Nat) :
    s.w1cSet node off width c = if c &&& r.w1c = 0 then s else s.orRg node off (c &&& r.w1c) := by
  unfold State.w1cSet
  rw [if_pos ha, hr]

variable {addr : Nat} (h : s.toRegister src addr width node off r)
include h

theorem State.toRegister.node_ne : node ≠ 737 := by
  rcases h.1 with ⟨-, -, hn⟩ | ⟨-, hn, -⟩
  · exact hn
  · omega
theorem State.toRegister.aligned : regAligned off width = true := h.2.1
theorem State.toRegister.row : findReg (blkOf node) off width = some r := h.2.2

/-- A write to the address of a listed register is a write to that register. -/
theorem State.busWrite_toRegister (v : Nat) : s.busWrite src addr width v = s.regWrite src node off width v := by
  unfold State.busWrite
  rcases h.1 with ⟨ht, -, -⟩ | ⟨ht, -, ho⟩
  · rw [ht]
  · rw [ht]
    show s.winWrite src node off width v none = _
    unfold State.winWrite
    rw [if_pos ho]

/-- The same with bits that hardware sets in the cycle of the write: a fault record whose VALID it sets is kept. -/
theorem State.busWriteWith_toRegister (v c : Nat) :
    s.busWriteWith src addr width v c =
      if (recordRest node off).isSome && c.testBit 31 then s else (s.regWrite src node off width v).w1cSet node off width c := by
  rw [← State.busWrite_toRegister h v]
  unfold State.busWriteWith
  rcases h.1 with ⟨ht, -, -⟩ | ⟨ht, -, ho⟩
  · rw [ht]
  · rw [ht]
    exact if_pos ho

end

/-- Two writes of one register: the last stands. -/
theorem State.setRg_setRg (s : State) (n o v w : Nat) : (s.setRg n o v).setRg n o w = s.setRg n o w := by
  have put : ∀ (m : SMap Nat) (k : Nat), sput (sput m k v) k w = sput m k w := by
    intro m k
    induction m with
    | nil => simp [sput]
    | cons e m ih =>
      obtain ⟨j, u⟩ := e
      simp only [sput]
      split
      · simp [sput]
      · split
        · simp [sput]
        · simp [sput, *]
  unfold State.setRg
  dsimp only
  rw [put]

theorem execRegisterWrite_eq {s : State} {src : Source} (hs : src.ok = true) (addr : W64) (width : Nat) (d : WriteData) :
    exec (.registerWrite src addr width d) s = .next (s.busWriteWith src addr.toNat width d.val.toNat d.coincident) := if_pos hs

/-- What a write to a listed register without statements of its own leaves: the register's written value, with the bits that hardware sets. -/
theorem State.busWriteWith_plain {s : State} {src : Source} {addr width node off v c : Nat} {r : RegRow}
    (h : s.toRegister src addr width node off r) (hw : s.writerOk src r.writer node = true) (hp : specialReg node off = false) :
    s.busWriteWith src addr width v c = s.setRg node off (r.written (s.rg node off) (v % 2 ^ r.width) ||| (c &&& r.w1c)) := by
  rw [State.busWriteWith_toRegister h, recordRest_of_not_special hp, Option.isSome_none, Bool.false_and, if_neg Bool.false_ne_true,
    State.regWrite_listed h.node_ne h.aligned h.row, if_pos hw, State.regEffect_of_not_special hp, State.w1cSet_listed h.aligned h.row]
  split
  · rename_i hc
    rw [hc, Nat.or_zero]
  · unfold State.orRg
    rw [State.rg_setRg_same, State.setRg_setRg]

/-- Settles O7: a write that its source may not make changes nothing, a plain one is the register's written value. -/
theorem registerWriteSetsAndClearsBits : Obligations.RegisterWriteSetsAndClearsBits := by
  intro s src addr width val c node off r hs h
  rw [execRegisterWrite_eq hs]
  refine ⟨fun hw hc => ?_, fun hw hp => ⟨_, execRegisterWrite_eq hs .., ?_⟩⟩
  · congr 1
    rw [State.busWriteWith_toRegister h, State.regWrite_listed h.node_ne h.aligned h.row, hw, State.w1cSet_listed h.aligned h.row, if_pos hc]
    exact ite_self s
  · rw [State.busWriteWith_plain h hw hp]
    refine ⟨by rw [State.rg_setRg_same], fun k => ?_⟩
    rw [State.rg_setRg_same, Nat.testBit_or, Nat.testBit_and, RegRow.testBit_written]
    cases c.testBit k && r.w1c.testBit k <;> simp


-- Fault records (spec/00 R22, spec/03 R120) ---------------------------------------------------------------------------------

/-- Registers of a node cleared one after the other. -/
theorem rg_foldl_clear (node n o : Nat) (l : List Nat) (s : State) :
    (l.foldl (fun t q => t.setRg node q 0) s).rg n o = if ∃ q ∈ l, rkey n o = rkey node q then 0 else s.rg n o := by
  induction l generalizing s with
  | nil => simp
  | cons a l ih =>
    rw [List.foldl_cons, ih, State.rg_setRg]
    simp only [List.mem_cons, exists_eq_or_imp]
    by_cases ha : rkey n o = rkey node a <;> simp [ha]

/-- Clearing registers changes registers alone. -/
theorem foldl_clear_frame (node : Nat) (l : List Nat) (s : State) :
    ∃ m, l.foldl (fun t q => t.setRg node q 0) s = { s with regs := m } :=
  List.foldlRecOn (motive := fun t : State => ∃ m, t = { s with regs := m }) l (fun (t : State) q => t.setRg node q 0) ⟨s.regs, rfl⟩
    (fun _ ht _ _ => by obtain ⟨m, rfl⟩ := ht; exact ⟨_, rfl⟩)

theorem State.recordClear_of_some {s : State} {node off : Nat} {rest : List Nat} (h : recordRest node off = some rest) :
    s.recordClear node off = (off :: rest).foldl (fun t q => t.setRg node q 0) s := by
  unfold State.recordClear
  rw [h]

/-- The first registers of the fault records. -/
theorem recordRest_eq_some {node off : Nat} {rest : List Nat} (h : recordRest node off = some rest) :
    node < 576 ∧ (off = CD_MC_FAULT_INFO ∨ off = CD_SCR_FAULT_INFO ∨ off = CD_VC_FAULT_INFO ∨ off = CD_SPAD_FAULT_INFO ∨ off = CD_PL_FAULT_INFO) ∨
      ¬node < 576 ∧ node < 704 ∧ off = MD_FAULT_INFO := by
  unfold recordRest at h
  split at h
  · rename_i hn
    refine .inl ⟨hn, ?_⟩
    by_contra ho
    simp only [not_or] at ho
    simp [ho] at h
  · rename_i hn
    split at h
    · rename_i hm
      exact .inr ⟨hn, hm⟩
    · cases h

/-- A write to the first register of a fault record is the plain one: it clears the record where it writes VALID as 1. -/
theorem State.regEffect_of_record {s : State} {src : Source} {r : RegRow} {node off v : Nat} {rest : List Nat}
    (h : recordRest node off = some rest) :
    s.regEffect src r node off v = if v.testBit 31 then s.recordClear node off else s := by
  have plain : s.plainWrite r node off v = if v.testBit 31 then s.recordClear node off else s := by
    unfold State.plainWrite
    rw [h]
  rw [← plain]
  unfold State.regEffect
  rcases recordRest_eq_some h with ⟨hn, ho⟩ | ⟨hn, hm, ho⟩
  · rw [if_pos hn]
    rcases ho with rfl | rfl | rfl | rfl | rfl <;> rfl
  · subst ho
    rw [if_neg hn, if_pos hm]
    rfl

theorem execFaultRecordRearm_eq {s : State} {src : Source} (hs : src.ok = true) (addr val : W64) :
    exec (.faultRecordRearm src addr val) s = .next (s.busWrite src addr.toNat 4 val.toNat) := if_pos hs

/-- Settles O10: the record is cleared as its registers one after the other. -/
theorem faultRecordRearmClearsTheRecord : Obligations.FaultRecordRearmClearsTheRecord := by
  intro s src addr val node off r rest hs h hw hr hrec
  have valid : (val.toNat % 2 ^ r.width).testBit 31 = val.getLsbD 31 := by
    rw [hr, Nat.testBit_mod_two_pow, BitVec.testBit_toNat]
    rfl
  refine ⟨_, execFaultRecordRearm_eq hs addr val, ?_⟩
  rw [State.busWrite_toRegister h, State.regWrite_listed h.node_ne h.aligned h.row, if_pos hw, State.regEffect_of_record hrec, valid]
  cases val.getLsbD 31 with
  | false => exact ⟨nofun, fun _ => rfl, fun _ _ _ => rfl, rfl, rfl, rfl, ⟨rfl, rfl, rfl, rfl, rfl, rfl, rfl, rfl, rfl, rfl⟩⟩
  | true =>
    rw [if_pos rfl, State.recordClear_of_some hrec]
    refine ⟨fun _ o ho => ?_, nofun, fun n o ho => ?_, ?_⟩
    · rw [rg_foldl_clear, if_pos ⟨o, ho, rfl⟩]
    · rw [rg_foldl_clear, if_neg (by rintro ⟨q, hq, e⟩; exact ho q hq e)]
    · obtain ⟨m, hm⟩ := foldl_clear_frame node (off :: rest) s
      rw [hm]
      exact ⟨rfl, rfl, rfl, ⟨rfl, rfl, rfl, rfl, rfl, rfl, rfl, rfl, rfl, rfl⟩⟩

-- Refused and unbacked accesses (spec/00 R19-R21) -----------------------------------------------------------------------------

theorem execRegisterReadClear_eq {s : State} {src : Source} (hs : src.ok = true) (addr : W64) (width c : Nat) :
    exec (.registerReadClear src addr width c) s = .next (s.busRead src addr.toNat width c) := if_pos hs

section
variable {s : State} {src : Source} {a width node off : Nat}

/-- A write to an unbacked address is refused, a read there too, and answers 0. -/
theorem State.busWriteWith_unbacked (h : s.target src a = .unbacked) (v c : Nat) : s.busWriteWith src a width v c = s.refuseBy src := by
  unfold State.busWriteWith State.busWrite
  rw [h]
theorem State.busRead_unbacked (h : s.target src a = .unbacked) (c : Nat) :
    s.busRead src a width c = { s.refuseBy src with rdata := 0 } := by
  unfold State.busRead
  rw [h]

variable (ht : s.target src a = .block node off) (ha : regAligned off width = true) (hr : findReg (blkOf node) off width = none)
  (ho : overlapsReg (blkOf node) off width = false)
include ht ha hr ho

/-- An aligned write within reserved locations of a block is discarded, and not counted. -/
theorem State.busWriteWith_reserved (v c : Nat) : s.busWriteWith src a width v c = s := by
  have write : s.busWrite src a width v = s := by
    unfold State.busWrite
    rw [ht]
    show s.regWrite src node off width v = s
    unfold State.regWrite
    rw [if_pos ha, hr, ha, ho]
    exact ite_self s
  have set : s.w1cSet node off width c = s := by
    unfold State.w1cSet
    rw [if_pos ha, hr]
  unfold State.busWriteWith
  rw [ht, write]
  show (if _ then s else s.w1cSet node off width c) = s
  rw [set, ite_self]

/-- An aligned read there answers 0, the attachment slots of the PC block left out. -/
theorem State.busRead_reserved (hatt : node ≠ nodePc ∨ off < 0x400000 ∨ 0x800000 ≤ off) (c : Nat) :
    s.busRead src a width c = { s with rdata := 0 } := by
  have read : s.regRead src node off width c = (s, 0) := by
    unfold State.regRead
    rw [if_pos ha, hr]
    show (if _ then _ else _) = _
    rw [if_neg (by omega), ha, ho]
    rfl
  unfold State.busRead
  rw [ht]
  show { (s.regRead src node off width c).1 with rdata := (s.regRead src node off width c).2 } = _
  rw [read]

end

-- The tally (spec/00 R21) ---------------------------------------------------------------------------------------------------

/-- Sending a packet changes the FIFOs of the spindle alone. -/
theorem State.spSend_frame (s : State) (n : Nat) (p : SpPkt) : ∃ l, s.spSend n p = s.setPcd (fun q => { q with spn := l }) := by
  unfold State.spSend
  split
  · exact ⟨_, rfl⟩
  · exact ⟨s.pcd.spn, rfl⟩

/-- The tally of a die stands whatever becomes of the PCD. -/
theorem State.tallyOf_setPcd (s : State) (f : Pcd → Pcd) {node : Nat} (h : node < 720) : (s.setPcd f).tallyOf node = s.tallyOf node := by
  unfold State.tallyOf
  simp [h]

theorem State.tallyOf_clearTally (s : State) {node : Nat} (h : node < 720) : (s.clearTally node).tallyOf node = 0 := by
  unfold State.tallyOf State.clearTally
  by_cases hd : node < 576
  · simp [hd]
  · by_cases hm : node < 704 <;> simp [hd, hm, h]

theorem State.le_activeNode (s : State) : 736 ≤ s.activeNode := Nat.le_add_right ..

theorem State.clearTally_activeNode (s : State) : s.clearTally s.activeNode = s.setPcd (fun p => { p with tally := 0 }) := by
  have := s.le_activeNode
  unfold State.clearTally
  rw [if_neg (by omega), if_neg (by omega), if_neg (by omega), if_neg (by omega)]

/-- A counter below its limit counts n more events, and nothing else happens. -/
theorem State.bumpErr_of_lt {s : State} {node off st b n : Nat} (h : s.rg node off + n < 0xFFFFFFFF) (hn : n ≠ 0) :
    s.bumpErr node off st b n = s.setRg node off (s.rg node off + n) := by
  unfold State.bumpErr
  dsimp only
  rw [if_neg (by omega), if_pos h]

/-- The PCD's own report: its tally is cleared and added to PC.BAD_ACCESS_COUNT. -/
theorem State.tallyReport_activeNode {s : State} (h0 : s.tallyOf s.activeNode ≠ 0)
    (h : s.rg nodePc PC_BAD_ACCESS_COUNT + s.tallyOf s.activeNode < 0xFFFFFFFF) :
    s.tallyReport s.activeNode =
      (s.setPcd (fun p => { p with tally := 0 })).setRg nodePc PC_BAD_ACCESS_COUNT (s.rg nodePc PC_BAD_ACCESS_COUNT + s.tallyOf s.activeNode) := by
  unfold State.tallyReport State.badAccess
  dsimp only
  rw [if_neg h0, if_pos rfl, s.clearTally_activeNode]
  exact State.bumpErr_of_lt h h0

/-- The report of a die sends its tally and clears it. -/
theorem State.tallyOf_tallyReport {s : State} {node : Nat} (hn : node < 720) (h0 : s.tallyOf node ≠ 0) : (s.tallyReport node).tallyOf node = 0 := by
  have := s.le_activeNode
  unfold State.tallyReport
  dsimp only
  rw [if_neg h0, if_neg (by omega)]
  obtain ⟨l, hl⟩ := State.spSend_frame (s.clearTally node) node
    (spPkt 10 node s.activeNode ((s.partOfNode node).getD 0) PC_BAD_ACCESS_COUNT (s.tallyOf node))
  rw [hl, State.tallyOf_setPcd _ _ hn, State.tallyOf_clearTally _ hn]

theorem execBadAccessTallyReport_eq {s : State} {node : Nat} (h : node < 738) :
    exec (.badAccessTallyReport node) s = .next (s.tallyReport node) := if_pos (decide_eq_true h)

/-- Settles O8: reserved locations refuse nothing, unbacked ones count, and a report takes the tally along. -/
theorem unbackedAccessesAreTallied : Obligations.UnbackedAccessesAreTallied := by
  refine ⟨fun s src addr width val c hs => ?_, fun s node hn => ?_⟩
  · rw [execRegisterWrite_eq hs, execRegisterReadClear_eq hs]
    refine ⟨fun node off ht _ ha hr ho hatt => ?_, fun ht => ?_⟩
    · rw [State.busWriteWith_reserved ht ha hr ho, State.busRead_reserved ht ha hr ho hatt]
      exact ⟨rfl, rfl⟩
    · rw [State.busWriteWith_unbacked ht, State.busRead_unbacked ht]
      refine ⟨rfl, rfl, ?_⟩
      cases src with
      | score d c => exact ⟨by simp [State.refuseBy], rfl⟩
      | host _ => exact ⟨rfl, rfl⟩
      | pcd => exact ⟨rfl, rfl⟩
      | mgmt => exact ⟨rfl, rfl⟩
  · refine ⟨fun h0 => ?_, fun ha h0 hlt => ?_, fun hd h0 => ⟨_, execBadAccessTallyReport_eq hn, State.tallyOf_tallyReport hd h0⟩⟩
    · rw [execBadAccessTallyReport_eq hn]
      unfold State.tallyReport
      dsimp only
      rw [if_pos h0]
    · subst ha
      refine ⟨_, execBadAccessTallyReport_eq hn, ?_⟩
      rw [State.tallyReport_activeNode h0 hlt]
      refine ⟨rfl, State.rg_setRg_same .., fun n o hk => ?_, rfl, ⟨rfl, rfl, rfl, rfl, rfl, rfl, rfl, rfl, rfl, rfl⟩⟩
      rw [State.rg_setRg, if_neg hk]
      rfl

end Sys2Proof.Machine
end

section
/-! The S-cores' accesses through their caches, and the instructions they execute (spec/06 R175-R180, R188). -/

namespace Sys2Proof.Machine

-- Lines of a cache ----------------------------------------------------------------------------------------------------------

theorem cacheLine_addr {ls : List CLine} {a : Nat} {l : CLine} (h : cacheLine ls a = some l) : l.addr = a := by
  have := List.find?_some h
  exact of_decide_eq_true this

/-- Lines changed in place are found at the same addresses. -/
theorem cacheLine_map {ls : List CLine} {f : CLine → CLine} (hf : ∀ l, (f l).addr = l.addr) (a : Nat) :
    cacheLine (ls.map f) a = (cacheLine ls a).map f := by
  unfold cacheLine
  rw [List.find?_map]
  simp only [Function.comp_def, hf]

/-- A change of the lines at one address is seen at no other. -/
theorem cacheLine_map_other {ls : List CLine} {f : CLine → CLine} {a q : Nat} (hf : ∀ l, (f l).addr = l.addr) (ho : ∀ l, l.addr ≠ a → f l = l)
    (hq : q ≠ a) : cacheLine (ls.map f) q = cacheLine ls q := by
  rw [cacheLine_map hf]
  cases h : cacheLine ls q with
  | none => rfl
  | some l => rw [Option.map_some, ho l (cacheLine_addr h ▸ hq)]

/-- Putting a line back where it was found changes no line that is found. -/
theorem cacheLine_cacheSet {ls : List CLine} {a : Nat} {l : CLine} (h : cacheLine ls a = some l) (q : Nat) :
    cacheLine (cacheSet ls l) q = cacheLine ls q := by
  have ha := cacheLine_addr h
  have same : ∀ y : CLine, (if y.addr = l.addr then l else y).addr = y.addr := fun y => by split <;> simp [*]
  unfold cacheSet
  by_cases hq : q = a
  · subst hq
    rw [cacheLine_map same, h, Option.map_some, if_pos rfl]
  · exact cacheLine_map_other same (fun y hy => if_neg hy) (ha ▸ hq)

theorem cacheLine_filter_ne (ls : List CLine) (a q : Nat) :
    cacheLine (ls.filter (fun y => decide (y.addr ≠ a))) q = if q = a then none else cacheLine ls q := by
  unfold cacheLine
  rw [List.find?_filter]
  split
  · rename_i hq
    subst hq
    simp
  · rename_i hq
    congr 1
    funext y
    by_cases hy : y.addr = q
    · simp [hy, hq]
    · simp [hy]

theorem cacheLine_append_new {ls : List CLine} {l : CLine} (h : cacheLine ls l.addr = none) : cacheLine (ls ++ [l]) l.addr = some l := by
  unfold cacheLine at h ⊢
  rw [List.find?_append, h]
  simp

/-- A line that holds no flipped bit is delivered as it is. -/
theorem State.cacheJudge_of_no_errs (s : State) (d array k n : Nat) {l : CLine} (h : l.errs = []) :
    s.cacheJudge d array l k n = (s, l, false) := by
  unfold State.cacheJudge
  rw [h]
  rfl

/-- Bytes that lie within one line touch that line alone. -/
theorem linesOf_within {a n : Nat} (hn : 0 < n) (hw : a % 64 + n ≤ 64) : linesOf a n = [a / 64 * 64] := by
  unfold linesOf
  rw [if_neg (by omega), show (a + n - 1) / 64 - a / 64 + 1 = 1 by omega]
  rfl

-- S-cores by their fields ---------------------------------------------------------------------------------------------------

/-- An S-core with other lines in its caches. -/
def SCore.withCaches (y : SCore) (ic dc : List CLine) : SCore := { y with ic := ic, dc := dc }

@[simp] theorem SCore.getX_withCaches (y : SCore) (ic dc : List CLine) (r : Nat) : (y.withCaches ic dc).getX r = y.getX r := rfl
theorem SCore.setX_withCaches (y : SCore) (ic dc : List CLine) (r : Nat) (v : W64) :
    (y.withCaches ic dc).setX r v = (y.setX r v).withCaches ic dc := by
  unfold SCore.setX
  split <;> rfl
theorem SCore.setL1_eq (y : SCore) (code : Bool) (ls : List CLine) :
    y.setL1 code ls = y.withCaches (if code then ls else y.ic) (if code then y.dc else ls) := by
  cases code <;> rfl
@[simp] theorem SCore.l1_setL1 (y : SCore) (code : Bool) (ls : List CLine) : (y.setL1 code ls).l1 code = ls := by
  cases code <;> rfl
theorem SCore.setX_frame (y : SCore) (r : Nat) (v : W64) : ∃ xs, y.setX r v = { y with x := xs } := by
  unfold SCore.setX
  split
  · exact ⟨y.x, rfl⟩
  · exact ⟨_, rfl⟩
@[simp] theorem SCore.getX_setX (y : SCore) (k r : Nat) (v : W64) : (y.setX k v).getX r = if r = k ∧ r ≠ 0 then v else y.getX r := by
  unfold SCore.setX SCore.getX
  by_cases hk : k = 0
  · subst hk
    by_cases hr : r = 0 <;> simp [hr]
  · by_cases hr : r = 0
    · simp [hr]
    · by_cases h : r = k <;> simp [hr, hk, h]

-- Reads through the first-level caches (spec/06 R176, R180) -------------------------------------------------------------------

/-- S-core c of die d has read through its caches: lines have come into them, and all else that anything reads stands. -/
structure State.ReadCached (s t : State) (d c : Nat) : Prop where
  only : ∃ ds, t = { s with dies := ds }
  core : ∃ ic dc, t.sc d c = (s.sc d c).withCaches ic dc
  l2 : ∀ q, cacheLine (t.die d).l2 q = cacheLine (s.die d).l2 q
  place : ∀ p, t.place d p = s.place d p

theorem State.ReadCached.outside {s t : State} {d c : Nat} (h : s.ReadCached t d c) : SameOutside s t := by
  obtain ⟨ds, rfl⟩ := h.only
  exact ⟨rfl, rfl, rfl, rfl, rfl, rfl, rfl, rfl, rfl, rfl⟩

theorem State.ReadCached.trans {s t u : State} {d c : Nat} (h : s.ReadCached t d c) (k : t.ReadCached u d c) : s.ReadCached u d c := by
  obtain ⟨ds, hd⟩ := h.only
  obtain ⟨es, he⟩ := k.only
  obtain ⟨ic, dc, hc⟩ := h.core
  obtain ⟨ic', dc', hc'⟩ := k.core
  refine ⟨⟨es, ?_⟩, ⟨ic', dc', ?_⟩, fun q => (k.l2 q).trans (h.l2 q), fun p => (k.place p).trans (h.place p)⟩
  · rw [he, hd]
  · rw [hc', hc]
    rfl

/-- Lines put into a first-level cache. -/
theorem State.ReadCached.setL1 (s : State) (d c : Nat) (code : Bool) (ls : List CLine) :
    s.ReadCached (s.setSc d c ((s.sc d c).setL1 code ls)) d c := by
  refine ⟨⟨_, rfl⟩, ⟨_, _, by rw [State.sc_setSc, if_pos ⟨rfl, rfl⟩, SCore.setL1_eq]⟩, fun q => ?_, fun p => ?_⟩
  · simp [State.setSc]
  · simp [State.setSc, State.place, Die.place]

/-- A line of the shared cache put back as it was. -/
theorem State.ReadCached.setL2 {s : State} {d c a : Nat} {l : CLine} (h : cacheLine (s.die d).l2 a = some l) :
    s.ReadCached (s.modDie d (fun x => { x with l2 := cacheSet x.l2 l })) d c := by
  refine ⟨⟨_, rfl⟩, ⟨(s.sc d c).ic, (s.sc d c).dc, ?_⟩, fun q => ?_, fun p => ?_⟩
  · simp [State.sc, Die.sc, SCore.withCaches]
  · simp [cacheLine_cacheSet h]
  · simp [State.place, Die.place]

section
variable {s t : State} {d c p a n : Nat} {code : Bool} {l : CLine}

/-- A first-level cache that holds a line takes nothing in. -/
theorem State.l1Fill_of_l1 (h : cacheLine ((s.sc d c).l1 code) a = some l) : s.l1Fill d c p a code = (s, .val 0) := by
  unfold State.l1Fill
  rw [if_pos (by rw [h]; rfl)]

/-- A first-level cache with room takes a line from the shared one. -/
theorem State.l1Fill_of_l2 (h1 : cacheLine ((s.sc d c).l1 code) a = none) (hroom : ((s.sc d c).l1 code).length < l1Lines)
    (h2 : cacheLine (s.die d).l2 a = some l) (he : l.errs = []) :
    ∃ t, s.l1Fill d c p a code = (t, .val 0) ∧ s.ReadCached t d c ∧
      cacheLine ((t.sc d c).l1 code) a = some { l with dirty := false } := by
  have fill : s.l2Fill d p a = (s, .val 0) := by
    unfold State.l2Fill
    rw [if_pos (by rw [h2]; rfl)]
  have set := State.ReadCached.setL2 (c := c) h2
  generalize ht : s.modDie d (fun x => { x with l2 := cacheSet x.l2 l }) = t at set
  have core : t.sc d c = s.sc d c := by
    subst ht
    simp [State.sc, Die.sc]
  have new : cacheLine (((s.sc d c).l1 code) ++ [{ l with dirty := false }]) a = some { l with dirty := false } := by
    have ha := cacheLine_addr h2
    subst ha
    exact cacheLine_append_new (l := { l with dirty := false }) h1
  refine ⟨t.setSc d c ((t.sc d c).setL1 code ((s.sc d c).l1 code ++ [{ l with dirty := false }])), ?_, set.trans (.setL1 ..), ?_⟩
  · unfold State.l1Fill
    simp only [h1, Option.isSome_none, Bool.false_eq_true, if_false, fill, h2, State.cacheJudge_of_no_errs _ _ _ _ _ he, ht, core,
      Nat.not_le.2 hroom, decide_false]
    rw [he]
  · rw [State.sc_setSc, if_pos ⟨rfl, rfl⟩, SCore.l1_setL1, new]

variable (hn : 0 < n) (hw : a % 64 + n ≤ 64)
include hn hw

/-- Bytes within one line are read once that line is in the first-level cache. -/
theorem State.cacheRead_of_fill {v : Nat} (hf : s.l1Fill d c p (a / 64 * 64) code = (t, .val v))
    (hl : cacheLine ((t.sc d c).l1 code) (a / 64 * 64) = some l) (he : l.errs = []) :
    s.cacheRead d c p a n code =
      (t.setSc d c ((t.sc d c).setL1 code (cacheSet ((t.sc d c).l1 code) l)), .val (leVal ((l.bytes.drop (a % 64)).take n))) := by
  have line : s.l1Line d c p a n code =
      (t.setSc d c ((t.sc d c).setL1 code (cacheSet ((t.sc d c).l1 code) l)), .val (leVal ((l.bytes.drop (a % 64)).take n))) := by
    unfold State.l1Line
    simp only [hf, hl, State.cacheJudge_of_no_errs _ _ _ _ _ he, Bool.false_eq_true, if_false]
    rw [show a - a / 64 * 64 = a % 64 by omega]
  unfold State.cacheRead
  rw [linesOf_within hn hw]
  simp only [List.foldl_cons, List.foldl_nil]
  rw [show max a (a / 64 * 64) = a by omega, show min (a + n) (a / 64 * 64 + 64) - a = n by omega, line]
  simp

/-- What a read of bytes within one line answers that the first-level cache holds without error. The line stays there. -/
theorem State.cacheRead_of_l1 (hl : cacheLine ((s.sc d c).l1 code) (a / 64 * 64) = some l) (he : l.errs = []) :
    ∃ t, s.cacheRead d c p a n code = (t, .val (leVal ((l.bytes.drop (a % 64)).take n))) ∧ s.ReadCached t d c ∧
      cacheLine ((t.sc d c).l1 code) (a / 64 * 64) = some l := by
  refine ⟨_, State.cacheRead_of_fill hn hw (State.l1Fill_of_l1 hl) hl he, .setL1 .., ?_⟩
  rw [State.sc_setSc, if_pos ⟨rfl, rfl⟩, SCore.l1_setL1, cacheLine_cacheSet hl, hl]

/-- The same of a line that the shared cache holds, and the first-level one has room for. -/
theorem State.cacheRead_of_l2 (h1 : cacheLine ((s.sc d c).l1 code) (a / 64 * 64) = none) (hroom : ((s.sc d c).l1 code).length < l1Lines)
    (h2 : cacheLine (s.die d).l2 (a / 64 * 64) = some l) (he : l.errs = []) :
    ∃ t, s.cacheRead d c p a n code = (t, .val (leVal ((l.bytes.drop (a % 64)).take n))) ∧ s.ReadCached t d c := by
  obtain ⟨t, hf, ht, hl⟩ := State.l1Fill_of_l2 (p := p) h1 hroom h2 he
  exact ⟨_, State.cacheRead_of_fill (l := { l with dirty := false }) hn hw hf hl he, ht.trans (.setL1 ..)⟩

end

-- The access of one command (spec/06 R178, R179) ------------------------------------------------------------------------------

theorem wf_sCoreMemoryAccess {d c : Nat} (hd : d < 576) (hc : c < 4) (kind : ScKind) (pa : BitVec 56) (width : Nat) (reg : BitVec 5) :
    (Instr.sCoreMemoryAccess d c kind pa width reg).wf = true := Bool.and_eq_true_iff.2 ⟨decide_eq_true hd, decide_eq_true hc⟩

theorem execSCoreMemoryAccess_eq {s : State} {d c : Nat} (hd : d < 576) (hc : c < 4) {kind : ScKind} (pa : BitVec 56)
    (width : Nat) (reg : BitVec 5) (hk : kind ≠ .execute := by nofun) :
    exec (.sCoreMemoryAccess d c kind pa width reg) s = .next (s.scAccess d c kind pa width reg) := by
  show guard _ (if kind = .execute then _ else _) = _
  rw [if_neg hk]
  exact if_pos (wf_sCoreMemoryAccess hd hc ..)

theorem execSCoreMemoryAccess_execute {s : State} {d c : Nat} (hd : d < 576) (hc : c < 4) (pa : BitVec 56) (width : Nat) (reg : BitVec 5) :
    exec (.sCoreMemoryAccess d c .execute pa width reg) s = .next (s.scExecute d c) :=
  if_pos (wf_sCoreMemoryAccess hd hc ..)

section
variable {s t : State} {d c v width : Nat} {pa : BitVec 56} {reg : BitVec 5}

section
variable (hr : s.scReady d c = true)
include hr

/-- A load that has its value puts it, extended, in its register. -/
theorem State.scAccess_load_val {sx : Bool} (h : s.physRead d c pa.toNat width false (some (reg.toNat, sx)) = (t, .val v)) :
    s.scAccess d c (.load sx) pa width reg = t.setSc d c ((t.sc d c).setX reg.toNat (extend sx width v)) := by
  unfold State.scAccess
  simp [hr, h]
/-- A load that fails traps. -/
theorem State.scAccess_load_fail {sx : Bool} (h : s.physRead d c pa.toNat width false (some (reg.toNat, sx)) = (t, .fail)) :
    s.scAccess d c (.load sx) pa width reg = t.scTrapAt d c .loadAccessFault pa.toNat := by
  unfold State.scAccess
  simp [hr, h]
/-- A store that has been made changes nothing else. -/
theorem State.scAccess_store_val (h : s.physWrite d c pa.toNat width ((s.sc d c).getX reg.toNat).toNat = (t, .val v)) :
    s.scAccess d c .store pa width reg = t := by
  unfold State.scAccess
  simp [hr, h]
/-- A store that fails traps. -/
theorem State.scAccess_store_fail (h : s.physWrite d c pa.toNat width ((s.sc d c).getX reg.toNat).toNat = (t, .fail)) :
    s.scAccess d c .store pa width reg = t.scTrapAt d c .storeAccessFault pa.toNat := by
  unfold State.scAccess
  simp [hr, h]
/-- A cache-block operation that has been made changes nothing else. -/
theorem State.scAccess_cbo_val {kind : ScKind} (hk : kind = .cboInval ∨ kind = .cboClean ∨ kind = .cboFlush)
    (h : s.physCbo d c pa.toNat kind = (t, .val v)) : s.scAccess d c kind pa width reg = t := by
  unfold State.scAccess
  rcases hk with rfl | rfl | rfl <;> simp [hr, h]

end

section
variable {p a n : Nat} (ht : s.target (.score d c) a = .hbm p)
include ht

section
variable (hs : a + n ≤ s.hbmSize p) (hk : s.keptRange p a n = false)
include hs hk

/-- A read of backed HBM of the partition goes through the caches. -/
theorem State.readPanel_backed (code : Bool) (dst : Option (Nat × Bool)) : s.readPanel d c a n code dst = s.cacheRead d c p a n code := by
  unfold State.readPanel
  rw [ht]
  show (if _ then _ else _) = _
  rw [if_neg (by omega), if_neg (by simp [hk])]
/-- A write of it too. -/
theorem State.writePanel_backed (v : Nat) : s.writePanel d c a n v = s.cacheWrite d c p a (leBytes n v) := by
  unfold State.writePanel
  rw [ht]
  show (if _ then _ else _) = _
  rw [if_neg (by omega), if_neg (by simp [hk])]
end

/-- Beyond the backed HBM a read fails, and so does a write. -/
theorem State.readPanel_beyond (hs : s.hbmSize p < a + n) (code : Bool) (dst : Option (Nat × Bool)) :
    s.readPanel d c a n code dst = (s, .fail) := by
  unfold State.readPanel
  rw [ht]
  exact if_pos hs
theorem State.writePanel_beyond (hs : s.hbmSize p < a + n) (v : Nat) : s.writePanel d c a n v = (s, .fail) := by
  unfold State.writePanel
  rw [ht]
  exact if_pos hs

/-- A cache-block operation on a line of backed HBM acts on the caches. -/
theorem State.cboPanel_backed (hs : a + 64 ≤ s.hbmSize p) (hk : s.keptRange p a 64 = false) (kind : ScKind) :
    s.cboPanel d c a kind = s.cboLine d p a kind := by
  unfold State.cboPanel
  rw [ht]
  show (if _ then _ else _) = _
  rw [if_neg (by omega), if_neg (by simp [hk])]

end

/-- A read of an unbacked address is counted on the die and answers 0. -/
theorem State.readPanel_unbacked {a n : Nat} (ht : s.target (.score d c) a = .unbacked) (code : Bool) (dst : Option (Nat × Bool)) :
    s.readPanel d c a n code dst = (s.refuseBy (.score d c), .val 0) := by
  unfold State.readPanel
  rw [ht]

end

section
variable (y : SCore) (toS : Bool) (code tval : Nat)

/-- What the entry of an exception's handler saves in the control and status registers of its mode: the pc, the cause, the trap value. -/
theorem SCore.csr_enter : (y.enter toS false code tval).csr (if toS then 0x141 else 0x341) = y.pc.toNat ∧
    (y.enter toS false code tval).csr (if toS then 0x142 else 0x342) = code ∧
    (y.enter toS false code tval).csr (if toS then 0x143 else 0x343) = tval := by
  cases toS <;> simp [SCore.enter, SCore.csr, SCore.setCsr, b2n]
theorem SCore.pc_enter : (y.enter toS false code tval).pc = BitVec.ofNat 64 (y.csr (if toS then 0x105 else 0x305) / 4 * 4) := by
  cases toS <;> simp [SCore.enter]
theorem SCore.mode_enter : (y.enter toS false code tval).mode = if toS then 1 else 3 := by
  simp only [SCore.enter]
theorem SCore.x_enter : (y.enter toS false code tval).x = y.x := by
  simp only [SCore.enter, SCore.setCsr]
theorem SCore.trap_enter : { y.enter toS false code tval with trap := y.trap } = y.enter toS false code tval := by
  simp only [SCore.enter, SCore.setCsr]

end

/-- An exception enters the handler of the mode that it is delegated to; the monitor then owes its answer. -/
theorem State.scTrapAt_eq (s : State) (d c : Nat) (tr : Trap) (tval : Nat) :
    s.scTrapAt d c tr tval = s.setSc d c { (s.sc d c).enter (s.trapToS d c tr) false (tr.code (s.sc d c).mode) tval with
      trap := if s.trapToS d c tr then (s.sc d c).trap else some tr } := by
  have hs : s.trapToS d c tr = true ↔ (s.sc d c).mode ≤ 1 ∧ ((s.sc d c).csr 0x302).testBit (tr.code (s.sc d c).mode) = true := by
    unfold State.trapToS
    rw [Bool.and_eq_true, decide_eq_true_eq]
  unfold State.scTrapAt
  dsimp only
  by_cases h : s.trapToS d c tr = true
  · rw [if_pos (hs.1 h), h, if_pos rfl, SCore.trap_enter]
  · rw [if_neg (fun k => h (hs.2 k)), if_neg h, Bool.eq_false_iff.2 h]

/-- A trap saves the pc, its cause and its value, and enters the handler of the mode that it is delegated to. -/
theorem State.scTrapAt_trapped (s : State) (d c : Nat) (tr : Trap) (tval : Nat) : s.ScTrapped (s.scTrapAt d c tr tval) d c tr tval := by
  have post := congrArg (fun t => t.sc d c) (s.scTrapAt_eq d c tr tval)
  simp only [State.sc_setSc, and_self, if_true] at post
  have eq := post ▸ s.scTrapAt_eq d c tr tval
  obtain ⟨epc, cause, val⟩ := SCore.csr_enter (s.sc d c) (s.trapToS d c tr) (tr.code (s.sc d c).mode) tval
  have pc := SCore.pc_enter (s.sc d c) (s.trapToS d c tr) (tr.code (s.sc d c).mode) tval
  have mode := SCore.mode_enter (s.sc d c) (s.trapToS d c tr) (tr.code (s.sc d c).mode) tval
  have x := SCore.x_enter (s.sc d c) (s.trapToS d c tr) (tr.code (s.sc d c).mode) tval
  generalize (s.sc d c).enter (s.trapToS d c tr) false (tr.code (s.sc d c).mode) tval = z at *
  refine ⟨eq, ?_, ?_, ?_, ?_, ?_, ?_, ?_⟩ <;> rw [post]
  · exact mode
  · exact pc
  · exact epc
  · exact cause
  · exact val
  · intro r
    unfold SCore.getX
    dsimp only
    rw [x]

-- Stores (spec/06 R176) -------------------------------------------------------------------------------------------------------

/-- Bytes put into a list of bytes from position k on. -/
theorem getD_splice {l bs : List Byte} {k : Nat} (h : k + bs.length ≤ l.length) (i : Nat) :
    (l.take k ++ bs ++ l.drop (k + bs.length)).getD i 0#8 = if k ≤ i ∧ i < k + bs.length then bs.getD (i - k) 0#8 else l.getD i 0#8 := by
  have hk : (l.take k).length = k := List.length_take_of_le (by omega)
  simp only [List.getD_eq_getElem?_getD]
  by_cases h1 : i < k
  · rw [if_neg (by omega), List.append_assoc, List.getElem?_append_left (by omega), List.getElem?_take_of_lt h1]
  · by_cases h2 : i < k + bs.length
    · rw [if_pos (by omega), List.append_assoc, List.getElem?_append_right (by omega), hk, List.getElem?_append_left (by omega)]
    · rw [if_neg (by omega), List.getElem?_append_right (by simp [hk]; omega), List.getElem?_drop, List.length_append, hk,
        show k + bs.length + (i - (k + bs.length)) = i by omega]

/-- A line after a store of bytes from an address on: those that fall in it, and its dirty mark, where it is one of the store's lines. -/
def CLine.stored (a : Nat) (bs : List Byte) (dirty : Bool) (l : CLine) : CLine :=
  if (linesOf a bs.length).contains l.addr then
    { l.put (a - l.addr) ((bs.take (l.addr + 64 - a)).drop (l.addr - a)) with dirty := dirty }
  else l

theorem CLine.addr_stored (a : Nat) (bs : List Byte) (dirty : Bool) (l : CLine) : (l.stored a bs dirty).addr = l.addr := by
  unfold CLine.stored
  split <;> rfl

section
variable {a : Nat} {bs : List Byte} (hn : 0 < bs.length) (hw : a % 64 + bs.length ≤ 64)
include hn hw

theorem CLine.stored_other {l : CLine} (dirty : Bool) (h : l.addr ≠ a / 64 * 64) : l.stored a bs dirty = l := by
  unfold CLine.stored
  rw [linesOf_within hn hw, if_neg (by simp [h])]

/-- A store within one line: its dirty mark, and each byte of it. -/
theorem CLine.dirty_stored {l : CLine} (dirty : Bool) (h : l.addr = a / 64 * 64) : (l.stored a bs dirty).dirty = dirty := by
  unfold CLine.stored
  rw [linesOf_within hn hw, if_pos (by simp [h])]
theorem CLine.bytes_stored {l : CLine} (dirty : Bool) (h : l.addr = a / 64 * 64) (hl : l.bytes.length = 64) (k : Nat) :
    (l.stored a bs dirty).bytes.getD k 0#8 =
      if a % 64 ≤ k ∧ k < a % 64 + bs.length then bs.getD (k - a % 64) 0#8 else l.bytes.getD k 0#8 := by
  have all : (bs.take (l.addr + 64 - a)).drop (l.addr - a) = bs := by
    rw [List.take_of_length_le (by omega), show l.addr - a = 0 by omega, List.drop_zero]
  unfold CLine.stored
  rw [linesOf_within hn hw, if_pos (by simp [h]), all, show a - l.addr = a % 64 by omega]
  exact getD_splice (by omega) k

end

/-- A relation that holds of each entry and its change, and of what an unlisted key reads, holds of each key's reading and its change. -/
theorem sget_map_rel {α : Type} {d : α} {f : Nat × α → α} {P : α → α → Prop} (h0 : P d d) (h : ∀ e, P e.2 (f e)) (m : SMap α) (k : Nat) :
    P (sget d m k) (sget d (m.map (fun e => (e.1, f e))) k) := by
  induction m with
  | nil => exact h0
  | cons e m ih =>
    simp only [List.map_cons, sget]
    split
    · exact h e
    · exact ih

/-- What a store to lines of the shared cache leaves of an S-core: its registers, and its data cache's copies stored to. -/
theorem State.cacheWrite_of_l2 {s : State} {d c p a : Nat} {bs : List Byte} {l : CLine} (hn : 0 < bs.length) (hw : a % 64 + bs.length ≤ 64)
    (h : cacheLine (s.die d).l2 (a / 64 * 64) = some l) :
    ∃ t, s.cacheWrite d c p a bs = (t, .val 0) ∧ (t.die d).l2 = (s.die d).l2.map (·.stored a bs true) ∧
      (∀ k, (t.sc d k).x = (s.sc d k).x ∧ (t.sc d k).dc = (s.sc d k).dc.map (·.stored a bs false)) ∧ SameOutside s t := by
  have fill : s.l2Fill d p (a / 64 * 64) = (s, .val 0) := by
    unfold State.l2Fill
    rw [if_pos (by rw [h]; rfl)]
  unfold State.cacheWrite
  simp only [linesOf_within hn hw, List.foldl_cons, List.foldl_nil, fill]
  refine ⟨_, rfl, ?_, fun k => ?_, ⟨rfl, rfl, rfl, rfl, rfl, rfl, rfl, rfl, rfl, rfl⟩⟩
  · rw [State.die_modDie, if_pos rfl]
    simp only [CLine.stored, linesOf_within hn hw]
  · simp only [State.sc, Die.sc, State.die_modDie, if_true]
    refine sget_map_rel (d := SCore.reset) (P := fun y z : SCore => z.x = y.x ∧ z.dc = y.dc.map (·.stored a bs false)) ⟨rfl, rfl⟩ (fun e => ?_) _ k
    refine ⟨rfl, ?_⟩
    simp only [CLine.stored, linesOf_within hn hw]

-- Writes of one line to its stack (spec/10 R281, R288, R301) ------------------------------------------------------------------

@[simp] theorem State.bumpPerf_mds (s : State) (node off n : Nat) : (s.bumpPerf node off n).mds = s.mds := by
  unfold State.bumpPerf
  split <;> rfl
@[simp] theorem State.bumpPerf_dies (s : State) (node off n : Nat) : (s.bumpPerf node off n).dies = s.dies := by
  unfold State.bumpPerf
  split <;> rfl
theorem State.md_bumpPerf (s : State) (node off n m : Nat) : (s.bumpPerf node off n).md m = s.md m := by
  unfold State.md
  rw [State.bumpPerf_mds]

/-- A write to a stack without flipped bits: the bytes it puts, and no compute die changes. -/
theorem State.stackWrite_of_no_errs {s : State} {m : Nat} (he : (s.md m).errs = []) (loc : Nat) (bs : List Byte) :
    ((s.stackWrite m loc bs).1.md m).mem = writeBytes (s.md m).mem loc bs ∧ (s.stackWrite m loc bs).1.dies = s.dies := by
  unfold State.stackWrite
  simp only [he, if_true, Bool.false_eq_true, if_false]
  generalize hl : State.bellLines _ m = lines
  obtain ⟨net, hb⟩ := State.bellPass_frame _ lines m loc bs.length
  rw [hb]
  constructor
  · simp [State.md_bumpPerf]
  · simp

/-- Bytes of one page are one piece. -/
theorem pagePieces_within {a n : Nat} (hn : 0 < n) (hw : a % 4096 + n ≤ 4096) : pagePieces a n = [(a, n)] := by
  unfold pagePieces
  rw [if_neg (by omega), show (a + n - 1) / 4096 - a / 4096 + 1 = 1 by omega]
  simp only [List.range_one, List.map_cons, List.map_nil, Nat.add_zero]
  rw [show max a (a / 4096 * 4096) = a by omega, show min (a + n) ((a / 4096 + 1) * 4096) - a = n by omega]

/-- A write within one page is the write to its stack. -/
theorem State.hbmWrite_within {s : State} {p a m loc : Nat} {bs : List Byte} (hn : 0 < bs.length) (hw : a % 4096 + bs.length ≤ 4096)
    (hm : s.hbmMap p a = some (m, loc)) (on : s.mdOn m = true) : (s.hbmWrite p a bs).1 = (s.stackWrite m loc bs).1 := by
  unfold State.hbmWrite
  rw [pagePieces_within hn hw]
  simp only [List.foldl_cons, List.foldl_nil, ne_eq, not_true_eq_false, if_false, hm, on, if_true, List.take_length]

/-- A dirty line without flipped bits goes back to its place of its stack, and no compute die changes. -/
theorem State.lineBack_of_dirty {s : State} {p d m loc : Nat} {l : CLine} (hd : l.dirty = true) (hl : l.bytes.length = 64)
    (he : l.errs = []) (ha : l.addr % 64 = 0) (hm : s.hbmMap p l.addr = some (m, loc)) (on : s.mdOn m = true) (hs : (s.md m).errs = []) :
    (∀ b, memRead ((s.lineBack p d l).md m).mem b =
      if loc ≤ b ∧ b < loc + 64 then l.bytes.getD (b - loc) 0#8 else memRead (s.md m).mem b) ∧ (s.lineBack p d l).dies = s.dies := by
  have back : s.lineBack p d l = (s.stackWrite m loc l.bytes).1 := by
    unfold State.lineBack
    simp only [hd, if_true, State.cacheJudge_of_no_errs _ _ _ _ _ he, Bool.false_eq_true, if_false]
    exact State.hbmWrite_within (by omega) (by omega) hm on
  obtain ⟨mem, dies⟩ := State.stackWrite_of_no_errs hs loc l.bytes
  rw [back]
  exact ⟨fun b => by rw [mem, memRead_writeBytes, hl], dies⟩

theorem State.lineBack_of_clean {l : CLine} (h : l.dirty = false) (s : State) (p d : Nat) : s.lineBack p d l = s := by
  unfold State.lineBack
  rw [if_neg (by simp [h])]

-- Cache-block operations (spec/06 R180) ---------------------------------------------------------------------------------------

/-- A line marked clean. -/
def CLine.cleaned (a : Nat) (y : CLine) : CLine := if y.addr = a then { y with dirty := false } else y
theorem CLine.addr_cleaned (a : Nat) (y : CLine) : (y.cleaned a).addr = y.addr := by
  unfold CLine.cleaned
  split <;> rfl

theorem CLine.cleaned_other {a : Nat} {y : CLine} (h : y.addr ≠ a) : y.cleaned a = y := if_neg h
theorem CLine.cleaned_same {a : Nat} {y : CLine} (h : y.addr = a) : y.cleaned a = { y with dirty := false } := if_pos h

/-- A line taken out of a die is in no cache of data, and every other line of the shared cache stands. -/
theorem State.dropLine_lines (s : State) (d a : Nat) :
    (∀ q, cacheLine ((s.modDie d (·.dropLine a)).die d).l2 q = if q = a then none else cacheLine (s.die d).l2 q) ∧
      ∀ k, cacheLine ((s.modDie d (·.dropLine a)).sc d k).dc a = none := by
  simp only [State.sc, Die.sc, State.die_modDie, if_true, Die.dropLine]
  refine ⟨fun q => cacheLine_filter_ne .., fun k => ?_⟩
  exact sget_map_rel (P := fun _ z : SCore => cacheLine z.dc a = none) rfl (fun e => by rw [cacheLine_filter_ne, if_pos rfl]) _ k

section
variable {s : State} {d p a : Nat}

theorem State.cboLine_inval : s.cboLine d p a .cboInval = (s.modDie d (·.dropLine a), .val 0) := rfl

variable {l : CLine} (h : cacheLine (s.die d).l2 a = some l) (hr : l.dirty = false ∨ s.refillRoom p a = true)
include h hr

/-- A line that is clean, or has a tracker entry, is written back where it is dirty; CLEAN keeps it and FLUSH takes it out. -/
theorem State.cboLine_clean :
    s.cboLine d p a .cboClean = ((s.lineBack p d l).modDie d (fun x => { x with l2 := x.l2.map (·.cleaned a) }), .val 0) := by
  unfold State.cboLine
  simp only [h]
  rw [if_neg (by rcases hr with hr | hr <;> simp [hr])]
  rfl
theorem State.cboLine_flush : s.cboLine d p a .cboFlush = ((s.lineBack p d l).modDie d (·.dropLine a), .val 0) := by
  unfold State.cboLine
  simp only [h]
  rw [if_neg (by rcases hr with hr | hr <;> simp [hr])]

end

-- Instructions that act on the integer registers (spec/06 R175) ----------------------------------------------------------------

/-- An instruction on the integer registers puts a value in one register and goes to a pc; both are the same whatever the caches hold. -/
theorem SCore.plain_integer {y z : SCore} {w len : Nat} (hop : w % 128 ∈ [0x13, 0x17, 0x1B, 0x33, 0x37, 0x3B, 0x63, 0x67, 0x6F])
    (h : y.plain w len = some z) :
    ∃ r v pc, z = { y.setX r v with pc := pc } ∧
      ∀ ic dc, (y.withCaches ic dc).plain w len = some { (y.withCaches ic dc).setX r v with pc := pc } := by
  have kinds : (w % 128 = 0x17 ∨ w % 128 = 0x37 ∨ w % 128 = 0x6F) ∨ w % 128 = 0x63 ∨ w % 128 = 0x67 ∨
      w % 128 = 0x13 ∨ w % 128 = 0x1B ∨ w % 128 = 0x33 ∨ w % 128 = 0x3B := by
    simp only [List.mem_cons, List.not_mem_nil, or_false] at hop
    omega
  unfold SCore.plain at h ⊢
  simp only [SCore.getX_withCaches, show ∀ ic dc, (y.withCaches ic dc).pc = y.pc from fun _ _ => rfl]
  rcases kinds with (ho | ho | ho) | ho | ho | ho | ho | ho | ho <;>
    simp only [ho, Nat.reduceEqDiff, if_true, if_false, true_or, or_true, false_and, true_and, Option.bind_eq_some_iff, Option.map_eq_some_iff,
      Option.ite_none_right_eq_some, Option.some.injEq, false_or] at h ⊢
  -- AUIPC, LUI and JAL
  iterate 3 exact ⟨_, _, _, h.symm, fun _ _ => rfl⟩
  -- a branch puts no value, as one of x0 does not
  · obtain ⟨b, hb, rfl⟩ := h
    exact ⟨0, 0#64, _, rfl, fun _ _ => ⟨b, hb, rfl⟩⟩
  -- JALR
  · obtain ⟨h3, hz⟩ := h
    exact ⟨_, _, _, hz.symm, fun _ _ => ⟨h3, rfl⟩⟩
  -- the operations
  all_goals
    obtain ⟨v, hv, hz⟩ := h
    exact ⟨_, v, _, hz.symm, fun _ _ => ⟨v, hv, rfl⟩⟩

/-- An instruction on the integer registers changes no other field, and does the same with other lines in the caches. -/
theorem SCore.plain_withCaches {y z : SCore} {w len : Nat} (hop : w % 128 ∈ [0x13, 0x17, 0x1B, 0x33, 0x37, 0x3B, 0x63, 0x67, 0x6F])
    (h : y.plain w len = some z) (ic dc : List CLine) :
    (∃ xs pc, z = { y with x := xs, pc := pc }) ∧ (y.withCaches ic dc).plain w len = some (z.withCaches ic dc) := by
  obtain ⟨r, v, pc, rfl, same⟩ := SCore.plain_integer hop h
  obtain ⟨xs, hx⟩ := y.setX_frame r v
  refine ⟨⟨xs, pc, by rw [hx]⟩, ?_⟩
  rw [same, SCore.setX_withCaches]
  rfl

/-- Such an instruction is executed as it acts on its S-core's registers. -/
theorem State.rvExec_plain {s : State} {d c w len : Nat} {z : SCore}
    (hop : w % 128 ∈ [0x13, 0x17, 0x1B, 0x33, 0x37, 0x3B, 0x63, 0x67, 0x6F]) (h : (s.sc d c).plain w len = some z) :
    s.rvExec d c w len = s.setSc d c z := by
  have other : ∀ k ∈ [0x03, 0x07, 0x23, 0x27, 0x2F, 0x0F, 0x73, 0x0B, 0x2B], w % 128 ≠ k := by
    intro k hk e
    rw [e] at hop
    fin_cases hk <;> simp at hop
  simp only [List.forall_mem_cons] at other
  obtain ⟨o1, o2, o3, o4, o5, o6, o7, o8, o9, -⟩ := other
  unfold State.rvExec
  simp only [o1, o2, o3, o4, o5, o6, o7, o8, o9, false_and, or_self, if_false, h]

-- Instruction fetch (spec/06 R175, R178) --------------------------------------------------------------------------------------

/-- Addresses of one line are one line of the panel's addresses (spec/06 R178). -/
theorem panelAddr_add {a k : Nat} (h : a % 64 + k < 64) : panelAddr (a + k) = panelAddr a + k := by
  unfold panelAddr
  omega
theorem panelAddr_mod (a : Nat) : panelAddr a % 64 = a % 64 := by
  unfold panelAddr
  omega

/-- Bytes of a number in two parts. -/
theorem leVal_append (l r : List Byte) : leVal (l ++ r) = leVal l + 2 ^ (8 * l.length) * leVal r := by
  induction l with
  | nil => simp [leVal]
  | cons b l ih =>
    simp only [List.cons_append, leVal, ih, List.length_cons]
    ring

/-- An S-core reaches HBM at the addresses below its site windows, where its die has a partition. -/
theorem State.target_score_hbm {s : State} {d c a p : Nat} :
    s.target (.score d c) a = .hbm p ↔ a < 0x4000000000000000 ∧ s.partOfNode d = some p := by
  unfold State.target
  by_cases h : a < 0x4000000000000000
  · simp only [h, if_true, true_and]
    cases s.partOfNode d <;> simp
  · simp only [h, if_false, false_and, iff_false]
    intro e
    repeat' split at e
    all_goals cases e

/-- Which HBM an S-core reaches does not rest on what the caches hold. -/
theorem State.ReadCached.target {s t : State} {d c a p : Nat} (h : s.ReadCached t d c) (ht : s.target (.score d c) a = .hbm p) :
    t.target (.score d c) a = .hbm p := by
  obtain ⟨ds, rfl⟩ := h.only
  rw [State.target_score_hbm] at ht ⊢
  exact ht
theorem State.ReadCached.hbmSize {s t : State} {d c : Nat} (h : s.ReadCached t d c) (p : Nat) : t.hbmSize p = s.hbmSize p := by
  obtain ⟨ds, rfl⟩ := h.only
  rfl
theorem State.ReadCached.keptRange {s t : State} {d c : Nat} (h : s.ReadCached t d c) (p a n : Nat) : t.keptRange p a n = s.keptRange p a n := by
  obtain ⟨ds, rfl⟩ := h.only
  rfl
theorem State.ReadCached.mode {s t : State} {d c : Nat} (h : s.ReadCached t d c) : (t.sc d c).mode = (s.sc d c).mode := by
  obtain ⟨ic, dc, hc⟩ := h.core
  rw [hc]
  rfl

/-- Two bytes of an instruction, in machine mode, in a line that the instruction cache holds without error. -/
theorem State.rvFetch2_of_ic {s : State} {d c p va : Nat} {l : CLine} (hm : (s.sc d c).mode = 3) (hv : va + 2 ≤ 2 ^ 56) (hw : va % 64 + 2 ≤ 64)
    (ht : s.target (.score d c) (panelAddr va) = .hbm p) (hs : panelAddr va + 2 ≤ s.hbmSize p) (hk : s.keptRange p (panelAddr va) 2 = false)
    (hl : cacheLine (s.sc d c).ic (panelAddr va / 64 * 64) = some l) (he : l.errs = []) :
    ∃ t, s.rvFetch2 d c va = (t, .pa (leVal ((l.bytes.drop (va % 64)).take 2))) ∧ s.ReadCached t d c ∧
      cacheLine (t.sc d c).ic (panelAddr va / 64 * 64) = some l := by
  have mod := panelAddr_mod va
  have same : s.translate d c .fetch va = (s, .pa va) := by
    unfold State.translate
    simp only [ne_eq, not_true_eq_false, false_and, if_false, hm, true_or, if_true]
    rw [if_pos (by omega)]
  obtain ⟨t, read, frame, line⟩ := State.cacheRead_of_l1 (code := true) (n := 2) (p := p) (by omega) (by omega) hl he
  rw [mod] at read
  refine ⟨t, ?_, frame, line⟩
  unfold State.rvFetch2 State.physRead
  simp only [same, State.readPanel_backed ht hs hk, read]

/-- An S-core in machine mode without an interrupt fetches the instruction at its pc and executes it. -/
theorem State.scExecute_of_ic {s : State} {d c p : Nat} {l : CLine} (hr : s.scReady d c = true) (hf : s.scFree d c = true)
    (hi : s.rvInterrupt d c = none) (hst : (s.sc d c).st = 1) (hm : (s.sc d c).mode = 3) (hv : (s.sc d c).pc.toNat + 4 ≤ 2 ^ 56)
    (hw : (s.sc d c).pc.toNat % 64 + 4 ≤ 64)
    (hb : ∀ k ∈ [0, 2], s.target (.score d c) (panelAddr ((s.sc d c).pc.toNat + k)) = .hbm p ∧
      panelAddr ((s.sc d c).pc.toNat + k) + 2 ≤ s.hbmSize p ∧ s.keptRange p (panelAddr ((s.sc d c).pc.toNat + k)) 2 = false)
    (hl : cacheLine (s.sc d c).ic (panelAddr (s.sc d c).pc.toNat / 64 * 64) = some l) (hlen : l.bytes.length = 64) (he : l.errs = [])
    (h4 : leVal ((l.bytes.drop ((s.sc d c).pc.toNat % 64)).take 4) % 4 = 3) :
    ∃ t, s.scExecute d c = t.rvExec d c (leVal ((l.bytes.drop ((s.sc d c).pc.toNat % 64)).take 4)) 4 ∧ s.ReadCached t d c := by
  generalize hpc : (s.sc d c).pc.toNat = pc at *
  obtain ⟨⟨t0, s0, k0⟩, ⟨t2, s2, k2⟩⟩ : _ ∧ _ := ⟨hb 0 (by simp), hb 2 (by simp)⟩
  rw [Nat.add_zero] at t0 s0 k0
  have run : { s.sc d c with st := 1 } = s.sc d c := by rw [← hst]
  have start : s.ReadCached (s.setSc d c (s.sc d c)) d c := State.ReadCached.setL1 s d c true (s.sc d c).ic
  have core : (s.setSc d c (s.sc d c)).sc d c = s.sc d c := by rw [State.sc_setSc, if_pos ⟨rfl, rfl⟩]
  obtain ⟨t, fetch, frame, line⟩ := State.rvFetch2_of_ic (va := pc) (l := l) (start.mode.trans hm) (by omega) (by omega)
    (start.target t0) ((start.hbmSize _).symm ▸ s0) ((start.keptRange ..).trans k0) (by rw [core]; exact hl) he
  have frame := start.trans frame
  have next : panelAddr (pc + 2) / 64 * 64 = panelAddr pc / 64 * 64 := by
    have := panelAddr_add (a := pc) (k := 2) (by omega)
    have := panelAddr_mod pc
    omega
  obtain ⟨u, fetch', frame', -⟩ := State.rvFetch2_of_ic (va := pc + 2) (l := l) (frame.mode.trans hm) (by omega) (by omega)
    (frame.target t2) ((frame.hbmSize _).symm ▸ s2) ((frame.keptRange ..).trans k2) (by rw [next]; exact line) he
  have word : leVal ((l.bytes.drop (pc % 64)).take 4) =
      leVal ((l.bytes.drop (pc % 64)).take 2) + 2 ^ 16 * leVal ((l.bytes.drop ((pc + 2) % 64)).take 2) := by
    rw [show (pc + 2) % 64 = pc % 64 + 2 by omega, ← List.drop_drop, show 4 = 2 + 2 from rfl, List.take_add, leVal_append]
    rw [List.length_take_of_le (by rw [List.length_drop]; omega)]
  refine ⟨u, ?_, frame.trans frame'⟩
  unfold State.scExecute
  simp only [hr, hf, hst, hi, run, hpc, fetch, Bool.not_true, Bool.or_self, Nat.reduceEqDiff, decide_false, Bool.false_and, Bool.false_eq_true,
    if_false]
  rw [if_pos (by omega), show (pc + 2) % 2 ^ 64 = pc + 2 by omega, fetch', word]

-- What each access leaves (spec/06 R179, R180) ----------------------------------------------------------------------------------

theorem State.l2_setSc (s : State) (d c e : Nat) (y : SCore) : ((s.setSc d c y).die e).l2 = (s.die e).l2 := by
  unfold State.setSc
  rw [State.die_modDie]
  split
  · subst e
    rfl
  · rfl
theorem State.place_setSc (s : State) (d c e p : Nat) (y : SCore) : (s.setSc d c y).place e p = s.place e p := by
  unfold State.setSc State.place
  rw [State.die_modDie]
  split
  · subst e
    rfl
  · rfl
theorem SameOutside.setSc {s t : State} (h : SameOutside s t) (d c : Nat) (y : SCore) : SameOutside s (t.setSc d c y) :=
  ⟨h.fuses, h.nvm, h.mds, h.fds, h.parts, h.sess, h.ptc16, h.rdata, h.out, h.pending⟩

section
variable {s : State} {d c p width : Nat} {pa : BitVec 56} {reg : BitVec 5} {l : CLine} (hr : s.scReady d c = true)
include hr

section
variable (ht : s.target (.score d c) (panelAddr pa.toNat) = .hbm p) (hs : panelAddr pa.toNat + width ≤ s.hbmSize p)
  (hk : s.keptRange p (panelAddr pa.toNat) width = false) (hn : 0 < width) (hw : panelAddr pa.toNat % 64 + width ≤ 64)
include ht hs hk hn hw

/-- A load of bytes of one line that the data cache holds, or takes from the shared one, puts their value in its register; no line of the
shared cache changes, and nothing outside the die. -/
theorem State.scAccess_load_cached (sx : Bool) (he : l.errs = [])
    (hl : cacheLine (s.sc d c).dc (panelAddr pa.toNat / 64 * 64) = some l ∨
      cacheLine (s.sc d c).dc (panelAddr pa.toNat / 64 * 64) = none ∧ (s.sc d c).dc.length < l1Lines ∧
        cacheLine (s.die d).l2 (panelAddr pa.toNat / 64 * 64) = some l) :
    let t := s.scAccess d c (.load sx) pa width reg
    (∀ r, (t.sc d c).getX r = if r = reg.toNat ∧ r ≠ 0 then
        extend sx width (leVal ((l.bytes.drop (panelAddr pa.toNat % 64)).take width)) else (s.sc d c).getX r) ∧
      (∀ q, cacheLine (t.die d).l2 q = cacheLine (s.die d).l2 q) ∧ SameOutside s t := by
  obtain ⟨t, read, frame⟩ : ∃ t, s.cacheRead d c p (panelAddr pa.toNat) width false =
      (t, .val (leVal ((l.bytes.drop (panelAddr pa.toNat % 64)).take width))) ∧ s.ReadCached t d c := by
    rcases hl with h1 | ⟨h1, room, h2⟩
    · obtain ⟨t, read, frame, -⟩ := State.cacheRead_of_l1 (code := false) (p := p) hn hw h1 he
      exact ⟨t, read, frame⟩
    · exact State.cacheRead_of_l2 hn hw h1 room h2 he
  intro u
  have hu : u = _ := State.scAccess_load_val hr ((State.readPanel_backed ht hs hk ..).trans read)
  obtain ⟨ic, dc, core⟩ := frame.core
  rw [hu]
  refine ⟨fun r => ?_, fun q => ?_, frame.outside.setSc ..⟩
  · rw [State.sc_setSc, if_pos ⟨rfl, rfl⟩, SCore.getX_setX, core, SCore.getX_withCaches]
  · rw [← frame.l2 q, State.l2_setSc]

/-- A store to bytes of one line that the shared cache holds writes them there, marks the line dirty, and writes them to every data cache's
copy; no other line of the shared cache changes, no integer register, and nothing outside the die. -/
theorem State.scAccess_store_cached (hl : cacheLine (s.die d).l2 (panelAddr pa.toNat / 64 * 64) = some l) (hlen : l.bytes.length = 64) :
    let t := s.scAccess d c .store pa width reg
    let stored := fun (l l' : CLine) => ∀ k, k < 64 → l'.bytes.getD k 0#8 =
      if panelAddr pa.toNat % 64 ≤ k ∧ k < panelAddr pa.toNat % 64 + width then
        (leBytes width ((s.sc d c).getX reg.toNat).toNat).getD (k - panelAddr pa.toNat % 64) 0#8
      else l.bytes.getD k 0#8
    (∃ l', cacheLine (t.die d).l2 (panelAddr pa.toNat / 64 * 64) = some l' ∧ l'.dirty = true ∧ stored l l') ∧
      (∀ q, q ≠ panelAddr pa.toNat / 64 * 64 → cacheLine (t.die d).l2 q = cacheLine (s.die d).l2 q) ∧
      (∀ k m, cacheLine (s.sc d k).dc (panelAddr pa.toNat / 64 * 64) = some m → m.bytes.length = 64 →
        ∃ m', cacheLine (t.sc d k).dc (panelAddr pa.toNat / 64 * 64) = some m' ∧ stored m m') ∧
      (∀ r, (t.sc d c).getX r = (s.sc d c).getX r) ∧ SameOutside s t := by
  have len := length_leBytes width ((s.sc d c).getX reg.toNat).toNat
  generalize hbs : leBytes width ((s.sc d c).getX reg.toNat).toNat = bs at len
  subst len
  obtain ⟨t, write, l2, cores, outside⟩ := State.cacheWrite_of_l2 (c := c) (p := p) hn hw hl
  intro u stored
  have hu : u = t := State.scAccess_store_val hr ((State.writePanel_backed ht hs hk _).trans (hbs ▸ write))
  have bytes : ∀ dirty m, m.addr = panelAddr pa.toNat / 64 * 64 → m.bytes.length = 64 →
      stored m (m.stored (panelAddr pa.toNat) bs dirty) :=
    fun dirty m ha hm k _ => CLine.bytes_stored hn hw dirty ha hm k
  rw [hu]
  refine ⟨⟨_, ?_, CLine.dirty_stored hn hw true (cacheLine_addr hl), bytes _ _ (cacheLine_addr hl) hlen⟩, fun q hq => ?_, fun k m hm hmlen =>
    ⟨_, ?_, bytes false _ (cacheLine_addr hm) hmlen⟩, fun r => ?_, outside⟩
  · rw [l2, cacheLine_map (CLine.addr_stored _ bs true), hl]
    rfl
  · rw [l2, cacheLine_map_other (CLine.addr_stored _ bs true) (fun _ => CLine.stored_other hn hw true) hq]
  · rw [(cores k).2, cacheLine_map (CLine.addr_stored _ bs false), hm]
    rfl
  · unfold SCore.getX
    rw [(cores c).1]

end

section
variable (ht : s.target (.score d c) (panelAddr pa.toNat / 64 * 64) = .hbm p) (hs : panelAddr pa.toNat / 64 * 64 + 64 ≤ s.hbmSize p)
  (hk : s.keptRange p (panelAddr pa.toNat / 64 * 64) 64 = false)
include ht hs hk

/-- A cache-block operation acts on the line of its address. -/
theorem State.scAccess_cbo {kind : ScKind} (hkind : kind = .cboInval ∨ kind = .cboClean ∨ kind = .cboFlush) {t : State}
    (h : s.cboLine d p (panelAddr pa.toNat / 64 * 64) kind = (t, .val 0)) : s.scAccess d c kind pa width reg = t := by
  refine State.scAccess_cbo_val hr hkind (v := 0) ?_
  unfold State.physCbo
  rw [Nat.mul_comm]
  exact (State.cboPanel_backed ht hs hk kind).trans h

/-- CBO.INVAL takes the line out of the shared cache and of every data cache, and no other line. -/
theorem State.scAccess_cboInval :
    let t := s.scAccess d c .cboInval pa width reg
    cacheLine (t.die d).l2 (panelAddr pa.toNat / 64 * 64) = none ∧ (∀ k, cacheLine (t.sc d k).dc (panelAddr pa.toNat / 64 * 64) = none) ∧
      (∀ q, q ≠ panelAddr pa.toNat / 64 * 64 → cacheLine (t.die d).l2 q = cacheLine (s.die d).l2 q) ∧ SameOutside s t := by
  intro t
  have eq : t = _ := State.scAccess_cbo hr ht hs hk (.inl rfl) State.cboLine_inval
  obtain ⟨l2, dc⟩ := s.dropLine_lines d (panelAddr pa.toNat / 64 * 64)
  rw [eq]
  exact ⟨by rw [l2, if_pos rfl], dc, fun q hq => by rw [l2, if_neg hq], ⟨rfl, rfl, rfl, rfl, rfl, rfl, rfl, rfl, rfl, rfl⟩⟩

variable (hl : cacheLine (s.die d).l2 (panelAddr pa.toNat / 64 * 64) = some l)
include hl

/-- CBO.CLEAN of a clean line changes no line, no stack and not the PCD. -/
theorem State.scAccess_cboClean_clean (hd : l.dirty = false) :
    let t := s.scAccess d c .cboClean pa width reg
    (∀ q, cacheLine (t.die d).l2 q = cacheLine (s.die d).l2 q) ∧ t.mds = s.mds ∧ t.pcd = s.pcd := by
  intro t
  have eq : t = _ := State.scAccess_cbo hr ht hs hk (.inr (.inl rfl)) (State.cboLine_clean hl (.inl hd))
  rw [eq, State.lineBack_of_clean hd]
  refine ⟨fun q => ?_, rfl, rfl⟩
  rw [State.die_modDie, if_pos rfl]
  by_cases hq : q = panelAddr pa.toNat / 64 * 64
  · rw [hq, cacheLine_map (CLine.addr_cleaned _), hl, Option.map_some, CLine.cleaned_same (cacheLine_addr hl), ← hd]
  · exact cacheLine_map_other (CLine.addr_cleaned _) (fun _ => CLine.cleaned_other) hq

variable {m loc : Nat} (hlen : l.bytes.length = 64) (he : l.errs = []) (hd : l.dirty = true)
  (room : s.refillRoom p (panelAddr pa.toNat / 64 * 64) = true) (hm : s.hbmMap p (panelAddr pa.toNat / 64 * 64) = some (m, loc))
  (on : s.mdOn m = true) (hm' : (s.md m).errs = [])
include hlen he hd room hm on hm'

/-- CBO.CLEAN writes a dirty line back to its stack and keeps it clean; CBO.FLUSH writes it back and takes it out. -/
theorem State.scAccess_cbo_dirty :
    let home := fun (t : State) => ∀ b,
      memRead (t.md m).mem b = if loc ≤ b ∧ b < loc + 64 then l.bytes.getD (b - loc) 0#8 else memRead (s.md m).mem b
    let t := s.scAccess d c .cboClean pa width reg
    let u := s.scAccess d c .cboFlush pa width reg
    (home t ∧ cacheLine (t.die d).l2 (panelAddr pa.toNat / 64 * 64) = some { l with dirty := false }) ∧
      (home u ∧ cacheLine (u.die d).l2 (panelAddr pa.toNat / 64 * 64) = none ∧
        ∀ k, cacheLine (u.sc d k).dc (panelAddr pa.toNat / 64 * 64) = none) := by
  have ha := cacheLine_addr hl
  obtain ⟨mem, dies⟩ := State.lineBack_of_dirty (d := d) hd hlen he (by omega) (ha.symm ▸ hm) on hm'
  have die : (s.lineBack p d l).die d = s.die d := by
    unfold State.die
    rw [dies]
  intro home t u
  have clean : t = _ := State.scAccess_cbo hr ht hs hk (.inr (.inl rfl)) (State.cboLine_clean hl (.inr room))
  have flush : u = _ := State.scAccess_cbo hr ht hs hk (.inr (.inr rfl)) (State.cboLine_flush hl (.inr room))
  obtain ⟨l2, dc⟩ := (s.lineBack p d l).dropLine_lines d (panelAddr pa.toNat / 64 * 64)
  rw [clean, flush]
  refine ⟨⟨mem, ?_⟩, mem, by rw [l2, if_pos rfl], dc⟩
  rw [State.die_modDie, if_pos rfl, die, cacheLine_map (CLine.addr_cleaned _), hl, Option.map_some, CLine.cleaned_same ha]

end

/-- A load from an unbacked address reads 0 and is counted on the die. -/
theorem State.scAccess_load_unbacked (ht : s.target (.score d c) (panelAddr pa.toNat) = .unbacked) (sx : Bool) :
    let t := s.scAccess d c (.load sx) pa width reg
    (t.die d).tally = min 0xFFFFFFFF ((s.die d).tally + 1) ∧
      ∀ r, (t.sc d c).getX r = if r = reg.toNat then 0#64 else (s.sc d c).getX r := by
  intro t
  have eq : t = _ := State.scAccess_load_val hr (State.readPanel_unbacked ht ..)
  have zero : extend sx width 0 = 0#64 := by simp [extend]
  rw [eq, zero]
  refine ⟨by simp [State.refuseBy, State.setSc], fun r => ?_⟩
  rw [State.sc_setSc, if_pos ⟨rfl, rfl⟩, SCore.getX_setX, show (s.refuseBy (.score d c)).sc d c = s.sc d c by simp [State.refuseBy, State.sc, Die.sc]]
  by_cases h0 : r = 0
  · subst h0
    simp [SCore.getX]
  · simp [h0]

end

/-- An instruction on the integer registers, executed from its line of the instruction cache, leaves its pc and their values, and changes nothing
else of its S-core but its caches, and nothing outside it. -/
theorem State.ReadCached.rvExec_plain {s t : State} {d c w : Nat} {z : SCore} (h : s.ReadCached t d c)
    (hop : w % 128 ∈ [0x13, 0x17, 0x1B, 0x33, 0x37, 0x3B, 0x63, 0x67, 0x6F]) (hz : (s.sc d c).plain w 4 = some z) :
    let u := t.rvExec d c w 4
    (u.sc d c).pc = z.pc ∧ (∀ r, (u.sc d c).getX r = z.getX r) ∧ (u.sc d c).csrs = (s.sc d c).csrs ∧ (u.sc d c).mode = (s.sc d c).mode ∧
      (u.sc d c).st = (s.sc d c).st ∧ (∀ q, cacheLine (u.die d).l2 q = cacheLine (s.die d).l2 q) ∧ (∀ p, u.place d p = s.place d p) ∧
      u.regs = s.regs ∧ u.pcd = s.pcd ∧ SameOutside s u := by
  obtain ⟨ic, dc, core⟩ := h.core
  obtain ⟨ds, only⟩ := h.only
  obtain ⟨⟨xs, pc, fields⟩, plain⟩ := SCore.plain_withCaches hop hz ic dc
  intro u
  have eq : u = t.setSc d c (z.withCaches ic dc) := State.rvExec_plain hop (core ▸ plain)
  have post : u.sc d c = z.withCaches ic dc := by rw [eq, State.sc_setSc, if_pos ⟨rfl, rfl⟩]
  rw [post, eq]
  refine ⟨rfl, fun r => rfl, ?_, ?_, ?_, fun q => ?_, fun p => ?_, ?_, ?_, h.outside.setSc ..⟩
  · rw [fields]
    rfl
  · rw [fields]
    rfl
  · rw [fields]
    rfl
  · rw [State.l2_setSc, h.l2]
  · rw [State.place_setSc, h.place]
  · rw [only]
    rfl
  · rw [only]
    rfl

/-- Settles O24: each access by what it finds in the caches, and the trap or the count of one that finds no HBM. -/
theorem scoreMemoryThroughTheCache : Obligations.ScoreMemoryThroughTheCache := by
  intro s d c pa width reg hd hc hr a ln val stored
  refine ⟨fun p ht hs hk hn hw => ⟨fun l sx hl he => ?_, fun l hl hlen => ?_⟩, fun p ht hs hk => ?_,
    fun p l m loc ht hs hk hl hlen he => ⟨fun clean => ?_, fun dirty room hm on hm' => ?_⟩, ?_, fun p ht hs => ⟨fun sx => ?_, ?_⟩,
    fun ht sx => ?_⟩
  · exact ⟨_, execSCoreMemoryAccess_eq hd hc pa width reg, State.scAccess_load_cached hr ht hs hk hn hw sx he hl⟩
  · exact ⟨_, execSCoreMemoryAccess_eq hd hc pa width reg, State.scAccess_store_cached hr ht hs hk hn hw hl hlen⟩
  · exact ⟨_, execSCoreMemoryAccess_eq hd hc pa width reg, State.scAccess_cboInval hr ht hs hk⟩
  · exact ⟨_, execSCoreMemoryAccess_eq hd hc pa width reg, State.scAccess_cboClean_clean hr ht hs hk hl clean⟩
  · obtain ⟨kept, out⟩ := State.scAccess_cbo_dirty hr ht hs hk hl hlen he dirty room hm on hm' (width := width) (reg := reg)
    exact ⟨⟨_, execSCoreMemoryAccess_eq hd hc pa width reg, kept⟩, ⟨_, execSCoreMemoryAccess_eq hd hc pa width reg, out⟩⟩
  · intro p l z y pc w hf hi hst hm hv hw hb hl hlen he h4 hz hop
    obtain ⟨t, run, frame⟩ := State.scExecute_of_ic hr hf hi hst hm hv hw hb hl hlen he h4
    have post := frame.rvExec_plain hop hz
    rw [hm, hst] at post
    exact ⟨_, (execSCoreMemoryAccess_execute hd hc ..).trans (congrArg _ run), post⟩
  · refine ⟨_, execSCoreMemoryAccess_eq hd hc pa width reg, ?_⟩
    rw [State.scAccess_load_fail hr (State.readPanel_beyond ht hs ..)]
    exact s.scTrapAt_trapped ..
  · refine ⟨_, execSCoreMemoryAccess_eq hd hc pa width reg, ?_⟩
    rw [State.scAccess_store_fail hr (State.writePanel_beyond ht hs _)]
    exact s.scTrapAt_trapped ..
  · exact ⟨_, execSCoreMemoryAccess_eq hd hc pa width reg, State.scAccess_load_unbacked hr ht sx⟩

end Sys2Proof.Machine
end

section
/-! ARP_REPLY for a host port: well formed, and without a meaning (spec/12 R343, spec/13 R379). -/

namespace Sys2Proof.Machine

/-- ARP_REPLY has a meaning for the fabric dies alone: R343 resolves the gateway's MAC address of an FD. -/
theorem exec_arpReply_of_le {fd : Nat} (h : 16 ≤ fd) (mac : BitVec 48) (s : State) : exec (.arpReply fd mac) s = .fault .noSuchUnit :=
  if_neg (by simpa using h)

/-- Refutes O3: `Instr.wf` numbers the units of ARP_REPLY 0 to 17, as it does those of ARP_REQUEST, which both host ports answer (R379); the
reply's meaning takes 0 to 15. The reply to unit 16 is well formed and stops at reset. -/
theorem not_wellFormedCommandsComplete : ¬ Obligations.WellFormedCommandsComplete := by
  intro h
  obtain ⟨t, answers⟩ := (h (.arpReply 16 0x112233445566) State.reset).1 (by decide)
  rw [exec_arpReply_of_le le_rfl] at answers
  cases answers

end Sys2Proof.Machine
end

section
/-! Writes of the stochastic rounding seeds (spec/02 R65, R66). -/

namespace Sys2Proof.Machine

/-- A site window that its source reaches: the write acts on the die behind it. -/
theorem State.atSite_of_reaches {s : State} {src : Source} {site d : Nat} (h : s.reaches src site d) (f : State → Nat → State) :
    s.atSite src site f = f s d := by
  obtain ⟨node, on, own⟩ := h
  cases src with
  | score | host => simp [State.atSite, node, on, own]
  | pcd => simp [State.atSite, node, on]
  | mgmt => exact own.elim

/-- Values put at the n keys from b upward: each reads as its value, every other key as before. -/
theorem sget_foldl_sput_range {α : Type} (d : α) (m : SMap α) (b n j : Nat) (f : Nat → α) :
    sget d ((List.range n).foldl (fun l g => sput l (b + g) (f g)) m) j = if b ≤ j ∧ j < b + n then f (j - b) else sget d m j := by
  induction n with
  | zero => rw [if_neg (by omega), List.range_zero, List.foldl_nil]
  | succ n ih =>
    rw [List.range_succ, List.foldl_append, List.foldl_cons, List.foldl_nil, sget_sput, ih]
    by_cases hj : j = b + n
    · rw [if_pos hj, if_pos (by omega), hj, Nat.add_sub_cancel_left]
    · rw [if_neg hj]
      exact if_congr (by omega) rfl rfl

/-- Stochastic rounding generators of a core: 8 of the scraper, 16 of any other (spec/02 R64). -/
def genCount (c : Nat) : Nat := if c = 24 then 8 else 16

theorem genCount_le (c : Nat) : genCount c ≤ 16 := by
  unfold genCount
  split <;> omega

/-- A die with the generators of core c seeded (spec/02 R65). -/
def Die.seeded (x : Die) (c : Nat) (v : W64) : Die :=
  { x with gens := (List.range (genCount c)).foldl (fun m g => sput m (16 * c + g) (seedState v g)) x.gens }

theorem Die.gen_seeded_same (x : Die) {c g : Nat} (v : W64) (hg : g < genCount c) : (x.seeded c v).gen c g = seedState v g := by
  unfold Die.gen Die.seeded
  rw [sget_foldl_sput_range, if_pos (by omega), Nat.add_sub_cancel_left]

theorem Die.gen_seeded_ne (x : Die) {c k g : Nat} (v : W64) (hk : k ≠ c) (hg : g < 16) : (x.seeded c v).gen k g = x.gen k g := by
  have own := genCount_le c
  unfold Die.gen Die.seeded
  rw [sget_foldl_sput_range, if_neg (by omega)]

section
variable {s : State} {d c : Nat} (v : W64)

/-- R66: a place runs on the core, and the seed is discarded. -/
theorem State.seedOn_of_running (h : (s.place d c).st = .running) : s.seedOn d c v = s.setRgB d CD_ARITH_STATUS 8 true := if_pos h

/-- R65: no place runs on the core, and the register and the generators take the seed. -/
theorem State.seedOn_of_not_running (h : (s.place d c).st ≠ .running) :
    s.seedOn d c v = (s.setRg d (CD_SR_SEED c) v.toNat).modDie d (·.seeded c v) := if_neg h

end

theorem exec_srSeedWrite_of_reaches {s : State} {src : Source} {site core d : Nat} (seed : W64) (hsrc : src.ok = true) (hsite : site < 512)
    (hcore : core < 25) (hr : s.reaches src site d) : exec (.srSeedWrite src site core seed) s = .next (s.seedOn d core seed) := by
  have hwf : (Instr.srSeedWrite src site core seed).wf = true := by simp [Instr.wf, hsrc, hsite, hcore]
  show guard _ _ = _
  rw [hwf, State.atSite_of_reaches hr]
  rfl

/-- Settles O11: a reached seed write is `seedOn`, by whether a place runs on the core. -/
theorem seedWriteWhileRunningIsRejected : Obligations.SeedWriteWhileRunningIsRejected := by
  intro s src site core d seed hsrc hsite hcore hr
  have write := exec_srSeedWrite_of_reaches seed hsrc hsite hcore hr
  refine ⟨fun run => ?_, fun idle => ?_⟩
  · rw [write, State.seedOn_of_running seed run]
  · rw [State.seedOn_of_not_running seed idle] at write
    refine ⟨_, write, ?seed, fun g hg => ?own, fun c g hc hg => ?others, fun n o ho => ?registers, fun e he => ?dies, rfl,
      ⟨rfl, rfl, rfl, rfl, rfl, rfl, rfl, rfl, rfl, rfl⟩⟩
    case seed => rw [State.rg_modDie, State.rg_setRg_same]
    case own => rw [State.die_modDie, if_pos rfl, Die.gen_seeded_same _ seed hg]
    case others => rw [State.die_modDie, if_pos rfl, Die.gen_seeded_ne _ seed hc hg, State.die_setRg]
    case registers => rw [State.rg_modDie, State.rg_setRg, if_neg ho]
    case dies => rw [State.die_modDie, if_neg he, State.die_setRg]

end Sys2Proof.Machine
end

section
/-! Arming of injections, and the M-core's commands NOP and ZERO (spec/03 R94, R101, R102, R118, R120). -/

namespace Sys2Proof.Machine

-- Arming of injections (spec/03 R118) -----------------------------------------------------------------------------------------

theorem exec_mcInjectArm_of_reaches {s : State} {src : Source} {site d : Nat} (val : W32) (hsrc : src.ok = true) (hsite : site < 512)
    (hr : s.reaches src site d) : exec (.mcInjectArm src site val) s = .next (s.injectOn d val.toNat) := by
  have hwf : (Instr.mcInjectArm src site val).wf = true := by simp [Instr.wf, hsrc, hsite]
  show guard _ _ = _
  rw [hwf, State.atSite_of_reaches hr]
  rfl

/-- R118, R503: what a write to the injection register does under a configuration. -/
theorem State.injectOn_of_conf {s : State} {c : Conf} (hc : s.pcd.conf = some c) (d : Nat) (val : W32) :
    s.injectOn d val.toNat =
      if c.faultInj = true ∧ val.getLsbD 31 = true then s.modDie d (fun x => { x with inject := x.inject ||| 2 ^ bits val.toNat 19 16 }) else s := by
  unfold State.injectOn
  rw [hc, BitVec.testBit_toNat]
  simp only [Bool.and_eq_true]

/-- Settles O12: a reached write is `injectOn`, by the configuration and ARM. -/
theorem injectArmNeedsTheConfiguration : Obligations.InjectArmNeedsTheConfiguration := by
  intro s src site d val hsrc hsite hr
  rw [Completes, exec_mcInjectArm_of_reaches val hsrc hsite hr]
  refine ⟨fun none => ?_, fun c hc => ?_⟩
  · unfold State.injectOn
    rw [none]
  · rw [State.injectOn_of_conf hc]
    refine ⟨fun armed => ⟨_, rfl, ?_⟩, fun idle => by rw [if_neg idle]⟩
    rw [if_pos armed, State.die_modDie, if_pos rfl]
    refine ⟨fun k => ?_, rfl⟩
    rw [Nat.testBit_or, Nat.testBit_two_pow, Bool.or_comm]
    simp only [eq_comm]

-- Faults of an M-core (spec/03 R102, R119, R120) ---------------------------------------------------------------------------------

theorem State.place_modDie (s : State) (d p : Nat) (f : Die → Die) : (s.modDie d f).place d p = (f (s.die d)).place p := by
  rw [State.place, State.die_modDie, if_pos rfl]

theorem State.place_modDie_of_place {f : Die → Die} {p : Nat} (h : ∀ x, (f x).place p = x.place p) (s : State) (d : Nat) :
    (s.modDie d f).place d p = s.place d p := by rw [State.place_modDie, h, State.place]
theorem State.place_setPend (s : State) (d q p : Nat) : (s.setPend d q).place d p = s.place d p := by
  rw [State.setPend, State.place_modDie_of_place]
  exact fun _ => rfl
@[simp] theorem State.place_setRg (s : State) (n o v d p : Nat) : (s.setRg n o v).place d p = s.place d p := rfl
@[simp] theorem State.place_setPcd (s : State) (f : Pcd → Pcd) (d p : Nat) : (s.setPcd f).place d p = s.place d p := rfl
@[simp] theorem State.place_raise (s : State) (n code unit data d p : Nat) : (s.raise n code unit data).place d p = s.place d p := rfl

theorem Die.place_cutRuns (x : Die) (p c q : Nat) : (x.cutRuns p c).place q = x.place q := by
  unfold Die.cutRuns
  dsimp only
  split
  · rfl
  · split <;> rfl

/-- A place that has been halted, or that a fault has halted, stands halted. -/
theorem State.st_haltPlace (s : State) (d p : Nat) : ((s.haltPlace d p).place d p).st = .halted := by
  unfold State.haltPlace
  split
  · assumption
  · rw [State.place_setPend, State.place_modDie_of_place (fun x => x.place_cutRuns ..),
      State.place_modPlace, if_pos ⟨rfl, rfl⟩]
theorem State.st_stopFaults (s : State) (d p c rd : Nat) : ((s.stopFaults d p c rd).place d p).st = (s.place d p).st := by
  unfold State.stopFaults
  rw [State.place_setPcd, State.place_setSc, State.place_modDie_of_place (fun x => x.place_cutRuns ..), State.place_modPlace, if_pos ⟨rfl, rfl⟩]
theorem State.st_faultHalt (s : State) (d p : Nat) : ((s.faultHalt d p).place d p).st = .halted := by
  unfold State.faultHalt
  dsimp only
  split
  · rename_i halted
    split
    · split
      · rw [State.st_stopFaults, halted]
      · exact halted
    · exact halted
  · rw [State.place_modPlace, if_pos ⟨rfl, rfl⟩]
    exact s.st_haltPlace d p

/-- The first register of the M-core fault record (spec/03 R120): VALID, KIND, CORE, TURN, CAUSE, ROW. -/
def mcFaultInfo (kind core turn cause row : Nat) : Nat := 2 ^ 31 + kind * 2 ^ 28 + core * 2 ^ 24 + turn * 2 ^ 21 + cause * 2 ^ 16 + row

section
variable {kind core turn cause row : Nat} (hkind : kind < 8) (hcore : core < 16) (hturn : turn < 8) (hcause : cause < 32) (hrow : row < 2 ^ 16)
include hkind hcore hturn hcause hrow

/-- Fields within their widths read back. -/
theorem valid_mcFaultInfo : (mcFaultInfo kind core turn cause row).testBit 31 = true := by
  rw [Nat.testBit_eq_decide_div_mod_eq, decide_eq_true_eq, mcFaultInfo]
  omega
omit hkind in
theorem core_mcFaultInfo : bits (mcFaultInfo kind core turn cause row) 27 24 = core := by
  rw [bits, Nat.shiftRight_eq_div_pow, mcFaultInfo]
  omega
omit hkind hcore hturn in
theorem cause_mcFaultInfo : bits (mcFaultInfo kind core turn cause row) 20 16 = cause := by
  rw [bits, Nat.shiftRight_eq_div_pow, mcFaultInfo]
  omega

end

/-- A fault of an M-core halts its place; a free fault record takes it (spec/03 R119, R120). -/
theorem State.mcFaultAt_of_free {s : State} {d : Nat} (h : s.rgB d CD_MC_FAULT_INFO 31 = false)
    (c turn cmd kind cause row diff tol code unit : Nat) :
    let t := s.mcFaultAt d c turn cmd kind cause row diff tol code unit
    (t.place d c).st = .halted ∧ t.rg d CD_MC_FAULT_INFO = mcFaultInfo kind c turn cause row ∧ t.rg d CD_MC_FAULT_PTC = s.ptc := by
  have free : s.mcRecKept d c = false := by rw [State.mcRecKept, h, Bool.false_and]
  unfold State.mcFaultAt
  simp only [free, Bool.false_eq_true, if_false]
  refine ⟨?_, ?_, ?_⟩
  · rw [State.place_raise]
    rw [State.place_modDie_of_place]
    · simp only [State.place_setRg]
      exact s.st_faultHalt d c
    · exact fun _ => rfl
  · simp [State.raise, CD_MC_FAULT_INFO, CD_MC_FAULT_CMD, CD_MC_FAULT_DIFF, CD_MC_FAULT_TOL, CD_MC_FAULT_PTC, mcFaultInfo]
  · simp [State.raise]

-- NOP and ZERO (spec/03 R94, R101) ------------------------------------------------------------------------------------------------

section
variable {s : State} {d k : Nat} (hd : d < 576) (hk : k < 16)
include hd hk

theorem mcoreNumbers_wf : (decide (d < 576) && decide (k < 16)) = true := by simp [hd, hk]

theorem execMcNop_eq (rsv : Bool) : exec (.mcNop d k rsv) s = .next (s.mcNop d k rsv) := if_pos (mcoreNumbers_wf hd hk)
theorem execZero_eq (c : ZeroCmd) : exec (.zero d k c) s = .next (s.zero d k c true) := if_pos (mcoreNumbers_wf hd hk)

end

/-- A NOP without reserved bits has no effect; one with them is a command fault where the core takes commands. -/
theorem State.mcNop_plain (s : State) (d k : Nat) : s.mcNop d k false = s := by
  rw [State.mcNop, Bool.and_false, if_neg Bool.false_ne_true]
theorem State.mcNop_reserved {s : State} {d k : Nat} (h : s.canIssue d k = true) : s.mcNop d k true = s.mcCmdFault d k 12 0 := by
  rw [State.mcNop, h, if_pos (by rfl)]

/-- A map without the keys from lo to hi, hi not included: they read as unlisted, every other key as before. -/
theorem sget_dropKeys {α : Type} (x : α) (m : SMap α) (lo hi j : Nat) : sget x (dropKeys m lo hi) j = if lo ≤ j ∧ j < hi then x else sget x m j := by
  induction m with
  | nil => exact (ite_self x).symm
  | cons e m ih =>
    obtain ⟨i, v⟩ := e
    unfold dropKeys at ih ⊢
    by_cases kept : i < lo ∨ hi ≤ i
    · rw [List.filter_cons_of_pos (by simpa using kept), sget, ih]
      by_cases same : i = j
      · rw [if_pos same, if_neg (by omega), sget, if_pos same]
      · rw [if_neg same, sget, if_neg same]
    · rw [List.filter_cons_of_neg (by simpa using kept), ih]
      by_cases same : i = j
      · rw [if_pos (by omega), if_pos (by omega)]
      · rw [sget, if_neg same]

/-- ZERO's rows: +0 in their elements, tag 0, every other row as it was. -/
theorem Mcore.elem_zeroRows (m : Mcore) (r0 rows r : Nat) {n : Nat} (hn : n < 64) :
    (m.zeroRows r0 rows).elem r n = if r0 ≤ r ∧ r < r0 + rows then 0#32 else m.elem r n := by
  refine (sget_dropKeys ..).trans (if_congr ?_ rfl rfl)
  omega
theorem Mcore.tag_zeroRows (m : Mcore) (r0 rows r : Nat) :
    (m.zeroRows r0 rows).tag r = if r0 ≤ r ∧ r < r0 + rows then 0 else m.tag r := sget_dropKeys ..

/-- R101: a ZERO that meets no fault. -/
theorem State.zero_of_no_cause {s : State} {d k : Nat} {c : ZeroCmd} (hi : s.canIssue d k = true) (hc : s.zeroCause d k c = none) :
    s.zero d k c true = s.setMc d k { (s.mc d k).zeroRows c.accRow.toNat (c.nrowsM1.toNat + 1) with
      outUntil := (s.die d).cyc + cdiv (c.nrowsM1.toNat + 1) 4 } := by
  unfold State.zero
  rw [if_pos hi, hc]
  rfl

/-- Settles O13: NOP by its reserved field, ZERO as the rows that its core drops. -/
theorem mcNopAndZero : Obligations.McNopAndZero := by
  refine ⟨fun s d k hd hk => ⟨?_, fun issue free slot => ?_⟩, fun s d k c hd hk issue rows idle rsv => ?_⟩
  · rw [execMcNop_eq hd hk, State.mcNop_plain]
  · refine ⟨_, execMcNop_eq hd hk true, ?_⟩
    rw [State.mcNop_reserved issue]
    obtain ⟨halted, info, ptc⟩ :=
      State.mcFaultAt_of_free free k (s.turnOf d k) (s.entryOf d k) 0 12 0 0 0 0x2100 (unitCore d k)
    refine ⟨halted, ?_, ?_, ?_, ptc⟩ <;> rw [State.mcCmdFault, State.mcFault, info]
    · exact valid_mcFaultInfo (by decide) hk slot (by decide) (by decide)
    · exact core_mcFaultInfo hk slot (by decide) (by decide)
    · exact cause_mcFaultInfo (by decide) (by decide)
  · have noCause : s.zeroCause d k c = none := by
      simp [State.zeroCause, lowestCause, rsv, Nat.not_lt.2 idle, Nat.not_lt.2 rows]
    refine ⟨_, execZero_eq hd hk c, ?_⟩
    rw [State.zero_of_no_cause issue noCause]
    simp only [State.mc_setMc, and_self, if_true]
    exact ⟨fun r n hn => Mcore.elem_zeroRows _ _ _ r hn, fun r => Mcore.tag_zeroRows _ _ _ r, rfl, trivial⟩

end Sys2Proof.Machine
end

section
/-! LOADW and LOADW_SHADOW_READY (spec/03 R83, R94-R98): the shadow tile, from lines of the scratchpad or from flits of a lane. -/

namespace Sys2Proof.Machine

-- What counters and reports change ------------------------------------------------------------------------------------------------

/-- A performance counter changes registers alone, an error counter also the PCD, which it alerts at its limit. -/
theorem State.bumpPerf_frame (s : State) (node off n : Nat) : ∃ r, s.bumpPerf node off n = { s with regs := r } := by
  unfold State.bumpPerf
  split
  · exact ⟨s.regs, rfl⟩
  · exact ⟨_, rfl⟩
theorem State.bumpErr_frame (s : State) (node off st b n : Nat) : ∃ r q, s.bumpErr node off st b n = { s with regs := r, pcd := q } := by
  unfold State.bumpErr
  dsimp only
  split
  · exact ⟨s.regs, s.pcd, rfl⟩
  · split
    · exact ⟨_, s.pcd, rfl⟩
    · split
      · exact ⟨_, s.pcd, rfl⟩
      · exact ⟨_, _, rfl⟩
theorem State.rg_bumpPerf_ne (s : State) {node off m p : Nat} (n : Nat) (h : rkey m p ≠ rkey node off) :
    (s.bumpPerf node off n).rg m p = s.rg m p := by
  unfold State.bumpPerf
  split
  · rfl
  · rw [State.rg_setRg, if_neg h]

theorem State.die_bumpPerf (s : State) (node off n e : Nat) : (s.bumpPerf node off n).die e = s.die e := by
  unfold State.die
  rw [State.bumpPerf_dies]

/-- The count of accesses is no part of what gives a byte of the scratchpad its bank. -/
theorem State.spadByte_bumpPerf (s : State) (d e n : Nat) : (s.bumpPerf d CD_SPAD_ACCESS n).spadByte e = s.spadByte e := by
  have linear : ∀ w, (s.bumpPerf d CD_SPAD_ACCESS n).linearWin e w = s.linearWin e w := by
    intro w
    unfold State.linearWin State.rgB
    rw [State.rg_bumpPerf_ne]
    unfold rkey CD_SPAD_LINEAR CD_SPAD_ACCESS
    omega
  funext a
  unfold State.spadByte State.spadPos State.bankOf
  rw [State.die_bumpPerf, linear]

-- Everything but the M-core's own effect ------------------------------------------------------------------------------------------

/-- M-core k of die d stands, and everything that is on no compute die, in no register and not in the PCD. -/
structure State.CoreStands (s t : State) (d k : Nat) : Prop where
  outside : SameOutside s t
  core : t.mc d k = s.mc d k

theorem SameOutside.refl (s : State) : SameOutside s s := ⟨rfl, rfl, rfl, rfl, rfl, rfl, rfl, rfl, rfl, rfl⟩
theorem SameOutside.trans {s t u : State} (h : SameOutside s t) (h' : SameOutside t u) : SameOutside s u :=
  ⟨h'.fuses.trans h.fuses, h'.nvm.trans h.nvm, h'.mds.trans h.mds, h'.fds.trans h.fds, h'.parts.trans h.parts, h'.sess.trans h.sess,
    h'.ptc16.trans h.ptc16, h'.rdata.trans h.rdata, h'.out.trans h.out, h'.pending.trans h.pending⟩
theorem SameOutside.setDie {s t : State} (h : SameOutside s t) (d : Nat) (x : Die) : SameOutside s (t.setDie d x) :=
  ⟨h.fuses, h.nvm, h.mds, h.fds, h.parts, h.sess, h.ptc16, h.rdata, h.out, h.pending⟩

section
variable {s t u : State} {d k : Nat}

theorem State.CoreStands.refl (s : State) (d k : Nat) : s.CoreStands s d k := ⟨.refl s, rfl⟩
theorem State.CoreStands.trans (h : s.CoreStands t d k) (h' : t.CoreStands u d k) : s.CoreStands u d k :=
  ⟨h.outside.trans h'.outside, h'.core.trans h.core⟩

/-- Registers and the PCD do not touch a core, nor do the parts of a die beside its cores. -/
theorem State.CoreStands.reported (s : State) (d k : Nat) (r : SMap Nat) (q : Pcd) : s.CoreStands { s with regs := r, pcd := q } d k :=
  ⟨⟨rfl, rfl, rfl, rfl, rfl, rfl, rfl, rfl, rfl, rfl⟩, rfl⟩
theorem State.CoreStands.modDie (s : State) (d e k : Nat) {f : Die → Die} (h : (f (s.die e)).mcs = (s.die e).mcs) :
    s.CoreStands (s.modDie e f) d k := by
  refine ⟨.setDie (.refl s) .., ?_⟩
  unfold State.mc
  rw [State.die_modDie]
  split
  · subst d
    unfold Die.mc
    rw [h]
  · rfl

theorem State.CoreStands.bumpPerf (s : State) (d k node off n : Nat) : s.CoreStands (s.bumpPerf node off n) d k := by
  obtain ⟨r, hr⟩ := s.bumpPerf_frame node off n
  rw [hr]
  exact .reported s d k r s.pcd
theorem State.CoreStands.bumpErr (s : State) (d k node off st b n : Nat) : s.CoreStands (s.bumpErr node off st b n) d k := by
  obtain ⟨r, q, hr⟩ := s.bumpErr_frame node off st b n
  rw [hr]
  exact .reported s d k r q

-- Reads of the scratchpad (spec/07 R196-R204) ---------------------------------------------------------------------------------------

theorem State.CoreStands.spadCorr (s : State) (d e k addr : Nat) : s.CoreStands (s.spadCorr e addr) d k := by
  refine (State.CoreStands.bumpErr s ..).trans (.modDie _ d e k ?_)
  dsimp only
  split <;> rfl

theorem State.CoreStands.spadCheckWord (s : State) (d e k addr : Nat) : s.CoreStands (s.spadCheckWord e addr).1 d k := by
  unfold State.spadCheckWord
  dsimp only
  split
  · exact .refl s d k
  · exact .refl s d k
  · split
    · exact State.CoreStands.trans (.modDie s d e k (by rfl)) (.spadCorr ..)
    · dsimp only
      exact .modDie s d e k (by rfl)
  · exact .spadCorr s d e k addr

theorem State.CoreStands.spadCheckLines (s : State) (d e k : Nat) (lines : List Nat) : s.CoreStands (s.spadCheckLines e lines).1 d k := by
  unfold State.spadCheckLines
  split
  · exact .refl s d k
  · exact List.foldlRecOn (motive := fun st : State × Option Nat => s.CoreStands st.1 d k) _ _ (.refl s d k)
      (fun st hst a _ => hst.trans (.spadCheckWord st.1 d e k a))

/-- A scratchpad that holds no flipped bit has nothing to report. -/
theorem State.spadCheckLines_of_no_errs (h : (s.die d).spad.errs = []) (lines : List Nat) : s.spadCheckLines d lines = (s, none) := if_pos h

section
variable {accs : List Acc} (h : s.schedule d accs = (t, true))
include h

/-- Accesses that meet no other in their bank pair are reserved and counted (spec/07 R198). -/
theorem State.schedule_eq_true :
    t = (s.modDie d (fun x => { x with spad := { x.spad with resv := (s.reserve d accs).1 } })).bumpPerf d CD_SPAD_ACCESS accs.length := by
  unfold State.schedule at h
  dsimp only at h
  split at h
  · cases h
  · exact (congrArg Prod.fst h).symm

theorem State.CoreStands.schedule (k : Nat) : s.CoreStands t d k := by
  rw [State.schedule_eq_true h]
  exact State.CoreStands.trans (.modDie s d d k (by rfl)) (.bumpPerf ..)

/-- They change reservations and counts alone: the bytes of the scratchpad, the places and the PCD stand. -/
theorem State.spad_schedule : (t.die d).spad.mem = (s.die d).spad.mem ∧ (t.die d).spad.errs = (s.die d).spad.errs := by
  rw [State.schedule_eq_true h, State.die_bumpPerf, State.die_modDie, if_pos rfl]
  exact ⟨rfl, rfl⟩
theorem State.place_schedule (p : Nat) : t.place d p = s.place d p := by
  rw [State.schedule_eq_true h, State.place, State.die_bumpPerf, State.die_modDie, if_pos rfl]
  rfl
theorem State.pcd_schedule : t.pcd = s.pcd := by
  obtain ⟨r, hr⟩ := State.bumpPerf_frame _ d CD_SPAD_ACCESS accs.length
  rw [State.schedule_eq_true h, hr]
  rfl
theorem State.spadByte_schedule : t.spadByte d = s.spadByte d := by
  rw [State.schedule_eq_true h, State.spadByte_bumpPerf]
  funext a
  unfold State.spadByte
  rw [State.spadPos_mod, State.die_modDie, if_pos rfl]

end

/-- Reads that meet no other access and no uncorrectable line: the accesses, then the error check. -/
theorem State.schedRead_eq_true {accs : List Acc} (h : s.schedRead d accs = (t, true)) :
    ∃ u, s.schedule d accs = (u, true) ∧ t = (u.spadCheckLines d (accs.map (fun a => a.addr / 64 * 64))).1 := by
  unfold State.schedRead at h
  dsimp only at h
  by_cases free : (s.schedule d accs).2 = true
  · rw [if_pos free] at h
    refine ⟨_, Prod.ext rfl free, ?_⟩
    split at h
    · exact (congrArg Prod.fst h).symm
    · cases h
  · rw [if_neg free] at h
    exact absurd (congrArg Prod.snd h) free

theorem State.CoreStands.schedRead {accs : List Acc} (h : s.schedRead d accs = (t, true)) (k : Nat) : s.CoreStands t d k := by
  obtain ⟨u, free, eq⟩ := State.schedRead_eq_true h
  rw [eq]
  exact (State.CoreStands.schedule free k).trans (.spadCheckLines ..)

/-- Where the scratchpad holds no flipped bit, the accesses alone. -/
theorem State.schedRead_of_no_errs {accs : List Acc} (h : s.schedRead d accs = (t, true)) (he : (s.die d).spad.errs = []) :
    s.schedule d accs = (t, true) := by
  obtain ⟨u, free, eq⟩ := State.schedRead_eq_true h
  obtain ⟨-, errs⟩ := State.spad_schedule free
  rw [eq, State.spadCheckLines_of_no_errs (errs.trans he), free]

-- Flits of a lane (spec/03 R86, spec/08 R221) ---------------------------------------------------------------------------------------

@[simp] theorem Place.lane_setLane (x : Place) (l m : Nat) (v : Lane) : (x.setLane l v).lane m = if m = l then v else x.lane m :=
  sget_sput ..

theorem State.CoreStands.modPlace (s : State) (d k e p : Nat) (f : Place → Place) : s.CoreStands (s.modPlace e p f) d k := by
  unfold State.modPlace State.setPlace
  refine .modDie s d e k ?_
  rfl

/-- Tokens taken off a lane leave the rest of its queue; beside the lanes of its place and of its peer nothing changes. -/
theorem State.laneTake_frame (s : State) (d p l n k : Nat) :
    let t := (s.laneTake d p l n).1
    s.CoreStands t d k ∧ ((t.place d p).lane l).q = ((s.place d p).lane l).q.drop n ∧ t.pcd = s.pcd ∧ t.regs = s.regs := by
  unfold State.laneTake
  dsimp only
  split
  · refine ⟨(State.CoreStands.modPlace s ..).trans (.modPlace ..), ?_, rfl, rfl⟩
    rename_i e q m _
    rw [State.place_modPlace]
    by_cases own : d = e ∧ p = q
    · obtain ⟨rfl, rfl⟩ := own
      by_cases lane : l = m <;> simp [lane]
    · simp [own]
  · refine ⟨.modPlace .., ?_, rfl, rfl⟩
    simp

end

-- LOADW (spec/03 R95-R98) -----------------------------------------------------------------------------------------------------------

section
variable {s : State} {d k : Nat} {c : LoadwCmd}

theorem execLoadw_eq (hd : d < 576) (hk : k < 16) (c : LoadwCmd) : exec (.loadw d k c) s = .next (s.loadw d k c true) :=
  if_pos (mcoreNumbers_wf hd hk)
theorem execLoadwShadowReady_eq (hd : d < 576) (hk : k < 16) : exec (.loadwShadowReady d k) s = .next (s.shadowReadyNow d k) :=
  if_pos (mcoreNumbers_wf hd hk)

/-- The effect of a LOADW on its core, on a state t that its reads leave: the shadow holds the tile, not yet ready. -/
def State.shadowLoaded (t : State) (d k : Nat) (tile : Tile) (ready : Nat) : State :=
  t.setMc d k { t.mc d k with shadow := some tile, shadowReady := false, loadUntil := ready }

theorem State.mc_shadowLoaded (t : State) (d k : Nat) (tile : Tile) (ready : Nat) :
    (t.shadowLoaded d k tile ready).mc d k = { t.mc d k with shadow := some tile, shadowReady := false, loadUntil := ready } := by
  rw [State.shadowLoaded, State.mc_setMc, if_pos ⟨rfl, rfl⟩]

theorem State.place_setMc (t : State) (d k p : Nat) (m : Mcore) : (t.setMc d k m).place d p = t.place d p := by
  rw [State.setMc, State.place_modDie_of_place]
  exact fun _ => rfl

/-- R95-R98: a LOADW that meets no fault, by the source of its operand. -/
theorem State.loadw_of_spad (hi : s.canIssue d k = true) (hc : s.loadwCause d k c = none) (hsrc : c.src = false) {t : State}
    (hread : s.schedRead d (loadwAccs c k (s.die d).cyc) = (t, true)) :
    s.loadw d k c true = t.shadowLoaded d k (loadwTile c (t.spadByte d) (t.spadByte d)) ((s.die d).cyc + loadwL c + 10) := by
  unfold State.loadw
  rw [if_pos hi, hc]
  simp only [hsrc, Bool.not_false, Bool.and_self, if_true]
  unfold State.loadwDo
  simp only [hread, if_true]
  rfl
theorem State.loadw_of_lane (hi : s.canIssue d k = true) (hc : s.loadwCause d k c = none) (hsrc : c.src = true)
    (hhas : loadwL c ≤ ((s.place d k).lane (b2n c.lane)).q.length) :
    s.loadw d k c true = let q := ((s.place d k).lane (b2n c.lane)).q.take (loadwL c)
      (s.laneTake d k (b2n c.lane) (loadwL c)).1.shadowLoaded d k
        (loadwTile c (s.byteSrc d (some q) (loadwLines c).1) (s.byteSrc d (some (q.drop (loadwLines c).1.length)) (loadwLines c).2))
        ((s.die d).cyc + loadwL c + 10) := by
  have has : s.laneHas d k (b2n c.lane) (loadwL c) = true := decide_eq_true hhas
  unfold State.loadw
  rw [if_pos hi, hc]
  simp only [hsrc, has, Bool.not_true, Bool.and_false, Bool.and_self, if_true, Bool.false_eq_true, if_false]
  rfl

/-- R97: an occupied shadow becomes ready; an empty one is none. -/
theorem State.shadowReadyNow_of_some (h : (s.mc d k).shadow.isSome = true) :
    s.shadowReadyNow d k = s.setMc d k { s.mc d k with shadowReady := true, loadUntil := min (s.mc d k).loadUntil (s.die d).cyc } := if_pos h
theorem State.shadowReadyNow_of_none (h : (s.mc d k).shadow = none) : s.shadowReadyNow d k = s := by
  unfold State.shadowReadyNow
  dsimp only
  rw [h]
  rfl

/-- What a LOADW leaves whose reads or takings leave its core: its shadow, and nothing outside. -/
theorem State.CoreStands.shadowLoaded {t : State} (h : s.CoreStands t d k) (tile : Tile) (ready : Nat) :
    let u := t.shadowLoaded d k tile ready
    (u.mc d k).shadow = some tile ∧ u.mc d k = { s.mc d k with shadow := (u.mc d k).shadow, shadowReady := false, loadUntil := ready } ∧
      SameOutside s u := by
  intro u
  rw [State.mc_shadowLoaded, h.core]
  exact ⟨rfl, rfl, h.outside.setDie ..⟩

end

/-- Settles O14: LOADW by the source of its operand; the shadow's readiness by whether it holds a tile. -/
theorem loadwWritesTheShadow : Obligations.LoadwWritesTheShadow := by
  intro s d k c hd hk loaded
  refine ⟨fun issue cause src read => ⟨_, execLoadw_eq hd hk c, ?_⟩, fun issue cause src has => ⟨_, execLoadw_eq hd hk c, ?_⟩,
    fun shadow => ?_, fun empty => ?_⟩
  · obtain ⟨t, read⟩ : ∃ t, s.schedRead d (loadwAccs c k (s.die d).cyc) = (t, true) := ⟨_, Prod.ext rfl read⟩
    obtain ⟨tile, core, outside⟩ := (State.CoreStands.schedRead read k).shadowLoaded (loadwTile c (t.spadByte d) (t.spadByte d))
      ((s.die d).cyc + loadwL c + 10)
    rw [State.loadw_of_spad issue cause src read]
    refine ⟨⟨by rw [tile]; rfl, core⟩, outside, fun clean => ?_⟩
    have free := State.schedRead_of_no_errs read clean
    obtain ⟨mem, -⟩ := State.spad_schedule free
    refine ⟨by rw [tile, State.spadByte_schedule free], ?_, fun p => ?_, (State.pcd_schedule free :)⟩
    · rw [State.shadowLoaded, State.setMc, State.die_modDie, if_pos rfl, mem]
    · rw [State.shadowLoaded, State.place_setMc, State.place_schedule free]
  · rw [State.loadw_of_lane issue cause src has]
    obtain ⟨stands, queue, pcd, regs⟩ := s.laneTake_frame d k (b2n c.lane) (loadwL c) k
    obtain ⟨tile, core, outside⟩ := stands.shadowLoaded _ ((s.die d).cyc + loadwL c + 10)
    refine ⟨⟨by rw [tile]; rfl, core⟩, outside, ⟨tile, ?_⟩, pcd, regs⟩
    rw [State.shadowLoaded, State.place_setMc, queue]
  · rw [execLoadwShadowReady_eq hd hk, State.shadowReadyNow_of_some shadow]
  · rw [execLoadwShadowReady_eq hd hk, State.shadowReadyNow_of_none empty]

end Sys2Proof.Machine
end

section
/-! READOUT (spec/03 R100, R106-R108): the rows it reads, puts out and clears. -/

namespace Sys2Proof.Machine

-- Elements of the accumulator buffer (spec/03 R108) -----------------------------------------------------------------------------------

theorem Mcore.elem_setElem (m : Mcore) (r n q e : Nat) (v : W32) :
    (m.setElem r n v).elem q e = if 64 * q + e = 64 * r + n then v else m.elem q e := sget_nput ..

/-- A row written from element n on: its elements take the values, every other element stands. -/
theorem Mcore.elem_setRow (r : Nat) (l : List W32) (m : Mcore) {n : Nat} (hn : n + l.length ≤ 64) (q : Nat) {e : Nat} (he : e < 64) :
    (m.setRow r n l).elem q e = if q = r ∧ n ≤ e ∧ e < n + l.length then l.getD (e - n) 0#32 else m.elem q e := by
  induction l generalizing m n with
  | nil => rw [if_neg (by simp)]; rfl
  | cons v l ih =>
    rw [List.length_cons] at hn ⊢
    rw [Mcore.setRow, ih _ (by omega), Mcore.elem_setElem]
    by_cases first : q = r ∧ e = n
    · obtain ⟨rfl, rfl⟩ := first
      rw [if_neg (by omega), if_pos rfl, if_pos (by omega), Nat.sub_self, List.getD_cons_zero]
    · rw [if_neg (show ¬64 * q + e = 64 * r + n by omega)]
      by_cases later : q = r ∧ n + 1 ≤ e ∧ e < n + 1 + l.length
      · rw [if_pos later, if_pos (by omega), show e - n = e - (n + 1) + 1 by omega, List.getD_cons_succ]
      · rw [if_neg later, if_neg (by omega)]

/-- Writing a row of a buffer without flipped bits changes elements alone. -/
theorem Mcore.setRow_eq_of_no_errs (r : Nat) (l : List W32) {m : Mcore} (n : Nat) (he : m.accErr = []) :
    ∃ a, m.setRow r n l = { m with acc := a } := by
  induction l generalizing m n with
  | nil => exact ⟨m.acc, rfl⟩
  | cons v l ih =>
    have clean : (m.setElem r n v).accErr = [] := by
      show serase m.accErr (64 * r + n) = []
      rw [he]
      rfl
    obtain ⟨a, ha⟩ := ih (n + 1) clean
    refine ⟨a, ?_⟩
    rw [Mcore.setRow, ha, ← clean.trans he.symm]
    rfl

/-- A buffer without flipped bits is read without a report. -/
theorem State.accRead_of_no_errs {s : State} {d k : Nat} (h : (s.mc d k).accErr = []) (r n : Nat) :
    s.accRead d k r n = (s, (List.range n).map (fun i => (s.mc d k).elem r i), false) := if_pos h

-- What putting a row out leaves (spec/03 R100, R106) -----------------------------------------------------------------------------------

/-- A row has been put out of M-core k, on a lane of its place or to the scratchpad: the core stands, and what the row does not go to. -/
structure State.RowPut (s t : State) (d k : Nat) (onLane : Bool) : Prop extends s.CoreStands t d k where
  errs : (s.die d).spad.errs = [] → (t.die d).spad.errs = []
  spad : onLane = true → (t.die d).spad.mem = (s.die d).spad.mem
  lanes : onLane = false → ∀ p, t.place d p = s.place d p

section
variable {s t u : State} {d k : Nat} {b : Bool}

theorem State.RowPut.refl (s : State) (d k : Nat) (b : Bool) : s.RowPut s d k b := ⟨.refl s d k, id, fun _ => rfl, fun _ _ => rfl⟩
theorem State.RowPut.trans (h : s.RowPut t d k b) (h' : t.RowPut u d k b) : s.RowPut u d k b :=
  ⟨h.toCoreStands.trans h'.toCoreStands, fun e => h'.errs (h.errs e), fun e => (h'.spad e).trans (h.spad e),
    fun e p => (h'.lanes e p).trans (h.lanes e p)⟩

/-- The status of a conversion goes to registers, its draws step generators. -/
theorem State.arith_frame (s : State) (d : Nat) (x : Stat) : ∃ r q, s.arith d x = { s with regs := r, pcd := q } := by
  unfold State.arith
  dsimp only
  split
  · exact State.bumpErr_frame ..
  · exact State.bumpErr_frame (s.orRg d CD_ARITH_STATUS x.flags) ..
theorem Die.draws_frame (x : Die) (c : Nat) (lanes : List Nat) : ∃ g, (x.draws c lanes).1 = { x with gens := g } :=
  List.foldlRecOn (motive := fun y : Die => ∃ g, y = { x with gens := g }) _ _ ⟨x.gens, rfl⟩
    (fun _ hy _ _ => by obtain ⟨g, rfl⟩ := hy; exact ⟨_, rfl⟩)

theorem State.RowPut.arith (s : State) (d k : Nat) (b : Bool) (x : Stat) : s.RowPut (s.arith d x) d k b := by
  obtain ⟨r, q, hr⟩ := s.arith_frame d x
  rw [hr]
  exact ⟨.reported s d k r q, id, fun _ => rfl, fun _ _ => rfl⟩
theorem State.RowPut.drawsFor (s : State) (d k : Nat) (b : Bool) (c mode : Nat) (lanes : List Nat) :
    s.RowPut (s.drawsFor d c mode lanes).1 d k b := by
  unfold State.drawsFor
  split
  · obtain ⟨g, hg⟩ := (s.die d).draws_frame c lanes
    dsimp only
    rw [hg]
    refine ⟨.modDie s d d k (f := fun x => { x with gens := g }) rfl, fun e => ?_, fun _ => ?_, fun _ p => ?_⟩
    · rw [State.die_setDie, if_pos rfl, e]
    · rw [State.die_setDie, if_pos rfl]
    · rw [State.place, State.die_setDie, if_pos rfl]
      rfl
  · exact .refl s d k b

/-- A row that goes to a lane of the place. -/
theorem State.RowPut.laneOut (s : State) (d k p lane c : Nat) (hdr : Bool) (flits : List (BitVec 512)) :
    s.RowPut (s.laneOut d p lane c hdr flits) d k true := by
  unfold State.laneOut
  refine ⟨.modPlace .., fun e => ?_, fun _ => ?_, nofun⟩
  · simp [State.modPlace, State.setPlace, Die.setPlace, e]
  · simp [State.modPlace, State.setPlace, Die.setPlace]
theorem State.RowPut.laneRow (s : State) (d k p lane w addr : Nat) (codes : List Nat) (leave : Nat → Nat) :
    s.RowPut (s.laneRow d p lane w addr codes leave) d k true :=
  List.foldlRecOn (motive := fun t : State => s.RowPut t d k true) _ _ (.refl s d k true) (fun _ ht _ _ => ht.trans (.laneOut ..))

/-- A row that goes to a scratchpad without flipped bits. -/
theorem State.RowPut.spadSetWord (s : State) (d k addr mask v : Nat) : s.RowPut (s.spadSetWord d addr mask v) d k false := by
  unfold State.spadSetWord
  refine ⟨.modDie s d d k (by rfl), fun e => ?_, nofun, fun _ p => ?_⟩
  · rw [State.die_modDie, if_pos rfl]
    show serase (s.die d).spad.errs _ = []
    rw [e]
    rfl
  · rw [State.place_modDie_of_place]
    exact fun _ => rfl
theorem State.RowPut.spadStore (he : (s.die d).spad.errs = []) (k port addr nbits v : Nat) (byPlace : Bool) :
    s.RowPut (s.spadStore d port addr nbits v byPlace) d k false := by
  have merge : ∀ ws, s.spadMerge d ws = (s, []) := fun _ => if_pos he
  unfold State.spadStore
  simp only [merge, List.foldl_nil]
  exact List.foldlRecOn (motive := fun t : State => s.RowPut t d k false) _ _ (.refl s d k false) (fun _ ht _ _ => ht.trans (.spadSetWord ..))

theorem State.RowPut.putRow (he : (s.die d).spad.errs = []) (k p port lane : Nat) (dst : Bool) (w addr : Nat) (codes : List Nat) (saddr : Nat)
    (scales : List Nat) (leave : Nat → Nat) : s.RowPut (s.putRow d p port lane dst w addr codes saddr scales leave) d k dst := by
  unfold State.putRow
  cases dst with
  | true => exact .laneRow ..
  | false =>
    have row := State.RowPut.spadStore he k port addr (w * codes.length) (packElems w codes) true
    show s.RowPut (if scales = [] then _ else _) d k false
    split
    · exact row
    · exact row.trans (.spadStore (row.errs he) ..)

/-- A row of a buffer without flipped bits is read and converted. -/
theorem State.readoutRow_of_no_errs (he : (s.mc d k).accErr = []) (c : ReadoutCmd) (n turn cmd : Nat) :
    ∃ t cv, s.readoutRow d k c n turn cmd = (t, some cv) ∧ s.RowPut t d k c.dst := by
  unfold State.readoutRow
  dsimp only
  rw [State.accRead_of_no_errs he, if_neg Bool.false_ne_true]
  exact ⟨_, _, rfl, (State.RowPut.drawsFor ..).trans (.arith ..)⟩

end

-- READOUT row by row (spec/03 R107) -------------------------------------------------------------------------------------------------------

/-- A property of a number and a value that each step of a fold over a range takes to the next number holds at its end. -/
theorem foldl_range_rec {β : Type} {f : β → Nat → β} {b : β} {P : Nat → β → Prop} (h0 : P 0 b) (hs : ∀ n b, P n b → P (n + 1) (f b n)) (N : Nat) :
    P N ((List.range N).foldl f b) := by
  induction N with
  | zero => exact h0
  | succ N ih =>
    rw [List.range_succ, List.foldl_append]
    exact hs N _ ih

/-- The first n rows of a READOUT have been read from state s on: with CLEAR their elements are +0. -/
structure State.ReadOut (s t : State) (d k : Nat) (c : ReadoutCmd) (n : Nat) : Prop where
  outside : SameOutside s t
  core : t.mc d k = { s.mc d k with acc := (t.mc d k).acc }
  errs : (t.die d).spad.errs = []
  spad : c.dst = true → (t.die d).spad.mem = (s.die d).spad.mem
  lanes : c.dst = false → ∀ p, t.place d p = s.place d p
  elem : ∀ r e, e < 64 → (t.mc d k).elem r e =
    if c.clear = true ∧ c.accRow.toNat ≤ r ∧ r < c.accRow.toNat + n ∧ e ≤ c.colsM1.toNat then 0#32 else (s.mc d k).elem r e

section
variable {s t u : State} {d k n : Nat} {c : ReadoutCmd}

theorem State.ReadOut.zero (he : (s.die d).spad.errs = []) (k : Nat) (c : ReadoutCmd) : s.ReadOut s d k c 0 :=
  ⟨.refl s, rfl, he, fun _ => rfl, fun _ _ => rfl, fun _ _ _ => by rw [if_neg (by omega)]⟩

/-- One more row is put out, and cleared where CLEAR is set. -/
theorem State.ReadOut.succ (h : s.ReadOut t d k c n) (clean : (s.mc d k).accErr = []) (put : t.RowPut u d k c.dst) :
    s.ReadOut (if c.clear then u.setMc d k ((u.mc d k).setRow (c.accRow.toNat + n) 0 (List.replicate (c.colsM1.toNat + 1) 0#32)) else u)
      d k c (n + 1) := by
  have cols : c.colsM1.toNat < 64 := c.colsM1.isLt
  have core := put.core.trans h.core
  have elem : ∀ r e, (u.mc d k).elem r e = (t.mc d k).elem r e := fun r e => by rw [put.core]
  cases hc : c.clear with
  | false =>
    rw [if_neg Bool.false_ne_true]
    refine ⟨h.outside.trans put.outside, by rw [core], put.errs h.errs, fun e => (put.spad e).trans (h.spad e),
      fun e p => (put.lanes e p).trans (h.lanes e p), fun r e he => ?_⟩
    rw [elem, h.elem r e he, if_neg (by simp [hc]), if_neg (by simp [hc])]
  | true =>
    rw [if_pos rfl]
    obtain ⟨a, row⟩ := Mcore.setRow_eq_of_no_errs (c.accRow.toNat + n) (List.replicate (c.colsM1.toNat + 1) 0#32) (m := u.mc d k) 0
      (by rw [core]; exact clean)
    refine ⟨(h.outside.trans put.outside).setDie .., ?_, ?_, fun e => ?_, fun e p => ?_, fun r e he => ?_⟩
    · rw [State.mc_setMc, if_pos ⟨rfl, rfl⟩, row, core]
    · rw [State.setMc, State.die_modDie, if_pos rfl]
      exact put.errs h.errs
    · rw [State.setMc, State.die_modDie, if_pos rfl]
      exact (put.spad e).trans (h.spad e)
    · rw [State.place_setMc]
      exact (put.lanes e p).trans (h.lanes e p)
    · rw [State.mc_setMc, if_pos ⟨rfl, rfl⟩, Mcore.elem_setRow _ _ _ (by simp; omega) _ he, elem, h.elem r e he, List.length_replicate]
      simp only [hc, true_and]
      by_cases now : r = c.accRow.toNat + n ∧ e ≤ c.colsM1.toNat
      · rw [if_pos (by omega), if_pos (by omega), List.getD_replicate _ (by omega)]
      · rw [if_neg (by omega)]
        exact if_congr (by omega) rfl rfl

/-- R100, R106, R107: a READOUT that meets no fault and no other access, on a buffer and a scratchpad without flipped bits. -/
theorem State.readoutDo_readOut (clean : (s.mc d k).accErr = []) (he : (s.die d).spad.errs = []) {cyc : Nat}
    (h : s.schedule d (readoutAccs c k cyc) = (t, true)) :
    (t.setMc d k { t.mc d k with outUntil := cyc + readoutW c * (c.nrowsM1.toNat + 1) }).ReadOut (s.readoutDo d k c cyc) d k c
      (c.nrowsM1.toNat + 1) := by
  obtain ⟨-, errs⟩ := State.spad_schedule h
  have core := (State.CoreStands.schedule h k).core
  generalize hb : t.setMc d k { t.mc d k with outUntil := cyc + readoutW c * (c.nrowsM1.toNat + 1) } = b
  have errs' : (b.die d).spad.errs = [] := by
    rw [← hb, State.setMc, State.die_modDie, if_pos rfl]
    exact errs.trans he
  have clean' : (b.mc d k).accErr = [] := by
    rw [← hb, State.mc_setMc, if_pos ⟨rfl, rfl⟩, core]
    exact clean
  unfold State.readoutDo
  simp only [h, if_true, hb]
  refine (foldl_range_rec (P := fun n (st : State × Bool) => st.2 = false ∧ b.ReadOut st.1 d k c n) ⟨rfl, .zero errs' k c⟩ ?_ _).2
  rintro n ⟨v, stop⟩ ⟨rfl, upTo⟩
  obtain ⟨w, cv, read, put⟩ := State.readoutRow_of_no_errs (s := v) (by rw [upTo.core]; exact clean') c n (s.turnOf d k) (s.entryOf d k)
  simp only [read, Bool.false_eq_true, if_false, true_and]
  exact upTo.succ clean' (put.trans (.putRow (put.errs upTo.errs) ..))

end

theorem execReadout_eq {s : State} {d k : Nat} (hd : d < 576) (hk : k < 16) (c : ReadoutCmd) :
    exec (.readout d k c) s = .next (s.readout d k c true) := if_pos (mcoreNumbers_wf hd hk)

theorem State.readout_of_no_cause {s : State} {d k : Nat} {c : ReadoutCmd} (hi : s.canIssue d k = true) (hc : s.readoutCause d k c = none) :
    s.readout d k c true = s.readoutDo d k c (s.die d).cyc := by
  unfold State.readout
  rw [if_pos hi, hc]
  rfl

/-- Settles O15: from its accesses on, row by row. -/
theorem readoutClearsWhatItReads : Obligations.ReadoutClearsWhatItReads := by
  intro s d k c hd hk issue cause free clean errs
  obtain ⟨t, free⟩ : ∃ t, s.schedule d (readoutAccs c k (s.die d).cyc) = (t, true) := ⟨_, Prod.ext rfl free⟩
  have done := State.readoutDo_readOut clean errs free
  have stands := State.CoreStands.schedule free k
  obtain ⟨mem, -⟩ := State.spad_schedule free
  refine ⟨_, execReadout_eq hd hk c, ?_⟩
  rw [State.readout_of_no_cause issue cause]
  have core := done.core
  have elem := done.elem
  simp only [State.mc_setMc, and_self, if_true, stands.core] at core elem
  refine ⟨core, fun dst => ?_, fun dst p => ?_, (stands.outside.setDie ..).trans done.outside, elem⟩
  · rw [done.spad dst, ← mem, State.setMc, State.die_modDie, if_pos rfl]
  · rw [done.lanes dst, State.place_setMc, State.place_schedule free]

end Sys2Proof.Machine
end

section
/-! REDUCE (spec/04 R129-R135): the rows it reads, what it writes to them and what it sends, with the flits it takes off its lane. -/

namespace Sys2Proof.Machine

-- Row tags (spec/04 R129) ---------------------------------------------------------------------------------------------------------------

theorem Mcore.tag_setTag (m : Mcore) (r t q : Nat) : (m.setTag r t).tag q = if q = r then t else m.tag q := sget_nput ..

/-- R129: an ADD gives its tag to the rows of its range that have none, and changes tags alone. -/
theorem Mcore.tagUnset_frame (m : Mcore) (r n t : Nat) : ∃ g, m.tagUnset r n t = { m with tags := g } :=
  foldl_range_rec (P := fun _ (x : Mcore) => ∃ g, x = { m with tags := g }) ⟨m.tags, rfl⟩
    (fun _ _ hx => by
      obtain ⟨g, rfl⟩ := hx
      split
      · exact ⟨_, rfl⟩
      · exact ⟨g, rfl⟩) n
theorem Mcore.tag_tagUnset (m : Mcore) (r n t q : Nat) :
    (m.tagUnset r n t).tag q = if (r ≤ q ∧ q < r + n) ∧ m.tag q = 0 then t else m.tag q := by
  refine foldl_range_rec (P := fun n (x : Mcore) => ∀ q, x.tag q = if (r ≤ q ∧ q < r + n) ∧ m.tag q = 0 then t else m.tag q)
    (fun q => by rw [if_neg (by omega)]) (fun n x upTo q => ?_) n q
  have now := upTo (r + n)
  rw [if_neg (by omega)] at now
  by_cases last : q = r + n
  · subst last
    rw [now]
    by_cases unset : m.tag (r + n) = 0
    · rw [if_pos unset, Mcore.tag_setTag, if_pos rfl, if_pos (by omega)]
    · rw [if_neg unset, now, if_neg (by omega)]
  · have stands : (if x.tag (r + n) = 0 then x.setTag (r + n) t else x).tag q = x.tag q := by
      split
      · rw [Mcore.tag_setTag, if_neg last]
      · rfl
    rw [stands, upTo q]
    exact if_congr (by omega) rfl rfl

-- One row on its core (spec/04 R129, R133, R135) ----------------------------------------------------------------------------------------

/-- Element e of row i as a REDUCE adds it up or passes it on, with the flits incoming. -/
def reduceVal (mode : Nat) (c : ReduceCmd) (inc : List Token) (i e : Nat) (own : W32) : W32 × Stat :=
  if mode = 0 then (own, Stat.none) else reduceSum own (flitElem ((inc[reduceW c * i + e / 16]?).getD default).payload (e % 16))

/-- What a REDUCE leaves in an element whose value v it adds up or passes on. -/
def reduceLeft (mode : Nat) (c : ReduceCmd) (own v : W32) : W32 := if mode = 1 then v else if c.clear then 0#32 else own

/-- A row of values as flits (R133). -/
def reduceFlits (c : ReduceCmd) (v : Nat → W32) : List (BitVec 512) :=
  (List.range (reduceW c)).map (fun f =>
    flitOfElems ((List.range (min 16 (c.colsM1.toNat + 1 - 16 * f))).map (fun e => v (16 * f + e))))

/-- The core when a REDUCE has read a row, whose values are `vals`. -/
def Mcore.rowReduced (m : Mcore) (mode : Nat) (c : ReduceCmd) (row : Nat) (vals : List W32) : Mcore :=
  if mode = 1 then m.setRow row 0 vals
  else if c.clear then (m.setRow row 0 (List.replicate (c.colsM1.toNat + 1) 0#32)).setTag row 0 else m

theorem map_zipIdx_map_range {α β : Type} (g : Nat → α) (f : α → Nat → β) (n : Nat) :
    (((List.range n).map g).zipIdx.map (fun e => f e.1 e.2)) = (List.range n).map (fun i => f (g i) i) :=
  List.ext_getElem (by simp) (by simp)

/-- A flit's share of a row, fewer elements at its end. -/
theorem take_drop_map_range {α : Type} (g : Nat → α) (n a b : Nat) :
    (((List.range n).map g).drop a).take b = (List.range (min b (n - a))).map (fun e => g (a + e)) :=
  List.ext_getElem (by simp) (by simp)

/-- The values of a row whose elements are `own`. -/
theorem map_fst_reduceVal {mode n i : Nat} {c : ReduceCmd} {inc : List Token} {own v : Nat → W32}
    (values : ∀ e < n, (reduceVal mode c inc i e (own e)).1 = v e) :
    (((List.range n).map own).zipIdx.map (fun e => reduceVal mode c inc i e.2 e.1)).map (·.1) = (List.range n).map v := by
  rw [map_zipIdx_map_range own (fun w e => reduceVal mode c inc i e w), List.map_map]
  exact List.map_congr_left (fun e he => values e (List.mem_range.1 he))

section
variable {m : Mcore} {mode : Nat} {c : ReduceCmd}

theorem Mcore.rowReduced_frame (clean : m.accErr = []) (row : Nat) (vals : List W32) :
    ∃ a g, m.rowReduced mode c row vals = { m with acc := a, tags := g } := by
  unfold Mcore.rowReduced
  split
  · obtain ⟨a, ha⟩ := Mcore.setRow_eq_of_no_errs row vals 0 clean
    exact ⟨a, m.tags, ha⟩
  · split
    · obtain ⟨a, ha⟩ := Mcore.setRow_eq_of_no_errs row (List.replicate (c.colsM1.toNat + 1) 0#32) 0 clean
      rw [ha]
      exact ⟨a, _, rfl⟩
    · exact ⟨m.acc, m.tags, rfl⟩

theorem Mcore.elem_rowReduced (m : Mcore) (mode : Nat) (c : ReduceCmd) (row : Nat) (v : Nat → W32) (q : Nat) {e : Nat} (he : e < 64) :
    (m.rowReduced mode c row ((List.range (c.colsM1.toNat + 1)).map v)).elem q e =
      if q = row ∧ e < c.colsM1.toNat + 1 then reduceLeft mode c (m.elem q e) (v e) else m.elem q e := by
  have cols : c.colsM1.toNat < 64 := c.colsM1.isLt
  unfold Mcore.rowReduced reduceLeft
  split
  · rw [Mcore.elem_setRow _ _ _ (by simp; omega) _ he]
    by_cases inRow : q = row ∧ e < c.colsM1.toNat + 1
    · rw [if_pos (by simp; omega), if_pos inRow]
      simp [inRow.2]
    · rw [if_neg (by simp; omega), if_neg inRow]
  · split
    · show (m.setRow row 0 (List.replicate (c.colsM1.toNat + 1) 0#32)).elem q e = _
      rw [Mcore.elem_setRow _ _ _ (by simp; omega) _ he, List.length_replicate]
      by_cases inRow : q = row ∧ e < c.colsM1.toNat + 1
      · rw [if_pos (by omega), if_pos inRow, List.getD_replicate _ (by omega)]
      · rw [if_neg (by omega), if_neg inRow]
    · exact (ite_self _).symm

theorem Mcore.tag_rowReduced (clean : m.accErr = []) (row : Nat) (vals : List W32) (q : Nat) :
    (m.rowReduced mode c row vals).tag q = if (mode ≠ 1 ∧ c.clear = true) ∧ q = row then 0 else m.tag q := by
  have setRow : ∀ l, (m.setRow row 0 l).tag q = m.tag q := fun l => by
    obtain ⟨a, ha⟩ := Mcore.setRow_eq_of_no_errs row l 0 clean
    rw [ha]
    rfl
  unfold Mcore.rowReduced
  by_cases add : mode = 1
  · rw [if_pos add, setRow, if_neg (by simp [add])]
  · cases hc : c.clear with
    | false => simp [add]
    | true => simp [add, Mcore.tag_setTag, setRow]

end

-- Row by row (spec/04 R131, R135) -------------------------------------------------------------------------------------------------------

/-- From state s on, a REDUCE has read its first n rows, whose elements it adds up or passes on as v. -/
structure State.RowsReduced (s t : State) (d k mode : Nat) (c : ReduceCmd) (v : Nat → Nat → W32) (n : Nat) : Prop where
  outside : SameOutside s t
  places : ∀ p, t.place d p = s.place d p
  core : t.mc d k = { s.mc d k with acc := (t.mc d k).acc, tags := (t.mc d k).tags }
  elem : ∀ r e, e < 64 → (t.mc d k).elem r e =
    if c.accRow.toNat ≤ r ∧ r < c.accRow.toNat + n ∧ e < c.colsM1.toNat + 1
    then reduceLeft mode c ((s.mc d k).elem r e) (v (r - c.accRow.toNat) e) else (s.mc d k).elem r e
  tag : ∀ r, (t.mc d k).tag r =
    if (mode ≠ 1 ∧ c.clear = true) ∧ c.accRow.toNat ≤ r ∧ r < c.accRow.toNat + n then 0 else (s.mc d k).tag r

section
variable {s t : State} {d k mode n : Nat} {c : ReduceCmd} {inc : List Token} {v : Nat → Nat → W32}

theorem State.RowsReduced.zero (s : State) (d k mode : Nat) (c : ReduceCmd) (v : Nat → Nat → W32) : s.RowsReduced s d k mode c v 0 :=
  ⟨.refl s, fun _ => rfl, rfl, fun _ _ _ => by rw [if_neg (by omega)], fun _ => by rw [if_neg (by omega)]⟩

/-- One more row: its status goes to registers, its values to the core. -/
theorem State.RowsReduced.succ (h : s.RowsReduced t d k mode c v n) (clean : (s.mc d k).accErr = []) (x : Stat) :
    s.RowsReduced ((t.arith d x).setMc d k (((t.arith d x).mc d k).rowReduced mode c (c.accRow.toNat + n)
      ((List.range (c.colsM1.toNat + 1)).map (v n)))) d k mode c v (n + 1) := by
  have put := State.RowPut.arith t d k false x
  generalize t.arith d x = u at put
  have clean' : (u.mc d k).accErr = [] := by
    rw [put.core, h.core]
    exact clean
  refine ⟨(h.outside.trans put.outside).setDie .., fun p => ?_, ?_, fun r e he => ?_, fun r => ?_⟩
  · rw [State.place_setMc, put.lanes rfl, h.places]
  · obtain ⟨a, g, row⟩ := Mcore.rowReduced_frame (mode := mode) (c := c) clean' (c.accRow.toNat + n)
      ((List.range (c.colsM1.toNat + 1)).map (v n))
    rw [State.mc_setMc, if_pos ⟨rfl, rfl⟩, row, put.core, h.core]
  · rw [State.mc_setMc, if_pos ⟨rfl, rfl⟩, Mcore.elem_rowReduced _ _ _ _ _ _ he, put.core, h.elem r e he]
    by_cases now : r = c.accRow.toNat + n ∧ e < c.colsM1.toNat + 1
    · obtain ⟨rfl, cols⟩ := now
      rw [if_neg (by omega : ¬(_ ∧ c.accRow.toNat + n < c.accRow.toNat + n ∧ _)), if_pos ⟨rfl, cols⟩,
        if_pos (by omega), Nat.add_sub_cancel_left]
    · rw [if_neg now]
      exact if_congr (by omega) rfl rfl
  · rw [State.mc_setMc, if_pos ⟨rfl, rfl⟩, Mcore.tag_rowReduced clean', put.core, h.tag r]
    by_cases cleared : mode ≠ 1 ∧ c.clear = true
    · simp only [cleared, ne_eq, not_false_eq_true, true_and]
      by_cases now : r = c.accRow.toNat + n
      · rw [if_pos now, if_pos (by omega)]
      · rw [if_neg now]
        exact if_congr (by omega) rfl rfl
    · rw [if_neg (fun now => cleared now.1), if_neg (fun upTo => cleared upTo.1), if_neg (fun upTo => cleared upTo.1)]

/-- The rows of a REDUCE on a buffer without flipped bits, which the array unit does not write meanwhile. -/
theorem State.reduceRowsDo_rowsReduced (clean : (s.mc d k).accErr = []) (quiet : s.arrPending d k = []) (cyc : Nat)
    (values : ∀ i < reduceRows c, ∀ e < c.colsM1.toNat + 1,
      (reduceVal mode c inc i e ((s.mc d k).elem (c.accRow.toNat + i) e)).1 = v i e) :
    s.RowsReduced (s.reduceRowsDo d k mode c cyc inc).1 d k mode c v (reduceRows c) ∧
      (mode ≠ 1 → (s.reduceRowsDo d k mode c cyc inc).2.1 = (List.range (reduceRows c)).flatMap (fun i => reduceFlits c (v i))) := by
  unfold State.reduceRowsDo
  simp only [quiet]
  refine (foldl_range_rec (P := fun n (st : State × List (BitVec 512) × Bool) => n ≤ reduceRows c → st.2.2 = false ∧
    s.RowsReduced st.1 d k mode c v n ∧ (mode ≠ 1 → st.2.1 = (List.range n).flatMap (fun i => reduceFlits c (v i))))
    (fun _ => ⟨rfl, .zero s d k mode c v, fun _ => rfl⟩) ?_ _ le_rfl).2
  rintro n ⟨u, sent, stop⟩ upTo hn
  obtain ⟨rfl, rows, flits⟩ := upTo (Nat.le_of_succ_le hn)
  have read := State.accRead_of_no_errs (s := u) (d := d) (k := k) (by rw [rows.core]; exact clean) (c.accRow.toNat + n) (c.colsM1.toNat + 1)
  have own : ∀ e < c.colsM1.toNat + 1, (u.mc d k).elem (c.accRow.toNat + n) e = (s.mc d k).elem (c.accRow.toNat + n) e := fun e he => by
    rw [rows.elem _ _ (by have := c.colsM1.isLt; omega), if_neg (by omega)]
  have vals := map_fst_reduceVal (inc := inc) (mode := mode) (fun e he => (own e he).symm ▸ values n hn e he)
  unfold reduceVal at vals
  simp only [read, Bool.false_eq_true, if_false, vals]
  generalize List.foldl _ _ _ = x
  have next := rows.succ clean x
  unfold Mcore.rowReduced at next
  by_cases add : mode = 1
  · rw [if_pos add] at next
    have noHit : (List.range (reduceW c)).find? (fun _ => false) = none := List.find?_eq_none.2 (by simp)
    rw [if_pos add]
    simp only [List.any_nil, noHit, List.take_of_length_le (List.length_map .. ▸ List.length_range.le)]
    exact ⟨trivial, next, fun send => absurd add send⟩
  · rw [if_neg add] at next
    rw [if_neg add]
    refine ⟨rfl, next, fun _ => ?_⟩
    rw [List.range_succ (n := n), List.flatMap_append, List.flatMap_singleton, ← flits add]
    simp only [take_drop_map_range]
    rfl

end

-- The whole command (spec/04 R129, R133-R135) ---------------------------------------------------------------------------------------------

/-- The core at the issue of a REDUCE: its output unit is taken, and an ADD gives its rows their tags. -/
def Mcore.reduceHeld (m : Mcore) (mode : Nat) (c : ReduceCmd) (cyc : Nat) : Mcore :=
  let m1 : Mcore := { m with outUntil := cyc + reduceW c * reduceRows c + 1 }
  if mode = 1 then m1.tagUnset c.accRow.toNat (reduceRows c) c.gtag.toNat else m1

/-- What a REDUCE leaves as the tag of one of its rows (R129). -/
def reduceTag (mode : Nat) (c : ReduceCmd) (tag : Nat) : Nat :=
  if mode = 1 then (if tag = 0 then c.gtag.toNat else tag) else if c.clear then 0 else tag

/-- The header and the rows of values that a REDUCE puts on its outbound lane, each with the cycle from which it may depart (R133). -/
def reduceTokens (mode : Nat) (c : ReduceCmd) (gen cyc : Nat) (v : Nat → Nat → W32) : List (Nat × Token) :=
  (gatherHeader c (reduceContrib mode c) :: (List.range (reduceRows c)).flatMap (fun i => reduceFlits c (v i))).zipIdx.map (fun e =>
    (cyc + reduceDelay mode + e.2, ({ payload := e.1, gen := BitVec.ofNat 4 gen, hdr := e.2 == 0 } : Token)))

/-- From state s to t a whole REDUCE of the values v has been done: what it leaves of its core, and outside the compute dies. -/
structure State.Reduced (s t : State) (d k mode : Nat) (c : ReduceCmd) (v : Nat → Nat → W32) (cyc : Nat) : Prop where
  outside : SameOutside s t
  busy : (t.mc d k).outUntil = cyc + reduceW c * reduceRows c + 1
  elem : ∀ r e, e < 64 → (t.mc d k).elem r e =
    if c.accRow.toNat ≤ r ∧ r < c.accRow.toNat + reduceRows c ∧ e < c.colsM1.toNat + 1
    then reduceLeft mode c ((s.mc d k).elem r e) (v (r - c.accRow.toNat) e) else (s.mc d k).elem r e
  tag : ∀ r, (t.mc d k).tag r =
    if c.accRow.toNat ≤ r ∧ r < c.accRow.toNat + reduceRows c then reduceTag mode c ((s.mc d k).tag r) else (s.mc d k).tag r

section
variable {s t u : State} {d k mode cyc : Nat} {c : ReduceCmd} {inc : List Token} {v : Nat → Nat → W32}

theorem Mcore.reduceHeld_frame (m : Mcore) (mode : Nat) (c : ReduceCmd) (cyc : Nat) :
    ∃ g, m.reduceHeld mode c cyc = { m with outUntil := cyc + reduceW c * reduceRows c + 1, tags := g } := by
  unfold Mcore.reduceHeld
  split
  · exact Mcore.tagUnset_frame ..
  · exact ⟨m.tags, rfl⟩

theorem State.arrPending_congr (runs : (t.die d).runs = (s.die d).runs) (cyc : (t.die d).cyc = (s.die d).cyc) (k : Nat) :
    t.arrPending d k = s.arrPending d k := by
  unfold State.arrPending
  rw [runs, cyc]

theorem State.Reduced.of_stands (h : t.Reduced u d k mode c v cyc) (stands : s.CoreStands t d k) : s.Reduced u d k mode c v cyc :=
  ⟨stands.outside.trans h.outside, h.busy, stands.core ▸ h.elem, stands.core ▸ h.tag⟩
theorem State.Reduced.trans_stands (h : s.Reduced t d k mode c v cyc) (stands : t.CoreStands u d k) : s.Reduced u d k mode c v cyc :=
  ⟨h.outside.trans stands.outside, stands.core ▸ h.busy, stands.core ▸ h.elem, stands.core ▸ h.tag⟩

/-- Rows reduced from the held core on. -/
theorem State.RowsReduced.reduced (h : (s.setMc d k ((s.mc d k).reduceHeld mode c cyc)).RowsReduced t d k mode c v (reduceRows c)) :
    s.Reduced t d k mode c v cyc := by
  have held : (s.setMc d k ((s.mc d k).reduceHeld mode c cyc)).mc d k = (s.mc d k).reduceHeld mode c cyc := by
    rw [State.mc_setMc, if_pos ⟨rfl, rfl⟩]
  obtain ⟨g, frame⟩ := (s.mc d k).reduceHeld_frame mode c cyc
  have elem : ∀ r e, ((s.mc d k).reduceHeld mode c cyc).elem r e = (s.mc d k).elem r e := fun r e => by rw [frame]; rfl
  refine ⟨.trans (.setDie (.refl s) ..) h.outside, by rw [h.core, held, frame], fun r e he => ?_, fun r => ?_⟩
  · rw [h.elem r e he, held, elem]
  · rw [h.tag r, held]
    unfold Mcore.reduceHeld reduceTag
    by_cases add : mode = 1
    · rw [if_neg (fun sent => sent.1.1 add), if_pos add, if_pos add, Mcore.tag_tagUnset]
      exact ite_and ..
    · have stands : ({ s.mc d k with outUntil := cyc + reduceW c * reduceRows c + 1 } : Mcore).tag r = (s.mc d k).tag r := rfl
      rw [if_neg add, if_neg add, stands]
      cases c.clear <;> simp [add]

/-- R133-R135: a REDUCE with its flits at hand, on a buffer without flipped bits which the array unit does not write meanwhile. -/
theorem State.reduceDo_reduced (clean : (s.mc d k).accErr = []) (quiet : s.arrPending d k = []) (cyc : Nat)
    (values : ∀ i < reduceRows c, ∀ e < c.colsM1.toNat + 1,
      (reduceVal mode c inc i e ((s.mc d k).elem (c.accRow.toNat + i) e)).1 = v i e) :
    let t := s.reduceDo d k mode c cyc inc
    s.Reduced t d k mode c v cyc ∧ (∀ l < 2, (t.place d k).lane l = (s.place d k).lane l) ∧
      (mode ≠ 1 → ((t.place d k).lane (2 + b2n c.laneOut)).out =
        ((s.place d k).lane (2 + b2n c.laneOut)).out ++ reduceTokens mode c (s.place d k).gen cyc v) := by
  let b := s.setMc d k ((s.mc d k).reduceHeld mode c cyc)
  have held : b.mc d k = (s.mc d k).reduceHeld mode c cyc := by rw [State.mc_setMc, if_pos ⟨rfl, rfl⟩]
  obtain ⟨g, frame⟩ := (s.mc d k).reduceHeld_frame mode c cyc
  have quiet' : b.arrPending d k = [] := by
    rw [State.arrPending_congr (s := s) (by simp [b, State.setMc]) (by simp [b, State.setMc]), quiet]
  obtain ⟨rows, flits⟩ := State.reduceRowsDo_rowsReduced (s := b) (v := v) (by rw [held, frame]; exact clean) quiet' cyc
    (fun i hi e he => by rw [held, frame]; exact values i hi e he)
  have place : (b.reduceRowsDo d k mode c cyc inc).1.place d k = s.place d k := by rw [rows.places, State.place_setMc]
  have done : s.reduceDo d k mode c cyc inc = if mode = 1 then (b.reduceRowsDo d k mode c cyc inc).1 else
    (b.reduceRowsDo d k mode c cyc inc).1.laneOut d k (2 + b2n c.laneOut) (cyc + reduceDelay mode) true
      (gatherHeader c (reduceContrib mode c) :: (b.reduceRowsDo d k mode c cyc inc).2.1) := rfl
  intro t
  by_cases add : mode = 1
  · have eq : t = _ := done.trans (if_pos add)
    rw [eq, place]
    exact ⟨rows.reduced, fun _ _ => rfl, fun send => absurd add send⟩
  · have eq : t = _ := done.trans (if_neg add)
    rw [flits add] at eq
    rw [eq]
    refine ⟨rows.reduced.trans_stands (State.RowPut.laneOut ..).toCoreStands, fun l hl => ?_, fun _ => ?_⟩
    · simp [State.laneOut, place, show l ≠ 2 + b2n c.laneOut by omega]
    · simp [State.laneOut, reduceTokens, place]

/-- A REDUCE that sends leaves its rows as they were, or cleared. -/
theorem State.Reduced.cleared (h : s.Reduced t d k mode c v cyc) (send : mode ≠ 1) :
    (∀ r n, n < 64 → (t.mc d k).elem r n =
      if c.clear = true ∧ c.accRow.toNat ≤ r ∧ r < c.accRow.toNat + reduceRows c ∧ n < c.colsM1.toNat + 1 then 0#32
      else (s.mc d k).elem r n) ∧
    (∀ r, (t.mc d k).tag r =
      if c.clear = true ∧ c.accRow.toNat ≤ r ∧ r < c.accRow.toNat + reduceRows c then 0 else (s.mc d k).tag r) := by
  refine ⟨fun r n hn => ?_, fun r => ?_⟩
  · rw [h.elem r n hn, reduceLeft, if_neg send]
    cases c.clear <;> simp
  · rw [h.tag r, reduceTag, if_neg send]
    cases c.clear <;> simp

/-- An ADD leaves the sums in its rows, and its tag on them where it found 0 or its own. -/
theorem State.Reduced.added (h : s.Reduced t d k 1 c v cyc)
    (tags : ∀ i < reduceRows c, (s.mc d k).tag (c.accRow.toNat + i) = 0 ∨ (s.mc d k).tag (c.accRow.toNat + i) = c.gtag.toNat) :
    (∀ r n, n < 64 → (t.mc d k).elem r n =
      if c.accRow.toNat ≤ r ∧ r < c.accRow.toNat + reduceRows c ∧ n < c.colsM1.toNat + 1 then v (r - c.accRow.toNat) n
      else (s.mc d k).elem r n) ∧
    (∀ r, (t.mc d k).tag r = if c.accRow.toNat ≤ r ∧ r < c.accRow.toNat + reduceRows c then c.gtag.toNat else (s.mc d k).tag r) := by
  refine ⟨h.elem, fun r => ?_⟩
  rw [h.tag r]
  by_cases inside : c.accRow.toNat ≤ r ∧ r < c.accRow.toNat + reduceRows c
  · have own := tags (r - c.accRow.toNat) (by omega)
    rw [Nat.add_sub_cancel' inside.1] at own
    rw [if_pos inside, if_pos inside, reduceTag, if_pos rfl]
    split
    · rfl
    · exact own.resolve_left ‹_›
  · rw [if_neg inside, if_neg inside]

end

-- Its flits off the inbound lane (spec/04 R134, spec/08 R221) ----------------------------------------------------------------------------------

/-- Only inbound queues, tokens on their way and credits of lanes have changed: what is put out, the commands under way and the time stand. -/
structure State.LanesTaken (s t : State) : Prop where
  out : ∀ d p l, ((t.place d p).lane l).out = ((s.place d p).lane l).out
  gen : ∀ d p, (t.place d p).gen = (s.place d p).gen
  runs : ∀ d, (t.die d).runs = (s.die d).runs
  cyc : ∀ d, (t.die d).cyc = (s.die d).cyc

section
variable {s t u : State} {d k mode : Nat} {c : ReduceCmd}

theorem State.LanesTaken.refl (s : State) : s.LanesTaken s := ⟨fun _ _ _ => rfl, fun _ _ => rfl, fun _ => rfl, fun _ => rfl⟩
theorem State.LanesTaken.trans (h : s.LanesTaken t) (h' : t.LanesTaken u) : s.LanesTaken u :=
  ⟨fun d p l => (h'.out d p l).trans (h.out d p l), fun d p => (h'.gen d p).trans (h.gen d p), fun d => (h'.runs d).trans (h.runs d),
    fun d => (h'.cyc d).trans (h.cyc d)⟩

theorem State.LanesTaken.setLane (s : State) (e q m : Nat) {v : Place → Lane} (h : (v (s.place e q)).out = ((s.place e q).lane m).out) :
    s.LanesTaken (s.modPlace e q (fun x => x.setLane m (v x))) := by
  refine ⟨fun d p l => ?_, fun d p => ?_, fun d => ?_, fun d => ?_⟩
  · rw [State.place_modPlace]
    split
    · rename_i own
      obtain ⟨rfl, rfl⟩ := own
      rw [Place.lane_setLane]
      split
      · rename_i lane
        rw [lane, h]
      · rfl
    · rfl
  · rw [State.place_modPlace]
    split
    · rename_i own
      obtain ⟨rfl, rfl⟩ := own
      rfl
    · rfl
  all_goals
    rw [State.modPlace, State.setPlace, State.die_modDie]
    split
    · subst d
      rfl
    · rfl

theorem State.LanesTaken.laneTake (s : State) (d p l n : Nat) : s.LanesTaken (s.laneTake d p l n).1 := by
  unfold State.laneTake
  dsimp only
  split
  · exact (State.LanesTaken.setLane s d p l (by rfl)).trans (.setLane _ _ _ _ (by rfl))
  · exact .setLane s d p l (by rfl)

-- The command (spec/04 R134-R136) ---------------------------------------------------------------------------------------------------------------

theorem execReduceSend_eq (hd : d < 576) (hk : k < 16) (c : ReduceCmd) : exec (.reduceSend d k c) s = .next (s.reduce d k 0 c true) :=
  if_pos (mcoreNumbers_wf hd hk)
theorem execReduceAdd_eq (hd : d < 576) (hk : k < 16) (c : ReduceCmd) : exec (.reduceAdd d k c) s = .next (s.reduce d k 1 c true) :=
  if_pos (mcoreNumbers_wf hd hk)
theorem execReduceAddsend_eq (hd : d < 576) (hk : k < 16) (c : ReduceCmd) : exec (.reduceAddsend d k c) s = .next (s.reduce d k 2 c true) :=
  if_pos (mcoreNumbers_wf hd hk)

/-- Without a cause none of the conditions listed holds. -/
theorem eq_false_of_lowestCause_eq_none {l : List (Bool × Nat)} (h : lowestCause l = none) {b : Bool} {n : Nat} (mem : (b, n) ∈ l) :
    b = false := by
  unfold lowestCause at h
  cases hl : l.filter (·.1) with
  | nil => simpa using List.filter_eq_nil_iff.1 hl _ mem
  | cons x r =>
    rw [hl, List.foldl_cons] at h
    refine absurd h (Option.isSome_iff_ne_none.1 (List.foldlRecOn (motive := fun o : Option Nat => o.isSome = true) r _ rfl fun o ho y _ => ?_))
    cases o with
    | none => cases ho
    | some _ => rfl

/-- R139: cause 13 is met by an ADD over a row whose tag is neither its own nor 0. -/
theorem State.tags_of_no_cause {busy : Bool} {head : Option Token} (h : s.reduceCause d k 1 c busy head = none) {i : Nat} (hi : i < reduceRows c) :
    (s.mc d k).tag (c.accRow.toNat + i) = 0 ∨ (s.mc d k).tag (c.accRow.toNat + i) = c.gtag.toNat := by
  have tagged := eq_false_of_lowestCause_eq_none h (b := _) (n := 13) (by simp only [List.mem_cons]; exact .inr (.inr (.inr (.inl rfl))))
  simp only [Bool.or_eq_false_iff, List.any_eq_false, List.mem_map, List.mem_range] at tagged
  have row := tagged.2 _ ⟨i, hi, rfl⟩
  simp only [decide_true, Bool.true_and, Bool.and_eq_true, decide_eq_true_eq, Bool.not_eq_true', decide_eq_false_iff_not] at row
  tauto

theorem State.reduce_send (issue : s.canIssue d k = true) (cause : s.reduceCause d k 0 c (s.outBusy d k) none = none) :
    s.reduce d k 0 c true = s.reduceDo d k 0 c (s.die d).cyc [] := by
  unfold State.reduce
  simp only [issue, if_true, cause]
  rfl

theorem State.reduce_of_flits (issue : s.canIssue d k = true) {h : Token} {q : List Token} (queue : ((s.place d k).lane (b2n c.laneIn)).q = h :: q)
    (has : reduceW c * reduceRows c ≤ q.length) (receives : mode ≠ 0) (cause : s.reduceCause d k mode c (s.outBusy d k) (some h) = none) :
    s.reduce d k mode c true = (s.laneTake d k (b2n c.laneIn) (1 + reduceW c * reduceRows c)).1.reduceDo d k mode c (s.die d).cyc
      (q.take (reduceW c * reduceRows c)) := by
  have all : s.laneHas d k (b2n c.laneIn) (1 + reduceW c * reduceRows c) = true := by
    rw [State.laneHas, queue, List.length_cons]
    exact decide_eq_true (by omega)
  have got : (s.laneTake d k (b2n c.laneIn) (1 + reduceW c * reduceRows c)).2.drop 1 = q.take (reduceW c * reduceRows c) := by
    show (((s.place d k).lane (b2n c.laneIn)).q.take _).drop 1 = _
    rw [queue, Nat.add_comm, List.take_succ_cons]
    rfl
  unfold State.reduce
  simp only [issue, if_true, receives, if_false, queue, List.head?_cons, cause, all, got, decide_false, Bool.and_false, Bool.and_self,
    Bool.false_eq_true]

/-- The sum of an own and an incoming element does not depend on what follows the rows' flits. -/
theorem reduceVal_take (receives : mode ≠ 0) (q : List Token) (w : W32) {i e : Nat} (hi : i < reduceRows c) (he : e < c.colsM1.toNat + 1) :
    reduceVal mode c (q.take (reduceW c * reduceRows c)) i e w =
      reduceSum w (flitElem ((q[reduceW c * i + e / 16]?).getD default).payload (e % 16)) := by
  have within : e / 16 < reduceW c := by
    unfold reduceW cdiv
    omega
  have before : reduceW c * i + e / 16 < reduceW c * reduceRows c := calc
    reduceW c * i + e / 16 < reduceW c * i + reduceW c := Nat.add_lt_add_left within _
    _ = reduceW c * (i + 1) := rfl
    _ ≤ reduceW c * reduceRows c := Nat.mul_le_mul_left _ hi
  rw [reduceVal, if_neg receives, List.getElem?_take_of_lt before]

/-- An ADD or ADDSEND that meets no fault, with its header and flits at hand. -/
theorem State.reduce_received (issue : s.canIssue d k = true) (clean : (s.mc d k).accErr = []) (quiet : s.arrPending d k = []) {h : Token}
    {q : List Token} (queue : ((s.place d k).lane (b2n c.laneIn)).q = h :: q) (has : reduceW c * reduceRows c ≤ q.length) (receives : mode ≠ 0)
    (cause : s.reduceCause d k mode c (s.outBusy d k) (some h) = none) :
    let t := s.reduce d k mode c true
    let v := fun i e => (reduceSum ((s.mc d k).elem (c.accRow.toNat + i) e)
      (flitElem ((q[reduceW c * i + e / 16]?).getD default).payload (e % 16))).1
    s.Reduced t d k mode c v (s.die d).cyc ∧ ((t.place d k).lane (b2n c.laneIn)).q = q.drop (reduceW c * reduceRows c) ∧
      (mode ≠ 1 → ((t.place d k).lane (2 + b2n c.laneOut)).out =
        ((s.place d k).lane (2 + b2n c.laneOut)).out ++ reduceTokens mode c (s.place d k).gen (s.die d).cyc v) := by
  obtain ⟨stands, left, -, -⟩ := s.laneTake_frame d k (b2n c.laneIn) (1 + reduceW c * reduceRows c) k
  have taken := State.LanesTaken.laneTake s d k (b2n c.laneIn) (1 + reduceW c * reduceRows c)
  intro t v
  have eq : t = _ := State.reduce_of_flits issue queue has receives cause
  obtain ⟨core, inbound, out⟩ := State.reduceDo_reduced (mode := mode) (c := c) (v := v) (inc := q.take (reduceW c * reduceRows c))
    (by rw [stands.core]; exact clean) ((State.arrPending_congr (taken.runs d) (taken.cyc d) k).trans quiet) (s.die d).cyc
    (fun i hi e he => by rw [stands.core, reduceVal_take receives q _ hi he])
  rw [eq]
  refine ⟨core.of_stands stands, ?_, fun send => ?_⟩
  · rw [inbound _ (by unfold b2n; split <;> omega), left, queue, Nat.add_comm, List.drop_succ_cons]
  · rw [out send, taken.out, taken.gen]

end

/-- Settles O16: SEND on its rows as they stand, ADD and ADDSEND on the state that their flits have left. -/
theorem reduceMovesTaggedRows : Obligations.ReduceMovesTaggedRows := by
  intro s d k c hd hk issue clean quiet r0 cols own inside sends busy
  refine ⟨fun cause => ⟨_, execReduceSend_eq hd hk c, ?_⟩, fun h q queue has => ⟨fun cause => ⟨_, execReduceAdd_eq hd hk c, ?_⟩,
    fun cause => ⟨_, execReduceAddsend_eq hd hk c, ?_⟩⟩⟩
  · rw [State.reduce_send issue cause]
    obtain ⟨core, -, out⟩ := State.reduceDo_reduced (mode := 0) (inc := []) clean quiet (s.die d).cyc (fun _ _ _ _ => rfl)
    exact ⟨⟨out (by decide), core.cleared (by decide)⟩, core.busy, core.outside⟩
  · obtain ⟨core, queue', -⟩ := State.reduce_received issue clean quiet queue has (by decide) cause
    obtain ⟨elem, tag⟩ := core.added (fun _ hi => State.tags_of_no_cause cause hi)
    exact ⟨queue', elem, tag, core.busy, core.outside⟩
  · obtain ⟨core, queue', out⟩ := State.reduce_received issue clean quiet queue has (by decide) cause
    exact ⟨queue', ⟨out (by decide), core.cleared (by decide)⟩, core.busy, core.outside⟩

end Sys2Proof.Machine
end

section
/-! The scraper's slots: SCR_NOP, SETUP and SMOVE (spec/05 R143, R144, R147-R150). -/

namespace Sys2Proof.Machine

-- A fold over a numbered list ------------------------------------------------------------------------------------------------------

/-- A property of a number and a value that each step of a fold over a numbered list takes to the next number holds at its end. -/
theorem foldl_zipIdx_rec {α β : Type} {f : β → α × Nat → β} {b : β} {P : Nat → β → Prop} (l : List α) (h0 : P 0 b)
    (hs : ∀ n a b, l[n]? = some a → P n b → P (n + 1) (f b (a, n))) : P l.length (l.zipIdx.foldl f b) := by
  induction l using List.reverseRecOn with
  | nil => exact h0
  | append_singleton l x ih =>
    rw [List.zipIdx_append, List.zipIdx_singleton, Nat.zero_add, List.foldl_append, List.length_append]
    refine hs _ x _ (by simp) (ih fun n a b ha => hs n a b ?_)
    rw [List.getElem?_append_left (List.getElem?_eq_some_iff.1 ha).1, ha]

-- Slots of the side memory (spec/05 R142-R144) ---------------------------------------------------------------------------------------

namespace Scraper
variable (x : Scraper)

@[simp] theorem slot_setSlot (i j : Nat) (v : Slot) : (x.setSlot i v).slot j = if j = i then v else x.slot j := sget_nput ..

/-- Emptied slots hold +0 with kind EMPTY, every other slot stands. -/
theorem slot_emptySlots (first n i : Nat) :
    (x.emptySlots first n).slot i = if first ≤ i ∧ i < first + n then { kind := 0, a := 0, b := 0 } else x.slot i := sget_dropKeys ..

/-- Filled slots hold their values with the kind named, every other slot stands; the scraper's time stands. -/
theorem fillSlots_spec (first kind : Nat) (vs : List (W32 × W32)) :
    (x.fillSlots first kind vs).busyUntil = x.busyUntil ∧ ∀ i, (x.fillSlots first kind vs).slot i =
      if first ≤ i ∧ i < first + vs.length then { kind := kind, a := (vs.getD (i - first) default).1, b := (vs.getD (i - first) default).2 }
      else x.slot i := by
  refine foldl_zipIdx_rec (P := fun n (y : Scraper) => y.busyUntil = x.busyUntil ∧ ∀ i, y.slot i =
    if first ≤ i ∧ i < first + n then { kind := kind, a := (vs.getD (i - first) default).1, b := (vs.getD (i - first) default).2 }
    else x.slot i) vs ⟨rfl, fun i => by rw [if_neg (by omega)]⟩ fun n v y hv ⟨busy, upTo⟩ => ⟨busy, fun i => ?_⟩
  rw [slot_setSlot, upTo]
  by_cases last : i = first + n
  · rw [if_pos last, if_pos (by omega), last, Nat.add_sub_cancel_left, List.getD_eq_getElem?_getD, hv, Option.getD_some]
  · rw [if_neg last]
    exact if_congr (by omega) rfl rfl

end Scraper

/-- A side memory without flipped bits is read without a report. -/
theorem State.slotRead_of_no_errs {s : State} {d : Nat} (h : (s.die d).scr.sideErr = []) (i : Nat) :
    s.slotRead d i = (s, (s.die d).scr.slot i, false) := if_pos h
theorem State.slotReads_of_no_errs {s : State} {d : Nat} (h : (s.die d).scr.sideErr = []) (first n : Nat) :
    s.slotReads d first n = (s, (List.range n).map (fun j => (s.die d).scr.slot (first + j)), none) := by
  refine foldl_range_rec (P := fun n (q : State × List Slot × Option Nat) =>
    q = (s, (List.range n).map (fun j => (s.die d).scr.slot (first + j)), none)) rfl (fun n q hq => ?_) n
  rw [hq]
  simp only [State.slotRead_of_no_errs h, Bool.false_eq_true, if_false, List.range_succ, List.map_append, List.map_cons, List.map_nil]

-- Slots as bytes (spec/05 R142, R150) --------------------------------------------------------------------------------------------------

theorem slotBytes_cons (v : Slot) (l : List Slot) : slotBytes (v :: l) = leBytes 4 v.a.toNat ++ (leBytes 4 v.b.toNat ++ slotBytes l) := by
  rw [slotBytes, List.flatMap_cons, List.append_assoc]
  rfl

theorem length_slotBytes (l : List Slot) : (slotBytes l).length = 8 * l.length := by
  induction l with
  | nil => rfl
  | cons v l ih =>
    rw [slotBytes_cons, List.length_append, List.length_append, length_leBytes, length_leBytes, ih, List.length_cons]
    omega

/-- A bit of the little-endian bytes of a word. -/
theorem getLsbD_getD_leBytes (v : W32) {k b : Nat} (hk : k < 4) (hb : b < 8) :
    ((leBytes 4 v.toNat).getD k 0#8).getLsbD b = v.getLsbD (8 * k + b) := by
  rw [getD_leBytes, if_pos hk, BitVec.getLsbD_ofNat, show (256 : Nat) ^ k = 2 ^ (8 * k) by rw [Nat.pow_mul], Nat.testBit_div_two_pow,
    Nat.add_comm b, BitVec.testBit_toNat]
  simp [hb]

/-- A slot's first word is its bytes 0-3, its second its bytes 4-7. -/
theorem getLsbD_getD_slotBytes (l : List Slot) {b : Nat} (hb : b < 8) (k : Nat) :
    ((slotBytes l).getD k 0#8).getLsbD b =
      let q := l.getD (k / 8) default
      if k % 8 < 4 then q.a.getLsbD (8 * (k % 8) + b) else q.b.getLsbD (8 * (k % 8 - 4) + b) := by
  induction l generalizing k with
  | nil =>
    have zero : ∀ i, (0#32).getLsbD i = false := fun _ => BitVec.getLsbD_zero
    have empty : (default : Slot) = { kind := 0, a := 0#32, b := 0#32 } := rfl
    simp [slotBytes, empty, zero]
  | cons v l ih =>
    rw [slotBytes_cons]
    by_cases first : k < 4
    · rw [List.getD_append _ _ _ _ (by rw [length_leBytes]; exact first), getLsbD_getD_leBytes _ first hb,
        Nat.div_eq_of_lt (by omega), Nat.mod_eq_of_lt (by omega)]
      simp [first]
    · rw [List.getD_append_right _ _ _ _ (by rw [length_leBytes]; omega), length_leBytes]
      by_cases second : k < 8
      · rw [List.getD_append _ _ _ _ (by rw [length_leBytes]; omega), getLsbD_getD_leBytes _ (by omega) hb,
          Nat.div_eq_of_lt second, Nat.mod_eq_of_lt second]
        simp [first]
      · rw [List.getD_append_right _ _ _ _ (by rw [length_leBytes]; omega), length_leBytes, ih,
          show k - 4 - 4 = k - 8 by omega, show (k - 8) % 8 = k % 8 by omega, show k / 8 = (k - 8) / 8 + 1 by omega, List.getD_cons_succ]

/-- The words of a slot from its eight bytes. -/
theorem slotVals_spadBytes (s : State) (d a : Nat) :
    (slotVals (s.spadBytes d a 8)).1.toNat = leVal (s.spadBytes d a 4) ∧
      (slotVals (s.spadBytes d a 8)).2.toNat = leVal (s.spadBytes d (a + 4) 4) := by
  have word : ∀ e, leVal (s.spadBytes d e 4) < 2 ^ 32 := fun e => by
    show leVal [s.spadByte d e, s.spadByte d (e + 1), s.spadByte d (e + 2), s.spadByte d (e + 3)] < 2 ^ 32
    simp only [leVal]
    omega
  have low : (s.spadBytes d a 8).take 4 = s.spadBytes d a 4 := rfl
  have high : ((s.spadBytes d a 8).drop 4).take 4 = s.spadBytes d (a + 4) 4 := rfl
  rw [slotVals, low, high, BitVec.toNat_ofNat, BitVec.toNat_ofNat, Nat.mod_eq_of_lt (word _), Nat.mod_eq_of_lt (word _)]
  exact ⟨rfl, rfl⟩

-- What the scratchpad's accesses and stores leave of the scraper (spec/07 R198, R201) ----------------------------------------------------

section
variable {s t : State} {d : Nat}

theorem State.scr_spadSetWord (s : State) (d addr mask v : Nat) : ((s.spadSetWord d addr mask v).die d).scr = (s.die d).scr := by
  rw [State.spadSetWord, State.die_modDie, if_pos rfl]
theorem State.scr_spadStore (he : (s.die d).spad.errs = []) (port addr nbits v : Nat) (byPlace : Bool) :
    ((s.spadStore d port addr nbits v byPlace).die d).scr = (s.die d).scr := by
  have merge : ∀ ws, s.spadMerge d ws = (s, []) := fun _ => if_pos he
  unfold State.spadStore
  simp only [merge, List.foldl_nil]
  exact List.foldlRecOn (motive := fun t : State => (t.die d).scr = (s.die d).scr) _ _ rfl
    (fun t ht _ _ => (t.scr_spadSetWord ..).trans ht)

/-- A scratchpad that holds no flipped bit is read as its accesses are scheduled. -/
theorem State.schedRead_of_schedule {accs : List Acc} (he : (s.die d).spad.errs = []) (h : s.schedule d accs = (t, true)) :
    s.schedRead d accs = (t, true) := by
  have errs := (State.spad_schedule h).2.trans he
  unfold State.schedRead
  simp only [h, State.spadCheckLines_of_no_errs errs, if_true]

/-- Only a counter that is not the scratchpad's setting has changed: a byte keeps its bank. -/
theorem State.spadByte_bumpPerf_ne (s : State) (d e n : Nat) {off : Nat} (hlt : off < 2 ^ 32) (hne : off ≠ CD_SPAD_LINEAR) :
    (s.bumpPerf d off n).spadByte e = s.spadByte e := by
  have linear : ∀ w, (s.bumpPerf d off n).linearWin e w = s.linearWin e w := by
    intro w
    unfold State.linearWin State.rgB
    rw [State.rg_bumpPerf_ne]
    unfold rkey
    unfold CD_SPAD_LINEAR at hne ⊢
    omega
  funext a
  unfold State.spadByte State.spadPos State.bankOf
  rw [State.die_bumpPerf, linear]

/-- The scraper is busy for len cycles from cycle cyc, and counts them (spec/05 R141, R162). -/
def State.scrBusy (s : State) (d cyc len : Nat) : State :=
  (s.setScr d { (s.die d).scr with busyUntil := cyc + len }).bumpPerf d CD_SCR_BUSY len

/-- A command of the scraper has made its accesses and taken its time: reservations, its counters and its time have changed alone. -/
structure State.ScraperTaken (s t : State) (d busy : Nat) : Prop where
  outside : SameOutside s t
  dies : ∀ e, e ≠ d → t.die e = s.die e
  die : ∃ r, t.die d = { s.die d with spad := { (s.die d).spad with resv := r }, scr := { (s.die d).scr with busyUntil := busy } }
  bytes : t.spadByte d = s.spadByte d

theorem State.scrBusy_scraperTaken {accs : List Acc} (h : s.schedule d accs = (t, true)) (cyc len : Nat) :
    s.ScraperTaken (t.scrBusy d cyc len) d (cyc + len) := by
  have reserved := State.schedule_eq_true h
  have stands := State.CoreStands.bumpPerf (t.setScr d { (t.die d).scr with busyUntil := cyc + len }) d 0 d CD_SCR_BUSY len
  refine ⟨(SameOutside.setDie (State.CoreStands.schedule h 0).outside ..).trans stands.outside, fun e he => ?_, ⟨(s.reserve d accs).1, ?_⟩, ?_⟩
  · rw [State.scrBusy, State.die_bumpPerf, State.setScr, State.die_modDie, if_neg he, reserved, State.die_bumpPerf, State.die_modDie, if_neg he]
  · rw [State.scrBusy, State.die_bumpPerf, State.setScr, State.die_modDie, if_pos rfl, reserved, State.die_bumpPerf, State.die_modDie, if_pos rfl]
  · rw [State.scrBusy, State.spadByte_bumpPerf_ne _ _ _ _ (by decide) (by decide), ← State.spadByte_schedule h]
    funext a
    unfold State.spadByte State.setScr
    rw [State.spadPos_mod, State.die_modDie, if_pos rfl]

namespace State.ScraperTaken
variable {busy : Nat} (h : s.ScraperTaken t d busy)
include h

theorem scr : (t.die d).scr = { (s.die d).scr with busyUntil := busy } := by
  obtain ⟨r, hr⟩ := h.die
  rw [hr]
theorem slot (i : Nat) : (t.die d).scr.slot i = (s.die d).scr.slot i := by
  rw [h.scr]
  rfl
theorem spad : (t.die d).spad.mem = (s.die d).spad.mem ∧ (t.die d).spad.errs = (s.die d).spad.errs := by
  obtain ⟨r, hr⟩ := h.die
  rw [hr]
  exact ⟨rfl, rfl⟩
theorem place (p : Nat) : t.place d p = s.place d p := by
  obtain ⟨r, hr⟩ := h.die
  rw [State.place, hr]
  rfl
theorem spadBit (a b : Nat) : t.spadBit d a b = s.spadBit d a b := by
  rw [State.spadBit, h.bytes, State.spadBit]
theorem spadBytes (a n : Nat) : t.spadBytes d a n = s.spadBytes d a n := by
  rw [State.spadBytes, h.bytes, State.spadBytes]

end State.ScraperTaken

-- A scraper's slots written --------------------------------------------------------------------------------------------------------------

@[simp] theorem State.scr_setScr (s : State) (d : Nat) (x : Scraper) : ((s.setScr d x).die d).scr = x := by
  rw [State.setScr, State.die_modDie, if_pos rfl]
@[simp] theorem State.spad_setScr (s : State) (d : Nat) (x : Scraper) : ((s.setScr d x).die d).spad = (s.die d).spad := by
  rw [State.setScr, State.die_modDie, if_pos rfl]
@[simp] theorem State.place_setScr (s : State) (d p : Nat) (x : Scraper) : (s.setScr d x).place d p = s.place d p := by
  rw [State.setScr, State.place_modDie_of_place]
  exact fun _ => rfl

-- Its commands (spec/05 R147-R150) ---------------------------------------------------------------------------------------------------------

section
variable (hd : d < 576)
include hd

theorem execScrNop_eq (rsv : Bool) : exec (.scrNop d rsv) s = .next (s.scrNop d rsv) := if_pos (decide_eq_true hd)
theorem execSetup_eq (c : SetupCmd) : exec (.setup d c) s = .next (s.setup d c) := if_pos (decide_eq_true hd)
theorem execSmoveOut_eq (c : SmoveCmd) : exec (.smoveOut d c) s = .next (s.smove d 0 c true) := if_pos (decide_eq_true hd)
theorem execSmoveIn_eq (c : SmoveCmd) : exec (.smoveIn d c) s = .next (s.smove d 1 c true) := if_pos (decide_eq_true hd)
theorem execSmoveClear_eq (c : SmoveCmd) : exec (.smoveClear d c) s = .next (s.smove d 2 c true) := if_pos (decide_eq_true hd)

end

/-- A NOP without reserved bits has no effect. -/
theorem State.scrNop_plain (s : State) (d : Nat) : s.scrNop d false = s := by
  rw [State.scrNop, Bool.and_false, if_neg Bool.false_ne_true]

theorem State.setup_of_plain {c : SetupCmd} (issue : s.canIssue d 24 = true) (plain : c.rsv = false) :
    s.setup d c = s.setScr d { (s.die d).scr with eps := c.eps, diag := c.diag, gbSlot := c.gbSlot } := by
  unfold State.setup
  rw [if_pos issue, plain, if_neg Bool.false_ne_true]

variable {dir cyc : Nat} {c : SmoveCmd}

theorem State.smove_of_no_cause (issue : s.canIssue d 24 = true) (cause : s.smoveCause d dir c = none) :
    s.smove d dir c true = s.smoveDo d dir c (s.die d).cyc := by
  unfold State.smove
  rw [if_pos issue, cause]
  rfl

/-- R150: CLEAR makes no access. -/
theorem State.schedule_smoveClear (s : State) (d : Nat) (c : SmoveCmd) (cyc : Nat) : (s.schedule d (smoveAccs c 2 cyc)).2 = true := rfl

theorem State.smoveDo_clear (free : s.schedule d (smoveAccs c 2 cyc) = (t, true)) :
    let u := t.scrBusy d cyc (smoveLen c 2)
    s.smoveDo d 2 c cyc = u.setScr d ((u.die d).scr.emptySlots c.slot.toNat (smoveN c)) := by
  unfold State.smoveDo
  simp only [free]
  rfl

theorem State.smoveDo_in (clean : (s.die d).spad.errs = []) (free : s.schedule d (smoveAccs c 1 cyc) = (t, true)) :
    let u := t.scrBusy d cyc (smoveLen c 1)
    s.smoveDo d 1 c cyc = u.setScr d ((u.die d).scr.fillSlots c.slot.toNat c.kind.toNat
      ((List.range (smoveN c)).map (fun i => slotVals (s.spadBytes d (c.addr.toNat + 8 * i) 8)))) := by
  simp only [← (State.scrBusy_scraperTaken free cyc (smoveLen c 1)).spadBytes]
  unfold State.smoveDo
  simp only [State.schedRead_of_schedule clean free]
  rfl

theorem State.smoveDo_out (side : (s.die d).scr.sideErr = []) (free : s.schedule d (smoveAccs c 0 cyc) = (t, true)) :
    let u := t.scrBusy d cyc (smoveLen c 0)
    s.smoveDo d 0 c cyc = u.spadStoreBytes d 81 c.addr.toNat
      (slotBytes ((List.range (smoveN c)).map (fun j => (s.die d).scr.slot (c.slot.toNat + j)))) true := by
  have taken := State.scrBusy_scraperTaken free cyc (smoveLen c 0)
  have reads := State.slotReads_of_no_errs (s := t.scrBusy d cyc (smoveLen c 0)) (d := d) (by rw [taken.scr]; exact side) c.slot.toNat (smoveN c)
  simp only [taken.slot] at reads
  unfold State.scrBusy at reads
  unfold State.smoveDo
  simp only [free, if_true, if_false, Nat.zero_ne_one, reads]
  rfl

/-- R150: IN gives its slots its kind and the words of the scratchpad. -/
theorem State.slot_smoveDo_in (clean : (s.die d).spad.errs = []) (free : s.schedule d (smoveAccs c 1 cyc) = (t, true)) (i : Nat) :
    ((s.smoveDo d 1 c cyc).die d).scr.slot i =
      if c.slot.toNat ≤ i ∧ i < c.slot.toNat + smoveN c then
        let v := slotVals (s.spadBytes d (c.addr.toNat + 8 * (i - c.slot.toNat)) 8)
        { kind := c.kind.toNat, a := v.1, b := v.2 }
      else (s.die d).scr.slot i := by
  have taken := State.scrBusy_scraperTaken free cyc (smoveLen c 1)
  rw [State.smoveDo_in clean free, State.scr_setScr, (Scraper.fillSlots_spec ..).2, List.length_map, List.length_range, taken.slot]
  refine ite_congr rfl (fun inside => ?_) (fun _ => rfl)
  rw [List.getD_eq_getElem?_getD, List.getElem?_map, List.getElem?_range (by omega)]
  rfl

/-- R192: an addressable range ends within 128 MiB. -/
theorem State.le_of_spadRangeOk {a n : Nat} (h : s.spadRangeOk d a n = true) (hn : 0 < n) : a + n ≤ 0x8000000 := by
  have size : s.spadSize ≤ 0x8000000 := by
    unfold State.spadSize
    split <;> decide
  have last : (a + n - 1) / 64 * 64 ∈ linesOf a n := by
    rw [linesOf, if_neg (by omega)]
    exact List.mem_map.2 ⟨(a + n - 1) / 64 - a / 64, List.mem_range.2 (by omega), by congr 1; omega⟩
  have ok := List.all_eq_true.1 h _ last
  rw [State.spadOk, Bool.and_eq_true, decide_eq_true_eq] at ok
  omega

/-- R161: cause 5 is met by an SMOVE beyond the scratchpad. -/
theorem State.smove_in_range (cause : s.smoveCause d 0 c = none) : c.addr.toNat + 8 * smoveN c ≤ 0x8000000 := by
  have ok := eq_false_of_lowestCause_eq_none cause (b := _) (n := 5) (by simp only [List.mem_cons]; exact .inr (.inl rfl))
  refine State.le_of_spadRangeOk (s := s) (d := d) ?_ (by unfold smoveN; omega)
  simpa using ok

/-- R150: OUT stores the two words of its slots. -/
theorem State.spadBit_smoveDo_out (clean : (s.die d).spad.errs = []) (side : (s.die d).scr.sideErr = [])
    (cause : s.smoveCause d 0 c = none) (free : s.schedule d (smoveAccs c 0 cyc) = (t, true)) {a b : Nat} (ha : a < 0x8000000) (hb : b < 8) :
    (s.smoveDo d 0 c cyc).spadBit d a b =
      if c.addr.toNat ≤ a ∧ a < c.addr.toNat + 8 * smoveN c then
        let q := (s.die d).scr.slot (c.slot.toNat + (a - c.addr.toNat) / 8)
        if (a - c.addr.toNat) % 8 < 4 then q.a.getLsbD (8 * ((a - c.addr.toNat) % 8) + b)
        else q.b.getLsbD (8 * ((a - c.addr.toNat) % 8 - 4) + b)
      else s.spadBit d a b := by
  have taken := State.scrBusy_scraperTaken free cyc (smoveLen c 0)
  have range := State.smove_in_range cause
  have length : (slotBytes ((List.range (smoveN c)).map (fun j => (s.die d).scr.slot (c.slot.toNat + j)))).length = 8 * smoveN c := by
    rw [length_slotBytes, List.length_map, List.length_range]
  rw [State.smoveDo_out side free, State.spadStoreBytes,
    State.spadStore_bit (taken.spad.2.trans clean) (by rw [length]; omega) ha hb, length, taken.spadBit]
  by_cases inside : c.addr.toNat ≤ a ∧ a < c.addr.toNat + 8 * smoveN c
  · rw [if_pos (by omega), if_pos inside, testBit_leVal, show (8 * a + b - 8 * c.addr.toNat) / 8 = a - c.addr.toNat by omega,
      show (8 * a + b - 8 * c.addr.toNat) % 8 = b by omega, getLsbD_getD_slotBytes _ hb, List.getD_eq_getElem?_getD, List.getElem?_map,
      List.getElem?_range (by omega)]
    rfl
  · rw [if_neg (by omega), if_neg inside]

end

/-- Settles O17: CLEAR and IN as the slots that they write once the scraper is taken, OUT as the store of the bytes of the slots. -/
theorem scraperMovesSlots : Obligations.ScraperMovesSlots := by
  intro s d c u hd issue x m n
  refine ⟨?nop, fun plain => ?setup, fun cause => ⟨_, execSmoveClear_eq hd c, ?clear⟩,
    fun cause clean free => ⟨_, execSmoveIn_eq hd c, ?fill⟩, fun cause clean side free => ⟨_, execSmoveOut_eq hd c, ?out⟩⟩
  case nop => rw [execScrNop_eq hd, State.scrNop_plain]
  case setup => rw [execSetup_eq hd, State.setup_of_plain issue plain]
  case clear =>
    obtain ⟨t, free⟩ : ∃ t, s.schedule d (smoveAccs c 2 (s.die d).cyc) = (t, true) := ⟨_, Prod.ext rfl (s.schedule_smoveClear ..)⟩
    have taken := State.scrBusy_scraperTaken free (s.die d).cyc (smoveLen c 2)
    rw [State.smove_of_no_cause issue cause, State.smoveDo_clear free]
    refine ⟨fun i => ?_, ?_, ?_, fun p => ?_, fun e he => ?_, taken.outside.setDie ..⟩
    · rw [State.scr_setScr, Scraper.slot_emptySlots, taken.slot]
      rfl
    · rw [State.scr_setScr, taken.scr]
      rfl
    · rw [State.spad_setScr, taken.spad.1]
    · rw [State.place_setScr, taken.place]
    · rw [State.setScr, State.die_modDie, if_neg he, taken.dies e he]
  case fill =>
    obtain ⟨t, free⟩ : ∃ t, s.schedule d (smoveAccs c 1 (s.die d).cyc) = (t, true) := ⟨_, Prod.ext rfl free⟩
    have taken := State.scrBusy_scraperTaken free (s.die d).cyc (smoveLen c 1)
    have slots := State.slot_smoveDo_in clean free
    rw [State.smove_of_no_cause issue cause]
    refine ⟨fun i lo hi => ?_, fun i other => (slots i).trans (if_neg other), ?_⟩
    · rw [slots i, if_pos ⟨lo, hi⟩]
      exact ⟨rfl, slotVals_spadBytes ..⟩
    · rw [State.smoveDo_in clean free, State.scr_setScr, (Scraper.fillSlots_spec ..).1, taken.scr, State.spad_setScr, taken.spad.1]
      exact ⟨(Nat.add_assoc ..).symm, rfl, taken.outside.setDie ..⟩
  case out =>
    obtain ⟨t, free⟩ : ∃ t, s.schedule d (smoveAccs c 0 (s.die d).cyc) = (t, true) := ⟨_, Prod.ext rfl free⟩
    have taken := State.scrBusy_scraperTaken free (s.die d).cyc (smoveLen c 0)
    have errs := taken.spad.2.trans clean
    rw [State.smove_of_no_cause issue cause]
    refine ⟨fun a b ha hb => State.spadBit_smoveDo_out clean side cause free ha hb, ?_⟩
    rw [State.smoveDo_out side free, State.spadStoreBytes, State.scr_spadStore errs, taken.scr]
    exact ⟨fun i => rfl, rfl, taken.outside.trans (State.RowPut.spadStore errs 0 ..).outside⟩

end Sys2Proof.Machine
end

section
/-! NORM, SOFTMAX, NORMB and SOFTMAXB (spec/05 R143, R144, R147-R159): the slots of their statistics. -/

namespace Sys2Proof.Machine

-- Rows (spec/05 R153) -------------------------------------------------------------------------------------------------------------

/-- The statistic of a forward row is of the kind that its backward command needs. -/
theorem slot_normRow (c : RowCmd) (eps : Val) (g : RG) (r : RowIn) : ∃ a b, (normRow c eps g r).2.slot = some (needKind 3 c, a, b) := ⟨_, _, rfl⟩
theorem slot_softmaxRow (c : RowCmd) (g : RG) (r : RowIn) : ∃ a b, (softmaxRow c g r).2.slot = some (needKind 4 c, a, b) := by
  unfold softmaxRow
  split <;> exact ⟨_, _, rfl⟩
/-- A backward row leaves none. -/
theorem slot_normbRow (c : RowCmd) (mu rho : Val) (dg db : List Val) (g : RG) (r : RowIn) : (normbRow c mu rho dg db g r).2.slot = none := rfl
theorem slot_softmaxbRow (c : RowCmd) (mx sm : Val) (g : RG) (r : RowIn) : (softmaxbRow c mx sm g r).2.slot = none := by
  unfold softmaxbRow
  split <;> rfl

theorem length_rowStarts (op : Nat) (c : RowCmd) : (rowStarts op c).length = rowN c :=
  foldl_range_rec (P := fun n (st : List Nat × Nat) => st.1.length = n) rfl (fun n st h => by rw [List.length_append, h]; rfl) (rowN c)

-- What putting a row out leaves of the scraper ---------------------------------------------------------------------------------------

section
variable {s t u : State} {d : Nat}

theorem State.scr_modPlace (s : State) (d p : Nat) (f : Place → Place) : ((s.modPlace d p f).die d).scr = (s.die d).scr := by
  rw [State.modPlace, State.setPlace, State.die_modDie, if_pos rfl]
  rfl
theorem State.scr_laneRow (s : State) (d p lane w addr : Nat) (codes : List Nat) (leave : Nat → Nat) :
    ((s.laneRow d p lane w addr codes leave).die d).scr = (s.die d).scr :=
  List.foldlRecOn (motive := fun t : State => (t.die d).scr = (s.die d).scr) _ _ rfl
    (fun t ht _ _ => (t.scr_modPlace ..).trans ht)
theorem State.scr_putRow (he : (s.die d).spad.errs = []) (p port lane : Nat) (dst : Bool) (w addr : Nat) (codes : List Nat) (saddr : Nat)
    (scales : List Nat) (leave : Nat → Nat) :
    ((s.putRow d p port lane dst w addr codes saddr scales leave).die d).scr = (s.die d).scr := by
  unfold State.putRow
  cases dst with
  | true => exact s.scr_laneRow ..
  | false =>
    have row := State.scr_spadStore he port addr (w * codes.length) (packElems w codes) true
    have errs := (State.RowPut.spadStore he 0 port addr (w * codes.length) (packElems w codes) true).errs he
    show ((if scales = [] then _ else _ : State).die d).scr = _
    split
    · exact row
    · exact (State.scr_spadStore errs ..).trans row

theorem State.die_arith (s : State) (d : Nat) (x : Stat) (e : Nat) : (s.arith d x).die e = s.die e := by
  obtain ⟨r, q, eq⟩ := s.arith_frame d x
  rw [eq]
  rfl

-- One row (spec/05 R144, R159) ---------------------------------------------------------------------------------------------------------

variable {op : Nat} {c : RowCmd}

/-- The statistic that a row leaves: a forward row one of the kind that its backward command needs, a backward row none. -/
def RowStat (op : Nat) (c : RowCmd) (slot : Option (Nat × Val × Val)) : Prop :=
  if isBack op then slot = none else ∃ a b, slot = some (needKind (op + 2) c, a, b)

/-- The generators that a command has stepped (R151). -/
def Die.scrDrawn (x : Die) (c : RowCmd) (g : RG) : Die :=
  if c.rmode.toNat = 2 then { x with gens := g.gens.zipIdx.foldl (fun gm (e : W64 × Nat) => sput gm (16 * 24 + e.2) e.1) x.gens } else x

theorem Die.scrDrawn_frame (x : Die) (c : RowCmd) (g : RG) : ∃ gs, x.scrDrawn c g = { x with gens := gs } := by
  unfold Die.scrDrawn
  split
  · exact ⟨_, rfl⟩
  · exact ⟨x.gens, rfl⟩

/-- A statistic, where there is one, written to slot i. -/
def Scraper.putStat (x : Scraper) (i : Nat) : Option (Nat × Val × Val) → Scraper
  | some (k, a, b) => x.setSlot i { kind := k, a := code32 a, b := code32 b }
  | none => x

/-- A row without column gradients has been evaluated to rr: its draws, its statistic and its status are written. -/
def State.rowWritten (s : State) (d : Nat) (c : RowCmd) (m : Nat) (rr : RG × RowRes) : State :=
  (s.modDie d (fun y => { y.scrDrawn c rr.1 with scr := (y.scrDrawn c rr.1).scr.putStat (c.slot.toNat + m) rr.2.slot })).arith d rr.1.stat

theorem State.rowEval_eq_rowWritten (side : (s.die d).scr.sideErr = []) (hop : op = 1 ∨ op = 2 ∨ op = 3 ∨ op = 4) (noGb : gbOn op c = false)
    (w : RowSet) (m : Nat) (ri : RowIn) :
    ∃ rr, s.rowEval d op c w m ri = (s.rowWritten d c m rr, .inr (rr.2.codes, rr.2.scales)) ∧ RowStat op c rr.2.slot := by
  rw [State.rowEval, State.slotRead_of_no_errs side, noGb]
  rcases hop with rfl | rfl | rfl | rfl
  · exact ⟨_, rfl, slot_normRow ..⟩
  · exact ⟨_, rfl, slot_softmaxRow ..⟩
  · exact ⟨_, rfl, slot_normbRow ..⟩
  · exact ⟨_, rfl, slot_softmaxbRow ..⟩

/-- A row leaves the scratchpad as it is, and of the scraper it changes the slot of its statistic alone. -/
theorem State.die_rowWritten (s : State) (d : Nat) (c : RowCmd) (m : Nat) (rr : RG × RowRes) :
    ((s.rowWritten d c m rr).die d).spad = (s.die d).spad ∧
      ((s.rowWritten d c m rr).die d).scr = (s.die d).scr.putStat (c.slot.toNat + m) rr.2.slot := by
  obtain ⟨gs, drawn⟩ := (s.die d).scrDrawn_frame c rr.1
  rw [State.rowWritten, State.die_arith, State.die_modDie, if_pos rfl, drawn]
  exact ⟨rfl, rfl⟩

-- Row by row (spec/05 R144, R159) ------------------------------------------------------------------------------------------------------

/-- From state s on, the first n rows of a command without column gradients have been done: those of a forward command have left their
statistics in their slots, and no other slot has changed. -/
structure State.StatsLeft (s t : State) (d op : Nat) (c : RowCmd) (n : Nat) : Prop where
  errs : (t.die d).spad.errs = []
  side : (t.die d).scr.sideErr = []
  busy : (t.die d).scr.busyUntil = (s.die d).scr.busyUntil
  kinds : isBack op = false → ∀ i, c.slot.toNat ≤ i ∧ i < c.slot.toNat + n → ((t.die d).scr.slot i).kind = needKind (op + 2) c
  slots : ∀ i, isBack op = true ∨ ¬(c.slot.toNat ≤ i ∧ i < c.slot.toNat + n) → (t.die d).scr.slot i = (s.die d).scr.slot i

namespace State.StatsLeft
variable {n : Nat}

theorem zero (errs : (s.die d).spad.errs = []) (side : (s.die d).scr.sideErr = []) (op : Nat) (c : RowCmd) : s.StatsLeft s d op c 0 :=
  ⟨errs, side, rfl, fun _ i inside => by omega, fun _ _ => rfl⟩

/-- One more row is evaluated, and put out without a change to the scraper. -/
theorem succ (h : s.StatsLeft t d op c n) {rr : RG × RowRes} (stat : RowStat op c rr.2.slot) (errs : (u.die d).spad.errs = [])
    (scr : (u.die d).scr = ((t.rowWritten d c n rr).die d).scr) : s.StatsLeft u d op c (n + 1) := by
  rw [(t.die_rowWritten ..).2] at scr
  unfold RowStat at stat
  by_cases back : isBack op = true
  · rw [if_pos back] at stat
    rw [stat, Scraper.putStat] at scr
    refine ⟨errs, scr ▸ h.side, scr ▸ h.busy, fun fwd => absurd back (by simp [fwd]), fun i _ => ?_⟩
    rw [scr, h.slots i (.inl back)]
  · rw [if_neg back] at stat
    obtain ⟨a, b, stat⟩ := stat
    rw [stat, Scraper.putStat] at scr
    refine ⟨errs, ?_, scr ▸ h.busy, fun fwd i inside => ?_, fun i other => ?_⟩
    · rw [scr]
      show serase (serase (t.die d).scr.sideErr _) _ = []
      rw [h.side]
      rfl
    · rw [scr, Scraper.slot_setSlot]
      split
      · rfl
      · exact h.kinds fwd i (by omega)
    · have outside := other.resolve_left back
      rw [scr, Scraper.slot_setSlot, if_neg (by omega), h.slots i (.inr (by omega))]

/-- R159: a row on slots of the kind that it needs, and on a scratchpad and a side memory without flipped bits. -/
theorem rowStep (h : s.StatsLeft t d op c n) (hop : op = 1 ∨ op = 2 ∨ op = 3 ∨ op = 4) (noGb : gbOn op c = false)
    (kind : isBack op = true → ((s.die d).scr.slot (c.slot.toNat + n)).kind = needKind op c) (cyc start : Nat) (flits : Option (List Token)) :
    ∃ u, t.rowStep d op c cyc n start flits = (u, false) ∧ s.StatsLeft u d op c (n + 1) := by
  have good : ∀ w, (t.die d).scr.badKind op c w n = false := fun w => by
    unfold Scraper.badKind
    cases back : isBack op with
    | false => rfl
    | true =>
      rw [h.slots _ (.inl back), kind back, noGb]
      simp
  obtain ⟨rr, eval, stat⟩ := State.rowEval_eq_rowWritten h.side hop noGb (t.die d).scr.setting n
    (t.rowIn d op c (t.die d).scr.setting n flits)
  have errs : ((t.rowWritten d c n rr).die d).spad.errs = [] := by rw [(t.die_rowWritten ..).1, h.errs]
  unfold State.rowStep
  simp only [good, Bool.false_eq_true, if_false, eval]
  refine ⟨_, rfl, h.succ stat ?_ ?_⟩
  · rw [State.die_bumpPerf]
    exact (State.RowPut.putRow errs 0 ..).errs errs
  · rw [State.die_bumpPerf, State.scr_putRow errs]

end State.StatsLeft

/-- R144, R159: a row command with its operands at hand that meets no other access. -/
theorem State.rowDo_statsLeft (clean : (s.die d).spad.errs = []) (side : (s.die d).scr.sideErr = [])
    (hop : op = 1 ∨ op = 2 ∨ op = 3 ∨ op = 4) (noGb : gbOn op c = false) {cyc : Nat} (free : s.schedule d (rowAccs op c cyc) = (t, true))
    (kinds : isBack op = true → ∀ i, c.slot.toNat ≤ i ∧ i < c.slot.toNat + rowN c → ((s.die d).scr.slot i).kind = needKind op c)
    (flits : Option (List Token)) : (t.scrBusy d cyc (rowLength op c)).StatsLeft (s.rowDo d op c cyc flits) d op c (rowN c) := by
  have taken := State.scrBusy_scraperTaken free cyc (rowLength op c)
  have errs := taken.spad.2.trans clean
  have noErr : ((t.scrBusy d cyc (rowLength op c)).die d).scr.sideErr = [] := by
    rw [taken.scr]
    exact side
  unfold State.rowDo
  simp only [State.schedRead_of_schedule clean free, if_true]
  refine (length_rowStarts op c ▸ foldl_zipIdx_rec (P := fun n (st : (State × Bool) × Nat) => st.1.2 = false ∧
    (t.scrBusy d cyc (rowLength op c)).StatsLeft st.1.1 d op c n) (rowStarts op c) ⟨rfl, .zero errs noErr op c⟩ ?_ : _ ∧ _).2
  rintro n start ⟨⟨v, stop⟩, taken'⟩ row ⟨rfl, upTo⟩
  have before : n < rowN c := length_rowStarts op c ▸ (List.getElem?_eq_some_iff.1 row).1
  obtain ⟨u, step, next⟩ := upTo.rowStep hop noGb (fun back => by rw [taken.slot]; exact kinds back _ (by omega)) cyc start
    (flits.map (fun l => (l.drop taken').take (rowLines c.fmtIn.toNat c (rowAddrIn c n)).length))
  simp only [Bool.false_eq_true, if_false, step]
  exact ⟨trivial, next⟩

-- The commands (spec/05 R147) -----------------------------------------------------------------------------------------------------------

section
variable (hd : d < 576)
include hd

theorem execNorm_eq (c : RowCmd) : exec (.norm d c) s = .next (s.rowCmd d 1 c true) := if_pos (decide_eq_true hd)
theorem execSoftmax_eq (c : RowCmd) : exec (.softmax d c) s = .next (s.rowCmd d 2 c true) := if_pos (decide_eq_true hd)
theorem execNormb_eq (c : RowCmd) : exec (.normb d c) s = .next (s.rowCmd d 3 c true) := if_pos (decide_eq_true hd)
theorem execSoftmaxb_eq (c : RowCmd) : exec (.softmaxb d c) s = .next (s.rowCmd d 4 c true) := if_pos (decide_eq_true hd)

end

theorem State.rowCmd_of_spad (issue : s.canIssue d 24 = true) (cause : s.rowCause d op c = none) (src : c.src = false) :
    s.rowCmd d op c true = s.rowDo d op c (s.die d).cyc none := by
  unfold State.rowCmd
  simp only [issue, if_true, cause, src, Bool.not_false, Bool.and_self]

/-- R144, R159: what a row command on operands of the scratchpad leaves of the scraper: its time, and the slots of its rows. -/
theorem State.rowCmd_leaves (issue : s.canIssue d 24 = true) (src : c.src = false) (clean : (s.die d).spad.errs = [])
    (side : (s.die d).scr.sideErr = []) (hop : op = 1 ∨ op = 2 ∨ op = 3 ∨ op = 4) (noGb : gbOn op c = false) (cause : s.rowCause d op c = none)
    (free : (s.schedule d (rowAccs op c (s.die d).cyc)).2 = true)
    (kinds : isBack op = true → ∀ i, c.slot.toNat ≤ i ∧ i < c.slot.toNat + rowN c → ((s.die d).scr.slot i).kind = needKind op c) :
    let x := ((s.rowCmd d op c true).die d).scr
    (isBack op = false → ∀ i, c.slot.toNat ≤ i ∧ i < c.slot.toNat + rowN c → (x.slot i).kind = needKind (op + 2) c) ∧
      (∀ i, isBack op = true ∨ ¬(c.slot.toNat ≤ i ∧ i < c.slot.toNat + rowN c) → x.slot i = (s.die d).scr.slot i) ∧
      x.busyUntil = (s.die d).cyc + rowLength op c := by
  obtain ⟨t, free⟩ : ∃ t, s.schedule d (rowAccs op c (s.die d).cyc) = (t, true) := ⟨_, Prod.ext rfl free⟩
  have taken := State.scrBusy_scraperTaken free (s.die d).cyc (rowLength op c)
  have done := State.rowDo_statsLeft clean side hop noGb free kinds none
  rw [State.rowCmd_of_spad issue cause src]
  refine ⟨done.kinds, fun i other => ?_, ?_⟩
  · rw [done.slots i other, taken.slot]
  · rw [done.busy, taken.scr]

end

/-- Settles O18: each command by what its rows leave of the scraper. -/
theorem rowCommandsLeaveStatistics : Obligations.RowCommandsLeaveStatistics := by
  intro s d c hd issue src clean side x t0 inRows
  have leaves := fun op => State.rowCmd_leaves (op := op) issue src clean side
  refine ⟨fun cause free => ⟨_, execNorm_eq hd c, ?norm⟩, fun cause free => ⟨_, execSoftmax_eq hd c, ?softmax⟩,
    fun cause noGb free kinds => ⟨_, execNormb_eq hd c, ?normb⟩, fun cause free kinds => ⟨_, execSoftmaxb_eq hd c, ?softmaxb⟩⟩
  case norm =>
    obtain ⟨stats, slots, busy⟩ := leaves 1 (by decide) rfl cause free nofun
    exact ⟨stats rfl, fun i other => slots i (.inr other), busy⟩
  case softmax =>
    obtain ⟨stats, slots, busy⟩ := leaves 2 (by decide) rfl cause free nofun
    exact ⟨stats rfl, fun i other => slots i (.inr other), busy⟩
  case normb =>
    obtain ⟨-, slots, busy⟩ := leaves 3 (by decide) (by simp [gbOn, noGb]) cause free (fun _ => kinds)
    exact ⟨fun i => slots i (.inl rfl), busy⟩
  case softmaxb =>
    obtain ⟨-, slots, busy⟩ := leaves 4 (by decide) rfl cause free (fun _ => kinds)
    exact ⟨fun i => slots i (.inl rfl), busy⟩

end Sys2Proof.Machine
end

section
/-! The V-cores' results (spec/06 R164-R168): packed lanes, the lanes a result writes, and what sending one to its register changes. -/

namespace Sys2Proof.Machine

-- Packed elements (spec/02 R51) -----------------------------------------------------------------------------------------------------

theorem packElems_cons_div (w e : Nat) (l : List Nat) : packElems w (e :: l) / 2 ^ w = packElems w l := by
  rw [packElems, Nat.shiftLeft_eq, Nat.add_mul_div_right _ _ (Nat.two_pow_pos w), Nat.div_eq_of_lt (Nat.mod_lt _ (Nat.two_pow_pos w)), Nat.zero_add]

/-- An element of packed elements is the one that was packed there, cut to its width. -/
theorem packElems_shiftRight_mod (w : Nat) (l : List Nat) (k : Nat) : packElems w l >>> (w * k) % 2 ^ w = l.getD k 0 % 2 ^ w := by
  induction l generalizing k with
  | nil => simp [packElems]
  | cons e l ih =>
    cases k with
    | zero => simp [packElems, Nat.shiftLeft_eq]
    | succ k => rw [show w * (k + 1) = w + w * k by ring, Nat.shiftRight_add, Nat.shiftRight_eq_div_pow _ w, packElems_cons_div, ih, List.getD_cons_succ]

/-- An element that lies within a register of n bits is not cut off with it. -/
theorem toNat_ofNat_shiftRight_mod {n w i : Nat} (h : i + w ≤ n) (x : Nat) : (BitVec.ofNat n x).toNat >>> i % 2 ^ w = x >>> i % 2 ^ w := by
  refine Nat.eq_of_testBit_eq fun b => ?_
  simp only [BitVec.toNat_ofNat, Nat.testBit_mod_two_pow, Nat.testBit_shiftRight]
  by_cases hb : b < w
  · rw [decide_eq_true (show i + b < n by omega), Bool.true_and]
  · rw [decide_eq_false hb, Bool.false_and, Bool.false_and]

/-- The number of the element that lane l of a register belongs to (spec/06 R164). -/
def laneElem (w l : Nat) : Nat := if w = 64 then l / 2 else l

/-- R164: a mask of elements as a mask of 32-bit lanes, two for a binary64 element. -/
theorem testBit_enOf (w n m l : Nat) : (enOf w n m).testBit l = (decide (laneElem w l < n) && m.testBit (laneElem w l)) := by
  have one : ∀ k l, (if w = 64 then 3 <<< (2 * k) else 1 <<< k : Nat).testBit l = decide (laneElem w l = k) := fun k l => by
    unfold laneElem
    split
    · rw [Nat.testBit_shiftLeft, show (3 : Nat) = 2 ^ 2 - 1 from rfl, Nat.testBit_two_pow_sub_one, ← Bool.decide_and]
      exact decide_eq_decide.2 (by omega)
    · rw [Nat.one_shiftLeft, Nat.testBit_two_pow]
      exact decide_eq_decide.2 eq_comm
  refine foldl_range_rec (P := fun n (a : Nat) => ∀ l, a.testBit l = (decide (laneElem w l < n) && m.testBit (laneElem w l)))
    (fun l => by simp) (fun n a upTo l => ?_) n l
  by_cases on : m.testBit n = true
  · rw [if_pos on, testBit_add_disjoint _ _ _ (fun i => by rw [upTo, one]; simp; omega), upTo, one]
    by_cases last : laneElem w l = n
    · simp [last, on]
    · simp [last, show (laneElem w l < n + 1) ↔ laneElem w l < n by omega]
  · rw [if_neg on, upTo]
    by_cases last : laneElem w l = n
    · simp [last, on]
    · simp [show (laneElem w l < n + 1) ↔ laneElem w l < n by omega]

-- Results (spec/06 R165, R168) --------------------------------------------------------------------------------------------------------

/-- A result as it goes to its register, due at a cycle, with the lanes or mask bits that it writes. -/
def VRes.sent (r : VRes) (dest : VDest) (m due : Nat) : VPend :=
  { due := due, dest := dest, val := BitVec.ofNat 2048 (packElems r.w (r.els.map (·.1)))
    en := BitVec.ofNat 64 (match dest with
      | .reg _ => enOf r.w r.els.length m
      | .mask _ => 2 ^ r.els.length - 1) }
/-- The elements that mask m enables, and the status that they set. -/
def VRes.live (r : VRes) (m : Nat) : List ((Nat × Stat) × Nat) := r.els.zipIdx.filter (fun e => m.testBit e.2)
def VRes.status (r : VRes) (m : Nat) : Stat := (r.live m).foldl (fun a e => a.or e.1.2) Stat.none

/-- The state after a result has been sent: it is on its way, and its status and its lanes are counted. -/
theorem State.vResult_eq (s : State) (d v lat m : Nat) (dest : VDest) (r : VRes) :
    s.vResult d v lat m dest r = ((s.setVc d v { s.vc d v with pend := insPend (r.sent dest m ((s.die d).cyc + lat)) (s.vc d v).pend }).arith d
      (r.status m)).bumpPerf d (CD_VC_LANEOPS v) (r.live m).length := by
  unfold VRes.sent
  cases dest <;> rfl

/-- The elements of a result, cut to their width. -/
theorem VRes.pendElem_sent_getD {r : VRes} {n k : Nat} (dest : VDest) (m due : Nat) (hk : k < n) (fit : r.w * n ≤ 2048) :
    pendElem (r.sent dest m due) r.w k = (r.els.map (·.1)).getD k 0 % 2 ^ r.w := by
  have within : r.w * k + r.w ≤ 2048 := calc
    r.w * k + r.w = r.w * (k + 1) := rfl
    _ ≤ r.w * n := Nat.mul_le_mul_left r.w hk
    _ ≤ 2048 := fit
  unfold pendElem VRes.sent
  rw [toNat_ofNat_shiftRight_mod within, packElems_shiftRight_mod]
/-- Those that are given by their number. -/
theorem VRes.pendElem_sent {r : VRes} {n k : Nat} (f : Nat → Nat) (els : r.els.map (·.1) = (List.range n).map f) (dest : VDest) (m due : Nat)
    (hk : k < n) (fit : r.w * n ≤ 2048) : pendElem (r.sent dest m due) r.w k = f k % 2 ^ r.w := by
  rw [VRes.pendElem_sent_getD dest m due hk fit, els, List.getD_eq_getElem?_getD, List.getElem?_map, List.getElem?_range hk]
  rfl

/-- The lanes that a result for a register writes: those of the elements that its mask enables. -/
theorem VRes.en_sent {r : VRes} {n l : Nat} (reg m due : Nat) (len : r.els.length = n) (hl : l < 64) (all : laneElem r.w l < n) :
    (r.sent (.reg reg) m due).en.getLsbD l = m.testBit (laneElem r.w l) := by
  unfold VRes.sent
  rw [BitVec.getLsbD_ofNat, testBit_enOf, len, decide_eq_true hl, decide_eq_true all, Bool.true_and, Bool.true_and]

/-- A result whose elements set no status sets none. -/
theorem VRes.status_eq_none {r : VRes} (h : ∀ e ∈ r.els, e.2 = Stat.none) (m : Nat) : r.status m = Stat.none := by
  refine List.foldlRecOn (motive := fun a : Stat => a = Stat.none) _ _ rfl fun a ha e he => ?_
  have mem := (List.mem_zipIdx (List.mem_filter.1 he).1)
  rw [ha, h e.1 (mem.2.2 ▸ List.getElem_mem _)]
  rfl

-- What sending a result changes (spec/06 R168, R173, spec/02 R77) ---------------------------------------------------------------------------

theorem State.rg_orRg_ne (s : State) {node off n o : Nat} (m : Nat) (h : rkey n o ≠ rkey node off) : (s.orRg node off m).rg n o = s.rg n o := by
  rw [State.orRg, State.rg_setRg, if_neg h]

/-- An error counter changes itself and its overflow bit. -/
theorem State.rg_bumpErr_ne (s : State) {node off st n o : Nat} (b k : Nat) (hc : rkey n o ≠ rkey node off) (hs : rkey n o ≠ rkey node st) :
    (s.bumpErr node off st b k).rg n o = s.rg n o := by
  have count : ∀ v, (s.setRg node off v).rg n o = s.rg n o := fun v => by rw [State.rg_setRg, if_neg hc]
  unfold State.bumpErr
  dsimp only
  split
  · rfl
  · split
    · exact count _
    · split
      · exact count _
      · exact ((s.setRg node off 0xFFFFFFFF).rg_orRg_ne (2 ^ b) hs).trans (count _)
theorem State.rg_arith_ne (s : State) {d n o : Nat} (x : Stat) (hs : rkey n o ≠ rkey d CD_ARITH_STATUS) (hc : rkey n o ≠ rkey d CD_SAT_COUNT) :
    (s.arith d x).rg n o = s.rg n o := by
  unfold State.arith
  dsimp only
  rw [State.rg_bumpErr_ne _ _ _ hc hs]
  split
  · rfl
  · exact s.rg_orRg_ne _ hs
/-- No status: nothing is set and nothing counted. -/
theorem State.arith_none (s : State) (d : Nat) : s.arith d Stat.none = s := by
  have flags : s.arith d Stat.none = s.bumpErr d CD_SAT_COUNT CD_ARITH_STATUS 31 0 := rfl
  rw [flags, State.bumpErr, if_pos (.inr rfl)]

/-- The registers that a V-core's instruction may change: the two counters of the core and the die's arithmetic status. -/
def vcoreRegs (v : Nat) : List Nat := [CD_VC_INSTR v, CD_VC_LANEOPS v, CD_ARITH_STATUS, CD_SAT_COUNT]

/-- Nothing has changed but V-core v of die d, the die's generators, the counters of the core, the die's arithmetic status, and the PCD, which is
told of an overflow of its count. -/
structure State.VcoreOnly (s t : State) (d v : Nat) : Prop where
  outside : SameOutside s t
  dies : ∀ e, e ≠ d → t.die e = s.die e
  die : ∃ vs gs, t.die d = { s.die d with vcs := vs, gens := gs }
  vcs : ∀ u, u ≠ v → t.vc d u = s.vc d u
  rg : ∀ n o, (∀ q ∈ vcoreRegs v, rkey n o ≠ rkey d q) → t.rg n o = s.rg n o

section
variable {s t u : State} {d v : Nat}

theorem State.VcoreOnly.refl (s : State) (d v : Nat) : s.VcoreOnly s d v := ⟨.refl s, fun _ _ => rfl, ⟨_, _, rfl⟩, fun _ _ => rfl, fun _ _ _ => rfl⟩
theorem State.VcoreOnly.trans (h : s.VcoreOnly t d v) (k : t.VcoreOnly u d v) : s.VcoreOnly u d v := by
  obtain ⟨vs, gs, hd⟩ := h.die
  obtain ⟨vs', gs', kd⟩ := k.die
  exact ⟨h.outside.trans k.outside, fun e he => (k.dies e he).trans (h.dies e he), ⟨vs', gs', by rw [kd, hd]⟩,
    fun w hw => (k.vcs w hw).trans (h.vcs w hw), fun n o hq => (k.rg n o hq).trans (h.rg n o hq)⟩

namespace State.VcoreOnly

theorem place (h : s.VcoreOnly t d v) (p : Nat) : t.place d p = s.place d p := by
  obtain ⟨vs, gs, hd⟩ := h.die
  rw [State.place, hd]
  rfl
theorem spad (h : s.VcoreOnly t d v) : (t.die d).spad = (s.die d).spad := by
  obtain ⟨vs, gs, hd⟩ := h.die
  rw [hd]
theorem cyc (h : s.VcoreOnly t d v) : (t.die d).cyc = (s.die d).cyc := by
  obtain ⟨vs, gs, hd⟩ := h.die
  rw [hd]

theorem setVc (s : State) (d v : Nat) (y : Vcore) : s.VcoreOnly (s.setVc d v y) d v := by
  refine ⟨.setDie (.refl s) .., fun e he => ?_, ⟨sput (s.die d).vcs v y, (s.die d).gens, ?_⟩, fun w hw => ?_, fun _ _ _ => rfl⟩
  · rw [State.setVc, State.die_modDie, if_neg he]
  · rw [State.setVc, State.die_modDie, if_pos rfl]
  · rw [State.vc_setVc, if_neg (fun h => hw h.2)]
/-- Registers and the PCD alone. -/
theorem of_regs {r : SMap Nat} {q : Pcd} (h : t = { s with regs := r, pcd := q })
    (rg : ∀ n o, (∀ q ∈ vcoreRegs v, rkey n o ≠ rkey d q) → t.rg n o = s.rg n o) : s.VcoreOnly t d v := by
  subst h
  exact ⟨⟨rfl, rfl, rfl, rfl, rfl, rfl, rfl, rfl, rfl, rfl⟩, fun _ _ => rfl, ⟨_, _, rfl⟩, fun _ _ => rfl, rg⟩
theorem bumpPerf (s : State) (d v n : Nat) {off : Nat} (h : off ∈ vcoreRegs v) : s.VcoreOnly (s.bumpPerf d off n) d v := by
  obtain ⟨r, hr⟩ := s.bumpPerf_frame d off n
  exact of_regs (q := s.pcd) hr fun _ _ hq => s.rg_bumpPerf_ne n (hq _ h)
theorem arith (s : State) (d v : Nat) (x : Stat) : s.VcoreOnly (s.arith d x) d v := by
  obtain ⟨r, q, hr⟩ := s.arith_frame d x
  exact of_regs hr fun _ _ hq => s.rg_arith_ne x (hq _ (by simp [vcoreRegs])) (hq _ (by simp [vcoreRegs]))
theorem drawsFor (s : State) (d v c mode : Nat) (lanes : List Nat) : s.VcoreOnly (s.drawsFor d c mode lanes).1 d v := by
  unfold State.drawsFor
  split
  · obtain ⟨g, hg⟩ := (s.die d).draws_frame c lanes
    dsimp only
    rw [hg]
    refine ⟨.setDie (.refl s) .., fun e he => ?_, ⟨(s.die d).vcs, g, ?_⟩, fun w _ => ?_, fun _ _ _ => rfl⟩
    · rw [State.die_setDie, if_neg he]
    · rw [State.die_setDie, if_pos rfl]
    · rw [State.vc, State.die_setDie, if_pos rfl]
      rfl
  · exact .refl s d v

end State.VcoreOnly

end

end Sys2Proof.Machine
end

section
/-! The V-cores' integer and moving instructions (spec/06 R164-R168; O19). -/

namespace Sys2Proof.Machine

-- Issue (spec/06 R165, R172) ------------------------------------------------------------------------------------------------------------

theorem sput_sput {α : Type} (m : SMap α) (k : Nat) (v w : α) : sput (sput m k v) k w = sput m k w := by
  induction m with
  | nil => simp [sput]
  | cons e m ih =>
    simp only [sput]
    split
    · simp [sput]
    · split <;> simp [sput, *]
/-- Two writes of one V-core: the last stands. -/
theorem State.setVc_setVc (s : State) (d v : Nat) (x y : Vcore) : (s.setVc d v x).setVc d v y = s.setVc d v y := by
  simp only [State.setVc, State.modDie, State.setDie, State.die, sget_sput, if_true, sput_sput]

/-- The core's registers and stored errors, where no flipped bit is stored: a result that lands leaves none. -/
theorem Vcore.land_frame (y : Vcore) (p : VPend) (h : y.regErr = []) : ∃ rs ms, y.land p = { y with regs := rs, masks := ms } := by
  unfold Vcore.land
  split
  · exact ⟨_, y.masks, by rw [h, List.filter_nil, ← h]⟩
  · split
    · exact ⟨y.regs, y.masks, rfl⟩
    · exact ⟨y.regs, _, rfl⟩
/-- Results that land change registers and mask registers, and are no longer on their way (spec/06 R165). -/
theorem Vcore.settle_frame (y : Vcore) (t : Nat) (h : y.regErr = []) :
    ∃ rs ms ps, y.settle t = { y with regs := rs, masks := ms, pend := ps } := by
  have landed : ∀ l : List VPend, ∃ rs ms, l.foldl Vcore.land y = { y with regs := rs, masks := ms } := fun l => by
    refine List.foldlRecOn (motive := fun z : Vcore => ∃ rs ms, z = { y with regs := rs, masks := ms }) l _ ⟨y.regs, y.masks, rfl⟩ ?_
    rintro _ ⟨rs, ms, rfl⟩ p -
    obtain ⟨rs', ms', hp⟩ := Vcore.land_frame { y with regs := rs, masks := ms } p h
    exact ⟨rs', ms', hp⟩
  obtain ⟨rs, ms, hz⟩ := landed (y.pend.filter (fun p => decide (p.due ≤ t)))
  exact ⟨rs, ms, y.pend.filter (fun p => decide (t < p.due)), by rw [Vcore.settle, hz]⟩

/-- The state in which an accepted instruction takes effect: the results due have landed. -/
def State.vReady (s : State) (d v : Nat) : State := s.setVc d v ((s.vc d v).settle (s.die d).cyc)

theorem State.vc_vReady (s : State) (d v : Nat) : (s.vReady d v).vc d v = (s.vc d v).settle (s.die d).cyc := by simp [State.vReady]
theorem State.vReady_only (s : State) (d v : Nat) : s.VcoreOnly (s.vReady d v) d v := .setVc s d v _
theorem State.cyc_vReady (s : State) (d v : Nat) : ((s.vReady d v).die d).cyc = (s.die d).cyc := (s.vReady_only d v).cyc

/-- An accepted instruction takes effect in that state, and is counted. -/
theorem State.vIssue_of_accepted {s : State} {d v op : Nat} {i : VIns} (issue : s.canIssue d (16 + v) = true) (clean : (s.vc d v).regErr = [])
    (cause : s.vCause d v op i = none) (whole : Bool) :
    s.vIssue d v op i whole = ((s.vReady d v).vEffect d v op i whole).bumpPerf d (CD_VC_INSTR v) 1 := by
  have checked : (s.vReady d v).vCheck d v (i.srcs op) = (s.vReady d v, none) := by
    obtain ⟨rs, ms, ps, hy⟩ := (s.vc d v).settle_frame (s.die d).cyc clean
    exact if_pos (by rw [s.vc_vReady, hy, clean])
  simp only [State.vIssue, issue, if_true, cause]
  rw [State.vReady] at checked
  simp only [checked]
  rfl

/-- The opcodes of R167. -/
def vInstrs : List (Nat × (Nat → Nat → VIns → Instr)) :=
  [(0, .vnop), (1, .vld), (2, .vst), (3, .vrecv), (4, .vsend), (16, .vadd), (17, .vsub), (18, .vmul), (19, .vfma), (20, .vfnma), (21, .vmin),
    (22, .vmax), (23, .vdiv), (24, .vsqrt), (25, .vcvt), (26, .vcvti), (27, .vldi), (32, .vcmp), (33, .vsel), (40, .viadd), (41, .visub),
    (42, .vand), (43, .vor), (44, .vxor), (45, .vshl), (46, .vshr), (48, .vredsum), (49, .vredmax), (50, .vbcast)]

theorem exec_of_mem_vInstrs {s : State} {d v : Nat} (hd : d < 576) (hv : v < 8) (i : VIns) {e : Nat × (Nat → Nat → VIns → Instr)}
    (known : e ∈ vInstrs) : exec (e.2 d v i) s = .next (s.vIssue d v e.1 i true) := by
  have listed : (decide (d < 576) && decide (v < 8)) = true := by simp [hd, hv]
  fin_cases known <;> exact if_pos listed

/-- An accepted instruction completes, with its effect and its count. -/
theorem completes_of_accepted {s : State} {d v : Nat} {i : VIns} {P : State → Prop} (hd : d < 576) (hv : v < 8)
    (issue : s.canIssue d (16 + v) = true) (clean : (s.vc d v).regErr = []) (op : Nat) {ins : Nat → Nat → VIns → Instr}
    (known : (op, ins) ∈ vInstrs) (cause : s.vCause d v op i = none)
    (h : P (((s.vReady d v).vEffect d v op i true).bumpPerf d (CD_VC_INSTR v) 1)) : Completes (ins d v i) s P := by
  refine ⟨_, (exec_of_mem_vInstrs hd hv i known).trans ?_, h⟩
  rw [State.vIssue_of_accepted issue clean cause]

-- Elements of registers -------------------------------------------------------------------------------------------------------------------

theorem VIns.width_mul_count (i : VIns) : i.width * i.count = 2048 := by
  unfold VIns.width VIns.count
  split <;> rfl
theorem VIns.laneElem_lt_count (i : VIns) {l : Nat} (hl : l < 64) : laneElem i.width l < i.count := by
  unfold laneElem VIns.width VIns.count
  split <;> simp <;> omega

/-- What a result that sets no status leaves: its register's lanes on their way, and two counters. -/
theorem State.vResult_posts {s : State} {d v lat m reg w n : Nat} (f : Nat → Nat) (fr : Nat) (lanes : ∀ l, l < 64 → laneElem w l < n)
    (fit : w * n ≤ 2048) {P : VPend → Prop} (hP : ∀ p, (∀ k, k < n → pendElem p w k = f k % 2 ^ w) → P p) :
    let y := (s.vc d v).settle (s.die d).cyc
    let r : VRes := { w := w, els := (List.range n).map (fun k => (f k, Stat.none)) }
    let t := (({ s.vReady d v with free := fr } : State).vResult d v lat m (.reg reg) r).bumpPerf d (CD_VC_INSTR v) 1
    ∃ p, p.dest = .reg reg ∧ p.due = (s.die d).cyc + lat ∧ P p ∧ (∀ l, l < 64 → p.en.getLsbD l = m.testBit (if w = 64 then l / 2 else l)) ∧
      t.vc d v = { y with pend := insPend p y.pend } ∧
      (∀ n o, rkey n o ≠ rkey d (CD_VC_INSTR v) → rkey n o ≠ rkey d (CD_VC_LANEOPS v) → t.rg n o = s.rg n o) ∧
      t.dies = (s.setVc d v (t.vc d v)).dies ∧ t.pcd = s.pcd ∧ SameOutside s t := by
  intro y r t
  have plain : r.status m = Stat.none := VRes.status_eq_none (fun e he => by
    obtain ⟨k, -, rfl⟩ := List.mem_map.1 he
    rfl) m
  let p := r.sent (.reg reg) m ((s.die d).cyc + lat)
  let u : State := { s.setVc d v { y with pend := insPend p y.pend } with free := fr }
  have counted : t = (u.bumpPerf d (CD_VC_LANEOPS v) (r.live m).length).bumpPerf d (CD_VC_INSTR v) 1 := by
    have put : ({ s.vReady d v with free := fr } : State).setVc d v { y with pend := insPend p y.pend } = u :=
      congrArg (fun x : State => { x with free := fr }) (s.setVc_setVc ..)
    have vc : ({ s.vReady d v with free := fr } : State).vc d v = y := s.vc_vReady d v
    have cyc : (({ s.vReady d v with free := fr } : State).die d).cyc = (s.die d).cyc := s.cyc_vReady d v
    simp only [t]
    rw [State.vResult_eq, vc, cyc, put, plain, State.arith_none]
  obtain ⟨g, hg⟩ := u.bumpPerf_frame d (CD_VC_LANEOPS v) (r.live m).length
  obtain ⟨g', hg'⟩ := ({ u with regs := g } : State).bumpPerf_frame d (CD_VC_INSTR v) 1
  have regs : t = { u with regs := g' } := by rw [counted, hg, hg']
  have vc : t.vc d v = { y with pend := insPend p y.pend } := by
    rw [regs]
    exact (State.vc_setVc s d v d v _).trans (if_pos ⟨rfl, rfl⟩)
  refine ⟨p, rfl, rfl, hP p fun k hk => VRes.pendElem_sent f (by simp [r]) _ _ _ hk fit, fun l hl => ?_, vc, fun n o hi hl => ?_, ?_, ?_, ?_⟩
  · exact VRes.en_sent reg m _ (by simp [r]) hl (lanes l hl)
  · rw [counted, State.rg_bumpPerf_ne _ _ hi, State.rg_bumpPerf_ne _ _ hl]
    rfl
  · rw [vc, regs]
  · rw [regs]
    rfl
  · rw [regs]
    exact ⟨rfl, rfl, rfl, rfl, rfl, rfl, rfl, rfl, rfl, rfl⟩

-- What each sends (spec/06 R167) --------------------------------------------------------------------------------------------------------------

theorem length_regElems (r : BitVec 2048) (w n : Nat) : (regElems r w n).length = n := by simp [regElems]

theorem State.vInts_eq (s : State) (d v op m : Nat) (i : VIns) :
    s.vInts d v op m i = s.vResult d v 2 m (.reg i.vd.toNat) { w := 32, els := (List.range 64).map (fun k =>
      (vInt op (((s.vc d v).reg i.va.toNat).toNat >>> (32 * k) % 2 ^ 32) (((s.vc d v).reg i.vb.toNat).toNat >>> (32 * k) % 2 ^ 32), Stat.none)) } := by
  unfold State.vInts regElems
  dsimp only
  rw [List.zip_map', List.map_map]
  rfl
theorem State.vLdi_eq (s : State) (d v m : Nat) (i : VIns) :
    s.vLdi d v m i = s.vResult d v 1 m (.reg i.vd.toNat) { w := 32, els := (List.range 64).map (fun _ => (i.imm.toNat * 2 ^ 15, Stat.none)) } := by
  rw [List.map_const', List.length_range]
  rfl
theorem State.vSel_eq (s : State) (d v m : Nat) (i : VIns) :
    s.vSel d v m i = s.vResult d v 2 (2 ^ 64 - 1) (.reg i.vd.toNat) { w := i.width, els := (List.range i.count).map (fun k =>
      (if m.testBit k then ((s.vc d v).reg i.va.toNat).toNat >>> (i.width * k) % 2 ^ i.width
        else ((s.vc d v).reg i.vb.toNat).toNat >>> (i.width * k) % 2 ^ i.width, Stat.none)) } := by
  unfold State.vSel regElems
  dsimp only
  rw [List.zip_map']
  exact congrArg (fun l => s.vResult d v 2 (2 ^ 64 - 1) (.reg i.vd.toNat) { w := i.width, els := l })
    (map_zipIdx_map_range _ (fun (p : Nat × Nat) k => (if m.testBit k then p.1 else p.2, Stat.none)) i.count)
theorem State.vBcast_of_lt (s : State) (d v m : Nat) {i : VIns} (h : i.imm.toNat % 64 < i.count) :
    s.vBcast d v m i = s.vResult d v 2 m (.reg i.vd.toNat) { w := i.width, els := (List.range i.count).map (fun _ =>
      (((s.vc d v).reg i.va.toNat).toNat >>> (i.width * (i.imm.toNat % 64)) % 2 ^ i.width, Stat.none)) } := by
  have named : ∀ r, (regElems r i.width i.count)[i.imm.toNat % 64]? = some (r.toNat >>> (i.width * (i.imm.toNat % 64)) % 2 ^ i.width) := fun r => by
    simp [regElems, h]
  unfold State.vBcast
  simp only [named, List.map_const', List.length_range]
theorem State.vBcast_of_le (s : State) (d v m : Nat) {i : VIns} (h : i.count ≤ i.imm.toNat % 64) :
    s.vBcast d v m i = s.takeFree.vResult d v 2 m (.reg i.vd.toNat)
      { w := i.width, els := (List.range i.count).map (fun _ => (s.freeVal % 2 ^ 64, Stat.none)) } := by
  have unnamed : ∀ r, (regElems r i.width i.count)[i.imm.toNat % 64]? = none := fun r =>
    List.getElem?_eq_none (by rw [length_regElems]; exact h)
  unfold State.vBcast
  simp only [unnamed, List.map_const', List.length_range]

section
variable (s : State) (d v : Nat) (i : VIns)

theorem State.vEffect_int {op : Nat} (h : 40 ≤ op ∧ op ≤ 46) :
    s.vEffect d v op i true = s.vInts d v op ((s.vc d v).mask i.mask.toNat) i := by
  obtain ⟨h1, h2⟩ := h
  unfold State.vEffect
  simp only [show op ≠ 0 by omega, show op ≠ 1 by omega, show op ≠ 2 by omega, show op ≠ 3 by omega, show op ≠ 4 by omega,
    show ¬op ≤ 24 by omega, show op ≠ 25 by omega, show op ≠ 26 by omega, show op ≠ 27 by omega, show op ≠ 32 by omega, show op ≠ 33 by omega, h2,
    if_false, if_true]
theorem State.vEffect_vldi : s.vEffect d v 27 i true = s.vLdi d v ((s.vc d v).mask i.mask.toNat) i := rfl
theorem State.vEffect_vsel : s.vEffect d v 33 i true = s.vSel d v ((s.vc d v).mask i.mask.toNat) i := rfl
theorem State.vEffect_vbcast : s.vEffect d v 50 i true = s.vBcast d v ((s.vc d v).mask i.mask.toNat) i := rfl

end

theorem toTwos_lt (w : Nat) (x : Int) : toTwos w x < 2 ^ w := by
  have := Int.emod_lt_of_pos x (show (0 : Int) < ((2 ^ w : Nat) : Int) by exact_mod_cast Nat.two_pow_pos w)
  unfold toTwos
  omega
/-- An integer operation gives a lane of 32 bits. -/
theorem vInt_lt {op a b : Nat} (ha : a < 2 ^ 32) (hb : b < 2 ^ 32) : vInt op a b < 2 ^ 32 := by
  unfold vInt
  split
  · exact Nat.mod_lt _ (Nat.two_pow_pos 32)
  · exact toTwos_lt 32 _
  · exact Nat.and_lt_two_pow _ hb
  · exact Nat.or_lt_two_pow ha hb
  · exact Nat.xor_lt_two_pow ha hb
  · exact Nat.mod_lt _ (Nat.two_pow_pos 32)
  · exact toTwos_lt 32 _

/-- Settles O19: the elements of each result by their number, sent by the rule of results that set no status. -/
theorem vectorIntegersAndMoves : Obligations.VectorIntegersAndMoves := by
  intro s d v i hd hv issue clean y m posts el all
  have vc : (s.vReady d v).vc d v = y := s.vc_vReady d v
  have lane32 : ∀ l, l < 64 → laneElem 32 l < 64 := fun l hl => by simpa [laneElem] using hl
  have lanes : ∀ l, l < 64 → laneElem i.width l < i.count := fun l => VIns.laneElem_lt_count i
  have fit := (VIns.width_mul_count i).le
  have cut : ∀ r w k, el r w k < 2 ^ w := fun r w k => Nat.mod_lt _ (Nat.two_pow_pos w)
  refine ⟨fun e he cause => ?ints, fun cause => ?vldi, fun cause => ?vsel, fun cause => ?vbcast⟩
  case ints =>
    obtain ⟨known, int, value⟩ : (e.1, e.2.1) ∈ vInstrs ∧ (40 ≤ e.1 ∧ e.1 ≤ 46) ∧ ∀ a b, e.2.2 a b = vInt e.1 a b := by
      fin_cases he <;> exact ⟨by simp [vInstrs], by decide, fun a b => by simp [vInt, Nat.shiftLeft_eq]⟩
    refine completes_of_accepted hd hv issue clean e.1 known cause ?_
    rw [State.vEffect_int _ _ _ _ int, State.vInts_eq, vc]
    refine State.vResult_posts _ s.free lane32 (by norm_num) fun p elems k hk => ?_
    rw [elems k hk, value]
    exact Nat.mod_eq_of_lt (vInt_lt (cut ..) (cut ..))
  case vldi =>
    refine completes_of_accepted hd hv issue clean 27 (by simp [vInstrs]) cause ?_
    rw [State.vEffect_vldi, State.vLdi_eq, vc]
    refine State.vResult_posts _ s.free lane32 (by norm_num) fun p elems k hk => ?_
    rw [elems k hk]
    exact Nat.mod_eq_of_lt (by have := i.imm.isLt; omega)
  case vsel =>
    refine completes_of_accepted hd hv issue clean 33 (by simp [vInstrs]) cause ?_
    rw [State.vEffect_vsel, State.vSel_eq, vc]
    refine State.vResult_posts _ s.free lanes fit fun p elems k hk => ?_
    rw [elems k hk]
    refine Nat.mod_eq_of_lt ?_
    split <;> exact cut ..
  case vbcast =>
    refine completes_of_accepted hd hv issue clean 50 (by simp [vInstrs]) cause ?_
    rw [State.vEffect_vbcast, vc]
    rcases Nat.lt_or_ge (i.imm.toNat % 64) i.count with named | unnamed
    · rw [State.vBcast_of_lt _ _ _ _ named, vc]
      refine State.vResult_posts _ s.free lanes fit fun p elems _ k hk => ?_
      rw [elems k hk]
      exact Nat.mod_eq_of_lt (cut ..)
    · rw [State.vBcast_of_le _ _ _ _ unnamed]
      exact State.vResult_posts _ (s.free + 1) lanes fit fun p _ within => absurd within (Nat.not_lt.2 unnamed)

end Sys2Proof.Machine
end

section
/-! The V-cores' arithmetic, conversions, comparisons and reductions (spec/06 R164-R169, spec/02 R60; O20). -/

namespace Sys2Proof.Machine

-- What an instruction changes before its result goes out --------------------------------------------------------------------------------

/-- The core stands as when its instruction took effect, in registers, mask registers and results on their way; beyond the core only the
die's generators, the core's counters and the die's arithmetic status have changed. -/
structure State.VDrawn (s u : State) (d v : Nat) : Prop where
  only : s.VcoreOnly u d v
  pend : (u.vc d v).pend = ((s.vc d v).settle (s.die d).cyc).pend
  regs : (u.vc d v).regs = ((s.vc d v).settle (s.die d).cyc).regs
  masks : (u.vc d v).masks = ((s.vc d v).settle (s.die d).cyc).masks

section
variable {s t u : State} {d v : Nat}

theorem State.VcoreOnly.quiet (h : s.VcoreOnly t d v) :
    (∀ n o, (∀ q ∈ vcoreRegs v, rkey n o ≠ rkey d q) → t.rg n o = s.rg n o) ∧ (∀ p, t.place d p = s.place d p) ∧
      (∀ u, u ≠ v → t.vc d u = s.vc d u) ∧ (t.die d).spad = (s.die d).spad ∧ (∀ e, e ≠ d → t.die e = s.die e) ∧ SameOutside s t :=
  ⟨h.rg, h.place, h.vcs, h.spad, h.dies, h.outside⟩

theorem State.vc_arith (s : State) (d e k : Nat) (x : Stat) : (s.arith d x).vc e k = s.vc e k := by rw [State.vc, State.die_arith]; rfl
theorem State.vc_bumpPerf (s : State) (d off n e k : Nat) : (s.bumpPerf d off n).vc e k = s.vc e k := by rw [State.vc, State.die_bumpPerf]; rfl
theorem State.vc_drawsFor (s : State) (d c mode : Nat) (lanes : List Nat) (k : Nat) : (s.drawsFor d c mode lanes).1.vc d k = s.vc d k := by
  unfold State.drawsFor
  split
  · obtain ⟨g, hg⟩ := (s.die d).draws_frame c lanes
    rw [State.vc, State.die_setDie, if_pos rfl, hg]
    rfl
  · rfl

/-- Without stochastic rounding the draws are zeros (spec/02 R64). -/
theorem State.drawsFor_of_ne {mode : Nat} (h : mode ≠ 2) (s : State) (d c : Nat) (lanes : List Nat) :
    (s.drawsFor d c mode lanes).2 = (List.range lanes.length).map (fun _ => 0) := by
  rw [List.map_const', List.length_range, State.drawsFor, if_neg h, List.map_const']

/-- A result that goes out joins those on their way: nothing else of the core changes. -/
theorem State.vc_vResult_count (u : State) (d v lat m : Nat) (dest : VDest) (r : VRes) :
    ((u.vResult d v lat m dest r).bumpPerf d (CD_VC_INSTR v) 1).vc d v =
      { u.vc d v with pend := insPend (r.sent dest m ((u.die d).cyc + lat)) (u.vc d v).pend } := by
  rw [State.vResult_eq, State.vc_bumpPerf, State.vc_bumpPerf, State.vc_arith, State.vc_setVc, if_pos ⟨rfl, rfl⟩]
theorem State.VcoreOnly.vResult_count (u : State) (d v lat m : Nat) (dest : VDest) (r : VRes) :
    u.VcoreOnly ((u.vResult d v lat m dest r).bumpPerf d (CD_VC_INSTR v) 1) d v := by
  rw [State.vResult_eq]
  exact ((State.VcoreOnly.setVc u d v _).trans (.arith _ d v _)).trans
    ((State.VcoreOnly.bumpPerf _ d v _ (by simp [vcoreRegs])).trans (.bumpPerf _ d v 1 (by simp [vcoreRegs])))

namespace State.VDrawn

theorem vReady (s : State) (d v : Nat) : s.VDrawn (s.vReady d v) d v := by
  refine ⟨s.vReady_only d v, ?_, ?_, ?_⟩ <;> rw [State.vc_vReady]
theorem of_vc (h : s.VDrawn t d v) (only : t.VcoreOnly u d v) (vc : u.vc d v = t.vc d v) : s.VDrawn u d v :=
  ⟨h.only.trans only, by rw [vc, h.pend], by rw [vc, h.regs], by rw [vc, h.masks]⟩
theorem drawsFor (h : s.VDrawn t d v) (c mode : Nat) (lanes : List Nat) : s.VDrawn (t.drawsFor d c mode lanes).1 d v :=
  h.of_vc (.drawsFor t d v c mode lanes) (t.vc_drawsFor d c mode lanes v)
theorem arith (h : s.VDrawn t d v) (x : Stat) : s.VDrawn (t.arith d x) d v := h.of_vc (.arith t d v x) (t.vc_arith d d v x)
theorem count (h : s.VDrawn t d v) : s.VDrawn (t.bumpPerf d (CD_VC_INSTR v) 1) d v :=
  h.of_vc (.bumpPerf t d v 1 (by simp [vcoreRegs])) (t.vc_bumpPerf d _ 1 d v)
theorem busy (h : s.VDrawn t d v) (n : Nat) : s.VDrawn (t.setVc d v { t.vc d v with divUntil := n }) d v := by
  refine ⟨h.only.trans (.setVc t d v _), ?_, ?_, ?_⟩ <;> rw [State.vc_setVc, if_pos ⟨rfl, rfl⟩]
  · exact h.pend
  · exact h.regs
  · exact h.masks
theorem reg (h : s.VDrawn t d v) (r : Nat) : (t.vc d v).reg r = ((s.vc d v).settle (s.die d).cyc).reg r := by rw [Vcore.reg, h.regs]; rfl

theorem posts (h : s.VDrawn u d v) (lat m : Nat) (dest : VDest) (r : VRes) {P : VPend → Prop}
    (hP : P (r.sent dest m ((s.die d).cyc + lat))) :
    let y := (s.vc d v).settle (s.die d).cyc
    let t := (u.vResult d v lat m dest r).bumpPerf d (CD_VC_INSTR v) 1
    ∃ p, p.dest = dest ∧ p.due = (s.die d).cyc + lat ∧ P p ∧ (t.vc d v).pend = insPend p y.pend ∧ (t.vc d v).regs = y.regs ∧
      (t.vc d v).masks = y.masks ∧ (∀ n o, (∀ q ∈ vcoreRegs v, rkey n o ≠ rkey d q) → t.rg n o = s.rg n o) ∧
      (∀ p, t.place d p = s.place d p) ∧ (∀ u, u ≠ v → t.vc d u = s.vc d u) ∧ (t.die d).spad = (s.die d).spad ∧
      (∀ e, e ≠ d → t.die e = s.die e) ∧ SameOutside s t := by
  intro y t
  have vc : t.vc d v = { u.vc d v with pend := insPend (r.sent dest m ((s.die d).cyc + lat)) (u.vc d v).pend } := by
    rw [State.vc_vResult_count, h.only.cyc]
  exact ⟨_, rfl, rfl, hP, by rw [vc, h.pend], by rw [vc]; exact h.regs, by rw [vc]; exact h.masks,
    (h.only.trans (.vResult_count u d v lat m dest r)).quiet⟩

end State.VDrawn

end

-- Elements (spec/06 R164, R167) --------------------------------------------------------------------------------------------------------------

/-- The value of an element of a register. -/
def VIns.elem (i : VIns) (y : Vcore) (r : BitVec 7) (k : Nat) : Val :=
  decodeF i.ffmt ((y.reg r.toNat).toNat >>> (i.width * k) % 2 ^ i.width)

theorem VIns.vals_eq (i : VIns) (y : Vcore) (r : BitVec 7) : i.vals (y.reg r.toNat) = (List.range i.count).map (VIns.elem i y r) := by
  rw [VIns.vals, regElems, List.map_map]
  rfl
theorem VIns.count_pos (i : VIns) : 0 < i.count := by
  unfold VIns.count
  split <;> decide
theorem VIns.count_le (i : VIns) : i.count ≤ 64 := by
  unfold VIns.count
  split <;> decide
theorem VIns.length_lanes (i : VIns) : i.lanes.length = i.count := by
  unfold VIns.lanes VIns.count
  split
  · rw [List.length_map, List.length_range]
  · rw [List.length_range]

/-- An operation that takes fewer operands does not read the others. -/
theorem vFloat_operands {op : Nat} (h : 16 ≤ op ∧ op ≤ 24) (i : VIns) (a b c : Val) :
    vFloat op a (if (i.srcs op).length < 2 then a else b) (if (i.srcs op).length < 3 then a else c) = vFloat op a b c := by
  obtain ⟨h1, h2⟩ := h
  interval_cases op <;> rfl

/-- R168: a lane of VADD to VSQRT takes its exact result rounded once; the status of the rounding aside, that is what is sent. -/
theorem State.vArith_sends (s : State) (d v m : Nat) (i : VIns) {op : Nat} (arith : 16 ≤ op ∧ op ≤ 24) :
    let mode := if op = 21 ∨ op = 22 then 0 else i.rmode.toNat
    let el := VIns.elem i (s.vc d v)
    ∃ els : List (Nat × Stat), s.vArith d v op m i = (s.drawsFor d (16 + v) mode i.lanes).1.vResult d v (vLat op 0) m (.reg i.vd.toNat)
        { w := i.width, els := els } ∧
      (mode ≠ 2 → els.map (·.1) = (List.range i.count).map (fun k =>
        (convF i.ffmt mode i.sat 0 (vFloat op (el i.va k) (el i.vb k) (el i.vc k)).1).1)) := by
  intro mode el
  refine ⟨_, rfl, fun quiet => ?_⟩
  have operand : ∀ (p : Prop) [Decidable p] (f g : Nat → Val), (if p then (List.range i.count).map f else (List.range i.count).map g) =
      (List.range i.count).map (fun k => if p then f k else g k) := fun p _ f g => by split <;> rfl
  have draws : (s.drawsFor d (16 + v) (if op = 21 ∨ op = 22 then 0 else i.rmode.toNat) i.lanes).2 = (List.range i.count).map (fun _ => 0) := by
    rw [State.drawsFor_of_ne quiet, VIns.length_lanes]
  simp only [VIns.vals_eq, operand, draws, List.zip_map', List.map_map]
  refine List.map_congr_left fun k _ => ?_
  simp only [Function.comp]
  rw [vFloat_operands arith]

/-- R167: VCVT to binary64, exact. -/
theorem State.vCvt_widens (s : State) (d v m : Nat) {i : VIns} (up : i.imm.getLsbD 0 = true) :
    ∃ els : List (Nat × Stat), s.vCvt d v m i = s.vResult d v 4 m (.reg i.vd.toNat) { w := 64, els := els } ∧
      els.map (·.1) = (List.range 32).map (fun k => (convF b64 0 false 0 (decodeF b32
        (((s.vc d v).reg i.va.toNat).toNat >>> (32 * k) % 2 ^ 32))).1) := by
  refine ⟨_, if_pos up, ?_⟩
  rw [regElems, List.map_map, List.map_map]
  rfl
/-- R167: VCVT to binary32, one rounding; the upper half of the register takes zeros. -/
theorem State.vCvt_narrows (s : State) (d v m : Nat) {i : VIns} (down : i.imm.getLsbD 0 = false) :
    ∃ els : List (Nat × Stat), s.vCvt d v m i = (s.drawsFor d (16 + v) i.rmode.toNat (List.range 32)).1.vResult d v 4 m (.reg i.vd.toNat)
        { w := 32, els := els } ∧
      (i.rmode.toNat ≠ 2 → els.map (·.1) = (List.range 64).map (fun k => if k < 32 then
        (convF b32 i.rmode.toNat i.sat 0 (decodeF b64 (((s.vc d v).reg i.va.toNat).toNat >>> (64 * k) % 2 ^ 64))).1 else 0)) := by
  refine ⟨_, if_neg (by rw [down]; exact nofun), fun quiet => ?_⟩
  rw [State.drawsFor_of_ne quiet, regElems, List.length_range, List.zip_map', List.map_map, List.map_append, List.map_map,
    show 64 = 32 + 32 from rfl, List.range_add (n := 32), List.map_append, List.map_map]
  refine congrArg₂ (· ++ ·) (List.map_congr_left fun k hk => ?_) ?_
  · rw [if_pos (List.mem_range.1 hk)]
    rfl
  · rfl
/-- R167: VCVTI, one rounding to or from an integer. -/
theorem State.vCvti_sends (s : State) (d v m : Nat) (i : VIns) :
    ∃ els : List (Nat × Stat), s.vCvti d v m i = (s.drawsFor d (16 + v) i.rmode.toNat (List.range 64)).1.vResult d v 4 m (.reg i.vd.toNat)
        { w := 32, els := els } ∧
      (i.rmode.toNat ≠ 2 → els.map (·.1) = (List.range 64).map (fun k =>
        let c := ((s.vc d v).reg i.va.toNat).toNat >>> (32 * k) % 2 ^ 32
        if i.imm.getLsbD 0 then (convN (.int 32) i.rmode.toNat i.sat 0 (decodeF b32 c)).1
        else (convF b32 i.rmode.toNat i.sat 0 (valOfInt (signedOf 32 c))).1)) := by
  refine ⟨_, rfl, fun quiet => ?_⟩
  rw [State.drawsFor_of_ne quiet, regElems, List.length_range, List.zip_map', List.map_map, List.map_map]
  refine List.map_congr_left fun k _ => ?_
  simp only [Function.comp]
  split <;> rfl

/-- The bits of a comparison (spec/06 R167, R168). -/
def VIns.compared (i : VIns) (y : Vcore) (k : Nat) : Bool := vCond (i.imm.toNat % 8) (VIns.elem i y i.va k) (VIns.elem i y i.vb k)

/-- The bits of a result of one-bit elements. -/
theorem VRes.getLsbD_sent {els : List (Nat × Stat)} {n k : Nat} (f : Nat → Bool) (values : els.map (·.1) = (List.range n).map (fun k => b2n (f k)))
    (dest : VDest) (m due : Nat) (hk : k < n) (fit : n ≤ 2048) : (({ w := 1, els := els } : VRes).sent dest m due).val.getLsbD k = f k := by
  have bit := VRes.pendElem_sent (r := { w := 1, els := els }) _ values dest m due hk (by rwa [Nat.one_mul])
  rw [pendElem, Nat.one_mul, pow_one, Nat.shiftRight_eq_div_pow] at bit
  rw [BitVec.getLsbD, Nat.testBit_eq_decide_div_mod_eq, bit]
  cases f k <;> rfl

theorem State.vCmp_mask (s : State) (d v : Nat) {i : VIns} (h : i.vd.toNat % 8 ≠ 0) :
    ∃ els : List (Nat × Stat), s.vCmp d v i = s.vResult d v 2 (2 ^ 64 - 1) (.mask (i.vd.toNat % 8)) { w := 1, els := els } ∧
      els.map (·.1) = (List.range i.count).map (fun k => b2n (VIns.compared i (s.vc d v) k)) := by
  have dest : i.dest 32 = some (.mask (i.vd.toNat % 8)) := by simp [VIns.dest, h]
  unfold State.vCmp
  simp only [dest]
  refine ⟨_, rfl, ?_⟩
  rw [VIns.vals_eq, VIns.vals_eq, List.zip_map', List.map_map, List.map_map]
  rfl
/-- R163: m0 takes no result; a comparison into it only sets its status. -/
theorem State.vCmp_m0 (s : State) (d v : Nat) {i : VIns} (h : i.vd.toNat % 8 = 0) : ∃ x, s.vCmp d v i = s.arith d x := by
  have dest : i.dest 32 = none := by simp [VIns.dest, h]
  unfold State.vCmp
  simp only [dest]
  exact ⟨_, rfl⟩

/-- R167: the levels of a sum step generators, and nothing else. -/
theorem State.VDrawn.vTree {s : State} {d v : Nat} (i : VIns) (n : Nat) {u : State} (h : s.VDrawn u d v) (st : Stat) (l : List (Val × Nat)) :
    s.VDrawn (u.vTree n d v i st l).1 d v := by
  induction n generalizing u st l with
  | zero => exact h
  | succ n ih => exact ih (h.drawsFor (16 + v) i.rmode.toNat ((combinePairs n l).map (·.2))) _ _
/-- Lane 0 of a reduction takes its result, the others +0. -/
theorem VIns.reducedLanes (i : VIns) (e : Nat) : e :: List.replicate (i.count - 1) 0 = (List.range i.count).map (fun k => if k = 0 then e else 0) := by
  obtain ⟨n, hn⟩ := Nat.exists_eq_add_one.2 (VIns.count_pos i)
  rw [hn, List.range_succ_eq_map, List.map_cons, List.map_map]
  simp [Function.comp_def]
theorem State.vRed_sum (s : State) (d v m : Nat) (i : VIns) :
    ∃ (n : Nat) (st : Stat) (l : List (Val × Nat)) (els : List (Nat × Stat)) (e : Nat),
      s.vRed d v 48 m i = (s.vTree n d v i st l).1.vResult d v 14 m (.reg i.vd.toNat) { w := i.width, els := els } ∧
      els.map (·.1) = (List.range i.count).map (fun k => if k = 0 then e else 0) :=
  ⟨_, _, _, _, _, rfl, by rw [List.map_cons, List.map_replicate, VIns.reducedLanes]⟩
theorem State.vRed_max (s : State) (d v m : Nat) (i : VIns) :
    ∃ els : List (Nat × Stat), s.vRed d v 49 m i = s.vResult d v 14 m (.reg i.vd.toNat) { w := i.width, els := els } ∧
      els.map (·.1) = (List.range i.count).map (fun k => if k = 0 then
        (convF i.ffmt 0 false 0 (((List.range i.count).map (VIns.elem i (s.vc d v) i.va)).foldl maxV (.inf true))).1 else 0) :=
  ⟨_, rfl, by rw [List.map_cons, List.map_replicate, VIns.reducedLanes, VIns.vals_eq]; rfl⟩

-- Effects (spec/06 R167, R169) ---------------------------------------------------------------------------------------------------------------

section
variable (s : State) (d v : Nat) (i : VIns)

theorem State.vEffect_arith {op : Nat} (h : 16 ≤ op ∧ op ≤ 24) :
    s.vEffect d v op i true = (if op = 23 ∨ op = 24 then
      s.setVc d v { s.vc d v with divUntil := (s.die d).cyc + (if i.f64 then 16 else 8) } else s).vArith d v op ((s.vc d v).mask i.mask.toNat) i := by
  obtain ⟨h1, h2⟩ := h
  unfold State.vEffect
  simp only [show op ≠ 0 by omega, show op ≠ 1 by omega, show op ≠ 2 by omega, show op ≠ 3 by omega, show op ≠ 4 by omega, h2, if_false, if_true]
theorem State.vEffect_vcvt : s.vEffect d v 25 i true = s.vCvt d v ((s.vc d v).mask i.mask.toNat) i := rfl
theorem State.vEffect_vcvti : s.vEffect d v 26 i true = s.vCvti d v ((s.vc d v).mask i.mask.toNat) i := rfl
theorem State.vEffect_vcmp : s.vEffect d v 32 i true = s.vCmp d v i := rfl
theorem State.vEffect_vredsum : s.vEffect d v 48 i true = s.vRed d v 48 ((s.vc d v).mask i.mask.toNat) i := rfl
theorem State.vEffect_vredmax : s.vEffect d v 49 i true = s.vRed d v 49 ((s.vc d v).mask i.mask.toNat) i := rfl

/-- R169: a division or square root keeps its unit busy; no register changes with that. -/
theorem State.vArith_starts {op : Nat} (h : 16 ≤ op ∧ op ≤ 24) :
    ∃ u, s.VDrawn u d v ∧ (s.vReady d v).vEffect d v op i true = u.vArith d v op (((s.vReady d v).vc d v).mask i.mask.toNat) i := by
  refine ⟨_, ?_, State.vEffect_arith _ _ _ _ h⟩
  split
  · exact (State.VDrawn.vReady s d v).busy _
  · exact .vReady s d v

end

/-- The values of a register's elements are those it had when the instruction took effect. -/
theorem State.VDrawn.elem {s u : State} {d v : Nat} (h : s.VDrawn u d v) (i : VIns) (r : BitVec 7) (k : Nat) :
    VIns.elem i (u.vc d v) r k = VIns.elem i ((s.vc d v).settle (s.die d).cyc) r k := by
  rw [VIns.elem, h.reg]
  rfl

/-- Settles O20: each instruction by the elements of the result that it sends. -/
theorem vectorArithmetic : Obligations.VectorArithmetic := by
  intro s d v i hd hv issue clean y quiet posts raw el
  have ready := State.VDrawn.vReady s d v
  have vc : (s.vReady d v).vc d v = y := s.vc_vReady d v
  have fit := (VIns.width_mul_count i).le
  have floats : ∀ op, 16 ≤ op ∧ op ≤ 24 → ∀ P : VPend → Prop, (∀ p, (let mode := if op = 21 ∨ op = 22 then 0 else i.rmode.toNat
      mode ≠ 2 → ∀ k, k < i.count → pendElem p i.width k =
        (convF i.ffmt mode i.sat 0 (vFloat op (el i.va k) (el i.vb k) (el i.vc k)).1).1 % 2 ^ i.width) → P p) →
      posts (vLat op 0) (.reg i.vd.toNat) P (((s.vReady d v).vEffect d v op i true).bumpPerf d (CD_VC_INSTR v) 1) := fun op arith P hP => by
    obtain ⟨u, drawn, effect⟩ := s.vArith_starts d v i arith
    obtain ⟨els, sends, values⟩ := u.vArith_sends d v (((s.vReady d v).vc d v).mask i.mask.toNat) i arith
    rw [effect, sends]
    refine (drawn.drawsFor _ _ _).posts _ _ _ _ (hP _ fun quiet k hk => ?_)
    rw [VRes.pendElem_sent _ (values quiet) _ _ _ hk fit, drawn.elem, drawn.elem, drawn.elem]
    rfl
  refine ⟨fun e he cause => ?floats, fun e he cause => ?minmax, fun cause => ?vcvt, fun cause => ?vcvti,
    fun cause => ⟨fun m0 => ?m0, fun mask => ?mask⟩, fun e he cause => ?reductions⟩
  case floats =>
    obtain ⟨known, arith, round, lat, value⟩ : (e.1, e.2.1) ∈ vInstrs ∧ (16 ≤ e.1 ∧ e.1 ≤ 24) ∧ ¬(e.1 = 21 ∨ e.1 = 22) ∧
        e.2.2.1 = vLat e.1 0 ∧ ∀ a b c, e.2.2.2 a b c = vFloat e.1 a b c := by
      fin_cases he <;> exact ⟨by simp [vInstrs], by decide, by decide, rfl, fun _ _ _ => rfl⟩
    rw [lat]
    refine completes_of_accepted hd hv issue clean e.1 known cause (floats e.1 arith _ fun p elems quiet k hk => ?_)
    rw [value]
    simpa only [if_neg round] using elems (by rwa [if_neg round]) k hk
  case minmax =>
    obtain ⟨known, arith, exact, lat, value⟩ : (e.1, e.2.1) ∈ vInstrs ∧ (16 ≤ e.1 ∧ e.1 ≤ 24) ∧ (e.1 = 21 ∨ e.1 = 22) ∧ vLat e.1 0 = 4 ∧
        ∀ a b c, e.2.2 a b = (vFloat e.1 a b c).1 := by
      fin_cases he <;> exact ⟨by simp [vInstrs], by decide, by decide, rfl, fun _ _ _ => rfl⟩
    rw [← lat]
    refine completes_of_accepted hd hv issue clean e.1 known cause (floats e.1 arith _ fun p elems k hk => ?_)
    rw [value _ _ (el i.vc k)]
    simpa only [if_pos exact] using elems (by rw [if_pos exact]; decide) k hk
  case vcvt =>
    refine completes_of_accepted hd hv issue clean 25 (by simp [vInstrs]) cause ?_
    rw [State.vEffect_vcvt, vc]
    cases up : i.imm.getLsbD 0 with
    | true =>
      obtain ⟨els, sends, values⟩ := (s.vReady d v).vCvt_widens d v (y.mask i.mask.toNat) up
      rw [sends]
      refine ready.posts _ _ _ _ ⟨fun _ k hk => ?_, nofun⟩
      rw [VRes.pendElem_sent _ values _ _ _ hk (by norm_num), vc]
    | false =>
      obtain ⟨els, sends, values⟩ := (s.vReady d v).vCvt_narrows d v (y.mask i.mask.toNat) up
      rw [sends]
      refine (ready.drawsFor _ _ _).posts _ _ _ _ ⟨nofun, fun _ quiet k hk => ?_⟩
      rw [VRes.pendElem_sent _ (values quiet) _ _ _ hk (by norm_num), vc, apply_ite (· % 2 ^ 32)]
      rfl
  case vcvti =>
    refine completes_of_accepted hd hv issue clean 26 (by simp [vInstrs]) cause ?_
    obtain ⟨els, sends, values⟩ := (s.vReady d v).vCvti_sends d v (y.mask i.mask.toNat) i
    rw [State.vEffect_vcvti, vc, sends]
    refine (ready.drawsFor _ _ _).posts _ _ _ _ fun quiet k hk => ?_
    rw [VRes.pendElem_sent _ (values quiet) _ _ _ hk (by norm_num), vc]
  case m0 =>
    refine completes_of_accepted hd hv issue clean 32 (by simp [vInstrs]) cause ?_
    obtain ⟨x, status⟩ := (s.vReady d v).vCmp_m0 d v m0
    rw [State.vEffect_vcmp, status]
    exact ⟨by rw [State.vc_bumpPerf, State.vc_arith, vc], (ready.arith x).count.only.quiet⟩
  case mask =>
    refine completes_of_accepted hd hv issue clean 32 (by simp [vInstrs]) cause ?_
    obtain ⟨els, sends, values⟩ := (s.vReady d v).vCmp_mask d v mask
    rw [State.vEffect_vcmp, sends]
    refine ready.posts _ _ _ _ fun k hk => ?_
    rw [VRes.getLsbD_sent _ values _ _ _ hk ((VIns.count_le i).trans (by norm_num)), vc]
    rfl
  case reductions =>
    simp only [List.mem_cons, List.not_mem_nil, or_false] at he
    rcases he with rfl | rfl
    · refine completes_of_accepted hd hv issue clean 48 (by simp [vInstrs]) cause ?_
      obtain ⟨n, st, l, els, e, sends, values⟩ := (s.vReady d v).vRed_sum d v (y.mask i.mask.toNat) i
      rw [State.vEffect_vredsum, vc, sends]
      refine (ready.vTree i n st l).posts _ _ _ _ ⟨fun k pos hk => ?_, nofun⟩
      rw [VRes.pendElem_sent _ values _ _ _ hk fit, if_neg pos.ne', Nat.zero_mod]
    · refine completes_of_accepted hd hv issue clean 49 (by simp [vInstrs]) cause ?_
      obtain ⟨els, sends, values⟩ := (s.vReady d v).vRed_max d v (y.mask i.mask.toNat) i
      rw [State.vEffect_vredmax, vc, sends]
      refine ready.posts _ _ _ _ ⟨fun k pos hk => ?_, fun _ => ?_⟩
      · rw [VRes.pendElem_sent _ values _ _ _ hk fit, if_neg pos.ne', Nat.zero_mod]
      · rw [VRes.pendElem_sent _ values _ _ _ (VIns.count_pos i) fit, if_pos rfl, vc]
        rfl

end Sys2Proof.Machine
end

section
/-! The V-cores' memory and lane instructions (spec/06 R165-R167, R170; O21). -/

namespace Sys2Proof.Machine

-- Address registers (spec/06 R163, R166) ------------------------------------------------------------------------------------------------

/-- INC steps one address register, by what that register holds. -/
theorem Vcore.base_inc (y : Vcore) (k j : Nat) :
    (y.inc k).base j = if j = k then toTwos 32 ((y.base k : Int) + 16 * signedOf 14 (sget 0#14 y.arStep k).toNat) else y.base j := by
  unfold Vcore.inc Vcore.base
  rw [sget_nput]
  split
  · rw [BitVec.toNat_ofNat, Nat.mod_eq_of_lt (toTwos_lt 32 _)]
  · rfl
theorem Vcore.inc_frame (y : Vcore) (k : Nat) : ∃ b, y.inc k = { y with arBase := b } := ⟨_, rfl⟩
theorem vAdvance_frame (i : VIns) (y : Vcore) : ∃ b, vAdvance i y = { y with arBase := b } := by
  unfold vAdvance
  split
  · split
    · exact ⟨_, rfl⟩
    · exact ⟨_, rfl⟩
  · exact ⟨_, rfl⟩

/-- The address registers that a VLD or VST leaves: that of its data and, with MX, that of its scales are stepped. -/
theorem Vcore.base_vAdvance (i : VIns) (y : Vcore) (k : Nat) :
    (vAdvance i y).base k = if i.inc = true ∧ (k = i.ar ∨ i.mx = true ∧ k = i.sar) then
      (if i.mx = true ∧ k = i.ar ∧ k = i.sar then (y.inc k).inc k else y.inc k).base k else y.base k := by
  have step : ∀ j, (y.inc j).arStep = y.arStep := fun _ => rfl
  unfold vAdvance
  by_cases inc : i.inc = true
  · by_cases mx : i.mx = true
    · rw [if_pos inc, if_pos mx]
      by_cases same : i.ar = i.sar
      · by_cases here : k = i.sar
        · subst here
          simp [inc, mx, same]
        · simp [same, here, Vcore.base_inc]
      · by_cases data : k = i.ar
        · subst data
          simp [inc, same, Vcore.base_inc]
        · by_cases scale : k = i.sar
          · subst scale
            simp [inc, mx, data, step, Vcore.base_inc]
          · simp [data, scale, Vcore.base_inc]
    · rw [if_pos inc, if_neg mx]
      by_cases data : k = i.ar <;> simp [inc, mx, data, Vcore.base_inc]
  · simp [inc]

-- Scheduled accesses of a V-core (spec/07 R196) ------------------------------------------------------------------------------------------

section
variable {s t : State} {d v : Nat}

/-- A byte of the scratchpad stands where its memory and its banks do. -/
theorem State.spadByte_congr (mem : (t.die d).spad.mem = (s.die d).spad.mem) (linear : t.rg d CD_SPAD_LINEAR = s.rg d CD_SPAD_LINEAR) :
    t.spadByte d = s.spadByte d := by
  funext a
  unfold State.spadByte State.spadPos State.bankOf State.linearWin State.rgB
  rw [mem, linear]
theorem State.VcoreOnly.spadByte (h : s.VcoreOnly t d v) (hv : v < 8) : t.spadByte d = s.spadByte d := by
  refine State.spadByte_congr (congrArg Spad.mem h.spad) (h.rg _ _ fun q hq => ?_)
  rw [ne_eq, rkey_off]
  simp only [vcoreRegs, List.mem_cons, List.not_mem_nil, or_false] at hq
  rcases hq with rfl | rfl | rfl | rfl
  · unfold CD_SPAD_LINEAR CD_VC_INSTR
    omega
  · unfold CD_SPAD_LINEAR CD_VC_LANEOPS
    omega
  · decide
  · decide

/-- The accesses of an instruction meet others by the scratchpad's reservations, not by the core's registers. -/
theorem State.schedule_setVc (s : State) (d v : Nat) (y : Vcore) (accs : List Acc) :
    ((s.setVc d v y).schedule d accs).2 = (s.schedule d accs).2 := by
  have reserve : (s.setVc d v y).reserve d accs = s.reserve d accs := by
    have only := State.VcoreOnly.setVc s d v y
    unfold State.reserve
    rw [only.spad, only.cyc]
    rfl
  unfold State.schedule
  dsimp only
  rw [reserve]
  split <;> rfl
theorem State.vc_schedule {accs : List Acc} (h : s.schedule d accs = (t, true)) (k : Nat) : t.vc d k = s.vc d k := by
  rw [State.schedule_eq_true h, State.vc_bumpPerf, State.vc, State.die_modDie, if_pos rfl]
  rfl
theorem State.cyc_schedule {accs : List Acc} (h : s.schedule d accs = (t, true)) : (t.die d).cyc = (s.die d).cyc := by
  rw [State.schedule_eq_true h, State.die_bumpPerf, State.die_modDie, if_pos rfl]

theorem State.vc_spadSetWord (s : State) (d addr mask v k : Nat) : (s.spadSetWord d addr mask v).vc d k = s.vc d k := by
  rw [State.spadSetWord, State.vc, State.die_modDie, if_pos rfl]
  rfl
theorem State.vc_spadStore (he : (s.die d).spad.errs = []) (port addr nbits v : Nat) (byPlace : Bool) (k : Nat) :
    (s.spadStore d port addr nbits v byPlace).vc d k = s.vc d k := by
  have merge : ∀ ws, s.spadMerge d ws = (s, []) := fun _ => if_pos he
  unfold State.spadStore
  simp only [merge, List.foldl_nil]
  exact List.foldlRecOn (motive := fun t : State => t.vc d k = s.vc d k) _ _ rfl (fun t ht _ _ => (t.vc_spadSetWord ..).trans ht)
theorem State.vc_modPlace (s : State) (d e p : Nat) (f : Place → Place) (k : Nat) : (s.modPlace e p f).vc d k = s.vc d k := by
  rw [State.modPlace, State.setPlace, State.vc, State.die_modDie]
  split
  · subst d
    rfl
  · rfl
theorem State.vc_laneTake (s : State) (d p l n k : Nat) : (s.laneTake d p l n).1.vc d k = s.vc d k := by
  unfold State.laneTake
  dsimp only
  split
  · rw [State.vc_modPlace, State.vc_modPlace]
  · rw [State.vc_modPlace]

end

-- VLD and VRECV (spec/06 R167, R170) ------------------------------------------------------------------------------------------------------

/-- The cycles, data and destination of a load or receive: a result for every lane of its register. -/
theorem State.vResult_full {s u : State} {d v : Nat} {y : Vcore} {i : VIns} {els : List (Nat × Stat)} (outside : SameOutside s u)
    (cyc : (u.die d).cyc = (s.die d).cyc) (pend : (u.vc d v).pend = y.pend) (regs : (u.vc d v).regs = y.regs) (len : els.length = i.count)
    (lat : Nat) :
    let t := (u.vResult d v lat (2 ^ 64 - 1) (.reg i.vd.toNat) { w := i.width, els := els }).bumpPerf d (CD_VC_INSTR v) 1
    ∃ p, p.dest = .reg i.vd.toNat ∧ p.due = (s.die d).cyc + lat ∧ p.en = BitVec.allOnes 64 ∧ (t.vc d v).pend = insPend p y.pend ∧
      (∀ k, k < i.count → pendElem p i.width k = ((els[k]?).map (·.1)).getD 0 % 2 ^ i.width) ∧ (t.vc d v).regs = y.regs ∧ SameOutside s t := by
  intro t
  have vc := u.vc_vResult_count d v lat (2 ^ 64 - 1) (.reg i.vd.toNat) { w := i.width, els := els }
  rw [cyc] at vc
  refine ⟨_, rfl, rfl, ?_, by rw [vc, pend], fun k hk => ?_, by rw [vc, regs], outside.trans (State.VcoreOnly.vResult_count u d v lat _ _ _).outside⟩
  · refine BitVec.eq_of_getLsbD_eq fun l hl => ?_
    rw [VRes.en_sent _ _ _ len hl (VIns.laneElem_lt_count i hl), Nat.testBit_two_pow_sub_one, BitVec.getLsbD_allOnes, decide_eq_true hl,
      decide_eq_true ((VIns.laneElem_lt_count i hl).trans_le (VIns.count_le i))]
  · rw [VRes.pendElem_sent_getD (r := { w := i.width, els := els }) _ _ _ hk (VIns.width_mul_count i).le, List.getD_eq_getElem?_getD,
      List.getElem?_map]

theorem VIns.length_widen (i : VIns) (src : Nat → Byte) (scales : Option (Nat → Nat)) : (i.widen src scales).length = i.count := by
  rw [VIns.widen, List.length_map, List.length_range]

section
variable {s t : State} {d v : Nat} {i : VIns}

theorem State.vLoad_of_schedule {y : Vcore} {c : Nat} (core : s.vc d v = y) (cyc : (s.die d).cyc = c) (clean : (s.die d).spad.errs = [])
    (free : s.schedule d (vldAccs v c (y.lines i)) = (t, true)) :
    s.vLoad d v i true = (t.setVc d v { vAdvance i y with loadUntil := c + (y.lines i).length }).vResult d v (vLat 1 (y.lines i).length)
      (2 ^ 64 - 1) (.reg i.vd.toNat) (vLoaded i (fun k => t.spadByte d (y.addr i + k)) (fun b => t.spadByte d (y.base i.sar + b))) := by
  subst core cyc
  unfold State.vLoad
  simp only [State.schedRead_of_schedule clean free, if_true]

theorem State.vRecv_of_flits (here : i.flits ≤ ((s.place d (16 + v)).lane i.lane).q.length) :
    s.vRecv d v i true = (s.laneTake d (16 + v) i.lane i.flits).1.vResult d v (vLat 3 i.flits) (2 ^ 64 - 1) (.reg i.vd.toNat)
      { w := i.width, els := i.widen (flitByte (((s.place d (16 + v)).lane i.lane).q.take i.flits)) none } :=
  if_pos (by rw [Bool.true_and]; exact decide_eq_true here)

-- VST and VSEND (spec/06 R167, R170) ------------------------------------------------------------------------------------------------------

/-- The mode in which a store or send rounds: a format as wide as the lanes takes no rounding. -/
def VIns.narrowMode (i : VIns) : Nat := if i.fmt.toNat = 0 ∨ i.fmt.toNat = 11 then 0 else i.rmode.toNat
/-- The codes that a store or send puts out, on the draws given. -/
def VIns.codes (i : VIns) (y : Vcore) (mx : Bool) (draws : List Nat) : List Nat :=
  (convRow i.fmt.toNat (VIns.narrowMode i) i.sat mx draws (i.vals (y.reg i.stored))).1

/-- The flits of the codes that a send puts out. -/
def VIns.flitsOut (i : VIns) (codes : List Nat) : List (BitVec 512) :=
  (List.range i.flits).map (fun k => BitVec.ofNat 512 (packElems (fmtW i.fmt.toNat) codes >>> (512 * k)))

/-- Narrowing steps generators and sets status; without stochastic rounding no draw decides the codes. -/
theorem State.vNarrow_spec (s : State) (d v : Nat) (i : VIns) (mx : Bool) :
    s.VcoreOnly (s.vNarrow d v i mx).1 d v ∧ (s.vNarrow d v i mx).1.vc d v = s.vc d v ∧
      (VIns.narrowMode i ≠ 2 → (s.vNarrow d v i mx).2.1 = VIns.codes i (s.vc d v) mx ((List.range i.count).map (fun _ => 0))) := by
  refine ⟨(State.VcoreOnly.drawsFor s d v (16 + v) _ _).trans (.arith _ d v _), ?_, fun quiet => ?_⟩
  · exact (State.vc_arith ..).trans (s.vc_drawsFor ..)
  · have draws := State.drawsFor_of_ne quiet s d (16 + v) (List.range i.count)
    rw [List.length_range] at draws
    rw [VIns.codes, ← draws]
    rfl

/-- The bytes that a store writes: its data and, with MX, the two bytes of its scales. -/
def State.vPut (s : State) (d v : Nat) (i : VIns) (y : Vcore) (data scales : Nat) : State :=
  ((y.addr i, 8 * i.bytes, data) :: (if i.mx then [(y.base i.sar, 16, scales)] else [])).foldl
    (fun u e => u.spadStore d (65 + 2 * v) e.1 e.2.1 e.2.2 true) s

/-- A store leaves its core with its address registers stepped and its port taken. -/
def VIns.storeTaken (i : VIns) (y : Vcore) (c : Nat) : Vcore :=
  { vAdvance i y with
    storeFrom := if y.storeUntil < c + 2 then c + 2 else y.storeFrom, storeUntil := max y.storeUntil (c + 2 + (y.lines i).length) }

theorem State.vStore_of_schedule {y : Vcore} {c : Nat} (core : s.vc d v = y) (cyc : (s.die d).cyc = c)
    (free : s.schedule d (vstAccs v c (y.lines i)) = (t, true)) :
    s.vStore d v i true = ((t.vNarrow d v i i.mx).1.setVc d v (VIns.storeTaken i y c)).vPut d v i y
      (packElems (fmtW i.fmt.toNat) (t.vNarrow d v i i.mx).2.1) (packElems 8 (t.vNarrow d v i i.mx).2.2) := by
  subst core cyc
  unfold State.vStore
  simp only [free, if_true]
  rfl

theorem State.vSend_eq {c : Nat} (cyc : (s.die d).cyc = c) : s.vSend d v i =
    (s.vNarrow d v i false).1.laneOut d (16 + v) (2 + i.lane) (c + 2) false (VIns.flitsOut i (s.vNarrow d v i false).2.1) := by
  subst cyc
  rfl
theorem State.out_laneOut (s : State) (d p l c : Nat) (hdr : Bool) (fl : List (BitVec 512)) :
    (((s.laneOut d p l c hdr fl).place d p).lane l).out = ((s.place d p).lane l).out ++ fl.zipIdx.map (fun e =>
      (c + e.2, ({ payload := e.1, gen := BitVec.ofNat 4 (s.place d p).gen, hdr := hdr && e.2 == 0 } : Token))) := by
  rw [State.laneOut, State.place_modPlace, if_pos ⟨rfl, rfl⟩, Place.lane_setLane, if_pos rfl]

end

section
variable {s : State} {d v : Nat} {i : VIns} {y : Vcore}

theorem State.vPut_of_mx (h : i.mx = true) (data scales : Nat) : s.vPut d v i y data scales =
    (s.spadStore d (65 + 2 * v) (y.addr i) (8 * i.bytes) data true).spadStore d (65 + 2 * v) (y.base i.sar) 16 scales true := by
  rw [State.vPut, if_pos h]
  rfl
theorem State.vPut_of_plain (h : i.mx = false) (data scales : Nat) : s.vPut d v i y data scales =
    s.spadStore d (65 + 2 * v) (y.addr i) (8 * i.bytes) data true := by
  rw [State.vPut, h]
  rfl

variable (clean : (s.die d).spad.errs = [])
include clean

/-- Beyond the scratchpad a store changes nothing of the core or outside the die. -/
theorem State.vPut_frame (data scales : Nat) : (s.vPut d v i y data scales).vc d v = s.vc d v ∧ SameOutside s (s.vPut d v i y data scales) := by
  have first := State.RowPut.spadStore clean 0 (65 + 2 * v) (y.addr i) (8 * i.bytes) data true
  have vc := State.vc_spadStore clean (65 + 2 * v) (y.addr i) (8 * i.bytes) data true v
  cases mx : i.mx with
  | false =>
    rw [State.vPut_of_plain mx]
    exact ⟨vc, first.outside⟩
  | true =>
    have second := State.RowPut.spadStore (first.errs clean) 0 (65 + 2 * v) (y.base i.sar) 16 scales true
    rw [State.vPut_of_mx mx]
    exact ⟨(State.vc_spadStore (first.errs clean) ..).trans vc, first.outside.trans second.outside⟩

variable (range : y.addr i + i.bytes ≤ 0x8000000)
include range

theorem State.spadBit_vPut_outside (scaleRange : i.mx = true → y.base i.sar + 2 ≤ 0x8000000) (data scales : Nat) {a b : Nat}
    (ha : a < 0x8000000) (hb : b < 8) (other : ¬(y.addr i ≤ a ∧ a < y.addr i + i.bytes))
    (noScale : ¬(i.mx = true ∧ y.base i.sar ≤ a ∧ a < y.base i.sar + 2)) : (s.vPut d v i y data scales).spadBit d a b = s.spadBit d a b := by
  cases mx : i.mx with
  | false => rw [State.vPut_of_plain mx, State.spadStore_bit clean (by omega) ha hb, if_neg (by omega)]
  | true =>
    have first := State.RowPut.spadStore clean 0 (65 + 2 * v) (y.addr i) (8 * i.bytes) data true
    have scaleRange := scaleRange mx
    have noScale := not_and.1 noScale mx
    rw [State.vPut_of_mx mx, State.spadStore_bit (first.errs clean) (by omega) ha hb, if_neg (by omega),
      State.spadStore_bit clean (by omega) ha hb, if_neg (by omega)]
theorem State.spadBit_vPut_data (plain : i.mx = false) (data scales : Nat) {a b : Nat} (h1 : y.addr i ≤ a) (h2 : a < y.addr i + i.bytes)
    (hb : b < 8) : (s.vPut d v i y data scales).spadBit d a b = data.testBit (8 * (a - y.addr i) + b) := by
  rw [State.vPut_of_plain plain, State.spadStore_bit clean (by omega) (by omega) hb, if_pos (by omega),
    show 8 * a + b - 8 * y.addr i = 8 * (a - y.addr i) + b by omega]

end

-- Faults that an accepted store has not met (spec/06 R172) --------------------------------------------------------------------------------

section
variable {s : State} {d v : Nat} {i : VIns}

theorem fmtW_pos {f : Nat} (h : f ≤ 11) : 0 < fmtW f := by interval_cases f <;> decide
/-- R172: cause 2 is met by a store in a format that is none, causes 3 and 4 by one that leaves the scratchpad. -/
theorem State.vst_in_range (cause : s.vCause d v 2 i = none) :
    (s.vc d v).addr i + i.bytes ≤ 0x8000000 ∧ (i.mx = true → (s.vc d v).base i.sar + 2 ≤ 0x8000000) := by
  have format := eq_false_of_lowestCause_eq_none cause (n := 2) (by simp only [List.mem_cons]; exact .inr (.inl rfl))
  have aligned := eq_false_of_lowestCause_eq_none cause (n := 3) (by simp only [List.mem_cons]; exact .inr (.inr (.inl rfl)))
  have within := eq_false_of_lowestCause_eq_none cause (n := 4) (by simp only [List.mem_cons]; exact .inr (.inr (.inr (.inl rfl))))
  have inFormats : i.fmt.toNat ≤ 11 := by
    simp [isMove] at format
    omega
  have bytes : 0 < i.bytes := by
    unfold VIns.bytes
    split
    · decide
    · exact Nat.mul_pos (by decide) (fmtW_pos inFormats)
  simp at aligned within
  obtain ⟨data, scales⟩ := within
  refine ⟨State.le_of_spadRangeOk data bytes, fun mx => ?_⟩
  have inside := scales mx
  have room := aligned.2 mx
  rw [State.spadOk, Bool.and_eq_true, decide_eq_true_eq] at inside
  have size : s.spadSize ≤ 0x8000000 := by
    unfold State.spadSize
    split <;> decide
  omega

end

-- Effects (spec/06 R167) ---------------------------------------------------------------------------------------------------------------------

section
variable (s : State) (d v : Nat) (i : VIns)

theorem State.vEffect_vnop : s.vEffect d v 0 i true = s := rfl
theorem State.vEffect_vld : s.vEffect d v 1 i true = s.vLoad d v i true := rfl
theorem State.vEffect_vst : s.vEffect d v 2 i true = s.vStore d v i true := rfl
theorem State.vEffect_vrecv : s.vEffect d v 3 i true = s.vRecv d v i true := rfl
theorem State.vEffect_vsend : s.vEffect d v 4 i true = s.vSend d v i := rfl

end

theorem execAset_eq {s : State} {d v : Nat} (hd : d < 576) (hv : v < 8) (ar : BitVec 3) (base : BitVec 32) (stp : BitVec 14) :
    exec (.aset d v ar base stp) s = .next (s.aset d v ar base stp) := if_pos (show (decide (d < 576) && decide (v < 8)) = true by simp [hd, hv])

/-- An accepted ASET writes its address register, and counts. -/
theorem State.aset_of_accepted {s : State} {d v : Nat} (issue : s.canIssue d (16 + v) = true) (ar : BitVec 3) (base : BitVec 32) (stp : BitVec 14) :
    s.aset d v ar base stp = (s.setVc d v { s.vc d v with
      arBase := nput 0#32 (s.vc d v).arBase ar.toNat base, arStep := nput 0#14 (s.vc d v).arStep ar.toNat stp }).bumpPerf d (CD_VC_INSTR v) 1 :=
  if_pos issue

/-- Settles O21: each instruction by what it reads and puts out, from the state in which the results due have landed. -/
theorem vectorMemoryAndLanes : Obligations.VectorMemoryAndLanes := by
  intro s d v i hd hv issue clean y t0 n f mode stepped posts codes whole
  have ready := State.VDrawn.vReady s d v
  have vc : (s.vReady d v).vc d v = y := s.vc_vReady d v
  have cyc : ((s.vReady d v).die d).cyc = t0 := s.cyc_vReady d v
  refine ⟨fun cause => ?vnop, fun ar base stp => ?aset, fun cause clear free => ?vld, fun cause clear free => ?vst, fun cause here => ?vrecv,
    fun cause => ?vsend⟩
  case vnop =>
    rw [exec_of_mem_vInstrs (e := (0, Instr.vnop)) hd hv i (by simp [vInstrs]), State.vIssue_of_accepted issue clean cause]
    rfl
  case aset =>
    refine ⟨_, execAset_eq hd hv ar base stp, ?_⟩
    have vc' : (s.aset d v ar base stp).vc d v = { s.vc d v with
        arBase := nput 0#32 (s.vc d v).arBase ar.toNat base, arStep := nput 0#14 (s.vc d v).arStep ar.toNat stp } := by
      rw [State.aset_of_accepted issue, State.vc_bumpPerf, State.vc_setVc, if_pos ⟨rfl, rfl⟩]
    beta_reduce
    rw [vc']
    refine ⟨?_, ?_, fun k other => ⟨?_, ?_⟩, rfl, State.aset_of_accepted issue ar base stp⟩
    · exact congrArg BitVec.toNat ((sget_nput ..).trans (if_pos rfl))
    · exact (sget_nput ..).trans (if_pos rfl)
    · exact congrArg BitVec.toNat ((sget_nput ..).trans (if_neg other))
    · exact (sget_nput ..).trans (if_neg other)
  case vld =>
    refine completes_of_accepted hd hv issue clean 1 (by simp [vInstrs]) cause ?_
    obtain ⟨u, free⟩ : ∃ u, (s.vReady d v).schedule d (vldAccs v t0 (y.lines i)) = (u, true) :=
      ⟨_, Prod.ext rfl ((State.schedule_setVc ..).trans free)⟩
    have bytes : u.spadByte d = s.spadByte d := (State.spadByte_schedule free).trans (ready.only.spadByte hv)
    rw [State.vEffect_vld, State.vLoad_of_schedule vc cyc (by rw [ready.only.spad, clear]) free, bytes]
    generalize hz : ({ vAdvance i y with loadUntil := t0 + (y.lines i).length } : Vcore) = z
    have advanced := vAdvance_frame i y
    have only := State.VcoreOnly.setVc u d v z
    have sent := fun lat r => (u.setVc d v z).vc_vResult_count d v lat (2 ^ 64 - 1) (.reg i.vd.toNat) r
    have vcu : (u.setVc d v z).vc d v = z := by rw [State.vc_setVc, if_pos ⟨rfl, rfl⟩]
    refine ⟨?_, fun k => ?_, ?_, State.vResult_full ?_ ?_ ?_ ?_ ?_ _⟩
    · rw [((State.VcoreOnly.vResult_count (u.setVc d v z) d v _ _ _ _)).spad, only.spad, (State.spad_schedule free).1, ready.only.spad]
    · rw [sent, vcu, ← hz]
      exact Vcore.base_vAdvance i y k
    · rw [sent, vcu, ← hz]
    · exact ready.only.outside.trans ((State.CoreStands.schedule free 0).outside.trans only.outside)
    · rw [only.cyc, State.cyc_schedule free, cyc]
    · rw [vcu, ← hz]
      obtain ⟨b, hb⟩ := advanced
      rw [hb]
    · rw [vcu, ← hz]
      obtain ⟨b, hb⟩ := advanced
      rw [hb]
    · exact VIns.length_widen ..
  case vst =>
    refine completes_of_accepted hd hv issue clean 2 (by simp [vInstrs]) cause ?_
    obtain ⟨u, free⟩ : ∃ u, (s.vReady d v).schedule d (vstAccs v t0 (y.lines i)) = (u, true) :=
      ⟨_, Prod.ext rfl ((State.schedule_setVc ..).trans free)⟩
    obtain ⟨narrowed, -, plain⟩ := u.vNarrow_spec d v i i.mx
    rw [State.vEffect_vst, State.vStore_of_schedule vc cyc free]
    generalize hz : (u.vNarrow d v i i.mx).1.setVc d v (VIns.storeTaken i y t0) = z
    have only : u.VcoreOnly z d v := hz ▸ narrowed.trans (.setVc ..)
    have clear' : (z.die d).spad.errs = [] := by rw [only.spad, (State.spad_schedule free).2, ready.only.spad, clear]
    have bytes : z.spadByte d = s.spadByte d := (only.spadByte hv).trans ((State.spadByte_schedule free).trans (ready.only.spadByte hv))
    obtain ⟨range, scaleRange⟩ : y.addr i + i.bytes ≤ 0x8000000 ∧ (i.mx = true → y.base i.sar + 2 ≤ 0x8000000) := by
      obtain ⟨rs, ms, ps, hy⟩ := (s.vc d v).settle_frame (s.die d).cyc clean
      rw [show y = _ from hy]
      exact State.vst_in_range cause
    have counted := State.VcoreOnly.bumpPerf (z.vPut d v i y (packElems (fmtW i.fmt.toNat) (u.vNarrow d v i i.mx).2.1)
      (packElems 8 (u.vNarrow d v i i.mx).2.2)) d v 1 (off := CD_VC_INSTR v) (by simp [vcoreRegs])
    obtain ⟨core, outside⟩ := State.vPut_frame (i := i) (y := y) (v := v) clear' (packElems (fmtW i.fmt.toNat) (u.vNarrow d v i i.mx).2.1)
      (packElems 8 (u.vNarrow d v i i.mx).2.2)
    have vcz : z.vc d v = VIns.storeTaken i y t0 := by rw [← hz, State.vc_setVc, if_pos ⟨rfl, rfl⟩]
    have taken := (State.vc_bumpPerf _ d (CD_VC_INSTR v) 1 d v).trans (core.trans vcz)
    obtain ⟨b, advanced⟩ := vAdvance_frame i y
    refine ⟨fun k => ?_, ?_, ?_, ?_, ?_, fun a b ha hb other noScale => ?_, fun noScale quiet a b h1 h2 hb => ?_⟩
    · rw [taken]
      exact Vcore.base_vAdvance i y k
    · rw [taken, VIns.storeTaken, advanced]
    · rw [taken, VIns.storeTaken, advanced]
    · rw [taken]
      rfl
    · exact ready.only.outside.trans ((State.CoreStands.schedule free 0).outside.trans (only.outside.trans (outside.trans counted.outside)))
    · rw [State.spadBit, counted.spadByte hv]
      exact (State.spadBit_vPut_outside clear' range scaleRange _ _ ha hb other noScale).trans (by rw [State.spadBit, bytes]; rfl)
    · rw [State.spadBit, counted.spadByte hv]
      refine (State.spadBit_vPut_data clear' range noScale _ _ h1 h2 hb).trans ?_
      rw [plain quiet, (State.vc_schedule free v).trans vc, noScale]
      rfl
  case vrecv =>
    refine completes_of_accepted hd hv issue clean 3 (by simp [vInstrs]) cause ?_
    have here' : i.flits ≤ (((s.vReady d v).place d (16 + v)).lane i.lane).q.length := by rwa [ready.only.place]
    rw [State.vEffect_vrecv, State.vRecv_of_flits here', ready.only.place]
    obtain ⟨stands, queue, -, -⟩ := (s.vReady d v).laneTake_frame d (16 + v) i.lane i.flits 0
    have vcu := ((s.vReady d v).vc_laneTake d (16 + v) i.lane i.flits v).trans vc
    refine ⟨?_, State.vResult_full ?_ ?_ ?_ ?_ ?_ _⟩
    · rw [(State.VcoreOnly.vResult_count _ d v _ _ _ _).place, queue, ready.only.place]
    · exact ready.only.outside.trans stands.outside
    · exact ((State.LanesTaken.laneTake ..).cyc d).trans cyc
    · rw [vcu]
    · rw [vcu]
    · exact VIns.length_widen ..
  case vsend =>
    refine completes_of_accepted hd hv issue clean 4 (by simp [vInstrs]) cause ?_
    obtain ⟨only, vcn, plain⟩ := (s.vReady d v).vNarrow_spec d v i false
    rw [State.vEffect_vsend, State.vSend_eq cyc]
    refine ⟨?_, ?_, VIns.flitsOut i ((s.vReady d v).vNarrow d v i false).2.1, ?_, fun quiet => ?_, ?_⟩
    · exact ready.only.outside.trans (only.outside.trans ((State.RowPut.laneOut _ d 0 _ _ _ _ _).outside.trans
        (State.VcoreOnly.bumpPerf _ d v 1 (by simp [vcoreRegs])).outside))
    · rw [State.vc_bumpPerf, State.laneOut, State.vc_modPlace, vcn, vc]
    · rw [VIns.flitsOut, List.length_map, List.length_range]
    · rw [plain quiet, vc]
      rfl
    · rw [(State.VcoreOnly.bumpPerf _ d v 1 (by simp [vcoreRegs])).place, State.out_laneOut, only.place, ready.only.place]
      rfl

end Sys2Proof.Machine
end

section
/-! The S-cores' fabric instructions (spec/06 R184, R186, spec/08 R236, spec/10 R296, spec/11 R339; O23). -/

namespace Sys2Proof.Machine

-- What an S-core's instruction leaves (spec/06 R175) -----------------------------------------------------------------------------------

theorem State.sc_scRet (t : State) (d c : Nat) (rd : BitVec 5) (v : Nat) :
    (t.scRet d c rd v).sc d c = { (t.sc d c).setX rd.toNat (BitVec.ofNat 64 v) with pc := (t.sc d c).pc + 4#64, st := 1 } := by
  rw [State.scRet, State.sc_setSc, if_pos ⟨rfl, rfl⟩]
/-- The S-core goes on from the pc, mode and integer registers that it had. -/
theorem State.scRet_went {s t : State} {d c : Nat} (pc : (t.sc d c).pc = (s.sc d c).pc) (mode : (t.sc d c).mode = (s.sc d c).mode)
    (x : (t.sc d c).x = (s.sc d c).x) (rd : BitVec 5) (v : Nat) : s.ScWent (t.scRet d c rd v) d c rd v := by
  have reads : ∀ r, (t.sc d c).getX r = (s.sc d c).getX r := fun r => by rw [SCore.getX, x]; rfl
  obtain ⟨xs, frame⟩ := (t.sc d c).setX_frame rd.toNat (BitVec.ofNat 64 v)
  refine ⟨?_, ?_, ?_, fun r => ?_⟩ <;> rw [State.sc_scRet]
  · rw [pc]
  · rw [frame]
    exact mode
  · rw [← reads]
    exact SCore.getX_setX (t.sc d c) rd.toNat r (BitVec.ofNat 64 v)
theorem State.scRet_went_of_sc {s t : State} {d c : Nat} (h : t.sc d c = s.sc d c) (rd : BitVec 5) (v : Nat) :
    s.ScWent (t.scRet d c rd v) d c rd v := State.scRet_went (by rw [h]) (by rw [h]) (by rw [h]) rd v

theorem State.ScWent.of_sc {s t u : State} {d c v : Nat} {rd : BitVec 5} (h : s.ScWent t d c rd v) (same : u.sc d c = t.sc d c) :
    s.ScWent u d c rd v := ⟨by rw [same, h.pc], by rw [same, h.st], by rw [same, h.mode], fun r => by rw [same, h.x]⟩

theorem State.die_setSc (s : State) (d c e : Nat) (y : SCore) :
    (s.setSc d c y).die e = if e = d then { s.die d with scs := sput (s.die d).scs c y } else s.die e := by
  rw [State.setSc, State.die_modDie]
theorem State.sc_modDie {f : Die → Die} {s : State} {d : Nat} (h : (f (s.die d)).scs = (s.die d).scs) (e c : Nat) :
    (s.modDie d f).sc e c = s.sc e c := by
  rw [State.sc, State.die_modDie]
  split
  · subst e
    rw [Die.sc, h]
    rfl
  · rfl

-- Packets of the spindle (spec/11 R335, R339) ------------------------------------------------------------------------------------------

theorem State.spPush_frame (s : State) (n port : Nat) (k : SpPkt) : ∃ l, s.spPush n port k = s.setPcd (fun q => { q with spn := l }) := ⟨_, rfl⟩
/-- A broadcast changes the FIFOs of the spindle alone. -/
theorem State.spBroadcast_frame (s : State) (p ty arg payload : Nat) :
    ∃ l, s.spBroadcast p ty arg payload = s.setPcd (fun q => { q with spn := l }) := by
  have pushed : ∀ (ports : List Nat) (n : Nat) (k : SpPkt) (t : State), (∃ l, t = s.setPcd (fun q => { q with spn := l })) →
      ∃ l, ports.foldl (fun t port => t.spPush n port k) t = s.setPcd (fun q => { q with spn := l }) := fun ports n k t ht =>
    List.foldlRecOn (motive := fun t : State => ∃ l, t = s.setPcd (fun q => { q with spn := l })) ports _ ht
      (fun _ ht _ _ => by obtain ⟨l, rfl⟩ := ht; exact ⟨_, rfl⟩)
  unfold State.spBroadcast
  split
  · exact pushed _ _ _ _ (s.spPush_frame ..)
  · exact ⟨s.pcd.spn, rfl⟩

theorem State.sc_barUp (s : State) (p n b e c : Nat) : (s.barUp p n b).sc e c = s.sc e c := by
  unfold State.barUp
  split
  · rfl
  · split
    · dsimp only
      split
      · rfl
      · split
        · obtain ⟨l, hl⟩ := State.spBroadcast_frame (s.setPart p { s.part p with
            arrived := (s.part p).arrived.filter (fun a => !(decide (a.1 = n) && decide (a.2.1 = b))) }) p 3 b 0
          rw [hl]
          rfl
        · rfl
    · rfl
/-- A die's arrival at a barrier leaves its S-cores as they are. -/
theorem State.sc_barCheck (s : State) (d b e c : Nat) : (s.barCheck d b).sc e c = s.sc e c := by
  unfold State.barCheck
  dsimp only
  split
  · split
    · exact (State.sc_barUp ..).trans (State.sc_modDie rfl e c)
    · exact State.sc_modDie rfl e c
  · rfl

-- Instructions -----------------------------------------------------------------------------------------------------------------------------

section
variable {s : State} {d c : Nat} (hd : d < 576) (hc : c < 4) (rd rs1 rs2 : BitVec 5)
include hd hc

theorem wf_score : (decide (d < 576) && decide (c < 4)) = true := by simp [hd, hc]

theorem execFxStart_eq : exec (.fxStart d c rd) s = .next (s.fxStart d c rd) := if_pos (wf_score hd hc)
theorem execFxDma_eq : exec (.fxDma d c rd rs1 rs2) s = .next (s.fxDma d c rd rs1 rs2) := if_pos (wf_score hd hc)
theorem execFxDpoll_eq : exec (.fxDpoll d c rd rs1) s = .next (s.fxDpoll d c rd rs1) := if_pos (wf_score hd hc)
theorem execFxBar_eq : exec (.fxBar d c rd rs1) s = .next (s.fxBar d c rd rs1) := if_pos (wf_score hd hc)
theorem execFxSpsend_eq : exec (.fxSpsend d c rd rs1 rs2) s = .next (s.fxSpsend d c rd rs1 rs2) := if_pos (wf_score hd hc)
theorem execFxSprecv_eq : exec (.fxSprecv d c rd) s = .next (s.fxSprecv d c rd) := if_pos (wf_score hd hc)

end

/-- A field from bit 0 upward is a remainder. -/
theorem bits_zero (x hi : Nat) : bits x hi 0 = x % 2 ^ (hi + 1) := rfl

theorem sfind_sput {α : Type} (m : SMap α) (k : Nat) (v : α) : sfind (sput m k v) k = some v := by
  induction m with
  | nil => simp [sput, sfind]
  | cons e m ih =>
    unfold sfind at ih ⊢
    rw [sput]
    split
    · simp
    · split
      · simp
      · rename_i other _
        rw [List.find?_cons_of_neg (by simpa using other), ih]

section
variable {s : State} {d c : Nat} (ready : s.scReady d c = true) (may : (s.sc d c).mode ≠ 0 ∨ (s.sc d c).vgfx = true)
include ready may

/-- R184: in a mode that may run it an FX instruction has its effect. -/
theorem State.fxOp_of_mode (f : State → State) : s.fxOp d c f = f s := by
  rw [State.fxOp, if_pos ready, if_neg (fun user => may.elim (fun h => h user.1) (fun h => by simp [h] at user))]

variable (rd rs1 rs2 : BitVec 5)

/-- The start strobe is S-core 0's of the kernel site (spec/08 R236). -/
theorem State.fxStart_of_kernel {p : Nat} (part : s.partOfNode d = some p) (kernel : c = 0 ∧ s.kernelNode p = some d) :
    s.fxStart d c rd = (s.spBroadcast p 4 0 (((s.part p).ccount + 5000) % 2 ^ 64)).scRet d c rd 0 := by
  rw [State.fxStart, State.fxOp_of_mode ready may]
  simp only [part]
  rw [if_pos kernel]
theorem State.fxStart_of_other (other : ∀ p, s.partOfNode d = some p → ¬(c = 0 ∧ s.kernelNode p = some d)) :
    s.fxStart d c rd = s.scRet d c rd 1 := by
  rw [State.fxStart, State.fxOp_of_mode ready may]
  split
  · rename_i p part
    rw [if_neg (other p part)]
  · rfl

/-- FX.DMA: the three ways it ends (spec/10 R291, R296). -/
theorem State.fxDma_outside (h : 128 ≤ ((s.sc d c).getX rs2.toNat).toNat ∨
    s.partOfRegion (((s.sc d c).getX rs2.toNat).toNat / 8) ≠ s.partOfNode d) : s.fxDma d c rd rs1 rs2 = s.scRet d c rd 0xFFFFFFFF := by
  rw [State.fxDma, State.fxOp_of_mode ready may]
  exact if_pos h
theorem State.fxDma_of_pending (h : ¬(128 ≤ ((s.sc d c).getX rs2.toNat).toNat ∨
      s.partOfRegion (((s.sc d c).getX rs2.toNat).toNat / 8) ≠ s.partOfNode d))
    (old : sfind (s.die d).tickets (ticketBack (s.die d).ticketNext 1024) = some 0) :
    s.fxDma d c rd rs1 rs2 = s.setSc d c { s.sc d c with
      fxHold := some (rd.toNat, ((s.sc d c).getX rs1.toNat).toNat, ((s.sc d c).getX rs2.toNat).toNat) } := by
  rw [State.fxDma, State.fxOp_of_mode ready may]
  exact (if_neg h).trans (if_pos old)
theorem State.fxDma_of_free (h : ¬(128 ≤ ((s.sc d c).getX rs2.toNat).toNat ∨
      s.partOfRegion (((s.sc d c).getX rs2.toNat).toNat / 8) ≠ s.partOfNode d))
    (old : sfind (s.die d).tickets (ticketBack (s.die d).ticketNext 1024) ≠ some 0) :
    s.fxDma d c rd rs1 rs2 = s.fxDmaGo d c rd.toNat ((s.sc d c).getX rs1.toNat).toNat ((s.sc d c).getX rs2.toNat).toNat := by
  rw [State.fxDma, State.fxOp_of_mode ready may]
  exact (if_neg h).trans (if_neg old)

theorem State.fxDpoll_eq : s.fxDpoll d c rd rs1 =
    s.scRet d c rd ((sfind (s.die d).tickets (((s.sc d c).getX rs1.toNat).toNat % 2 ^ 32)).getD 1) := by
  rw [State.fxDpoll, State.fxOp_of_mode ready may]
  rfl
theorem State.fxBar_eq : s.fxBar d c rd rs1 = (s.setSc d c { s.sc d c with
    bar := some (((s.sc d c).getX rs1.toNat).toNat % 256, rd.toNat), st := 1 }).barCheck d (((s.sc d c).getX rs1.toNat).toNat % 256) := by
  rw [State.fxBar, State.fxOp_of_mode ready may]
  rfl

/-- FX.SPSEND reaches the sites of the partition that have a die. -/
theorem State.fxSpsend_of_site {e : Nat} (h : ((s.sc d c).getX rs1.toNat).toNat < 512 ∧
      s.partOfSite ((s.sc d c).getX rs1.toNat).toNat = s.partOfNode d) (die : s.siteNode ((s.sc d c).getX rs1.toNat).toNat = some e) :
    ∃ k, s.fxSpsend d c rd rs1 rs2 = (s.spSend d k).scRet d c rd 0 := by
  rw [State.fxSpsend, State.fxOp_of_mode ready may]
  simp only [if_pos h, die]
  exact ⟨_, rfl⟩
theorem State.fxSpsend_of_none (h : 512 ≤ ((s.sc d c).getX rs1.toNat).toNat ∨
      s.partOfSite ((s.sc d c).getX rs1.toNat).toNat ≠ s.partOfNode d ∨ s.siteNode ((s.sc d c).getX rs1.toNat).toNat = none) :
    s.fxSpsend d c rd rs1 rs2 = s.scRet d c rd 1 := by
  have unreached : (if ((s.sc d c).getX rs1.toNat).toNat < 512 ∧ s.partOfSite ((s.sc d c).getX rs1.toNat).toNat = s.partOfNode d then
      s.siteNode ((s.sc d c).getX rs1.toNat).toNat else none) = none := by
    split
    · rename_i within
      rcases h with far | part | none
      · omega
      · exact absurd within.2 part
      · exact none
    · rfl
  rw [State.fxSpsend, State.fxOp_of_mode ready may]
  simp only [unreached]

theorem State.fxSprecv_cons {src : Nat} {v : W64} {r : List (Nat × W64)} (q : (s.die d).spq = (src, v) :: r) : s.fxSprecv d c rd =
    ((s.modDie d (fun x => { x with spq := r })).setSc d c { s.sc d c with vgsrc := BitVec.ofNat 32 src }).scRet d c rd v.toNat := by
  rw [State.fxSprecv, State.fxOp_of_mode ready may]
  simp only [q]
theorem State.fxSprecv_nil (q : (s.die d).spq = []) :
    s.fxSprecv d c rd = (s.setSc d c { s.sc d c with vgsrc := 0xFFFFFFFF#32 }).scRet d c rd 0 := by
  rw [State.fxSprecv, State.fxOp_of_mode ready may]
  simp only [q]

end

/-- The ticket of an item: pending, or at 2 for a memory die that is off (spec/10 R292, R296). -/
def State.fxTicket (s : State) (d m : Nat) : State :=
  s.modDie d (fun y => { y with
    tickets := sput (serase y.tickets (ticketBack (s.die d).ticketNext 1024)) (s.die d).ticketNext (if s.mdOn m then 0 else 2)
    ticketNext := ((s.die d).ticketNext + 1) % (2 ^ 32 - 1) })
/-- Its descriptor, on its way to a memory die that is on. -/
def State.fxDescr (s : State) (d ticket addr m : Nat) (on : Bool) : State :=
  if on then s.setPcd (fun p => { p with descs := p.descs ++ [(m, .fxdma d ticket addr, default)] }) else s

theorem State.fxDescr_frame (s : State) (d ticket addr m : Nat) (on : Bool) :
    ∃ l, s.fxDescr d ticket addr m on = s.setPcd (fun p => { p with descs := l }) ∧
      l = s.pcd.descs ++ (if on = true then [(m, .fxdma d ticket addr, default)] else []) := by
  cases on
  · exact ⟨s.pcd.descs, rfl, (List.append_nil _).symm⟩
  · exact ⟨_, rfl, rfl⟩
theorem State.fxDmaGo_eq (s : State) (d c rd addr m : Nat) :
    let t := (s.fxTicket d m).fxDescr d (s.die d).ticketNext addr m (s.mdOn m)
    s.fxDmaGo d c rd addr m = (t.setSc d c { t.sc d c with fxHold := none }).scRet d c (BitVec.ofNat 5 rd) (s.die d).ticketNext := rfl

/-- An item issued takes the next ticket, its S-core goes on, and its descriptor is sent. -/
theorem State.fxDmaGo_spec (s : State) (d c rd addr m : Nat) :
    let t := s.fxDmaGo d c rd addr m
    s.ScWent t d c (BitVec.ofNat 5 rd) (s.die d).ticketNext ∧ (t.die d).ticketNext = ((s.die d).ticketNext + 1) % (2 ^ 32 - 1) ∧
      sfind (t.die d).tickets (s.die d).ticketNext = some (if s.mdOn m = true then 0 else 2) ∧
      t.pcd.descs = s.pcd.descs ++ (if s.mdOn m = true then [(m, .fxdma d (s.die d).ticketNext addr, default)] else []) := by
  obtain ⟨l, sent, descs⟩ := (s.fxTicket d m).fxDescr_frame d (s.die d).ticketNext addr m (s.mdOn m)
  have ticket : (s.fxTicket d m).sc d c = s.sc d c := State.sc_modDie rfl d c
  have die : (s.fxTicket d m).die d = _ := (State.die_modDie ..).trans (if_pos rfl)
  have issued := s.fxDmaGo_eq d c rd addr m
  rw [sent] at issued
  generalize hu : ((s.fxTicket d m).setPcd (fun p => { p with descs := l })) = u at issued
  have sc : u.sc d c = s.sc d c := hu ▸ ticket
  have core : (u.setSc d c { u.sc d c with fxHold := none }).sc d c = { s.sc d c with fxHold := none } := by
    rw [State.sc_setSc, if_pos ⟨rfl, rfl⟩, sc]
  have udie : u.die d = (s.fxTicket d m).die d := by rw [← hu]; rfl
  have upcd : u.pcd.descs = l := by rw [← hu]; rfl
  intro t
  simp only [t, issued]
  refine ⟨State.scRet_went (by rw [core]) (by rw [core]) (by rw [core]) _ _, ?_, ?_, upcd.trans descs⟩
  · rw [State.scRet, State.die_setSc, if_pos rfl, State.die_setSc, if_pos rfl, udie, die]
  · rw [State.scRet, State.die_setSc, if_pos rfl, State.die_setSc, if_pos rfl, udie, die]
    exact sfind_sput ..

/-- Settles O23: each instruction by the equation of the case it is in. -/
theorem fabricInstructions : Obligations.FabricInstructions := by
  intro s d c rd rs1 rs2 hd hc ready may v1 v2 next
  refine ⟨fun p part => ⟨_, execFxStart_eq hd hc rd, ?start⟩, fun none => ⟨_, execFxStart_eq hd hc rd, ?startNone⟩,
    fun outside => ⟨_, execFxDma_eq hd hc rd rs1 rs2, ?dmaOutside⟩, fun within part wrap old => ⟨_, execFxDma_eq hd hc rd rs1 rs2, ?dma⟩,
    fun within part old => ⟨_, execFxDma_eq hd hc rd rs1 rs2, ?dmaHold⟩, ⟨_, execFxDpoll_eq hd hc rd rs1, ?dpoll⟩,
    ⟨_, execFxBar_eq hd hc rd rs1, ?bar⟩, fun e site part die => ⟨_, execFxSpsend_eq hd hc rd rs1 rs2, ?send⟩,
    fun unreached => ⟨_, execFxSpsend_eq hd hc rd rs1 rs2, ?sendNone⟩, fun src v r q => ⟨_, execFxSprecv_eq hd hc rd, ?recv⟩,
    fun empty => ⟨_, execFxSprecv_eq hd hc rd, ?recvEmpty⟩⟩
  case start =>
    by_cases kernel : c = 0 ∧ s.kernelNode p = some d
    · rw [State.fxStart_of_kernel ready may rd part kernel]
      obtain ⟨l, sent⟩ := s.spBroadcast_frame p 4 0 (((s.part p).ccount + 5000) % 2 ^ 64)
      rw [if_pos kernel, sent]
      exact ⟨fun other => absurd kernel other, State.scRet_went_of_sc (s := s) (t := s.setPcd _) rfl rd 0⟩
    · have other : ∀ q, s.partOfNode d = some q → ¬(c = 0 ∧ s.kernelNode q = some d) := fun q hq => by
        rw [part] at hq
        exact Option.some.inj hq ▸ kernel
      rw [State.fxStart_of_other ready may rd other, if_neg kernel]
      exact ⟨fun _ => rfl, State.scRet_went_of_sc rfl rd 1⟩
  case startNone =>
    rw [State.fxStart_of_other ready may rd (fun q hq => by rw [none] at hq; cases hq)]
    exact ⟨rfl, State.scRet_went_of_sc rfl rd 1⟩
  case dmaOutside =>
    rw [State.fxDma_outside ready may rd rs1 rs2 outside]
    refine ⟨State.scRet_went_of_sc rfl rd _, ?_, rfl⟩
    rw [State.scRet, State.die_setSc, if_pos rfl]
  case dma =>
    rw [State.fxDma_of_free ready may rd rs1 rs2 (not_or.2 ⟨Nat.not_le.2 within, not_not.2 part⟩) old]
    have issued := s.fxDmaGo_spec d c rd.toNat v1 v2
    rwa [BitVec.ofNat_toNat, BitVec.setWidth_eq] at issued
  case dmaHold =>
    rw [State.fxDma_of_pending ready may rd rs1 rs2 (not_or.2 ⟨Nat.not_le.2 within, not_not.2 part⟩) old]
    have core := (State.sc_setSc s d c d c { s.sc d c with fxHold := some (rd.toNat, v1, v2) }).trans (if_pos ⟨rfl, rfl⟩)
    beta_reduce
    rw [core]
    exact ⟨rfl, rfl, rfl⟩
  case dpoll =>
    rw [State.fxDpoll_eq ready may rd rs1]
    refine ⟨rfl, ?_⟩
    cases sfind (s.die d).tickets (v1 % 2 ^ 32) with
    | some v => exact State.scRet_went_of_sc rfl rd v
    | none => exact State.scRet_went_of_sc rfl rd 1
  case bar =>
    rw [State.fxBar_eq ready may rd rs1]
    beta_reduce
    rw [State.sc_barCheck, State.sc_setSc, if_pos ⟨rfl, rfl⟩]
    exact ⟨rfl, rfl⟩
  case send =>
    obtain ⟨k, sends⟩ := State.fxSpsend_of_site ready may rd rs1 rs2 ⟨site, part⟩ die
    obtain ⟨l, sent⟩ := s.spSend_frame d k
    rw [sends, sent]
    exact State.scRet_went_of_sc (s := s) (t := s.setPcd _) rfl rd 0
  case sendNone =>
    rw [State.fxSpsend_of_none ready may rd rs1 rs2 unreached]
    exact ⟨State.scRet_went_of_sc rfl rd 1, rfl⟩
  case recv =>
    have core : ((s.modDie d (fun x => { x with spq := r })).setSc d c { s.sc d c with vgsrc := BitVec.ofNat 32 src }).sc d c =
        { s.sc d c with vgsrc := BitVec.ofNat 32 src } := by rw [State.sc_setSc, if_pos ⟨rfl, rfl⟩]
    obtain ⟨xs, frame⟩ := SCore.setX_frame { s.sc d c with vgsrc := BitVec.ofNat 32 src } rd.toNat (BitVec.ofNat 64 v.toNat)
    rw [State.fxSprecv_cons ready may rd q]
    refine ⟨State.scRet_went (by rw [core]) (by rw [core]) (by rw [core]) _ _, ?_, ?_⟩
    · rw [State.sc_scRet, core, frame]
    · rw [State.scRet, State.die_setSc, if_pos rfl, State.die_setSc, if_pos rfl, State.die_modDie, if_pos rfl]
  case recvEmpty =>
    have core : (s.setSc d c { s.sc d c with vgsrc := 0xFFFFFFFF#32 }).sc d c = { s.sc d c with vgsrc := 0xFFFFFFFF#32 } := by
      rw [State.sc_setSc, if_pos ⟨rfl, rfl⟩]
    obtain ⟨xs, frame⟩ := SCore.setX_frame { s.sc d c with vgsrc := 0xFFFFFFFF#32 } rd.toNat (BitVec.ofNat 64 0)
    rw [State.fxSprecv_nil ready may rd empty]
    refine ⟨State.scRet_went (by rw [core]) (by rw [core]) (by rw [core]) _ _, ?_, ?_⟩
    · rw [State.sc_scRet, core, frame]
    · rw [State.scRet, State.die_setSc, if_pos rfl, State.die_setSc, if_pos rfl, empty]

end Sys2Proof.Machine
end

section
/-! The S-cores' place-control instructions, their barrier timeouts, traps and control register (spec/06 R183-R189, spec/11 R339; O22). -/

namespace Sys2Proof.Machine

-- Instructions ---------------------------------------------------------------------------------------------------------------------------

section
variable {s : State} {d c : Nat} (hd : d < 576) (hc : c < 4) (rd rs1 rs2 : BitVec 5)
include hd hc

theorem execPlArm_eq : exec (.plArm d c rd rs1 rs2) s = .next (s.plArm d c rd rs1 rs2) := if_pos (wf_score hd hc)
theorem execPlStop_eq : exec (.plStop d c rd rs1) s = .next (s.plStop d c rd rs1) := if_pos (wf_score hd hc)
theorem execPlStat_eq : exec (.plStat d c rd rs1) s = .next (s.plStat d c rd rs1) := if_pos (wf_score hd hc)
theorem execBarrierTimeout_eq : exec (.barrierTimeout d c) s = .next (s.barTimeout d c) := if_pos (wf_score hd hc)
theorem execSCoreTrap_eq : exec (.sCoreTrap d c) s = .next (s.monitorTrap d c) := if_pos (wf_score hd hc)

end

section
variable {s : State} {d c : Nat} (ready : s.scReady d c = true)
include ready

/-- R184: in user mode a PL instruction is illegal, and an FX instruction without vgfx.U. -/
theorem State.plOp_traps (user : (s.sc d c).mode = 0) (f : State → State) : s.ScTrapped (s.plOp d c f) d c .illegalInstruction 0 := by
  rw [State.plOp, if_pos ready, if_pos user]
  exact s.scTrapAt_trapped d c .illegalInstruction 0
theorem State.fxOp_traps (user : (s.sc d c).mode = 0) (closed : (s.sc d c).vgfx = false) (f : State → State) :
    s.ScTrapped (s.fxOp d c f) d c .illegalInstruction 0 := by
  rw [State.fxOp, if_pos ready, if_pos ⟨user, closed⟩]
  exact s.scTrapAt_trapped d c .illegalInstruction 0
theorem State.plOp_of_mode (mode : (s.sc d c).mode ≠ 0) (f : State → State) : s.plOp d c f = f s := by
  rw [State.plOp, if_pos ready, if_neg mode]

end

-- The place of an instruction (spec/06 R184, R185) ------------------------------------------------------------------------------------------

/-- What PL.ARM and PL.STOP do once they have taken their place. -/
def State.armTaken (s : State) (d c : Nat) (rd : BitVec 5) (p slot g : Nat) : State :=
  if !s.jobHas d then s.scRet d c rd 3
  else if ((s.place d p).st ≠ .idle ∧ (s.place d p).st ≠ .done) ∨ s.rgB d CD_SPAD_STATUS 3 = true then s.scRet d c rd 1
  else if g ≠ s.rgF d CD_PL_CTRL 3 0 then s.scRet d c rd 2
  else (s.armPlace d p slot g).scRet d c rd 0
def State.stopTaken (s : State) (d c : Nat) (rd : BitVec 5) (p : Nat) : State :=
  let ran := decide ((s.place d p).st = .running)
  if (s.place d p).st = .armed ∨ ran then
    let s2 := ((s.modPlace d p (fun x => { x with st := .halted, stopAt := some (s.ccountOf d, c, rd.toNat, ran) })).setPend d p).scRet d c rd 0
    let s3 := if ran then s2.raise d 0x2132 (unitCore d p) 0 else s2
    match s3.partOfNode d with
    | some q => s3.drainBegin q
    | none => s3
  else s.scRet d c rd 1

section
variable {s : State} {d c : Nat} (ready : s.scReady d c = true) (mode : (s.sc d c).mode ≠ 0) (rd rs1 rs2 : BitVec 5) {a p : Nat}
  (ha : ((s.sc d c).getX rs1.toNat).toNat = a) (hp : a % 32 = p)
include ready mode ha hp

/-- R184: no place has a number above 24. -/
theorem State.plArm_beyond (far : 25 ≤ p) : s.plArm d c rd rs1 rs2 = s.scRet d c rd 3 := by
  subst ha hp
  rw [State.plArm, State.plOp_of_mode ready mode]
  exact if_pos far
theorem State.plStop_beyond (far : 25 ≤ p) : s.plStop d c rd rs1 = s.takeFree.scRet d c rd s.freeVal := by
  subst ha hp
  rw [State.plStop, State.plOp_of_mode ready mode]
  exact if_pos far
theorem State.plStat_beyond (far : 25 ≤ p) : s.plStat d c rd rs1 = s.takeFree.scRet d c rd s.freeVal := by
  subst ha hp
  rw [State.plStat, State.plOp_of_mode ready mode]
  exact if_pos far

variable (within : p < 25)
include within

/-- R185: the lower-numbered S-core has the place. -/
theorem State.plArm_contended (other : s.contended d p c = true) : s.plArm d c rd rs1 rs2 = s.scRet d c rd 4 := by
  subst ha hp
  rw [State.plArm, State.plOp_of_mode ready mode]
  exact (if_neg (Nat.not_le.2 within)).trans (if_pos other)
theorem State.plStop_contended (other : s.contended d p c = true) : s.plStop d c rd rs1 = s.scRet d c rd 4 := by
  subst ha hp
  rw [State.plStop, State.plOp_of_mode ready mode]
  exact (if_neg (Nat.not_le.2 within)).trans (if_pos other)

theorem State.plArm_taken (own : s.contended d p c = false) : s.plArm d c rd rs1 rs2 =
    (s.takePlace d p c rd.toNat).armTaken d c rd p (a / 256 % 8) (((s.sc d c).getX rs2.toNat).toNat % 16) := by
  subst ha hp
  rw [State.plArm, State.plOp_of_mode ready mode]
  refine (if_neg (Nat.not_le.2 within)).trans ((if_neg (Bool.eq_false_iff.1 own)).trans ?_)
  rw [State.armTaken, ← Nat.shiftRight_eq_div_pow _ 8]
  rfl
theorem State.plStop_taken (own : s.contended d p c = false) : s.plStop d c rd rs1 = (s.takePlace d p c rd.toNat).stopTaken d c rd p := by
  subst ha hp
  rw [State.plStop, State.plOp_of_mode ready mode]
  exact (if_neg (Nat.not_le.2 within)).trans (if_neg (Bool.eq_false_iff.1 own))

/-- PL.STAT reads the place as it stood before the PL.ARM and PL.STOP of the cycle. -/
theorem State.plStat_alone (alone : ∀ c' n v, (s.place d p).plUse = some (c', n, v) → n ≠ s.ccountOf d) :
    s.plStat d c rd rs1 = s.scRet d c rd (s.place d p).stat := by
  subst ha hp
  rw [State.plStat, State.plOp_of_mode ready mode]
  refine (if_neg (Nat.not_le.2 within)).trans ?_
  split
  · rename_i c' n v used
    rw [if_neg (alone c' n v used)]
    rfl
  · rfl

end

-- Taking the place ---------------------------------------------------------------------------------------------------------------------------

section
variable {s : State} {d p c : Nat}

/-- No S-core has had the place in this cycle: none contends for it, none gives it up. -/
theorem State.contended_of_alone (alone : ∀ c' n v, (s.place d p).plUse = some (c', n, v) → n ≠ s.ccountOf d) : s.contended d p c = false := by
  unfold State.contended
  split
  · rename_i c' n v used
    rw [decide_eq_false (alone c' n v used), Bool.false_and]
  · rfl
/-- A higher-numbered S-core does not keep the place from a lower-numbered one. -/
theorem State.contended_of_higher {c' n v : Nat} (used : (s.place d p).plUse = some (c', n, v)) (higher : c < c') : s.contended d p c = false := by
  unfold State.contended
  simp only [used]
  rw [decide_eq_false (Nat.not_lt.2 higher.le), Bool.and_false]
theorem State.plGiveUp_of_alone (alone : ∀ c' n v, (s.place d p).plUse = some (c', n, v) → n ≠ s.ccountOf d) : s.plGiveUp d p c = s := by
  unfold State.plGiveUp
  split
  · rename_i c' n v u used _
    exact if_neg (fun h => alone c' n v used h.1)
  · rfl

/-- Taking a place that none has had notes who has it: the die and the place stand otherwise. -/
theorem State.takePlace_of_alone (alone : ∀ c' n v, (s.place d p).plUse = some (c', n, v) → n ≠ s.ccountOf d) (rd : Nat) :
    ∃ u z, s.takePlace d p c rd = (s.modDie d (fun x => { x with plUndo := u })).modPlace d p (fun x => { x with plUse := z }) := by
  unfold State.takePlace
  rw [State.plGiveUp_of_alone alone]
  exact ⟨sput (s.die d).plUndo p _, some (c, s.ccountOf d, (State.place _ d p).stat), rfl⟩

theorem State.sc_modPlace (s : State) (e q : Nat) (f : Place → Place) (d k : Nat) : (s.modPlace e q f).sc d k = s.sc d k := State.sc_modDie rfl d k
theorem State.sc_setPend (s : State) (e q d k : Nat) : (s.setPend e q).sc d k = s.sc d k :=
  State.sc_modDie (f := fun x => { x with vgpend := x.vgpend ||| 2 ^ q }) rfl d k
theorem State.sc_takePlace (s : State) (d p c rd k : Nat) : (s.takePlace d p c rd).sc d k = (s.plGiveUp d p c).sc d k :=
  (State.sc_modPlace ..).trans (State.sc_modDie rfl d k)

/-- A higher-numbered S-core that had the place reads 4 in the register of its instruction. -/
theorem State.getX_plGiveUp {c' v : Nat} {u : PlUndo} (used : (s.place d p).plUse = some (c', s.ccountOf d, v)) (higher : c < c')
    (undo : sfind (s.die d).plUndo p = some u) (named : 0 < u.rd) : ((s.plGiveUp d p c).sc d c').getX u.rd = 4#64 := by
  have core : ∀ (t : State) (y : SCore), ((t.setSc d c' (y.setX u.rd 4#64)).sc d c').getX u.rd = 4#64 := fun t y => by
    rw [State.sc_setSc, if_pos ⟨rfl, rfl⟩, SCore.getX_setX, if_pos ⟨rfl, named.ne'⟩]
  unfold State.plGiveUp
  simp only [used, undo]
  rw [if_pos ⟨trivial, higher⟩]
  split
  · exact core _ _
  · exact core _ _

/-- An armed place: its slot, its generation, and a mark of the scratchpad's status. -/
theorem State.armPlace_frame (s : State) (d p slot g : Nat) : ∃ x r, s.armPlace d p slot g = (s.setPlace d p x).setRg d CD_SPAD_STATUS r ∧
    x.st = .armed ∧ x.slot = slot ∧ x.gen = g := ⟨_, _, rfl, rfl, rfl, rfl⟩
theorem State.sc_armPlace (s : State) (d p slot g k : Nat) : (s.armPlace d p slot g).sc d k = s.sc d k := by
  obtain ⟨x, r, armed, -⟩ := s.armPlace_frame d p slot g
  rw [armed]
  exact State.sc_modDie (f := (·.setPlace p x)) rfl d k
theorem State.sc_scRet_other (s : State) (d c : Nat) (rd : BitVec 5) (v : Nat) {k : Nat} (other : k ≠ c) : (s.scRet d c rd v).sc d k = s.sc d k := by
  rw [State.scRet, State.sc_setSc, if_neg (fun h => other h.2)]

/-- The beginning of a drain is noted in the partition alone. -/
theorem State.drainBegin_frame (s : State) (q : Nat) : ∃ ps, s.drainBegin q = { s with parts := ps } := by
  unfold State.drainBegin
  split
  · exact ⟨s.parts, rfl⟩
  · dsimp only
    split
    · exact ⟨_, rfl⟩
    · exact ⟨s.parts, rfl⟩

/-- A place that PL.STOP halts: it halts and its bit of vgpend is set; what is beyond the die goes to the partition and the PCD. -/
theorem State.stopTaken_halts (s : State) (c : Nat) (rd : BitVec 5) (active : (s.place d p).st = .armed ∨ (s.place d p).st = .running) :
    ∃ z ps q, s.stopTaken d c rd p =
      { ((s.modPlace d p (fun x => { x with st := .halted, stopAt := z })).setPend d p).scRet d c rd 0 with parts := ps, pcd := q } := by
  unfold State.stopTaken
  rw [if_pos (by simpa using active)]
  refine ⟨some (s.ccountOf d, c, rd.toNat, decide ((s.place d p).st = .running)), ?_⟩
  dsimp only
  generalize ((s.modPlace d p _).setPend d p).scRet d c rd 0 = t
  obtain ⟨q', raised⟩ : ∃ q', (if decide ((s.place d p).st = .running) = true then t.raise d 0x2132 (unitCore d p) 0 else t) = { t with pcd := q' } := by
    split
    · exact ⟨_, rfl⟩
    · exact ⟨t.pcd, rfl⟩
  rw [raised]
  split
  · rename_i n _
    obtain ⟨ps, begun⟩ := State.drainBegin_frame { t with pcd := q' } n
    exact ⟨ps, q', begun⟩
  · exact ⟨t.parts, q', rfl⟩
theorem State.stopTaken_refuses (s : State) (c : Nat) (rd : BitVec 5) (idle : (s.place d p).st ≠ .armed) (done : (s.place d p).st ≠ .running) :
    s.stopTaken d c rd p = s.scRet d c rd 1 := by
  rw [State.stopTaken]
  exact if_neg (by simp [idle, done])

/-- What follows changes no other S-core. -/
theorem State.sc_armTaken (s : State) (slot g : Nat) (rd : BitVec 5) {k : Nat} (other : k ≠ c) :
    (s.armTaken d c rd p slot g).sc d k = s.sc d k := by
  unfold State.armTaken
  split
  · exact State.sc_scRet_other s d c rd 3 other
  · split
    · exact State.sc_scRet_other s d c rd 1 other
    · split
      · exact State.sc_scRet_other s d c rd 2 other
      · rw [State.sc_scRet_other _ d c rd 0 other, State.sc_armPlace]
theorem State.sc_stopTaken (s : State) (rd : BitVec 5) {k : Nat} (other : k ≠ c) : (s.stopTaken d c rd p).sc d k = s.sc d k := by
  by_cases active : (s.place d p).st = .armed ∨ (s.place d p).st = .running
  · obtain ⟨z, ps, q, halts⟩ := s.stopTaken_halts c rd active
    rw [halts]
    exact (State.sc_scRet_other _ d c rd 0 other).trans ((State.sc_setPend ..).trans (State.sc_modPlace ..))
  · rw [not_or] at active
    rw [State.stopTaken_refuses s c rd active.1 active.2, State.sc_scRet_other s d c rd 1 other]

/-- An S-core has taken a place that none had: who has it is noted; S-cores, registers, jobs and the place itself stand. -/
structure State.Took (s t : State) (d p : Nat) : Prop where
  sc : ∀ k, t.sc d k = s.sc d k
  own : ∃ z, t.place d p = { s.place d p with plUse := z }
  others : ∀ q, q ≠ p → t.place d q = s.place d q
  job : t.jobHas d = s.jobHas d
  rg : ∀ n o, t.rg n o = s.rg n o

theorem State.takePlace_took (alone : ∀ c' n v, (s.place d p).plUse = some (c', n, v) → n ≠ s.ccountOf d) (rd : Nat) :
    s.Took (s.takePlace d p c rd) d p := by
  have sc := fun k => (s.sc_takePlace d p c rd k).trans (by rw [State.plGiveUp_of_alone alone])
  have place : ∀ u q, (s.modDie d (fun x => { x with plUndo := u })).place d q = s.place d q := fun u q =>
    (State.place_modDie ..).trans rfl
  obtain ⟨u, z, taken⟩ := State.takePlace_of_alone (c := c) alone rd
  refine ⟨sc, ⟨z, ?_⟩, fun q other => ?_, ?_, fun n o => ?_⟩ <;> rw [taken]
  · rw [State.place_modPlace, if_pos ⟨rfl, rfl⟩, place]
  · rw [State.place_modPlace, if_neg (fun h => other h.2), place]
  · rfl
  · rfl

section
variable {t : State} (h : s.Took t d p) (rd : BitVec 5)
include h

theorem State.Took.st : (t.place d p).st = (s.place d p).st := by
  obtain ⟨z, own⟩ := h.own
  rw [own]
theorem State.Took.slot : (t.place d p).slot = (s.place d p).slot := by
  obtain ⟨z, own⟩ := h.own
  rw [own]
theorem State.Took.ready : t.rgB d CD_SPAD_STATUS 3 = s.rgB d CD_SPAD_STATUS 3 := by rw [State.rgB, h.rg]; rfl
theorem State.Took.generation : t.rgF d CD_PL_CTRL 3 0 = s.rg d CD_PL_CTRL % 16 := by rw [State.rgF, h.rg]; rfl
theorem State.Took.went (v : Nat) : s.ScWent (t.scRet d c rd v) d c rd v := State.scRet_went_of_sc (h.sc c) rd v

/-- R184: an idle or done place of the job is armed with its slot and generation. -/
theorem State.Took.arms (slot : Nat) (job : s.jobHas d = true) (idle : (s.place d p).st = .idle ∨ (s.place d p).st = .done)
    (loaded : s.rgB d CD_SPAD_STATUS 3 = false) :
    let g := s.rg d CD_PL_CTRL % 16
    let u := t.armTaken d c rd p slot g
    s.ScWent u d c rd 0 ∧ (u.place d p).st = .armed ∧ (u.place d p).slot = slot ∧ (u.place d p).gen = g ∧
      ∀ q, q ≠ p → u.place d q = s.place d q := by
  intro g u
  have armed : u = (t.armPlace d p slot g).scRet d c rd 0 := by
    simp only [u, State.armTaken]
    rw [h.job, job, h.st, h.ready, loaded, h.generation, if_neg (by decide), if_neg (by simpa [or_iff_not_imp_left] using idle), if_neg (not_not.2 rfl)]
  obtain ⟨x, r, arm, st, slot', gen⟩ := t.armPlace_frame d p slot g
  have place : ∀ q, u.place d q = if q = p then x else t.place d q := fun q => by
    rw [armed, arm, State.scRet, State.place_setSc, State.place_setRg, State.place_setPlace]
    simp
  refine ⟨?_, ?_, ?_, ?_, fun q other => ?_⟩
  · rw [armed]
    exact State.scRet_went_of_sc ((t.sc_armPlace ..).trans (h.sc c)) rd 0
  · rw [place, if_pos rfl, st]
  · rw [place, if_pos rfl, slot']
  · rw [place, if_pos rfl, gen]
  · rw [place, if_neg other, h.others q other]
/-- R184, R206: it refuses a die without a job, a place that is not idle, one whose scratchpad is not ready, another generation. -/
theorem State.Took.refuses (slot g : Nat) (why : s.jobHas d = false ∨ (s.place d p).st = .armed ∨ (s.place d p).st = .running ∨
      (s.place d p).st = .halted ∨ s.rgB d CD_SPAD_STATUS 3 = true ∨ g ≠ s.rg d CD_PL_CTRL % 16) :
    t.armTaken d c rd p slot g = t.scRet d c rd (if s.jobHas d = false then 3
      else if (s.place d p).st = .armed ∨ (s.place d p).st = .running ∨ (s.place d p).st = .halted ∨ s.rgB d CD_SPAD_STATUS 3 = true then 1
      else 2) := by
  unfold State.armTaken
  rw [h.job, h.st, h.ready, h.generation]
  cases job : s.jobHas d with
  | false => rfl
  | true =>
    simp only [Bool.not_true, Bool.false_eq_true, Bool.true_eq_false, if_false]
    have busy : ((s.place d p).st ≠ .idle ∧ (s.place d p).st ≠ .done) ↔
        ((s.place d p).st = .armed ∨ (s.place d p).st = .running ∨ (s.place d p).st = .halted) := by
      cases (s.place d p).st <;> decide
    by_cases first : (s.place d p).st = .armed ∨ (s.place d p).st = .running ∨ (s.place d p).st = .halted ∨ s.rgB d CD_SPAD_STATUS 3 = true
    · rw [if_pos (by rw [busy]; tauto), if_pos first]
    · rw [if_neg (by rw [busy]; tauto), if_neg first, if_pos (by rw [job] at why; tauto)]
theorem State.Took.stops (active : (s.place d p).st = .armed ∨ (s.place d p).st = .running) :
    let u := t.stopTaken d c rd p
    s.ScWent u d c rd 0 ∧ (u.place d p).st = .halted ∧ ∀ q, q ≠ p → u.place d q = s.place d q := by
  obtain ⟨z, ps, n, halts⟩ := t.stopTaken_halts (d := d) (p := p) c rd (by rwa [h.st])
  have place : ∀ q, (t.stopTaken d c rd p).place d q = if q = p then { t.place d p with st := .halted, stopAt := z } else t.place d q := fun q => by
    rw [halts]
    refine (State.place_setSc ..).trans ((State.place_setPend ..).trans ?_)
    rw [State.place_modPlace]
    simp
  refine ⟨?_, ?_, fun q other => ?_⟩
  · rw [halts]
    have core := fun f => ((State.sc_setPend (t.modPlace d p f) d p d c).trans (State.sc_modPlace ..)).trans (h.sc c)
    exact (State.scRet_went_of_sc (core _) rd 0).of_sc rfl
  · rw [place, if_pos rfl]
  · rw [place, if_neg other, h.others q other]

end

end

-- Timeouts, traps and control (spec/06 R188, R189, spec/11 R339) -----------------------------------------------------------------------------

section
variable {s : State} {d c : Nat}

/-- The release that follows the end of an FX.BAR by its timeout is discarded (spec/11 R339). -/
def State.barSkipped (s : State) (d b : Nat) : State :=
  s.modDie d (fun x => if x.barAt.contains b then { x with barSkip := insUniq b x.barSkip } else x)
theorem State.sc_barSkipped (s : State) (d b k : Nat) : (s.barSkipped d b).sc d k = s.sc d k := by
  refine State.sc_modDie ?_ d k
  split <;> rfl

/-- R339: a timeout that is set ends the FX.BAR with 1. -/
theorem State.barTimeout_of_bar (on : s.coreOn d = true) {b rd : Nat} (bar : (s.sc d c).bar = some (b, rd)) (set : (s.sc d c).vgbartmo ≠ 0#32) :
    s.barTimeout d c = (s.barSkipped d b).barEnd d c 1 := by
  rw [State.barTimeout, if_pos on]
  simp only [bar]
  exact if_neg set
theorem State.barTimeout_idle (h : (s.sc d c).bar = none ∨ (s.sc d c).vgbartmo = 0#32) : s.barTimeout d c = s := by
  unfold State.barTimeout
  split
  · split
    · rename_i b r bar
      rw [bar] at h
      exact if_pos (h.resolve_left nofun)
    · rfl
  · rfl
theorem State.barEnd_of_bar {b rd : Nat} (bar : (s.sc d c).bar = some (b, rd)) (v : Nat) :
    s.barEnd d c v = (s.setSc d c { s.sc d c with bar := none }).scRet d c (BitVec.ofNat 5 rd) v := by
  unfold State.barEnd
  simp only [bar]

/-- R188: the monitor answers a trap of an S-core that runs or waits. -/
theorem State.monitorTrap_live (on : s.coreOn d = true) (live : (s.sc d c).live = true) : s.monitorTrap d c =
    (s.setSc d c { s.sc d c with st := 3, trap := none, mode := 3 }).raise d 0x2130 (unitCore d (25 + c)) 0 := by
  rw [State.monitorTrap, on, live]
  rfl
theorem State.monitorTrap_held (live : (s.sc d c).live = false) : s.monitorTrap d c = s := by
  rw [State.monitorTrap, live, Bool.and_false]
  rfl

theorem execScCtrlWrite_of_reaches {src : Source} {site : Nat} (hc : c < 4) (v : W64) (hsrc : src.ok = true) (hsite : site < 512)
    (reaches : s.reaches src site d) : exec (.scCtrlWrite src site c v) s = .next (if src = .pcd then s.scBoot d c v.toNat else s) := by
  have wf : (Instr.scCtrlWrite src site c v).wf = true := by simp [Instr.wf, hsrc, hsite, hc]
  show guard _ _ = _
  rw [wf, State.scCtrl, State.atSite_of_reaches reaches]
  rfl

/-- R189: RUN from 0 to 1 releases the S-core at BOOT_ADDR, RUN = 0 holds it in reset. -/
theorem State.scBoot_release {v : Nat} (run : v.testBit 0 = true) (held : s.rgB d (CD_SC_CTRL c) 0 = false) :
    s.scBoot d c v = (s.setRg d (CD_SC_CTRL c) (v &&& 0xFFFFFFFFFFFFF001)).setSc d c
      { SCore.reset with st := 1, pc := BitVec.ofNat 64 (v / 4096 * 4096) } := by
  simp only [State.scBoot, run, held, if_true]
  rfl
theorem State.scBoot_running {v : Nat} (run : v.testBit 0 = true) (running : s.rgB d (CD_SC_CTRL c) 0 = true) :
    s.scBoot d c v = s.setRg d (CD_SC_CTRL c) (v &&& 0xFFFFFFFFFFFFF001) := by
  simp only [State.scBoot, run, running, if_true]
theorem State.scBoot_hold {v : Nat} (hold : v.testBit 0 = false) :
    s.scBoot d c v = (s.setRg d (CD_SC_CTRL c) (v &&& 0xFFFFFFFFFFFFF001)).setSc d c SCore.reset := by
  simp only [State.scBoot, hold]
  rfl

end

/-- What PL.STAT reads: the place's state, slot and generation (spec/06 R184). -/
theorem Place.stat_eq (x : Place) :
    x.stat = (match x.st with | .idle => 0 | .armed => 1 | .running => 2 | .done => 3 | .halted => 4) + 8 * x.slot + 64 * x.gen := by
  unfold Place.stat
  cases x.st <;> simp only [PState.code] <;> omega

/-- Settles O22: user mode by the trap, a privileged mode by what becomes of the place; the rest by the equations of each command. -/
theorem scoreControl : Obligations.ScoreControl := by
  refine ⟨?places, ?control⟩
  case places =>
    intro s d c rd rs1 rs2 hd hc ready a p g x alone
    have arm := execPlArm_eq (s := s) hd hc rd rs1 rs2
    have stop := execPlStop_eq (s := s) hd hc rd rs1
    have stat := execPlStat_eq (s := s) hd hc rd rs1
    refine ⟨fun user i hi => ?plUser, fun user closed i hi => ?fxUser, fun mode far => ⟨?armFar, fun i hi => ?far⟩,
      fun mode within other i hi => ?contended, fun c' v u mode within used higher undo named i hi => ?givenUp,
      fun mode within free => ?alone⟩
    case plUser =>
      have traps := State.plOp_traps ready user
      fin_cases hi
      · exact ⟨_, arm, traps _⟩
      · exact ⟨_, stop, traps _⟩
      · exact ⟨_, stat, traps _⟩
    case fxUser =>
      have traps := State.fxOp_traps ready user closed
      fin_cases hi
      · exact ⟨_, execFxStart_eq hd hc rd, traps _⟩
      · exact ⟨_, execFxDma_eq hd hc rd rs1 rs2, traps _⟩
      · exact ⟨_, execFxDpoll_eq hd hc rd rs1, traps _⟩
      · exact ⟨_, execFxBar_eq hd hc rd rs1, traps _⟩
      · exact ⟨_, execFxSpsend_eq hd hc rd rs1 rs2, traps _⟩
      · exact ⟨_, execFxSprecv_eq hd hc rd, traps _⟩
    case armFar =>
      rw [State.plArm_beyond ready mode rd rs1 rs2 rfl rfl far] at arm
      exact ⟨_, arm, State.scRet_went_of_sc rfl rd 3, fun q => State.place_setSc ..⟩
    case far =>
      rw [State.plStop_beyond ready mode rd rs1 rfl rfl far] at stop
      rw [State.plStat_beyond ready mode rd rs1 rfl rfl far] at stat
      have leaves : (∃ v, s.ScWent (s.takeFree.scRet d c rd s.freeVal) d c rd v) ∧ ∀ q, (s.takeFree.scRet d c rd s.freeVal).place d q = s.place d q :=
        ⟨⟨_, State.scRet_went_of_sc (s := s) (t := s.takeFree) rfl rd _⟩, fun q => State.place_setSc ..⟩
      fin_cases hi
      · exact ⟨_, stop, leaves⟩
      · exact ⟨_, stat, leaves⟩
    case contended =>
      rw [State.plArm_contended ready mode rd rs1 rs2 rfl rfl within other] at arm
      rw [State.plStop_contended ready mode rd rs1 rfl rfl within other] at stop
      have leaves : s.ScWent (s.scRet d c rd 4) d c rd 4 ∧ ∀ q, (s.scRet d c rd 4).place d q = s.place d q :=
        ⟨State.scRet_went_of_sc rfl rd 4, fun q => State.place_setSc ..⟩
      fin_cases hi
      · exact ⟨_, arm, leaves⟩
      · exact ⟨_, stop, leaves⟩
    case givenUp =>
      have own := State.contended_of_higher used higher
      have reads := (congrArg (SCore.getX · u.rd) (s.sc_takePlace d p c rd.toNat c')).trans (State.getX_plGiveUp used higher undo named)
      rw [State.plArm_taken ready mode rd rs1 rs2 rfl rfl within own] at arm
      rw [State.plStop_taken ready mode rd rs1 rfl rfl within own] at stop
      fin_cases hi
      · exact ⟨_, arm, (congrArg (SCore.getX · u.rd) (State.sc_armTaken _ _ _ rd higher.ne')).trans reads⟩
      · exact ⟨_, stop, (congrArg (SCore.getX · u.rd) (State.sc_stopTaken _ rd higher.ne')).trans reads⟩
    case alone =>
      have own := State.contended_of_alone (c := c) free
      have took := State.takePlace_took (c := c) free rd.toNat
      rw [State.plArm_taken ready mode rd rs1 rs2 rfl rfl within own] at arm
      rw [State.plStop_taken ready mode rd rs1 rfl rfl within own] at stop
      rw [State.plStat_alone ready mode rd rs1 rfl rfl within free, Place.stat_eq] at stat
      refine ⟨fun job idle loaded gen => ⟨_, arm, ?arms⟩, fun why => ⟨_, arm, ?refuses⟩, fun active => ⟨_, stop, took.stops rd active⟩,
        fun idle done => ⟨_, stop, ?stopRefuses⟩, ⟨_, stat, State.place_setSc .., State.scRet_went_of_sc rfl rd _⟩⟩
      case arms =>
        have arms := took.arms (c := c) rd (a / 256 % 8) job idle loaded
        rwa [← gen] at arms
      case refuses =>
        rw [took.refuses rd _ _ why]
        exact ⟨(congrArg Place.st (State.place_setSc ..)).trans took.st, (congrArg Place.slot (State.place_setSc ..)).trans took.slot, took.went rd _⟩
      case stopRefuses =>
        rw [State.stopTaken_refuses _ c rd (by rwa [took.st]) (by rwa [took.st])]
        exact ⟨took.went rd 1, (congrArg Place.st (State.place_setSc ..)).trans took.st⟩
  case control =>
    intro s d c hd hc on
    refine ⟨fun b rd _ bar set => ⟨_, execBarrierTimeout_eq hd hc, ?timeout⟩, fun idle => ?idle, fun live => ⟨_, execSCoreTrap_eq hd hc, ?trap⟩,
      fun held => ?held, fun src site v hsrc hsite reaches => ?ctrl⟩
    case timeout =>
      have core : (s.barSkipped d b).sc d c = s.sc d c := State.sc_barSkipped ..
      have ended := (State.sc_setSc (s.barSkipped d b) d c d c { (s.barSkipped d b).sc d c with bar := none }).trans (if_pos ⟨rfl, rfl⟩)
      obtain ⟨xs, frame⟩ := SCore.setX_frame { (s.barSkipped d b).sc d c with bar := none } (BitVec.ofNat 5 rd).toNat (BitVec.ofNat 64 1)
      rw [State.barTimeout_of_bar on bar set, State.barEnd_of_bar (core ▸ bar)]
      refine ⟨State.scRet_went ?_ ?_ ?_ _ _, ?_, ⟨rfl, rfl, rfl, rfl, rfl, rfl, rfl, rfl, rfl, rfl⟩⟩
      · rw [ended, core]
      · rw [ended, core]
      · rw [ended, core]
      · rw [State.sc_scRet, ended, frame]
    case idle => rw [execBarrierTimeout_eq hd hc, State.barTimeout_idle idle]
    case trap =>
      rw [State.monitorTrap_live on live]
      have core := (State.sc_setSc s d c d c { s.sc d c with st := 3, trap := none, mode := 3 }).trans (if_pos ⟨rfl, rfl⟩)
      exact ⟨congrArg SCore.st core, congrArg SCore.trap core, ⟨_, rfl, rfl, rfl⟩, ⟨rfl, rfl, rfl, rfl, rfl, rfl, rfl, rfl, rfl, rfl⟩⟩
    case held => rw [execSCoreTrap_eq hd hc, State.monitorTrap_held held]
    case ctrl =>
      have written := execScCtrlWrite_of_reaches hc v hsrc hsite reaches
      refine ⟨fun other => ?_, fun active run released => ⟨_, written, ?_⟩, fun active run running => ⟨_, written, ?_⟩,
        fun active hold => ⟨_, written, ?_⟩⟩
      · rw [written, if_neg other]
      · rw [if_pos active, State.scBoot_release run released]
        exact ⟨(State.sc_setSc ..).trans (if_pos ⟨rfl, rfl⟩), ⟨rfl, rfl, rfl, rfl, rfl, rfl, rfl, rfl, rfl, rfl⟩⟩
      · rw [if_pos active, State.scBoot_running run running]
        exact ⟨rfl, ⟨rfl, rfl, rfl, rfl, rfl, rfl, rfl, rfl, rfl, rfl⟩⟩
      · rw [if_pos active, State.scBoot_hold hold]
        exact ⟨(State.sc_setSc ..).trans (if_pos ⟨rfl, rfl⟩), ⟨rfl, rfl, rfl, rfl, rfl, rfl, rfl, rfl, rfl, rfl⟩⟩

end Sys2Proof.Machine
end

section
/-! Places and turns: their ends and starts, the loading of turn images, the switch of turns (spec/06 R183, spec/08 R228, R229, R231, R236, R251,
spec/09 R258; O25). -/

namespace Sys2Proof.Machine

-- Faults that halt a place (spec/06 R183) ------------------------------------------------------------------------------------------------

theorem Die.cutRuns_frame (x : Die) (p c : Nat) :
    ∃ rs ms vs sc, x.cutRuns p c = { x with runs := rs, mcs := ms, vcs := vs, scr := sc } := by
  unfold Die.cutRuns
  dsimp only
  split
  · exact ⟨_, _, x.vcs, x.scr, rfl⟩
  · split
    · exact ⟨_, x.mcs, _, x.scr, rfl⟩
    · exact ⟨_, x.mcs, x.vcs, _, rfl⟩

/-- The registers of the fault record of places (spec/08 R254). -/
def plRecordRegs : List Nat := [CD_PL_FAULT_INFO, CD_PL_FAULT_ENTRY, CD_PL_FAULT_PTC]

/-- Place p of die d begins, ends or halts: of its die its other places stand, and all but its cores' commands and vgpend; of the registers all but
the fault record of places. -/
structure State.TurnOnly (s t : State) (d p : Nat) : Prop where
  others : ∀ q, q ≠ p → t.place d q = s.place d q
  die : ∃ ps rs ms vs sc vp, t.die d = { s.die d with places := ps, runs := rs, mcs := ms, vcs := vs, scr := sc, vgpend := vp }
  rg : ∀ n o, (∀ q ∈ plRecordRegs, rkey n o ≠ rkey d q) → t.rg n o = s.rg n o

section
variable {s t u : State} {d p : Nat}

namespace State.TurnOnly

theorem refl (s : State) (d p : Nat) : s.TurnOnly s d p := ⟨fun _ _ => rfl, ⟨_, _, _, _, _, _, rfl⟩, fun _ _ _ => rfl⟩
theorem trans (h : s.TurnOnly t d p) (k : t.TurnOnly u d p) : s.TurnOnly u d p := by
  obtain ⟨_, _, _, _, _, _, hd⟩ := h.die
  obtain ⟨_, _, _, _, _, _, kd⟩ := k.die
  exact ⟨fun q hq => (k.others q hq).trans (h.others q hq), ⟨_, _, _, _, _, _, by rw [kd, hd]⟩, fun n o hq => (k.rg n o hq).trans (h.rg n o hq)⟩
theorem setPlace (s : State) (d p : Nat) (x : Place) : s.TurnOnly (s.setPlace d p x) d p := by
  refine ⟨fun q hq => ?_, ⟨_, _, _, _, _, _, (State.die_modDie ..).trans (if_pos rfl)⟩, fun _ _ _ => rfl⟩
  rw [State.place_setPlace, if_neg (fun h => hq h.2)]
theorem raise (s : State) (d p n code unit data : Nat) : s.TurnOnly (s.raise n code unit data) d p :=
  ⟨fun _ _ => rfl, ⟨_, _, _, _, _, _, rfl⟩, fun _ _ _ => rfl⟩
theorem plRecord (s : State) (d p kind place slot cause lane entry : Nat) :
    s.TurnOnly (s.plRecord d kind place slot cause lane entry) d p := by
  unfold State.plRecord
  split
  · exact .refl s d p
  · refine ⟨fun _ _ => rfl, ⟨_, _, _, _, _, _, rfl⟩, fun n o hq => ?_⟩
    rw [State.rg_setRg, if_neg (hq _ (by simp [plRecordRegs])), State.rg_setRg, if_neg (hq _ (by simp [plRecordRegs])), State.rg_setRg,
      if_neg (hq _ (by simp [plRecordRegs]))]

end State.TurnOnly

/-- A fault on a place that is not halted halts it, and marks it so. -/
theorem State.faultHalt_live (live : (s.place d p).st ≠ .halted) :
    let t := s.faultHalt d p
    t.place d p = { s.place d p with st := .halted, faulted := true } ∧ s.TurnOnly t d p ∧ t.pcd = s.pcd ∧ t.regs = s.regs := by
  intro t
  let s1 := s.modPlace d p (fun x => { x with st := .halted })
  let s2 := s1.modDie d (fun x => x.cutRuns p x.cyc)
  have halted : t = ((s2.setPend d p).modPlace d p (fun x => { x with faulted := true })) := by
    simp only [t, State.faultHalt, State.haltPlace]
    rw [if_neg live, if_neg live]
  have place : ∀ q, (s2.setPend d p).place d q = s1.place d q := fun q =>
    (State.place_setPend ..).trans (State.place_modDie_of_place (fun x => x.place_cutRuns ..) s1 d)
  have cut : s1.TurnOnly (s2.setPend d p) d p := by
    refine ⟨fun q _ => place q, ?_, fun _ _ _ => rfl⟩
    obtain ⟨rs, ms, vs, sc, hc⟩ := (s1.die d).cutRuns_frame p (s1.die d).cyc
    refine ⟨(s1.die d).places, rs, ms, vs, sc, (s1.die d).vgpend ||| 2 ^ p, ?_⟩
    rw [State.setPend, State.die_modDie, if_pos rfl, State.die_modDie, if_pos rfl, hc]
  rw [halted]
  refine ⟨?_, (State.TurnOnly.setPlace s d p _).trans (cut.trans (.setPlace _ d p _)), rfl, rfl⟩
  rw [State.place_modPlace, if_pos ⟨rfl, rfl⟩, place, State.place_modPlace, if_pos ⟨rfl, rfl⟩]

theorem State.plRecord_frame (s : State) (d kind place slot cause lane entry : Nat) :
    ∃ r, s.plRecord d kind place slot cause lane entry = { s with regs := r } := by
  unfold State.plRecord
  split
  · exact ⟨s.regs, rfl⟩
  · exact ⟨_, rfl⟩

/-- R231, R254: a fault of the sequencer halts its place, is reported as 0x2153, and its cause recorded where the record is free. -/
theorem State.seqFault_live (live : (s.place d p).st ≠ .halted) (slot cause entry : Nat) :
    let t := s.seqFault d p slot cause entry
    t.place d p = { s.place d p with st := .halted, faulted := true } ∧ s.TurnOnly t d p ∧
      (∃ a, t.pcd.alerts = s.pcd.alerts ++ [a] ∧ a.code = 0x2153 ∧ a.node = d) ∧
      (s.rgB d CD_PL_FAULT_INFO 31 = false → cause < 16 → t.rgF d CD_PL_FAULT_INFO 19 16 = cause) := by
  obtain ⟨place, only, pcd, regs⟩ := State.faultHalt_live live
  obtain ⟨r, recorded⟩ := (s.faultHalt d p).plRecord_frame d 0 p slot cause 0 entry
  refine ⟨?_, only.trans ((State.TurnOnly.plRecord _ d p 0 p slot cause 0 entry).trans (.raise _ d p d 0x2153 (unitCore d p) 0)), ?_, fun free small => ?_⟩
  · rw [State.seqFault, State.place_raise, recorded]
    exact place
  · rw [State.seqFault, recorded, ← pcd]
    exact ⟨_, rfl, rfl, rfl⟩
  · have info : ((s.faultHalt d p).plRecord d 0 p slot cause 0 entry).rg d CD_PL_FAULT_INFO =
        2 ^ 31 + 0 * 2 ^ 28 + p * 2 ^ 23 + slot * 2 ^ 20 + cause * 2 ^ 16 + 0 := by
      have free' : (s.faultHalt d p).rgB d CD_PL_FAULT_INFO 31 = false := by
        rw [State.rgB, State.rg, regs]
        exact free
      rw [State.plRecord, free', if_neg (by decide)]
      simp [CD_PL_FAULT_INFO, CD_PL_FAULT_ENTRY, CD_PL_FAULT_PTC]
    show bits (((s.faultHalt d p).plRecord d 0 p slot cause 0 entry).rg d CD_PL_FAULT_INFO) 19 16 = cause
    rw [info, bits, Nat.shiftRight_eq_div_pow]
    omega

-- The beginning of a turn (spec/08 R228, R229, R231) ---------------------------------------------------------------------------------------

/-- The error check of turn memory corrects its bytes: the place goes on as it was. -/
theorem State.turnEcc_only (s : State) (d p slot : Nat) :
    s.TurnOnly (s.turnEcc d p slot).1 d p ∧ ((s.turnEcc d p slot).1.place d p).st = (s.place d p).st := by
  unfold State.turnEcc
  refine List.foldlRecOn (motive := fun b : State × Bool => s.TurnOnly b.1 d p ∧ (b.1.place d p).st = (s.place d p).st) _ _
    ⟨.refl s d p, rfl⟩ fun b hb e _ => ?_
  obtain ⟨only, st⟩ := hb
  dsimp only
  split
  · exact ⟨only, st⟩
  · refine ⟨only.trans (.setPlace _ d p _), ?_⟩
    rw [State.place_modPlace, if_pos ⟨rfl, rfl⟩]
    exact st
  · exact ⟨only, st⟩
theorem State.turnEcc_clean (clean : (s.place d p).memErr = []) (slot : Nat) : s.turnEcc d p slot = (s, false) := by
  unfold State.turnEcc
  simp only [clean, List.filter_nil, List.foldl_nil]

section
variable {slot nominal : Nat}

/-- R229: a slot that is still loading stalls the place. -/
theorem State.beginTurn_loading (loading : (s.place d p).loading.testBit slot = true) :
    s.beginTurn d p slot nominal = s.setPlace d p { s.place d p with st := .running, slot := slot, base := nominal, waitLoad := true } := by
  rw [State.beginTurn]
  exact if_pos loading
/-- R231: a turn without a fault begins at its first entry; one with a fault halts its place. -/
theorem State.beginTurn_runs (loaded : (s.place d p).loading.testBit slot = false) (clean : (s.place d p).memErr = [])
    (sound : lowestFault (s.turnFaults d p slot) = none) : s.beginTurn d p slot nominal =
      s.setPlace d p { s.place d p with st := .running, slot := slot, base := nominal, waitLoad := false, entry := 0 } := by
  unfold State.beginTurn
  simp only [loaded, Bool.false_eq_true, if_false, State.turnEcc_clean clean, sound]
  rfl
theorem State.beginTurn_faults {n e : Nat} (loaded : (s.place d p).loading.testBit slot = false) (clean : (s.place d p).memErr = [])
    (fault : lowestFault (s.turnFaults d p slot) = some (n, e)) : s.beginTurn d p slot nominal = s.seqFault d p slot n e := by
  unfold State.beginTurn
  simp only [loaded, Bool.false_eq_true, if_false, State.turnEcc_clean clean, fault]

/-- However a turn begins on a place that is not halted, the place runs or is halted by a fault. -/
theorem State.beginTurn_only (live : (s.place d p).st ≠ .halted) (slot nominal : Nat) :
    let t := s.beginTurn d p slot nominal
    s.TurnOnly t d p ∧ ((t.place d p).st = .running ∨ (t.place d p).st = .halted) := by
  obtain ⟨checked, st⟩ := s.turnEcc_only d p slot
  have live' : ((s.turnEcc d p slot).1.place d p).st ≠ .halted := by rwa [st]
  unfold State.beginTurn
  dsimp only
  split
  · refine ⟨.setPlace s d p _, .inl ?_⟩
    rw [State.place_setPlace, if_pos ⟨rfl, rfl⟩]
  · split
    · obtain ⟨place, only, -, -⟩ := State.faultHalt_live live'
      refine ⟨checked.trans (only.trans ((State.TurnOnly.plRecord _ d p 3 p slot 0 0 0).trans (.raise ..))), .inr ?_⟩
      obtain ⟨r, recorded⟩ := ((s.turnEcc d p slot).1.faultHalt d p).plRecord_frame d 3 p slot 0 0 0
      rw [State.place_raise, recorded]
      exact congrArg Place.st place
    · split
      · rename_i n e _
        obtain ⟨place, only, -, -⟩ := State.seqFault_live live' slot n e
        exact ⟨checked.trans only, .inr (congrArg Place.st place)⟩
      · refine ⟨checked.trans (.setPlace _ d p _), .inl ?_⟩
        rw [State.place_modPlace, if_pos ⟨rfl, rfl⟩]

end

-- The start cycle (spec/08 R236, spec/09 R257-R259) -----------------------------------------------------------------------------------------

/-- The places of a die that begin at its start cycle, one after the other: those before n have begun. -/
structure State.PlacesBegun (s t : State) (d n : Nat) : Prop where
  begun : ∀ p, p < n → (s.die d).strobed.testBit p = true → (s.place d p).st = .armed →
    (t.place d p).st = .running ∨ (t.place d p).st = .halted
  later : ∀ p, n ≤ p ∨ (s.die d).strobed.testBit p = false → t.place d p = s.place d p
  die : ∃ ps rs ms vs sc vp, t.die d = { s.die d with places := ps, runs := rs, mcs := ms, vcs := vs, scr := sc, vgpend := vp }
  rg : ∀ n o, (∀ q ∈ plRecordRegs, rkey n o ≠ rkey d q) → t.rg n o = s.rg n o

theorem State.PlacesBegun.zero (s : State) (d : Nat) : s.PlacesBegun s d 0 :=
  ⟨fun _ h => absurd h (Nat.not_lt_zero _), fun _ _ => rfl, ⟨_, _, _, _, _, _, rfl⟩, fun _ _ _ => rfl⟩
/-- The next place begins, if it was armed at the strobe. -/
theorem State.PlacesBegun.succ {n : Nat} (h : s.PlacesBegun t d n) (nominal : Nat) :
    s.PlacesBegun (if (s.die d).strobed.testBit n && decide ((t.place d n).st = .armed) then t.beginTurn d n (t.place d n).slot nominal else t)
      d (n + 1) := by
  have place := h.later n (.inl le_rfl)
  rw [place]
  by_cases begins : (s.die d).strobed.testBit n = true ∧ (s.place d n).st = .armed
  · obtain ⟨strobed, armed⟩ := begins
    have live : (t.place d n).st ≠ .halted := by rw [place, armed]; decide
    obtain ⟨only, st⟩ := State.beginTurn_only live (s.place d n).slot nominal
    rw [if_pos (by simp [strobed, armed])]
    refine ⟨fun p hp on arm => ?_, fun p other => ?_, ?_, fun m o hq => ?_⟩
    · by_cases last : p = n
      · subst last
        exact st
      · rw [only.others p last]
        exact h.begun p (by omega) on arm
    · have ne : p ≠ n := by
        rintro rfl
        rcases other with beyond | off
        · omega
        · rw [strobed] at off
          cases off
      rw [only.others p ne]
      exact h.later p (other.imp (by omega) id)
    · obtain ⟨_, _, _, _, _, _, hd⟩ := h.die
      obtain ⟨_, _, _, _, _, _, kd⟩ := only.die
      exact ⟨_, _, _, _, _, _, by rw [kd, hd]⟩
    · rw [only.rg m o hq, h.rg m o hq]
  · rw [if_neg (by simpa using begins)]
    refine ⟨fun p hp on arm => ?_, fun p other => h.later p (other.imp (by omega) id), h.die, h.rg⟩
    by_cases last : p = n
    · subst last
      exact absurd ⟨on, arm⟩ begins
    · exact h.begun p (by omega) on arm

/-- The counters of a die that does not resume start at 0 (spec/09 R258, R259). -/
def State.countersFresh (s : State) (d : Nat) : State :=
  if (s.die d).resumed then s else (s.keepDeltas (schedRegs.foldl (fun t r => t.setRg d r 0) s) d).modDie d (fun y =>
    { y with landPtr := 0, dmaPtr := 0, issuedNom := 0, nomWraps := 0, epochAt := 0 })
/-- The start cycle before its places begin. -/
def State.startCycle (s : State) (d : Nat) : State :=
  (s.countersFresh d).modDie d (fun y =>
    { y with flags := [], landLate := false, startAt := none, resumed := false, inPhase := true, stopped := false })

theorem State.countersFresh_place (s : State) (d : Nat) :
    (∀ p, (s.countersFresh d).place d p = s.place d p) ∧ ((s.countersFresh d).die d).strobed = (s.die d).strobed := by
  unfold State.countersFresh
  split
  · exact ⟨fun _ => rfl, rfl⟩
  · obtain ⟨r, cleared⟩ := foldl_clear_frame d schedRegs s
    rw [cleared, State.keepDeltas]
    refine ⟨fun p => ?_, ?_⟩
    · rw [State.place_modDie, State.die_modDie, if_pos rfl]
      rfl
    · rw [State.die_modDie, if_pos rfl, State.die_modDie, if_pos rfl]
      rfl
theorem State.countersFresh_zero (fresh : (s.die d).resumed = false) :
    ((s.countersFresh d).die d).landPtr = 0 ∧ ((s.countersFresh d).die d).dmaPtr = 0 ∧ ∀ r ∈ schedRegs, (s.countersFresh d).rg d r = 0 := by
  unfold State.countersFresh
  rw [fresh, if_neg (by decide)]
  refine ⟨by rw [State.die_modDie, if_pos rfl], by rw [State.die_modDie, if_pos rfl], fun r hr => ?_⟩
  rw [State.rg_modDie, State.keepDeltas, State.rg_modDie, rg_foldl_clear, if_pos ⟨r, hr, rfl⟩]

theorem State.startCycle_spec (s : State) (d : Nat) :
    (∀ p, (s.startCycle d).place d p = s.place d p) ∧ ((s.startCycle d).die d).strobed = (s.die d).strobed := by
  obtain ⟨place, strobed⟩ := s.countersFresh_place d
  refine ⟨fun p => ?_, ?_⟩
  · rw [← place p]
    exact State.place_modDie ..
  · rw [← strobed, State.startCycle, State.die_modDie, if_pos rfl]

/-- R236: every place that the strobe armed begins, in the order of their numbers. -/
theorem State.placeStart_begun (on : s.coreOn d = true) (start : (s.die d).startAt.isSome = true) :
    (s.startCycle d).PlacesBegun (s.placeStart d) d 25 := by
  obtain ⟨-, strobed⟩ := s.startCycle_spec d
  have started : s.placeStart d = (List.range 25).foldl (fun t p =>
      if (s.die d).strobed.testBit p && decide ((t.place d p).st = .armed) then t.beginTurn d p (t.place d p).slot (t.nominal d) else t)
        (s.startCycle d) := by
    rw [State.placeStart, on, start]
    rfl
  rw [started]
  refine foldl_range_rec (P := fun n t => (s.startCycle d).PlacesBegun t d n) (.zero _ d) (fun n t h => ?_) 25
  rw [← strobed]
  exact h.succ (t.nominal d)
theorem State.placeStart_idle (idle : (s.die d).startAt = none) : s.placeStart d = s := by
  rw [State.placeStart, idle, Option.isSome_none, Bool.and_false]
  rfl

/-- No schedule counter is part of the fault record of places. -/
theorem plRecordRegs_schedRegs {r q : Nat} (hr : r ∈ schedRegs) (hq : q ∈ plRecordRegs) : rkey d r ≠ rkey d q := by
  have above : ∀ x ∈ schedRegs, 0xF0005000 ≤ x := by decide
  have below : ∀ x ∈ plRecordRegs, x < 0xF0005000 := by decide
  have := above r hr
  have := below q hq
  rw [ne_eq, rkey_off]
  omega

-- The end of a place's program (spec/06 R183, spec/08 R244, spec/09 R258, R270) -------------------------------------------------------------

/-- Only partitions have changed. -/
def State.OnlyParts (s t : State) : Prop := ∃ ps, t = { s with parts := ps }
theorem State.OnlyParts.refl (s : State) : s.OnlyParts s := ⟨s.parts, rfl⟩
theorem State.OnlyParts.setPart (s : State) (p : Nat) (x : Part) : s.OnlyParts (s.setPart p x) := ⟨_, rfl⟩
theorem State.OnlyParts.ite {c : Prop} [Decidable c] (h : s.OnlyParts t) (k : s.OnlyParts u) : s.OnlyParts (if c then t else u) := by
  split
  · exact h
  · exact k

/-- The choice of a power state is noted in the partition. -/
theorem State.powerSelect_frame (s : State) (p : Nat) : s.OnlyParts (s.powerSelect p) :=
  .ite (.refl s) (.ite (.setPart ..) (.ite (.setPart ..) (.refl s)))

section
variable {last : Bool} (hlast : ((s.die d).inPhase && (s.die d).allStopped && !s.yieldLate d) = last)
include hlast

theorem State.phaseEnd_goes (goes : last = false) : s.phaseEnd d = s := by
  unfold State.phaseEnd
  exact if_neg (by rw [hlast, goes]; decide)
/-- R258, R270: the counters of a die stop when no place goes on; where they agree with its record that is all. -/
theorem State.phaseEnd_stops (stops : last = true) (agree : ∀ q e n, s.partOfNode d = some q → s.endsOf q d = some (e, n) →
      s.rg d CD_SCH_NOMINAL % 2 ^ 48 = e % 2 ^ 48 ∧ s.rg d CD_SCH_ISSUED % 2 ^ 48 = n % 2 ^ 48) :
    s.phaseEnd d = s.modDie d (fun y => { y with inPhase := false, stopped := true }) := by
  unfold State.phaseEnd
  simp only [hlast, stops, if_true]
  split
  · rfl
  · rename_i q part
    split
    · rfl
    · rename_i e n ends
      obtain ⟨nominal, issued⟩ := agree q e n part ends
      exact if_neg (fun differs => differs.2.elim (fun h => h nominal) (fun h => h issued))

/-- Both ways: what of the die, and that nothing beyond it, has changed. -/
theorem State.phaseEnd_spec (agree : last = true → ∀ q e n, s.partOfNode d = some q → s.endsOf q d = some (e, n) →
      s.rg d CD_SCH_NOMINAL % 2 ^ 48 = e % 2 ^ 48 ∧ s.rg d CD_SCH_ISSUED % 2 ^ 48 = n % 2 ^ 48) :
    let t := s.phaseEnd d
    t.die d = { s.die d with inPhase := (s.die d).inPhase && !last, stopped := last || (s.die d).stopped } ∧
      (∀ e, e ≠ d → t.die e = s.die e) ∧ t.regs = s.regs ∧ t.mds = s.mds ∧ t.sess = s.sess := by
  cases stop : last with
  | false =>
    rw [State.phaseEnd_goes hlast stop, Bool.not_false, Bool.and_true, Bool.false_or]
    exact ⟨rfl, fun _ _ => rfl, rfl, rfl, rfl⟩
  | true =>
    rw [State.phaseEnd_stops hlast stop (agree stop), Bool.not_true, Bool.and_false, Bool.true_or]
    refine ⟨(State.die_modDie ..).trans (if_pos rfl), fun e he => (State.die_modDie ..).trans (if_neg he), rfl, rfl, rfl⟩

end

/-- A place that completes: its bit of vgpend, then the end of the phase; the drain and the power state are noted in the partition. -/
theorem State.placeDone_running (on : s.coreOn d = true) (running : (s.place d p).st = .running) :
    (((s.modPlace d p (fun y => { y with st := .done })).setPend d p).phaseEnd d).OnlyParts (s.placeDone d p) := by
  unfold State.placeDone
  rw [on, running, if_pos (by rfl)]
  dsimp only
  generalize ((s.modPlace d p (fun y => { y with st := .done })).setPend d p).phaseEnd d = t
  split
  · rename_i q _
    obtain ⟨ps, begun⟩ := t.drainBegin_frame q
    obtain ⟨ps', chosen⟩ := (t.drainBegin q).powerSelect_frame q
    exact ⟨ps', by rw [chosen, begun]⟩
  · exact .refl t
theorem State.placeDone_idle (idle : (s.place d p).st ≠ .running) : s.placeDone d p = s := by
  unfold State.placeDone
  rw [decide_eq_false idle, Bool.and_false]
  rfl

/-- What the die and its places are once the place is done, whether or not the phase ends with it. -/
theorem State.placeDone_spec (on : s.coreOn d = true) (running : (s.place d p).st = .running) {s1 : State}
    (hs1 : s.modPlace d p (fun y => { y with st := .done }) = s1) {last : Bool}
    (hlast : ((s.die d).inPhase && (s1.die d).allStopped && !s1.yieldLate d) = last)
    (agree : last = true → ∀ q e n, s.partOfNode d = some q → s.endsOf q d = some (e, n) →
      s.rg d CD_SCH_NOMINAL % 2 ^ 48 = e % 2 ^ 48 ∧ s.rg d CD_SCH_ISSUED % 2 ^ 48 = n % 2 ^ 48) :
    let t := s.placeDone d p
    t.place d p = { s.place d p with st := .done } ∧ (t.die d).vgpend = (s.die d).vgpend ||| 2 ^ p ∧ (∀ q, q ≠ p → t.place d q = s.place d q) ∧
      (t.die d).inPhase = ((s.die d).inPhase && !last) ∧ (last = true → (t.die d).stopped = true) ∧
      (∀ e, e ≠ d → t.die e = s.die e) ∧ t.regs = s.regs ∧ t.mds = s.mds ∧ t.sess = s.sess := by
  have die1 : s1.die d = (s.die d).setPlace p { s.place d p with st := .done } := by
    rw [← hs1, State.modPlace, State.setPlace, State.die_modDie, if_pos rfl]
  have pend : (s1.setPend d p).die d = { s1.die d with vgpend := (s.die d).vgpend ||| 2 ^ p } := by
    rw [State.setPend, State.die_modDie, if_pos rfl, die1]
    rfl
  have late : (s1.setPend d p).yieldLate d = s1.yieldLate d := by
    unfold State.yieldLate State.landDue
    rw [pend]
    rfl
  have ends : (((s1.setPend d p).die d).inPhase && ((s1.setPend d p).die d).allStopped && !(s1.setPend d p).yieldLate d) = last := by
    rw [late, ← hlast, pend, die1]
    rfl
  obtain ⟨die, others, regs, mds, sess⟩ := State.phaseEnd_spec ends (fun stops q e n part ended => by
    subst hs1
    exact agree stops q e n part ended)
  obtain ⟨ps, done⟩ := State.placeDone_running on running
  rw [hs1] at done
  rw [pend, die1] at die
  have place : ∀ q, ((s1.setPend d p).phaseEnd d).place d q = if q = p then { s.place d p with st := .done } else s.place d q := fun q => by
    rw [State.place, die]
    exact Die.place_setPlace ..
  rw [done]
  refine ⟨(place p).trans (if_pos rfl), congrArg Die.vgpend die, fun q hq => (place q).trans (if_neg hq), congrArg Die.inPhase die,
    fun stops => (congrArg Die.stopped die).trans (by rw [stops]; rfl), fun e he => (others e he).trans ?_, ?_, ?_, ?_⟩
  · rw [← hs1, State.setPend, State.die_modDie, if_neg he, State.modPlace, State.setPlace, State.die_modDie, if_neg he]
  · exact regs.trans (hs1 ▸ rfl)
  · exact mds.trans (hs1 ▸ rfl)
  · exact sess.trans (hs1 ▸ rfl)

-- The loading of turn images (spec/08 R229) ---------------------------------------------------------------------------------------------------

theorem testBit_clearBit (x k j : Nat) : (x - (x &&& 2 ^ k)).testBit j = if j = k then false else x.testBit j := by
  rw [sub_and_testBit, Nat.testBit_two_pow]
  by_cases h : j = k
  · simp [h]
  · simp [h, Ne.symm h]
theorem testBit_setBit (x k j : Nat) : (x ||| 2 ^ k).testBit j = if j = k then true else x.testBit j := by
  rw [Nat.testBit_or, Nat.testBit_two_pow]
  by_cases h : j = k
  · simp [h]
  · simp [h, Ne.symm h]

/-- The descriptor of a load of a turn image: its bytes of HBM to its slot of the place's turn memory. -/
def tloadDesc (site p slot addr : Nat) : DmaDesc :=
  { (default : DmaDesc) with
    length := 0x2000#32, src := BitVec.ofNat 64 (addr * 64)
    dst := BitVec.ofNat 64 (0x4000000000000000 + site * 2 ^ 32 + 0x20000000 + p * 0x10000 + slot * 0x2000) }

theorem State.canIssue_of_live (on : s.coreOn d = true) (live : (s.place d p).st ≠ .halted) : s.canIssue d p = true := by
  rw [State.canIssue, on, decide_eq_true live]
  rfl
theorem State.tload_loads (issue : s.canIssue d p = true) {slot addr m o : Nat}
    (free : ¬(((s.place d p).st = .running ∧ (s.place d p).slot = slot) ∨ (s.place d p).loading.testBit slot = true))
    (home : s.hbmMap ((s.partOfNode d).getD 0) (addr * 64) = some (m, o)) : s.tload d p slot addr =
      (s.setPlace d p { s.place d p with
        valid := (s.place d p).valid - ((s.place d p).valid &&& 2 ^ slot), loading := (s.place d p).loading ||| 2 ^ slot
        tloaded := sput (s.place d p).tloaded slot addr }).setPcd (fun q => { q with
          descs := q.descs ++ [(m, .tload d p slot, tloadDesc ((s.nodeSite d).getD 0) p slot addr)] }) := by
  unfold State.tload
  simp only [issue, if_true, home]
  exact if_neg free
/-- R231: cause 6 is met by a load to the slot in force, or to one that is being loaded. -/
theorem State.tload_refused (issue : s.canIssue d p = true) {slot addr : Nat}
    (taken : ((s.place d p).st = .running ∧ (s.place d p).slot = slot) ∨ (s.place d p).loading.testBit slot = true) :
    s.tload d p slot addr = s.seqFault d p (s.place d p).slot 6 (s.place d p).entry := by
  unfold State.tload
  simp only [issue, if_true]
  exact if_pos taken

/-- A slot whose load has written its last byte is valid; a place that does not wait for it goes on as it was. -/
theorem State.tloadDone_loaded (on : s.coreOn d = true) {slot : Nat} (loading : (s.place d p).loading.testBit slot = true)
    (goes : (s.place d p).waitLoad = false) : s.tloadDone d p slot = s.setPlace d p { s.place d p with
      loading := (s.place d p).loading - ((s.place d p).loading &&& 2 ^ slot), valid := (s.place d p).valid ||| 2 ^ slot } := by
  unfold State.tloadDone
  simp only [on, loading, goes, Bool.and_self, if_true, Bool.false_and, Bool.false_eq_true, if_false]

-- The end of a turn (spec/08 R228, R251) --------------------------------------------------------------------------------------------------------

/-- The nominal cycle at which the turn in force ends. -/
def Place.turnEnd (x : Place) : Nat := x.base + (x.turn x.slot).rep * (x.turn x.slot).period

theorem State.turnSwitch_running (on : s.coreOn d = true) (running : (s.place d p).st = .running) (goes : (s.place d p).waitLoad = false)
    (stays : (s.place d p).yielded = false) (more : (s.place d p).ended = false) :
    s.turnSwitch d p = s.endTurn d p (s.place d p).turnEnd := by
  unfold State.turnSwitch
  simp only [on, running, goes, stays, more]
  rfl
theorem State.turnSwitch_idle (h : (s.place d p).st ≠ .running ∨ (s.place d p).waitLoad = true ∨ (s.place d p).yielded = true ∨
    (s.place d p).ended = true) : s.turnSwitch d p = s := by
  unfold State.turnSwitch
  refine if_neg fun all => ?_
  simp only [Bool.and_eq_true, decide_eq_true_eq, Bool.not_eq_true'] at all
  obtain ⟨⟨⟨⟨-, running⟩, goes⟩, stays⟩, more⟩ := all
  simp [running, goes, stays, more] at h

section
variable {nominal : Nat}

/-- A turn that ends no epoch: FIN ends the place, else its next turn begins. -/
theorem State.endTurn_fin (inner : ((s.place d p).turn (s.place d p).slot).epoch = false)
    (fin : ((s.place d p).turn (s.place d p).slot).fin = true) : s.endTurn d p nominal = s.setPlace d p { s.place d p with ended := true } := by
  unfold State.endTurn
  simp only [inner, fin, Bool.false_eq_true, false_and, if_false, if_true]
  rfl
theorem State.endTurn_next (inner : ((s.place d p).turn (s.place d p).slot).epoch = false)
    (more : ((s.place d p).turn (s.place d p).slot).fin = false) :
    s.endTurn d p nominal = s.beginTurn d p ((s.place d p).turn (s.place d p).slot).next nominal := by
  unfold State.endTurn
  simp only [inner, more, Bool.false_eq_true, false_and, if_false]

/-- R251, R413: an epoch boundary is counted once for its die; it may hold the die and tell the PCD. -/
def State.epochCounted (s : State) (d nominal : Nat) : State :=
  if (s.die d).epochAt ≠ nominal + 1 then
    ((s.setRg d CD_PL_EPOCH ((s.rg d CD_PL_EPOCH + 1) % 2 ^ 32)).modDie d (fun y => { y with epochAt := nominal + 1 })).stepBoundary d
  else s

theorem State.stepBoundary_frame (s : State) (d : Nat) : (∀ p, (s.stepBoundary d).place d p = s.place d p) ∧ (s.stepBoundary d).regs = s.regs := by
  have held : ∀ p, (s.modDie d (fun x => { x with fstep := true })).place d p = s.place d p := fun _ => (State.place_modDie ..).trans rfl
  unfold State.stepBoundary
  split
  · unfold State.spNotice
    split
    · obtain ⟨l, sent⟩ := State.spSend_frame (s.modDie d (fun x => { x with fstep := true })) d _
      rw [sent]
      exact ⟨held, rfl⟩
    · exact ⟨held, rfl⟩
  · exact ⟨fun _ => rfl, rfl⟩
theorem State.epochCounted_spec (s : State) (d p nominal : Nat) : (s.epochCounted d nominal).place d p = s.place d p ∧
    (s.epochCounted d nominal).rg d CD_PL_EPOCH =
      if (s.die d).epochAt = nominal + 1 then s.rg d CD_PL_EPOCH else (s.rg d CD_PL_EPOCH + 1) % 2 ^ 32 := by
  unfold State.epochCounted
  by_cases counted : (s.die d).epochAt = nominal + 1
  · rw [if_neg (not_not.2 counted), if_pos counted]
    exact ⟨rfl, rfl⟩
  · rw [if_pos counted, if_neg counted]
    obtain ⟨place, regs⟩ := State.stepBoundary_frame ((s.setRg d CD_PL_EPOCH ((s.rg d CD_PL_EPOCH + 1) % 2 ^ 32)).modDie d
      (fun y => { y with epochAt := nominal + 1 })) d
    refine ⟨(place p).trans (State.place_modDie ..), ?_⟩
    rw [State.rg, regs]
    exact State.rg_setRg_same ..
theorem State.endTurn_epoch_fin (epoch : ((s.place d p).turn (s.place d p).slot).epoch = true)
    (fin : ((s.place d p).turn (s.place d p).slot).fin = true) :
    s.endTurn d p nominal = (s.epochCounted d nominal).modPlace d p (fun y => { y with ended := true }) := by
  unfold State.endTurn
  simp only [epoch, fin, true_and, if_true]
  rfl

end

end

section
variable {s : State} {d p : Nat} (hd : d < 576) (hp : p < 25)
include hd

theorem execPlaceStart_eq : exec (.placeStart d) s = .next (s.placeStart d) := if_pos (decide_eq_true hd)

include hp

theorem wf_place : (decide (d < 576) && decide (p < 25)) = true := by simp [hd, hp]

theorem execPlaceDone_eq : exec (.placeDone d p) s = .next (s.placeDone d p) := if_pos (wf_place hd hp)
theorem execTload_eq (slot : BitVec 3) (addr : BitVec 36) : exec (.tload d p slot addr) s = .next (s.tload d p slot.toNat addr.toNat) :=
  if_pos (wf_place hd hp)
theorem execTloadComplete_eq (slot : BitVec 3) : exec (.tloadComplete d p slot) s = .next (s.tloadDone d p slot.toNat) := if_pos (wf_place hd hp)
theorem execTurnSwitch_eq : exec (.turnSwitch d p) s = .next (s.turnSwitch d p) := if_pos (wf_place hd hp)

end

/-- Settles O25: each command by the equation of its case. -/
theorem placesAndTurns : Obligations.PlacesAndTurns := by
  refine ⟨?places, ?turns⟩
  case places =>
    intro s d hd on
    refine ⟨fun p hp running => ?done, fun p hp idle => ?idle, fun none => ?noStart, fun start => ⟨_, execPlaceStart_eq hd, ?start⟩⟩
    case done =>
      intro s1 last agree
      exact ⟨_, execPlaceDone_eq hd hp, State.placeDone_spec on running rfl rfl agree⟩
    case idle => rw [execPlaceDone_eq hd hp, State.placeDone_idle idle]
    case noStart => rw [execPlaceStart_eq hd, State.placeStart_idle none]
    case start =>
      obtain ⟨place, strobed⟩ := s.startCycle_spec d
      obtain ⟨begun, later, ⟨ps, rs, ms, vs, sc, vp, die⟩, rg⟩ := State.placeStart_begun on start
      rw [strobed] at begun later
      have cycle : (s.startCycle d).die d = _ := (State.die_modDie ..).trans (if_pos rfl)
      rw [cycle] at die
      refine ⟨congrArg Die.startAt die, congrArg Die.inPhase die, congrArg Die.flags die, congrArg Die.resumed die, fun fresh => ?_,
        fun p hp on armed => begun p hp on (by rwa [place]), fun p off => (later p (.inr off)).trans (place p)⟩
      obtain ⟨land, dma, zero⟩ := State.countersFresh_zero fresh
      refine ⟨(congrArg Die.landPtr die).trans land, (congrArg Die.dmaPtr die).trans dma, fun r hr => ?_⟩
      exact (rg d r (fun q hq => plRecordRegs_schedRegs hr hq)).trans (zero r hr)
  case turns =>
    intro s d p hd hp on x u
    have others : ∀ (t : State) (y : Place) q, q ≠ p → (t.setPlace d p y).place d q = t.place d q := fun t y q hq =>
      (State.place_setPlace ..).trans (if_neg (fun h => hq h.2))
    have own : ∀ y, (s.setPlace d p y).place d p = y := fun y => (State.place_setPlace ..).trans (if_pos ⟨rfl, rfl⟩)
    have switch := execTurnSwitch_eq (s := s) hd hp
    refine ⟨fun slot addr m o live free unloaded home => ⟨_, execTload_eq hd hp slot addr, ?load⟩,
      fun slot addr live taken => ⟨_, execTload_eq hd hp slot addr, ?refused⟩,
      fun slot loading goes => ⟨_, execTloadComplete_eq hd hp slot, ?loaded⟩, fun idle => ?idle,
      fun running goes stays more epoch fin => ⟨_, switch, ?epochFin⟩, fun running goes stays more inner => ?inner⟩
    case load =>
      have issue := State.canIssue_of_live on live
      have slotFree : ¬(x.st = .running ∧ x.slot = slot.toNat ∨ x.loading.testBit slot.toNat = true) := by
        rintro (⟨running, same⟩ | loading)
        · exact free running same
        · rw [unloaded] at loading
          cases loading
      rw [State.tload_loads issue slotFree home]
      refine ⟨fun k => ?_, fun k => ?_, others s _, rfl, tloadDesc ((s.nodeSite d).getD 0) p slot.toNat addr.toNat, rfl, rfl, ?_, rfl⟩
      · rw [State.place_setPcd, own]
        exact testBit_clearBit ..
      · rw [State.place_setPcd, own]
        exact testBit_setBit ..
      · rw [tloadDesc, BitVec.toNat_ofNat]
        have := addr.isLt
        omega
    case refused =>
      rw [State.tload_refused (State.canIssue_of_live on live) taken]
      obtain ⟨place, -, alert, cause⟩ := State.seqFault_live live x.slot 6 x.entry
      exact ⟨congrArg Place.st place, by rw [place], by rw [place], alert, fun open' => cause open' (by decide)⟩
    case loaded =>
      rw [State.tloadDone_loaded on loading goes]
      refine ⟨fun k => ?_, fun k => ?_, by rw [own], ⟨rfl, rfl, rfl, rfl, rfl, rfl, rfl, rfl, rfl, rfl⟩⟩
      · rw [own]
        exact testBit_setBit ..
      · rw [own]
        exact testBit_clearBit ..
    case idle => rw [switch, State.turnSwitch_idle idle]
    case epochFin =>
      rw [State.turnSwitch_running on running goes stays more, State.endTurn_epoch_fin epoch fin]
      obtain ⟨place, counted⟩ := s.epochCounted_spec d p x.turnEnd
      refine ⟨?_, counted⟩
      rw [State.place_modPlace, if_pos ⟨rfl, rfl⟩, place]
    case inner =>
      rw [State.turnSwitch_running on running goes stays more] at switch
      refine ⟨fun fin => ?_, fun next loading => ?_, fun next loaded clean sound => ?_, fun n e next loaded clean fault => ⟨_, switch, ?_⟩⟩
      · rw [switch, State.endTurn_fin inner fin]
      · rw [switch, State.endTurn_next inner next, State.beginTurn_loading loading, ← running]
        rfl
      · rw [switch, State.endTurn_next inner next, State.beginTurn_runs loaded clean sound, ← running, ← goes]
        rfl
      · rw [State.endTurn_next inner next, State.beginTurn_faults loaded clean fault]
        obtain ⟨place, only, alert, -⟩ := State.seqFault_live (s := s) (d := d) (p := p) (by rw [running]; decide) u.next n e
        exact ⟨congrArg Place.st place, only.others, alert⟩

end Sys2Proof.Machine
end

section
/-! Every memory is canonical at reset, and every step keeps it so (spec/07 R190, R207, spec/08 R224, spec/15 R434; O4, O5). -/

namespace Sys2Proof.Machine

/-- Settles O4: a die and a partition are canonical at reset, and the memories of memory dies and the event attachments are empty. -/
theorem resetMemoriesCanonical : Obligations.ResetMemoriesCanonical where
  dies := fun _ => Die.canonical_reset
  hbm := wf_reset_md
  parts := part_reset
  att := rfl

/-- Settles O5: canonical memories are a part of what `Kept` names, which every step keeps. -/
theorem stepKeepsMemoriesCanonical : Obligations.StepKeepsMemoriesCanonical := by
  intro s t canonical e
  have kept : Kept s.fuses s.nvm.knots s := ⟨rfl, List.prefix_rfl, canonical⟩
  exact (kept_step kept e).mem

end Sys2Proof.Machine
end

section
/-! Writes of the scratchpad's settings: linear windows, group power, the scrub (spec/07 R193, R194, R206, R210, R212; O27). -/

namespace Sys2Proof.Machine

-- Rising lists and fields ---------------------------------------------------------------------------------------------------------------

theorem mem_insUniq {a x : Nat} {l : List Nat} : a ∈ insUniq x l ↔ a = x ∨ a ∈ l := by
  induction l with
  | nil => simp [insUniq]
  | cons y r ih =>
    rw [insUniq]
    split
    · simp
    · split
      · rename_i same
        simp [same]
      · simp [ih, or_left_comm]
theorem mem_sortUniq {a : Nat} {l : List Nat} : a ∈ sortUniq l ↔ a ∈ l := by
  induction l with
  | nil => simp [sortUniq]
  | cons x r ih => rw [sortUniq, List.foldr_cons, ← sortUniq, mem_insUniq, ih, List.mem_cons]

/-- A field replaced: its bits are the value's, every other bit stands. -/
theorem testBit_setBits (x v k : Nat) {msb lsb : Nat} (h : lsb ≤ msb) :
    (setBits x msb lsb v).testBit k = if lsb ≤ k ∧ k ≤ msb then v.testBit (k - lsb) else x.testBit k := by
  have mask : ∀ i, (fieldMask msb lsb).testBit i = decide (lsb ≤ i ∧ i ≤ msb) := by
    intro i
    rw [fieldMask, Nat.testBit_shiftLeft, Nat.testBit_two_pow_sub_one, Bool.decide_and]
    congr 1
    exact decide_eq_decide.2 (by omega)
  have value : ∀ i, ((v % 2 ^ (msb + 1 - lsb)) <<< lsb).testBit i = (decide (lsb ≤ i ∧ i ≤ msb) && v.testBit (i - lsb)) := by
    intro i
    rw [Nat.testBit_shiftLeft, Nat.testBit_mod_two_pow, ← Bool.and_assoc, Bool.decide_and]
    congr 2
    exact decide_eq_decide.2 (by omega)
  rw [setBits, testBit_add_disjoint, sub_and_testBit, mask, value]
  · split <;> simp [*]
  · intro i
    rw [sub_and_testBit, mask, value]
    cases decide (lsb ≤ i ∧ i ≤ msb) <;> simp

-- Groups of the scratchpad (spec/07 R191, R206) -------------------------------------------------------------------------------------------

theorem memRead_keepGroups (y : Spad) (mask pos : Nat) :
    memRead (y.keepGroups mask).mem pos = if mask.testBit (groupOfPos pos) then memRead y.mem pos else 0#8 :=
  sget_filter (f := fun a => mask.testBit (groupOfPos a))

/-- R212: a written mask is cut to the groups there are. -/
theorem State.windowMask_toNat (s : State) (v : W32) : s.windowMask v.toNat = if s.enD then v.toNat else v.toNat % 65536 := by
  rw [State.windowMask, Nat.mod_eq_of_lt v.isLt]
  rfl
/-- What lies within a mask already is not cut again. -/
theorem State.testBit_windowMask_and (s : State) (v w k : Nat) :
    (s.windowMask v &&& s.windowMask w).testBit k = ((s.windowMask v).testBit k && w.testBit k) := by
  rw [Nat.testBit_and]
  unfold State.windowMask
  split
  all_goals
    rw [Nat.testBit_mod_two_pow, Nat.testBit_mod_two_pow]
    cases decide (k < _) <;> simp

-- Who may write (spec/07 R194, R210, R212) -------------------------------------------------------------------------------------------------

section
variable {s : State} {src : Source} {site d : Nat} (f : State → Nat → State)

theorem State.spadSetOn_other (other : src ≠ .pcd) : s.spadSetOn src d f = s := if_neg other
theorem State.spadSetOn_busy (busy : (s.die d).busy = true) : s.spadSetOn .pcd d f = s.setRgB d CD_SPAD_STATUS 4 true := by
  rw [State.spadSetOn, if_pos rfl, if_pos busy]
theorem State.spadSetOn_idle (idle : (s.die d).busy = false) : s.spadSetOn .pcd d f = f s d := by
  rw [State.spadSetOn, if_pos rfl, idle, if_neg Bool.false_ne_true]

variable (ok : src.ok = true) (hsite : site < 512) (h : s.reaches src site d) (v : W32)
include ok hsite h

theorem execSpadLinearWrite_eq : exec (.spadLinearWrite src site v) s =
    .next (s.spadSetOn src d (fun t e => t.setRg e CD_SPAD_LINEAR (t.windowMask v.toNat))) := by
  rw [← State.atSite_of_reaches h (fun t e => t.spadSetOn src e (fun t e => t.setRg e CD_SPAD_LINEAR (t.windowMask v.toNat)))]
  exact if_pos (by simp [Instr.wf, ok, hsite])
theorem execSpadPwrWrite_eq : exec (.spadPwrWrite src site v) s = .next (s.spadSetOn src d (fun t e => t.setSpadPwr e v.toNat)) := by
  rw [← State.atSite_of_reaches h (fun t e => t.spadSetOn src e (fun t e => t.setSpadPwr e v.toNat))]
  exact if_pos (by simp [Instr.wf, ok, hsite])
theorem execSpadScrubStart_eq : exec (.spadScrubStart src site v) s =
    .next (if v.getLsbD 0 then s.spadSetOn src d State.spadScrub else s) := by
  rw [← State.atSite_of_reaches h (fun t e => t.spadSetOn src e State.spadScrub)]
  exact if_pos (by simp [Instr.wf, ok, hsite])

/-- The three writes of a setting of a source that changes the state in one way, whichever of them it makes. -/
theorem exec_spadSettings {t : State} (same : ∀ f, s.spadSetOn src d f = t) :
    ∀ i ∈ [Instr.spadLinearWrite src site v, .spadPwrWrite src site v, .spadScrubStart src site 1#32], exec i s = .next t := by
  intro i hi
  simp only [List.mem_cons, List.not_mem_nil, or_false] at hi
  rcases hi with rfl | rfl | rfl
  · rw [execSpadLinearWrite_eq ok hsite h, same]
  · rw [execSpadPwrWrite_eq ok hsite h, same]
  · rw [execSpadScrubStart_eq ok hsite h, same]
    rfl

end

-- Power (spec/07 R206) ------------------------------------------------------------------------------------------------------------------------

/-- The scratchpad under a new mask of groups, the old one given. -/
def Spad.powered (y : Spad) (old mask : Nat) : Spad :=
  { (y.keepGroups (mask &&& old)) with
    settling := sortUniq (y.settling.filter (fun g => mask.testBit g) ++ (List.range 32).filter (fun g => mask.testBit g && !old.testBit g)) }

/-- A group that turns on settles. -/
theorem Spad.settling_powered {g old mask : Nat} (y : Spad) (hg : g < 32) (on : mask.testBit g = true) (off : old.testBit g = false) :
    (y.powered old mask).settling.contains g = true := by
  rw [List.contains_iff_mem, Spad.powered, mem_sortUniq, List.mem_append]
  refine .inr (List.mem_filter.2 ⟨List.mem_range.2 hg, ?_⟩)
  rw [on, off]
  rfl

theorem State.die_setSpadPwr (s : State) (d v e : Nat) : (s.setSpadPwr d v).die e =
    if e = d then { s.die d with spad := (s.die d).spad.powered (s.windowMask (s.rg d CD_SPAD_PWR)) (s.windowMask v) } else s.die e := by
  unfold State.setSpadPwr
  dsimp only
  rw [State.die_setRgB, State.die_modDie]
  rfl
theorem State.rg_setSpadPwr (s : State) (d v : Nat) : (s.setSpadPwr d v).rg d CD_SPAD_PWR = s.windowMask v := by
  refine (State.rg_setRg_node ..).trans ((if_neg (by decide)).trans ?_)
  exact State.rg_setRg_same ..

/-- R206: under a new mask a group on before and after keeps its bytes, every other reads 0, and one that turns on settles. -/
theorem State.setSpadPwr_spec (s : State) (d v : Nat) :
    let t := s.setSpadPwr d v
    let mask := s.windowMask v
    t.rg d CD_SPAD_PWR = mask ∧
    (∀ pos, memRead (t.die d).spad.mem pos =
      if mask.testBit (groupOfPos pos) = true ∧ (s.rg d CD_SPAD_PWR).testBit (groupOfPos pos) = true then memRead (s.die d).spad.mem pos else 0#8) ∧
    (∀ g, g < 32 → mask.testBit g = true → (s.rg d CD_SPAD_PWR).testBit g = false → (t.die d).spad.settling.contains g = true) ∧
    (∀ e, e ≠ d → t.die e = s.die e) ∧ SameOutside s t := by
  intro t mask
  have die : t.die d = _ := (s.die_setSpadPwr d v d).trans (if_pos rfl)
  have both := s.testBit_windowMask_and v (s.rg d CD_SPAD_PWR)
  refine ⟨s.rg_setSpadPwr d v, fun pos => ?bytes, fun g hg on off => ?settles, fun e he => (s.die_setSpadPwr d v e).trans (if_neg he),
    ⟨rfl, rfl, rfl, rfl, rfl, rfl, rfl, rfl, rfl, rfl⟩⟩
  case bytes =>
    rw [die]
    refine (memRead_keepGroups ..).trans (if_congr ?_ rfl rfl)
    rw [both, Bool.and_eq_true]
  case settles =>
    rw [die]
    refine Spad.settling_powered _ hg on ?_
    have bit := both g
    rwa [Nat.testBit_and, on, off, Bool.true_and, Bool.and_false] at bit

/-- Settles O27: each write is `spadSetOn` of its effect, which the source and the places of the die decide. -/
theorem scratchpadSettings : Obligations.ScratchpadSettings := by
  intro s src site d v ok hsite reaches all mask
  have cut : s.windowMask v.toNat = mask := s.windowMask_toNat v
  refine ⟨fun other => ?other, fun active busy => ?busy, fun active idle => ?idle⟩
  case other => exact exec_spadSettings ok hsite reaches v (fun f => State.spadSetOn_other f other)
  case busy =>
    subst active
    exact exec_spadSettings ok hsite reaches v (fun f => State.spadSetOn_busy f busy)
  case idle =>
    subst active
    refine ⟨?linear, ⟨_, execSpadPwrWrite_eq ok hsite reaches v, ?power⟩, ?scrub, fun clear => ?clear⟩
    case linear => rw [execSpadLinearWrite_eq ok hsite reaches, State.spadSetOn_idle _ idle, cut]
    case power =>
      rw [State.spadSetOn_idle _ idle, ← cut]
      exact s.setSpadPwr_spec d v.toNat
    case scrub =>
      rw [execSpadScrubStart_eq ok hsite reaches, State.spadSetOn_idle _ idle]
      rfl
    case clear => rw [execSpadScrubStart_eq ok hsite reaches, clear, if_neg Bool.false_ne_true]

end Sys2Proof.Machine
end

section
/-! Groups that settle and scrubs that end (spec/07 R206, R210, R211). -/

namespace Sys2Proof.Machine

section
variable {s : State} {d : Nat} (hd : d < 576)
include hd

theorem execSpadGroupReady_eq {g : Nat} (hg : g < 32) : exec (.spadGroupReady d g) s = .next (s.groupReady d g) :=
  if_pos (by simp [Instr.wf, hd, hg])
theorem execSpadScrubDone_eq (bad : Option Nat) : exec (.spadScrubDone d bad) s = .next (s.spadScrubDone d bad) := if_pos (decide_eq_true hd)

end

theorem SameOutside.withRegs {s t : State} (h : SameOutside s t) (r : SMap Nat) : SameOutside s { t with regs := r } :=
  ⟨h.fuses, h.nvm, h.mds, h.fds, h.parts, h.sess, h.ptc16, h.rdata, h.out, h.pending⟩
theorem SameOutside.raise {s t : State} (h : SameOutside s t) (n code unit data : Nat) : SameOutside s (t.raise n code unit data) :=
  ⟨h.fuses, h.nvm, h.mds, h.fds, h.parts, h.sess, h.ptc16, h.rdata, h.out, h.pending⟩
theorem State.die_raise (s : State) (n code unit data d : Nat) : (s.raise n code unit data).die d = s.die d := rfl
theorem State.rg_raise (s : State) (n code unit data d off : Nat) : (s.raise n code unit data).rg d off = s.rg d off := rfl
theorem State.alerts_raise (s : State) (n code unit data : Nat) :
    ∃ a, a.code = code ∧ a.node = n ∧ (s.raise n code unit data).pcd.alerts = s.pcd.alerts ++ [a] := ⟨_, rfl, rfl, rfl⟩

-- A group that has settled (spec/07 R206) -------------------------------------------------------------------------------------------------

theorem groupOfPos_lt {pos : Nat} (h : pos < 0x8000000) : groupOfPos pos < 32 := by
  unfold groupOfPos
  omega
/-- The mask of every group but one. -/
theorem testBit_allBut {g k : Nat} (hg : g < 32) (hk : k < 32) : (2 ^ 32 - 1 - 2 ^ g).testBit k = decide (k ≠ g) := by
  have bit : (2 ^ 32 - 1) &&& 2 ^ g = 2 ^ g := by
    refine Nat.eq_of_testBit_eq fun i => ?_
    rw [Nat.testBit_and, Nat.testBit_two_pow_sub_one, Nat.testBit_two_pow]
    by_cases h : g = i
    · simp [← h, hg]
    · simp [h]
  rw [← bit, sub_and_testBit, Nat.testBit_two_pow_sub_one, Nat.testBit_two_pow, decide_eq_true hk, Bool.true_and, ← decide_not]
  exact decide_eq_decide.2 ne_comm

/-- The scratchpad with a group filled with zero and usable. -/
def Spad.filled (y : Spad) (g : Nat) : Spad :=
  { (y.keepGroups (2 ^ 32 - 1 - 2 ^ g)) with settling := y.settling.filter (fun h => decide (h ≠ g)) }

section
variable {s : State} {d g : Nat}

theorem State.groupReady_idle (idle : (s.die d).spad.settling.contains g = false) : s.groupReady d g = s := by
  rw [State.groupReady, idle, Bool.and_false, if_neg Bool.false_ne_true]

/-- Where no context waits to be loaded on the die, nothing follows. -/
theorem State.groupReady_settled (on : s.coreOn d = true) (settling : (s.die d).spad.settling.contains g = true)
    (noLoad : ∀ p, s.partOfNode d = some p → (s.part p).loading = false) :
    let t := s.groupReady d g
    (t.die d).spad = (s.die d).spad.filled g ∧ SameOutside s t := by
  intro t
  let s1 := s.modDie d (fun x => { x with spad := x.spad.filled g })
  have ready : t = s1.setRgB d CD_SPAD_STATUS 3 (!(s1.die d).spad.settling.isEmpty) := by
    simp only [t, State.groupReady, on, settling, Bool.and_self, if_true]
    split
    · rename_i p part
      exact if_neg (by simp [noLoad p part])
    · rfl
  rw [ready]
  refine ⟨?_, ((SameOutside.refl s).setDie d _).withRegs _⟩
  rw [State.die_setRgB, State.die_modDie, if_pos rfl]

end

-- The end of a scrub (spec/07 R210, R211) --------------------------------------------------------------------------------------------------

/-- The die with its scratchpad zero and every group on, the scrub reported done. -/
def State.spadZeroed (s : State) (d : Nat) : State :=
  (((s.modDie d (fun x => { x with spad := { x.spad with mem := [], errs := [], repair := [], settling := [] } })).setRg d
    CD_SPAD_PWR (s.windowMask (2 ^ 32 - 1))).setRgB d CD_SPAD_STATUS 3 false).setRgF d CD_SPAD_STATUS 2 0 2

/-- The same with its verify failed at line n, recorded, and its site withheld. -/
def State.spadFailed (s : State) (d n : Nat) : State :=
  (((s.spadZeroed d).setRgB d CD_SPAD_STATUS 2 true).spadRecord d 2 (n / 16384 % 128) 100 0 (hashedLine n)).modDie d (fun x => { x with withheld := true })

theorem State.spadRecord_frame (s : State) (d kind bank a b addr : Nat) :
    ∃ r, s.spadRecord d kind bank a b addr = { s with regs := r } := by
  unfold State.spadRecord
  split
  · exact ⟨s.regs, rfl⟩
  · exact ⟨_, rfl⟩
theorem State.rg_spadRecord (s : State) (d kind bank a b addr : Nat) :
    (s.spadRecord d kind bank a b addr).rg d CD_SPAD_STATUS = s.rg d CD_SPAD_STATUS := by
  unfold State.spadRecord
  split
  · rfl
  · simp [CD_SPAD_STATUS, CD_SPAD_FAULT_INFO, CD_SPAD_FAULT_ADDR, CD_SPAD_FAULT_PTC]

theorem setBits_mod_eight (x v : Nat) : setBits x 2 0 v % 8 = v % 8 := by
  refine Nat.eq_of_testBit_eq fun k => ?_
  rw [Nat.testBit_mod_two_pow (j := 3), Nat.testBit_mod_two_pow (j := 3), testBit_setBits _ _ _ (by decide)]
  by_cases h : k < 3
  · rw [if_pos (by omega)]
    rfl
  · simp [h]
theorem setBits_two_mod_eight {x : Nat} (h : x % 8 = 2) : setBits x 2 2 1 % 8 = 6 := by
  have low : ∀ k, k < 3 → x.testBit k = (2 : Nat).testBit k := fun k hk => by
    rw [← h, Nat.testBit_mod_two_pow (j := 3), decide_eq_true hk, Bool.true_and]
  refine Nat.eq_of_testBit_eq fun k => ?_
  rw [Nat.testBit_mod_two_pow (j := 3), testBit_setBits _ _ _ (by decide)]
  by_cases hk : k < 3
  · rw [low k hk]
    interval_cases k <;> rfl
  · rw [decide_eq_false hk, Bool.false_and]
    exact (Nat.testBit_lt_two_pow (by
      calc 6 < 2 ^ 3 := by decide
        _ ≤ 2 ^ k := Nat.pow_le_pow_right (by decide) (by omega))).symm

section
variable {s : State} {d : Nat}

theorem State.rg_spadZeroed (s : State) (d : Nat) : (s.spadZeroed d).rg d CD_SPAD_STATUS % 8 = 2 := by
  rw [State.spadZeroed, State.setRgF, State.rg_setRg_same, setBits_mod_eight]
theorem State.die_spadZeroed (s : State) (d : Nat) :
    (s.spadZeroed d).die d = { s.die d with spad := { (s.die d).spad with mem := [], errs := [], repair := [], settling := [] } } := by
  rw [State.spadZeroed, State.die_setRgF, State.die_setRgB, State.die_setRg, State.die_modDie, if_pos rfl]
theorem State.pcd_spadZeroed (s : State) (d : Nat) : (s.spadZeroed d).pcd = s.pcd := by
  rw [State.spadZeroed, State.setRgF_pcd, State.setRgB_pcd, State.setRg_pcd, State.modDie_pcd]
theorem State.spadZeroed_outside (s : State) (d : Nat) : SameOutside s (s.spadZeroed d) :=
  ((((SameOutside.refl s).setDie d _).withRegs _).withRegs _).withRegs _

theorem State.spadFailed_spec (s : State) (d n : Nat) : let t := s.spadFailed d n
    t.die d = { (s.spadZeroed d).die d with withheld := true } ∧ t.rg d CD_SPAD_STATUS % 8 = 6 ∧ t.pcd = s.pcd ∧ SameOutside s t := by
  intro t
  let s1 := (s.spadZeroed d).setRgB d CD_SPAD_STATUS 2 true
  let s2 := s1.spadRecord d 2 (n / 16384 % 128) 100 0 (hashedLine n)
  obtain ⟨r, recorded⟩ : ∃ r, s2 = { s1 with regs := r } := s1.spadRecord_frame ..
  have failed : t = s2.modDie d (fun x => { x with withheld := true }) := rfl
  have status : s1.rg d CD_SPAD_STATUS % 8 = 6 := by
    simp only [s1, State.setRgB, State.setRgF, State.rg_setRg_same]
    exact setBits_two_mod_eight (s.rg_spadZeroed d)
  refine ⟨?_, ?_, ?_, ?_⟩
  · rw [failed, State.die_modDie, if_pos rfl, recorded]
    exact congrArg (fun x : Die => { x with withheld := true }) ((s.spadZeroed d).die_setRgB d CD_SPAD_STATUS 2 true d)
  · rw [failed, State.rg_modDie, State.rg_spadRecord, status]
  · rw [failed, State.modDie_pcd, recorded]
    exact (State.setRgB_pcd (s.spadZeroed d) d CD_SPAD_STATUS 2 true).trans (s.pcd_spadZeroed d)
  · rw [failed, recorded]
    exact .setDie (((s.spadZeroed_outside d).withRegs _).withRegs r) d _

/-- R211: what a failed verify reports, and how it leaves the die. -/
theorem State.spadFailed_reported (s : State) (d n : Nat) :
    let u := unitSram d (n / 16384 % 128) (n % 16384 / 16)
    let f := (s.spadFailed d n).raise d 0x2142 u 0
    let t := if (s.die d).ctx.isSome then f.raise d 0x2140 u 0 else f
    (t.die d).spad.mem = [] ∧ (t.die d).spad.errs = [] ∧ (t.die d).withheld = true ∧ t.rg d CD_SPAD_STATUS % 8 = 6 ∧
    (∃ a, a.code = 0x2142 ∧ a.node = d ∧ if (s.die d).ctx.isSome then ∃ b, t.pcd.alerts = s.pcd.alerts ++ [a, b] ∧ b.code = 0x2140 ∧ b.node = d
      else t.pcd.alerts = s.pcd.alerts ++ [a]) ∧ SameOutside s t := by
  intro u f t
  obtain ⟨die, status, pcd, outside⟩ := s.spadFailed_spec d n
  rw [State.die_spadZeroed] at die
  obtain ⟨a, code, node, alert⟩ := (s.spadFailed d n).alerts_raise d 0x2142 u 0
  obtain ⟨b, code', node', alert'⟩ := f.alerts_raise d 0x2140 u 0
  obtain ⟨dieLeft, rgLeft, outsideLeft⟩ : t.die d = f.die d ∧ t.rg d CD_SPAD_STATUS = f.rg d CD_SPAD_STATUS ∧ SameOutside f t := by
    simp only [t]
    split
    · exact ⟨State.die_raise .., State.rg_raise .., (SameOutside.refl f).raise ..⟩
    · exact ⟨rfl, rfl, .refl f⟩
  rw [dieLeft, State.die_raise, die, rgLeft, State.rg_raise]
  refine ⟨rfl, rfl, rfl, status, ⟨a, code, node, ?_⟩, (outside.raise ..).trans outsideLeft⟩
  simp only [t]
  split
  · exact ⟨b, by rw [alert', alert, pcd, List.append_assoc]; rfl, code', node'⟩
  · rw [alert, pcd]

theorem State.spadScrubDone_idle (idle : s.rgB d CD_SPAD_STATUS 0 = false) (bad : Option Nat) : s.spadScrubDone d bad = s := by
  rw [State.spadScrubDone, idle, Bool.and_false, if_neg Bool.false_ne_true]

section
variable (on : s.coreOn d = true) (scrubs : s.rgB d CD_SPAD_STATUS 0 = true)
include on scrubs

/-- R211: a failed verify is reported, and fails the job on the die where there is one. -/
theorem State.spadScrubDone_bad (n : Nat) : s.spadScrubDone d (some n) =
    let u := unitSram d (n / 16384 % 128) (n % 16384 / 16)
    let t := (s.spadFailed d n).raise d 0x2142 u 0
    if (s.die d).ctx.isSome then t.raise d 0x2140 u 0 else t := by
  simp only [State.spadScrubDone, on, scrubs, Bool.and_self, if_true, State.spadFailed, State.spadZeroed]
/-- R210: a partition with ranges still to be scrubbed ends no item, and one without contexts runs none. -/
theorem State.spadScrubDone_clean (quiet : ∀ p, s.partOfNode d = some p → (s.part p).scrubQ ≠ [] ∧ (s.part p).ctxs = []) :
    s.spadScrubDone d none = s.spadZeroed d := by
  have waits : ∀ p, (s.part p).scrubQ ≠ [] ∧ (s.part p).ctxs = [] → ((s.spadZeroed d).releaseSettle p).tryRun p 63 = s.spadZeroed d := by
    rintro p ⟨ranges, noCtx⟩
    have unsettled : (s.spadZeroed d).releaseSettle p = s.spadZeroed d := by
      refine if_neg ?_
      rw [Bool.and_eq_true, not_and_or]
      exact .inl (by rwa [List.isEmpty_iff])
    have noneReady : ((s.spadZeroed d).part p).nextReady 63 = none := by
      show (s.part p).nextReady 63 = none
      simp [Part.nextReady, noCtx]
    rw [unsettled, State.tryRun]
    simp only [noneReady, ite_self]
  simp only [State.spadScrubDone, on, scrubs, Bool.and_self, if_true]
  split
  · rename_i p part
    exact waits p (quiet p part)
  · rfl

end
end

end Sys2Proof.Machine
end

section
/-! The bank-pair cycles that no scheduled access uses: requests served line by line, and repairs (spec/07 R199-R206; O28). -/

namespace Sys2Proof.Machine

/-- On die d alone the scratchpad changes, and of the registers the count of its accesses. -/
structure State.SpadOnly (s t : State) (d : Nat) : Prop where
  state : ∃ l r, t = { s with dies := l, regs := r }
  rg : ∀ n o, rkey n o ≠ rkey d CD_SPAD_ACCESS → t.rg n o = s.rg n o
  dies : ∀ e, e ≠ d → t.die e = s.die e
  die : ∃ y, t.die d = { s.die d with spad := y }

section
variable {s t u : State} {d : Nat}

namespace State.SpadOnly

theorem refl (s : State) (d : Nat) : s.SpadOnly s d := ⟨⟨_, _, rfl⟩, fun _ _ _ => rfl, fun _ _ => rfl, ⟨_, rfl⟩⟩
theorem trans (h : s.SpadOnly t d) (k : t.SpadOnly u d) : s.SpadOnly u d := by
  obtain ⟨_, _, hs⟩ := h.state
  obtain ⟨_, _, ks⟩ := k.state
  obtain ⟨_, hd⟩ := h.die
  obtain ⟨_, kd⟩ := k.die
  exact ⟨⟨_, _, by rw [ks, hs]⟩, fun n o hn => (k.rg n o hn).trans (h.rg n o hn), fun e he => (k.dies e he).trans (h.dies e he),
    ⟨_, by rw [kd, hd]⟩⟩
theorem modDie (s : State) (d : Nat) {f : Die → Die} (hf : ∃ y, f (s.die d) = { s.die d with spad := y }) : s.SpadOnly (s.modDie d f) d := by
  obtain ⟨y, hy⟩ := hf
  exact ⟨⟨_, _, rfl⟩, fun _ _ _ => rfl, fun _ he => (State.die_modDie ..).trans (if_neg he), ⟨y, ((State.die_modDie ..).trans (if_pos rfl)).trans hy⟩⟩
theorem spadSetWord (s : State) (d addr mask v : Nat) : s.SpadOnly (s.spadSetWord d addr mask v) d := .modDie s d ⟨_, rfl⟩
theorem spadKeep (s : State) (d i : Nat) (r : Option SpadReq) : s.SpadOnly (s.spadKeep d i r) d := .modDie s d ⟨_, rfl⟩
theorem spadGrant (s : State) (d pair cls : Nat) : s.SpadOnly (s.spadGrant d pair cls) d := .modDie s d ⟨_, rfl⟩
theorem bumpPerf (s : State) (d n : Nat) : s.SpadOnly (s.bumpPerf d CD_SPAD_ACCESS n) d := by
  obtain ⟨_, hr⟩ := s.bumpPerf_frame d CD_SPAD_ACCESS n
  exact ⟨⟨_, _, hr⟩, fun _ _ h => State.rg_bumpPerf_ne _ _ h, fun e _ => State.die_bumpPerf .., ⟨_, State.die_bumpPerf ..⟩⟩

variable (h : s.SpadOnly t d)
include h

theorem pcd : t.pcd = s.pcd := by
  obtain ⟨_, _, hs⟩ := h.state
  rw [hs]
theorem outside : SameOutside s t := by
  obtain ⟨_, _, hs⟩ := h.state
  rw [hs]
  exact ⟨rfl, rfl, rfl, rfl, rfl, rfl, rfl, rfl, rfl, rfl⟩
theorem sc (e c : Nat) : t.sc e c = s.sc e c := by
  unfold State.sc
  by_cases he : e = d
  · obtain ⟨_, hd⟩ := h.die
    rw [he, hd]
    rfl
  · rw [h.dies e he]
theorem spadByte (mem : (t.die d).spad.mem = (s.die d).spad.mem) : t.spadByte d = s.spadByte d :=
  State.spadByte_congr mem (h.rg _ _ (by rw [ne_eq, rkey_off]; decide))

/-- R327: where a packet enters the mesh hangs on what the active PCD knows of routers and on the rails of memory dies alone. -/
theorem pcd_inject (p : DynPkt) : (t.inject p).pcd = (s.inject p).pcd := by
  have fence : ∀ r n, t.rgB (nodeRs r) RS_FENCE n = s.rgB (nodeRs r) RS_FENCE n := fun r n => by
    unfold State.rgB
    rw [h.rg]
    unfold rkey RS_FENCE CD_SPAD_ACCESS
    omega
  obtain ⟨l, r, hs⟩ := h.state
  have rails : ∀ m, t.mdOn m = s.mdOn m := fun m => by
    unfold State.mdOn State.regionOn
    rw [fence, fence]
    rw [hs]
    rfl
  have router : ∀ e src, t.epRouter e src = s.epRouter e src := fun e src => by
    unfold State.epRouter State.fdVia
    rw [funext rails]
    rw [hs]
    rfl
  unfold State.inject State.injectAt
  rw [router, router]
  rw [hs]
  rfl

end State.SpadOnly

-- Accesses to a scratchpad that holds no flipped bit (spec/07 R201, R202) ---------------------------------------------------------------------

section
variable (clean : (s.die d).spad.errs = [])
include clean

theorem State.mergeBad_clean (a n v : Nat) : s.mergeBad d a n v = false := by
  rw [State.mergeBad, State.spadMerge, if_pos clean]
  rfl
theorem State.spadFetch_clean (port a n : Nat) :
    s.spadFetch d port a n = (s.bumpPerf d CD_SPAD_ACCESS (linesOf a n).length, some (s.spadBytes d a n)) := by
  have errs : ((s.bumpPerf d CD_SPAD_ACCESS (linesOf a n).length).die d).spad.errs = [] := by rw [State.die_bumpPerf, clean]
  unfold State.spadFetch State.spadBytes
  simp only [State.spadCheckLines_of_no_errs errs, State.spadByte_bumpPerf]

/-- A store leaves the requests that wait. -/
theorem State.spadStore_only (port addr nbits v : Nat) (byPlace : Bool) : let t := s.spadStore d port addr nbits v byPlace
    s.SpadOnly t d ∧ (t.die d).spad.reqs = (s.die d).spad.reqs := by
  have merge : ∀ ws, s.spadMerge d ws = (s, []) := fun _ => if_pos clean
  unfold State.spadStore
  simp only [merge, List.foldl_nil]
  refine List.foldlRecOn (motive := fun t : State => s.SpadOnly t d ∧ (t.die d).spad.reqs = (s.die d).spad.reqs) _ _ ⟨.refl s d, rfl⟩
    fun t ⟨only, reqs⟩ w _ => ⟨only.trans (.spadSetWord t d ..), ?_⟩
  rw [State.spadSetWord, State.die_modDie, if_pos rfl]
  exact reqs
theorem State.spadPut_only (port a : Nat) (bs : List Byte) : let t := s.spadPut d port a bs
    s.SpadOnly t d ∧ (t.die d).spad.reqs = (s.die d).spad.reqs := by
  have counted := State.SpadOnly.bumpPerf s d (linesOf a bs.length).length
  have same := State.die_bumpPerf s d CD_SPAD_ACCESS (linesOf a bs.length).length d
  obtain ⟨only, reqs⟩ := State.spadStore_only (by rw [same, clean]) port a (8 * bs.length) (leVal bs) false
  exact ⟨counted.trans only, reqs.trans (by rw [same])⟩
/-- R201: the bytes stored, and no other bit. -/
theorem State.spadBit_spadPut {port a x b : Nat} {bs : List Byte} (range : a + bs.length ≤ 0x8000000) (hx : x < 0x8000000) (hb : b < 8) :
    (s.spadPut d port a bs).spadBit d x b =
      if a ≤ x ∧ x < a + bs.length then (bs.getD (x - a) 0#8).getLsbD b else s.spadBit d x b := by
  have bytes := s.spadByte_bumpPerf d d (linesOf a bs.length).length
  have errs : ((s.bumpPerf d CD_SPAD_ACCESS (linesOf a bs.length).length).die d).spad.errs = [] := by rw [State.die_bumpPerf, clean]
  rw [State.spadPut, State.spadStoreBytes, State.spadStore_bit errs (by omega) hx hb, State.spadBit, bytes]
  refine ite_congr (propext (by omega)) (fun inside => ?_) (fun _ => rfl)
  rw [testBit_leVal, show (8 * x + b - 8 * a) / 8 = x - a by omega, show (8 * x + b - 8 * a) % 8 = b by omega]

end

-- One line of a request (spec/07 R199) --------------------------------------------------------------------------------------------------------

/-- The first byte of a request in its line a. -/
def SpadReq.lo (r : SpadReq) (a : Nat) : Nat := max a r.addr
/-- The number of its bytes in the line. -/
def SpadReq.len (r : SpadReq) (a : Nat) : Nat := min (a + 64) (r.addr + r.width) - r.lo a
/-- Its lines still to be accessed after this one. -/
def SpadReq.rest (r : SpadReq) (a : Nat) : List Nat := r.left.filter (fun b => decide (b ≠ a))
/-- The bytes of a write that go to the line. -/
def SpadReq.part (r : SpadReq) (a : Nat) (bs : List Byte) : List Byte := (bs.drop (r.lo a - r.addr)).take (r.len a)

variable {i a : Nat} {r : SpadReq} {bs : List Byte}

theorem SpadReq.length_part (full : bs.length = r.width) (within : 0 < r.len a) : (r.part a bs).length = r.len a := by
  rw [SpadReq.part, List.length_take, List.length_drop]
  unfold SpadReq.len SpadReq.lo at *
  omega
theorem SpadReq.getD_part {x : Nat} (hx : r.lo a ≤ x) (hx' : x < r.lo a + r.len a) :
    (r.part a bs).getD (x - r.lo a) 0#8 = bs.getD (x - r.addr) 0#8 := by
  have offset : r.lo a - r.addr + (x - r.lo a) = x - r.addr := by
    unfold SpadReq.lo at *
    omega
  rw [SpadReq.part, List.getD_eq_getElem?_getD, List.getElem?_take, if_pos (by omega), List.getElem?_drop, offset, ← List.getD_eq_getElem?_getD]

theorem State.spad_spadKeep_none (s : State) (d i : Nat) :
    ((s.spadKeep d i none).die d).spad = { (s.die d).spad with reqs := (s.die d).spad.reqs.eraseIdx i } := by
  rw [State.spadKeep, State.die_modDie, if_pos rfl]
theorem State.spad_spadKeep_some (s : State) (d i : Nat) (q : SpadReq) :
    ((s.spadKeep d i (some q)).die d).spad = { (s.die d).spad with reqs := (s.die d).spad.reqs.set i q } := by
  rw [State.spadKeep, State.die_modDie, if_pos rfl]
theorem State.spadByte_spadKeep (s : State) (d i : Nat) (q : Option SpadReq) : (s.spadKeep d i q).spadByte d = s.spadByte d :=
  (State.SpadOnly.spadKeep s d i q).spadByte (by rw [State.spadKeep, State.die_modDie, if_pos rfl])

/-- A write is answered to the dynamic port alone. -/
theorem State.spadReply_write (s : State) (d : Nat) (write : r.wdata = some bs) (l : List Byte) : let t := s.spadReply r (some l)
    t.die d = s.die d ∧ t.spadByte d = s.spadByte d ∧ ∀ k, r.pkt = some k → t = s.inject (k.reply 3 0 []) := by
  unfold State.spadReply
  rw [write]
  cases r.pkt with
  | none => exact ⟨rfl, rfl, nofun⟩
  | some k => exact ⟨rfl, rfl, fun _ h => by cases h; rfl⟩
/-- A read is answered to the dynamic port, to an S-core's register, or to the reader. -/
theorem State.spadReply_read (s : State) (d : Nat) (read : r.wdata = none) (l : List Byte) : let t := s.spadReply r (some l)
    (t.die d).spad = (s.die d).spad ∧ (∀ k, r.pkt = some k → t = s.inject (k.reply 2 0 l)) ∧
    (r.pkt = none → r.sc = none → t.rdata = leVal l) ∧
    (∀ e c rd sx, r.pkt = none → r.sc = some (e, c, rd, sx) → t.sc e c = (s.sc e c).setLoaded rd sx r.width (leVal l)) := by
  unfold State.spadReply
  rw [read]
  cases r.pkt with
  | some k => exact ⟨rfl, fun _ h => by cases h; rfl, nofun, nofun⟩
  | none =>
    cases r.sc with
    | none => exact ⟨rfl, nofun, fun _ _ => rfl, nofun⟩
    | some q =>
      obtain ⟨e, c, rd, sx⟩ := q
      refine ⟨?_, nofun, nofun, fun _ _ _ _ _ h => ?_⟩
      · dsimp only
        rw [State.setSc, State.die_modDie]
        split
        · subst d
          rfl
        · rfl
      · cases h
        rw [State.sc_setSc, if_pos ⟨rfl, rfl⟩]

/-- R205: a request that may not be performed is counted, and its reader is given 0; the scratchpad stands. -/
theorem State.spad_spadRefuse (s : State) (d : Nat) (pkt : r.pkt = none) (sc : r.sc = none) : ((s.spadRefuse d r).die d).spad = (s.die d).spad := by
  have counted : ∀ {t : State}, (t.die d).spad = (s.die d).spad → ∀ l, ((t.spadReply r (some l)).die d).spad = (s.die d).spad := by
    intro t ht l
    unfold State.spadReply
    rw [pkt, sc]
    cases r.wdata <;> exact ht
  refine counted ?_ _
  split
  · rfl
  · rw [State.dieRefuse, State.die_modDie, if_pos rfl]

theorem State.spadServe_closed (closed : s.spadOpen d (r.lo a) (r.len a) = false) :
    s.spadServe d i r a = (s.spadKeep d i none).spadRefuse d r := if_neg (Bool.eq_false_iff.1 closed)

section
variable (may : s.spadOpen d (r.lo a) (r.len a) = true) (clean : (s.die d).spad.errs = [])
include may clean

theorem State.spadServe_write (write : r.wdata = some bs) : s.spadServe d i r a =
    let t := s.spadPut d (classPort r.cls) (r.lo a) (r.part a bs)
    if r.rest a = [] then (t.spadKeep d i none).spadReply r (some []) else t.spadKeep d i (some { r with left := r.rest a }) := by
  refine (if_pos may).trans ?_
  simp only [write, State.mergeBad_clean clean, Bool.false_eq_true, if_false, List.isEmpty_iff]
  rfl
theorem State.spadServe_read (read : r.wdata = none) : s.spadServe d i r a =
    let t := s.bumpPerf d CD_SPAD_ACCESS (linesOf (r.lo a) (r.len a)).length
    let got := sput r.got a (s.spadBytes d (r.lo a) (r.len a))
    if r.rest a = [] then (t.spadKeep d i none).spadReply r (some (got.flatMap (·.2)))
    else t.spadKeep d i (some { r with left := r.rest a, got := got }) := by
  refine (if_pos may).trans ?_
  simp only [read, State.spadFetch_clean clean, List.isEmpty_iff]
  rfl

/-- R199, R201: a line of a write is stored; with the last one the write is done. -/
theorem State.spadServe_write_spec (write : r.wdata = some bs) (full : bs.length = r.width) (within : 0 < r.len a) :
    let t := s.spadServe d i r a
    (t.die d).spad.reqs = (if r.rest a = [] then (s.die d).spad.reqs.eraseIdx i else (s.die d).spad.reqs.set i { r with left := r.rest a }) ∧
    (∀ k, r.rest a = [] → r.pkt = some k → t.pcd = (s.inject (k.reply 3 0 [])).pcd) ∧
    ∀ x b, x < 0x8000000 → b < 8 → t.spadBit d x b =
      if r.lo a ≤ x ∧ x < r.lo a + r.len a then (bs.getD (x - r.addr) 0#8).getLsbD b else s.spadBit d x b := by
  intro t
  have served : t = _ := State.spadServe_write (i := i) may clean write
  have length := SpadReq.length_part full within
  have range : r.lo a + (r.part a bs).length ≤ 0x8000000 := by
    rw [State.spadOpen, Bool.and_eq_true] at may
    exact length.symm ▸ State.le_of_spadRangeOk may.1 within
  have bit := fun x b (hx : x < 0x8000000) (hb : b < 8) => State.spadBit_spadPut clean (port := classPort r.cls) range hx hb
  obtain ⟨stored, reqs⟩ := State.spadPut_only clean (classPort r.cls) (r.lo a) (r.part a bs)
  clear_value t
  generalize s.spadPut d (classPort r.cls) (r.lo a) (r.part a bs) = u at served bit stored reqs
  have bits : ∀ {y : State} x b, y.spadByte d = u.spadByte d → x < 0x8000000 → b < 8 → y.spadBit d x b =
      if r.lo a ≤ x ∧ x < r.lo a + r.len a then (bs.getD (x - r.addr) 0#8).getLsbD b else s.spadBit d x b := by
    intro y x b same hx hb
    rw [State.spadBit, same, ← State.spadBit, bit x b hx hb, length]
    exact ite_congr rfl (fun inside => by rw [SpadReq.getD_part inside.1 inside.2]) (fun _ => rfl)
  by_cases last : r.rest a = []
  · rw [if_pos last] at served ⊢
    have spad := u.spad_spadKeep_none d i
    have only := State.SpadOnly.spadKeep u d i none
    obtain ⟨die, byte, packet⟩ := (u.spadKeep d i none).spadReply_write d write []
    rw [served]
    refine ⟨?_, fun k _ pkt => ?_, fun x b => bits x b (byte.trans (u.spadByte_spadKeep ..))⟩
    · rw [die, spad, reqs]
    · rw [packet k pkt, (stored.trans only).pcd_inject]
  · rw [if_neg last] at served ⊢
    have spad := u.spad_spadKeep_some d i { r with left := r.rest a }
    rw [served]
    refine ⟨?_, fun _ h => absurd h last, fun x b => bits x b (u.spadByte_spadKeep ..)⟩
    rw [spad, reqs]

/-- R199, R202: a line of a read is gathered; with the last one its reader has the value. -/
theorem State.spadServe_read_spec (read : r.wdata = none) :
    let t := s.spadServe d i r a
    let got := sput r.got a (s.spadBytes d (r.lo a) (r.len a))
    let v := leVal (got.flatMap (·.2))
    (t.die d).spad.mem = (s.die d).spad.mem ∧
    (r.rest a ≠ [] → (t.die d).spad.reqs = (s.die d).spad.reqs.set i { r with left := r.rest a, got := got } ∧ SameOutside s t) ∧
    (r.rest a = [] → (t.die d).spad.reqs = (s.die d).spad.reqs.eraseIdx i ∧
      (r.pkt = none → r.sc = none → t.rdata = v) ∧
      (∀ k, r.pkt = some k → t.pcd = (s.inject (k.reply 2 0 (got.flatMap (·.2)))).pcd) ∧
      (∀ e c rd sx, r.pkt = none → r.sc = some (e, c, rd, sx) → t.sc e c = (s.sc e c).setLoaded rd sx r.width v)) := by
  intro t got v
  have served : t = _ := State.spadServe_read (i := i) may clean read
  have counted := State.SpadOnly.bumpPerf s d (linesOf (r.lo a) (r.len a)).length
  have same := State.die_bumpPerf s d CD_SPAD_ACCESS (linesOf (r.lo a) (r.len a)).length d
  clear_value t
  generalize s.bumpPerf d CD_SPAD_ACCESS (linesOf (r.lo a) (r.len a)).length = u at served counted same
  by_cases last : r.rest a = []
  · rw [if_pos last] at served
    have kept := u.spad_spadKeep_none d i
    have only := counted.trans (State.SpadOnly.spadKeep u d i none)
    obtain ⟨spad, packet, reader, score⟩ := (u.spadKeep d i none).spadReply_read d read (got.flatMap (·.2))
    rw [served, spad, kept, same]
    refine ⟨rfl, fun h => absurd last h, fun _ => ⟨rfl, reader, fun k pkt => ?_, fun e c rd sx pkt sc => ?_⟩⟩
    · rw [packet k pkt, only.pcd_inject]
    · rw [score e c rd sx pkt sc, only.sc]
  · rw [if_neg last] at served
    have kept := u.spad_spadKeep_some d i { r with left := r.rest a, got := got }
    rw [served, kept, same]
    exact ⟨rfl, fun _ => ⟨rfl, (counted.trans (.spadKeep u d i _)).outside⟩, fun h => absurd h last⟩

end

-- Who takes a free bank pair (spec/07 R199, R204) ---------------------------------------------------------------------------------------------

section
variable {pr : Nat}

theorem execNonschedAccessGrant_eq (hd : d < 576) (hp : pr < 64) : exec (.nonschedAccessGrant d pr) s = .next (s.nonschedGrant d pr) :=
  if_pos (by simp [Instr.wf, hd, hp])
theorem execEccRepairWriteback_eq (hd : d < 576) (hp : pr < 64) : exec (.eccRepairWriteback d pr) s = .next (s.repairGrant d pr) :=
  if_pos (by simp [Instr.wf, hd, hp])

theorem State.nonschedGrant_idle (idle : s.pairFree d pr = false ∨ s.spadWinner d pr = none) : s.nonschedGrant d pr = s := by
  unfold State.nonschedGrant
  rcases idle with taken | nobody
  · rw [taken, Bool.and_false, if_neg Bool.false_ne_true]
  · rw [nobody]
    exact ite_self s
theorem State.nonschedGrant_winner (on : s.coreOn d = true) (free : s.pairFree d pr = true) (winner : s.spadWinner d pr = some (i, r, a)) :
    s.nonschedGrant d pr = (s.spadGrant d pr r.cls).spadServe d i r a := by
  rw [State.nonschedGrant, on, free, winner]
  rfl

/-- A grant is of the cycle to come alone: bytes, errors and requests stand. -/
theorem State.spad_spadGrant (s : State) (d pr cls : Nat) :
    ((s.spadGrant d pr cls).die d).spad = { (s.die d).spad with grants := (s.die d).spad.grants ++ [(pr, cls)] } := by
  rw [State.spadGrant, State.die_modDie, if_pos rfl]
theorem State.spadByte_spadGrant (s : State) (d pr cls : Nat) : (s.spadGrant d pr cls).spadByte d = s.spadByte d :=
  (State.SpadOnly.spadGrant s d pr cls).spadByte (by rw [State.spad_spadGrant])
theorem State.spadBytes_spadGrant (s : State) (d pr cls x n : Nat) : (s.spadGrant d pr cls).spadBytes d x n = s.spadBytes d x n := by
  rw [State.spadBytes, State.spadByte_spadGrant, State.spadBytes]
theorem State.spadOpen_spadGrant (s : State) (d pr cls x n : Nat) : (s.spadGrant d pr cls).spadOpen d x n = s.spadOpen d x n := by
  have usable : (s.spadGrant d pr cls).spadOk d = s.spadOk d := by
    funext y
    unfold State.spadOk State.groupOn
    rw [State.spad_spadGrant]
    rfl
  unfold State.spadOpen State.spadRangeOk
  rw [usable]
  rfl

theorem State.repairGrant_none (noWord : sfind (s.die d).spad.repair pr = none) : s.repairGrant d pr = s := by
  rw [State.repairGrant, noWord, Option.isSome_none, Bool.and_false, if_neg Bool.false_ne_true]

theorem sfind_serase {α : Type} (m : SMap α) (k : Nat) : sfind (serase m k) k = none := by
  rw [sfind, serase, Option.map_eq_none_iff, List.find?_eq_none]
  intro e he
  exact by simpa using (List.mem_filter.1 he).2

/-- R204: a repair that takes its bank pair removes the flipped bits of its word. -/
theorem State.repairGrant_spec {n : Nat} (on : s.coreOn d = true) (word : sfind (s.die d).spad.repair pr = some n) (free : s.pairFree d pr = true)
    (nobody : s.spadWinner d pr = none) (first : (s.die d).spad.granted 3 = 0) : let t := s.repairGrant d pr
    (t.die d).spad.errs = serase (s.die d).spad.errs (n - 1) ∧ (t.die d).spad.repair = serase (s.die d).spad.repair pr ∧
      (t.die d).spad.mem = (s.die d).spad.mem ∧ SameOutside s t := by
  intro t
  let g := s.spadGrant d pr 3
  have grant : t = g.repairNow d pr := by
    simp only [t, State.repairGrant, on, free, nobody, first, word]
    rfl
  have repairs : t = (g.bumpPerf d CD_SPAD_ACCESS 1).modDie d (fun x =>
      { x with spad := { x.spad with repair := serase x.spad.repair pr, errs := serase x.spad.errs (n - 1) } }) := by
    rw [grant, State.repairNow, State.spad_spadGrant]
    simp only [word]
  have only : s.SpadOnly t d := by
    rw [repairs]
    exact (State.SpadOnly.spadGrant s d pr 3).trans ((State.SpadOnly.bumpPerf ..).trans (.modDie _ d ⟨_, rfl⟩))
  refine ⟨?_, ?_, ?_, only.outside⟩
  all_goals
    rw [repairs, State.die_modDie, if_pos rfl, State.die_bumpPerf]
    dsimp only
    rw [State.spad_spadGrant]

end

end

/-- Settles O28: each command by the equation of its case; a grant is the service of one line on the state that records it. -/
theorem scratchpadServices : Obligations.ScratchpadServices := by
  intro s d hd on
  refine ⟨fun g hg idle => ?unsettled, fun g hg settling noLoad => ⟨_, execSpadGroupReady_eq hd hg, ?settled⟩,
    fun scrubs => ⟨fun n _ => ⟨_, execSpadScrubDone_eq hd _, ?bad⟩, fun quiet => ⟨_, execSpadScrubDone_eq hd _, ?clean⟩⟩,
    fun idle b _ => ?noScrub, fun pr hp idle => ?nobody, fun pr i r a hp free winner => ?grant,
    fun pr hp idle => ?noRepair, fun pr n hp word free nobody first => ⟨_, execEccRepairWriteback_eq hd hp, ?repair⟩⟩
  case unsettled => rw [execSpadGroupReady_eq hd hg, State.groupReady_idle idle]
  case settled =>
    obtain ⟨spad, outside⟩ := State.groupReady_settled on settling noLoad
    rw [spad]
    refine ⟨?_, fun pos hpos => ?_, outside⟩
    · simp [Spad.filled]
    · refine (memRead_keepGroups ..).trans ?_
      rw [testBit_allBut hg (groupOfPos_lt hpos)]
      by_cases same : groupOfPos pos = g <;> simp [same]
  case bad =>
    rw [State.spadScrubDone_bad on scrubs]
    exact s.spadFailed_reported d n
  case clean =>
    rw [State.spadScrubDone_clean on scrubs quiet]
    dsimp only
    rw [State.die_spadZeroed]
    exact ⟨rfl, rfl, rfl, s.rg_spadZeroed d, s.spadZeroed_outside d⟩
  case noScrub => rw [execSpadScrubDone_eq hd, State.spadScrubDone_idle idle]
  case nobody => rw [execNonschedAccessGrant_eq hd hp, State.nonschedGrant_idle idle]
  case grant =>
    intro lo n left got v
    let g := s.spadGrant d pr r.cls
    have taken : exec (.nonschedAccessGrant d pr) s = .next (g.spadServe d i r a) := by
      rw [execNonschedAccessGrant_eq hd hp, State.nonschedGrant_winner on free winner]
    have granted : s.SpadOnly g d := .spadGrant ..
    have spad : (g.die d).spad = _ := s.spad_spadGrant d pr r.cls
    have byte : g.spadByte d = s.spadByte d := s.spadByte_spadGrant d pr r.cls
    have opens : g.spadOpen d lo n = s.spadOpen d lo n := s.spadOpen_spadGrant ..
    refine ⟨fun closed pkt sc => ⟨_, taken, ?closed⟩, fun may clean => ?may⟩
    case closed =>
      dsimp only
      rw [State.spadServe_closed (opens.trans closed), State.spad_spadRefuse _ d pkt sc, State.spad_spadKeep_none, spad]
      exact ⟨rfl, rfl⟩
    case may =>
      have cleanNow : (g.die d).spad.errs = [] := by rw [spad, clean]
      refine ⟨fun bs write full within => ⟨_, taken, ?write⟩, fun read => ⟨_, taken, ?read⟩⟩
      case write =>
        obtain ⟨reqs, packet, bits⟩ := State.spadServe_write_spec (i := i) (opens.trans may) cleanNow write full within
        refine ⟨?_, fun k last pkt => ?_, fun x b hx hb => ?_⟩
        · rw [reqs, spad]
          rfl
        · rw [packet k last pkt, granted.pcd_inject]
        · rw [bits x b hx hb, State.spadBit, byte]
          rfl
      case read =>
        obtain ⟨mem, more, done⟩ := State.spadServe_read_spec (i := i) (opens.trans may) cleanNow read
        rw [State.spadBytes_spadGrant] at done more
        refine ⟨by rw [mem, spad], fun within => ?_, fun last => ?_⟩
        · obtain ⟨reqs, outside⟩ := more within
          exact ⟨by rw [reqs, spad]; rfl, granted.outside.trans outside⟩
        · obtain ⟨reqs, reader, packet, score⟩ := done last
          refine ⟨by rw [reqs, spad], reader, fun k pkt => ?_, fun e c rd sx pkt sc => ?_⟩
          · exact (packet k pkt).trans (granted.pcd_inject _)
          · exact (score e c rd sx pkt sc).trans (congrArg (fun y => y.setLoaded rd sx r.width v) (granted.sc e c))
  case noRepair => rw [execEccRepairWriteback_eq hd hp, State.repairGrant_none idle]
  case repair =>
    obtain ⟨errs, repair, mem, outside⟩ := State.repairGrant_spec on word free nobody first
    rw [errs, repair]
    refine ⟨by rw [sget_serase, if_pos rfl], fun w other => by rw [sget_serase, if_neg other], sfind_serase _ _, mem, outside⟩

end Sys2Proof.Machine
end

section
/-! Tokens and their credits: departure, arrival, return (spec/08 R219-R223; O26). -/

namespace Sys2Proof.Machine

/-- A change of one lane of a place. -/
def State.modLane (s : State) (d p l : Nat) (f : Lane → Lane) : State := s.modPlace d p (fun x => x.setLane l (f (x.lane l)))

section
variable {s : State} {d p lane : Nat}

theorem State.lane_modLane (s : State) (d p l : Nat) (f : Lane → Lane) (e q m : Nat) :
    ((s.modLane d p l f).place e q).lane m = if e = d ∧ q = p ∧ m = l then f ((s.place d p).lane l) else (s.place e q).lane m := by
  rw [State.modLane, State.place_modPlace]
  by_cases same : e = d ∧ q = p
  · obtain ⟨rfl, rfl⟩ := same
    rw [if_pos ⟨rfl, rfl⟩, Place.lane_setLane]
    simp only [true_and]
  · rw [if_neg same, if_neg (fun h => same ⟨h.1, h.2.1⟩)]
theorem State.lane_modLane_same (s : State) (d p l : Nat) (f : Lane → Lane) :
    ((s.modLane d p l f).place d p).lane l = f ((s.place d p).lane l) := (State.lane_modLane ..).trans (if_pos ⟨rfl, rfl, rfl⟩)
theorem SameOutside.modLane {s t : State} (h : SameOutside s t) (d p l : Nat) (f : Lane → Lane) : SameOutside s (t.modLane d p l f) :=
  h.setDie d _

-- Departure and the return of a credit (spec/08 R220, R221) -----------------------------------------------------------------------------------

/-- A token that leaves: its credit goes, and it is on its way to its peer for λ cycles. -/
theorem State.depart_of_credit {n e q m : Nat} {tok : Token} {r : List (Nat × Token)} (on : s.coreOn d = true) (outbound : 2 ≤ lane)
    (credit : 0 < ((s.place d p).lane lane).cred) (out : ((s.place d p).lane lane).out = (n, tok) :: r)
    (peer : s.peer d p lane = some (e, q, m)) : s.depart d p lane =
      ((s.modLane d p lane (fun l => { l with out := r, cred := l.cred - 1 })).modLane e q m (fun k => { k with
        wire := k.wire ++ [(s.ccountOf d + lambdaOf (s.bindOf d p lane), tok)] })).modDie d (fun x => { x with lastDep := s.ccountOf d }) := by
  unfold State.depart
  simp only [on, outbound, credit, decide_true, Bool.and_self, if_true, out, peer]
  rfl
theorem State.depart_idle (idle : lane < 2 ∨ ((s.place d p).lane lane).cred = 0 ∨ ((s.place d p).lane lane).out = [] ∨
    s.peer d p lane = none) : s.depart d p lane = s := by
  unfold State.depart
  dsimp only
  split
  next goes =>
    simp only [Bool.and_eq_true, decide_eq_true_eq] at goes
    obtain ⟨⟨-, outbound⟩, credit⟩ := goes
    split
    next out peer =>
      rw [out, peer] at idle
      simp only [reduceCtorEq, or_false] at idle
      omega
    next => rfl
  next => rfl

/-- R221: a credit comes back, up to the lane's limit. -/
theorem State.creditBack_outbound (on : s.coreOn d = true) (outbound : 2 ≤ lane) : s.creditBack d p lane =
    s.modLane d p lane (fun l => { l with cred := min (s.laneRoom d p lane) (l.cred + 1), retAt := l.retAt.tail }) := by
  unfold State.creditBack
  simp only [on, outbound, decide_true, Bool.and_self, if_true]
  rfl

-- Arrival (spec/08 R222, R223, R243) -----------------------------------------------------------------------------------------------------------

/-- A token that arrives is on its way no more. -/
def State.unwired (s : State) (d p lane : Nat) : State := s.modLane d p lane (fun k => { k with wire := k.wire.tail })
/-- An uncorrectable token is recorded, and reported by the link or the place that it came over. -/
def State.tokenBad (s : State) (d p lane : Nat) : State :=
  (s.plRecord d 1 p (s.turnOf d p) 0 lane 0).raise d 0x2150 (s.tokenUnit d p lane) 0

/-- A fault that is recorded and reported leaves the places, and adds its ALERT. -/
theorem State.plRecord_raised (s : State) (d kind place slot cause lane entry code unit data : Nat) :
    let t := (s.plRecord d kind place slot cause lane entry).raise d code unit data
    (∀ e q, t.place e q = s.place e q) ∧ (∃ a, t.pcd.alerts = s.pcd.alerts ++ [a] ∧ a.code = code ∧ a.node = d) ∧ SameOutside s t := by
  obtain ⟨r, recorded⟩ := s.plRecord_frame d kind place slot cause lane entry
  rw [recorded]
  exact ⟨fun _ _ => rfl, ⟨_, rfl, rfl, rfl⟩, ((SameOutside.refl s).withRegs r).raise ..⟩

theorem State.arrive_bad_sideband (on : s.coreOn d = true) (inbound : lane < 2) (tok : Token) (payload : Ecc) :
    s.arrive d p lane tok .uncorrectable payload = (s.unwired d p lane).tokenBad d p lane := by
  unfold State.arrive
  simp only [on, inbound, decide_true, Bool.and_self, if_true]
  rfl
/-- With a sound sideband the generation decides, then the payload. -/
theorem State.arrive_sound (on : s.coreOn d = true) (inbound : lane < 2) (tok : Token) (payload : Ecc) :
    s.arrive d p lane tok .clean payload =
      let u := s.unwired d p lane
      if tok.gen.toNat ≠ s.rg d CD_PL_CTRL % 16 then u.bumpErr d CD_PL_STALE CD_PL_STATUS 31 1
      else if payload = .uncorrectable then u.tokenBad d p lane
      else (if payload = .corrected then u.tokCorr d else u).enqueue d p lane tok := by
  unfold State.arrive
  simp only [on, inbound, decide_true, Bool.and_self, if_true, reduceCtorEq, if_false]
  rfl

theorem State.enqueue_room (room : ((s.place d p).lane lane).q.length < s.laneRoom d p lane) (tok : Token) :
    s.enqueue d p lane tok = s.modLane d p lane (fun l => { l with q := l.q ++ [tok] }) := if_neg (by omega)
theorem State.enqueue_full (full : s.laneRoom d p lane ≤ ((s.place d p).lane lane).q.length) (tok : Token) :
    s.enqueue d p lane tok = (s.plRecord d 2 p (s.turnOf d p) 0 lane 0).raise d 0x2152 (unitCore d p) 0 := if_pos full

/-- A correction counted leaves the room of a lane, which its binding names. -/
theorem State.laneRoom_setRg_tokCorr (hp : p < 25) (v : Nat) : (s.setRg d CD_PL_TOK_CORR v).laneRoom d p lane = s.laneRoom d p lane := by
  have bind : (s.setRg d CD_PL_TOK_CORR v).bindOf d p lane = s.bindOf d p lane := by
    rw [State.bindOf, State.rg_setRg_node, if_neg (by unfold CD_PL_BIND CD_PL_TOK_CORR; omega), State.bindOf]
  rw [State.laneRoom, bind, State.laneRoom]

end

section
variable {s : State} {d p lane : Nat} (hd : d < 576) (hp : p < 25) (hl : lane < 4)
include hd hp hl

theorem wf_lane : (decide (d < 576) && decide (p < 25) && decide (lane < 4)) = true := by simp [hd, hp, hl]
theorem execTokenDepart_eq : exec (.tokenDepart d p lane) s = .next (s.depart d p lane) := if_pos (wf_lane hd hp hl)
theorem execTokenArrive_eq (tok : Token) (sideband payload : Ecc) :
    exec (.tokenArrive d p lane tok sideband payload) s = .next (s.arrive d p lane tok sideband payload) := if_pos (wf_lane hd hp hl)
theorem execCreditReturn_eq : exec (.creditReturn d p lane) s = .next (s.creditBack d p lane) := if_pos (wf_lane hd hp hl)

end

/-- Settles O26: each command changes one lane, or two, beside a count or a report. -/
theorem tokensAndCredits : Obligations.TokensAndCredits := by
  intro s d p lane hd hp hl on x l
  have off := (SameOutside.refl s).modLane d p lane (fun k => { k with wire := k.wire.tail })
  have lane0 : ((s.unwired d p lane).place d p).lane lane = { l with wire := l.wire.tail } := s.lane_modLane_same ..
  have bad : ∀ kind slot code unit, let t := ((s.unwired d p lane).plRecord d kind p slot 0 lane 0).raise d code unit 0
      ((t.place d p).lane lane).q = l.q ∧ (∃ a, t.pcd.alerts = s.pcd.alerts ++ [a] ∧ a.code = code ∧ a.node = d) ∧ SameOutside s t := by
    intro kind slot code unit
    obtain ⟨place, alert, outside⟩ := (s.unwired d p lane).plRecord_raised d kind p slot 0 lane 0 code unit 0
    exact ⟨by rw [place, lane0], alert, off.trans outside⟩
  have arrives := fun tok payload => execTokenArrive_eq (s := s) hd hp hl tok .clean payload
  refine ⟨fun n tok r e q m outbound credit out peer => ⟨_, execTokenDepart_eq hd hp hl, ?depart⟩, fun idle => ?idle,
    fun tok inbound own => ?own, fun tok inbound stale low => ⟨_, arrives tok .clean, ?stale⟩,
    fun tok payload inbound => ⟨_, execTokenArrive_eq hd hp hl tok .uncorrectable payload, ?sideband⟩,
    fun outbound => ⟨_, execCreditReturn_eq hd hp hl, ?credit⟩⟩
  case depart =>
    rw [State.depart_of_credit on outbound credit out peer]
    have place : ∀ (t : State) a b, (t.modDie d (fun x => { x with lastDep := s.ccountOf d })).place a b = t.place a b := fun t a b => by
      rw [State.place, State.die_modDie]
      split
      · subst a
        rfl
      · rfl
    refine ⟨?_, ?_, ?_, by rw [State.die_modDie, if_pos rfl], (((SameOutside.refl s).modLane ..).modLane ..).setDie d _⟩
    all_goals rw [place]
    · rw [State.lane_modLane]
      split
      next same =>
        obtain ⟨rfl, rfl, rfl⟩ := same
        rw [State.lane_modLane_same]
      next => rw [State.lane_modLane_same]
    · rw [State.lane_modLane]
      split
      next same =>
        obtain ⟨rfl, rfl, rfl⟩ := same
        rw [State.lane_modLane_same]
      next => rw [State.lane_modLane_same]
    · rw [State.lane_modLane_same, State.lane_modLane]
      split
      next same =>
        obtain ⟨rfl, rfl, rfl⟩ := same
        rfl
      next => rfl
  case idle => rw [execTokenDepart_eq hd hp hl, State.depart_idle idle]
  case own =>
    have sound := fun payload => State.arrive_sound (p := p) on inbound tok payload
    simp only [own, ne_eq, not_true_eq_false, if_false] at sound
    refine ⟨fun room => ⟨_, arrives tok .clean, ?room⟩, fun full => ⟨_, arrives tok .clean, ?full⟩,
      fun low room => ⟨_, arrives tok .corrected, ?corrected⟩, ⟨_, arrives tok .uncorrectable, ?payload⟩⟩ <;> rw [sound]
    case room =>
      rw [if_neg (by decide), if_neg (by decide), State.enqueue_room (by rw [lane0]; exact room)]
      refine ⟨?_, ?_, rfl, off.modLane ..⟩ <;> rw [State.lane_modLane_same, lane0]
    case full =>
      rw [if_neg (by decide), if_neg (by decide), State.enqueue_full (by rw [lane0]; exact full)]
      exact bad 2 _ 0x2152 _
    case corrected =>
      have counted : (s.unwired d p lane).tokCorr d = (s.unwired d p lane).setRg d CD_PL_TOK_CORR (s.rg d CD_PL_TOK_CORR + 1) :=
        State.bumpErr_of_lt (s := s.unwired d p lane) (Nat.add_lt_of_lt_sub low) one_ne_zero
      rw [if_neg (by decide), if_pos rfl, counted, State.enqueue_room (by
        rw [State.place_setRg, lane0, State.laneRoom_setRg_tokCorr hp]
        exact room)]
      refine ⟨?_, State.rg_setRg_same .., (off.withRegs _).modLane ..⟩
      rw [State.lane_modLane_same, State.place_setRg, lane0]
    case payload =>
      rw [if_pos rfl]
      exact bad 1 _ 0x2150 _
  case stale =>
    rw [State.arrive_sound on inbound, if_pos stale, State.bumpErr_of_lt (s := s.unwired d p lane) (Nat.add_lt_of_lt_sub low) one_ne_zero]
    exact ⟨by rw [State.place_setRg, lane0], State.rg_setRg_same .., off.withRegs _⟩
  case sideband =>
    rw [State.arrive_bad_sideband on inbound]
    exact bad 1 _ 0x2150 _
  case credit =>
    rw [State.creditBack_outbound on outbound]
    refine ⟨?_, ?_, ?_, fun k other => ?_, (SameOutside.refl s).modLane ..⟩
    all_goals rw [State.lane_modLane]
    · rw [if_pos ⟨rfl, rfl, rfl⟩]
    · rw [if_pos ⟨rfl, rfl, rfl⟩]
    · rw [if_pos ⟨rfl, rfl, rfl⟩]
    · rw [if_neg (fun h => other h.2.2)]

end Sys2Proof.Machine
end

section
/-! A spindle packet to a number that no node has (spec/11 R335-R337; O38). -/

namespace Sys2Proof.Machine

/-- An SPSEND packet whose 10-bit DST is 861, past the spindle's nodes 0 to 737 (spec/11 R335). -/
def strayPkt : SpPkt := spPkt 1 736 861 0 0 0
/-- The panel at reset with that packet at the head of PCD A's output to RSD 0. -/
def strayPanel : State := State.reset.setSpQ 736 0 true [strayPkt]

/-- RSD 0 takes every DST from 736 up for a PCD of its own, and so the packet to its output 861 - 733. -/
theorem spPort_strayPanel : strayPanel.spPort 720 861 = some 128 := rfl
/-- That output's FIFO is the one of PCD A's output 0, which the packet has left. -/
theorem spKey_stray : spKey 720 128 true = spKey 736 0 true := rfl
theorem spUp_strayPanel : strayPanel.spUp 736 = true ∧ strayPanel.spUp 720 = true := ⟨rfl, rfl⟩

theorem execSpindleForward_strayPanel : exec (.spindleForward 736 0 true .clean) strayPanel =
    .next ((strayPanel.setSpQ 736 0 true []).spPush 720 128 strayPkt) := rfl
/-- The packet comes back to the FIFO that sent it. -/
theorem spQ_strayPanel_forwarded :
    ((strayPanel.setSpQ 736 0 true []).spPush 720 128 strayPkt).spQ 736 0 true = [strayPkt] := by
  rw [State.spPush, State.setSpQ, State.spQ, State.pcd_setPcd, sget_nput, if_pos (show spKey 736 0 true = spKey 720 128 strayPkt.cls from rfl)]
  rfl

/-- Refutes O38: the model routes a DST that no node has. A packet to node 861 at the head of PCD A's output 0 goes to output 128 of RSD 0, whose
FIFO is PCD A's output 0 again, so that the FIFO is not left with the rest of its packets. -/
theorem not_spindlePackets : ¬ Obligations.SpindlePackets := by
  rintro ⟨forwards, -⟩
  obtain ⟨-, sends, -⟩ := forwards strayPanel 736 0 true .clean (by decide) (by decide)
  obtain ⟨routed, -⟩ := sends strayPkt [] 720 rfl spUp_strayPanel.1 (by decide) rfl (by decide) spUp_strayPanel.2
  obtain ⟨t, sent, left, -⟩ := routed 128 rfl (.inl rfl) spPort_strayPanel
  rw [execSpindleForward_strayPanel] at sent
  cases sent
  rw [spQ_strayPanel_forwarded] at left
  cases left

end Sys2Proof.Machine
end

section
/-! NOTICE, ALERT, REG and BEACON packets at their nodes, repeated ALERTs and merged records (spec/08 R244, R249, spec/11 R335, spec/14 R413,
R418, R419, spec/16 R453, R454; O39). -/

namespace Sys2Proof.Machine

section
variable {s : State}

/-- A state with other packets in the FIFOs of the spindle. -/
def State.withSpn (s : State) (l : SMap (List SpPkt)) : State := s.setPcd (fun q => { q with spn := l })
theorem SameOutside.withSpn (s : State) (l : SMap (List SpPkt)) : SameOutside s (s.withSpn l) := ⟨rfl, rfl, rfl, rfl, rfl, rfl, rfl, rfl, rfl, rfl⟩

/-- The packet that arrives leaves the FIFOs of the spindle; nothing else changes. -/
theorem State.spDrop_frame (s : State) (f : Nat → SpPkt → Bool) : ∃ l, s.spDrop f = s.withSpn l := by
  unfold State.spDrop
  split
  · exact ⟨_, rfl⟩
  · exact ⟨s.pcd.spn, rfl⟩
theorem State.spDrop_of_no_packets (empty : s.pcd.spn = []) (f : Nat → SpPkt → Bool) : s.spDrop f = s := by
  rw [State.spDrop, empty]
  rfl

/-- What a change of the PCD leaves. -/
theorem SameOutside.setPcd (s : State) (f : Pcd → Pcd) : SameOutside s (s.setPcd f) := ⟨rfl, rfl, rfl, rfl, rfl, rfl, rfl, rfl, rfl, rfl⟩

theorem State.siteNode_lt {site d : Nat} (node : s.siteNode site = some d) : d < 576 := by
  unfold State.siteNode at node
  dsimp only at node
  split at node
  · cases node
  · split at node
    · cases node
    · cases node
      split <;> omega

-- Notices (spec/08 R244, R249, spec/14 R413) ----------------------------------------------------------------------------------------------------

section
variable {site p : Nat}

/-- R249: no die has a running place, so that none waits. -/
theorem State.deadlock_of_no_running (idle : ∀ d, d < 576 → ∀ q ∈ (s.die d).places, q.2.st ≠ .running) (p : Nat) : s.deadlock p = s := by
  unfold State.deadlock
  dsimp only
  refine if_neg fun h => h.1 (List.filter_eq_nil_iff.2 fun e he => ?_)
  obtain ⟨i, -, hi⟩ := List.mem_filterMap.1 he
  obtain ⟨d, node, rfl⟩ := Option.map_eq_some_iff.1 hi
  rw [List.any_eq_true]
  rintro ⟨q, hq, running⟩
  exact idle d (State.siteNode_lt node) q hq (of_decide_eq_true running)

theorem State.drainedIn_no_drain (none : (s.part p).drainAt = none) (site : Nat) : s.drainedIn p site = s := by
  unfold State.drainedIn
  dsimp only
  rw [none, Option.isNone_none, if_pos rfl]
/-- R244: a report is kept until every die has reported. -/
theorem State.drainedIn_waits (drain : (s.part p).drainAt.isSome = true)
    (waits : ∃ i ∈ s.sitesOf p, (s.siteNode i).isSome = true ∧ (insUniq site (s.part p).drained).contains i = false) :
    s.drainedIn p site = s.setPart p { s.part p with drained := insUniq site (s.part p).drained } := by
  obtain ⟨i, mem, node, absent⟩ := waits
  unfold State.drainedIn
  dsimp only
  rw [if_neg (by rw [Option.isNone_eq_false_iff.2 drain]; exact Bool.false_ne_true)]
  refine if_neg fun all => ?_
  have reported : ((s.siteNode i).isNone || (insUniq site (s.part p).drained).contains i) = true := List.all_eq_true.1 all i mem
  rw [absent, Bool.or_false] at reported
  rw [Option.isNone_iff_eq_none.1 reported] at node
  exact Bool.false_ne_true node

variable (part : s.partOfSite site = some p)
include part

theorem State.noticeIn_idle : s.noticeIn site 0 = (s.setPart p { s.part p with idle := insUniq site (s.part p).idle }).deadlock p := by
  unfold State.noticeIn
  rw [part]
  rfl
theorem State.noticeIn_active :
    s.noticeIn site 1 = s.setPart p { s.part p with idle := (s.part p).idle.filter (fun i => decide (i ≠ site)) } := by
  unfold State.noticeIn
  rw [part]
  rfl
theorem State.noticeIn_drained : s.noticeIn site 2 = s.drainedIn p site := by
  unfold State.noticeIn
  rw [part]
  rfl
/-- The PCD may name W by then: a packet on the spindle (spec/14 R413). -/
theorem State.noticeIn_step : ∃ l, s.noticeIn site 3 =
    (s.setPart p { s.part p with atStep := insUniq site (s.part p).atStep }).withSpn l := by
  unfold State.noticeIn
  rw [part]
  dsimp only
  rw [if_neg (by decide), if_neg (by decide), if_neg (by decide)]
  split
  · exact State.spBroadcast_frame ..
  · exact ⟨s.pcd.spn, rfl⟩

end

-- Alerts and register packets (spec/00 R21, spec/11 R335, spec/16 R453) ------------------------------------------------------------------------

/-- The ALERTs and their marks without those of a node under a serial. -/
def Pcd.acked (q : Pcd) (n serial : Nat) : Pcd :=
  { q with alerts := q.alerts.filter (fun x => !(decide (x.node = n) && decide (x.serial = serial))),
           seen := q.seen.filter (fun x => decide (x ≠ (n, serial))) }

section
variable {a : Alert} (seen : s.pcd.seen.contains (a.node, a.serial) = true)
include seen

/-- R453: an ALERT seen before has no further event; the PCD's own is acknowledged at once, another by a REG_RSP. -/
theorem State.alertTake_own (own : a.node = s.activeNode) : s.alertTake a = s.setPcd (fun q => q.acked a.node a.serial) := by
  rw [State.alertTake, State.alertIn, if_pos seen]
  exact if_pos own
theorem State.alertTake_other (other : a.node ≠ s.activeNode) : ∃ l, s.alertTake a = s.withSpn l := by
  obtain ⟨l, sent⟩ := s.spSend_frame s.activeNode (spPkt 11 s.activeNode a.node 0 0 a.serial)
  refine ⟨l, ?_⟩
  rw [State.alertTake, State.alertIn, if_pos seen]
  exact (if_neg other).trans sent

end

section
variable {n off : Nat} {r : RegRow}

theorem State.regRspIn_value (active : n = s.activeNode) (v : Nat) : s.regRspIn n v = { s with rdata := v } := if_pos active
theorem State.regRspIn_ack (die : n ≠ s.activeNode) (v : Nat) : s.regRspIn n v = s.setPcd (fun q => q.acked n v) := if_neg die

theorem regAligned_regBytes (n : Nat) (aligned : off % 8 = 0) : regAligned off (regBytes n off) = true := by
  unfold regAligned regBytes
  split <;> simp <;> omega

theorem State.regRdIn_listed (on : s.nodeOn n = true) (row : findReg (blkOf n) off (regBytes n off) = some r) (plain : r.rc = 0)
    (aligned : off % 8 = 0) :
    s.regRdIn n off = s.spSend n (spPkt 11 n s.activeNode ((s.partOfNode n).getD 0) off (s.regVal n off)) := by
  have read : s.regRead .pcd n off (regBytes n off) 0 = (s, s.regVal n off) := by
    unfold State.regRead
    rw [if_pos (regAligned_regBytes n aligned), row]
    exact if_pos plain
  rw [State.regRdIn, if_pos on, read]
/-- A plain register takes the value that REG_WR carries. -/
theorem State.regWrIn_plain (die : n < 736) (on : s.nodeOn n = true) (row : findReg (blkOf n) off (regBytes n off) = some r)
    (aligned : off % 8 = 0) (plain : specialReg n off = false) (may : s.writerOk .pcd r.writer n = true) (v : Nat) :
    s.regWrIn n off v = s.setRg n off (r.written (s.rg n off) (v % 2 ^ r.width)) := by
  have := s.le_activeNode
  unfold State.regWrIn
  rw [if_neg (by omega), if_pos on, State.regWrite_listed (by omega) (regAligned_regBytes n aligned) row, if_pos may,
    State.regEffect_of_not_special plain]
theorem State.regWrIn_tally {v : Nat} (active : n = s.activeNode) (low : s.rg nodePc PC_BAD_ACCESS_COUNT + v < 0xFFFFFFFF) :
    ∃ m, s.regWrIn n PC_BAD_ACCESS_COUNT v = { s with regs := m } ∧
      (s.regWrIn n PC_BAD_ACCESS_COUNT v).rg nodePc PC_BAD_ACCESS_COUNT = s.rg nodePc PC_BAD_ACCESS_COUNT + v := by
  have counts : s.regWrIn n PC_BAD_ACCESS_COUNT v = s.badAccess v := if_pos ⟨active, rfl⟩
  rw [counts, State.badAccess]
  by_cases zero : v = 0
  · subst zero
    rw [State.bumpErr, if_pos (.inr rfl)]
    exact ⟨s.regs, rfl, rfl⟩
  · rw [State.bumpErr_of_lt low zero]
    exact ⟨_, rfl, State.rg_setRg_same ..⟩

/-- A packet sent joins the FIFO of its node's output toward its destination. -/
theorem State.spSend_of_port {k : SpPkt} {out : Nat} (port : s.spPort n k.dst.toNat = some out) : s.spSend n k = s.spPush n out k := by
  rw [State.spSend, port]
theorem State.spQ_spPush_same (s : State) (n out : Nat) (k : SpPkt) : (s.spPush n out k).spQ n out k.cls = s.spQ n out k.cls ++ [k] := by
  rw [State.spPush, State.setSpQ, State.spQ, State.pcd_setPcd, sget_nput, if_pos rfl]
theorem State.activeNode_lt (s : State) : s.activeNode < 738 := by
  unfold State.activeNode b2n
  split <;> omega

-- Beacons (spec/14 R418, R419) --------------------------------------------------------------------------------------------------------------------

theorem State.rgB_setRgB (s : State) (n o k : Nat) (b : Bool) : (s.setRgB n o k b).rgB n o k = b := by
  rw [State.rgB, State.setRgB, State.setRgF, State.rg_setRg_same, testBit_setBits _ _ _ le_rfl, if_pos ⟨le_rfl, le_rfl⟩, Nat.sub_self]
  cases b <;> rfl

/-- The error that a beacon shows at a node, in 1/16 ns. -/
def State.beaconErr (s : State) (n v : Nat) : Int := signedOf 64 (wrapSub 64 v (s.localPtc16 n))
/-- It is recorded, and with it whether it is small. -/
def State.beaconNoted (s : State) (n : Nat) (e : Int) : State :=
  (s.setRg n (clkOff n 0x28) (e % 2 ^ 32).toNat).setRgB n (clkOff n 0) 9 (!decide (1024 < e.natAbs))

theorem State.beaconNoted_spec (s : State) (n : Nat) (e : Int) :
    (s.beaconNoted n e).rg n (clkOff n 0x28) = (e % 2 ^ 32).toNat ∧
      (s.beaconNoted n e).rgB n (clkOff n 0) 9 = decide (e.natAbs ≤ 1024) := by
  refine ⟨?_, ?_⟩
  · rw [State.beaconNoted, State.setRgB, State.setRgF, State.rg_setRg_node, if_neg (by unfold clkOff; omega), State.rg_setRg_same]
  · rw [State.beaconNoted, State.rgB_setRgB, ← decide_not]
    exact decide_eq_decide.2 not_lt
/-- R419: a node slews a small error out. -/
theorem State.beaconIn_near {v : Nat} (on : s.nodeOn n = true) (near : (s.beaconErr n v).natAbs ≤ 1024) : ∃ rate, s.beaconIn n v =
    (s.beaconNoted n (s.beaconErr n v)).setPcd (fun q => { q with ptcSlew := nput 0 q.ptcSlew n (s.beaconErr n v), ptcRate := rate }) := by
  have small : decide (1024 < (s.beaconErr n v).natAbs) = false := decide_eq_false (by omega)
  unfold State.beaconErr at *
  unfold State.beaconIn State.beaconNoted
  simp only [on, small, Bool.not_true, Bool.false_eq_true, if_false, Bool.false_and]
  exact ⟨_, rfl⟩
/-- A far error is reported; the node slews it out, or takes the time outright where no job is loaded. -/
theorem State.beaconIn_far {v : Nat} (on : s.nodeOn n = true) (far : 1024 < (s.beaconErr n v).natAbs) : ∃ err slew rate, s.beaconIn n v =
    ((s.beaconNoted n (s.beaconErr n v)).raise n 0x11A2 (unitDie n) 0).setPcd (fun q => { q with ptcErr := err, ptcSlew := slew, ptcRate := rate }) := by
  have large : decide (1024 < (s.beaconErr n v).natAbs) = true := decide_eq_true far
  unfold State.beaconErr at *
  unfold State.beaconIn State.beaconNoted
  simp only [on, large, Bool.not_true, Bool.false_eq_true, if_false, if_true, Bool.true_and]
  split_ifs
  · exact ⟨_, _, _, rfl⟩
  · exact ⟨_, _, _, rfl⟩

end

-- Merged records (spec/16 R454, spec/18 R512) ---------------------------------------------------------------------------------------------------

/-- The packets of a record to the report addresses of a host port, newest first. -/
def State.eventPackets (s : State) (e : Event) (portB : Bool) : List Out :=
  if s.hostPort portB then ((match s.pcd.conf with | some c => c.reports | none => []).map (fun a => Out.event portB a e)).reverse else []
/-- All that has been sent outward once a record is: the management path's message last. -/
def State.outAfter (s : State) (e : Event) : List Out :=
  (if s.mgmtUp then [.mgmt (.event e)] else []) ++ (s.eventPackets e true ++ (s.eventPackets e false ++ s.out))

theorem State.sendEvent_eq (s : State) (e : Event) : s.sendEvent e = { s with out := s.outAfter e } := by
  have emits : ∀ (b : Bool) (l : List Nat) (t : State),
      l.foldl (fun u a => u.emit (.event b a e)) t = { t with out := (l.map (fun a => Out.event b a e)).reverse ++ t.out } := by
    intro b l
    induction l with
    | nil => exact fun _ => rfl
    | cons a l ih =>
      intro t
      rw [List.foldl_cons, ih, List.map_cons, List.reverse_cons, List.append_assoc]
      rfl
  unfold State.sendEvent State.outAfter State.eventPackets
  simp only [emits]
  cases s.hostPort true <;> cases s.hostPort false <;> cases s.mgmtUp <;> rfl
theorem State.mem_outAfter (s : State) (e : Event) :
    (s.mgmtUp = true → Out.mgmt (.event e) ∈ s.outAfter e) ∧
      ∀ b c, s.hostPort b = true → s.pcd.conf = some c → ∀ a ∈ c.reports, Out.event b a e ∈ s.outAfter e := by
  refine ⟨fun up => ?_, fun b c up conf a ha => ?_⟩
  · rw [State.outAfter, if_pos up]
    exact List.mem_cons_self
  · have packet : Out.event b a e ∈ s.eventPackets e b := by
      rw [State.eventPackets, if_pos up, conf]
      exact List.mem_reverse.2 (List.mem_map_of_mem ha)
    rw [State.outAfter]
    cases b with
    | true => exact List.mem_append_right _ (List.mem_append_left _ packet)
    | false => exact List.mem_append_right _ (List.mem_append_right _ (List.mem_append_left _ packet))

theorem State.mergeFlush_of_merging {code unit : Nat} {e : Event}
    (merging : s.pcd.merging.find? (fun e => decide (e.code = code ∧ e.unit = unit)) = some e) :
    s.mergeFlush code unit = { s.setPcd (fun q => { q with merging := q.merging.erase e }) with out := s.outAfter e } := by
  rw [State.mergeFlush, merging]
  exact State.sendEvent_eq ..
theorem State.mergeFlush_of_none {code unit : Nat} (none : s.pcd.merging.find? (fun e => decide (e.code = code ∧ e.unit = unit)) = none) :
    s.mergeFlush code unit = s := by
  rw [State.mergeFlush, none]

-- Repeats (spec/16 R453) --------------------------------------------------------------------------------------------------------------------------

theorem State.spNotice_frame (s : State) (d kind : Nat) : ∃ l, s.spNotice d kind = s.withSpn l := by
  unfold State.spNotice
  split
  · exact State.spSend_frame ..
  · exact ⟨s.pcd.spn, rfl⟩
/-- A die repeats its NOTICE state, then each of its ALERTs that is not acknowledged. -/
theorem State.alertAgain_on {n : Nat} (on : s.nodeOn n = true) : s.alertAgain n =
    (s.pcd.alerts.filter (fun a => decide (a.node = n))).foldl (fun t a => t.spSend n (spPkt 8 n s.activeNode (a.part % 16) a.code a.serial))
      (match (if n < 576 then s.noticeState n else none) with | some k => s.spNotice n k | none => s) := by
  unfold State.alertAgain
  simp only [on, Bool.not_true, Bool.false_eq_true, if_false]
  by_cases die : n < 576
  · rw [if_pos die, if_pos die]
    cases s.noticeState n with
    | none => rfl
    | some k =>
      obtain ⟨l, sent⟩ := s.spNotice_frame n k
      dsimp only
      rw [sent]
      rfl
  · rw [if_neg die, if_neg die]

end

section
variable {s : State} {n : Nat} (hn : n < 738)
include hn

theorem execBeacon_eq (v : W64) : exec (.beacon n v) s = .next (s.beaconIn n v.toNat) := if_pos (decide_eq_true hn)
theorem execAlertRepeat_eq : exec (.alertRepeat n) s = .next (s.alertAgain n) := if_pos (decide_eq_true hn)
theorem execRegRd_eq (off : Nat) : ∃ l, exec (.regRd n off) s = .next ((s.withSpn l).regRdIn n off) ∧
    (s.pcd.spn = [] → l = []) := by
  obtain ⟨l, drop⟩ := s.spDrop_frame (fun _ k => decide (k.ty = 9#6) && decide (k.dst.toNat = n) && decide (k.arg.toNat = off))
  refine ⟨l, (if_pos (decide_eq_true hn)).trans (by rw [drop]), fun empty => ?_⟩
  rw [State.spDrop_of_no_packets empty] at drop
  exact (congrArg (fun t : State => t.pcd.spn) drop).symm.trans empty
theorem execRegWr_eq (off : Nat) (v : W64) :
    ∃ l, exec (.regWr n off v) s = .next ((s.withSpn l).regWrIn n off v.toNat) := by
  obtain ⟨l, drop⟩ := s.spDrop_frame (fun _ k =>
    decide (k.ty = 10#6) && decide (k.dst.toNat = n) && decide (k.arg.toNat = off) && decide (k.payload = v))
  exact ⟨l, (if_pos (decide_eq_true hn)).trans (by rw [drop])⟩
theorem execRegRsp_eq (v : Nat) : ∃ l, exec (.regRsp n v) s = .next ((s.withSpn l).regRspIn n v) := by
  obtain ⟨l, drop⟩ := s.spDrop_frame (fun _ k => decide (k.ty = 11#6) && decide (k.dst.toNat = n) && decide (k.payload.toNat = v))
  exact ⟨l, (if_pos (decide_eq_true hn)).trans (by rw [drop])⟩

end

section
variable (s : State)

theorem execNotice_eq {site : Nat} (hs : site < 512) (kind : Nat) :
    ∃ l, exec (.notice site kind) s = .next ((s.withSpn l).noticeIn site kind) := by
  obtain ⟨l, drop⟩ := s.spDrop_frame (fun _ k => decide (k.ty = 6#6) && decide (k.payload.toNat = site) && decide (k.arg.toNat = kind))
  exact ⟨l, (if_pos (decide_eq_true hs)).trans (by rw [drop])⟩
theorem execAlert_eq (a : Alert) : ∃ l, exec (.alert a) s = .next ((s.withSpn l).alertTake a) := by
  obtain ⟨l, drop⟩ := s.spDrop_frame (fun _ k => decide (k.ty = 8#6) && decide (k.src.toNat = a.node) && decide (k.payload.toNat = a.serial))
  exact ⟨l, congrArg (fun u : State => Host.Outcome.next (u.alertTake a)) drop⟩
theorem execEventMergeFlush_eq (code unit : Nat) : exec (.eventMergeFlush code unit) s = .next (s.mergeFlush code unit) := rfl

end

/-- Settles O39: each packet by the equation of its case, on the state that it has left the spindle's FIFOs of. -/
theorem noticesAlertsAndRegisterPackets : Obligations.NoticesAlertsAndRegisterPackets := by
  intro s n hn
  refine ⟨fun site p hs part => ?notices, fun a seen => ?alert, fun serial other => ?acknowledged, fun v active => ?value,
    fun off r out die on row plain aligned port empty => ?read, fun off r v die on row aligned plain may => ?write, fun v active low => ?tally,
    fun v on => ⟨_, execBeacon_eq hn v, ?beacon⟩, fun off => ?noRepeat, fun on => ?repeats, fun off v => ?noBeacon,
    fun code unit e merging => ⟨_, execEventMergeFlush_eq s code unit, ?flush⟩, fun code unit none => ?noFlush⟩
  case notices =>
    have arrives := execNotice_eq s hs
    have part' : ∀ l, (s.withSpn l).partOfSite site = some p := fun _ => part
    refine ⟨?active, ?step, fun none => ?noDrain, fun drain waits => ?drained, fun none => ?idle⟩
    case active =>
      obtain ⟨l, arrives⟩ := arrives 1
      refine ⟨_, arrives, ?_⟩
      rw [State.noticeIn_active (part' l)]
      refine ⟨?_, rfl, rfl, fun q hq => ?_⟩
      · rw [State.part_setPart, if_pos rfl]
        rfl
      · rw [State.part_setPart, if_neg hq]
        rfl
    case step =>
      obtain ⟨l, arrives⟩ := arrives 3
      obtain ⟨l', kept⟩ := State.noticeIn_step (part' l)
      refine ⟨_, arrives, ?_⟩
      rw [kept]
      refine ⟨?_, rfl, rfl⟩
      rw [State.withSpn, State.part_setPcd, State.part_setPart, if_pos rfl]
      rfl
    case noDrain =>
      obtain ⟨l, arrives⟩ := arrives 2
      refine ⟨_, arrives, ?_⟩
      rw [State.noticeIn_drained (part' l), State.drainedIn_no_drain (s := s.withSpn l) none]
      exact ⟨rfl, rfl, rfl⟩
    case drained =>
      obtain ⟨l, arrives⟩ := arrives 2
      refine ⟨_, arrives, ?_⟩
      rw [State.noticeIn_drained (part' l), State.drainedIn_waits (s := s.withSpn l) drain waits]
      refine ⟨?_, rfl, rfl⟩
      rw [State.part_setPart, if_pos rfl]
      rfl
    case idle =>
      obtain ⟨l, arrives⟩ := arrives 0
      refine ⟨_, arrives, ?_⟩
      rw [State.noticeIn_idle (part' l), State.deadlock_of_no_running (s := (s.withSpn l).setPart p _) none]
      refine ⟨?_, rfl, rfl⟩
      rw [State.part_setPart, if_pos rfl]
      rfl
  case alert =>
    obtain ⟨l, arrives⟩ := execAlert_eq s a
    refine ⟨_, arrives, ?_⟩
    by_cases own : a.node = s.activeNode
    · rw [State.alertTake_own (s := s.withSpn l) seen own]
      exact ⟨rfl, rfl, (SameOutside.withSpn s l).trans (.setPcd ..), fun _ => rfl⟩
    · obtain ⟨l', sent⟩ := State.alertTake_other (s := s.withSpn l) seen own
      rw [sent]
      exact ⟨rfl, rfl, (SameOutside.withSpn s l).trans (.setPcd ..), fun h => absurd h own⟩
  case acknowledged =>
    obtain ⟨l, arrives⟩ := execRegRsp_eq (s := s) hn serial
    refine ⟨_, arrives, ?_⟩
    rw [State.regRspIn_ack (s := s.withSpn l) other]
    exact ⟨rfl, rfl, rfl, rfl, (SameOutside.withSpn s l).trans (.setPcd ..)⟩
  case value =>
    obtain ⟨l, arrives⟩ := execRegRsp_eq (s := s) hn v
    refine ⟨_, arrives, ?_⟩
    rw [State.regRspIn_value (s := s.withSpn l) active]
    exact ⟨rfl, rfl, rfl⟩
  case read =>
    obtain ⟨l, arrives, none⟩ := execRegRd_eq (s := s) hn off
    have dst : (spPkt 11 n s.activeNode ((s.partOfNode n).getD 0) off (s.regVal n off)).dst.toNat = s.activeNode :=
      Nat.mod_eq_of_lt (s.activeNode_lt.trans (by decide))
    have unchanged : s.withSpn l = s := by rw [none empty, ← empty]; rfl
    rw [unchanged] at arrives
    refine ⟨_, arrives, ?_⟩
    rw [State.regRdIn_listed on row plain aligned, State.spSend_of_port (dst.symm ▸ port)]
    refine ⟨rfl, rfl, (State.spQ_spPush_same ..).trans ?_⟩
    rw [State.spQ, empty]
    rfl
  case write =>
    obtain ⟨l, arrives⟩ := execRegWr_eq (s := s) (by omega) off v
    refine ⟨_, arrives, ?_⟩
    rw [State.regWrIn_plain (s := s.withSpn l) die on row aligned plain may]
    refine ⟨rfl, fun k => ?_⟩
    rw [State.rg_setRg_same, RegRow.testBit_written]
    rfl
  case tally =>
    obtain ⟨l, arrives⟩ := execRegWr_eq (s := s) hn PC_BAD_ACCESS_COUNT v
    obtain ⟨m, only, count⟩ := State.regWrIn_tally (s := s.withSpn l) active low
    refine ⟨_, arrives, count, ?_⟩
    rw [only]
    exact ⟨rfl, (SameOutside.withSpn s l).withRegs m⟩
  case beacon =>
    dsimp only
    obtain ⟨recorded, small⟩ := s.beaconNoted_spec n (s.beaconErr n v.toNat)
    by_cases near : (s.beaconErr n v.toNat).natAbs ≤ 1024
    · obtain ⟨rate, slews⟩ := State.beaconIn_near on near
      rw [slews]
      exact ⟨recorded, small, fun _ => ⟨rfl, (sget_nput ..).trans (if_pos rfl)⟩, fun far => absurd near (Nat.not_le.2 far), rfl⟩
    · obtain ⟨err, slew, rate, far⟩ := State.beaconIn_far on (Nat.lt_of_not_le near)
      rw [far]
      exact ⟨recorded, small, fun h => absurd h near, fun _ => ⟨_, rfl, rfl, rfl⟩, rfl⟩
  case noRepeat =>
    rw [execAlertRepeat_eq hn, State.alertAgain, off]
    rfl
  case repeats => exact (execAlertRepeat_eq hn).trans (congrArg _ (State.alertAgain_on on))
  case noBeacon =>
    rw [execBeacon_eq hn, State.beaconIn, off]
    rfl
  case flush =>
    obtain ⟨mgmt, host⟩ := s.mem_outAfter e
    rw [State.mergeFlush_of_merging merging]
    exact ⟨by rw [State.sendEvent_eq], mgmt, host, rfl, rfl, rfl⟩
  case noFlush => rw [execEventMergeFlush_eq, State.mergeFlush_of_none none]

end Sys2Proof.Machine
end

section
/-! Drains, watchdogs, quanta and context switches, and the base of the evaluation of slow dies (spec/08 R244-R253, spec/09 R274; O29). -/

namespace Sys2Proof.Machine

-- The partitions and sessions that a load or a save leaves (spec/08 R242, R253) -----------------------------------------------------------------

/-- A fold keeps what each of its steps keeps. -/
theorem foldl_keeps {α β σ : Type} (g : σ → α) {f : σ → β → σ} (keeps : ∀ t b, g (f t b) = g t) (l : List β) (s : σ) : g (l.foldl f s) = g s :=
  List.foldlRecOn (motive := fun t => g t = g s) l f rfl (fun t ht b _ => (keeps t b).trans ht)

/-- The partitions and the sessions: what the dies, the stacks and the PCD change of themselves leaves. -/
def State.jobs (s : State) : SMap Part × SMap Session := (s.parts, s.sess)

theorem State.part_of_jobs {s t : State} (same : t.jobs = s.jobs) (p : Nat) : t.part p = s.part p := by
  have parts : t.parts = s.parts := congrArg Prod.fst same
  rw [State.part, parts, State.part]
theorem State.sess_of_jobs {s t : State} (same : t.jobs = s.jobs) : t.sess = s.sess := congrArg Prod.snd same

section
variable (s : State)

@[simp] theorem State.jobs_setRg (n off v : Nat) : (s.setRg n off v).jobs = s.jobs := rfl
@[simp] theorem State.jobs_setRgF (n off msb lsb v : Nat) : (s.setRgF n off msb lsb v).jobs = s.jobs := rfl
@[simp] theorem State.jobs_modDie (d : Nat) (f : Die → Die) : (s.modDie d f).jobs = s.jobs := rfl
@[simp] theorem State.jobs_modPlace (d p : Nat) (f : Place → Place) : (s.modPlace d p f).jobs = s.jobs := rfl
@[simp] theorem State.jobs_setMd (m : Nat) (x : Mdie) : (s.setMd m x).jobs = s.jobs := rfl
@[simp] theorem State.jobs_bumpErr (n off st b k : Nat) : (s.bumpErr n off st b k).jobs = s.jobs := by
  obtain ⟨r, q, bumped⟩ := s.bumpErr_frame n off st b k
  rw [bumped]
  rfl
@[simp] theorem State.jobs_bumpPerf (n off k : Nat) : (s.bumpPerf n off k).jobs = s.jobs := by
  obtain ⟨r, bumped⟩ := s.bumpPerf_frame n off k
  rw [bumped]
  rfl

-- A stack's reads and writes (spec/10 R300-R304)

@[simp] theorem State.jobs_mdRecord (m kind cause pch peer addr : Nat) : (s.mdRecord m kind cause pch peer addr).jobs = s.jobs := by
  rw [State.mdRecord]
  split
  · rfl
  · rfl
@[simp] theorem State.jobs_lineCheck (m line kind : Nat) : (s.lineCheck m line kind).1.jobs = s.jobs := by
  unfold State.lineCheck
  dsimp only
  split
  · rfl
  · simp
  · simp
  · dsimp only
    split <;> simp
@[simp] theorem State.jobs_linesCheck (m loc n kind : Nat) : (s.linesCheck m loc n kind).1.jobs = s.jobs := by
  unfold State.linesCheck
  split
  · rfl
  · refine foldl_keeps (fun st : State × Bool => st.1.jobs) (fun st l => ?_) _ (s, false)
    exact st.1.jobs_lineCheck m l kind
@[simp] theorem State.jobs_stackRead (m loc n : Nat) : (s.stackRead m loc n).1.jobs = s.jobs := by
  simp [State.stackRead]
@[simp] theorem State.jobs_bellPass (lines : List (Nat × Nat × Nat)) (m loc n : Nat) : (s.bellPass lines m loc n).jobs = s.jobs := by
  obtain ⟨l, passed⟩ := s.bellPass_frame lines m loc n
  rw [passed]
  rfl
@[simp] theorem State.jobs_stackWrite (m loc : Nat) (bs : List Byte) : (s.stackWrite m loc bs).1.jobs = s.jobs := by
  unfold State.stackWrite
  extract_lets n part checked read
  have keeps : checked.1.jobs = s.jobs := by
    unfold checked
    split
    · rfl
    · refine foldl_keeps (fun st : State × Bool => st.1.jobs) (fun st l => ?_) _ (s, false)
      exact st.1.jobs_lineCheck m l 0
  split
  · exact (State.jobs_bumpPerf ..).trans keeps
  · have counted : (read.bumpPerf (nodeMd m) MD_WR_BYTES (64 * (stackLines loc n).length)).jobs = s.jobs :=
      (State.jobs_bumpPerf ..).trans ((State.jobs_bumpPerf ..).trans keeps)
    exact (State.jobs_bellPass ..).trans counted
@[simp] theorem State.jobs_hbmRead (p a n : Nat) : (s.hbmRead p a n).1.jobs = s.jobs := by
  refine foldl_keeps (fun st : State × Nat × List Byte => st.1.jobs) (fun st q => ?_) _ (s, 0, [])
  dsimp only
  split
  · rfl
  · split
    · rfl
    · split
      · simp
      · rfl
@[simp] theorem State.jobs_hbmWrite (p a : Nat) (bs : List Byte) : (s.hbmWrite p a bs).1.jobs = s.jobs := by
  refine foldl_keeps (fun st : State × Nat × List Byte => st.1.jobs) (fun st q => ?_) _ (s, 0, bs)
  dsimp only
  split
  · rfl
  · split
    · rfl
    · split
      · simp
      · rfl

-- The save of a context (spec/08 R253 step 4)

@[simp] theorem State.jobs_cacheCorr (d : Nat) : (s.cacheCorr d).jobs = s.jobs := s.jobs_bumpErr ..
@[simp] theorem State.jobs_cacheJudge (d array : Nat) (l : CLine) (k n : Nat) : (s.cacheJudge d array l k n).1.jobs = s.jobs := by
  unfold State.cacheJudge
  extract_lets judged
  have keeps : judged.1.jobs = s.jobs := by
    refine foldl_keeps (fun st : State × CLine × Bool => st.1.jobs) (fun st e => ?_) _ (s, l, false)
    dsimp only
    split
    · rfl
    · exact st.1.jobs_cacheCorr d
    · rfl
    · dsimp only
      split
      · exact st.1.jobs_cacheCorr d
      · rfl
  split
  · exact keeps
  · exact keeps
@[simp] theorem State.jobs_lineBack (p d : Nat) (l : CLine) : (s.lineBack p d l).jobs = s.jobs := by
  unfold State.lineBack
  dsimp only
  split_ifs <;> simp
@[simp] theorem State.jobs_cleanDie (p d : Nat) : (s.cleanDie p d).jobs = s.jobs :=
  foldl_keeps State.jobs (fun t l => t.jobs_lineBack p d l) _ s
@[simp] theorem State.jobs_saveArea (p : Nat) (c : Ctx) : (s.saveArea p c).jobs = s.jobs :=
  (State.jobs_hbmWrite ..).trans (foldl_keeps State.jobs (fun t d => t.jobs_cleanDie p d) _ s)

-- A die taken, a phase loaded, a die restored (spec/08 R242, R253 steps 5 and 6)

@[simp] theorem State.jobs_imageModes (d site : Nat) (img : Image) : (s.imageModes d site img).jobs = s.jobs := rfl
@[simp] theorem State.jobs_takeDies (p cid : Nat) (img : Image) : (s.takeDies p cid img).jobs = s.jobs := by
  refine foldl_keeps State.jobs (fun t site => ?_) _ s
  split
  next d _ =>
    exact (State.jobs_imageModes ..).trans (foldl_keeps State.jobs (f := fun u off => u.setRg d off 0) (fun u off => u.jobs_setRg ..) loadRegs _)
  next => rfl
@[simp] theorem State.jobs_writeTab (site base : Nat) (bs : List Byte) : (s.writeTab site base bs).jobs = s.jobs := by
  unfold State.writeTab
  split <;> rfl
@[simp] theorem State.jobs_writeBinds (p : Nat) (ph : Phase) : (s.writeBinds p ph).jobs = s.jobs := by
  refine (foldl_keeps State.jobs (fun t b => ?_) ph.binds _).trans rfl
  split
  · exact t.jobs_setRg ..
  · rfl
@[simp] theorem State.jobs_armStep (p : Nat) : (s.armStep p).jobs = s.jobs := by
  unfold State.armStep
  dsimp only
  split
  · rfl
  · refine (foldl_keeps State.jobs (fun t m => ?_) _ _).trans (foldl_keeps State.jobs (fun t d => ?_) _ s)
    · split <;> rfl
    · split <;> rfl
@[simp] theorem State.jobs_loadPhase (p : Nat) (img : Image) (n : Nat) : (s.loadPhase p img n).1.jobs = s.jobs := by
  have start : ∀ ph : Phase, (((s.diesOf p).foldl (fun t d => t.setRgF d CD_PL_CTRL 3 0 (n % 16)) s).writeBinds p ph).jobs = s.jobs := fun ph =>
    (State.jobs_writeBinds ..).trans (foldl_keeps State.jobs (fun t d => t.jobs_setRgF ..) _ s)
  unfold State.loadPhase
  extract_lets ph gen s1
  split
  next s2 s3 s4 s5 _ =>
    have slots : s2.jobs = s1.jobs := foldl_keeps State.jobs (fun t e => by split <;> rfl) _ s1
    have tables : s5.jobs = s2.jobs :=
      (foldl_keeps State.jobs (fun t e => t.jobs_writeTab ..) _ s4).trans
        ((foldl_keeps State.jobs (fun t e => t.jobs_writeTab ..) _ s3).trans (foldl_keeps State.jobs (fun t e => t.jobs_writeTab ..) _ s2))
    refine (State.jobs_armStep ..).trans ((foldl_keeps State.jobs (fun t e => ?_) ph.arms s5).trans (tables.trans (slots.trans (start ph))))
    split <;> rfl
  next => exact start ph
theorem State.loadPhase_agrees {p : Nat} {img : Image} {n : Nat} (noBinds : ((img.phases[n]?).getD default).binds = []) :
    (s.loadPhase p img n).2 = true := by
  unfold State.loadPhase
  extract_lets ph gen s1
  have agrees : s1.bindsOk ph = true := by rw [State.bindsOk, noBinds, List.all_nil]
  rw [if_pos agrees]
@[simp] theorem State.jobs_refill (p d : Nat) (e : Nat × Place) : (s.refill p d e).jobs = s.jobs := by
  refine foldl_keeps State.jobs (fun t q => ?_) _ s
  have read := t.jobs_hbmRead p (q.2 * 64) 0x2000
  dsimp only
  split
  · exact (State.jobs_modPlace ..).trans read
  · exact read
@[simp] theorem State.jobs_restoreDie (p d : Nat) (v : SavedDie) : (s.restoreDie p d v).jobs = s.jobs := by
  unfold State.restoreDie
  extract_lets t1 t2 t3
  have registers : t2.jobs = s.jobs := foldl_keeps State.jobs (fun u e => u.jobs_setRg ..) v.regs t1
  have slots : t3.jobs = t2.jobs := foldl_keeps State.jobs (fun u e => u.jobs_refill p d e) _ t2
  refine (foldl_keeps State.jobs (fun u e => ?_) _ t3).trans (slots.trans registers)
  split <;> rfl
@[simp] theorem State.jobs_scBoot (d c v : Nat) : (s.scBoot d c v).jobs = s.jobs := by
  unfold State.scBoot
  dsimp only
  split_ifs <;> rfl

-- The steps of a reconfiguration (spec/08 R244, R246)

@[simp] theorem State.jobs_flushPart (p : Nat) : (s.flushPart p).jobs = s.jobs :=
  foldl_keeps State.jobs (fun t d => State.jobs_bumpErr (t.modDie d _) ..) _ s
@[simp] theorem State.jobs_idlePart (p : Nat) : (s.idlePart p).jobs = s.jobs := foldl_keeps State.jobs (fun t _ => t.jobs_modDie ..) _ s
@[simp] theorem State.jobs_wiresOff (p : Nat) : (s.wiresOff p).jobs = s.jobs := foldl_keeps State.jobs (fun t _ => t.jobs_modDie ..) _ s

end

-- What a change of one partition leaves -----------------------------------------------------------------------------------------------------------

theorem sfind_sput_ne {α : Type} (m : SMap α) {j k : Nat} (v : α) (other : j ≠ k) : sfind (sput m k v) j = sfind m j := by
  induction m with
  | nil => simp [sput, sfind, Ne.symm other]
  | cons e m ih =>
    unfold sfind at ih ⊢
    rw [sput]
    split
    next same => rw [List.find?_cons_of_neg (by simpa using Ne.symm other), List.find?_cons_of_neg (by simpa [same] using Ne.symm other)]
    next =>
      split
      next => rw [List.find?_cons_of_neg (by simpa using Ne.symm other)]
      next =>
        by_cases here : e.1 = j
        · rw [List.find?_cons_of_pos (by simpa using here), List.find?_cons_of_pos (by simpa using here)]
        · rw [List.find?_cons_of_neg (by simpa using here), ih, List.find?_cons_of_neg (by simpa using here)]

/-- The other partitions and the sessions are as before. -/
def State.OnlyPart (p : Nat) (s t : State) : Prop := (∀ q, q ≠ p → t.part q = s.part q) ∧ t.sess = s.sess

section
variable {s t u : State} {p : Nat}

theorem State.OnlyPart.of_jobs (same : t.jobs = s.jobs) : s.OnlyPart p t := ⟨fun q _ => State.part_of_jobs same q, State.sess_of_jobs same⟩
theorem State.OnlyPart.setPart (s : State) (p : Nat) (x : Part) : s.OnlyPart p (s.setPart p x) :=
  ⟨fun _ hq => (State.part_setPart ..).trans (if_neg hq), rfl⟩
theorem State.OnlyPart.trans (st : s.OnlyPart p t) (tu : t.OnlyPart p u) : s.OnlyPart p u :=
  ⟨fun q hq => (tu.1 q hq).trans (st.1 q hq), tu.2.trans st.2⟩

end

section
variable {s : State} {p cid n : Nat} {c : Ctx}

theorem State.sfind_of_running (running : s.running p = some (cid, c)) : (s.part p).run = some cid ∧ sfind (s.part p).ctxs cid = some c := by
  unfold State.running at running
  split at running
  next k run =>
    obtain ⟨c', found, same⟩ := Option.map_eq_some_iff.1 running
    cases same
    exact ⟨run, found⟩
  next => cases running
theorem State.running_of_sfind (run : (s.part p).run = some cid) (found : sfind (s.part p).ctxs cid = some c) : s.running p = some (cid, c) := by
  simp only [State.running, run, found, Option.map_some]

-- A context begins to run (spec/08 R253 step 6) -------------------------------------------------------------------------------------------------------

/-- The partition of a context whose phase is loaded. -/
def Part.loadedCtx (x : Part) (cid : Nat) (c : Ctx) : Part := { x with loading := false, ctxs := sput x.ctxs cid { c with saved := [], step := none } }

theorem State.jobs_beginCtx (running : s.running p = some (cid, c)) (noBinds : ((c.img.phases[c.phase]?).getD default).binds = []) :
    (s.beginCtx p).jobs = (s.modPart p (·.loadedCtx cid c)).jobs := by
  unfold State.beginCtx
  rw [running]
  dsimp only
  rw [State.loadPhase_agrees _ noBinds, if_neg (by decide)]
  split
  · refine (foldl_keeps State.jobs (fun t b => ?_) _ _).trans (State.jobs_loadPhase ..)
    split
    · exact State.jobs_scBoot ..
    · rfl
  · refine (foldl_keeps State.jobs (fun t v => ?_) _ _).trans (State.jobs_loadPhase ..)
    split
    · exact State.jobs_restoreDie ..
    · rfl

/-- A partition whose dies have been taken for a context, which is in force at a step and as the program's last. -/
def Part.takenBy (x : Part) (n : Nat) (c : Ctx) (step prog : Nat) : Part :=
  { x with run := some n, step := step, progStep := prog, drained := [], drainAt := none, forcedGens := [], idle := [], loading := true,
           ctxs := sput x.ctxs n { c with st := .running, expired := false } }
def State.takenBy (s : State) (p n : Nat) (c : Ctx) : State :=
  let s1 := s.takeDies p n c.img
  s1.modPart p (fun x => x.takenBy n c ((c.step.map (·.1)).getD x.step) ((c.step.map (·.2)).getD (s1.cfgStep p)))

theorem State.runCtx_of_ready (ready : sfind (s.part p).ctxs n = some c) :
    s.runCtx p n = if (s.takenBy p n c).groupsUp p then (s.takenBy p n c).beginCtx p else s.takenBy p n c := by
  rw [State.runCtx, ready]
  rfl
theorem State.takenBy_spec (s : State) (p n : Nat) (c : Ctx) : let t := s.takenBy p n c
    (∃ step prog, t.part p = (s.part p).takenBy n c step prog) ∧ s.OnlyPart p t := by
  have taken := s.jobs_takeDies p n c.img
  refine ⟨?_, (State.OnlyPart.of_jobs taken).trans (.setPart ..)⟩
  rw [State.takenBy, State.part_modPart, if_pos rfl, State.part_of_jobs taken]
  exact ⟨_, _, rfl⟩

/-- A context with no binding in its phase runs, whether its groups are usable or not yet. -/
theorem State.runCtx_spec (ready : sfind (s.part p).ctxs n = some c) (noBinds : ((c.img.phases[c.phase]?).getD default).binds = []) :
    let t := s.runCtx p n
    (t.part p).run = some n ∧ (sfind (t.part p).ctxs n).map (fun x => (x.st, x.expired)) = some (.running, false) ∧
      (∀ k, k ≠ n → sfind (t.part p).ctxs k = sfind (s.part p).ctxs k) ∧ s.OnlyPart p t := by
  intro t
  obtain ⟨⟨step, prog, part⟩, only⟩ := s.takenBy_spec p n c
  have run : ((s.takenBy p n c).part p).run = some n := by rw [part]; rfl
  have found : sfind ((s.takenBy p n c).part p).ctxs n = some { c with st := .running, expired := false } := by rw [part]; exact sfind_sput ..
  have others : ∀ k, k ≠ n → sfind ((s.takenBy p n c).part p).ctxs k = sfind (s.part p).ctxs k := fun k hk => by
    rw [part]
    exact sfind_sput_ne _ _ hk
  by_cases up : (s.takenBy p n c).groupsUp p = true
  · have begins : t = (s.takenBy p n c).beginCtx p := (State.runCtx_of_ready ready).trans (if_pos up)
    have begun := State.jobs_beginCtx (State.running_of_sfind run found) noBinds
    have part' : ((s.takenBy p n c).beginCtx p).part p = ((s.takenBy p n c).part p).loadedCtx n { c with st := .running, expired := false } :=
      (State.part_of_jobs begun p).trans ((State.part_modPart ..).trans (if_pos rfl))
    rw [begins, part']
    refine ⟨run, ?_, fun k hk => (sfind_sput_ne _ _ hk).trans (others k hk), only.trans ((State.OnlyPart.setPart ..).trans (.of_jobs begun))⟩
    rw [Part.loadedCtx, sfind_sput]
    rfl
  · have waits : t = s.takenBy p n c := (State.runCtx_of_ready ready).trans (if_neg up)
    rw [waits]
    exact ⟨run, by rw [found]; rfl, others, only⟩

-- A switch of contexts (spec/08 R253) -----------------------------------------------------------------------------------------------------------------

theorem State.saveCtx_spec (found : sfind (s.part p).ctxs cid = some c) : let t := s.saveCtx p cid
    (sfind (t.part p).ctxs cid).map (fun x => (x.st, x.phase)) = some (.ready, c.phase) ∧ s.OnlyPart p t := by
  have saved : ∃ dies step, s.saveCtx p cid = (s.saveArea p c).modPart p (fun x =>
      { x with ctxs := sput x.ctxs cid { c with saved := dies, st := .ready, expired := false, step := step } }) := by
    rw [State.saveCtx, found]
    exact ⟨_, _, rfl⟩
  obtain ⟨dies, step, saved⟩ := saved
  rw [saved]
  refine ⟨?_, (State.OnlyPart.of_jobs (s.jobs_saveArea p c)).trans (.setPart ..)⟩
  rw [State.part_modPart, if_pos rfl, sfind_sput]
  rfl

/-- A switch, once its conditions are met, saves the running context and runs the one that is ready. -/
theorem State.contextSwitch_eq (running : s.running p = some (cid, c)) (yielded : s.allYielded p = true) (expired : c.expired = true)
    (loaded : (s.part p).loading = false) (still : ∀ d ∈ s.diesOf p, (s.die d).pipesDone = true ∧ (s.die d).tokens = 0)
    (next : ((s.saveCtx p cid).part p).nextReady cid = some n) :
    s.contextSwitch p = ((s.saveCtx p cid).setPart p { (s.saveCtx p cid).part p with run := none }).runCtx p n := by
  have complete : (s.diesOf p).all (fun d => (s.die d).pipesDone) = true := List.all_eq_true.2 fun d hd => (still d hd).1
  have empty : (s.diesOf p).any (fun d => decide (0 < (s.die d).tokens)) = false :=
    List.any_eq_false.2 fun d hd => by simp [(still d hd).2]
  have next' : (((s.saveCtx p cid).setPart p { (s.saveCtx p cid).part p with run := none }).part p).nextReady cid = some n := by
    rw [State.part_setPart, if_pos rfl]
    exact next
  unfold State.contextSwitch
  simp only [running, yielded, expired, loaded, complete, empty, Bool.and_self, Bool.not_false, if_true, Bool.false_eq_true, if_false, next']
theorem State.contextSwitch_not (running : s.running p = some (cid, c))
    (early : s.allYielded p = false ∨ c.expired = false ∨ (s.part p).loading = true ∨ ∃ d ∈ s.diesOf p, (s.die d).pipesDone = false) :
    s.contextSwitch p = s := by
  unfold State.contextSwitch
  rw [running]
  refine if_neg fun due => ?_
  simp only [Bool.and_eq_true, Bool.not_eq_true', List.all_eq_true] at due
  obtain ⟨⟨⟨yielded, expired⟩, loaded⟩, complete⟩ := due
  rcases early with early | early | early | ⟨d, hd, busy⟩
  · rw [early] at yielded; cases yielded
  · rw [early] at expired; cases expired
  · rw [early] at loaded; cases loaded
  · have done := complete d hd
    rw [busy] at done
    cases done

-- A forced drain (spec/08 R244, R246) -----------------------------------------------------------------------------------------------------------------

/-- The generations that a forced drain has cut off, as the next phase begins. -/
def Part.gensAfterForced (x : Part) (phase : Nat) : List Nat :=
  if x.forcedGens.contains ((phase + 1) % 16) then [] else insUniq (phase % 16) x.forcedGens
/-- A partition whose context has gone on to its next phase. -/
def Part.nextPhase (x : Part) (cid : Nat) (c : Ctx) (prog : Nat) : Part :=
  { x with ctxs := sput x.ctxs cid { c with phase := c.phase + 1 }, progStep := prog, forcedGens := x.gensAfterForced c.phase }
/-- A partition whose queues are empty and whose places are idle, its drain over. -/
def State.drainOver (s : State) (p : Nat) : State :=
  let s1 := (s.flushPart p).idlePart p
  s1.setPart p { s1.part p with drained := [], drainAt := none }
/-- The state that the next phase is loaded on: no token on its way where its generation was cut off before. -/
def State.forcedOn (s : State) (p cid : Nat) (c : Ctx) : State :=
  let s2 := s.drainOver p
  let s3 := s2.setPart p ((s2.part p).nextPhase cid c (s2.progNow p))
  if (s2.part p).forcedGens.contains ((c.phase + 1) % 16) then s3.wiresOff p else s3

theorem State.reconfigure_forced (running : s.running p = some (cid, c)) (more : c.phase + 1 < c.img.phases.length) :
    s.reconfigure p true =
      let r := (s.forcedOn p cid c).loadPhase p c.img (c.phase + 1)
      if r.2 then r.1 else r.1.endJob p cid 10 0 := by
  rw [State.reconfigure, running]
  exact if_pos more
theorem State.drainOver_spec (s : State) (p : Nat) : let t := s.drainOver p
    t.part p = { s.part p with drained := [], drainAt := none } ∧ s.OnlyPart p t := by
  have flushed : ((s.flushPart p).idlePart p).jobs = s.jobs := (State.jobs_idlePart ..).trans (s.jobs_flushPart p)
  refine ⟨?_, (State.OnlyPart.of_jobs flushed).trans (.setPart ..)⟩
  rw [State.drainOver, State.part_setPart, if_pos rfl, State.part_of_jobs flushed]
theorem State.forcedOn_spec (s : State) (p cid : Nat) (c : Ctx) : let t := s.forcedOn p cid c
    (∃ prog, t.part p = Part.nextPhase { s.part p with drained := [], drainAt := none } cid c prog) ∧ s.OnlyPart p t := by
  obtain ⟨part, only⟩ := s.drainOver_spec p
  have wires : (s.forcedOn p cid c).jobs =
      ((s.drainOver p).setPart p (((s.drainOver p).part p).nextPhase cid c ((s.drainOver p).progNow p))).jobs := by
    unfold State.forcedOn
    dsimp only
    split
    · exact State.jobs_wiresOff ..
    · rfl
  refine ⟨⟨(s.drainOver p).progNow p, ?_⟩, only.trans ((State.OnlyPart.setPart ..).trans (.of_jobs wires))⟩
  rw [State.part_of_jobs wires, State.part_setPart, if_pos rfl, part]

/-- A forced drain goes on with the next phase of the context that runs. -/
theorem State.drainForced_spec (running : s.running p = some (cid, c)) (drain : (s.part p).drainAt = some n)
    (more : c.phase + 1 < c.img.phases.length) (noBinds : ((c.img.phases[c.phase + 1]?).getD default).binds = []) : let t := s.drainForced p
    (∃ prog, t.part p = Part.nextPhase { s.part p with drained := [], drainAt := none } cid c prog) ∧ s.OnlyPart p t := by
  obtain ⟨⟨prog, part⟩, only⟩ := s.forcedOn_spec p cid c
  have loads : s.drainForced p = ((s.forcedOn p cid c).loadPhase p c.img (c.phase + 1)).1 := by
    rw [State.drainForced, drain, Option.isSome_some, if_pos rfl, State.reconfigure_forced running more]
    exact if_pos (State.loadPhase_agrees _ noBinds)
  have loaded := (s.forcedOn p cid c).jobs_loadPhase p c.img (c.phase + 1)
  rw [loads]
  exact ⟨⟨prog, (State.part_of_jobs loaded p).trans part⟩, only.trans (.of_jobs loaded)⟩

-- A quantum (spec/08 R252) ----------------------------------------------------------------------------------------------------------------------------

/-- Another context of the partition is ready and is not ending. -/
def State.otherReady (s : State) (p cid : Nat) : Bool :=
  (s.part p).ctxs.any (fun e => decide (e.1 ≠ cid) && decide (e.2.st = .ready) && e.2.endAs.isNone)

/-- The yield that goes out is a packet on the spindle. -/
theorem State.quantumExpire_ready (running : s.running p = some (cid, c)) (other : s.otherReady p cid = true) : ∃ l, s.quantumExpire p =
    (s.setPart p { s.part p with ctxs := sput (s.part p).ctxs cid { c with expired := true } }).setPcd (fun q => { q with spn := l }) := by
  have marks : s.quantumExpire p =
      let s1 := s.setPart p { s.part p with ctxs := sput (s.part p).ctxs cid { c with expired := true } }
      match s1.kernelNode p with
      | some k => s1.spBroadcast p 5 0 ((s1.rg k CD_PL_EPOCH + 2) % 2 ^ 32)
      | none => s1 := by
    rw [State.quantumExpire, running]
    exact if_pos other
  rw [marks]
  dsimp only
  split
  · exact State.spBroadcast_frame ..
  · exact ⟨s.pcd.spn, rfl⟩
theorem State.quantumExpire_alone (running : s.running p = some (cid, c)) (alone : s.otherReady p cid = false) : s.quantumExpire p = s := by
  rw [State.quantumExpire, running]
  exact if_neg (by rw [← State.otherReady, alone]; exact Bool.false_ne_true)

end

-- The records of events (spec/16 R452-R454) -----------------------------------------------------------------------------------------------------------

/-- Records may have been made: no die, no register of a die and no configuration in force has changed. -/
structure State.Logged (s t : State) : Prop where
  fuses : t.fuses = s.fuses
  dies : t.dies = s.dies
  mds : t.mds = s.mds
  sess : t.sess = s.sess
  conf : t.pcd.conf = s.pcd.conf
  stage : t.pcd.stageDone = s.pcd.stageDone
  held : t.pcd.heldOff = s.pcd.heldOff
  lost : t.pcd.rsdLost = s.pcd.rsdLost
  regs : ∀ n o, n < 736 → o < 2 ^ 32 → t.rg n o = s.rg n o

section
variable {s t u : State}

theorem State.Logged.refl (s : State) : s.Logged s := ⟨rfl, rfl, rfl, rfl, rfl, rfl, rfl, rfl, fun _ _ _ _ => rfl⟩
theorem State.Logged.trans (st : s.Logged t) (tu : t.Logged u) : s.Logged u :=
  ⟨tu.fuses.trans st.fuses, tu.dies.trans st.dies, tu.mds.trans st.mds, tu.sess.trans st.sess, tu.conf.trans st.conf, tu.stage.trans st.stage,
    tu.held.trans st.held, tu.lost.trans st.lost, fun n o hn ho => (tu.regs n o hn ho).trans (st.regs n o hn ho)⟩
theorem State.Logged.ite {c : Prop} [Decidable c] (ht : s.Logged t) (hu : s.Logged u) : s.Logged (if c then t else u) := by
  split
  · exact ht
  · exact hu
/-- What the PCD notes of the records. -/
theorem State.Logged.setPcd (s : State) (f : Pcd → Pcd) (conf : (f s.pcd).conf = s.pcd.conf) (stage : (f s.pcd).stageDone = s.pcd.stageDone)
    (held : (f s.pcd).heldOff = s.pcd.heldOff) (lost : (f s.pcd).rsdLost = s.pcd.rsdLost) : s.Logged (s.setPcd f) :=
  ⟨rfl, rfl, rfl, rfl, conf, stage, held, lost, fun _ _ _ _ => rfl⟩
theorem State.Logged.raise (s : State) (n code unit data : Nat) : s.Logged (s.raise n code unit data) :=
  ⟨rfl, rfl, rfl, rfl, rfl, rfl, rfl, rfl, fun _ _ _ _ => rfl⟩
theorem State.Logged.withNvm (s : State) (v : Nvm) : s.Logged { s with nvm := v } := ⟨rfl, rfl, rfl, rfl, rfl, rfl, rfl, rfl, fun _ _ _ _ => rfl⟩
theorem State.Logged.sendEvent (s : State) (e : Event) : s.Logged (s.sendEvent e) := by
  rw [State.sendEvent_eq]
  exact ⟨rfl, rfl, rfl, rfl, rfl, rfl, rfl, rfl, fun _ _ _ _ => rfl⟩
/-- A register of the panel controller is none of a die's. -/
theorem State.Logged.setRg (s : State) (o v : Nat) : s.Logged (s.setRg nodePc o v) := by
  refine ⟨rfl, rfl, rfl, rfl, rfl, rfl, rfl, rfl, fun n k hn hk => ?_⟩
  rw [State.rg_setRg, if_neg]
  unfold rkey nodePc
  omega
theorem State.Logged.bumpErr (s : State) (off st b n : Nat) : s.Logged (s.bumpErr nodePc off st b n) :=
  .ite (.refl s) (.ite (.setRg ..) (.ite (.setRg ..) ((State.Logged.setRg ..).trans
    ((State.Logged.setRg ..).trans (.raise ..)))))
theorem State.Logged.setWords (off : Nat → Nat) (ws : List Nat) : ∀ (s : State) (k : Nat), s.Logged (s.setWords nodePc off k ws) := by
  induction ws with
  | nil => exact fun s _ => .refl s
  | cons w ws ih => exact fun s k => (State.Logged.setRg ..).trans (ih _ _)
theorem State.Logged.ringPut (s : State) (e : Event) : s.Logged (s.ringPut e) := .setWords ..
theorem State.Logged.writeRecord (s : State) (e : Event) : s.Logged (s.writeRecord e).1 := by
  unfold State.writeRecord
  extract_lets n full e1 s1 s2 keep
  have ring : s.Logged s1 := (State.Logged.ringPut ..).trans (.setRg ..)
  have pending : s.Logged s2 := .ite (ring.trans (.bumpErr ..)) (ring.trans (.setRg ..))
  exact .ite (pending.trans (.withNvm ..)) pending
theorem State.Logged.addRecord (s : State) (e : Event) : s.Logged (s.addRecord e) := by
  unfold State.addRecord
  extract_lets r s1
  have first : s.Logged s1 := .ite ((State.Logged.writeRecord s e).trans (.setPcd _ _ rfl rfl rfl rfl)) ((State.Logged.writeRecord s e).trans (.sendEvent ..))
  exact .ite (.ite first ((first.trans (.writeRecord ..)).trans (.setPcd _ _ rfl rfl rfl rfl))) (first.trans (.setPcd _ _ rfl rfl rfl rfl))
theorem State.Logged.mergeRecord (s : State) (code unit : Nat) : s.Logged (s.mergeRecord code unit) := by
  unfold State.mergeRecord
  extract_lets up s1
  have counted : s.Logged s1 := .setPcd _ _ rfl rfl rfl rfl
  split
  · exact .ite (counted.trans (.ringPut ..)) counted
  · exact counted
theorem State.Logged.putEvent (s : State) (code part unit data ptc : Nat) (job : Nat × Nat) (fence : Bool) :
    s.Logged (s.putEvent code part unit data ptc job fence) := .ite (.mergeRecord ..) (.addRecord ..)
theorem State.Logged.knot (s : State) (unit type : Nat) : s.Logged (s.knot unit type) := by
  unfold State.knot
  extract_lets n k _ s1
  have listed : s.Logged s1 := .withNvm ..
  exact .ite (.refl s) (.ite (listed.trans (.putEvent ..)) listed)

-- Slow and late dies are events of the correctable class: they fence nothing and fail no job (spec/16 R455).

theorem State.actOn_slow (s : State) (part unit data : Nat) : s.actOn 0x1150 part unit data = s := by
  have struck : strikeUnits 0x1150 unit = [] := by simp [strikeUnits]
  simp [State.actOn, State.consequence, struck]
theorem State.actOn_late (s : State) (part unit data : Nat) : s.actOn 0x1151 part unit data = s := by
  have struck : strikeUnits 0x1151 unit = [] := by simp [strikeUnits]
  simp [State.actOn, State.consequence, struck]
theorem State.Logged.slowEvent (s : State) (part unit data : Nat) : s.Logged (s.pcdEvent 0x1150 part unit data) := by
  rw [State.pcdEvent, State.event, State.actOn_slow]
  exact .putEvent ..
theorem State.Logged.lateEvent (s : State) (part unit data : Nat) : s.Logged (s.pcdEvent 0x1151 part unit data) := by
  rw [State.pcdEvent, State.event, State.actOn_late]
  exact .putEvent ..

-- What the records leave of the placement and the supply of dies

section
variable (logged : s.Logged t)
include logged

theorem State.Logged.cutRegions : t.cutRegions = s.cutRegions := by rw [State.cutRegions, logged.fuses, State.cutRegions]
theorem State.Logged.coreOn (d : Nat) : t.coreOn d = s.coreOn d := by
  by_cases die : d < 576
  · have region : nodeRs (4 * (d / 36 / 4) + d % 36 / 9) < 736 := by unfold nodeRs; omega
    have fence : ∀ b, t.rgB (nodeRs (4 * (d / 36 / 4) + d % 36 / 9)) RS_FENCE b = s.rgB (nodeRs (4 * (d / 36 / 4) + d % 36 / 9)) RS_FENCE b :=
      fun b => by rw [State.rgB, logged.regs _ _ region (by decide), State.rgB]
    simp only [State.coreOn, State.regionOn, State.regionUp, logged.cutRegions, logged.stage, logged.held, logged.lost, fence]
  · simp [State.coreOn, die]
theorem State.Logged.siteNode (site : Nat) : t.siteNode site = s.siteNode site := by
  by_cases there : site < 512
  · have map : t.rowMap (4 * (site / 32 / 4) + site % 32 / 8) (site / 32 % 4) = s.rowMap (4 * (site / 32 / 4) + site % 32 / 8) (site / 32 % 4) :=
      logged.regs _ _ (by unfold nodeRs; omega) (by unfold RS_ROW_MAP; omega)
    simp only [State.siteNode, logged.cutRegions, logged.stage, map]
  · have none : ∀ u : State, u.siteNode site = none := fun u => if_pos (.inl (Nat.le_of_not_lt there))
    rw [none, none]
theorem State.Logged.diesOf (p : Nat) : t.diesOf p = s.diesOf p := by
  have region : ∀ r, t.partOfRegion r = s.partOfRegion r := fun r => by
    rw [State.partOfRegion, State.partCfgs, logged.conf, State.partOfRegion, State.partCfgs]
  simp only [State.diesOf, State.sitesOf, region, funext logged.siteNode]

end

end

-- The evaluation of slow dies (spec/09 R274) ------------------------------------------------------------------------------------------------------------

/-- A fold establishes what the step of one of its elements establishes, where every step keeps it. -/
theorem foldl_establishes {β σ : Type} {I Q : σ → Prop} {f : σ → β → σ} {a : β} (keeps : ∀ t b, I t → I (f t b))
    (stays : ∀ t b, I t → Q t → Q (f t b)) (establishes : ∀ t, I t → Q (f t a)) (l : List β) : ∀ s, I s → a ∈ l → Q (l.foldl f s) := by
  have later : ∀ (l : List β) (s : σ), I s → Q s → Q (l.foldl f s) := fun l s hI hQ =>
    (List.foldlRecOn (motive := fun t => I t ∧ Q t) l f ⟨hI, hQ⟩ (fun t ht b _ => ⟨keeps t b ht.1, stays t b ht.1 ht.2⟩)).2
  induction l with
  | nil => exact fun _ _ h => absurd h List.not_mem_nil
  | cons b l ih =>
    intro s hI mem
    rcases List.mem_cons.1 mem with rfl | mem
    · exact later l _ (keeps s _ hI) (establishes s hI)
    · exact ih _ (keeps s b hI) mem

/-- Beside the records, only the statistics of dies may have changed. -/
def State.Sampled (s t : State) : Prop := ∃ ds, State.Logged { s with dies := ds } t
/-- The counters of a die that the evaluation compares with the last interval's. -/
def State.slowCounts (s : State) (d : Nat) : List Nat := slowRegs.map (fun r => s.rg d r % 2 ^ 48)

section
variable {s t u : State}

theorem State.Sampled.refl (s : State) : s.Sampled s := ⟨s.dies, .refl s⟩
theorem State.Sampled.modDie (s : State) (d : Nat) (f : Die → Die) : s.Sampled (s.modDie d f) := ⟨_, .refl _⟩
theorem State.Sampled.logged (st : s.Sampled t) (tu : t.Logged u) : s.Sampled u := ⟨st.choose, st.choose_spec.trans tu⟩
theorem State.Sampled.trans (st : s.Sampled t) (tu : t.Sampled u) : s.Sampled u := by
  obtain ⟨_, st⟩ := st
  obtain ⟨ds, tu⟩ := tu
  exact ⟨ds, tu.fuses.trans st.fuses, tu.dies, tu.mds.trans st.mds, tu.sess.trans st.sess, tu.conf.trans st.conf, tu.stage.trans st.stage,
    tu.held.trans st.held, tu.lost.trans st.lost, fun n o hn ho => (tu.regs n o hn ho).trans (st.regs n o hn ho)⟩
theorem State.Sampled.coreOn (st : s.Sampled t) (d : Nat) : t.coreOn d = s.coreOn d := st.choose_spec.coreOn d
theorem State.Sampled.diesOf (st : s.Sampled t) (p : Nat) : t.diesOf p = s.diesOf p := st.choose_spec.diesOf p
theorem State.Sampled.rg (st : s.Sampled t) {n o : Nat} (hn : n < 736) (ho : o < 2 ^ 32) : t.rg n o = s.rg n o := st.choose_spec.regs n o hn ho
theorem State.Sampled.slowCounts (st : s.Sampled t) {d : Nat} (hd : d < 576) : t.slowCounts d = s.slowCounts d := by
  refine List.map_congr_left fun r hr => ?_
  have offset : r < 2 ^ 32 := (by decide : ∀ r ∈ slowRegs, r < 2 ^ 32) r hr
  rw [st.rg (by omega) offset]
theorem State.lt_of_coreOn {d : Nat} (on : s.coreOn d = true) : d < 576 := by
  unfold State.coreOn at on
  simp only [Bool.and_eq_true, decide_eq_true_eq] at on
  exact on.1.1

theorem State.Logged.die (tu : t.Logged u) (d : Nat) : u.die d = t.die d := by rw [State.die, tu.dies, State.die]
end

/-- An evaluation takes the die's counters as the base of the next interval, whether the interval counts or not. -/
theorem State.slowEval_spec (s : State) (p d : Nat) : let t := s.slowEval p d
    s.Sampled t ∧ (t.die d).lastCnt = s.slowCounts d ∧ ∀ e, e ≠ d → t.die e = s.die e := by
  unfold State.slowEval
  extract_lets x now dl at' s0 slow late sc lc s1 data s2 t
  have based : s.Sampled s0 := .modDie ..
  have base : (s0.die d).lastCnt = s.slowCounts d := by rw [State.die_modDie, if_pos rfl]; rfl
  have others : ∀ e, e ≠ d → s0.die e = s.die e := fun e he => by rw [State.die_modDie, if_neg he]
  unfold t
  clear_value s0
  split
  · exact ⟨based, base, others⟩
  next =>
    have counted : s.Sampled s1 := based.trans (.modDie ..)
    have recorded : s1.Logged (if lc = 3 then s2.pcdEvent 0x1151 p (unitDie d) data else s2) := by
      have slowDie : s1.Logged s2 := .ite ((State.Logged.slowEvent ..).trans (.knot ..)) (.refl s1)
      exact .ite (slowDie.trans (.lateEvent ..)) slowDie
    refine ⟨counted.logged recorded, ?_, fun e he => ?_⟩
    · rw [recorded.die, State.die_modDie, if_pos rfl]
      exact base
    · rw [recorded.die, State.die_modDie, if_neg he, others e he]

/-- The dies of one partition. -/
def State.slowPart (s : State) (p : Nat) : State := (s.diesOf p).foldl (fun u d => if u.coreOn d then u.slowEval p d else u) s

section
variable (s : State)

theorem State.sampled_slowIf {t : State} (st : s.Sampled t) (p d : Nat) : s.Sampled (if t.coreOn d then t.slowEval p d else t) := by
  split
  · exact st.trans (t.slowEval_spec p d).1
  · exact st
theorem State.sampled_slowPart {t : State} (st : s.Sampled t) (p : Nat) : s.Sampled (t.slowPart p) :=
  List.foldlRecOn (motive := s.Sampled) _ _ st (fun _ hu d _ => s.sampled_slowIf hu p d)
theorem State.sampled_slowAll : s.Sampled s.slowAll :=
  List.foldlRecOn (motive := s.Sampled) _ _ (State.Sampled.refl s) (fun _ hu p _ => s.sampled_slowPart hu p)

variable {d : Nat}

/-- A base taken stands: it is what a further evaluation would take. -/
theorem State.base_slowIf {t : State} (st : s.Sampled t) (base : (t.die d).lastCnt = s.slowCounts d) (p e : Nat) :
    ((if t.coreOn e then t.slowEval p e else t).die d).lastCnt = s.slowCounts d := by
  split
  next on =>
    obtain ⟨-, taken, others⟩ := t.slowEval_spec p e
    by_cases same : d = e
    · subst same
      rw [taken, st.slowCounts (State.lt_of_coreOn on)]
    · rw [others d same, base]
  next => exact base
theorem State.base_slowPart {t : State} (st : s.Sampled t) (base : (t.die d).lastCnt = s.slowCounts d) (p : Nat) :
    ((t.slowPart p).die d).lastCnt = s.slowCounts d :=
  (List.foldlRecOn (motive := fun u => s.Sampled u ∧ (u.die d).lastCnt = s.slowCounts d) _ _ ⟨st, base⟩
    (fun _ hu e _ => ⟨s.sampled_slowIf hu.1 p e, s.base_slowIf hu.1 hu.2 p e⟩)).2

variable {s}

theorem State.base_slowAll (on : s.coreOn d = true) {p : Nat} (hp : p < 16) (mem : d ∈ s.diesOf p) :
    (s.slowAll.die d).lastCnt = s.slowCounts d := by
  have partition : ∀ t, s.Sampled t → ((t.slowPart p).die d).lastCnt = s.slowCounts d := fun t st =>
    foldl_establishes (I := s.Sampled) (Q := fun u => (u.die d).lastCnt = s.slowCounts d) (a := d) (fun u e hu => s.sampled_slowIf hu p e)
      (fun u e hu base => s.base_slowIf hu base p e)
      (fun u hu => by
        rw [if_pos ((hu.coreOn d).trans on), (u.slowEval_spec p d).2.1, hu.slowCounts (State.lt_of_coreOn on)])
      _ t st (by rw [st.diesOf]; exact mem)
  exact foldl_establishes (I := s.Sampled) (Q := fun u => (u.die d).lastCnt = s.slowCounts d) (a := p) (fun u q hu => s.sampled_slowPart hu q)
    (fun u q hu base => s.base_slowPart hu base q) partition _ s (.refl s) (List.mem_range.2 hp)

end

-- The commands ----------------------------------------------------------------------------------------------------------------------------------------------

section
variable {s : State}

theorem execDrainedReport_eq {d : Nat} (hd : d < 576) : exec (.drainedReport d) s = .next (s.drainedReport d) := if_pos (decide_eq_true hd)
theorem execWatchdogIdle_eq {d : Nat} (hd : d < 576) : exec (.watchdogIdle d) s = .next (s.watchdogIdle d) := if_pos (decide_eq_true hd)
theorem execQuantumExpire_eq {p : Nat} (hp : p < 16) : exec (.quantumExpire p) s = .next (s.quantumExpire p) := if_pos (decide_eq_true hp)
theorem execContextSwitch_eq {p : Nat} (hp : p < 16) : exec (.contextSwitch p) s = .next (s.contextSwitch p) := if_pos (decide_eq_true hp)
theorem execDrainForced_eq {p : Nat} (hp : p < 16) : exec (.drainForced p) s = .next (s.drainForced p) := if_pos (decide_eq_true hp)
theorem execSlowDieEval_eq : exec .slowDieEval s = .next s.slowAll := rfl

theorem State.drainedReport_drained {d : Nat} (on : s.coreOn d = true) (drained : s.drainedNow d = true) : s.drainedReport d = s.spNotice d 2 :=
  if_pos (by rw [on, drained]; rfl)
theorem State.drainedReport_not {d : Nat} (waits : s.drainedNow d = false) : s.drainedReport d = s :=
  if_neg (by rw [waits, Bool.and_false]; exact Bool.false_ne_true)
theorem State.watchdogIdle_on {d : Nat} (on : s.coreOn d = true) : s.watchdogIdle d = (s.setRgB d CD_PL_STATUS 0 true).spNotice d 0 := if_pos on
theorem State.drainForced_no_drain {p : Nat} (none : (s.part p).drainAt = none) : s.drainForced p = s :=
  if_neg (by rw [none]; exact Bool.false_ne_true)
theorem State.quantumExpire_none {p : Nat} (none : s.running p = none) : s.quantumExpire p = s := by rw [State.quantumExpire, none]
theorem State.contextSwitch_none {p : Nat} (none : s.running p = none) : s.contextSwitch p = s.tryRun p 63 := by rw [State.contextSwitch, none]

end

/-- Settles O29: the commands of a die and a partition by their equations, the evaluation of slow dies by what each of its steps leaves. -/
theorem contextsAndSlowDies : Obligations.ContextsAndSlowDies := by
  refine ⟨fun s => ⟨fun d hd on => ⟨fun drained => ?drained, fun waits => ?notDrained, ?watchdog⟩,
    fun p hp => ⟨fun none => ⟨?noQuantum, ?noSwitch⟩, fun none => ?noDrain⟩,
    fun p cid c hp running => ⟨fun other => ?quantum, fun alone => ?alone, fun n cn yielded expired loaded still next ready noBinds => ?switch,
      fun early => ?early, fun n drain more noBinds => ?forced⟩⟩, fun s => ⟨_, execSlowDieEval_eq, ?slow⟩⟩
  case drained => rw [execDrainedReport_eq hd, State.drainedReport_drained on drained]
  case notDrained => rw [execDrainedReport_eq hd, State.drainedReport_not waits]
  case watchdog => rw [execWatchdogIdle_eq hd, State.watchdogIdle_on on]
  case noQuantum => rw [execQuantumExpire_eq hp, State.quantumExpire_none none]
  case noSwitch => rw [execContextSwitch_eq hp, State.contextSwitch_none none]
  case noDrain => rw [execDrainForced_eq hp, State.drainForced_no_drain none]
  case quantum =>
    obtain ⟨l, marks⟩ := State.quantumExpire_ready running other
    refine ⟨_, execQuantumExpire_eq hp, ?_⟩
    have part : (s.quantumExpire p).part p = { s.part p with ctxs := sput (s.part p).ctxs cid { c with expired := true } } := by
      rw [marks, State.part_setPcd, State.part_setPart, if_pos rfl]
    refine ⟨?_, fun k hk => ?_, by rw [marks]; rfl, by rw [marks]; rfl⟩
    · rw [part]
      exact sfind_sput ..
    · rw [part]
      exact sfind_sput_ne _ _ hk
  case alone => rw [execQuantumExpire_eq hp, State.quantumExpire_alone running alone]
  case switch =>
    obtain ⟨saved, savedOnly⟩ := State.saveCtx_spec (State.sfind_of_running running).2
    have stopped : ((s.saveCtx p cid).setPart p { (s.saveCtx p cid).part p with run := none }).part p =
        { (s.saveCtx p cid).part p with run := none } := by rw [State.part_setPart, if_pos rfl]
    obtain ⟨run, runs, others, only⟩ := State.runCtx_spec (s := (s.saveCtx p cid).setPart p { (s.saveCtx p cid).part p with run := none }) (n := n)
      (by rw [stopped]; exact ready) noBinds
    refine ⟨_, execContextSwitch_eq hp, ?_⟩
    rw [State.contextSwitch_eq running yielded expired loaded still next]
    obtain ⟨parts, sess⟩ := savedOnly.trans ((State.OnlyPart.setPart ..).trans only)
    refine ⟨run, runs, fun other => ?_, parts, sess⟩
    rw [others cid (Ne.symm other), stopped]
    exact saved
  case early => rw [execContextSwitch_eq hp, State.contextSwitch_not running early]
  case forced =>
    obtain ⟨⟨prog, part⟩, parts, sess⟩ := State.drainForced_spec running drain more noBinds
    refine ⟨_, execDrainForced_eq hp, ?_⟩
    refine ⟨by rw [part]; rfl, by rw [part]; rfl, ?_, parts, sess⟩
    rw [part, Part.nextPhase, sfind_sput]
    rfl
  case slow =>
    have sampled := s.sampled_slowAll
    refine ⟨fun p d hp mem on => State.base_slowAll on hp mem, fun d o hd ho => sampled.rg (by omega) ho, ?_, ?_⟩
    · exact sampled.choose_spec.mds
    · exact sampled.choose_spec.sess

end Sys2Proof.Machine
end

section
/-! Landing checks, the snapshot and match registers, and the issue list of the schedule (spec/09 R259-R272, spec/10 R294; O30). -/

namespace Sys2Proof.Machine

-- Tables without flipped bits (spec/09 R266) --------------------------------------------------------------------------------------------

theorem State.tabCheck_of_no_errs {s : State} {d : Nat} (intact : (s.die d).tabErr = []) (off n : Nat) : s.tabCheck d off n = (s, false) := by
  rw [State.tabCheck, intact]
  rfl

-- Landing checks (spec/09 R259, R262) --------------------------------------------------------------------------------------------------------

/-- Keys erased one after the other read as unlisted, every other as before. -/
theorem sget_foldl_serase {α : Type} (x : α) (l : List Nat) (m : SMap α) (k : Nat) :
    sget x (l.foldl serase m) k = if k ∈ l then x else sget x m k := by
  induction l generalizing m with
  | nil => simp
  | cons a l ih =>
    rw [List.foldl_cons, ih, sget_serase]
    by_cases here : k = a <;> simp [here]

theorem SameOutside.bumpErr (s : State) (node off st b n : Nat) : SameOutside s (s.bumpErr node off st b n) := by
  obtain ⟨r, q, bumped⟩ := s.bumpErr_frame node off st b n
  rw [bumped]
  exact ⟨rfl, rfl, rfl, rfl, rfl, rfl, rfl, rfl, rfl, rfl⟩
theorem State.die_bumpErr (s : State) (node off st b n d : Nat) : (s.bumpErr node off st b n).die d = s.die d := by
  obtain ⟨r, q, bumped⟩ := s.bumpErr_frame node off st b n
  rw [bumped]
  rfl

/-- Tags of the checks due whose flags are not set. -/
def Die.unmet (x : Die) : List Nat := x.landGroup.filter (fun g => !sget false x.flags g)

theorem Die.length_landGroup_le (x : Die) : x.landGroup.length ≤ 4096 := by
  unfold Die.landGroup
  extract_lets c
  split
  · rw [List.length_map]
    refine (List.takeWhile_sublist _).length_le.trans ?_
    rw [List.length_map, List.length_range]
    exact Nat.sub_le ..
  · exact Nat.zero_le _
theorem Die.length_unmet_le (x : Die) : x.unmet.length ≤ 4096 := (List.length_filter_le ..).trans x.length_landGroup_le
theorem Die.unmet_eq_nil {x : Die} (met : ∀ g ∈ x.landGroup, sget false x.flags g = true) : x.unmet = [] :=
  List.filter_eq_nil_iff.2 fun g hg => by simp [met g hg]
theorem Die.unmet_ne_nil {x : Die} (waits : ∃ g ∈ x.landGroup, sget false x.flags g = false) : x.unmet ≠ [] := by
  obtain ⟨g, hg, unset⟩ := waits
  exact List.ne_nil_of_mem (List.mem_filter.2 ⟨hg, by rw [unset]; rfl⟩)

/-- The die past its checks due, their flags cleared. -/
def Die.landed (x : Die) : Die :=
  { x with flags := x.landGroup.foldl serase x.flags, landPtr := x.landPtr + x.landGroup.length, landLate := false }
/-- The die late at its checks due. -/
def Die.late (x : Die) : Die := { x with landLate := true }

section
variable {s : State} {d : Nat}

theorem State.landTest_not_due (early : s.landDue d = false) : s.landTest d = s :=
  if_neg (by rw [early, Bool.and_false]; exact Bool.false_ne_true)

/-- R262: with every flag set they are cleared and the die goes on; with one unset it is late, and counts those unset when it begins to be. -/
theorem State.landTest_due (on : s.coreOn d = true) (due : s.landDue d = true) (intact : (s.die d).tabErr = []) :
    s.landTest d = if (s.die d).unmet = [] then s.setDie d (s.die d).landed else if (s.die d).landLate then s
      else (s.setDie d (s.die d).late).bumpErr d CD_LAND_LATE CD_SCH_STATUS 30 (s.die d).unmet.length := by
  simp only [State.landTest, on, due, State.tabCheck_of_no_errs intact]
  rfl

end

-- Snapshots (spec/09 R271) -------------------------------------------------------------------------------------------------------------------------

/-- The first n snapshot registers of a die set. -/
def State.snapped (s : State) (d n : Nat) (f : Nat → Nat) : State := (List.range n).foldl (fun t k => t.setRg d (CD_SCH_SNAP k) (f k)) s

theorem State.snapped_succ (s : State) (d n : Nat) (f : Nat → Nat) : s.snapped d (n + 1) f = (s.snapped d n f).setRg d (CD_SCH_SNAP n) (f n) := by
  rw [State.snapped, List.range_succ, List.foldl_append]
  rfl
theorem State.rg_snapped (s : State) (d n k : Nat) (f : Nat → Nat) (hk : k < n) : (s.snapped d n f).rg d (CD_SCH_SNAP k) = f k := by
  induction n with
  | zero => exact absurd hk (Nat.not_lt_zero k)
  | succ n ih =>
    rw [State.snapped_succ, State.rg_setRg_node]
    by_cases last : k = n
    · rw [last, if_pos rfl]
    · rw [if_neg (by unfold CD_SCH_SNAP; omega), ih (by omega)]
theorem State.snapped_frame (s : State) (d n : Nat) (f : Nat → Nat) : ∃ r, s.snapped d n f = { s with regs := r } := by
  induction n with
  | zero => exact ⟨s.regs, rfl⟩
  | succ n ih =>
    obtain ⟨r, below⟩ := ih
    rw [State.snapped_succ, below]
    exact ⟨_, rfl⟩

/-- R271: each register takes the counter of its number. -/
theorem State.snapOn_of_set {s : State} {src : Source} {v : Nat} (d : Nat) (may : Source.schedOk src = true) (set : v.testBit 0 = true) :
    s.snapOn src v d = (s.snapped d 8 (fun k => s.rg d (schedRegs.getD k 0))).setRgB d CD_SCH_STATUS 2 true :=
  if_pos (by rw [may, set]; rfl)
theorem State.snapOn_of_clear {s : State} {src : Source} {v : Nat} (d : Nat) (clear : v.testBit 0 = false) : s.snapOn src v d = s :=
  if_neg (by rw [clear, Bool.and_false]; exact Bool.false_ne_true)

-- Matches (spec/09 R272) ----------------------------------------------------------------------------------------------------------------------------

section
variable {s : State} {d : Nat}

theorem State.matchDone_passed (on : s.coreOn d = true) (armed : s.rgB d CD_SCH_MATCH 63 = true)
    (passed : (s.die d).inPhase = false ∨ s.rg d CD_SCH_MATCH % 2 ^ 48 < s.rg d CD_SCH_NOMINAL % 2 ^ 48) :
    s.matchDone d = s.setRgB d CD_SCH_MATCH_RES 63 true := by
  refine if_pos ?_
  rw [on, armed]
  rcases passed with stopped | passed
  · rw [stopped]
    rfl
  · have passed : s.rgF d CD_SCH_MATCH 47 0 < s.rg d CD_SCH_NOMINAL % 2 ^ 48 := passed
    rw [decide_eq_true passed, Bool.or_true]
    rfl
theorem State.matchDone_not (waits : s.rgB d CD_SCH_MATCH 63 = false ∨
    ((s.die d).inPhase = true ∧ s.rg d CD_SCH_NOMINAL % 2 ^ 48 ≤ s.rg d CD_SCH_MATCH % 2 ^ 48)) : s.matchDone d = s := by
  refine if_neg ?_
  rw [Bool.and_eq_true, Bool.and_eq_true, Bool.or_eq_true, decide_eq_true_eq]
  rintro ⟨⟨-, armed⟩, passed⟩
  rcases waits with clear | ⟨runs, ahead⟩
  · rw [clear] at armed
    cases armed
  · rcases passed with stopped | passed
    · rw [runs] at stopped
      cases stopped
    · exact Nat.not_lt.2 ahead passed

-- The issue list (spec/10 R292, R294) ---------------------------------------------------------------------------------------------------------------

/-- The die past its issue due. -/
def Die.issued (x : Die) : Die := { x with dmaPtr := x.dmaPtr + 1 }
/-- The descriptor due. -/
def Die.descDue (x : Die) : DmaDesc := descOf (readBytes x.tabs (dmaTableBase + 64 * (x.dmaEntry x.dmaPtr).2.2.1) 64)

theorem State.dmaSend_not_due (early : s.dmaDue d = false) : s.dmaSend d = s :=
  if_neg (by rw [early, Bool.and_false]; exact Bool.false_ne_true)

section
variable (on : s.coreOn d = true) (due : s.dmaDue d = true) (intact : (s.die d).tabErr = [])
include on due intact

theorem State.dmaSend_sends {m : Nat} (entry : ((s.die d).dmaEntry (s.die d).dmaPtr).2.2.2 = m) (own : s.partOfRegion (m / 8) = s.partOfNode d)
    (powered : s.mdOn m = true) :
    s.dmaSend d = (s.modDie d Die.issued).setPcd (fun p => { p with descs := p.descs ++ [(m, .sched d, (s.die d).descDue)] }) := by
  subst entry
  simp only [State.dmaSend, on, due, State.tabCheck_of_no_errs intact, Bool.and_self, Bool.false_eq_true, if_true, if_false]
  exact if_pos ⟨own, powered⟩

/-- R292: the die sets the flag of its own reject. -/
theorem State.dmaSend_rejects {m : Nat} (entry : ((s.die d).dmaEntry (s.die d).dmaPtr).2.2.2 = m)
    (foreign : s.partOfRegion (m / 8) ≠ s.partOfNode d ∨ s.mdOn m = false) :
    ∃ t, s.dmaSend d = t.raise d 0x2202 (unitDie d) 0 ∧ (t.die d).dmaPtr = (s.die d).dmaPtr + 1 ∧ t.pcd = s.pcd ∧ t.regs = s.regs ∧
      SameOutside s t := by
  subst entry
  have refused : ¬ (s.partOfRegion (((s.die d).dmaEntry (s.die d).dmaPtr).2.2.2 / 8) = s.partOfNode d ∧
      s.mdOn ((s.die d).dmaEntry (s.die d).dmaPtr).2.2.2 = true) := by
    rintro ⟨own, powered⟩
    rcases foreign with other | off
    · exact other own
    · rw [off] at powered
      cases powered
  simp only [State.dmaSend, on, due, State.tabCheck_of_no_errs intact, Bool.and_self, Bool.false_eq_true, if_true, if_false]
  refine ⟨_, if_neg refused, ?_⟩
  split
  · exact ⟨by simp, rfl, rfl, .setDie (.setDie (.refl s) ..) ..⟩
  · exact ⟨by simp, rfl, rfl, .setDie (.refl s) ..⟩

end

-- The commands ----------------------------------------------------------------------------------------------------------------------------------------

theorem execLandingCheck_eq (hd : d < 576) : exec (.landingCheck d) s = .next (s.landTest d) := if_pos (decide_eq_true hd)
theorem execSchMatchResolve_eq (hd : d < 576) : exec (.schMatchResolve d) s = .next (s.matchDone d) := if_pos (decide_eq_true hd)
theorem execDmaIssue_eq (hd : d < 576) : exec (.dmaIssue d) s = .next (s.dmaSend d) := if_pos (decide_eq_true hd)

section
variable {src : Source} {site : Nat} (hsrc : src.ok = true) (hsite : site < 512) (reached : s.reaches src site d)
include hsrc hsite reached

theorem execSchSnapshot_of_reaches (v : W32) : exec (.schSnapshot src site v) s = .next (s.snapOn src v.toNat d) :=
  (if_pos (by simp [Instr.wf, hsrc, hsite])).trans (congrArg _ (State.atSite_of_reaches reached _))
theorem execSchMatchArm_of_reaches (v : W64) : exec (.schMatchArm src site v) s = .next (s.matchOn src v.toNat d) :=
  (if_pos (by simp [Instr.wf, hsrc, hsite])).trans (congrArg _ (State.atSite_of_reaches reached _))

end

/-- R276: the management path alone may not write the schedule's registers, and it reaches no site. -/
theorem State.reaches.schedOk {src : Source} {site : Nat} (reached : s.reaches src site d) : Source.schedOk src = true := by
  obtain ⟨-, -, own⟩ := reached
  cases src with
  | mgmt => exact own.elim
  | score | host | pcd => rfl

end

/-- Settles O30: each command by the equation of its case. -/
theorem scheduleChecksAndSnapshots : Obligations.ScheduleChecksAndSnapshots := by
  intro s d hd on
  refine ⟨fun early => ?early, fun due intact met => ?met, fun due intact fresh waits => ?late, fun due intact late waits => ?waits,
    fun src site hsrc hsite reached => ⟨fun v set => ?snapshot, fun v clear => ?noSnapshot, fun v => ?arm⟩,
    fun armed passed => ?resolves, fun waits => ?unresolved, fun early => ?noIssue, fun due intact own powered => ?issues,
    fun due intact foreign => ?rejects⟩
  case early => rw [execLandingCheck_eq hd, State.landTest_not_due early]
  case met =>
    refine ⟨_, execLandingCheck_eq hd, ?_⟩
    dsimp only
    rw [State.landTest_due on due intact, if_pos (Die.unmet_eq_nil met), State.die_setDie, if_pos rfl]
    exact ⟨rfl, rfl, fun g => sget_foldl_serase .., rfl, .setDie (.refl s) ..⟩
  case late =>
    refine ⟨_, execLandingCheck_eq hd, ?_⟩
    have unmet := Die.unmet_ne_nil waits
    dsimp only
    rw [State.landTest_due on due intact, if_neg unmet, if_neg (by rw [fresh]; exact Bool.false_ne_true), State.die_bumpErr, State.die_setDie,
      if_pos rfl]
    refine ⟨rfl, rfl, rfl, fun room => ?_, (SameOutside.setDie (.refl s) ..).trans (.bumpErr ..)⟩
    have few := (s.die d).length_unmet_le
    rw [State.bumpErr_of_lt (by rw [State.rg_setDie]; omega) (List.length_eq_zero_iff.not.2 unmet), State.rg_setRg_same]
    rfl
  case waits => rw [execLandingCheck_eq hd, State.landTest_due on due intact, if_neg (Die.unmet_ne_nil waits), if_pos late]
  case snapshot =>
    refine ⟨_, execSchSnapshot_of_reaches hsrc hsite reached v, ?_⟩
    dsimp only
    rw [State.snapOn_of_set d reached.schedOk ((BitVec.testBit_toNat v).trans set)]
    obtain ⟨r, only⟩ := s.snapped_frame d 8 (fun k => s.rg d (schedRegs.getD k 0))
    refine ⟨fun k hk => ?_, State.rgB_setRgB .., by rw [only]; rfl, by rw [only]; rfl, by rw [only]; exact .withRegs (.refl s) _⟩
    rw [State.setRgB, State.setRgF, State.rg_setRg_node, if_neg (by unfold CD_SCH_SNAP CD_SCH_STATUS; omega), State.rg_snapped _ _ _ _ _ hk]
  case noSnapshot =>
    rw [execSchSnapshot_of_reaches hsrc hsite reached, State.snapOn_of_clear d ((BitVec.testBit_toNat v).trans clear)]
  case arm =>
    refine ⟨_, execSchMatchArm_of_reaches hsrc hsite reached v, ?_⟩
    dsimp only
    rw [State.matchOn, if_pos reached.schedOk]
    refine ⟨?_, ?_, State.rg_setRg_same .., rfl, rfl, .withRegs (.refl s) _⟩
    · rw [State.rg_setRg_node, if_neg (by decide), State.rg_setRg_node, if_neg (by decide), State.rg_setRg_same]
    · rw [State.rg_setRg_node, if_neg (by decide), State.rg_setRg_same]
  case resolves => rw [execSchMatchResolve_eq hd, State.matchDone_passed on armed passed]
  case unresolved => rw [execSchMatchResolve_eq hd, State.matchDone_not waits]
  case noIssue => rw [execDmaIssue_eq hd, State.dmaSend_not_due early]
  case issues =>
    refine ⟨_, execDmaIssue_eq hd, ?_⟩
    dsimp only
    rw [State.dmaSend_sends on due intact rfl own powered]
    refine ⟨?_, rfl, rfl, (SameOutside.setDie (.refl s) ..).trans (.setPcd ..)⟩
    rw [State.die_setPcd, State.die_modDie, if_pos rfl]
    rfl
  case rejects =>
    obtain ⟨t, sent, past, pcd, regs, outside⟩ := State.dmaSend_rejects on due intact rfl foreign
    have descs : t.pcd.descs = s.pcd.descs := by rw [pcd]
    obtain ⟨a, code, node, alerts⟩ := t.alerts_raise d 0x2202 (unitDie d) 0
    refine ⟨_, execDmaIssue_eq hd, ?_⟩
    rw [sent]
    exact ⟨past, descs, ⟨a, by rw [alerts, pcd], code, node⟩, regs, .raise outside ..⟩

end Sys2Proof.Machine
end

section
/-! LAND and DONE at their dies, packets that endpoints discard, and hops from router to router (spec/09 R262, R263, spec/10 R296, spec/11 R328,
R329, R332; O36). -/

namespace Sys2Proof.Machine

-- Packets at their destination (spec/11 R328) -------------------------------------------------------------------------------------------------

/-- The packets of R327 and R351, each with its TYPE. -/
def packetTypes (p : DynPkt) : List (Instr × Nat) :=
  [(.read p, 0), (.write p, 1), (.readData p, 2), (.writeAck p, 3), (.land p, 5), (.done p, 6), (.fread p, 8), (.freadData p, 9), (.fwrite p, 10),
    (.fwriteAck p, 11)]

/-- A WRITE is checked alike at a fabric die and at a memory die or scratchpad. -/
theorem State.writeAt_pktIn (s : State) (p : DynPkt) : ∃ f, s.writeAt p = s.pktIn p [1] f := by
  unfold State.writeAt
  split
  · exact ⟨_, rfl⟩
  · exact ⟨_, rfl⟩

/-- A state with other packets in the buffers of the routers. -/
def State.withNet (s : State) (l : SMap (List DynPkt)) : State := s.setPcd (fun q => { q with net := l })

/-- The packet that arrives leaves the buffers of the routers; nothing else changes. -/
theorem State.netDrop_frame (s : State) (p : DynPkt) : ∃ l, s.netDrop p = s.withNet l := by
  unfold State.netDrop
  split
  · exact ⟨_, rfl⟩
  · exact ⟨s.pcd.net, rfl⟩

section
variable {s : State} {p : DynPkt}

/-- Every packet's command is the endpoint's check of it (R328) before its own effect. -/
theorem exec_packetTypes {e : Instr × Nat} (mem : e ∈ packetTypes p) : ∃ f, exec e.1 s = .next (s.pktIn p [e.2] f) := by
  simp only [packetTypes, List.mem_cons, List.not_mem_nil, or_false] at mem
  rcases mem with rfl | rfl | rfl | rfl | rfl | rfl | rfl | rfl | rfl | rfl
  case inr.inl =>
    obtain ⟨f, checked⟩ := s.writeAt_pktIn p
    exact ⟨f, congrArg Host.Outcome.next checked⟩
  all_goals exact ⟨_, rfl⟩

theorem execLand_eq : exec (.land p) s = .next (s.landPkt p) := rfl
theorem execDone_eq : exec (.done p) s = .next (s.donePkt p) := rfl

variable {types : List Nat} {f : State → State}

theorem State.pktIn_off (off : s.epOn p.dst.toNat = false) : s.pktIn p types f = s.netDrop p :=
  if_neg (by rw [off]; exact Bool.false_ne_true)
theorem State.pktIn_accepted {ty : Nat} (on : s.epOn p.dst.toNat = true) (intact : p.ecrcOk = true)
    (own : s.partOfEp p.dst.toNat = some p.part.toNat) (type : p.ptype.toNat = ty) : s.pktIn p [ty] f = f (s.netDrop p) := by
  simp [State.pktIn, on, intact, own, type]
theorem State.pktIn_discarded {ty : Nat} (on : s.epOn p.dst.toNat = true)
    (bad : p.ecrcOk = false ∨ s.partOfEp p.dst.toNat ≠ some p.part.toNat ∨ p.ptype.toNat ≠ ty) :
    s.pktIn p [ty] f = (s.netDrop p).e2eDrop (s.epRouter p.dst.toNat p.src.toNat) := by
  refine (if_pos on).trans (if_neg ?_)
  simp only [Bool.and_eq_true, decide_eq_true_eq, List.contains_iff_mem, List.mem_singleton]
  rintro ⟨⟨intact, own⟩, type⟩
  rcases bad with broken | foreign | other
  · rw [intact] at broken
    cases broken
  · exact foreign own
  · exact other type

end

-- LAND and DONE (spec/09 R262, R263, R265, spec/10 R296) ------------------------------------------------------------------------------------------

section
variable {s : State} {d : Nat}

theorem State.landIn_first {tag : Nat} (unset : sget false (s.die d).flags tag = false) :
    s.landIn d tag = s.modDie d (fun x => { x with flags := sput x.flags tag true }) :=
  if_neg (by rw [unset]; exact Bool.false_ne_true)
/-- R263: a duplicate is discarded and counted. -/
theorem State.landIn_again {tag : Nat} (set : sget false (s.die d).flags tag = true) :
    s.landIn d tag = s.bumpErr d CD_LAND_DUP CD_SCH_STATUS 29 1 := if_pos set

theorem State.fxRelease_of_none (free : ∀ c, c < 4 → (s.sc d c).fxHold = none) : s.fxRelease d = s :=
  foldl_eq_self fun c hc => by rw [free c (List.mem_range.1 hc)]
/-- R296: a ticket ends, complete or failed, and no S-core waits for its entry. -/
theorem State.ticketEnd_of_open {tk v : Nat} (st : Nat) (pending : sfind (s.die d).tickets tk = some v)
    (free : ∀ c, c < 4 → (s.sc d c).fxHold = none) :
    s.ticketEnd d tk st = s.modDie d (fun x => { x with tickets := sput x.tickets tk (if st = 0 then 1 else 2) }) := by
  rw [State.ticketEnd, pending]
  exact State.fxRelease_of_none fun c hc => by rw [State.sc_modDie rfl, free c hc]

end

section
variable {s : State} {p : DynPkt} (on : s.epOn p.dst.toNat = true) (intact : p.ecrcOk = true) (die : epKind p.dst.toNat = 0)
  (own : s.partOfEp p.dst.toNat = some p.part.toNat)
include on intact die own

theorem State.landPkt_eq (type : p.ptype = 5#4) : s.landPkt p = (s.netDrop p).landIn (epId p.dst.toNat) (bits p.aux.toNat 11 0) :=
  (State.pktIn_accepted on intact own (by rw [type]; rfl)).trans (if_pos die)

variable (type : p.ptype = 6#4)
include type

/-- R265: DONE of a scheduled item, which sets the flag of one that has failed. -/
theorem State.donePkt_sched (sched : (leVal (p.payload.drop 8)).testBit 0 = true) :
    s.donePkt p = if bits (leVal p.payload) 47 40 = 0 then s.netDrop p else (s.netDrop p).modDie (epId p.dst.toNat)
      (fun x => { x with flags := sput x.flags (bits (leVal (p.payload.drop 8)) 12 1) true }) :=
  (State.pktIn_accepted on intact own (by rw [type]; rfl)).trans ((if_pos die).trans (if_pos sched))
/-- R296: DONE of an item of an S-core. -/
theorem State.donePkt_ticket (ticket : (leVal (p.payload.drop 8)).testBit 0 = false) :
    s.donePkt p = (s.netDrop p).ticketEnd (epId p.dst.toNat) p.aux.toNat (bits (leVal p.payload) 47 40) :=
  (State.pktIn_accepted on intact own (by rw [type]; rfl)).trans
    ((if_pos die).trans (if_neg (by rw [ticket]; exact Bool.false_ne_true)))

end

-- Ports and buffers of routers (spec/11 R323, R332) -------------------------------------------------------------------------------------------------

theorem portTo_lt {u v port : Nat} (h : portTo u v = some port) : port < 8 := by
  unfold portTo at h
  split_ifs at h <;> cases h <;> decide
theorem portTo_self (u : Nat) : portTo u u = none := by
  unfold portTo
  simp
theorem netKey_eq_iff {n m i j ch : Nat} (hi : i < 16) (hj : j < 16) : netKey n i ch = netKey m j ch ↔ n = m ∧ i = j := by
  unfold netKey
  omega

section
variable {s : State} {node out ch i : Nat}

theorem State.netPick_lt (pick : s.netPick node out = some (ch, i)) : i < 16 := by
  obtain ⟨c, -, served⟩ := List.exists_of_findSome?_eq_some pick
  split at served
  · obtain ⟨j, next, same⟩ := Option.map_eq_some_iff.1 served
    cases same
    obtain ⟨k, -, rfl⟩ := List.mem_map.1 (List.mem_of_find?_eq_some next)
    exact Nat.mod_lt _ (by decide)
  · cases served

@[simp] theorem State.netQ_setNetQ (s : State) (n j c : Nat) (l : List DynPkt) (m k e : Nat) :
    (s.setNetQ n j c l).netQ m k e = if netKey m k e = netKey n j c then l else s.netQ m k e := sget_nput ..
@[simp] theorem State.rrCh_setNetQ (s : State) (n j c : Nat) (l : List DynPkt) : (s.setNetQ n j c l).pcd.rrCh = s.pcd.rrCh := rfl
@[simp] theorem State.netUsed_setNetQ (s : State) (n j c : Nat) (l : List DynPkt) : (s.setNetQ n j c l).pcd.netUsed = s.pcd.netUsed := rfl
@[simp] theorem State.dies_setNetQ (s : State) (n j c : Nat) (l : List DynPkt) : (s.setNetQ n j c l).dies = s.dies := rfl
@[simp] theorem State.mds_setNetQ (s : State) (n j c : Nat) (l : List DynPkt) : (s.setNetQ n j c l).mds = s.mds := rfl
@[simp] theorem State.rrCh_netServed (s : State) (n o c j : Nat) :
    sget 0 (s.netServed n o c j).pcd.rrCh (16 * n + o) = (c + 1) % 4 := (sget_nput ..).trans (if_pos rfl)
@[simp] theorem State.netUsed_netServed (s : State) (n o c j : Nat) : (s.netServed n o c j).pcd.netUsed = s.pcd.netUsed := rfl
@[simp] theorem State.dies_netServed (s : State) (n o c j : Nat) : (s.netServed n o c j).dies = s.dies := rfl
@[simp] theorem State.mds_netServed (s : State) (n o c j : Nat) : (s.netServed n o c j).mds = s.mds := rfl

-- Hops (spec/11 R325, R329, R332) ------------------------------------------------------------------------------------------------------------------

/-- The router sends: in service, its region powered, its partition's links not stopped. -/
def State.sends (s : State) (node : Nat) : Prop :=
  s.routerOut node = false ∧ s.regionOn ((regionOfNode node).getD 16) = true ∧ (s.partOfNode node).isSome = true ∧
    ∀ g, s.partOfNode node = some g → (s.part g).stopped = false

/-- The packet q is at the end of the next router's input `far`; r wait where it was at the head. -/
def State.passed (s : State) (node out ch i nx far : Nat) (q : DynPkt) (r : List DynPkt) : State :=
  ((s.netServed node out ch i).setNetQ node i ch r).setNetQ nx far ch (s.netQ nx far ch ++ [q])

section
variable (s : State) {nx far : Nat} (q : DynPkt) (r : List DynPkt)

theorem State.netQ_passed_left (inputs : netKey node i ch ≠ netKey nx far ch) : (s.passed node out ch i nx far q r).netQ node i ch = r := by
  rw [State.passed, State.netQ_setNetQ, if_neg inputs, State.netQ_setNetQ, if_pos rfl]
theorem State.netQ_passed_next : (s.passed node out ch i nx far q r).netQ nx far ch = s.netQ nx far ch ++ [q] := by
  rw [State.passed, State.netQ_setNetQ, if_pos rfl]
theorem State.rrCh_passed : sget 0 (s.passed node out ch i nx far q r).pcd.rrCh (16 * node + out) = (ch + 1) % 4 := by
  simp [State.passed]
theorem State.netUsed_passed : (s.passed node out ch i nx far q r).pcd.netUsed = s.pcd.netUsed := by simp [State.passed]
theorem State.dies_passed : (s.passed node out ch i nx far q r).dies = s.dies := by simp [State.passed]
theorem State.mds_passed : (s.passed node out ch i nx far q r).mds = s.mds := by simp [State.passed]

end

/-- The flits of a packet sent over a port: counted, in the replay buffer, their credits taken (R323, R325). -/
def State.flitsSent (s : State) (node out ch : Nat) (q : DynPkt) : State :=
  ((s.bumpPerf (nodeRs ((regionOfNode node).getD 0)) (RS_RT_DYN_FLITS (rtIndex node)) (pktFlits q)).sendCodewords node out
    (cdiv (pktFlits q) 7)).takeCredits node out ch (pktFlits q)

theorem State.flitsSent_frame (s : State) (node out ch : Nat) (q : DynPkt) : ∃ regs sent, s.flitsSent node out ch q =
    { s with
      regs := regs
      pcd := { s.pcd with
        sentNext := sent
        netUsed := nput 0 s.pcd.netUsed (netKey node out ch) (sget 0 s.pcd.netUsed (netKey node out ch) + pktFlits q) } } := by
  obtain ⟨regs, counted⟩ := s.bumpPerf_frame (nodeRs ((regionOfNode node).getD 0)) (RS_RT_DYN_FLITS (rtIndex node)) (pktFlits q)
  rw [State.flitsSent, counted]
  exact ⟨_, _, rfl⟩

section
variable (s : State) (node out ch : Nat) (q : DynPkt)

@[simp] theorem State.netQ_flitsSent (n j c : Nat) : (s.flitsSent node out ch q).netQ n j c = s.netQ n j c := by
  obtain ⟨regs, sent, frame⟩ := s.flitsSent_frame node out ch q
  rw [frame]
  rfl
@[simp] theorem State.rrCh_flitsSent : (s.flitsSent node out ch q).pcd.rrCh = s.pcd.rrCh := by
  obtain ⟨regs, sent, frame⟩ := s.flitsSent_frame node out ch q
  rw [frame]
theorem State.credits_flitsSent :
    sget 0 (s.flitsSent node out ch q).pcd.netUsed (netKey node out ch) = sget 0 s.pcd.netUsed (netKey node out ch) + pktFlits q := by
  obtain ⟨regs, sent, frame⟩ := s.flitsSent_frame node out ch q
  rw [frame]
  dsimp only
  rw [sget_nput, if_pos rfl]
@[simp] theorem State.dies_flitsSent : (s.flitsSent node out ch q).dies = s.dies := by
  obtain ⟨regs, sent, frame⟩ := s.flitsSent_frame node out ch q
  rw [frame]
@[simp] theorem State.mds_flitsSent : (s.flitsSent node out ch q).mds = s.mds := by
  obtain ⟨regs, sent, frame⟩ := s.flitsSent_frame node out ch q
  rw [frame]

end

theorem execPacketHop_eq (hn : node < 576) (ho : out < 16) : exec (.packetHop node out) s = .next (s.packetHop node out) :=
  if_pos (by simp [Instr.wf, hn, ho])

theorem State.packetHop_idle (idle : s.netPick node out = none ∨ ¬ s.sends node) : s.packetHop node out = s := by
  unfold State.packetHop
  extract_lets stopped
  split
  · rfl
  next ch i pick =>
    split
    · rfl
    next =>
      refine if_pos ?_
      rcases idle with none | stands
      · rw [none] at pick
        cases pick
      · by_contra goes
        simp only [Bool.or_eq_true, Bool.not_eq_true', not_or, Bool.not_eq_true, Bool.not_eq_false] at goes
        obtain ⟨⟨works, on⟩, runs⟩ := goes
        refine stands ⟨works, on, ?_⟩
        unfold stopped at runs
        split at runs
        next g placed => exact ⟨by rw [placed]; rfl, fun g' same => by rw [placed] at same; cases same; exact runs⟩
        next => cases runs

variable {q : DynPkt} {r : List DynPkt} (pick : s.netPick node out = some (ch, i)) (head : s.netQ node i ch = q :: r) (sends : s.sends node)
include pick head sends

theorem State.packetHop_arrives (here : s.nextHop node (s.epRouter q.dst.toNat q.src.toNat) q.ord = none) :
    s.packetHop node out = (s.netServed node out ch i).pktArrive q := by
  obtain ⟨works, on, placed, runs⟩ := sends
  obtain ⟨g, part⟩ := Option.isSome_iff_exists.1 placed
  simp [State.packetHop, pick, head, works, on, part, runs g part, here]
theorem State.packetHop_moves {nx : Nat} (next : s.nextHop node (s.epRouter q.dst.toNat q.src.toNat) q.ord = some nx) :
    s.packetHop node out = if s.replayRoom node out < cdiv (pktFlits q) 7 then s
      else (s.passed node out ch i nx ((portTo nx node).getD 14) q r).flitsSent node out ch q := by
  obtain ⟨works, on, placed, runs⟩ := sends
  obtain ⟨g, part⟩ := Option.isSome_iff_exists.1 placed
  simp [State.packetHop, pick, head, works, on, part, runs g part, next, State.passed, State.flitsSent]

end

/-- Settles O36: LAND and DONE by the equation of each case, a discarded packet by the check that every packet meets, a hop by what its output
serves. -/
theorem landingsDonesAndHops : Obligations.LandingsDonesAndHops := by
  refine ⟨fun s p off => ?off, fun s p on => ⟨fun intact die own => ⟨fun type unset => ?land, fun type set room => ?again,
    fun type sched ok => ?doneOk, fun type sched failed => ?doneFailed, fun v type ticket pending free => ?ticket⟩, fun e mem bad => ?discarded,
    fun node out ch i q r nx far hn ho pick head works powered runs placed next port => ⟨fun room => ?moves, fun full => ?full⟩,
    fun node out hn ho idle => ?idle, fun node out ch i q r hn ho pick head works powered runs placed here => ?arrives⟩⟩
  case off =>
    intro i command
    have command : i ∈ (packetTypes p).map Prod.fst := command
    obtain ⟨e, mem, rfl⟩ := List.mem_map.1 command
    obtain ⟨f, checked⟩ := exec_packetTypes (s := s) mem
    rw [checked, State.pktIn_off off]
  case land =>
    obtain ⟨l, dropped⟩ := s.netDrop_frame p
    refine ⟨_, execLand_eq, ?_⟩
    dsimp only
    rw [State.landPkt_eq on intact die own type, dropped, State.landIn_first (s := s.withNet l) unset, State.die_modDie, if_pos rfl]
    exact ⟨fun g => sget_sput .., fun e he => by rw [State.die_modDie, if_neg he]; rfl, rfl, rfl⟩
  case again =>
    obtain ⟨l, dropped⟩ := s.netDrop_frame p
    refine ⟨_, execLand_eq, ?_⟩
    dsimp only
    have room : (s.withNet l).rg (epId p.dst.toNat) CD_LAND_DUP + 1 < 0xFFFFFFFF := Nat.add_lt_of_lt_sub room
    rw [State.landPkt_eq on intact die own type, dropped, State.landIn_again (s := s.withNet l) set, State.bumpErr_of_lt room (by decide)]
    exact ⟨rfl, State.rg_setRg_same ..⟩
  case doneOk => rw [execDone_eq, State.donePkt_sched on intact die own type sched, if_pos ok]
  case doneFailed =>
    obtain ⟨l, dropped⟩ := s.netDrop_frame p
    refine ⟨_, execDone_eq, ?_⟩
    dsimp only
    rw [State.donePkt_sched on intact die own type sched, if_neg failed, dropped, State.die_modDie, if_pos rfl]
    exact ⟨fun g => sget_sput .., rfl, rfl⟩
  case ticket =>
    obtain ⟨l, dropped⟩ := s.netDrop_frame p
    refine ⟨_, execDone_eq, ?_⟩
    dsimp only
    rw [State.donePkt_ticket on intact die own type ticket, dropped, State.ticketEnd_of_open (s := s.withNet l) _ pending free, State.die_modDie,
      if_pos rfl]
    exact ⟨sfind_sput .., fun k hk => sfind_sput_ne _ _ hk, rfl⟩
  case discarded =>
    obtain ⟨f, checked⟩ := exec_packetTypes (s := s) mem
    rw [checked, State.pktIn_discarded on bad]
    rfl
  case moves =>
    have inputs : netKey node i ch ≠ netKey nx far ch := fun same => by
      obtain ⟨rfl, -⟩ := (netKey_eq_iff (State.netPick_lt pick) ((portTo_lt port).trans (by decide))).1 same
      rw [portTo_self] at port
      cases port
    refine ⟨_, execPacketHop_eq hn ho, ?_⟩
    dsimp only
    rw [State.packetHop_moves pick head ⟨works, powered, placed, runs⟩ next, if_neg (Nat.not_lt.2 room), port]
    rw [Option.getD_some, State.netQ_flitsSent, State.netQ_flitsSent, State.rrCh_flitsSent, State.credits_flitsSent, State.netUsed_passed,
      State.dies_flitsSent, State.mds_flitsSent, State.dies_passed, State.mds_passed]
    exact ⟨s.netQ_passed_left q r inputs, s.netQ_passed_next q r, s.rrCh_passed q r, rfl, rfl, rfl⟩
  case full => rw [execPacketHop_eq hn ho, State.packetHop_moves pick head ⟨works, powered, placed, runs⟩ next, if_pos full]
  case idle =>
    rw [execPacketHop_eq hn ho]
    refine congrArg _ (State.packetHop_idle (idle.imp_right fun stands sends => ?_))
    obtain ⟨works, powered, placed, runs⟩ := sends
    rcases stands with out | dark | none | ⟨g, part, stopped⟩
    · exact Bool.false_ne_true (works.symm.trans out)
    · exact Bool.false_ne_true (dark.symm.trans powered)
    · rw [none] at placed
      cases placed
    · exact Bool.false_ne_true ((runs g part).symm.trans stopped)
  case arrives => rw [execPacketHop_eq hn ho, State.packetHop_arrives pick head ⟨works, powered, placed, runs⟩ here]

end Sys2Proof.Machine
end

section
/-! Codewords of HBM in error: write-backs, the patrol, the corrected-word rate; the scrub of a stack (spec/10 R299-R303, R309, R310; O31). -/

namespace Sys2Proof.Machine

-- Fields (spec/00 R11) ----------------------------------------------------------------------------------------------------------------------

theorem testBit_bits (x msb lsb k : Nat) : (bits x msb lsb).testBit k = (decide (k < msb + 1 - lsb) && x.testBit (lsb + k)) := by
  rw [bits, Nat.testBit_mod_two_pow, Nat.testBit_shiftRight]
/-- A field replaced reads as the value, cut to it. -/
theorem bits_setBits (x v : Nat) {msb lsb : Nat} (h : lsb ≤ msb) : bits (setBits x msb lsb v) msb lsb = v % 2 ^ (msb + 1 - lsb) := by
  refine Nat.eq_of_testBit_eq fun k => ?_
  rw [testBit_bits, testBit_setBits _ _ _ h, Nat.testBit_mod_two_pow, Nat.add_sub_cancel_left]
  by_cases inside : k < msb + 1 - lsb
  · rw [if_pos (by omega)]
  · rw [decide_eq_false inside, Bool.false_and, Bool.false_and]
theorem State.rgF_setRgF (s : State) (n o v : Nat) {msb lsb : Nat} (h : lsb ≤ msb) :
    (s.setRgF n o msb lsb v).rgF n o msb lsb = v % 2 ^ (msb + 1 - lsb) := by
  rw [State.rgF, State.setRgF, State.rg_setRg_same, bits_setBits _ _ h]

-- The fault record of a memory die (spec/10 R310) ---------------------------------------------------------------------------------------------

/-- The registers of the record. -/
def mdRecordRegs : List Nat := [MD_FAULT_INFO, MD_FAULT_ADDR, MD_FAULT_PTC]

/-- The first word of a record: kind, cause, pseudo-channel, peer. -/
def mdFaultInfo (kind cause pch peer : Nat) : Nat := 2 ^ 31 + kind * 2 ^ 28 + cause * 2 ^ 25 + pch * 2 ^ 20 + peer * 2 ^ 13

theorem mdFaultInfo_valid {kind cause pch peer : Nat} (hk : kind < 8) (hc : cause < 8) (hp : pch < 32) (hq : peer < 128) :
    (mdFaultInfo kind cause pch peer).testBit 31 = true := by
  rw [Nat.testBit_eq_decide_div_mod_eq, decide_eq_true_eq, mdFaultInfo]
  omega

section
variable {s : State} (m kind cause pch peer addr : Nat)

theorem State.mdRecord_kept (taken : s.rgB (nodeMd m) MD_FAULT_INFO 31 = true) : s.mdRecord m kind cause pch peer addr = s := if_pos taken
/-- An empty record takes the fault. -/
theorem State.mdRecord_first (empty : s.rgB (nodeMd m) MD_FAULT_INFO 31 = false) : s.mdRecord m kind cause pch peer addr =
    ((s.setRg (nodeMd m) MD_FAULT_INFO (mdFaultInfo kind cause pch peer)).setRg (nodeMd m) MD_FAULT_ADDR (addr / 64 * 64 % 2 ^ 35)).setRg
      (nodeMd m) MD_FAULT_PTC s.ptc := if_neg (by rw [empty]; exact Bool.false_ne_true)
theorem State.mdRecord_frame (s : State) : ∃ r, s.mdRecord m kind cause pch peer addr = { s with regs := r } := by
  cases taken : s.rgB (nodeMd m) MD_FAULT_INFO 31
  · exact ⟨_, State.mdRecord_first m kind cause pch peer addr taken⟩
  · exact ⟨_, State.mdRecord_kept m kind cause pch peer addr taken⟩
theorem State.rg_mdRecord_ne (s : State) {n o : Nat} (other : ∀ f ∈ mdRecordRegs, rkey n o ≠ rkey (nodeMd m) f) :
    (s.mdRecord m kind cause pch peer addr).rg n o = s.rg n o := by
  simp only [mdRecordRegs, List.mem_cons, List.not_mem_nil, or_false, forall_eq_or_imp, forall_eq] at other
  obtain ⟨info, addr, ptc⟩ := other
  cases taken : s.rgB (nodeMd m) MD_FAULT_INFO 31
  · rw [State.mdRecord_first _ _ _ _ _ _ taken, State.rg_setRg, if_neg ptc, State.rg_setRg, if_neg addr, State.rg_setRg, if_neg info]
  · rw [State.mdRecord_kept _ _ _ _ _ _ taken]
theorem State.rg_mdRecord_info (empty : s.rgB (nodeMd m) MD_FAULT_INFO 31 = false) :
    (s.mdRecord m kind cause pch peer addr).rg (nodeMd m) MD_FAULT_INFO = mdFaultInfo kind cause pch peer := by
  rw [State.mdRecord_first _ _ _ _ _ _ empty, State.rg_setRg_node, if_neg (by decide), State.rg_setRg_node, if_neg (by decide),
    State.rg_setRg_same]
theorem State.rg_mdRecord_ptc (empty : s.rgB (nodeMd m) MD_FAULT_INFO 31 = false) :
    (s.mdRecord m kind cause pch peer addr).rg (nodeMd m) MD_FAULT_PTC = s.ptc := by
  rw [State.mdRecord_first _ _ _ _ _ _ empty, State.rg_setRg_same]
theorem State.mdRecord_valid (s : State) (hk : kind < 8) (hc : cause < 8) (hp : pch < 32) (hq : peer < 128) :
    (s.mdRecord m kind cause pch peer addr).rgB (nodeMd m) MD_FAULT_INFO 31 = true := by
  cases taken : s.rgB (nodeMd m) MD_FAULT_INFO 31
  · rw [State.rgB, State.rg_mdRecord_info _ _ _ _ _ _ taken, mdFaultInfo_valid hk hc hp hq]
  · rw [State.mdRecord_kept _ _ _ _ _ _ taken, taken]
theorem State.pcd_mdRecord (s : State) : (s.mdRecord m kind cause pch peer addr).pcd = s.pcd := by
  obtain ⟨r, recorded⟩ := s.mdRecord_frame m kind cause pch peer addr
  rw [recorded]
theorem State.md_mdRecord (s : State) (k : Nat) : (s.mdRecord m kind cause pch peer addr).md k = s.md k := by
  obtain ⟨r, recorded⟩ := s.mdRecord_frame m kind cause pch peer addr
  rw [recorded]
  rfl

end

theorem pchOf_lt (loc : Nat) : pchOf loc < 32 := Nat.xor_lt_two_pow (n := 5) (Nat.mod_lt _ (by decide)) (Nat.mod_lt _ (by decide))

theorem State.md_setMd_same (s : State) (m : Nat) (x : Mdie) : (s.setMd m x).md m = x := (State.md_setMd ..).trans (if_pos rfl)
theorem State.md_setMd_ne (s : State) {m k : Nat} (x : Mdie) (other : k ≠ m) : (s.setMd m x).md k = s.md k :=
  (State.md_setMd ..).trans (if_neg other)
theorem State.md_bumpErr (s : State) (node off st b n k : Nat) : (s.bumpErr node off st b n).md k = s.md k := by
  obtain ⟨r, q, bumped⟩ := s.bumpErr_frame node off st b n
  rw [bumped]
  rfl

-- A line of a stack that holds an error (spec/10 R300-R302) -------------------------------------------------------------------------------------

section
variable {s : State} {m : Nat}

/-- R300: a corrected line waits for its write-back. -/
theorem State.lineCheck_corr {l : Nat} (corr : rsJudge (sget 0 (s.md m).errs l) = .corr) (kind : Nat) : s.lineCheck m l kind =
    ((s.bumpErr (nodeMd m) MD_ECC_CORR MD_STATUS 31 1).setMd m { s.md m with wb := insUniq l (s.md m).wb }, false) := by
  unfold State.lineCheck
  dsimp only
  rw [corr]
  dsimp only
  rw [State.md_bumpErr]
/-- R301: an uncorrectable line is counted and recorded. -/
theorem State.lineCheck_bad {l : Nat} (bad : rsJudge (sget 0 (s.md m).errs l) = .bad) (kind : Nat) : ∃ sectors, s.lineCheck m l kind =
    (((s.bumpErr (nodeMd m) MD_ECC_UNCORR MD_STATUS 30 1).mdRecord m kind 0 (pchOf (64 * l)) 0 (64 * l)).setMd m
      { s.md m with badSectors := sectors }, true) := by
  unfold State.lineCheck
  dsimp only
  rw [bad]
  dsimp only
  rw [State.md_mdRecord, State.md_bumpErr]
  exact ⟨_, rfl⟩

variable (hm : m < 128)
include hm

theorem execHbmEccWriteback_eq (line : Nat) : exec (.hbmEccWriteback m line) s = .next (s.eccBack m line) := if_pos (decide_eq_true hm)
theorem execHbmPatrol_eq : exec (.hbmPatrol m) s = .next (s.patrol m) := if_pos (decide_eq_true hm)
theorem execHbmCorrRateCheck_eq : exec (.hbmCorrRateCheck m) s = .next (s.corrRate m) := if_pos (decide_eq_true hm)
theorem execMdScrubStart_eq {src : Source} (hs : src.ok = true) (v : W32) : exec (.mdScrubStart src m v) s = .next (s.mdScrubGo src m v) :=
  if_pos (by simp [Instr.wf, hs, hm])
theorem execMdScrubDone_eq : exec (.mdScrubDone m) s = .next (s.mdScrubEnd m) := if_pos (decide_eq_true hm)

end

section
variable {s : State} {m : Nat} (on : s.mdOn m = true)
include on

theorem State.eccBack_waiting {line : Nat} (waits : (s.md m).wb.contains line = true) : s.eccBack m line =
    (s.setMd m { s.md m with wb := (s.md m).wb.filter (fun l => decide (l ≠ line)), errs := serase (s.md m).errs line }).bumpPerf (nodeMd m)
      MD_WR_BYTES 64 := if_pos (by rw [on, waits]; rfl)
theorem State.patrol_clean (clean : (s.md m).errs = []) : s.patrol m = s.bumpPerf (nodeMd m) MD_RD_BYTES stackBytes := by
  rw [State.patrol, if_pos on, clean]
  rfl
theorem State.patrol_line {l e : Nat} (errs : (s.md m).errs = [(l, e)]) : s.patrol m =
    let r := (s.bumpPerf (nodeMd m) MD_RD_BYTES stackBytes).lineCheck m l 1
    if r.2 then r.1.raise (nodeMd m) 0x2201 (unitStack m) (s.hbmUnmap (s.partOfMd m) m (64 * l)) else r.1 := by
  rw [State.patrol, if_pos on, errs]
  rfl
theorem State.corrRate_on : s.corrRate m =
    let now := s.rg (nodeMd m) MD_ECC_CORR
    let grown := if (s.md m).corrBase ≤ now then now - (s.md m).corrBase else now
    let s1 := s.setMd m { s.md m with corrBase := now, corrAcc := 0 }
    if (s.pcd.conf.map (·.corrRate)).getD 1000 < (s.md m).corrAcc + grown then s1.pcdEvent 0x1200 (s.partOfMd m) (unitStack m) 0 else s1 := by
  rw [State.corrRate, if_pos on]
  cases s.pcd.conf <;> rfl

end

theorem State.pcd_bumpPerf (s : State) (node off n : Nat) : (s.bumpPerf node off n).pcd = s.pcd := by
  obtain ⟨r, counted⟩ := s.bumpPerf_frame node off n
  rw [counted]
/-- What the patrol's count of its reads leaves. -/
theorem State.rg_patrolled (s : State) (m : Nat) {o : Nat} (h : o ≠ MD_RD_BYTES) :
    (s.bumpPerf (nodeMd m) MD_RD_BYTES stackBytes).rg (nodeMd m) o = s.rg (nodeMd m) o :=
  State.rg_bumpPerf_ne _ _ (by rw [ne_eq, rkey_off]; exact h)

section
variable {s : State} {m l e : Nat} (on : s.mdOn m = true) (errs : (s.md m).errs = [(l, e)])
include on errs

/-- R300, R302: a correctable line is counted, and queued to be written back. -/
theorem State.patrol_corr (corr : rsJudge e = .corr) : let t := s.patrol m
    (t.md m).wb.contains l = true ∧ (t.md m).errs = [(l, e)] ∧ (t.md m).mem = (s.md m).mem ∧
      (s.rg (nodeMd m) MD_ECC_CORR < 0xFFFFFFFE →
        t.rg (nodeMd m) MD_ECC_CORR = s.rg (nodeMd m) MD_ECC_CORR + 1 ∧ t.pcd = s.pcd) := by
  intro t
  let read := s.bumpPerf (nodeMd m) MD_RD_BYTES stackBytes
  have found : rsJudge (sget 0 (read.md m).errs l) = .corr := by
    rw [State.md_bumpPerf, errs]
    exact (congrArg rsJudge (if_pos rfl)).trans corr
  have patrolled : t = (read.bumpErr (nodeMd m) MD_ECC_CORR MD_STATUS 31 1).setMd m { s.md m with wb := insUniq l (s.md m).wb } := by
    rw [show t = _ from State.patrol_line on errs, State.lineCheck_corr found, State.md_bumpPerf]
    rfl
  rw [patrolled, State.md_setMd_same]
  refine ⟨List.contains_iff_mem.2 (mem_insUniq.2 (.inl rfl)), errs, rfl, fun room => ?_⟩
  have same : read.rg (nodeMd m) MD_ECC_CORR = s.rg (nodeMd m) MD_ECC_CORR := s.rg_patrolled m (by decide)
  rw [State.bumpErr_of_lt (by rw [same]; omega) (by decide), same]
  exact ⟨State.rg_setRg_same .., s.pcd_bumpPerf ..⟩

/-- R301, R302: an uncorrectable line is counted and recorded, and its address named to the PCD. -/
theorem State.patrol_bad (bad : rsJudge e = .bad) (room : s.rg (nodeMd m) MD_ECC_UNCORR < 0xFFFFFFFE) : let t := s.patrol m
    t.rg (nodeMd m) MD_ECC_UNCORR = s.rg (nodeMd m) MD_ECC_UNCORR + 1 ∧ t.rgB (nodeMd m) MD_FAULT_INFO 31 = true ∧
      (∃ a, t.pcd.alerts = s.pcd.alerts ++ [a] ∧ a.code = 0x2201 ∧ a.node = nodeMd m ∧ a.unit = unitStack m ∧
        a.data = s.hbmUnmap (s.partOfMd m) m (64 * l)) ∧ (t.md m).mem = (s.md m).mem := by
  intro t
  let read := s.bumpPerf (nodeMd m) MD_RD_BYTES stackBytes
  let counted := read.setRg (nodeMd m) MD_ECC_UNCORR (s.rg (nodeMd m) MD_ECC_UNCORR + 1)
  let recorded := counted.mdRecord m 1 0 (pchOf (64 * l)) 0 (64 * l)
  have found : rsJudge (sget 0 (read.md m).errs l) = .bad := by
    rw [State.md_bumpPerf, errs]
    exact (congrArg rsJudge (if_pos rfl)).trans bad
  have same : read.rg (nodeMd m) MD_ECC_UNCORR = s.rg (nodeMd m) MD_ECC_UNCORR := s.rg_patrolled m (by decide)
  obtain ⟨sectors, checked⟩ := State.lineCheck_bad found 1
  rw [State.bumpErr_of_lt (by rw [same]; omega) (by decide), same] at checked
  have patrolled : t = (recorded.setMd m { s.md m with badSectors := sectors }).raise (nodeMd m) 0x2201 (unitStack m)
      (s.hbmUnmap (s.partOfMd m) m (64 * l)) := by
    rw [show t = _ from State.patrol_line on errs, checked, State.md_bumpPerf]
    rfl
  have pcd : recorded.pcd = s.pcd := (counted.pcd_mdRecord ..).trans (s.pcd_bumpPerf ..)
  have count : recorded.rg (nodeMd m) MD_ECC_UNCORR = s.rg (nodeMd m) MD_ECC_UNCORR + 1 :=
    (counted.rg_mdRecord_ne _ _ _ _ _ _ (by simp [mdRecordRegs, rkey_off]; decide)).trans (State.rg_setRg_same ..)
  rw [patrolled]
  refine ⟨count, counted.mdRecord_valid m 1 0 _ 0 _ (by decide) (by decide) (pchOf_lt _) (by decide), ?alert,
    (congrArg Mdie.mem (recorded.md_setMd_same m { s.md m with badSectors := sectors }) :)⟩
  case alert => exact ⟨_, congrArg (fun q : Pcd => q.alerts ++ _) pcd, rfl, rfl, rfl, rfl⟩

end

-- The scrub of a stack (spec/10 R309, R310) -----------------------------------------------------------------------------------------------------

/-- A stack-local byte lies in the range that its memory die scrubs. -/
def State.mdScrubs (s : State) (m loc : Nat) : Bool :=
  decide ((s.mdScrubRange m).1 ≤ s.hbmUnmap (s.partOfMd m) m loc) &&
    decide (s.hbmUnmap (s.partOfMd m) m loc < (s.mdScrubRange m).1 + (s.mdScrubRange m).2)

theorem State.mdScrubs_iff {s : State} {m loc : Nat} : s.mdScrubs m loc = true ↔
    s.rg (nodeMd m) MD_SCRUB_BASE / 4096 * 4096 ≤ s.hbmUnmap (s.partOfMd m) m loc ∧
      s.hbmUnmap (s.partOfMd m) m loc < s.rg (nodeMd m) MD_SCRUB_BASE / 4096 * 4096 + 4096 * s.rg (nodeMd m) MD_SCRUB_LEN := by
  rw [State.mdScrubs, Bool.and_eq_true, decide_eq_true_eq, decide_eq_true_eq, State.mdScrubRange]

/-- A stack without the bytes and the flipped bits that its scrub covers. -/
def Mdie.without (x : Mdie) (covers : Nat → Bool) : Mdie :=
  { x with mem := x.mem.filter (fun e => !covers e.1), errs := x.errs.filter (fun e => !covers (64 * e.1)),
           wb := x.wb.filter (fun l => !covers (64 * l)) }

theorem Mdie.memRead_without (x : Mdie) (covers : Nat → Bool) (a : Nat) :
    memRead (x.without covers).mem a = if covers a then 0#8 else memRead x.mem a := by
  refine (sget_filter (f := fun a => !covers a)).trans ?_
  cases covers a <;> rfl
theorem Mdie.errs_without (x : Mdie) (covers : Nat → Bool) (l : Nat) :
    sget 0 (x.without covers).errs l = if covers (64 * l) then 0 else sget 0 x.errs l := by
  refine (sget_filter (f := fun l => !covers (64 * l))).trans ?_
  cases covers (64 * l) <;> rfl

section
variable {s : State} {m : Nat}

/-- The stack has been zeroed, and MD.SCRUB_CTRL says so. -/
def State.mdScrubbed (s : State) (m : Nat) : State :=
  (s.scrubStack (s.partOfMd m) m (s.mdScrubRange m).1 (s.mdScrubRange m).2).setRgF (nodeMd m) MD_SCRUB_CTRL 2 1 2
/-- The die is no more among those that its partition waits for. -/
def Part.mdDone (x : Part) (m : Nat) : Part := { x with scrubLeft := x.scrubLeft.filter (fun k => decide (k ≠ m)) }

theorem State.mdScrubbed_frame (s : State) (m : Nat) :
    ∃ r, s.mdScrubbed m = { s.setMd m ((s.md m).without (s.mdScrubs m)) with regs := r } := by
  unfold State.mdScrubbed State.scrubStack
  extract_lets mine x l
  obtain ⟨r, counted⟩ := s.bumpPerf_frame (nodeMd m) MD_WR_BYTES (4096 * slotPages l.length (l.idxOf m) (s.mdScrubRange m).1 (s.mdScrubRange m).2)
  rw [counted]
  exact ⟨_, rfl⟩

theorem State.scrubNext_idle {p : Nat} (none : (s.part p).scrubQ = []) : s.scrubNext p = s := by
  unfold State.scrubNext
  dsimp only
  rw [none]

theorem State.mdScrubEnd_off (off : s.rgB (nodeMd m) MD_SCRUB_CTRL 1 = false) : s.mdScrubEnd m = s :=
  if_neg (by rw [off, Bool.and_false]; exact Bool.false_ne_true)
/-- A stack's scrub ends while others go on, or where no range is queued. -/
theorem State.mdScrubEnd_on (on : s.mdOn m = true) (scrubs : s.rgB (nodeMd m) MD_SCRUB_CTRL 1 = true)
    (stays : (∃ k ∈ (s.part (s.partOfMd m)).scrubLeft, k ≠ m) ∨ (s.part (s.partOfMd m)).scrubQ = []) :
    s.mdScrubEnd m = (s.mdScrubbed m).setPart (s.partOfMd m) ((s.part (s.partOfMd m)).mdDone m) := by
  obtain ⟨r, frame⟩ := s.mdScrubbed_frame m
  have part : (s.mdScrubbed m).part (s.partOfMd m) = s.part (s.partOfMd m) := by rw [frame]; rfl
  unfold State.mdScrubEnd
  rw [if_pos (by rw [on, scrubs]; rfl), ← State.mdScrubbed]
  dsimp only
  rw [part]
  split
  next last =>
    rcases stays with ⟨k, mem, other⟩ | none
    · exact absurd (last ▸ List.mem_filter.2 ⟨mem, decide_eq_true other⟩) List.not_mem_nil
    · exact State.scrubNext_idle (by rw [State.part_setPart, if_pos rfl]; exact none)
  next => rfl

theorem State.mdScrubGo_other {src : Source} {v : W32} (on : s.mdOn m = true) (other : src ≠ .pcd ∨ v.getLsbD 0 = false) :
    s.mdScrubGo src m v = s := by
  rw [State.mdScrubGo, if_pos on, if_neg]
  rintro ⟨pcd, start⟩
  rcases other with no | no
  · exact no pcd
  · rw [no] at start
    cases start

/-- The queue and the dies of a partition's scrub once one of its dies has been started. -/
def Part.mdStarted (x : Part) (m base len : Nat) : Part :=
  if x.scrubQ = [] then { x with scrubQ := [{ base := base, len := len, granule := none }], scrubLeft := [m] }
  else { x with scrubLeft := insUniq m x.scrubLeft }

theorem Part.mdStarted_idle {x : Part} (m base len : Nat) (idle : x.scrubQ = []) : x.mdStarted m base len =
    { x with scrubQ := [{ base := base, len := len, granule := none }], scrubLeft := [m] } := if_pos idle
theorem Part.mdStarted_busy {x : Part} (m base len : Nat) (busy : x.scrubQ ≠ []) : x.mdStarted m base len =
    { x with scrubLeft := insUniq m x.scrubLeft } := if_neg busy
theorem Part.scrubLeft_mdStarted (x : Part) (m base len : Nat) : (x.mdStarted m base len).scrubLeft.contains m = true := by
  by_cases idle : x.scrubQ = []
  · rw [Part.mdStarted_idle _ _ _ idle]
    exact List.contains_iff_mem.2 List.mem_cons_self
  · rw [Part.mdStarted_busy _ _ _ idle]
    exact List.contains_iff_mem.2 (mem_insUniq.2 (.inl rfl))

theorem State.mdScrubGo_start {v : W32} (on : s.mdOn m = true) (start : v.getLsbD 0 = true) : s.mdScrubGo .pcd m v =
    (s.setRgF (nodeMd m) MD_SCRUB_CTRL 2 1 1).setPart (s.partOfMd m) ((s.part (s.partOfMd m)).mdStarted m
      (s.rg (nodeMd m) MD_SCRUB_BASE) (4096 * s.rg (nodeMd m) MD_SCRUB_LEN)) := by
  rw [State.mdScrubGo, if_pos on, if_pos ⟨rfl, start⟩]
  rfl

end

/-- Settles O31: each command by its equation; the patrol by what the code reports of the one line in error. -/
theorem hbmErrorsAndScrub : Obligations.HbmErrorsAndScrub := by
  refine ⟨fun s m hm on => ⟨fun line waits => ?writeback, fun line none => ?noWriteback, fun clean => ?clean,
    fun l e errs corr => ⟨_, execHbmPatrol_eq hm, State.patrol_corr on errs corr⟩,
    fun l e errs bad room => ⟨_, execHbmPatrol_eq hm, State.patrol_bad on errs bad room⟩,
    (execHbmCorrRateCheck_eq hm).trans (congrArg _ (State.corrRate_on on))⟩,
    fun s m hm on => ⟨fun src v hs other => ?refused, fun v start => ?starts, fun off => ?off, fun scrubs stays => ?done⟩⟩
  case writeback =>
    refine ⟨_, execHbmEccWriteback_eq hm line, ?_⟩
    dsimp only
    rw [State.eccBack_waiting on waits]
    rw [State.md_bumpPerf, State.md_setMd_same]
    exact ⟨(sget_serase ..).trans (if_pos rfl), by simp, fun l other => (sget_serase ..).trans (if_neg other), rfl,
      fun k other => (State.md_bumpPerf ..).trans (State.md_setMd_ne _ _ other), State.bumpPerf_dies .., State.pcd_bumpPerf ..⟩
  case noWriteback =>
    rw [execHbmEccWriteback_eq hm, State.eccBack, if_neg (by rw [none, Bool.and_false]; exact Bool.false_ne_true)]
  case clean => rw [execHbmPatrol_eq hm, State.patrol_clean on clean]
  case refused => rw [execMdScrubStart_eq hm hs, State.mdScrubGo_other on other]
  case starts =>
    refine ⟨_, execMdScrubStart_eq hm rfl v, ?_⟩
    dsimp only
    rw [State.mdScrubGo_start on start, State.part_setPart, if_pos rfl]
    refine ⟨State.rgF_setRgF s _ _ _ (by decide), rfl, rfl, Part.scrubLeft_mdStarted .., fun idle => ?_, fun busy => ?_⟩
    · rw [Part.mdStarted_idle _ _ _ idle]
      rfl
    · rw [Part.mdStarted_busy _ _ _ busy]
  case off => rw [execMdScrubDone_eq hm, State.mdScrubEnd_off off]
  case done =>
    refine ⟨_, execMdScrubDone_eq hm, ?_⟩
    obtain ⟨r, frame⟩ := s.mdScrubbed_frame m
    have stack : (s.mdScrubbed m).md m = (s.md m).without (s.mdScrubs m) := by rw [frame]; exact s.md_setMd_same ..
    rw [State.mdScrubEnd_on on scrubs stays, State.part_setPart, if_pos rfl, State.md_setPart, stack]
    refine ⟨fun a => ?_, fun l => ?_, State.rgF_setRgF _ _ _ _ (by decide), by simp [Part.mdDone], fun k other => ?_, by rw [frame]; rfl⟩
    · rw [Mdie.memRead_without]
      exact if_congr State.mdScrubs_iff rfl rfl
    · rw [Mdie.errs_without]
      exact if_congr State.mdScrubs_iff rfl rfl
    · rw [State.md_setPart, frame]
      exact s.md_setMd_ne _ other

end Sys2Proof.Machine
end

section
/-! Transactions of a memory die: their ends, the end of their items, and the replies that bring them about (spec/10 R284-R287, R291, R295,
spec/11 R327; O35). -/

namespace Sys2Proof.Machine

-- Items that a memory die holds (spec/10 R291-R295) -----------------------------------------------------------------------------------------------

theorem State.setMd_setMd (s : State) (m : Nat) (x y : Mdie) : (s.setMd m x).setMd m y = s.setMd m y := by
  simp only [State.setMd, sput_sput]

/-- A change of an item that leaves its number and its origin. -/
def Item.Keeps (f : Item → Item) : Prop := ∀ i, (f i).id = i.id ∧ (f i).origin = i.origin

theorem Item.Keeps.comp {f g : Item → Item} (hg : Item.Keeps g) (hf : Item.Keeps f) : Item.Keeps (g ∘ f) :=
  fun i => ⟨(hg (f i)).1.trans (hf i).1, (hg (f i)).2.trans (hf i).2⟩
theorem Item.Keeps.find {f : Item → Item} (keeps : Item.Keeps f) (l : List Item) (id : Nat) :
    (l.map f).find? (fun i => decide (i.id = id)) = (l.find? (fun i => decide (i.id = id))).map f := by
  rw [List.find?_map]
  congr 2
  funext i
  rw [Function.comp_apply, (keeps i).1]

/-- A transaction of an item with a number changed. -/
def Item.withTx (id k : Nat) (f : Tx → Tx) (i : Item) : Item := if i.id = id then { i with txs := i.txs.modify k f } else i

theorem Item.withTx_keeps (id k : Nat) (f : Tx → Tx) : Item.Keeps (Item.withTx id k f) := by
  intro i
  unfold Item.withTx
  split <;> exact ⟨rfl, rfl⟩
theorem Item.withTx_same (k : Nat) (f : Tx → Tx) (i : Item) : Item.withTx i.id k f i = { i with txs := i.txs.modify k f } := if_pos rfl

/-- A transaction that ends, with the status that has been decided for it where one has. -/
def Tx.ends (st : TxSt) (t : Tx) : Tx := { t with st := if t.doom = 0 then st else .failed t.doom }

section
variable {s : State} {m id : Nat} {i : Item}

theorem State.dmaItem_id (held : s.dmaItem m id = some i) : i.id = id := of_decide_eq_true (List.find?_some held :)
theorem State.dmaItem_of_items {t : State} {f : Item → Item} (keeps : Item.Keeps f) (items : (t.md m).items = (s.md m).items.map f) (id : Nat) :
    t.dmaItem m id = (s.dmaItem m id).map f := by
  rw [State.dmaItem, items, keeps.find]
  rfl

theorem State.modTx_eq (s : State) (m id k : Nat) (f : Tx → Tx) :
    s.modTx m id k f = s.setMd m { s.md m with items := (s.md m).items.map (Item.withTx id k f) } := rfl
/-- R285: a transaction that ends frees its entry. -/
theorem State.txEnd_eq (s : State) (m id k txid : Nat) (st : TxSt) : s.txEnd m id k txid st =
    s.setMd m { s.md m with items := (s.md m).items.map (Item.withTx id k (Tx.ends st)), trk := serase (s.md m).trk txid } := by
  show State.freeTrk (s.modTx m id k (Tx.ends st)) m txid = _
  rw [State.freeTrk, State.modTx_eq, State.setMd_setMd, State.md_setMd_same]
theorem State.md_txEnd (s : State) (m id k txid : Nat) (st : TxSt) : (s.txEnd m id k txid st).md m =
    { s.md m with items := (s.md m).items.map (Item.withTx id k (Tx.ends st)), trk := serase (s.md m).trk txid } := by
  rw [State.txEnd_eq, State.md_setMd_same]
theorem State.dmaItem_txEnd (held : s.dmaItem m id = some i) (k txid : Nat) (st : TxSt) :
    (s.txEnd m id k txid st).dmaItem m id = some { i with txs := i.txs.modify k (Tx.ends st) } := by
  rw [State.dmaItem_of_items (Item.withTx_keeps id k (Tx.ends st)) (congrArg Mdie.items (s.md_txEnd ..)), held, ← State.dmaItem_id held]
  exact congrArg some (Item.withTx_same ..)

end

-- The end of an item of a schedule (spec/10 R295, spec/09 R262, R265) -----------------------------------------------------------------------------------

@[simp] theorem State.md_withNet (s : State) (l : SMap (List DynPkt)) (k : Nat) : (s.withNet l).md k = s.md k := rfl
@[simp] theorem State.rg_withNet (s : State) (l : SMap (List DynPkt)) (n o : Nat) : (s.withNet l).rg n o = s.rg n o := rfl
@[simp] theorem State.md_raise (s : State) (n code unit data k : Nat) : (s.raise n code unit data).md k = s.md k := rfl

theorem State.sendLand_frame (s : State) (m tag : Nat) (dir : Bool) (site : Nat) : ∃ l, s.sendLand m tag dir site = s.withNet l := by
  unfold State.sendLand
  split
  · exact ⟨_, rfl⟩
  · exact ⟨s.pcd.net, rfl⟩
theorem State.sendDone_frame (s : State) (m die ticket : Nat) (sched : Bool) (tag done status : Nat) :
    ∃ l, s.sendDone m die ticket sched tag done status = s.withNet l := ⟨_, rfl⟩

section
variable {s : State} {p : Nat} (stays : ∀ e ∈ (s.part p).ctxs, e.2.endAs = none)
include stays

theorem State.settleCtx_stays (cid : Nat) : s.settleCtx p cid = s := by
  unfold State.settleCtx
  split
  next => rfl
  next c found =>
    obtain ⟨e, first, same⟩ := Option.map_eq_some_iff.1 found
    rw [← same, stays e (List.mem_of_find?_eq_some first)]
/-- Where no context of a partition is ending, nothing is settled. -/
theorem State.settle_stays : s.settle p = s := foldl_eq_self fun cid _ => State.settleCtx_stays stays cid

end

/-- An item may have been reported and have left its memory die: of that die its items alone have changed, else what the PCD knows. -/
structure State.ItemChecked (s t : State) (m id : Nat) : Prop where
  state : ∃ l q, t = { s with mds := l, pcd := q }
  die : ∃ items, t.md m = { s.md m with items := items }
  item : ∀ j, t.dmaItem m id = some j → s.dmaItem m id = some j

section
variable {s t : State} {m id : Nat}

theorem State.ItemChecked.refl (s : State) (m id : Nat) : s.ItemChecked s m id := ⟨⟨s.mds, s.pcd, rfl⟩, ⟨(s.md m).items, rfl⟩, fun _ h => h⟩
theorem State.ItemChecked.mem (h : s.ItemChecked t m id) : (t.md m).mem = (s.md m).mem := by
  obtain ⟨items, die⟩ := h.die
  rw [die]
theorem State.ItemChecked.trk (h : s.ItemChecked t m id) : (t.md m).trk = (s.md m).trk := by
  obtain ⟨items, die⟩ := h.die
  rw [die]

/-- The item has left its memory die; its landing tag's packet is on its way where it is complete and its tag is not. -/
def State.itemLeft (s : State) (m : Nat) (i : Item) : State :=
  let t := s.setMd m { s.md m with items := (s.md m).items.filter (fun j => decide (j.id ≠ i.id)) }
  if i.desc.land && decide (i.status = 0) && !i.landed then t.sendLand m i.desc.tag.toNat i.desc.ldir i.desc.lsite.toNat else t

theorem State.itemLeft_frame (s : State) (m : Nat) (i : Item) : ∃ l, s.itemLeft m i =
    (s.setMd m { s.md m with items := (s.md m).items.filter (fun j => decide (j.id ≠ i.id)) }).withNet l := by
  unfold State.itemLeft
  split
  · exact State.sendLand_frame ..
  · exact ⟨_, rfl⟩

variable {i : Item} {d : Nat} (held : s.dmaItem m id = some i) (sched : i.origin = .sched d)
include held sched

theorem State.itemFinish_sched : s.itemFinish m id =
    let t := (s.itemLeft m i).sendDone m d 0 true i.desc.tag.toNat (doneBytes i.txs) (itemStatus i.status)
    if i.status = 0 ∨ i.status = 5 ∨ i.status = 3 ∨ i.status = 7 then t
    else t.raise (nodeMd m) (itemEvent i.status) (unitStack m) (jobMark i.job) := by
  have same := State.dmaItem_id held
  have found : (s.md m).items.find? (fun i => decide (i.id = id)) = some i := held
  unfold State.itemFinish
  rw [found]
  dsimp only
  rw [sched, ← same]
  rfl

theorem State.itemFinish_checked : s.ItemChecked (s.itemFinish m id) m id := by
  obtain ⟨l, left⟩ := s.itemLeft_frame m i
  obtain ⟨l', done⟩ := (s.itemLeft m i).sendDone_frame m d 0 true i.desc.tag.toNat (doneBytes i.txs) (itemStatus i.status)
  obtain ⟨q, frame⟩ : ∃ q, s.itemFinish m id =
      { s.setMd m { s.md m with items := (s.md m).items.filter (fun j => decide (j.id ≠ i.id)) } with pcd := q } := by
    rw [State.itemFinish_sched held sched, done, left]
    dsimp only
    split
    · exact ⟨_, rfl⟩
    · exact ⟨_, rfl⟩
  have die : (s.itemFinish m id).md m = { s.md m with items := (s.md m).items.filter (fun j => decide (j.id ≠ i.id)) } := by
    rw [frame]
    exact s.md_setMd_same ..
  refine ⟨⟨_, q, frame⟩, ⟨_, die⟩, fun j there => ?_⟩
  rw [State.dmaItem, die] at there
  have gone := List.mem_of_find?_eq_some there
  exact absurd ((of_decide_eq_true (List.find?_some there :)).trans (State.dmaItem_id held).symm)
    (of_decide_eq_true (List.mem_filter.1 gone).2)

end

/-- An item of a schedule is checked, in a partition no context of which is ending. -/
theorem State.itemCheck_checked {s : State} {m id : Nat} (sched : ∀ i, s.dmaItem m id = some i → ∃ d, i.origin = .sched d)
    (stays : ∀ e ∈ (s.part (s.partOfMd m)).ctxs, e.2.endAs = none) : s.ItemChecked (s.itemCheck m id) m id := by
  unfold State.itemCheck
  split
  next i held =>
    obtain ⟨d, origin⟩ := sched i held
    have checked := State.itemFinish_checked held origin
    obtain ⟨l, q, frame⟩ := checked.state
    split
    · rw [State.settle_stays (by rw [frame]; exact stays)]
      exact checked
    · exact .refl s m id
  next => exact .refl s m id

/-- A transaction of a schedule's item ends, and the item is checked. -/
theorem State.txEnd_checked {s : State} {m id k : Nat} {i : Item} {x : Tx} (held : s.dmaItem m id = some i) (tx : i.txs[k]? = some x)
    (sched : ∃ d, i.origin = .sched d) (stays : ∀ e ∈ (s.part (s.partOfMd m)).ctxs, e.2.endAs = none) (txid : Nat) (st : TxSt) :
    let t := (s.txEnd m id k txid st).itemCheck m id
    sfind (t.md m).trk txid = none ∧ (t.md m).mem = (s.md m).mem ∧
      ∀ j, t.dmaItem m id = some j → (j.txs[k]?).map (fun y => y.st) = some (if x.doom ≠ 0 then .failed x.doom else st) := by
  intro t
  have item := State.dmaItem_txEnd held k txid st
  have checked : (s.txEnd m id k txid st).ItemChecked t m id := State.itemCheck_checked (fun j there => by
    obtain rfl := Option.some.inj (item.symm.trans there)
    exact sched) (by rw [State.txEnd_eq]; exact stays)
  rw [checked.trk, checked.mem, State.md_txEnd]
  refine ⟨sfind_serase .., rfl, fun j there => ?_⟩
  obtain rfl := Option.some.inj (item.symm.trans (checked.item j there))
  dsimp only
  rw [List.getElem?_modify_eq, tx]
  exact congrArg some (ite_not ..).symm

-- A write to the die's own stack (spec/10 R288, R289) --------------------------------------------------------------------------------------------

/-- The bytes that a write of n bytes reads and writes have been counted (spec/10 R310). -/
def State.stackCounted (s : State) (m loc n : Nat) : State :=
  (s.bumpPerf (nodeMd m) MD_RD_BYTES
    (64 * ((stackLines loc n).filter (fun l => decide (64 * l < loc) || decide (loc + n < 64 * l + 64))).length)).bumpPerf (nodeMd m) MD_WR_BYTES
      (64 * (stackLines loc n).length)
/-- The lines that wait to be written back after a write has replaced those it covers. -/
def Mdie.wbAfter (x : Mdie) (loc n : Nat) : List Nat := x.wb.filter (fun l => !(decide (loc / 64 ≤ l) && decide (64 * l < loc + n)))

theorem State.stackCounted_frame (s : State) (m loc n : Nat) : ∃ r, s.stackCounted m loc n = { s with regs := r } := by
  obtain ⟨r, reads⟩ := s.bumpPerf_frame (nodeMd m) MD_RD_BYTES
    (64 * ((stackLines loc n).filter (fun l => decide (64 * l < loc) || decide (loc + n < 64 * l + 64))).length)
  rw [State.stackCounted, reads]
  exact State.bumpPerf_frame ..

section
variable {s : State} {m : Nat} (clean : (s.md m).errs = []) (loc : Nat) (bs : List Byte)
include clean

theorem State.stackWrite_clean : s.stackWrite m loc bs =
    (((s.stackCounted m loc bs.length).setMd m { s.md m with mem := writeBytes (s.md m).mem loc bs, wb := (s.md m).wbAfter loc bs.length }).bellPass
      (s.bellLines m) m loc bs.length, false) := by
  obtain ⟨r, counted⟩ := s.stackCounted_frame m loc bs.length
  have die : (s.stackCounted m loc bs.length).md m = s.md m := by
    rw [counted]
    rfl
  unfold State.stackWrite
  dsimp only
  rw [if_pos clean]
  dsimp only
  rw [← State.stackCounted, die, clean]
  rfl

/-- A write to a stack without flipped bits: its bytes, the counts of what it moved, and the doorbell lines it touches passed on. -/
theorem State.stackWrite_frame : ∃ r l, s.stackWrite m loc bs =
    ({ (s.setMd m { s.md m with mem := writeBytes (s.md m).mem loc bs, wb := (s.md m).wbAfter loc bs.length }).withNet l with regs := r }, false) ∧
      ((∀ b ∈ s.bellLines m, loc + bs.length ≤ b.2.2 ∨ b.2.2 + 4 ≤ loc) → l = s.pcd.net) := by
  obtain ⟨r, counted⟩ := s.stackCounted_frame m loc bs.length
  rw [State.stackWrite_clean clean, counted]
  generalize stored : State.setMd { s with regs := r } m _ = u
  obtain ⟨l, passed⟩ := u.bellPass_frame (s.bellLines m) m loc bs.length
  refine ⟨r, l, by rw [passed, ← stored]; rfl, fun apart => ?_⟩
  have net : l = u.pcd.net := congrArg (fun t : State => t.pcd.net) (passed.symm.trans (u.bellPass_none (s.bellLines m) m loc bs.length apart))
  rw [net, ← stored]
  rfl

end

-- Data that goes to the die's own stack (spec/10 R284, R291) -----------------------------------------------------------------------------------------

/-- The source of a transaction has been read. -/
def Tx.read (t : Tx) : Tx := { t with rd := true }

/-- Of a memory die its items alone have changed, in what they hold; what is under way on the mesh may have. -/
structure State.ItemsOnly (s t : State) (m : Nat) : Prop where
  state : ∃ ms l, t = { s.withNet l with mds := ms }
  die : ∃ f, Item.Keeps f ∧ t.md m = { s.md m with items := (s.md m).items.map f }

theorem State.ItemsOnly.modTx (s : State) (m id k : Nat) (f : Tx → Tx) : s.ItemsOnly (s.modTx m id k f) m :=
  ⟨⟨_, s.pcd.net, rfl⟩, _, Item.withTx_keeps id k f, by rw [State.modTx_eq, State.md_setMd_same]⟩
theorem State.ItemsOnly.trans {s t u : State} {m : Nat} (st : s.ItemsOnly t m) (tu : t.ItemsOnly u m) : s.ItemsOnly u m := by
  obtain ⟨ms, l, state⟩ := st.state
  obtain ⟨ms', l', state'⟩ := tu.state
  obtain ⟨f, keeps, die⟩ := st.die
  obtain ⟨g, keeps', die'⟩ := tu.die
  refine ⟨⟨ms', l', by rw [state', state]; rfl⟩, g ∘ f, keeps'.comp keeps, ?_⟩
  rw [die', die, List.map_map]

/-- The landing tag of an item with a number has been completed. -/
def Item.land (id : Nat) (i : Item) : Item := if i.id = id then { i with landed := true } else i
theorem Item.land_keeps (id : Nat) : Item.Keeps (Item.land id) := by
  intro i
  unfold Item.land
  split <;> exact ⟨rfl, rfl⟩

/-- R291: the tag of an outbound item may complete. -/
theorem State.ItemsOnly.landRead (s : State) (m id : Nat) : s.ItemsOnly (s.landRead m id) m := by
  have stands : s.ItemsOnly s m := ⟨⟨s.mds, s.pcd.net, rfl⟩, fun i => i, fun _ => ⟨rfl, rfl⟩, by rw [List.map_id']⟩
  unfold State.landRead
  split
  next i held =>
    split
    next =>
      show s.ItemsOnly ((s.setMd m { s.md m with items := (s.md m).items.map (Item.land id) }).sendLand m _ _ _) m
      obtain ⟨l, sent⟩ := (s.setMd m { s.md m with items := (s.md m).items.map (Item.land id) }).sendLand_frame m i.desc.tag.toNat true
        i.desc.lsite.toNat
      rw [sent]
      exact ⟨⟨_, l, rfl⟩, _, Item.land_keeps id, s.md_setMd_same ..⟩
    next => exact stands
  next => exact stands
theorem State.landRead_unlanded {s : State} {m id : Nat} (tagless : ∀ i, s.dmaItem m id = some i → i.desc.land = false) : s.landRead m id = s := by
  unfold State.landRead
  split
  next i held => rw [tagless i held]; rfl
  next => rfl

section
variable {s : State} {m loc : Nat} {t : Tx} {bs : List Byte} (on : s.mdOn m = true) (clean : (s.md m).errs = [])
  (hbm : isHbm t.dst = true) (own : s.hbmMap (s.partOfMd m) t.dst = some (m, loc)) (unheld : s.keptRange (s.partOfMd m) t.dst bs.length = false)
include on clean hbm own unheld

theorem State.txWrite_own (id k txid : Nat) : s.txWrite m id k txid t bs =
    ((((s.modTx m id k Tx.read).landRead m id).stackWrite m loc bs).1).txEnd m id k txid .ok := by
  have only := (State.ItemsOnly.modTx s m id k Tx.read).trans (.landRead _ m id)
  unfold State.txWrite
  extract_lets s1
  replace only : s.ItemsOnly s1 m := only
  obtain ⟨ms, l, state⟩ := only.state
  obtain ⟨f, -, die⟩ := only.die
  have live : s1.txDead m t.dst = false := by
    have map : s1.hbmMap (s1.partOfMd m) t.dst = some (m, loc) := by rw [state]; exact own
    have rail : s1.mdOn m = true := by rw [state]; exact on
    rw [State.txDead, map]
    simp [rail]
  have access : s1.keptRange (s.partOfMd m) t.dst bs.length = false := by rw [state]; exact unheld
  have map : s1.hbmMap (s.partOfMd m) t.dst = some (m, loc) := by rw [state]; exact own
  rw [live, access, hbm, map]
  have sound : (s1.stackWrite m loc bs).2 = false := by rw [State.stackWrite_clean (by rw [die]; exact clean)]
  simp only [Bool.false_eq_true, if_false, Bool.and_false, if_true]
  rw [sound]
  rfl

/-- The bytes are in the stack, and the transaction's entry is free. -/
theorem State.txWrite_stored (id k txid : Nat) : let u := s.txWrite m id k txid t bs
    (∃ ms r l, u = { s.withNet l with mds := ms, regs := r }) ∧ sfind (u.md m).trk txid = none ∧
      (∀ a, memRead (u.md m).mem a = if loc ≤ a ∧ a < loc + bs.length then bs.getD (a - loc) 0#8 else memRead (s.md m).mem a) ∧
      ∃ f, Item.Keeps f ∧ (u.md m).items = (s.md m).items.map f := by
  intro u
  have only := (State.ItemsOnly.modTx s m id k Tx.read).trans (.landRead _ m id)
  have stored : u = _ := State.txWrite_own on clean hbm own unheld id k txid
  generalize (s.modTx m id k Tx.read).landRead m id = s1 at only stored
  obtain ⟨ms, l, state⟩ := only.state
  obtain ⟨f, keeps, die⟩ := only.die
  obtain ⟨r, l', written, -⟩ := State.stackWrite_frame (s := s1) (m := m) (by rw [die]; exact clean) loc bs
  rw [written] at stored
  have last : u.md m = _ := (congrArg (fun t : State => t.md m) stored).trans (State.md_txEnd ..)
  rw [show ∀ v : State, State.md { v with regs := r } m = v.md m from fun _ => rfl, State.withNet, State.md_setPcd, State.md_setMd_same, die] at last
  rw [last]
  refine ⟨⟨_, r, l', by rw [stored, State.txEnd_eq, state]; rfl⟩, sfind_serase .., fun a => memRead_writeBytes .., _,
    (Item.withTx_keeps id k (Tx.ends .ok)).comp keeps, ?_⟩
  exact List.map_map ..

/-- A transaction of a schedule's item that goes to the stack, and the check of its item. -/
theorem State.txWrite_checked {id : Nat} (sched : ∀ i, s.dmaItem m id = some i → ∃ d, i.origin = .sched d)
    (stays : ∀ e ∈ (s.part (s.partOfMd m)).ctxs, e.2.endAs = none) (k txid : Nat) : let u := (s.txWrite m id k txid t bs).itemCheck m id
    sfind (u.md m).trk txid = none ∧
      ∀ a, memRead (u.md m).mem a = if loc ≤ a ∧ a < loc + bs.length then bs.getD (a - loc) 0#8 else memRead (s.md m).mem a := by
  intro u
  obtain ⟨⟨ms, r, l, state⟩, freed, stored, f, keeps, items⟩ := State.txWrite_stored on clean hbm own unheld id k txid
  have checked : (s.txWrite m id k txid t bs).ItemChecked u m id := State.itemCheck_checked (fun j there => by
    rw [State.dmaItem_of_items keeps items] at there
    obtain ⟨i, held, rfl⟩ := Option.map_eq_some_iff.1 there
    rw [(keeps i).2]
    exact sched i held) (by rw [state]; exact stays)
  rw [checked.trk, checked.mem]
  exact ⟨freed, stored⟩

end

-- Replies (spec/10 R285-R287, spec/11 R327) --------------------------------------------------------------------------------------------------------

section
variable {s : State} {p : DynPkt}

theorem execReadData_eq : exec (.readData p) s = .next (s.readDataIn p) := rfl
theorem execWriteAck_eq : exec (.writeAck p) s = .next (s.writeAckIn p) := rfl

/-- What a WRITE_ACK reports of its transaction. -/
def writeAckSt (p : DynPkt) : TxSt := if p.status = 0#3 then .ok else .failed (replyFail p)

/-- A transaction goes on by its READ_DATA: with the data to its destination, or to its end. -/
def State.dataTaken (s : State) (p : DynPkt) (m : Nat) (k : Trk) (x : Tx) : State :=
  if p.status = 0#3 then
    (if x.doom = 0 then s.txWrite m k.item k.tx p.txid.toNat x p.payload else s.txEnd m k.item k.tx p.txid.toNat .ok)
  else s.txEnd m k.item k.tx p.txid.toNat (.failed (replyFail p))

theorem State.dataTaken_good (fine : p.status = 0#3) {x : Tx} (undoomed : x.doom = 0) (m : Nat) (k : Trk) :
    s.dataTaken p m k x = s.txWrite m k.item k.tx p.txid.toNat x p.payload := (if_pos fine).trans (if_pos undoomed)
theorem State.dataTaken_fails {x : Tx} (fails : p.status ≠ 0#3 ∨ x.doom ≠ 0) (m : Nat) (k : Trk) : ∃ st,
    s.dataTaken p m k x = s.txEnd m k.item k.tx p.txid.toNat st ∧
      (if x.doom ≠ 0 then .failed x.doom else st) = TxSt.failed (if x.doom ≠ 0 then x.doom else replyFail p) := by
  by_cases fine : p.status = 0#3
  · have doomed := fails.resolve_left (not_not_intro fine)
    exact ⟨.ok, (if_pos fine).trans (if_neg doomed), by rw [if_pos doomed, if_pos doomed]⟩
  · exact ⟨.failed (replyFail p), if_neg fine, (apply_ite TxSt.failed ..).symm⟩

theorem State.trkOf_netDrop (s : State) (p : DynPkt) : (s.netDrop p).trkOf p = s.trkOf p := by
  obtain ⟨l, dropped⟩ := s.netDrop_frame p
  rw [dropped]
  rfl

/-- R287: no transaction is found for a reply that comes too late, nor for one to no entry. -/
theorem State.trkOf_none (without : (s.md (epId p.dst.toNat)).lostTx.contains p.txid.toNat = true ∨
    sfind (s.md (epId p.dst.toNat)).trk p.txid.toNat = none) : s.trkOf p = none := by
  unfold State.trkOf
  dsimp only
  rcases without with late | free
  · rw [if_neg (fun h => Bool.false_ne_true (h.2.symm.trans late))]
  · rw [free]
    exact ite_self _

section
variable (die : epKind p.dst.toNat = 1)
include die

theorem State.trkOf_held {k : Trk} {i : Item} {x : Tx} (intime : (s.md (epId p.dst.toNat)).lostTx.contains p.txid.toNat = false)
    (entry : sfind (s.md (epId p.dst.toNat)).trk p.txid.toNat = some k) (held : s.dmaItem (epId p.dst.toNat) k.item = some i)
    (tx : i.txs[k.tx]? = some x) : s.trkOf p = some (epId p.dst.toNat, k, i, x) := by
  unfold State.trkOf
  dsimp only
  rw [if_pos ⟨die, intime⟩, entry]
  dsimp only
  rw [held]
  dsimp only
  rw [tx]
  rfl
theorem State.lateReply_late (late : (s.md (epId p.dst.toNat)).lostTx.contains p.txid.toNat = true) : s.lateReply p =
    s.setMd (epId p.dst.toNat) { s.md (epId p.dst.toNat) with
      lostTx := (s.md (epId p.dst.toNat)).lostTx.filter (fun t => decide (t ≠ p.txid.toNat)) } := (if_pos die).trans (if_pos late)
theorem State.lateReply_intime (intime : (s.md (epId p.dst.toNat)).lostTx.contains p.txid.toNat = false) : s.lateReply p = s :=
  (if_pos die).trans (if_neg (by rw [intime]; exact Bool.false_ne_true))

end

variable (on : s.epOn p.dst.toNat = true) (intact : p.ecrcOk = true) (own : s.partOfEp p.dst.toNat = some p.part.toNat)
include on intact own

section
variable (without : s.trkOf p = none)
include without

theorem State.readDataIn_none (type : p.ptype = 2#4) : s.readDataIn p = (s.netDrop p).lateReply p := by
  refine (State.pktIn_accepted on intact own (by rw [type]; rfl)).trans ?_
  rw [State.trkOf_netDrop, without]
theorem State.writeAckIn_none (type : p.ptype = 3#4) : s.writeAckIn p = (s.netDrop p).lateReply p := by
  refine (State.pktIn_accepted on intact own (by rw [type]; rfl)).trans ?_
  rw [State.trkOf_netDrop, without]

end

variable {m : Nat} {k : Trk} {i : Item} {x : Tx} (found : s.trkOf p = some (m, k, i, x)) (item : i.id = k.item)
include found item

theorem State.readDataIn_some (type : p.ptype = 2#4) : s.readDataIn p = ((s.netDrop p).dataTaken p m k x).itemCheck m k.item := by
  refine (State.pktIn_accepted on intact own (by rw [type]; rfl)).trans ?_
  rw [State.trkOf_netDrop, found, State.dataTaken, ← item]
theorem State.writeAckIn_some (type : p.ptype = 3#4) :
    s.writeAckIn p = ((s.netDrop p).txEnd m k.item k.tx p.txid.toNat (writeAckSt p)).itemCheck m k.item := by
  refine (State.pktIn_accepted on intact own (by rw [type]; rfl)).trans ?_
  rw [State.trkOf_netDrop, found, ← item]
  rfl

end

/-- Settles O35: a reply by the transaction that it finds. -/
theorem repliesEndTransactions : Obligations.RepliesEndTransactions := by
  intro s p intact die on own m stays
  obtain ⟨l, dropped⟩ := s.netDrop_frame p
  refine ⟨fun late => ?late, fun intime free => ?free, fun k i x intime entry held tx sched => ?held⟩
  case late =>
    have without := State.trkOf_none (.inl late)
    have gone : (s.withNet l).lateReply p = _ := State.lateReply_late die late
    have discarded : ∀ t : State, t = (s.withNet l).lateReply p → (t.md m).lostTx.contains p.txid.toNat = false ∧
        (t.md m).trk = (s.md m).trk ∧ (t.md m).items = (s.md m).items ∧ (t.md m).mem = (s.md m).mem ∧
        (∀ k, k ≠ m → t.md k = s.md k) ∧ t.dies = s.dies ∧ t.regs = s.regs := by
      rintro t rfl
      rw [gone, State.md_setMd_same]
      exact ⟨by simp, rfl, rfl, rfl, fun k other => State.md_setMd_ne _ _ other, rfl, rfl⟩
    exact ⟨fun type => ⟨_, execReadData_eq, discarded _ (by rw [State.readDataIn_none on intact own without type, dropped])⟩,
      fun type => ⟨_, execWriteAck_eq, discarded _ (by rw [State.writeAckIn_none on intact own without type, dropped])⟩⟩
  case free =>
    have without := State.trkOf_none (.inr free)
    have stands : (s.withNet l).lateReply p = s.withNet l := State.lateReply_intime die intime
    exact ⟨fun type => by rw [execReadData_eq, State.readDataIn_none on intact own without type, dropped, stands],
      fun type => by rw [execWriteAck_eq, State.writeAckIn_none on intact own without type, dropped, stands]⟩
  case held =>
    have found := State.trkOf_held die intime entry held tx
    have item := State.dmaItem_id held
    have ended := State.txEnd_checked (s := s.withNet l) held tx sched stays p.txid.toNat
    refine ⟨fun type => ⟨_, execWriteAck_eq, ?_⟩, fun type fails => ⟨_, execReadData_eq, ?_⟩,
      fun loc type fine undoomed clean hbm map unheld => ⟨_, execReadData_eq, ?_⟩⟩
    · rw [State.writeAckIn_some on intact own found item type, dropped]
      exact ended (writeAckSt p)
    · obtain ⟨st, taken, status⟩ := State.dataTaken_fails (s := s.withNet l) fails m k
      rw [State.readDataIn_some on intact own found item type, dropped, taken, ← status]
      exact ended st
    · rw [State.readDataIn_some on intact own found item type, dropped, State.dataTaken_good fine undoomed]
      have rail : s.mdOn m = true := by
        rw [← on, State.epOn, die]
        rfl
      exact State.txWrite_checked (s := s.withNet l) rail clean hbm map unheld
        (fun j there => Option.some.inj (held.symm.trans there) ▸ sched) stays k.tx p.txid.toNat

end Sys2Proof.Machine
end

section
/-! DMA items of schedules on the stack of their own memory die: their descriptors, the entries they obtain, timeouts and ends (spec/10 R284-R287,
R291-R298, spec/11 R328; O33). -/

namespace Sys2Proof.Machine

section
variable {s : State} {m d : Nat} (hm : m < 128)
include hm

theorem execDesc_eq (hd : d < 576) (dd : DmaDesc) : exec (.desc m (.sched d) dd) s = .next (s.descIn m (.sched d) dd) :=
  if_pos (by simp [Instr.wf, Origin.ok, hm, hd])
theorem execTrackerEntryGrant_eq {cls : Nat} (hc : cls < 3) (item : cls ≠ 1) :
    exec (.trackerEntryGrant m cls) s = .next (s.trkGrant m cls) :=
  (if_pos (by simp [Instr.wf, hm, hc])).trans (congrArg _ (if_neg item))
theorem execTransactionTimeout_eq {txid : Nat} (ht : txid < 2048) (item : txid < 1024 ∨ 1536 ≤ txid) :
    exec (.transactionTimeout m txid) s = .next (s.txTimeout m txid) :=
  (if_pos (by simp [Instr.wf, hm, ht])).trans (congrArg _ (if_neg (by omega)))
theorem execDmaItemComplete_eq (id : Nat) : exec (.dmaItemComplete m id) s = .next (s.itemDone m id) := if_pos (decide_eq_true hm)

end

-- Descriptors (spec/10 R291, R292, R294) ------------------------------------------------------------------------------------------------------------

/-- The descriptor has left those that are under way. -/
def State.descTaken (s : State) (m : Nat) (o : Origin) : State := s.setPcd (fun p => { p with descs := dropDesc m o p.descs })

/-- The item of a descriptor: its transactions, or the one failure of a rejected one. -/
def State.itemOf (s : State) (m : Nat) (o : Origin) (dd : DmaDesc) : Item :=
  { id := (s.md m).nextItem, origin := o, desc := dd, cls := originCls o, job := s.itemJob (s.partOfMd m) o,
    txs := if s.descOk (s.partOfMd m) o dd then dmaTxs dd
      else [{ off := 0, len := 0, src := none, dst := 0, st := .failed 1, rd := false, doom := 0 }],
    ended := false, landed := false }
/-- It is on its memory die. -/
def State.itemHeld (s : State) (m : Nat) (o : Origin) (dd : DmaDesc) : State :=
  s.setMd m { s.md m with items := (s.md m).items ++ [s.itemOf m o dd], nextItem := (s.md m).nextItem + 1 }

section
variable {s : State} {m d : Nat} {dd : DmaDesc} (on : s.mdOn m = true)
include on

theorem State.descIn_foreign (foreign : ¬ s.partOfOrigin (.sched d) = s.partOfRegion (m / 8)) :
    s.descIn m (.sched d) dd = (s.descTaken m (.sched d)).e2eDrop (s.mdAttach m) := if_pos (by rw [on, decide_eq_true foreign]; rfl)
theorem State.descIn_own (own : s.partOfOrigin (.sched d) = s.partOfRegion (m / 8)) (live : s.pcd.descsOff = []) :
    s.descIn m (.sched d) dd = (s.descTaken m (.sched d)).descTake m (.sched d) dd := by
  unfold State.descIn
  rw [if_neg (by simp [own]), live, if_neg (by exact Bool.false_ne_true), if_pos on]
  rfl

end

section
variable {s : State} {m d : Nat} {dd : DmaDesc}

theorem State.descTake_rejected (bad : s.descOk (s.partOfMd m) (.sched d) dd = false) : s.descTake m (.sched d) dd =
    ((s.itemHeld m (.sched d) dd).bumpErr (nodeMd m) MD_DESC_REJECT MD_STATUS 28 1).itemFinish m (s.md m).nextItem :=
  if_neg (by rw [bad]; exact Bool.false_ne_true)
theorem State.descTake_accepted (ok : s.descOk (s.partOfMd m) (.sched d) dd = true) : s.descTake m (.sched d) dd =
    ((s.itemHeld m (.sched d) dd).txGrants m 0 (s.itemOf m (.sched d) dd).txs.length).itemCheck m (s.md m).nextItem := if_pos ok

/-- On an idle memory die the new item is the only one. -/
theorem State.items_itemHeld (idle : (s.md m).items = []) (o : Origin) :
    ((s.itemHeld m o dd).md m).items = [s.itemOf m o dd] := by
  rw [State.itemHeld, State.md_setMd_same, idle]
  rfl
theorem State.mem_itemHeld (s : State) (m : Nat) (o : Origin) (dd : DmaDesc) : ((s.itemHeld m o dd).md m).mem = (s.md m).mem := by
  rw [State.itemHeld, State.md_setMd_same]

end

theorem State.dmaItem_of_single {s : State} {m : Nat} {i : Item} (single : (s.md m).items = [i]) : s.dmaItem m i.id = some i := by
  rw [State.dmaItem, single]
  exact List.find?_cons_of_pos (decide_eq_true rfl)
theorem items_filter_single (i : Item) : [i].filter (fun j => decide (j.id ≠ i.id)) = [] := by simp

/-- What an ALERT says. -/
theorem State.raise_alert (s : State) (n code unit data : Nat) : ∃ a : Alert, (s.raise n code unit data).pcd.alerts = s.pcd.alerts ++ [a] ∧
    a.code = code ∧ a.node = n ∧ a.unit = unit ∧ a.data = data := ⟨_, rfl, rfl, rfl, rfl, rfl⟩

/-- R292, R298: a rejected descriptor is counted and reported, and its item does not stay. -/
theorem State.descTake_rejected_spec {s : State} {m d : Nat} {dd : DmaDesc} (idle : (s.md m).items = [])
    (bad : s.descOk (s.partOfMd m) (.sched d) dd = false) (room : s.rg (nodeMd m) MD_DESC_REJECT < 0xFFFFFFFE) :
    let t := s.descTake m (.sched d) dd
    t.rg (nodeMd m) MD_DESC_REJECT = s.rg (nodeMd m) MD_DESC_REJECT + 1 ∧ (t.md m).items = [] ∧ (t.md m).mem = (s.md m).mem ∧
      ∃ a, t.pcd.alerts = s.pcd.alerts ++ [a] ∧ a.code = 0x2202 ∧ a.unit = unitStack m := by
  intro t
  let i := s.itemOf m (.sched d) dd
  let u := (s.itemHeld m (.sched d) dd).setRg (nodeMd m) MD_DESC_REJECT (s.rg (nodeMd m) MD_DESC_REJECT + 1)
  have status : i.status = 1 := by
    unfold i Item.status State.itemOf
    rw [bad]
    rfl
  have single : (u.md m).items = [i] := State.items_itemHeld idle _
  have rejected : t = u.itemFinish m i.id := by
    have below : (s.itemHeld m (.sched d) dd).rg (nodeMd m) MD_DESC_REJECT + 1 < 0xFFFFFFFF := Nat.add_lt_of_lt_sub room
    rw [show t = _ from State.descTake_rejected bad, State.bumpErr_of_lt below (by decide)]
    rfl
  obtain ⟨l, left⟩ := u.itemLeft_frame m i
  obtain ⟨l', done⟩ := (u.itemLeft m i).sendDone_frame m d 0 true i.desc.tag.toNat (doneBytes i.txs) (itemStatus 1)
  rw [State.itemFinish_sched (State.dmaItem_of_single single) rfl, status, if_neg (by decide), done, left] at rejected
  generalize left' : State.setMd u m _ = v at rejected
  have die : v.md m = { u.md m with items := (u.md m).items.filter (fun j => decide (j.id ≠ i.id)) } := by
    rw [← left']
    exact u.md_setMd_same ..
  obtain ⟨a, raised, code, -, unit, -⟩ := ((v.withNet l).withNet l').raise_alert (nodeMd m) (itemEvent 1) (unitStack m) (jobMark i.job)
  rw [rejected]
  refine ⟨?count, ?items, ?mem, a, ?alert, code, unit⟩
  case count =>
    rw [State.rg_raise, State.rg_withNet, State.rg_withNet, ← left']
    exact (s.itemHeld m (.sched d) dd).rg_setRg_same _ _ _
  case items =>
    rw [State.md_raise, State.md_withNet, State.md_withNet, die, single, items_filter_single]
  case mem =>
    rw [State.md_raise, State.md_withNet, State.md_withNet, die]
    exact State.mem_itemHeld ..
  case alert =>
    rw [raised, ← left']
    rfl

-- A FILL within a page of HBM (spec/10 R284, R291) --------------------------------------------------------------------------------------------------

theorem length_fillBytes (pattern : BitVec 32) (a n : Nat) : (fillBytes pattern a n).length = n := by simp [fillBytes]
theorem getD_fillBytes (pattern : BitVec 32) (a : Nat) {n k : Nat} (h : k < n) :
    (fillBytes pattern a n).getD k 0#8 = BitVec.ofNat 8 (pattern.toNat >>> (8 * ((a + k) % 4))) := by
  rw [fillBytes, List.getD_eq_getElem _ _ (by simpa using h)]
  simp

/-- Memory with a FILL of n bytes at a stack-local address, for a destination. -/
theorem memRead_filled {old new : Nat → Byte} {loc n : Nat} {pattern : BitVec 32} {dst : Nat}
    (stored : ∀ a, new a = if loc ≤ a ∧ a < loc + (fillBytes pattern dst n).length then (fillBytes pattern dst n).getD (a - loc) 0#8 else old a)
    (a : Nat) : new a = if loc ≤ a ∧ a < loc + n then BitVec.ofNat 8 (pattern.toNat >>> (8 * ((dst + (a - loc)) % 4))) else old a := by
  rw [stored, length_fillBytes]
  split
  next inside => exact getD_fillBytes pattern dst (by omega)
  next => rfl

/-- Transaction k of an item has an entry. -/
def State.txEntered (s : State) (m : Nat) (i : Item) (k txid : Nat) : State :=
  s.setMd m { s.md m with items := (s.md m).items.map (Item.withTx i.id k (fun t => { t with st := .issued })),
                          trk := sput (s.md m).trk txid { item := i.id, tx := k, cls := i.cls },
                          lostTx := (s.md m).lostTx.filter (fun t => decide (t ≠ txid)) }

theorem State.txIssue_fill {s : State} {m : Nat} {t : Tx} (fill : t.src = none) (free : s.scrubHits (s.partOfMd m) t.dst t.len = false)
    (i : Item) (k txid : Nat) :
    s.txIssue m i k t txid = (s.txEntered m i k txid).txWrite m i.id k txid t (fillBytes i.desc.pattern t.dst t.len) := by
  have unscrubbed : s.txScrubbed m t = false := by
    unfold State.txScrubbed
    dsimp only
    rw [fill, free]
    exact Bool.and_false _
  unfold State.txIssue
  rw [if_neg (by rw [unscrubbed]; exact Bool.false_ne_true), fill]
  dsimp only
  rw [State.modTx_eq, State.md_setMd_same, State.setMd_setMd]
  rfl

theorem State.txGrant_next {s : State} {m cls k txid : Nat} {i : Item} {t : Tx} (runs : (s.md m).holdAt = none)
    (next : (s.md m).nextTx cls = some (i, k, t)) (entry : (s.md m).freeTx cls = some txid) : s.txGrant m cls = s.txIssue m i k t txid := by
  unfold State.txGrant
  rw [runs, if_neg (by exact Bool.false_ne_true), next, entry]

section
variable {s : State} {m cls : Nat}

theorem State.trkGrant_none (none : (s.md m).nextTx cls = none) : s.trkGrant m cls = s := by
  unfold State.trkGrant
  rw [none]
  exact ite_self _

/-- R286: a waiting FILL of a schedule, to the die's own stack, obtains an entry and is stored. -/
theorem State.trkGrant_fill {k txid loc d : Nat} {i : Item} {t : Tx} (on : s.mdOn m = true) (clean : (s.md m).errs = [])
    (stays : ∀ e ∈ (s.part (s.partOfMd m)).ctxs, e.2.endAs = none) (runs : (s.md m).holdAt = none)
    (next : (s.md m).nextTx cls = some (i, k, t)) (entry : (s.md m).freeTx cls = some txid) (sched : i.origin = .sched d)
    (single : ∀ j ∈ (s.md m).items, j.id = i.id → j = i) (fill : t.src = none) (hbm : isHbm t.dst = true)
    (own : s.hbmMap (s.partOfMd m) t.dst = some (m, loc)) (unheld : s.keptRange (s.partOfMd m) t.dst t.len = false)
    (free : s.scrubHits (s.partOfMd m) t.dst t.len = false) : let u := s.trkGrant m cls
    sfind (u.md m).trk txid = none ∧ ∀ a, memRead (u.md m).mem a = if loc ≤ a ∧ a < loc + t.len then
      BitVec.ofNat 8 (i.desc.pattern.toNat >>> (8 * ((t.dst + (a - loc)) % 4))) else memRead (s.md m).mem a := by
  intro u
  have granted : u = ((s.txEntered m i k txid).txWrite m i.id k txid t (fillBytes i.desc.pattern t.dst t.len)).itemCheck m i.id := by
    unfold u State.trkGrant
    rw [if_pos on, next, ← State.txIssue_fill fill free, ← State.txGrant_next runs next entry]
  have die : (s.txEntered m i k txid).md m = _ := s.md_setMd_same ..
  obtain ⟨freed, stored⟩ := State.txWrite_checked (s := s.txEntered m i k txid) (bs := fillBytes i.desc.pattern t.dst t.len) on
    (by rw [die]; exact clean) hbm own (by rw [length_fillBytes]; exact unheld) (id := i.id) (fun j there => by
      rw [State.dmaItem_of_items (s := s) (Item.withTx_keeps i.id k _) (congrArg Mdie.items die)] at there
      obtain ⟨j', held, rfl⟩ := Option.map_eq_some_iff.1 there
      rw [(Item.withTx_keeps ..).2, single j' (List.mem_of_find?_eq_some held) (State.dmaItem_id held)]
      exact ⟨d, sched⟩) stays k txid
  rw [← granted] at freed stored
  refine ⟨freed, memRead_filled (fun a => ?_)⟩
  rw [stored, die]

end

-- A FILL descriptor within a page of the die's own stack (spec/10 R284, R291, R295) -----------------------------------------------------------------

/-- Its one transaction. -/
def fillTxOf (dd : DmaDesc) (st : TxSt) (rd : Bool) : Tx :=
  { off := 0, len := dd.length.toNat, src := none, dst := dd.dst.toNat, st := st, rd := rd, doom := 0 }

theorem dmaRows_flat {dd : DmaDesc} (flat : dd.rowsM1 = 0#32) : dmaRows dd = [(dd.src.toNat, dd.dst.toNat)] := by
  have word : ∀ (a : BitVec 64) (w : Int), toTwos 64 ((a.toNat : Int) + (0 : Nat) * w) = a.toNat := fun a w => by
    have := a.isLt
    unfold toTwos
    omega
  unfold dmaRows
  rw [flat]
  exact congrArg (fun r => [r]) (Prod.ext (word ..) (word ..))

/-- R284: a FILL of one row that crosses no page boundary is one transaction. -/
theorem dmaTxs_fill {dd : DmaDesc} (fill : dd.op = 1#2) (flat : dd.rowsM1 = 0#32) (pos : 0 < dd.length.toNat) (hbm : isHbm dd.dst.toNat = true)
    (page : dd.dst.toNat % 4096 + dd.length.toNat ≤ 4096) : dmaTxs dd = [fillTxOf dd .waiting false] := by
  have touches : dmaTouches dd = true := by
    rw [dmaTouches, dmaRows_flat flat]
    simp [hbm]
  have whole : splitAt true dd.dst.toNat dd.length.toNat = dd.length.toNat := by
    rw [splitAt, hbm]
    exact (if_pos rfl).trans (by omega)
  unfold dmaTxs
  dsimp only
  rw [dmaRows_flat flat, touches, fill]
  simp [splitRow, whole, show dd.length.toNat ≠ 0 by omega, fillTxOf]

theorem descOk_flat {s : State} {p : Nat} {o : Origin} {dd : DmaDesc} (ok : s.descOk p o dd = true) (flat : dd.twoD = false) :
    0 < dd.length.toNat ∧ dd.rowsM1 = 0#32 := by
  simp only [State.descOk, flat, Bool.and_eq_true, Bool.false_or, decide_eq_true_eq] at ok
  obtain ⟨⟨⟨⟨-, pos⟩, flat⟩, -⟩, -⟩ := ok
  exact ⟨pos, flat⟩

/-- With every entry of a class free, one is given out. -/
theorem Mdie.freeTx_idle {x : Mdie} (idle : x.trk = []) (cls : Nat) (pos : 0 < trkCount cls) : ∃ t, x.freeTx cls = some t := by
  unfold Mdie.freeTx
  extract_lets free
  have first : free = (List.range' 0 (trkCount cls)).map (fun k => trkBase cls + k) := by
    refine List.filter_eq_self.2 fun t _ => ?_
    rw [idle]
    rfl
  obtain ⟨t, rest, cons⟩ : ∃ t rest, free = t :: rest := List.exists_cons_of_ne_nil (by
    rw [first]
    simp [List.range'_eq_nil_iff]
    omega)
  cases found : free.find? (fun t => !x.lostTx.contains t) with
  | some t => exact ⟨t, rfl⟩
  | none => exact ⟨t, by rw [cons]; rfl⟩

section
variable {s : State} {m loc : Nat} {i : Item} (on : s.mdOn m = true) (clean : (s.md m).errs = []) (single : (s.md m).items = [i])
  (tagless : i.desc.land = false)
include on clean single tagless

/-- The only item of a memory die, whose one transaction is a FILL of its own stack, has its bytes stored at once; its packets are those of the
doorbell lines that they touch. -/
theorem State.txWrite_alone {t x : Tx} (tx : i.txs = [x]) (undoomed : x.doom = 0) {bs : List Byte} (hbm : isHbm t.dst = true)
    (own : s.hbmMap (s.partOfMd m) t.dst = some (m, loc)) (unheld : s.keptRange (s.partOfMd m) t.dst bs.length = false) (txid : Nat) :
    let u := s.txWrite m i.id 0 txid t bs
    (u.md m).items = [{ i with txs := [{ x with rd := true, st := .ok }] }] ∧ (u.md m).trk = serase (s.md m).trk txid ∧
      (∀ k, k ≠ m → u.md k = s.md k) ∧ ((∀ b ∈ s.bellLines m, loc + bs.length ≤ b.2.2 ∨ b.2.2 + 4 ≤ loc) → u.pcd = s.pcd) := by
  intro u
  let v := s.modTx m i.id 0 Tx.read
  have read : v.md m = { s.md m with items := [{ i with txs := [x.read] }] } := by
    unfold v
    rw [State.modTx_eq, State.md_setMd_same, single, List.map_singleton, Item.withTx_same, tx]
    rfl
  have unlanded : v.landRead m i.id = v := State.landRead_unlanded fun j held => by
    rw [State.dmaItem, read] at held
    obtain rfl := List.mem_singleton.1 (List.mem_of_find?_eq_some held)
    exact tagless
  obtain ⟨r, l, written, quiet⟩ := State.stackWrite_frame (s := v) (m := m) (by rw [read]; exact clean) loc bs
  have stored : u = (v.stackWrite m loc bs).1.txEnd m i.id 0 txid .ok := by
    rw [show u = _ from State.txWrite_own on clean hbm own unheld i.id 0 txid, unlanded]
  have die : ((v.stackWrite m loc bs).1).md m = { v.md m with mem := writeBytes (v.md m).mem loc bs, wb := (v.md m).wbAfter loc bs.length } := by
    rw [written]
    exact v.md_setMd_same ..
  rw [stored, State.md_txEnd, die, read]
  refine ⟨?items, rfl, fun k other => ?others, fun apart => ?net⟩
  case items =>
    show [{ i with txs := [x.read] }].map (Item.withTx i.id 0 (Tx.ends .ok)) = _
    rw [List.map_singleton, Item.withTx, if_pos rfl]
    simp [Tx.ends, Tx.read, undoomed]
  case others =>
    rw [State.txEnd_eq, State.md_setMd_ne _ _ other, written]
    exact (State.md_setMd_ne v _ other).trans (s.md_setMd_ne _ other)
  case net =>
    rw [State.txEnd_eq, written, quiet apart]
    rfl

end

-- Where the packets of a memory die for a site enter the mesh (spec/11 R327, R331) ------------------------------------------------------------------

theorem epKind_epSite {d : Nat} (hd : d < 576) : epKind (BitVec.ofNat 16 (epSite d)).toNat = 0 := by
  have node : epSite d < 2 ^ 14 := by
    have row : d / 36 < 16 := by omega
    have col : d % 36 < 36 := Nat.mod_lt _ (by decide)
    unfold epSite
    omega
  rw [BitVec.toNat_ofNat, Nat.mod_eq_of_lt (node.trans (by decide)), epKind, Nat.div_eq_of_lt node]
theorem epKind_epMd {m : Nat} (hm : m < 128) : epKind (BitVec.ofNat 16 (epMd m)).toNat = 1 := by
  rw [BitVec.toNat_ofNat]
  unfold epKind epMd
  omega

/-- The PCD knows the same but for the descriptors under way. -/
def State.samePcd (s t : State) : Prop := t.pcd = { s.pcd with descs := t.pcd.descs }

section
variable {s t : State} (same : s.samePcd t)
include same

theorem State.epRouter_samePcd {e : Nat} (kind : epKind e = 0 ∨ epKind e = 1) (src : Nat) : t.epRouter e src = s.epRouter e src := by
  unfold State.epRouter
  rcases kind with site | stack
  · rw [if_pos site, if_pos site]
  · rw [if_neg (by omega), if_pos stack, if_neg (by omega), if_pos stack]
    unfold State.mdAttach State.routerOut
    rw [same]
theorem State.orderOf_samePcd (p a b : Nat) : t.orderOf p a b = s.orderOf p a b := by
  have out : t.routerOut = s.routerOut := funext fun n => by
    unfold State.routerOut
    rw [same]
  unfold State.orderOf State.orderOk State.partOfNode State.partOfRegion State.partCfgs
  rw [out, same]
theorem State.net_inject {p : DynPkt} (dst : epKind p.dst.toNat = 0 ∨ epKind p.dst.toNat = 1) (src : epKind p.src.toNat = 0 ∨ epKind p.src.toNat = 1) :
    (t.inject p).pcd.net = (s.inject p).pcd.net := by
  unfold State.inject State.injectAt
  simp only [State.epRouter_samePcd same dst, State.epRouter_samePcd same src, State.orderOf_samePcd same]
  unfold State.setNetQ State.netQ
  rw [State.pcd_setPcd, State.pcd_setPcd, same]
theorem State.net_sendDone {m d : Nat} (hm : m < 128) (hd : d < 576) (tag n st : Nat) :
    (t.sendDone m d 0 true tag n st).pcd.net = (s.sendDone m d 0 true tag n st).pcd.net := by
  have part : t.partOfMd m = s.partOfMd m := by
    unfold State.partOfMd State.partOfRegion State.partCfgs
    rw [same]
  unfold State.sendDone
  rw [part]
  exact State.net_inject same (.inl (epKind_epSite hd)) (.inr (epKind_epMd hm))

end

-- The end of an item of a schedule (spec/10 R295) ---------------------------------------------------------------------------------------------------

section
variable {s : State} {m id d : Nat} {i : Item} (held : s.dmaItem m id = some i) (sched : i.origin = .sched d)
include held sched

theorem State.itemCheck_over (isOver : i.over = true) (stays : ∀ e ∈ (s.part (s.partOfMd m)).ctxs, e.2.endAs = none) :
    s.itemCheck m id = s.itemFinish m id := by
  obtain ⟨l, q, frame⟩ := (State.itemFinish_checked held sched).state
  unfold State.itemCheck
  rw [held]
  exact (if_pos isOver).trans (State.settle_stays (by rw [frame]; exact stays))
theorem State.itemFinish_done (done : i.status = 0) :
    s.itemFinish m id = (s.itemLeft m i).sendDone m d 0 true i.desc.tag.toNat (doneBytes i.txs) 0 := by
  rw [State.itemFinish_sched held sched, done]
  rfl

end

section
variable {s : State} {m : Nat} {i : Item}

theorem State.itemLeft_tagless (tagless : i.desc.land = false) :
    s.itemLeft m i = s.setMd m { s.md m with items := (s.md m).items.filter (fun j => decide (j.id ≠ i.id)) } :=
  if_neg (by rw [tagless]; exact Bool.false_ne_true)
theorem State.itemLeft_lands (tagged : i.desc.land = true) (done : i.status = 0) (unlanded : i.landed = false) : s.itemLeft m i =
    (s.setMd m { s.md m with items := (s.md m).items.filter (fun j => decide (j.id ≠ i.id)) }).sendLand m i.desc.tag.toNat i.desc.ldir
      i.desc.lsite.toNat := if_pos (by rw [tagged, done, unlanded]; rfl)

end

theorem State.sendLand_setMd (s : State) (m k : Nat) (x : Mdie) (tag : Nat) (dir : Bool) (site : Nat) :
    (s.setMd k x).sendLand m tag dir site = (s.sendLand m tag dir site).setMd k x := by
  unfold State.sendLand
  have same : (s.setMd k x).siteNode site = s.siteNode site := rfl
  rw [same]
  cases s.siteNode site <;> rfl

/-- R295: a complete item leaves its memory die, with the packets of its landing tag and of its report. -/
theorem State.itemDone_landing {s : State} {m d : Nat} {i : Item} (on : s.mdOn m = true) (stays : ∀ e ∈ (s.part (s.partOfMd m)).ctxs, e.2.endAs = none)
    (single : (s.md m).items = [i]) (isOver : i.over = true) (done : i.status = 0) (sched : i.origin = .sched d) (tagged : i.desc.land = true)
    (unlanded : i.landed = false) : s.itemDone m i.id = ((s.sendLand m i.desc.tag.toNat i.desc.ldir i.desc.lsite.toNat).sendDone m d 0 true
      i.desc.tag.toNat (doneBytes i.txs) 0).setMd m { s.md m with items := [] } := by
  have held := State.dmaItem_of_single single
  rw [State.itemDone, if_pos on, State.itemCheck_over held sched isOver stays, State.itemFinish_done held sched done,
    State.itemLeft_lands tagged done unlanded, single, items_filter_single, State.sendLand_setMd]
  rfl

-- A FILL descriptor, taken and done (spec/10 R284, R291, R295) --------------------------------------------------------------------------------------

theorem Mdie.nextTx_single {x : Mdie} {i : Item} {t : Tx} {cls : Nat} (single : x.items = [i]) (class' : i.cls = cls) (runs : i.ended = false)
    (tx : i.txs = [t]) (waits : t.st = .waiting) : x.nextTx cls = some (i, 0, t) := by
  unfold Mdie.nextTx
  rw [single, List.foldl_cons, List.foldl_nil]
  dsimp only
  rw [if_pos ⟨class', runs⟩, tx]
  simp [waits]

theorem serase_sput_nil {α : Type} (k : Nat) (v : α) : serase (sput [] k v) k = [] := by simp [serase, sput]

section
variable {s : State} {m loc : Nat} {i : Item} {x : Tx}

/-- R286, R291: the one transaction of the only item, a FILL of the die's own stack, obtains an entry, is stored and is over. -/
theorem State.txGrant_fill (on : s.mdOn m = true) (clean : (s.md m).errs = []) (runs : (s.md m).holdAt = none) (free : (s.md m).trk = [])
    (single : (s.md m).items = [i]) (schedule : i.cls = 0) (goes : i.ended = false) (tagless : i.desc.land = false) (tx : i.txs = [x])
    (waits : x.st = .waiting) (fill : x.src = none) (undoomed : x.doom = 0) (hbm : isHbm x.dst = true)
    (own : s.hbmMap (s.partOfMd m) x.dst = some (m, loc)) (unheld : s.keptRange (s.partOfMd m) x.dst x.len = false)
    (unscrubbed : s.scrubHits (s.partOfMd m) x.dst x.len = false) : let u := s.txGrant m 0
    (∃ ms r l, u = { s.withNet l with mds := ms, regs := r }) ∧ (u.md m).items = [{ i with txs := [{ x with rd := true, st := .ok }] }] ∧
      (u.md m).trk = [] ∧ (∀ a, memRead (u.md m).mem a = if loc ≤ a ∧ a < loc + x.len then
        BitVec.ofNat 8 (i.desc.pattern.toNat >>> (8 * ((x.dst + (a - loc)) % 4))) else memRead (s.md m).mem a) ∧
      (∀ k, k ≠ m → u.md k = s.md k) ∧ ((∀ b ∈ s.bellLines m, loc + x.len ≤ b.2.2 ∨ b.2.2 + 4 ≤ loc) → u.pcd = s.pcd) := by
  intro u
  obtain ⟨txid, entry⟩ := Mdie.freeTx_idle free 0 (by decide)
  let bs := fillBytes i.desc.pattern x.dst x.len
  have length : bs.length = x.len := length_fillBytes ..
  let e := s.txEntered m i 0 txid
  have granted : u = e.txWrite m i.id 0 txid x bs := by
    rw [show u = _ from State.txGrant_next runs (Mdie.nextTx_single single schedule goes tx waits) entry, State.txIssue_fill fill unscrubbed]
  have die : e.md m = { s.md m with items := [{ i with txs := [{ x with st := .issued }] }],
                                    trk := sput [] txid { item := i.id, tx := 0, cls := i.cls },
                                    lostTx := (s.md m).lostTx.filter (fun t => decide (t ≠ txid)) } := by
    refine (s.md_setMd_same ..).trans ?_
    rw [single, List.map_singleton, Item.withTx_same, tx, free]
    rfl
  have eclean : (e.md m).errs = [] := by rw [die]; exact clean
  have access : e.keptRange (e.partOfMd m) x.dst bs.length = false := by rw [length]; exact unheld
  obtain ⟨⟨ms, r, l, state⟩, -, stored, -⟩ := State.txWrite_stored (s := e) on eclean hbm own access i.id 0 txid
  obtain ⟨items, trk, others, quiet⟩ :=
    State.txWrite_alone (s := e) on eclean (congrArg Mdie.items die) tagless rfl undoomed hbm own access txid
  rw [← granted] at state stored items trk others quiet
  refine ⟨⟨ms, r, l, state⟩, items, ?trk, memRead_filled fun a => ?mem, fun k other => ?others, fun apart => ?quiet⟩
  case trk => rw [trk, die, serase_sput_nil]
  case mem => rw [stored, die]
  case others => exact (others k other).trans (s.md_setMd_ne _ other)
  case quiet =>
    refine quiet ?_
    rw [length]
    exact apart

/-- R295: an item without a landing tag that is over leaves its memory die, with the packet of its report. -/
theorem State.itemCheck_tagless {d : Nat} (stays : ∀ e ∈ (s.part (s.partOfMd m)).ctxs, e.2.endAs = none) (single : (s.md m).items = [i])
    (isOver : i.over = true) (done : i.status = 0) (sched : i.origin = .sched d) (tagless : i.desc.land = false) :
    s.itemCheck m i.id = (s.setMd m { s.md m with items := [] }).sendDone m d 0 true i.desc.tag.toNat (doneBytes i.txs) 0 := by
  have held := State.dmaItem_of_single single
  rw [State.itemCheck_over held sched isOver stays, State.itemFinish_done held sched done, State.itemLeft_tagless tagless, single,
    items_filter_single]

end

/-- R284, R291, R295: an idle memory die takes a FILL within a page of its own stack, and is done with it. -/
theorem State.descTake_fill {s : State} {m d loc : Nat} {dd : DmaDesc} (on : s.mdOn m = true)
    (stays : ∀ e ∈ (s.part (s.partOfMd m)).ctxs, e.2.endAs = none) (idle : (s.md m).items = []) (free : (s.md m).trk = [])
    (clean : (s.md m).errs = []) (runs : (s.md m).holdAt = none) (ok : s.descOk (s.partOfMd m) (.sched d) dd = true) (fill : dd.op = 1#2)
    (flat : dd.twoD = false) (tagless : dd.land = false) (hbm : isHbm dd.dst.toNat = true)
    (page : dd.dst.toNat % 4096 + dd.length.toNat ≤ 4096) (own : s.hbmMap (s.partOfMd m) dd.dst.toNat = some (m, loc))
    (unheld : s.keptRange (s.partOfMd m) dd.dst.toNat dd.length.toNat = false)
    (unscrubbed : s.scrubHits (s.partOfMd m) dd.dst.toNat dd.length.toNat = false) : let t := s.descTake m (.sched d) dd
    ∃ u, t = u.sendDone m d 0 true dd.tag.toNat dd.length.toNat 0 ∧ (∃ ms r l, u = { s.withNet l with mds := ms, regs := r }) ∧
      (u.md m).items = [] ∧ (u.md m).trk = [] ∧
      (∀ a, memRead (u.md m).mem a = if loc ≤ a ∧ a < loc + dd.length.toNat then
          BitVec.ofNat 8 (dd.pattern.toNat >>> (8 * ((dd.dst.toNat + (a - loc)) % 4))) else memRead (s.md m).mem a) ∧
      (∀ k, k ≠ m → u.md k = s.md k) ∧
      ((∀ b ∈ s.bellLines m, loc + dd.length.toNat ≤ b.2.2 ∨ b.2.2 + 4 ≤ loc) → u.pcd = s.pcd) := by
  intro t
  let x := fillTxOf dd .waiting false
  obtain ⟨pos, row⟩ := descOk_flat ok flat
  have txs : (s.itemOf m (.sched d) dd).txs = [x] := (if_pos ok).trans (dmaTxs_fill fill row pos hbm page)
  have taken : t = ((s.itemHeld m (.sched d) dd).txGrant m 0).itemCheck m (s.md m).nextItem := by
    rw [show t = _ from State.descTake_accepted ok, txs]
    rfl
  have die : (s.itemHeld m (.sched d) dd).md m = _ := s.md_setMd_same ..
  obtain ⟨⟨ms, r, l, state⟩, items, trk, stored, others, quiet⟩ := State.txGrant_fill (s := s.itemHeld m (.sched d) dd) (x := x) on
    (by rw [die]; exact clean) (by rw [die]; exact runs) (by rw [die]; exact free) (State.items_itemHeld idle _) rfl rfl tagless txs rfl rfl rfl
    hbm own unheld unscrubbed
  generalize (s.itemHeld m (.sched d) dd).txGrant m 0 = w at taken state items trk stored others quiet
  have finished := State.itemCheck_tagless (s := w) (d := d) (by rw [state]; exact stays) items rfl rfl rfl tagless
  refine ⟨w.setMd m { w.md m with items := [] }, taken.trans (finished.trans ?report),
    ⟨sput ms m { w.md m with items := [] }, r, l, ?state⟩, ?items, ?trk, fun a => ?mem, fun k other => ?others, fun apart => quiet apart⟩
  case report => rfl
  case state => rw [state]; rfl
  case items => rw [State.md_setMd_same]
  case trk => rw [State.md_setMd_same]; exact trk
  case mem => rw [State.md_setMd_same]; refine (stored a).trans ?_; rw [die]; rfl
  case others => rw [State.md_setMd_ne _ _ other, others k other]; exact s.md_setMd_ne _ other

-- Timeouts (spec/10 R285, R287, R310) ---------------------------------------------------------------------------------------------------------------

/-- A transaction has ended without a reply; one that comes later is discarded. -/
def State.txLost (s : State) (m id k txid : Nat) : State :=
  let t := s.txEnd m id k txid (.failed 4)
  t.setMd m { t.md m with lostTx := insUniq txid (t.md m).lostTx }

theorem State.txLost_eq (s : State) (m id k txid : Nat) : s.txLost m id k txid =
    s.setMd m { s.md m with items := (s.md m).items.map (Item.withTx id k (Tx.ends (.failed 4))), trk := serase (s.md m).trk txid,
                            lostTx := insUniq txid (s.md m).lostTx } := by
  unfold State.txLost
  dsimp only
  rw [State.md_txEnd, State.txEnd_eq, State.setMd_setMd]

theorem State.tmoCount_none {s : State} {m : Nat} (room : s.rg (nodeMd m) MD_TIMEOUT < 0xFFFFFFFE) : ∃ r, s.tmoCount m none = { s with regs := r } ∧
    (s.tmoCount m none).rg (nodeMd m) MD_TIMEOUT = s.rg (nodeMd m) MD_TIMEOUT + 1 := by
  have counted : s.bumpErr (nodeMd m) MD_TIMEOUT MD_STATUS 29 1 = s.setRg (nodeMd m) MD_TIMEOUT (s.rg (nodeMd m) MD_TIMEOUT + 1) :=
    State.bumpErr_of_lt (by omega) (by decide)
  obtain ⟨r, recorded⟩ := (s.bumpErr (nodeMd m) MD_TIMEOUT MD_STATUS 29 1).mdRecord_frame m 2 0 0 m 0
  refine ⟨r, ?frame, ?count⟩
  case frame =>
    refine recorded.trans ?_
    rw [counted]
    rfl
  case count =>
    refine (State.rg_mdRecord_ne _ _ _ _ _ _ _ (by simp [mdRecordRegs, rkey_off]; decide)).trans ?_
    rw [counted]
    exact s.rg_setRg_same _ _ _

section
variable {s : State} {m txid : Nat}

theorem State.txTimeout_free (free : sfind (s.md m).trk txid = none) : s.txTimeout m txid = s := by
  unfold State.txTimeout
  rw [free]

variable {tk : Trk} {i : Item} {x : Tx} (held : s.dmaItem m tk.item = some i) (tx : i.txs[tk.tx]? = some x)
include held tx

/-- R287: a transaction between scratchpads that times out names no other memory die. -/
theorem State.txTimeout_spads (on : s.mdOn m = true) (entry : sfind (s.md m).trk txid = some tk) (dst : isHbm x.dst = false)
    (src : ∀ a, x.src = some a → isHbm a = false) :
    s.txTimeout m txid = ((s.tmoCount m none).txLost m tk.item tk.tx txid).itemCheck m tk.item := by
  have peer : s.stackOf (s.partOfMd m) (if x.rd || x.src.isNone then x.dst else x.src.getD 0) = none := by
    refine if_neg ?_
    split
    next => rw [dst]; exact Bool.false_ne_true
    next unread =>
      obtain ⟨a, some⟩ := Option.isSome_iff_exists.1 (show x.src.isSome = true by simpa using (Bool.or_eq_false_iff.1 (Bool.eq_false_iff.2 unread)).2)
      rw [some, Option.getD_some, src a some]
      exact Bool.false_ne_true
  unfold State.txTimeout
  rw [entry]
  dsimp only
  rw [if_pos on, held]
  dsimp only
  rw [tx, Option.getD_some, peer, State.dmaItem_id held]
  rfl

/-- R285, R287: the entry is free, and the transaction has ended with status 4 or with the one decided for it. -/
theorem State.txLost_checked (sched : ∃ d, i.origin = .sched d) (stays : ∀ e ∈ (s.part (s.partOfMd m)).ctxs, e.2.endAs = none) :
    let t := (s.txLost m tk.item tk.tx txid).itemCheck m tk.item
    sfind (t.md m).trk txid = none ∧ (∀ n o, t.rg n o = s.rg n o) ∧ (t.md m).mem = (s.md m).mem ∧ (t.md m).lostTx.contains txid = true ∧
      ∀ j, t.dmaItem m tk.item = some j → (j.txs[tk.tx]?).map (fun y => y.st) = some (.failed (if x.doom = 0 then 4 else x.doom)) := by
  intro t
  have die : (s.txLost m tk.item tk.tx txid).md m = _ := (congrArg (fun t : State => t.md m) (s.txLost_eq ..)).trans (s.md_setMd_same ..)
  have item : (s.txLost m tk.item tk.tx txid).dmaItem m tk.item = some { i with txs := i.txs.modify tk.tx (Tx.ends (.failed 4)) } := by
    rw [State.dmaItem_of_items (s := s) (Item.withTx_keeps _ _ _) (congrArg Mdie.items die), held, ← State.dmaItem_id held]
    exact congrArg some (Item.withTx_same ..)
  have checked : (s.txLost m tk.item tk.tx txid).ItemChecked t m tk.item := State.itemCheck_checked (fun j there => by
    obtain rfl := Option.some.inj (item.symm.trans there)
    exact sched) (by rw [State.txLost_eq]; exact stays)
  obtain ⟨l, q, frame⟩ := checked.state
  obtain ⟨items, left⟩ := checked.die
  refine ⟨?trk, fun n o => ?regs, ?mem, ?lost, fun j there => ?item⟩
  case trk => rw [left, die]; exact sfind_serase ..
  case regs => rw [frame, State.txLost_eq]; rfl
  case mem => rw [left, die]
  case lost =>
    rw [left, die]
    exact List.contains_iff_mem.2 (mem_insUniq.2 (.inl rfl))
  case item =>
    obtain rfl := Option.some.inj (item.symm.trans (checked.item j there))
    dsimp only
    rw [List.getElem?_modify_eq, tx]
    exact congrArg some (apply_ite TxSt.failed ..).symm

end

/-- R328: a descriptor from another partition is discarded and counted. -/
theorem State.e2eDrop_counts {s : State} {n : Nat} (room : s.rg (nodeRs ((regionOfNode n).getD 0)) (RS_RT_E2E (coreBit n)) < 0xFFFFFFFE) :
    s.e2eDrop n = s.setRg (nodeRs ((regionOfNode n).getD 0)) (RS_RT_E2E (coreBit n))
      (s.rg (nodeRs ((regionOfNode n).getD 0)) (RS_RT_E2E (coreBit n)) + 1) := State.bumpErr_of_lt (by omega) (by decide)

theorem State.itemDone_stays {s : State} {m id : Nat} (goes : (s.dmaItem m id).map Item.over ≠ some true) : s.itemDone m id = s := by
  unfold State.itemDone State.itemCheck
  split
  next =>
    split
    next i held =>
      rw [held] at goes
      exact if_neg fun isOver => goes (congrArg some isOver)
    next => rfl
  next => rfl

/-- Settles O33: by what the die does with the descriptor, with its entries and with its items. -/
theorem dmaItemsOnTheirOwnStack : Obligations.DmaItemsOnTheirOwnStack := by
  intro s m d hm hd on stays live p own
  have taken (mine : own) (dd : DmaDesc) := State.descIn_own (dd := dd) on mine live
  refine ⟨fun dd foreign room => ?foreign, fun dd mine idle bad room => ?rejected,
    fun dd loc mine idle free clean runs ok fill flat tagless hbm page map unheld unscrubbed => ?fill,
    fun cls i k tx txid loc hc item runs clean next entry sched single fill hbm map unheld unscrubbed => ?grant,
    fun cls hc item none => ?waits, fun txid ht item free => ?free,
    fun txid tk i x ht item entry held sched tx dst src room => ?timeout,
    fun i single isOver done sched tagged unlanded => ?done, fun id goes => ?goes⟩
  case foreign =>
    refine ⟨_, execDesc_eq hm hd dd, ?_⟩
    rw [State.descIn_foreign on foreign, State.e2eDrop_counts (s := s.descTaken m (.sched d)) room]
    exact ⟨rfl, rfl, rfl, State.rg_setRg_same _ _ _ _⟩
  case rejected =>
    refine ⟨_, execDesc_eq hm hd dd, ?_⟩
    rw [taken mine]
    exact State.descTake_rejected_spec (s := s.descTaken m (.sched d)) idle bad room
  case fill =>
    refine ⟨_, execDesc_eq hm hd dd, ?_⟩
    rw [taken mine]
    obtain ⟨u, took, ⟨ms, r, l, state⟩, items, trk, stored, others, quiet⟩ := State.descTake_fill (s := s.descTaken m (.sched d)) on stays idle
      free clean runs ok fill flat tagless hbm page map unheld unscrubbed
    obtain ⟨l', sent⟩ := u.sendDone_frame m d 0 true dd.tag.toNat dd.length.toNat 0
    rw [took]
    refine ⟨?_, ?_, ?_, ?_, ?_, ?_, fun apart => State.net_sendDone ?_ hm hd ..⟩
    · rw [sent]; exact items
    · rw [sent]; exact trk
    · rw [sent]; exact stored
    · rw [sent]; exact others
    · rw [sent, state]; rfl
    · rw [sent, state]; rfl
    · rw [State.samePcd, quiet apart]; rfl
  case grant =>
    exact ⟨_, execTrackerEntryGrant_eq hm hc item,
      State.trkGrant_fill on clean stays runs next entry sched single fill hbm map unheld unscrubbed⟩
  case waits => rw [execTrackerEntryGrant_eq hm hc item, State.trkGrant_none none]
  case free => rw [execTransactionTimeout_eq hm ht item, State.txTimeout_free free]
  case timeout =>
    obtain ⟨r, frame, counted⟩ := State.tmoCount_none room
    refine ⟨_, execTransactionTimeout_eq hm ht item, ?_⟩
    rw [State.txTimeout_spads held tx on entry dst src]
    obtain ⟨trk, regs, mem, lost, ends⟩ := State.txLost_checked (s := s.tmoCount m none) (txid := txid) (by rw [frame]; exact held) tx ⟨d, sched⟩
      (by rw [frame]; exact stays)
    exact ⟨trk, (regs ..).trans counted, mem.trans (by rw [frame]; rfl), lost, ends⟩
  case done =>
    refine ⟨_, execDmaItemComplete_eq hm i.id, ?_⟩
    rw [State.itemDone_landing on stays single isOver done sched tagged unlanded]
    obtain ⟨l, landed⟩ := s.sendLand_frame m i.desc.tag.toNat i.desc.ldir i.desc.lsite.toNat
    obtain ⟨l', sent⟩ := (s.withNet l).sendDone_frame m d 0 true i.desc.tag.toNat (doneBytes i.txs) 0
    refine ⟨?_, ?_, ?_, rfl⟩
    · rw [State.md_setMd_same]
    · rw [State.md_setMd_same]
    · rw [landed, sent]
      rfl
  case goes => rw [execDmaItemComplete_eq hm, State.itemDone_stays goes]

end Sys2Proof.Machine
end

section
/-! The failure of a stack and the cap of the hottest one (spec/10 R304, R305, R307, R308, R310; O32). -/

namespace Sys2Proof.Machine

-- The failure of a stack that nothing goes to (spec/10 R304, R305) ----------------------------------------------------------------------------------

theorem execStackFail_eq {s : State} {m : Nat} (hm : m < 128) (cause : Nat) : exec (.stackFail m cause) s = .next (s.stackFail m cause) :=
  if_pos (decide_eq_true hm)

/-- R304: cause 2 wants four bad sectors within a second. -/
def State.sectorsFew (s : State) (m cause : Nat) : Prop :=
  cause = 2 ∧ ((s.md m).badSectors.filter (fun b => decide (s.ptc < b.1 + 1000000000))).length < 4

section
variable {s : State} {m cause : Nat} (on : s.mdOn m = true)
include on

theorem State.stackFail_few (few : s.sectorsFew m cause) : s.stackFail m cause = s := (if_pos on).trans (if_pos few)
theorem State.stackFail_fails (fails : ¬ s.sectorsFew m cause) : s.stackFail m cause = s.stackFailed m cause := (if_pos on).trans (if_neg fails)

end

section
variable {s : State}

theorem State.descsEnd_none {hit : Nat × Origin × DmaDesc → Bool} (none : ∀ e ∈ s.pcd.descs, hit e = false) (status event : Nat) :
    s.descsEnd hit status event = s := by
  have gone : s.pcd.descs.filter hit = [] := List.filter_eq_nil_iff.2 fun e under => by rw [none e under]; exact Bool.false_ne_true
  have kept : s.pcd.descs.filter (fun e => !hit e) = s.pcd.descs := List.filter_eq_self.2 fun e under => by rw [none e under]; rfl
  unfold State.descsEnd State.setPcd
  dsimp only
  rw [gone, kept, List.map_nil, List.append_nil]
  rfl

/-- The memory dies stand, each as it is. -/
def State.MdsStand (s t : State) : Prop := ∃ ms, t = { s with mds := ms } ∧ ∀ k, t.md k = s.md k

/-- R305: where no memory die holds an item or an entry, none fails. -/
theorem State.stackLost_idle (idle : ∀ k, (s.md k).items = [] ∧ (s.md k).trk = []) (p q : Nat) : s.MdsStand (s.stackLost p q) := by
  unfold State.stackLost
  refine List.foldlRecOn (motive := s.MdsStand) _ _ ⟨s.mds, rfl, fun _ => rfl⟩ fun t stands m _ => ?_
  obtain ⟨ms, state, dies⟩ := stands
  obtain ⟨items, trk⟩ := idle m
  rw [← dies m] at items trk
  dsimp only
  rw [trk, List.filter_nil, List.foldl_nil]
  split
  next same =>
    rw [State.md_setMd_same, items, List.map_nil, List.map_nil, List.foldl_nil]
    refine ⟨sput ms m (s.md m), ?state, fun k => ?dies⟩
    case state => rw [dies m, state, ← (idle m).1]; rfl
    case dies =>
      rw [State.md_setMd]
      split
      next here => rw [here, ← dies m, ← items]
      next => exact dies k
  next => rw [items, List.map_nil, List.foldl_nil]; exact ⟨ms, state, dies⟩
theorem State.onPanelLost_idle (idle : ∀ f, (s.fd f).onp = []) (p q : Nat) : s.onPanelLost p q = s :=
  foldl_eq_self fun f _ => by rw [idle f, List.filter_nil, List.foldl_nil]

theorem mdFaultInfo_plain (kind cause : Nat) : mdFaultInfo kind cause 0 0 = 2 ^ 31 + kind * 2 ^ 28 + cause * 2 ^ 25 := by simp [mdFaultInfo]

/-- R304, R310: a stack that fails with nothing on its way sets its bit, takes the fault record and reports the failure. -/
theorem State.stackFailed_idle {m : Nat} (idle : ∀ k, (s.md k).items = [] ∧ (s.md k).trk = []) (without : ∀ e ∈ s.pcd.descs, e.1 ≠ m)
    (panel : ∀ f, (s.fd f).onp = []) (cause : Nat) :
    (((s.setRgB (nodeMd m) MD_STATUS 1 true).mdRecord m 3 cause 0 0 0).raise (nodeMd m) 0x3200 (unitStack m) 0).MdsStand
      (s.stackFailed m cause) := by
  obtain ⟨r, recorded⟩ := (s.setRgB (nodeMd m) MD_STATUS 1 true).mdRecord_frame m 3 cause 0 0 0
  unfold State.stackFailed
  dsimp only
  rw [recorded]
  generalize reported : State.raise { State.setRgB s (nodeMd m) MD_STATUS 1 true with regs := r } _ _ _ _ = u
  have descs : u.pcd.descs = s.pcd.descs := by rw [← reported]; rfl
  have dies : ∀ k, u.md k = s.md k := fun k => by rw [← reported]; rfl
  have fds : ∀ f, u.fd f = s.fd f := fun f => by rw [← reported]; rfl
  rw [State.descsEnd_none (fun e under => decide_eq_false (without e (descs ▸ under)))]
  have stands := State.stackLost_idle (s := u) (fun k => by rw [dies]; exact idle k) (s.partOfMd m) m
  obtain ⟨ms, state, -⟩ := id stands
  rw [State.onPanelLost_idle (fun f => by rw [state]; exact (congrArg Fdie.onp (fds f)).trans (panel f))]
  exact stands

end

-- The thermal word of a stack (spec/10 R307, R308, R310) --------------------------------------------------------------------------------------------

/-- Of one stack the thermal word above its temperature and what the die holds may have changed, else nothing of the dies. -/
structure State.CapOnly (s t : State) (m : Nat) : Prop where
  fuses : t.fuses = s.fuses
  pcd : t.pcd = s.pcd
  regs : ∀ n o, rkey n o ≠ rkey (nodeMd m) MD_THERM → t.rg n o = s.rg n o
  temp : t.mdTemp m = s.mdTemp m
  others : ∀ k, k ≠ m → t.md k = s.md k

section
variable {s t u : State} {m : Nat}

theorem State.rgB_setRgF_outside (s : State) (n o v : Nat) {msb lsb k : Nat} (h : lsb ≤ msb) (outside : k < lsb ∨ msb < k) :
    (s.setRgF n o msb lsb v).rgB n o k = s.rgB n o k := by
  rw [State.rgB, State.setRgF, State.rg_setRg_same, testBit_setBits _ _ _ h, if_neg (by omega)]
  rfl
theorem State.rgF_setRgF_above (s : State) (n o v : Nat) {msb lsb top low : Nat} (h : lsb ≤ msb) (below : top < lsb) :
    (s.setRgF n o msb lsb v).rgF n o top low = s.rgF n o top low := by
  refine Nat.eq_of_testBit_eq fun k => ?_
  rw [State.rgF, State.setRgF, State.rg_setRg_same, testBit_bits, testBit_setBits _ _ _ h, State.rgF, testBit_bits]
  by_cases inside : k < top + 1 - low
  · rw [if_neg (by omega)]
  · rw [decide_eq_false inside, Bool.false_and, Bool.false_and]

theorem State.CapOnly.refl (s : State) (m : Nat) : s.CapOnly s m := ⟨rfl, rfl, fun _ _ _ => rfl, rfl, fun _ _ => rfl⟩
theorem State.CapOnly.trans (st : s.CapOnly t m) (tu : t.CapOnly u m) : s.CapOnly u m :=
  ⟨tu.fuses.trans st.fuses, tu.pcd.trans st.pcd, fun n o other => (tu.regs n o other).trans (st.regs n o other), tu.temp.trans st.temp,
    fun k other => (tu.others k other).trans (st.others k other)⟩
theorem State.CapOnly.ite {c : Prop} [Decidable c] (st : s.CapOnly t m) (su : s.CapOnly u m) : s.CapOnly (if c then t else u) m := by
  split
  · exact st
  · exact su
/-- A field above the temperature. -/
theorem State.CapOnly.setRgF (s : State) (m v : Nat) {msb lsb : Nat} (h : lsb ≤ msb) (above : 15 < lsb) :
    s.CapOnly (s.setRgF (nodeMd m) MD_THERM msb lsb v) m :=
  ⟨rfl, rfl, fun n o other => by rw [State.setRgF, State.rg_setRg, if_neg other],
    by rw [State.mdTemp, State.rgF_setRgF_above _ _ _ _ h above, State.mdTemp], fun _ _ => rfl⟩
theorem State.CapOnly.setMd (s : State) (m : Nat) (x : Mdie) : s.CapOnly (s.setMd m x) m :=
  ⟨rfl, rfl, fun _ _ _ => rfl, rfl, fun _ other => s.md_setMd_ne x other⟩

section
variable (only : s.CapOnly t m)
include only

theorem State.CapOnly.mdOn (k : Nat) : t.mdOn k = s.mdOn k := by
  have fence : ∀ b, t.rgB (nodeRs (k / 8)) RS_FENCE b = s.rgB (nodeRs (k / 8)) RS_FENCE b := fun b => by
    rw [State.rgB, only.regs _ _ (by unfold rkey RS_FENCE MD_THERM; omega), State.rgB]
  have cut : t.cutRegions = s.cutRegions := by rw [State.cutRegions, only.fuses, State.cutRegions]
  simp only [State.mdOn, State.regionOn, State.regionUp, cut, only.pcd, fence]
theorem State.CapOnly.therm {k : Nat} (other : k ≠ m) : t.rg (nodeMd k) MD_THERM = s.rg (nodeMd k) MD_THERM :=
  only.regs _ _ (by unfold rkey nodeMd; omega)
theorem State.CapOnly.mdTemp (k : Nat) : t.mdTemp k = s.mdTemp k := by
  by_cases same : k = m
  · rw [same, only.temp]
  · rw [State.mdTemp, State.rgF, only.therm same, State.mdTemp, State.rgF]

end
end

-- The evaluation of the caps (spec/10 R307, R308) ---------------------------------------------------------------------------------------------------

/-- A stack's flags: above 85 °C, until it is at 82 °C or below; and named. -/
def State.thermMarked (s : State) (m : Nat) (named : Bool) : State :=
  (if 680 < s.mdTemp m then s.setRgB (nodeMd m) MD_THERM 17 true
    else if s.mdTemp m ≤ 656 then s.setRgB (nodeMd m) MD_THERM 17 false else s).setRgB (nodeMd m) MD_THERM 16 named
/-- A cap at or below 85 °C no longer counts its time. -/
def State.capTimed (s : State) (m now : Nat) : State :=
  if (s.md m).capAt.isSome && decide (s.mdTemp m ≤ 680) then s.setMd m { s.md m with capAt := some now } else s
/-- It ends at 82 °C or below, or where another stack is named. -/
def State.capLeft (s : State) (m : Nat) (h : Option Nat) : State :=
  if (s.md m).capAt.isSome && (decide (s.mdTemp m ≤ 656) || (h.isSome && decide (h ≠ some m))) then s.capOff m else s
/-- One stack evaluated. -/
def State.capStep (h : Option Nat) (now : Nat) (s : State) (m : Nat) : State :=
  if s.mdOn m then ((s.thermMarked m (decide (h = some m))).capTimed m now).capLeft m h else s
/-- The named stack is capped; its first cap since power-on is an event. -/
def State.capFirst (s : State) (m now p : Nat) : State :=
  let t := (s.setRgF (nodeMd m) MD_THERM 19 18 1).setMd m { s.md m with capAt := some now, cappedEver := true }
  if (s.md m).cappedEver then t else t.pcdEvent 0x5200 p (unitStack m) 0
/-- A stack that has been named: its first halving, after 100 ms its second. -/
def State.capNamed (s : State) (m now p : Nat) : State :=
  match (s.md m).capAt with
  | none => s.capFirst m now p
  | some t0 => if 100000000 ≤ now - t0 then s.setRgF (nodeMd m) MD_THERM 19 18 2 else s
/-- The evaluation ends with the named stack, where there is one. -/
def State.capNames (s : State) (h : Option Nat) (now : Nat) (p : Nat → Nat) : State :=
  match h with
  | none => s
  | some m => s.capNamed m now (p m)

theorem execHbmCapEval_eq (s : State) : exec .hbmCapEval s = .next s.capEval := rfl
theorem State.capEval_eq (s : State) :
    s.capEval = ((List.range 128).foldl (State.capStep s.hottest s.ptc) s).capNames s.hottest s.ptc s.partOfMd := by
  unfold State.capEval
  extract_lets h s1
  rw [show (List.range 128).foldl (State.capStep s.hottest s.ptc) s = s1 from rfl]
  clear_value s1
  rw [show s.hottest = h from rfl]
  cases h <;> rfl

/-- The hottest stack is on, and above 85 °C. -/
theorem State.hottest_hot {s : State} {m : Nat} (named : s.hottest = some m) : m < 128 ∧ s.mdOn m = true ∧ 680 < s.mdTemp m := by
  suffices all : ∀ m, s.hottest = some m → m < 128 ∧ s.mdOn m = true ∧ 680 < s.mdTemp m from all m named
  refine foldl_range_rec (P := fun n a => ∀ m, a = some m → m < n ∧ s.mdOn m = true ∧ 680 < s.mdTemp m) ?none
    (fun n a held m next => ?step) 128
  case none => exact fun _ empty => nomatch empty
  have older : a = some m → m < n + 1 ∧ s.mdOn m = true ∧ 680 < s.mdTemp m := fun same => (held m same).imp_left Nat.lt_succ_of_lt
  split at next
  next hot =>
    have newer : n = m → m < n + 1 ∧ s.mdOn m = true ∧ 680 < s.mdTemp m := by
      rintro rfl
      exact ⟨Nat.lt_succ_self n, (Bool.and_eq_true_iff.1 hot).imp_right of_decide_eq_true⟩
    split at next
    next => exact newer (Option.some.inj next)
    next k =>
      split at next
      · exact newer (Option.some.inj next)
      · exact older next
  next => exact older next

section
variable {s t u : State} {m : Nat}

theorem State.CapOnly.thermMarked (s : State) (m : Nat) (named : Bool) : s.CapOnly (s.thermMarked m named) m :=
  (State.CapOnly.ite (.setRgF s m _ (by decide) (by decide)) (.ite (.setRgF s m _ (by decide) (by decide)) (.refl s m))).trans
    (.setRgF _ m _ (by decide) (by decide))
theorem State.CapOnly.capTimed (s : State) (m now : Nat) : s.CapOnly (s.capTimed m now) m := .ite (.setMd ..) (.refl s m)
theorem State.CapOnly.capLeft (s : State) (m : Nat) (h : Option Nat) : s.CapOnly (s.capLeft m h) m :=
  .ite ((State.CapOnly.setRgF s m 0 (by decide) (by decide)).trans (.setMd ..)) (.refl s m)
theorem State.CapOnly.capStep (h : Option Nat) (now : Nat) (s : State) (m : Nat) : s.CapOnly (s.capStep h now m) m :=
  .ite ((State.CapOnly.thermMarked ..).trans ((State.CapOnly.capTimed ..).trans (.capLeft ..))) (.refl s m)

end

section
variable {s : State} {m : Nat}

/-- R307: the flags by the temperature and by who is named. -/
theorem State.thermMarked_flags (s : State) (m : Nat) (named : Bool) : let t := s.thermMarked m named
    t.rgB (nodeMd m) MD_THERM 16 = named ∧ (680 < s.mdTemp m → t.rgB (nodeMd m) MD_THERM 17 = true) ∧
      (s.mdTemp m ≤ 656 → t.rgB (nodeMd m) MD_THERM 17 = false) ∧ ∀ k, t.md k = s.md k := by
  intro t
  unfold t State.thermMarked
  refine ⟨State.rgB_setRgB .., fun hot => ?hot, fun cool => ?cool, fun k => ?md⟩
  case hot =>
    rw [if_pos hot]
    exact (State.rgB_setRgF_outside _ _ _ _ le_rfl (.inr (by decide))).trans (State.rgB_setRgB ..)
  case cool =>
    rw [if_neg (by omega), if_pos cool]
    exact (State.rgB_setRgF_outside _ _ _ _ le_rfl (.inr (by decide))).trans (State.rgB_setRgB ..)
  case md =>
    split
    · rfl
    · split <;> rfl

theorem State.capTimed_regs (s : State) (m now : Nat) : (s.capTimed m now).regs = s.regs := by
  unfold State.capTimed
  split <;> rfl
theorem State.rgB_capLeft (s : State) (m : Nat) (h : Option Nat) {k : Nat} (below : k < 18) :
    (s.capLeft m h).rgB (nodeMd m) MD_THERM k = s.rgB (nodeMd m) MD_THERM k := by
  unfold State.capLeft
  split
  · exact s.rgB_setRgF_outside _ _ _ (by decide) (.inl below)
  · rfl

/-- R308: a stack at 82 °C or below has no cap. -/
theorem State.capLeft_cool (cool : s.mdTemp m ≤ 656) (h : Option Nat) : ((s.capLeft m h).md m).capAt = none := by
  unfold State.capLeft
  rw [decide_eq_true cool, Bool.true_or, Bool.and_true]
  split
  next => exact congrArg Mdie.capAt (State.md_setMd_same ..)
  next uncapped => exact Option.not_isSome_iff_eq_none.1 uncapped
/-- The named stack, above 85 °C, keeps its cap. -/
theorem State.capLeft_named (hot : 680 < s.mdTemp m) (now : Nat) : (s.capTimed m now).capLeft m (some m) = s := by
  have timed : s.capTimed m now = s := if_neg (by rw [decide_eq_false (by omega), Bool.and_false]; exact Bool.false_ne_true)
  rw [timed]
  exact if_neg (by rw [decide_eq_false (by omega), decide_eq_false (not_not_intro rfl), Bool.and_false, Bool.false_or, Bool.and_false]
                   exact Bool.false_ne_true)

/-- A stack has been evaluated: its flags, and its cap but for the named one's. -/
structure State.CapDone (s t : State) (m : Nat) : Prop where
  named : t.rgB (nodeMd m) MD_THERM 16 = decide (s.hottest = some m)
  hot : 680 < s.mdTemp m → t.rgB (nodeMd m) MD_THERM 17 = true
  cool : s.mdTemp m ≤ 656 → t.rgB (nodeMd m) MD_THERM 17 = false ∧ (t.md m).capAt = none
  kept : s.hottest = some m → t.md m = s.md m

theorem State.CapDone.congr {t u : State} (done : s.CapDone t m) (therm : u.rg (nodeMd m) MD_THERM = t.rg (nodeMd m) MD_THERM)
    (md : u.md m = t.md m) : s.CapDone u m := by
  have flag : ∀ k, u.rgB (nodeMd m) MD_THERM k = t.rgB (nodeMd m) MD_THERM k := fun k => by rw [State.rgB, therm, State.rgB]
  obtain ⟨named, hot, cool, kept⟩ := done
  rw [← flag] at named hot cool
  rw [← md] at cool kept
  exact ⟨named, hot, cool, kept⟩

theorem State.capStep_done {t : State} (on : t.mdOn m = true) (temp : t.mdTemp m = s.mdTemp m) (md : t.md m = s.md m) (now : Nat) :
    s.CapDone (t.capStep s.hottest now m) m := by
  obtain ⟨named, hot, cool, dies⟩ := t.thermMarked_flags m (decide (s.hottest = some m))
  have marked := State.CapOnly.thermMarked t m (decide (s.hottest = some m))
  rw [temp] at hot cool
  have step : t.capStep s.hottest now m = ((t.thermMarked m (decide (s.hottest = some m))).capTimed m now).capLeft m s.hottest := if_pos on
  generalize t.thermMarked m (decide (s.hottest = some m)) = u at named hot cool dies marked step
  have flags : ∀ k, k < 18 → (t.capStep s.hottest now m).rgB (nodeMd m) MD_THERM k = u.rgB (nodeMd m) MD_THERM k := fun k below => by
    rw [step, State.rgB_capLeft _ _ _ below, State.rgB, State.rg, State.capTimed_regs]
    rfl
  refine ⟨(flags 16 (by decide)).trans named, fun above => (flags 17 (by decide)).trans (hot above),
    fun below => ⟨(flags 17 (by decide)).trans (cool below), ?uncapped⟩, fun hottest => ?kept⟩
  case uncapped =>
    rw [step]
    refine State.capLeft_cool ?_ _
    rw [(State.CapOnly.capTimed u m now).temp, marked.temp, temp]
    exact below
  case kept =>
    obtain ⟨-, -, above⟩ := State.hottest_hot hottest
    rw [step, hottest, State.capLeft_named (by rw [marked.temp, temp]; exact above), dies, md]

/-- The stacks below n have been evaluated. -/
structure State.CapsDone (s t : State) (n : Nat) : Prop where
  on : ∀ k, t.mdOn k = s.mdOn k
  temp : ∀ k, t.mdTemp k = s.mdTemp k
  done : ∀ k, k < n → s.mdOn k = true → s.CapDone t k
  later : ∀ k, n ≤ k → t.md k = s.md k

theorem State.CapsDone.step {t : State} {n : Nat} (done : s.CapsDone t n) (now : Nat) : s.CapsDone (t.capStep s.hottest now n) (n + 1) := by
  have only := State.CapOnly.capStep s.hottest now t n
  refine ⟨fun k => (only.mdOn k).trans (done.on k), fun k => (only.mdTemp k).trans (done.temp k), fun k below on => ?done,
    fun k above => (only.others k (by omega)).trans (done.later k (by omega))⟩
  by_cases here : k = n
  · subst here
    exact State.capStep_done ((done.on k).trans on) (done.temp k) (done.later k le_rfl) now
  · exact (done.done k (by omega) on).congr (only.therm here) (only.others k here)
theorem State.capsDone (s : State) (now : Nat) : s.CapsDone ((List.range 128).foldl (State.capStep s.hottest now) s) 128 :=
  foldl_range_rec (P := fun n t => s.CapsDone t n) ⟨fun _ => rfl, fun _ => rfl, fun _ below => absurd below (Nat.not_lt_zero _), fun _ _ => rfl⟩
    (fun _ _ done => done.step now) 128

end

-- The named stack (spec/10 R308) --------------------------------------------------------------------------------------------------------------------

section
variable {s t u : State} {m : Nat}

/-- A stack's cap is an event of the informational class: it fences nothing and fails no job (spec/16 R455). -/
theorem State.actOn_cap (s : State) (part unit data : Nat) : s.actOn 0x5200 part unit data = s := by
  have struck : strikeUnits 0x5200 unit = [] := by simp [strikeUnits]
  simp [State.actOn, State.consequence, struck]
theorem State.Logged.capEvent (s : State) (part unit data : Nat) : s.Logged (s.pcdEvent 0x5200 part unit data) := by
  rw [State.pcdEvent, State.event, State.actOn_cap]
  exact .putEvent ..

/-- Of the named stack the rate may have changed, and its cap; the other stacks stand. -/
structure State.CapNamed (s t : State) (m : Nat) : Prop where
  flags : ∀ k, k < 18 → t.rgB (nodeMd m) MD_THERM k = s.rgB (nodeMd m) MD_THERM k
  therm : ∀ k, k < 128 → k ≠ m → t.rg (nodeMd k) MD_THERM = s.rg (nodeMd k) MD_THERM
  others : ∀ k, k ≠ m → t.md k = s.md k

theorem State.CapNamed.logged (named : s.CapNamed t m) (hm : m < 128) (logged : t.Logged u) : s.CapNamed u m := by
  have therm : ∀ k, k < 128 → u.rg (nodeMd k) MD_THERM = t.rg (nodeMd k) MD_THERM := fun k below =>
    logged.regs _ _ (by unfold nodeMd; omega) (by decide)
  exact ⟨fun k below => by rw [State.rgB, therm m hm, ← State.rgB, named.flags k below],
    fun k below other => (therm k below).trans (named.therm k below other),
    fun k other => by rw [State.md, logged.mds, ← State.md, named.others k other]⟩
theorem State.CapNamed.rated (s : State) (m v : Nat) : s.CapNamed (s.setRgF (nodeMd m) MD_THERM 19 18 v) m :=
  have only : s.CapOnly (s.setRgF (nodeMd m) MD_THERM 19 18 v) m := .setRgF s m v (by decide) (by decide)
  ⟨fun _ below => s.rgB_setRgF_outside _ _ _ (by decide) (.inl below), fun _ _ other => only.therm other, fun _ _ => rfl⟩

/-- R308: the first halving, and its cap from now on. -/
theorem State.capFirst_spec (s : State) (hm : m < 128) (now p : Nat) : let t := s.capFirst m now p
    s.CapNamed t m ∧ (t.md m).capAt = some now ∧ t.rgF (nodeMd m) MD_THERM 19 18 = 1 := by
  intro t
  let u := (s.setRgF (nodeMd m) MD_THERM 19 18 1).setMd m { s.md m with capAt := some now, cappedEver := true }
  obtain ⟨flags, therm, -⟩ := State.CapNamed.rated s m 1
  have capped : s.CapNamed u m := ⟨flags, therm, fun _ other => State.md_setMd_ne _ _ other⟩
  have logged : u.Logged t := .ite (.refl u) (.capEvent ..)
  refine ⟨capped.logged hm logged, ?cap, ?rate⟩
  case cap =>
    rw [State.md, logged.mds, ← State.md]
    exact congrArg Mdie.capAt (State.md_setMd_same ..)
  case rate =>
    rw [State.rgF, logged.regs _ _ (by unfold nodeMd; omega) (by decide)]
    exact s.rgF_setRgF _ _ 1 (by decide)

theorem State.capNamed_spec (s : State) (hm : m < 128) (now p : Nat) : let t := s.capNamed m now p
    s.CapNamed t m ∧ ((s.md m).capAt = none → (t.md m).capAt = some now ∧ t.rgF (nodeMd m) MD_THERM 19 18 = 1) ∧
      ∀ t0, (s.md m).capAt = some t0 → 100000000 ≤ now - t0 → t.rgF (nodeMd m) MD_THERM 19 18 = 2 := by
  intro t
  unfold t State.capNamed
  cases cap : (s.md m).capAt with
  | none =>
    obtain ⟨named, capped⟩ := s.capFirst_spec hm now p
    exact ⟨named, fun _ => capped, fun _ filled => nomatch filled⟩
  | some t0 =>
    refine ⟨?named, (nomatch ·), fun t1 same long => ?halved⟩
    case named =>
      dsimp only
      split
      · exact .rated ..
      · exact ⟨fun _ _ => rfl, fun _ _ _ => rfl, fun _ _ => rfl⟩
    case halved =>
      obtain rfl := Option.some.inj same
      dsimp only
      rw [if_pos long]
      exact s.rgF_setRgF _ _ 2 (by decide)

end

/-- R307, R308: every stack that is on has its flags; one at 82 °C or below has no cap. -/
theorem State.capEval_flags (s : State) {m : Nat} (hm : m < 128) (on : s.mdOn m = true) : let t := s.capEval
    t.rgB (nodeMd m) MD_THERM 16 = decide (s.hottest = some m) ∧ (680 < s.mdTemp m → t.rgB (nodeMd m) MD_THERM 17 = true) ∧
      (s.mdTemp m ≤ 656 → t.rgB (nodeMd m) MD_THERM 17 = false ∧ (t.md m).capAt = none) := by
  intro t
  have names : t = _ := s.capEval_eq
  have done := (s.capsDone s.ptc).done m hm on
  generalize (List.range 128).foldl (State.capStep s.hottest s.ptc) s = u at names done
  rcases Option.eq_none_or_eq_some s.hottest with found | ⟨q, found⟩
  · rw [found] at names
    rw [show t = u from names]
    exact ⟨done.named, done.hot, done.cool⟩
  · obtain ⟨hq, -, above⟩ := State.hottest_hot found
    obtain ⟨only, -⟩ := u.capNamed_spec hq s.ptc (s.partOfMd q)
    rw [found] at names
    replace only : u.CapNamed t q := names ▸ only
    by_cases here : m = q
    · subst here
      exact ⟨(only.flags 16 (by decide)).trans done.named, fun hot => (only.flags 17 (by decide)).trans (done.hot hot),
        fun cool => absurd cool (by omega)⟩
    · have after := done.congr (only.therm m hm here) (only.others m here)
      exact ⟨after.named, after.hot, after.cool⟩

/-- R308: the named stack takes its cap, and halves again after 100 ms. -/
theorem State.capEval_named (s : State) {m : Nat} (named : s.hottest = some m) : let t := s.capEval
    ((s.md m).capAt = none → (t.md m).capAt = some s.ptc ∧ t.rgF (nodeMd m) MD_THERM 19 18 = 1) ∧
      ∀ t0, (s.md m).capAt = some t0 → 100000000 ≤ s.ptc - t0 → t.rgF (nodeMd m) MD_THERM 19 18 = 2 := by
  intro t
  obtain ⟨hm, on, -⟩ := State.hottest_hot named
  have names : t = _ := s.capEval_eq
  have done := (s.capsDone s.ptc).done m hm on
  generalize (List.range 128).foldl (State.capStep s.hottest s.ptc) s = u at names done
  obtain ⟨-, capped⟩ := u.capNamed_spec hm s.ptc (s.partOfMd m)
  rw [named] at names
  rw [names, ← done.kept named]
  exact capped

/-- Settles O32: the failure of a stack that nothing goes to, and the evaluation of each stack, then of the named one. -/
theorem stacksFailAndAreCapped : Obligations.StacksFailAndAreCapped := by
  intro s
  refine ⟨fun m cause hm on idle without panel => ⟨fun few => ?few, fun _ fails => ⟨_, execStackFail_eq hm cause, ?fails⟩⟩,
    _, execHbmCapEval_eq s, fun m hm on => ?caps⟩
  case few => rw [execStackFail_eq hm, State.stackFail_few on few]
  case fails =>
    rw [State.stackFail_fails on fails]
    obtain ⟨ms, state, dies⟩ := State.stackFailed_idle idle without panel cause
    generalize s.stackFailed m cause = t at state dies
    let u := s.setRgB (nodeMd m) MD_STATUS 1 true
    have regs : ∀ o, t.rg (nodeMd m) o = (u.mdRecord m 3 cause 0 0 0).rg (nodeMd m) o := fun o => by rw [state]; rfl
    have info : u.rgB (nodeMd m) MD_FAULT_INFO 31 = s.rgB (nodeMd m) MD_FAULT_INFO 31 := by
      unfold u
      rw [State.rgB, State.setRgB, State.setRgF, State.rg_setRg_node, if_neg (by decide), State.rgB]
    obtain ⟨a, raised, code, -, unit, -⟩ := (u.mdRecord m 3 cause 0 0 0).raise_alert (nodeMd m) 0x3200 (unitStack m) 0
    refine ⟨?bit, fun empty => ?first, fun taken => ?kept, ⟨a, ?alert, code, unit⟩, fun k => ?mem⟩
    case bit =>
      rw [State.rgB, regs, State.rg_mdRecord_ne _ _ _ _ _ _ _ (by simp [mdRecordRegs, rkey_off]; decide), ← State.rgB]
      exact State.rgB_setRgB ..
    case first =>
      rw [regs, regs, State.rg_mdRecord_info _ _ _ _ _ _ (info.trans empty), State.rg_mdRecord_ptc _ _ _ _ _ _ (info.trans empty)]
      exact ⟨mdFaultInfo_plain 3 cause, rfl⟩
    case kept =>
      rw [regs, State.mdRecord_kept _ _ _ _ _ _ (info.trans taken)]
      unfold u
      rw [State.setRgB, State.setRgF, State.rg_setRg_node, if_neg (by decide)]
    case alert =>
      rw [state]
      refine raised.trans ?_
      rw [State.pcd_mdRecord]
      rfl
    case mem =>
      rw [dies, State.md_raise, State.md_mdRecord]
      rfl
  case caps =>
    obtain ⟨named, hot, cool⟩ := s.capEval_flags hm on
    exact ⟨named, hot, cool, fun hottest => (s.capEval_named hottest).1, fun t0 hottest => (s.capEval_named hottest).2 t0⟩

end Sys2Proof.Machine
end
